-- ==== Sys2Proof/Word.lean ====
section
/-! DEFINITION. The word types of the Gheroth model and the sparse table type its state is built from. -/

namespace Sys2Proof

/-- A 64-bit register or memory word (R1: bit 0 is the least significant). -/
abbrev Word := BitVec 64

/-- A byte of depot, HBM, flash or host memory. -/
abbrev Byte := BitVec 8

/-- A sparse table: keys strictly rising, an absent key stands for the table's default entry. -/
abbrev SMap (α : Type) := List (Nat × α)

end Sys2Proof
end

