-- ==== Sys2Proof/Syntax.lean ====
section
/-! DEFINITION. The commands of the Gheroth block: one constructor per row of the opcode table, with its operands. -/

namespace Sys2Proof

/-- A channel (R12). -/
abbrev Ch := Fin 4

/-- A cluster of a channel (R12). -/
structure Cl where
  ch : Ch
  cl : Fin 96
  deriving DecidableEq, Repr

/-- A logical tile: 8 × row + column (R173). -/
structure TileId where
  c : Cl
  t : Fin 64
  deriving DecidableEq, Repr

/-- A steward core of a cluster. -/
structure StwId where
  c : Cl
  w : Fin 2
  deriving DecidableEq, Repr

/-- A district of a channel (R12). -/
structure DistId where
  ch : Ch
  d : Fin 6
  deriving DecidableEq, Repr

/-- A Fyast Die Link end: links 0 to 3 of a field die lead to its sites, link 4 to the hub; `far` names the partner's
end of that link. -/
structure LinkId where
  ch : Ch
  n : Fin 5
  far : Bool
  deriving DecidableEq, Repr

/-- A PCIe function: 0 PF0, n VF n. -/
abbrev FnId := Fin 129

/-- A block of registers (chapter 0, Table 8-3, chapter 17). -/
inductive BlockRef
  | hub
  | ch (c : Ch)
  | dst (d : DistId)
  | cl (c : Cl)
  | tl (t : TileId)
  | seal (c : Ch)
  | fdl (l : LinkId)
  | ct (c : Ch)
  | fn (f : FnId)
  deriving DecidableEq, Repr

/-- An offset in a block of registers. -/
structure RegAddr where
  blk : BlockRef
  off : Nat
  deriving DecidableEq, Repr

/-- Registers of a function's configuration space that the spec gives a content (R347, R363, R367, R369, R371): class code, power
management control, MSI-X control, AER uncorrectable status, SR-IOV control and NumVFs, the vendor-specific status word. The spec
gives an offset of the last alone, so they go by name. -/
inductive CfgReg
  | classCode
  | pmControl
  | msixControl
  | aerStatus
  | sriovControl
  | sriovNumVfs
  | vendorStatus
  deriving DecidableEq, Repr

/-- Where a register access is aimed: at an offset of a block, at an offset of the requesting function's BAR0 (R348, R372), or at a
register of its configuration space (R347). -/
inductive RegPlace
  | blk (a : RegAddr)
  | bar0 (off : Nat)
  | cfg (c : CfgReg)
  deriving DecidableEq, Repr

/-- Who makes a register access (R9, R530, R565). -/
inductive Requester
  /-- the hub's own firmware -/
  | hub
  /-- a host function: PF0 or a VF -/
  | fn (f : FnId)
  /-- the management controller, for a `REG_READ` or `REG_WRITE` -/
  | mgmt
  /-- the JTAG debugger -/
  | jtag
  /-- steward code, at its present privilege -/
  | stw (w : StwId)
  deriving DecidableEq, Repr

/-- A queue whose freed credit is on its way to the sender (R44). -/
inductive CreditQ
  | router (t : TileId) (port : Fin 5)
  | token (t : TileId) (port : Fin 5)
  | array (c : Cl) (port : Fin 16)
  | depot (c : Cl) (port : Fin 16)
  | mesh (c : Cl) (inp : Fin 8)
  deriving DecidableEq, Repr

/-- What an error event found (chapter 22, *Mechanism*; R474). -/
inductive EvKind
  | corrected
  | retried
  | persistent
  /-- an FDL retry or an uncorrectable FEC codeword -/
  | linkRetry
  /-- an FDL retrain -/
  | linkRetrain
  deriving DecidableEq, Repr

/-- The thing an error event concerns, where the event changes more than the fault controller (R473). -/
inductive EvPlace
  /-- nothing but the location -/
  | plain
  /-- a lane of a tile register -/
  | tileReg (t : TileId) (v : Fin 128) (lane : Fin 32)
  /-- an entry of a router input queue -/
  | tileFlit (t : TileId) (port : Fin 5) (pos : Fin 8)
  /-- an instruction slot or a route entry -/
  | tileSlot (t : TileId)
  /-- a register of a steward -/
  | stwReg (w : StwId)
  /-- a depot word or an HBM granule, by TGA with `PKG` 0 -/
  | word (a : Nat)
  /-- a mesh beat: the request it carries, by its number in the channel -/
  | meshBeat (ch : Ch) (no : Nat)
  /-- a 64-bit word of a scratch row -/
  | scratch (t : TileId) (row : Fin 256) (word : Fin 8)
  /-- an entry of the holding pen, oldest first: its data, or its metadata -/
  | penEntry (c : Cl) (pos : Nat) (metadata : Bool)
  /-- a word of the queue store, in a queue -/
  | queueWord (c : Cl) (q : Fin 16)
  /-- a word of a sync bank, which holds an object -/
  | syncWord (ch : Ch) (obj : Fin 65536)
  /-- a word of the Seal unit's own stores -/
  | sealStore (ch : Ch)
  /-- a location of the hub SRAM that holds boot firmware state, ring state, the RPT copies or the fault log -/
  | hubState
  deriving DecidableEq, Repr

/-- An error event: reporting controller (0 to 3 a channel, 4 the hub), source type, unit, cluster (127 for a channel
unit), location, kind, the SYSCLK count at the event, and what it concerns. -/
structure FaultEv where
  src : Fin 5
  ty : Fin 16
  unit : Nat
  cluster : Fin 128
  loc : Word
  kind : EvKind
  time : Word
  place : EvPlace
  deriving DecidableEq, Repr

/-- Where a cold reset cuts a store operation (Table 23-8). -/
inductive NvCut
  | erase
  | intent
  | body
  /-- during the commit word, which then reads 0, or reads something else -/
  | commit (zero : Bool)
  deriving DecidableEq, Repr

/-- A core that `DBGHALT` names. -/
inductive HaltTarget
  | tile (t : TileId)
  | stw (w : StwId)
  deriving DecidableEq, Repr


/-- How a device read of host memory fails (R368): a timeout, poisoned data, any other completion. -/
inductive HostFail
  | timeout
  | poisoned
  | refused
  deriving DecidableEq, Repr

/-- The commands of the block: one constructor per row of the opcode table, in the table's order. -/
inductive Instr
  /-- `REGISTER_WRITE` (R3). A host, steward, management or debug write to a register that has no row of its own, with the access codes, width rules and half-register holding applied. -/
  | registerWrite (r : Requester) (a : RegPlace) (n : Nat) (v : Word)
  /-- `HUB_CAPS_MIRROR_UPDATE` (R32). A capability update arrives at the hub over the hub link, and HUB_CHCAPSn and CH_LIVE are updated before any report is released. -/
  | hubCapsMirrorUpdate (ch : Ch)
  /-- `FLIT_ROUTE` (R42). The flit at the head of a router input queue is granted round-robin to the outputs its route entry names, forked where needed, and leaves once every copy has gone. -/
  | flitRoute (t : TileId)
  /-- `CREDIT_RETURN` (R44). A credit freed when a flit leaves a queue becomes usable by the sender two cycles later. -/
  | creditReturn (q : CreditQ)
  /-- `EGRESS_TOKEN` (R238). The token at the head of a gateway array port is turned, under its egress entry, into a queue message, a WRITE, buffer flits or a sync signal, or is steered into the holding pen. -/
  | egressToken (c : Cl) (port : Fin 16)
  /-- `GATEWAY_MESH_HOP` (R51). A packet at a gateway mesh or express input is forwarded one hop by dimension-order routing, taking an express link when its remaining distance is 4 or more. -/
  | gatewayMeshHop (c : Cl) (inp : Fin 9)
  /-- `TL_CTRL_HALT` (R55). A write of HALT to TL_CTRL requests that the tile halt. -/
  | tlCtrlHalt (r : Requester) (t : TileId)
  /-- `TILE_HALT_EFFECT` (R55). In the first cycle in which no instruction fires, a pending halt request places the tile in HALTED and clears the request. -/
  | tileHaltEffect (t : TileId)
  /-- `TL_CTRL_RESUME` (R55). A write of RESUME to TL_CTRL returns a halted tile to RUN. -/
  | tlCtrlResume (r : Requester) (t : TileId)
  /-- `TL_CTRL_STEP` (R55). A write of STEP to TL_CTRL lets a halted tile fire one instruction and halt again. -/
  | tlCtrlStep (r : Requester) (t : TileId)
  /-- `TL_RNGSEED_WRITE` (R111). A write of TL_RNGSEED sets the generator state of all 32 lanes from the seed. -/
  | tlRngseedWrite (r : Requester) (t : TileId) (v : Word)
  /-- `TILE_RESERVED_ENCODING` (R69). The tile reaches a reserved encoding, fires nothing and enters FAULTED with UNIT_ABSENT. -/
  | tileReservedEncoding (t : TileId)
  /-- `NOP` (R74). NOP fires once its named sources are present and consumes those marked consumed. -/
  | tNop (t : TileId)
  /-- `END` (R74). END places the tile in HALTED with PC unchanged. -/
  | tEnd (t : TileId)
  /-- `JMP` (R74). JMP sets PC to its target. -/
  | tJmp (t : TileId)
  /-- `BR` (R74). BR branches on any, no, all or not-all bits of a predicate register. -/
  | tBr (t : TileId)
  /-- `LOOP` (R74). LOOP decrements lane 0 of its counter and branches while the result is not 0. -/
  | tLoop (t : TileId)
  /-- `DROP` (R74). DROP consumes the head token of each named port. -/
  | tDrop (t : TileId)
  /-- `MAC` (R75). MAC forms the exact lane sum of element products and accumulator and rounds it once. -/
  | tMac (t : TileId)
  /-- `MACB` (R75). MACB performs MAC with every lane's A taken from one chosen lane. -/
  | tMacb (t : TileId)
  /-- `MUL` (R75). MUL multiplies BF16 or FP16 lanes. -/
  | tMul (t : TileId)
  /-- `ADD` (R75). ADD adds BF16 or FP16 lanes. -/
  | tAdd (t : TileId)
  /-- `SUB` (R75). SUB subtracts BF16 or FP16 lanes. -/
  | tSub (t : TileId)
  /-- `MAX` (R75). MAX takes the larger of BF16 or FP16 lanes. -/
  | tMax (t : TileId)
  /-- `MIN` (R75). MIN takes the smaller of BF16 or FP16 lanes. -/
  | tMin (t : TileId)
  /-- `MMAC` (R76). MMAC accumulates scaled MX block products into an FP32 pair. -/
  | tMmac (t : TileId)
  /-- `IMAC` (R76). IMAC accumulates signed INT8 or INT4 products into an INT32 pair modulo 2^32. -/
  | tImac (t : TileId)
  /-- `IADD` (R76). IADD adds INT16 lanes, wrapping or saturating. -/
  | tIadd (t : TileId)
  /-- `ISUB` (R76). ISUB subtracts INT16 lanes, wrapping or saturating. -/
  | tIsub (t : TileId)
  /-- `IAND` (R76). IAND forms the bitwise and of lanes. -/
  | tIand (t : TileId)
  /-- `IOR` (R76). IOR forms the bitwise or of lanes. -/
  | tIor (t : TileId)
  /-- `IXOR` (R76). IXOR forms the bitwise exclusive-or of lanes. -/
  | tIxor (t : TileId)
  /-- `ISHL` (R76). ISHL shifts lanes left. -/
  | tIshl (t : TileId)
  /-- `ISHR` (R76). ISHR shifts lanes right, arithmetically or logically. -/
  | tIshr (t : TileId)
  /-- `FMA` (R77). FMA computes c + a × b in FP32 rounded once. -/
  | tFma (t : TileId)
  /-- `FADD` (R77). FADD adds FP32 pairs. -/
  | tFadd (t : TileId)
  /-- `FSUB` (R77). FSUB subtracts FP32 pairs. -/
  | tFsub (t : TileId)
  /-- `FMUL` (R77). FMUL multiplies FP32 pairs. -/
  | tFmul (t : TileId)
  /-- `FMAX` (R77). FMAX takes the larger of FP32 pairs. -/
  | tFmax (t : TileId)
  /-- `FMIN` (R77). FMIN takes the smaller of FP32 pairs. -/
  | tFmin (t : TileId)
  /-- `FN` (R112). FN evaluates an approximated FP32 function within its error bound. -/
  | tFn (t : TileId)
  /-- `CVT` (R79). CVT converts between the format pairs of Table 4-9 at the lanes POS selects. -/
  | tCvt (t : TileId)
  /-- `MOV` (R78). MOV copies a register bit for bit. -/
  | tMov (t : TileId)
  /-- `PERM` (R78). PERM permutes lanes by an index operand. -/
  | tPerm (t : TileId)
  /-- `ROT` (R78). ROT rotates lanes by an immediate. -/
  | tRot (t : TileId)
  /-- `BCST` (R78). BCST broadcasts one lane to every lane. -/
  | tBcst (t : TileId)
  /-- `SEL` (R78). SEL selects each lane from A or B by a predicate register. -/
  | tSel (t : TileId)
  /-- `RSUM` (R80). RSUM sums the active lanes of each segment pairwise in FP32 or as integers. -/
  | tRsum (t : TileId)
  /-- `RMAX` (R80). RMAX gives the maximum of each segment's active lanes. -/
  | tRmax (t : TileId)
  /-- `RMIN` (R80). RMIN gives the minimum of each segment's active lanes. -/
  | tRmin (t : TileId)
  /-- `RAMAX` (R80). RAMAX gives the maximum magnitude of each segment's active lanes. -/
  | tRamax (t : TileId)
  /-- `RBEXP` (R80). RBEXP computes the E8M0 block scale of the 32 lanes. -/
  | tRbexp (t : TileId)
  /-- `FWD` (R81). FWD emits source A unchanged as a vector token or pair. -/
  | tFwd (t : TileId)
  /-- `FWDH` (R81). FWDH emits 16 chosen lanes of A as a half token. -/
  | tFwdh (t : TileId)
  /-- `PCMP` (R82). PCMP writes a predicate register from a lane comparison. -/
  | tPcmp (t : TileId)
  /-- `PLOG` (R82). PLOG combines two predicate registers logically. -/
  | tPlog (t : TileId)
  /-- `PSET` (R82). PSET sets the predicate bits of a lane range. -/
  | tPset (t : TileId)
  /-- `PCLS` (R82). PCLS sets predicate bits by floating-point class. -/
  | tPcls (t : TileId)
  /-- `LD` (R83). LD loads a scratch row into the active lanes. -/
  | tLd (t : TileId)
  /-- `LDH` (R83). LDH loads half a scratch row into 16 lanes. -/
  | tLdh (t : TileId)
  /-- `LDE` (R83). LDE broadcasts one 16-bit element of a scratch row. -/
  | tLde (t : TileId)
  /-- `ST` (R567). ST stores active lanes into a scratch row, merging partial words and marking poison. -/
  | tSt (t : TileId)
  /-- `STH` (R567). STH stores 16 lanes into half a scratch row. -/
  | tSth (t : TileId)
  /-- `TKENT` (R84). TKENT places the tile in a take slot. -/
  | tTkent (t : TileId)
  /-- `TKLV` (R84). TKLV takes the tile out of its take slot. -/
  | tTklv (t : TileId)
  /-- `SIG` (R85). SIG emits a sync signal half token toward a sync object. -/
  | tSig (t : TileId)
  /-- `ILLEGAL_INSTRUCTION` (R121). A steward reaches an illegal instruction and traps with kind ILLEGAL. -/
  | illegalInstruction (w : StwId)
  /-- `ALU` (R123). ALU performs the 64-bit integer operation its FN selects. -/
  | sAlu (w : StwId)
  /-- `ADDI` (R123). ADDI adds an immediate. -/
  | sAddi (w : StwId)
  /-- `ANDI` (R123). ANDI ands an immediate. -/
  | sAndi (w : StwId)
  /-- `ORI` (R123). ORI ors an immediate. -/
  | sOri (w : StwId)
  /-- `XORI` (R123). XORI exclusive-ors an immediate. -/
  | sXori (w : StwId)
  /-- `SHI` (R123). SHI shifts by an immediate amount. -/
  | sShi (w : StwId)
  /-- `SLTI` (R123). SLTI compares with an immediate, signed. -/
  | sSlti (w : StwId)
  /-- `BEQ` (R123). BEQ branches when two registers are equal. -/
  | sBeq (w : StwId)
  /-- `BNE` (R123). BNE branches when two registers differ. -/
  | sBne (w : StwId)
  /-- `BLT` (R123). BLT branches on signed less-than. -/
  | sBlt (w : StwId)
  /-- `BGE` (R123). BGE branches on signed greater-or-equal. -/
  | sBge (w : StwId)
  /-- `BLTU` (R123). BLTU branches on unsigned less-than. -/
  | sBltu (w : StwId)
  /-- `BGEU` (R123). BGEU branches on unsigned greater-or-equal. -/
  | sBgeu (w : StwId)
  /-- `JAL` (R123). JAL saves pc + 4 and jumps relative. -/
  | sJal (w : StwId)
  /-- `JALR` (R123). JALR saves pc + 4 and jumps to a register plus immediate. -/
  | sJalr (w : StwId)
  /-- `CSR` (R127). CSR reads, writes, sets or clears a special register, trapping on a privilege breach. -/
  | sCsr (w : StwId)
  /-- `SYSC` (R123). SYSC traps with kind SYSCALL. -/
  | sSysc (w : StwId)
  /-- `RETT` (R128). RETT returns from a trap to epc and the previous privilege. -/
  | sRett (w : StwId)
  /-- `HRET` (R136). HRET ends an active-message handler, removing its message and returning to hepc. -/
  | sHret (w : StwId)
  /-- `HALT` (R123). The steward HALT instruction stops the steward in HALTED. -/
  | sHalt (w : StwId)
  /-- `FENCE_L` (R138). FENCE.L stalls until earlier local stores are visible. -/
  | sFenceL (w : StwId)
  /-- `FENCE_G` (R138). FENCE.G stalls until earlier global stores and sends are acknowledged and traps POSTED on a recorded failure. -/
  | sFenceG (w : StwId)
  /-- `FENCE_I` (R136). FENCE.I discards the steward's instruction cache. -/
  | sFenceI (w : StwId)
  /-- `LI` (R123). LI loads a sign-extended 32-bit immediate. -/
  | sLi (w : StwId)
  /-- `LIH` (R123). LIH loads the upper 32 bits of a register. -/
  | sLih (w : StwId)
  /-- `LDL` (R124). LDL loads from the steward's own depot. -/
  | sLdl (w : StwId)
  /-- `STL` (R124). STL stores to the steward's own depot, or logs an undo record under a take. -/
  | sStl (w : StwId)
  /-- `LDG` (R125). LDG issues a global load by TGA and stalls until its data returns. -/
  | sLdg (w : StwId)
  /-- `STG` (R126). STG posts a global store, or holds it in the pen under a take. -/
  | sStg (w : StwId)
  /-- `GLOBAL_LOAD_RETURN` (R125). A global load's data or failure returns, resuming the steward or trapping it with kind ACCESS. -/
  | globalLoadReturn (w : StwId)
  /-- `POSTED_ACK_RETURN` (R126). The acknowledgement of a posted store or send returns, freeing its count and recording any failure in serr. -/
  | postedAckReturn (w : StwId)
  /-- `DLY_ISSUE` (R130). DLY.ISSUE reads a descriptor into the lowest free dolly slot and returns a ticket. -/
  | sDlyIssue (w : StwId)
  /-- `DLY_WAIT` (R130). DLY.WAIT stalls until a ticket's descriptor completes and returns its code. -/
  | sDlyWait (w : StwId)
  /-- `DLY_POLL` (R130). DLY.POLL returns a completed descriptor's code or 0x100. -/
  | sDlyPoll (w : StwId)
  /-- `DOLLY_REQUEST_ISSUE` (R190). A running descriptor issues its next read or write request of up to 512 bytes once entries, credit and buffer room allow. -/
  | dollyRequestIssue (c : Cl) (slot : Fin 64)
  /-- `DOLLY_DATA_RETURN` (R199). Read data of a dolly request returns and is written, decoded through EGC or appended to a stream buffer. -/
  | dollyDataReturn (c : Cl) (slot : Fin 64)
  /-- `DESCRIPTOR_COMPLETE` (R197). A descriptor completes once its writes are performed, sends its SIG signal and frees or holds its slot. -/
  | descriptorComplete (c : Cl) (slot : Fin 64)
  /-- `QSND` (R226). QSND sends a depot message to a queue address, stalling while no send buffer is free. -/
  | sQsnd (w : StwId)
  /-- `QRCV` (R231). QRCV copies and removes the head message of a queue, stalling while it is empty. -/
  | sQrcv (w : StwId)
  /-- `SYNC_RD` (R246). SYNC.RD returns an object's value or phase. -/
  | sSyncRd (w : StwId)
  /-- `SYNC_ADD` (R246). SYNC.ADD posts an add to a sync object. -/
  | sSyncAdd (w : StwId)
  /-- `SYNC_SET` (R246). SYNC.SET posts a set of a sync object. -/
  | sSyncSet (w : StwId)
  /-- `SYNC_WGE` (R253). SYNC.WGE registers a wait until the value reaches a threshold. -/
  | sSyncWge (w : StwId)
  /-- `BAR_ARV` (R249). BAR.ARV posts one barrier arrival. -/
  | sBarArv (w : StwId)
  /-- `BAR_WAIT` (R250). BAR.WAIT registers a wait for the barrier's next release. -/
  | sBarWait (w : StwId)
  /-- `BAR_ARW` (R250). BAR.ARW sends an arrival and a registration together and waits for the release. -/
  | sBarArw (w : StwId)
  /-- `TAKE_OPEN` (R275). TAKE.OPEN opens the lowest free take slot. -/
  | sTakeOpen (w : StwId)
  /-- `TAKE_COMMIT` (R281). TAKE.COMMIT clears the slot's marks and releases its pen records to their targets in order. -/
  | sTakeCommit (w : StwId)
  /-- `TAKE_SQUASH` (R283). TAKE.SQUASH poisons marked state, rewinds rings, cancels tagged descriptors and applies undo records. -/
  | sTakeSquash (w : StwId)
  /-- `TAKE_ACTION_RESUME` (R277). A commit or squash stalled behind another in the cluster begins once the earlier one completes. -/
  | takeActionResume (c : Cl)
  /-- `TAKE_ENTER` (R133). TAKE.ENTER makes the take register valid for a slot. -/
  | sTakeEnter (w : StwId)
  /-- `TAKE_LEAVE` (R133). TAKE.LEAVE invalidates the take register. -/
  | sTakeLeave (w : StwId)
  /-- `TAKE_STAT` (R133). TAKE.STAT returns the open slots and those with deferred exceptions. -/
  | sTakeStat (w : StwId)
  /-- `PRED_Q` (R289). PRED.Q queries the expert-history predictor for a key. -/
  | sPredQ (w : StwId)
  /-- `PRED_U` (R289). PRED.U trains the predictor entry of a key with the actual experts. -/
  | sPredU (w : StwId)
  /-- `SEAL_CONVOY` (R317). SEAL.CONVOY submits a convoy descriptor to the Seal queue and returns a ticket. -/
  | sSealConvoy (w : StwId)
  /-- `SEAL_WAIT` (R317). SEAL.WAIT stalls until a Seal ticket completes and returns its code. -/
  | sSealWait (w : StwId)
  /-- `SEAL_POLL` (R317). SEAL.POLL returns a Seal ticket's code or 0x100. -/
  | sSealPoll (w : StwId)
  /-- `SEAL_CTX` (R314). SEAL.CTX enters a context load into the Seal queue. -/
  | sSealCtx (w : StwId)
  /-- `SEAL_HDR` (R328). SEAL.HDR reads the first 8 bytes of a ciphertext header as a global load. -/
  | sSealHdr (w : StwId)
  /-- `CL_STW_CTRL_HALT` (R142). A write of HALT to CL_STWn_CTRL requests that a steward halt. -/
  | clStwCtrlHalt (r : Requester) (w : StwId)
  /-- `STEWARD_HALT_EFFECT` (R142). At the next boundary, or by abandoning a stalled wait, the steward enters HALTED. -/
  | stewardHaltEffect (w : StwId)
  /-- `CL_STW_CTRL_RESUME` (R142). A write of RESUME to CL_STWn_CTRL returns a halted steward to RUN. -/
  | clStwCtrlResume (r : Requester) (w : StwId)
  /-- `CL_STW_CTRL_STEP` (R142). A write of STEP to CL_STWn_CTRL completes one instruction and halts again. -/
  | clStwCtrlStep (r : Requester) (w : StwId)
  /-- `CH_LDCTRL_GO` (R150). GO in IDLE copies the load request shadow to the live request and enters FETCH. -/
  | chLdctrlGo (r : Requester) (ch : Ch)
  /-- `LOAD_FETCH_DONE` (R151). The first reel pass ends, with the header, structure and CRC checked. -/
  | loadFetchDone (ch : Ch)
  /-- `LOAD_CHECK_DONE` (R152). The load checks are applied in order, and the clusters are taken with their gates shut or the load is refused or failed. -/
  | loadCheckDone (ch : Ch)
  /-- `LOAD_WRITE_DONE` (R153). The second reel pass has written tiles, tables, steward code and bindings, and the CRC is checked again. -/
  | loadWriteDone (ch : Ch)
  /-- `PRELOAD_DONE` (R154). Every preload descriptor has completed with NONE, and the section enters ARMED. -/
  | preloadDone (ch : Ch)
  /-- `CH_LDCTRL_START` (R158). START starts an armed section whose start source is 1. -/
  | chLdctrlStart (r : Requester) (ch : Ch)
  /-- `CH_LDCTRL_CLEAR` (R163). CLEAR in FAILED frees the failed load's clusters and releases LOADFAIL_N. -/
  | chLdctrlClear (r : Requester) (ch : Ch)
  /-- `CH_LDCTRL_UNLOAD` (R164). UNLOAD begins the unload of a running section, or abandons an armed one. -/
  | chLdctrlUnload (r : Requester) (ch : Ch)
  /-- `CH_LDCTRL_COMMIT` (R156). COMMIT checks and applies the start-up order shadow to an armed section. -/
  | chLdctrlCommit (r : Requester) (ch : Ch)
  /-- `STARTUP_STEP_ISSUE` (R155). After the gap, the next start-up step of the order is issued to every district of the section. -/
  | startupStepIssue (ch : Ch)
  /-- `STARTUP_STEP_COMPLETE` (R160). Every district acknowledges a step, and the load completes after the fourth. -/
  | startupStepComplete (ch : Ch)
  /-- `STARTUP_STEP_TIMEOUT` (R160). A step not complete after 200 µs ends the load in FAILED with UNIT_ABSENT. -/
  | startupStepTimeout (d : DistId)
  /-- `UNLOAD_DONE` (R164). Posted writes have completed and the section's clusters become unowned. -/
  | unloadDone (ch : Ch)
  /-- `DEPOT_BANK_GRANT` (R177). A depot bank grants a steward request or a burst and performs its access, with ECC correction and write-back. -/
  | depotBankGrant (c : Cl) (bank : Fin 32)
  /-- `STACK_SLOT_GRANT` (R194). A stack-site edge router grants one access slot by class credits, and the HBM access is performed. -/
  | stackSlotGrant (ch : Ch) (site : Fin 4)
  /-- `TT_ENTRY_ASSIGN` (R191). A freed transaction table entry is given round-robin to a waiting request. -/
  | ttEntryAssign (ch : Ch)
  /-- `CH_BWSPLIT_COMMIT` (R192). COMMIT of CH_BWSPLIT checks and accepts new class shares. -/
  | chBwsplitCommit (r : Requester) (ch : Ch)
  /-- `BWSPLIT_FRAME_BOUNDARY` (R192). At a router's frame boundary an accepted split takes effect and credits restart. -/
  | bwsplitFrameBoundary (ch : Ch) (site : Fin 4)
  /-- `CL_SB_CTRL_COMMIT` (R203). COMMIT of a stream buffer places a valid shadow configuration pending. -/
  | clSbCtrlCommit (r : Requester) (c : Cl) (n : Fin 32)
  /-- `SB_CONFIG_APPLY` (R204). A pending buffer configuration takes effect in the cycle after the buffer is idle. -/
  | sbConfigApply (c : Cl) (n : Fin 32)
  /-- `CL_SB_CTRL_SWAP` (R213). SWAP sets SWAPREQ on a halves buffer. -/
  | clSbCtrlSwap (r : Requester) (c : Cl) (n : Fin 32)
  /-- `SB_SWAP` (R213). When the fill half is filled and the drain half free, the halves swap. -/
  | sbSwap (c : Cl) (n : Fin 32)
  /-- `CL_SB_CTRL_PUB` (R210). PUB publishes the fill slot of a steward-produced buffer. -/
  | clSbCtrlPub (r : Requester) (c : Cl) (n : Fin 32)
  /-- `CL_SB_CTRL_REL` (R212). REL releases the head slot of a steward-consumed buffer. -/
  | clSbCtrlRel (r : Requester) (c : Cl) (n : Fin 32)
  /-- `CL_SB_CTRL_FLUSH` (R214). FLUSH publishes a partly filled slot. -/
  | clSbCtrlFlush (r : Requester) (c : Cl) (n : Fin 32)
  /-- `DEPOT_INTERFACE_FLIT` (R209). A flit leaving the array at a depot interface port is written into its matching stream buffer. -/
  | depotInterfaceFlit (c : Cl) (port : Fin 16)
  /-- `DEPOT_PORT_EMIT` (R211). A depot interface port emits the next flit of a published head slot into the array, releasing the slot after the last pass. -/
  | depotPortEmit (c : Cl) (port : Fin 16) (n : Fin 32)
  /-- `QUEUE_ARRIVAL` (R227). A message reaches its destination gateway and is checked, then enqueued, held or dropped. -/
  | queueArrival (c : Cl) (inp : Fin 9)
  /-- `MESSAGE_ENQUEUE_AFTER_WAIT` (R230). A message held at a gateway input for a full queue is enqueued once the queue dequeues. -/
  | messageEnqueueAfterWait (c : Cl) (inp : Fin 9)
  /-- `HANDLER_DISPATCH` (R232). A DISPATCH queue's head message starts its handler on the chosen steward at an eligible boundary. -/
  | handlerDispatch (w : StwId)
  /-- `CL_QCTRL_POISON` (R235). POISON of CL_QCTRLn poisons a queue. -/
  | clQctrlPoison (r : Requester) (c : Cl) (q : Fin 16)
  /-- `CL_QCTRL_UNPOISON` (R236). UNPOISON discards a queue's entries and clears its poison. -/
  | clQctrlUnpoison (r : Requester) (c : Cl) (q : Fin 16)
  /-- `CL_QCFG_WRITE` (R225). A write to CL_QCFGn takes effect when the queue is empty and no handler runs, or is discarded. -/
  | clQcfgWrite (r : Requester) (c : Cl) (q : Fin 16) (v : Word)
  /-- `CL_HT_WRITE` (R225). A write to CL_HTn takes effect in the next cycle. -/
  | clHtWrite (r : Requester) (c : Cl) (n : Fin 256) (v : Word)
  /-- `SYNC_OPERATION` (R246). A sync operation reaches its object's bank and acts on the COUNTER or BARRIER. -/
  | syncOperation (ch : Ch) (bank : Fin 4)
  /-- `WAIT_REGISTRATION` (R253). A wait registration reaches the bank and is satisfied at once, held, or answered busy. -/
  | waitRegistration (ch : Ch) (bank : Fin 4)
  /-- `REMOTE_WAIT_RETRY` (R253). A registration answered busy is repeated 1 µs later. -/
  | remoteWaitRetry (ch : Ch)
  /-- `STEWARD_PARK` (R254). A LEND waiter still waiting THRESH cycles after its wait point parks. -/
  | stewardPark (w : StwId)
  /-- `SYNC_OUT_PULSE` (R252). The hub drives a requested SYNC_OUT pulse once 100 µs have passed since the previous one. -/
  | syncOutPulse
  /-- `SYNC_OUT_END` (R469). 1 µs after a SYNC_OUT pulse begins, the pin returns low. -/
  | syncOutEnd
  /-- `CH_SYNCSEL_WRITE` (R242). A write of CH_SYNCSEL samples the named object's configuration and state. -/
  | chSyncselWrite (r : Requester) (ch : Ch) (v : Word)
  /-- `CH_SYNCCTRL_POISON` (R257). POISON of CH_SYNCCTRL poisons the selected object and traps its waiters. -/
  | chSyncctrlPoison (r : Requester) (ch : Ch)
  /-- `CH_SYNCCTRL_UNPOISON` (R258). UNPOISON clears the selected object's poison and count. -/
  | chSyncctrlUnpoison (r : Requester) (ch : Ch)
  /-- `STALL_WINDOW_EXPIRY` (R263). A cluster's age reaches the stall window and a spill round spills its stuck queues. -/
  | stallWindowExpiry (c : Cl) (young : List Nat)
  /-- `DST_STALLCFG_WRITE` (R263). A write of DST_STALLCFG changes the window or EN, and may start rounds in the next cycle. -/
  | dstStallcfgWrite (r : Requester) (d : DistId) (v : Word)
  /-- `SIDING_ENGINE_CYCLE` (R268). The siding engine moves one staging entry to a list tail and reads one list unit ahead for re-injection. -/
  | sidingEngineCycle (c : Cl)
  /-- `CH_PREDCTRL_CLEAR` (R290). CLEAR invalidates every predictor entry. -/
  | chPredctrlClear (r : Requester) (ch : Ch)
  /-- `CH_NFCTRL_ARM` (R298). ARM sets the write guard to PENDING. -/
  | chNfctrlArm (r : Requester) (ch : Ch)
  /-- `CH_NFCTRL_ABORT` (R298). ABORT forces the next verdict sample to 1. -/
  | chNfctrlAbort (r : Requester) (ch : Ch)
  /-- `CH_NFCFG_COMMIT` (R293). COMMIT checks the monitor and window shadow. -/
  | chNfcfgCommit (r : Requester) (ch : Ch)
  /-- `NF_CONFIG_APPLY` (R293). An accepted monitor configuration takes effect at the next safe point with no write held. -/
  | nfConfigApply (ch : Ch)
  /-- `SEAL_ENTRY_BEGIN` (R318). The next Seal queue entry begins once the previous one has completed. -/
  | sealEntryBegin (ch : Ch)
  /-- `SEAL_CONTEXT_LOAD_DONE` (R315). A context load completes after its checks, leaving the context VALID, FAILED or INVALID. -/
  | sealContextLoadDone (ch : Ch)
  /-- `SEAL_CHECK_DONE` (R319). The convoy's CHECK phase has read and checked its inputs, including noise policy. -/
  | sealCheckDone (ch : Ch)
  /-- `SEAL_REFRESH_DONE` (R338). The REFRESH phase's PBS and KSW passes over marked operands complete. -/
  | sealRefreshDone (ch : Ch)
  /-- `SEAL_PBS_PASS_DONE` (R322). A PBS pass over up to 64 accumulators completes. -/
  | sealPbsPassDone (ch : Ch)
  /-- `SEAL_KSW_PASS_DONE` (R322). A KSW pass completes. -/
  | sealKswPassDone (ch : Ch)
  /-- `SEAL_LINEAR_DONE` (R320). A BCONV or LIN operation completes without a key pass. -/
  | sealLinearDone (ch : Ch)
  /-- `KEY_STREAM_READ` (R329). The Seal unit issues a key-stream read of up to 512 bytes, one GGSW entry ahead. -/
  | keyStreamRead (ch : Ch)
  /-- `SEAL_WRITE_BEGIN` (R324). The convoy reaches its write point once the submitting cluster's WRITES gate is open. -/
  | sealWriteBegin (ch : Ch)
  /-- `SEAL_CONVOY_COMPLETE` (R325). A convoy completes with its code, signals and frees or holds its entry. -/
  | sealConvoyComplete (ch : Ch)
  /-- `SEAL_CTRL_DISABLE` (R343). DISABLE aborts the running convoy before its write point and refuses queued entries. -/
  | sealCtrlDisable (r : Requester) (ch : Ch)
  /-- `SEAL_CTRL_ENABLE` (R343). ENABLE clears DISABLED. -/
  | sealCtrlEnable (r : Requester) (ch : Ch)
  /-- `PERST_N_EDGE` (R366). PERST_N is asserted and the filter begins timing it. -/
  | perstNEdge
  /-- `PERST_N_FILTER_EXPIRY` (R366). PERST_N held for 1 µs resets the host port and disables every function. -/
  | perstNFilterExpiry
  /-- `PERST_N_DEASSERT` (R367). PERST_N deasserts and link training starts. -/
  | perstNDeassert
  /-- `PCIE_LINK_READY` (R367). The port becomes ready and stops answering with Configuration Request Retry Status. -/
  | pcieLinkReady (rate : Nat) (width : Nat) (flit : Bool)
  /-- `PCIE_LINK_DOWN` (R366). Hot Reset or Link Down resets the host port as PERST_N does. -/
  | pcieLinkDown
  /-- `POWER_STATE_WRITE` (R347). A function is placed in D3hot or D0. -/
  | powerStateWrite (f : FnId) (d3 : Bool)
  /-- `SUBMISSION_DOORBELL` (R354). A write to a ring's submission doorbell sets its tail. -/
  | submissionDoorbell (f : FnId) (ring : Fin 64) (v : Word)
  /-- `COMPLETION_DOORBELL` (R354). A write to a ring's completion doorbell releases completion slots. -/
  | completionDoorbell (f : FnId) (ring : Fin 64) (v : Word)
  /-- `EVENT_QUEUE_DOORBELL` (R362). A write to the event queue head doorbell releases event slots. -/
  | eventQueueDoorbell (f : FnId) (v : Word)
  /-- `VF_RING_CTRL_COMMIT` (R352). COMMIT of a ring's configuration applies at once or waits for its safe point. -/
  | vfRingCtrlCommit (r : Requester) (f : FnId) (ring : Fin 64)
  /-- `RING_CONFIG_APPLY` (R352). At the ring's safe point the pending configuration replaces the live one. -/
  | ringConfigApply (f : FnId) (ring : Fin 64)
  /-- `VF_RING_CTRL_ENABLE` (R353). ENABLE starts or resumes fetching from a ring. -/
  | vfRingCtrlEnable (r : Requester) (f : FnId) (ring : Fin 64)
  /-- `VF_RING_CTRL_DISABLE` (R353). DISABLE stops a ring's fetching at once. -/
  | vfRingCtrlDisable (r : Requester) (f : FnId) (ring : Fin 64)
  /-- `VF_EVQ_CTRL_COMMIT` (R352). COMMIT of the event queue's configuration. -/
  | vfEvqCtrlCommit (r : Requester) (f : FnId)
  /-- `VF_EVQ_CTRL_ENABLE` (R362). ENABLE starts the event queue. -/
  | vfEvqCtrlEnable (r : Requester) (f : FnId)
  /-- `VF_EVQ_CTRL_DISABLE` (R362). DISABLE stops the event queue. -/
  | vfEvqCtrlDisable (r : Requester) (f : FnId)
  /-- `RING_FETCH` (R355). The hub issues a fetch of up to 8 entries of a ring, granted round-robin. -/
  | ringFetch
  /-- `RING_ENTRY_ARRIVE` (R358). Fetched entries arrive and each is checked and started in ring order. -/
  | ringEntryArrive (f : FnId) (ring : Fin 64) (entries : List Word)
  /-- `FENCED_COMMAND_START` (R355). An entry with FENCE starts once every earlier entry of its ring has completed. -/
  | fencedCommandStart (f : FnId) (ring : Fin 64)
  /-- `CMD_NOP` (R357). The NOP command completes with no action. -/
  | cmdNop (f : FnId) (ring : Fin 64)
  /-- `CMD_LOAD` (R357). The LOAD command queues a reel load at the channel's sequencer. -/
  | cmdLoad (f : FnId) (ring : Fin 64)
  /-- `CMD_START` (R359). The START command is held until the sequencer is armed and then starts the named section. -/
  | cmdStart (f : FnId) (ring : Fin 64)
  /-- `CMD_UNLOAD` (R357). The UNLOAD command queues an unload at the sequencer. -/
  | cmdUnload (f : FnId) (ring : Fin 64)
  /-- `CMD_CLEAR` (R357). The CLEAR command clears a failed load. -/
  | cmdClear (f : FnId) (ring : Fin 64)
  /-- `COPY_IN` (R360). COPY_IN moves host bytes to a TGA range through the copy engine. -/
  | copyIn (f : FnId) (ring : Fin 64)
  /-- `COPY_OUT` (R360). COPY_OUT moves a TGA range to host memory through the copy engine. -/
  | copyOut (f : FnId) (ring : Fin 64)
  /-- `SIGNAL` (R357). SIGNAL adds n to a sync object. -/
  | signal (f : FnId) (ring : Fin 64)
  /-- `SYNCWAIT` (R357). SYNCWAIT completes when an object's value or phase reaches a threshold. -/
  | syncwait (f : FnId) (ring : Fin 64)
  /-- `FWCALL` (R357). FWCALL delivers its bytes to the channel firmware's mailbox and completes with its result. -/
  | fwcall (f : FnId) (ring : Fin 64)
  /-- `COMPLETION_WRITE` (R361). When a command's outcome is known its completion entry is written into a released slot. -/
  | completionWrite (f : FnId) (ring : Fin 64)
  /-- `EVENT_WRITE` (R362). The hub writes an event entry to a function's event queue, or counts it lost. -/
  | eventWrite (f : FnId)
  /-- `MSIX_SEND` (R363). An MSI-X message is sent after a completion or event, once the holdoff has passed. -/
  | msixSend (f : FnId) (vec : Nat)
  /-- `APERTURE_WRITE` (R350). A host write through an aperture is checked and posted to its TGA. -/
  | apertureWrite (f : FnId) (ap : Fin 4) (off : Nat) (data : List Byte) (ep : Bool)
  /-- `APERTURE_READ` (R350). A host read through an aperture returns data, poisoned data or Completer Abort. -/
  | apertureRead (f : FnId) (ap : Fin 4) (off : Nat) (len : Nat)
  /-- `VF_AP_BASE_WRITE` (R349). A write of VF_APa_BASE is checked and sets the aperture's base. -/
  | vfApBaseWrite (r : Requester) (f : FnId) (ap : Fin 4) (v : Word)
  /-- `HOST_READ_FAILURE` (R368). A device read of host memory fails or times out, putting the ring in error or ending the copy. -/
  | hostReadFailure (f : FnId) (ring : Fin 64) (copy : Bool) (why : HostFail)
  /-- `VF_ENABLE` (R373). VF Enable is set, and each VF's provisioning is checked. -/
  | vfEnable (n : Fin 129)
  /-- `VF_ENABLE_CLEAR` (R387). VF Enable written 0 disables every VF. -/
  | vfEnableClear
  /-- `VF_FLR` (R387). An FLR of a VF discards its doorbells and sends the disable to its channels. -/
  | vfFlr (f : FnId)
  /-- `PF0_FLR` (R347). An FLR of PF0 clears VF Enable and disables every VF. -/
  | pf0Flr
  /-- `CHANNEL_DISABLE` (R388). A channel receives a function disable and aborts its loads, sections, convoys and outputs. -/
  | channelDisable (ch : Ch) (f : FnId)
  /-- `FLR_DRAIN_TIMEOUT` (R388). 2 ms after the disable, undrained accesses are aborted with FLR_ABORTED. -/
  | flrDrainTimeout (ch : Ch) (f : FnId)
  /-- `DISABLE_SCRUB_DONE` (R389). The scrub of the function's depots, tiles, queues and objects completes. -/
  | disableScrubDone (ch : Ch) (f : FnId)
  /-- `CH_RPTCTRL_COMMIT` (R381). COMMIT checks the RPT shadow and starts a new epoch. -/
  | chRptctrlCommit (r : Requester) (ch : Ch)
  /-- `CH_RPTCTRL_FENCE` (R384). FENCE starts a fence on accesses of older epochs. -/
  | chRptctrlFence (r : Requester) (ch : Ch)
  /-- `HUB_RPTFENCE_START` (R384). START of HUB_RPTFENCE starts a fence in every channel named. -/
  | hubRptfenceStart (r : Requester) (mask : Fin 16)
  /-- `FENCE_TIMEOUT` (R385). A fence still busy after 200 µs aborts remaining older-epoch accesses with RPT_STALE. -/
  | fenceTimeout (ch : Ch)
  /-- `HUB_RPT_COPY_UPDATE` (R383). The hub's copy of a channel's RPT takes the new epoch. -/
  | hubRptCopyUpdate (ch : Ch)
  /-- `VF_GRANTSEL_WRITE` (R375). A write of VF_GRANTSEL samples the function's record in a channel. -/
  | vfGrantselWrite (r : Requester) (f : FnId) (v : Word)
  /-- `VF_WINSEL_WRITE` (R378). A write of VF_WINSEL samples the function's k-th window entry. -/
  | vfWinselWrite (r : Requester) (f : FnId) (v : Word)
  /-- `DRST_N_DEASSERT` (R395). The hub releases a die's DRST_N and the link starts training. -/
  | drstNDeassert (l : LinkId)
  /-- `UCIE_TRAINED` (R407). UCIe training completes at 16 GT/s and the link enters CAPX. -/
  | ucieTrained (l : LinkId) (mods : Nat) (x8 : Bool)
  /-- `CAPX` (R405). A CAPX flit carrying the partner's capability record is received. -/
  | capx (l : LinkId)
  /-- `CAPX_REPEAT` (R407). Every 10 µs an end repeats its CAPX until it has the other's. -/
  | capxRepeat (l : LinkId)
  /-- `AGREE` (R406). The master checks both records and sends AGREE or ABORT; the partner's echo completes agreement. -/
  | agree (l : LinkId)
  /-- `UPRATE_DONE` (R407). Retraining at 32 GT/s completes or falls back to FDL-1. -/
  | uprateDone (l : LinkId) (ok : Bool)
  /-- `FDL_STAGE_TIMEOUT` (R407). Training or capability exchange makes no progress for 10 ms, retrying or failing the link. -/
  | fdlStageTimeout (l : LinkId)
  /-- `FLIT_TRANSMIT` (R397). In each flit time of an active link the transmitter sends a DATA, CTRL or IDLE flit. -/
  | flitTransmit (l : LinkId)
  /-- `FLIT_RECEIVE` (R399). A received flit is CRC-checked and accepted in sequence, or discarded with a RETRY. -/
  | flitReceive (l : LinkId) (flit : BitVec 2048)
  /-- `RETRY` (R399). A CTRL RETRY is received and the transmitter resends kept flits from the named SEQ. -/
  | fdlRetry (l : LinkId)
  /-- `ACK_TIMEOUT` (R400). A flit unacknowledged for 10 µs takes the link to RETRAIN. -/
  | ackTimeout (l : LinkId)
  /-- `RETRAIN_DONE` (R407). UCIe retraining succeeds and the link resumes ACTIVE with replay or credit regrant. -/
  | retrainDone (l : LinkId)
  /-- `RETRAIN_TIMEOUT` (R407). Retraining fails for 10 ms and the link enters FAILED. -/
  | retrainTimeout (l : LinkId)
  /-- `L1_IDLE_EXPIRY` (R409). An end idle for L1IDLE µs sends PMREQ. -/
  | l1IdleExpiry (l : LinkId)
  /-- `PMREQ` (R409). A received PMREQ is answered with PMACK or PMNAK. -/
  | pmreq (l : LinkId)
  /-- `PMACK` (R409). A received PMACK takes the link to L1. -/
  | pmack (l : LinkId)
  /-- `PMNAK` (R409). A received PMNAK makes the end wait a further L1IDLE. -/
  | pmnak (l : LinkId)
  /-- `L1_EXIT` (R407). A packet to send takes the link from L1 back to ACTIVE, or to RETRAIN on failure. -/
  | l1Exit (l : LinkId) (ok : Bool)
  /-- `TESTREQ` (R410). TESTREQ enters test mode with PRBS31 looped-back flits. -/
  | testreq (l : LinkId)
  /-- `ABORT` (R418). A received ABORT takes the link to DOWN and begins bring-up again. -/
  | fdlAbort (l : LinkId)
  /-- `MRD` (R402). An FDL memory read request is served with RDATA packets. -/
  | mrd (l : LinkId)
  /-- `MWR` (R402). An FDL memory write request is performed and completed. -/
  | mwr (l : LinkId)
  /-- `FDL_RDATA` (R402). An RDATA packet returns read data, or a failing RDATA ends the read. -/
  | fdlRdata (l : LinkId)
  /-- `FDL_CMPL` (R402). A CMPL packet completes an outstanding request. -/
  | fdlCmpl (l : LinkId)
  /-- `FDL_QMSG` (R411). An FDL QMSG is given a header and delivered to its queue. -/
  | fdlQmsg (l : LinkId)
  /-- `FRAME` (R402). A FRAME packet carries a scale-out frame fragment between field die and gate die. -/
  | fdlFrame (l : LinkId)
  /-- `FDL_SYNC` (R402). An FDL SYNC packet performs a sync operation or wait. -/
  | fdlSync (l : LinkId)
  /-- `REG` (R412). A REG request reads or writes a partner register. -/
  | fdlReg (l : LinkId)
  /-- `NOTE` (R402). A NOTE packet passes a notice between Vilind dies. -/
  | fdlNote (l : LinkId)
  /-- `BOOT` (R507). A BOOT packet carries image data to a die. -/
  | boot (l : LinkId)
  /-- `FDL_REQUEST_TIMEOUT` (R414). A request with no final response after 1 ms completes with LINK_DOWN. -/
  | fdlRequestTimeout (l : LinkId) (tag : Nat)
  /-- `FDL_LINK_CTRL_RENEG` (R407). RENEG takes the link to DOWN and bring-up again. -/
  | fdlLinkCtrlReneg (r : Requester) (l : LinkId)
  /-- `FDL_LINK_CTRL_RETRAIN` (R407). RETRAIN takes an active link to RETRAIN. -/
  | fdlLinkCtrlRetrain (r : Requester) (l : LinkId)
  /-- `FDL_LINK_CTRL_TEST` (R410). TEST enters or leaves test mode. -/
  | fdlLinkCtrlTest (r : Requester) (l : LinkId) (on : Bool)
  /-- `FDL_LINK_CFG_COMMIT` (R411). COMMIT applies the link's FUNC and L1IDLE in the next cycle. -/
  | fdlLinkCfgCommit (r : Requester) (l : LinkId)
  /-- `FDL_REG_WINDOW_ACCESS` (R412). An access to a site link's partner window becomes a REG request. -/
  | fdlRegWindowAccess (r : Requester) (l : LinkId) (off : Nat) (write : Bool) (n : Nat) (v : Word)
  /-- `CT_FRAME_RECEIVE` (R422). A Caravan frame is received and checked for version, type, length and destination. -/
  | ctFrameReceive (ch : Ch) (port : Fin 32) (frame : List Byte) (ce : Bool)
  /-- `CT_WRITE` (R432). A Caravan WRITE in stream order is performed at the home die as MWR. -/
  | ctWrite (ch : Ch) (flow : Fin 4096)
  /-- `CT_READ` (R432). A Caravan READ is performed as MRD and answered with RDATA. -/
  | ctRead (ch : Ch) (flow : Fin 4096)
  /-- `CT_QMSG` (R432). A Caravan QMSG is delivered as an FDL QMSG and answered with RESP. -/
  | ctQmsg (ch : Ch) (flow : Fin 4096)
  /-- `CT_SYNC` (R432). A Caravan SYNC is performed as an FDL SYNC and answered with RESP. -/
  | ctSync (ch : Ch) (flow : Fin 4096)
  /-- `CT_BAR` (R441). A group barrier BAR arrives from a child or the root and is combined or released. -/
  | ctBar (ch : Ch) (flow : Fin 4096)
  /-- `CT_COLL` (R439). A collective segment arrives and is summed, finalised or forwarded. -/
  | ctColl (ch : Ch) (flow : Fin 4096)
  /-- `CT_RESP` (R432). A Caravan RESP completes a remote write, message or sync operation. -/
  | ctResp (ch : Ch) (flow : Fin 4096)
  /-- `CT_RDATA` (R432). A Caravan RDATA returns remote read data and code. -/
  | ctRdata (ch : Ch) (flow : Fin 4096)
  /-- `CT_ACK` (R429). A Caravan ACK frees acknowledged packets and triggers resends of gaps. -/
  | ctAck (ch : Ch) (flow : Fin 4096)
  /-- `CT_OPEN` (R426). A Caravan OPEN is answered and the flow enters UP with a new incarnation. -/
  | ctOpen (ch : Ch) (flow : Fin 4096)
  /-- `CT_NOTICE` (R447). A NOTICE of a retired channel marks its flows RETIRED. -/
  | ctNotice (ch : Ch) (flow : Fin 4096)
  /-- `CT_PACKET_TRANSMIT` (R430). A sequenced packet is sent on a sprayed port once the stream window allows. -/
  | ctPacketTransmit (ch : Ch) (flow : Fin 4096) (stream : Fin 5)
  /-- `CT_RTO_EXPIRY` (R429). RTO passes with a packet unacknowledged, resending it or taking the flow DOWN. -/
  | ctRtoExpiry (ch : Ch) (flow : Fin 4096) (stream : Fin 5)
  /-- `CT_ACK_TIMER` (R428). 2 µs after an unacknowledged packet the home die sends an ACK. -/
  | ctAckTimer (ch : Ch) (flow : Fin 4096) (stream : Fin 5)
  /-- `CT_OPEN_RETRY` (R426). An opening or DOWN flow repeats OPEN every 100 µs or 1 ms. -/
  | ctOpenRetry (ch : Ch) (flow : Fin 4096)
  /-- `CT_NOTICE_RESEND` (R447). The NOTICE of a retired channel is resent at 100 µs intervals, 3 times. -/
  | ctNoticeResend (ch : Ch)
  /-- `CT_FLOWCTRL_COMMIT` (R423). COMMIT applies the selected flow entry's shadow. -/
  | ctFlowctrlCommit (r : Requester) (ch : Ch)
  /-- `CT_FLOWCTRL_OPEN` (R426). OPEN begins sending OPEN frames for a committed flow. -/
  | ctFlowctrlOpen (r : Requester) (ch : Ch)
  /-- `CT_FLOWCTRL_CLOSE` (R426). CLOSE completes the flow's operations with LINK_DOWN and enters IDLE. -/
  | ctFlowctrlClose (r : Requester) (ch : Ch)
  /-- `CT_FLOWSEL_WRITE` (R423). A write of CT_FLOWSEL samples a flow entry. -/
  | ctFlowselWrite (r : Requester) (ch : Ch) (v : Word)
  /-- `CT_GRPCTRL_COMMIT` (R438). COMMIT applies the selected group entry's shadow. -/
  | ctGrpctrlCommit (r : Requester) (ch : Ch)
  /-- `CT_GRPSEL_WRITE` (R438). A write of CT_GRPSEL samples a group entry. -/
  | ctGrpselWrite (r : Requester) (ch : Ch) (v : Word)
  /-- `CT_LCCFG_COMMIT` (R442). COMMIT sets the link compression mode, or is refused without a compressor. -/
  | ctLccfgCommit (r : Requester) (ch : Ch)
  /-- `CT_PORT_CFG_COMMIT` (R421). COMMIT of a site's port configuration, retraining its ports when mode or UDP changes. -/
  | ctPortCfgCommit (r : Requester) (ch : Ch) (site : Fin 4)
  /-- `PORT_LINK_DOWN` (R447). A port loses its PCS link and leaves every spray set. -/
  | portLinkDown (ch : Ch) (port : Fin 32)
  /-- `PORT_LINK_UP` (R421). A port's PCS link comes up and it rejoins the spray sets. -/
  | portLinkUp (ch : Ch) (port : Fin 32)
  /-- `COLLECTIVE_SUBMIT` (R436). A DESC message to the collective port queues a collective. -/
  | collectiveSubmit (ch : Ch)
  /-- `COLLECTIVE_BEGIN` (R437). A collective at the head of the port is checked and started. -/
  | collectiveBegin (ch : Ch)
  /-- `COLLECTIVE_TIMEOUT` (R440). A collective without progress for COLLTO ms completes with LINK_DOWN. -/
  | collectiveTimeout (ch : Ch)
  /-- `POWER_EPOCH` (R461). At each 2 µs epoch boundary the power manager recomputes allocations, caps, lending and pending targets. -/
  | powerEpoch (ch : Ch) (draws : List Nat) (uncore : Nat) (vnext : List Nat)
  /-- `GRANT_BOUNDARY` (R459). At each 1 ms boundary the hub recomputes and sends channel grants. -/
  | grantBoundary
  /-- `AVFS_EVALUATION` (R452). Every 1 µs the loop re-evaluates the district's voltage and monitor cap. -/
  | avfsEvaluation (d : DistId) (v : Nat) (pass : Bool)
  /-- `DROOP` (R454). A supply droop engages the clock stretcher. -/
  | droop (d : DistId)
  /-- `DST_VFTGT_COMMIT` (R455). COMMIT of a district's operating target sets it pending for the next epoch. -/
  | dstVftgtCommit (r : Requester) (d : DistId)
  /-- `HUB_PWRBUDGET_COMMIT` (R458). COMMIT of the package budget and weights, effective at the next 1 ms boundary. -/
  | hubPwrbudgetCommit (r : Requester)
  /-- `CH_PWRCFG_WRITE` (R463). A write of CH_PWRCFG enables lending or stops it at once. -/
  | chPwrcfgWrite (r : Requester) (ch : Ch) (v : Word)
  /-- `THERMAL_SAMPLE` (R466). A district junction sensor reading moves the thermal cap, dropping it at once at 105 °C. -/
  | thermalSample (d : DistId) (temp : Nat)
  /-- `THROTTLE_N_EDGE` (R467). THROTTLE_N changes level and the filter begins timing it. -/
  | throttleNEdge (low : Bool)
  /-- `THROTTLE_FILTER_EXPIRY` (R467). A 50 µs stable level accepts the assertion or release of the throttle floor. -/
  | throttleFilterExpiry
  /-- `SYNC_IN_PULSE` (R468). A SYNC_IN pulse is accepted or counted as an overrun, stamping pod time and notifying channels. -/
  | syncInPulse (time : Word)
  /-- `SYNC_IN_NOTICE` (R468). The accepted pulse notice arrives at a channel and releases SYNCIN barriers and starts. -/
  | syncInNotice (ch : Ch)
  /-- `HUB_SYNCCTRL_ARMLOAD` (R468). ARMLOAD arms a load of pod time at the next accepted pulse. -/
  | hubSyncctrlArmload (r : Requester)
  /-- `SYSCLK_LOSS` (R470). No SYSCLK edge for 10 µs enters keeper mode. -/
  | sysclkLoss
  /-- `PLL_LOCK_LOSS` (R470). A district PLL loses lock, its clock is gated and a relock is tried. -/
  | pllLockLoss (d : DistId)
  /-- `PLL_RELOCK_TIMEOUT` (R470). A relock not achieved within 50 µs is handled as a field die fault. -/
  | pllRelockTimeout (d : DistId)
  /-- `FAULT_EVENT` (R474). An error event reaches the fault controller, is classified and starts its action. -/
  | faultEvent (e : FaultEv)
  /-- `BUCKET_LEAK` (R474). At each leak boundary a unit's bucket level falls by 1. -/
  | bucketLeak (src : Fin 5) (ty : Fin 16) (cluster : Fin 128) (unit : Nat)
  /-- `STORM_WINDOW` (R476). At each 1 ms window the storm level of each type is raised or lowered. -/
  | stormWindow (src : Fin 5)
  /-- `REPAIR_COPY_DONE` (R480). An online repair copy completes and the location is redirected to its spare. -/
  | repairCopyDone (ch : Ch)
  /-- `HEARTBEAT` (R483). A field die's heartbeat reaches the hub. -/
  | heartbeat (ch : Ch)
  /-- `HEARTBEAT_TIMEOUT` (R483). No heartbeat for 1 ms retires the channel. -/
  | heartbeatTimeout (ch : Ch)
  /-- `RETIREMENT_NOTICE` (R485). A surviving channel receives the retirement notice and completes everything aimed at the retired channel. -/
  | retirementNotice (ch : Ch) (gone : Ch)
  /-- `HUB_CRITICAL_FAULT` (R489). A hub critical fault enters keeper mode. -/
  | hubCriticalFault
  /-- `HUB_WATCHDOG_EXPIRY` (R488). The hub firmware watchdog expires; a second consecutive expiry is a critical fault. -/
  | hubWatchdogExpiry
  /-- `FAULT_N_HOLD_END` (R491). The 10 µs minimum assertion of FAULT_N ends and the pin follows the pending bits. -/
  | faultNHoldEnd
  /-- `CH_FINJ_ARM` (R493). ARM of CH_FINJ injects a check-bit error at the next read of the source. -/
  | chFinjArm (r : Requester) (ch : Ch)
  /-- `PWRGD_FALL` (R499). PWRGD falls and the filter begins timing it. -/
  | pwrgdFall
  /-- `PWRGD_LOW_ACCEPT` (R499). PWRGD low for 1 µs is a cold reset of the package. -/
  | pwrgdLowAccept (cut : NvCut)
  /-- `PWRGD_HIGH_STABLE` (R499). PWRGD high for 1 ms begins boot. -/
  | pwrgdHighStable
  /-- `HUB_RSTCTRL_WRITE` (R500). A write of KEY 0xB007 requests a warm reset. -/
  | hubRstctrlWrite (r : Requester) (v : Word)
  /-- `WARM_RESET` (R500). Once the store is idle the warm reset resets every die and boots from the ROM. -/
  | warmReset
  /-- `ROM_BOOT` (R504). The ROM selects a store generation, verifies a slot's manifest and hub image, and starts the firmware or enters keeper mode. -/
  | romBoot (failA : Bool) (failB : Bool)
  /-- `FIRMWARE_BRINGUP` (R507). The hub firmware latches the mode, verifies die images, applies fault records and releases channels. -/
  | firmwareBringup
  /-- `FIELD_READY_TIMEOUT` (R507). A field die not ready 50 ms after its image is held in reset and shown absent. -/
  | fieldReadyTimeout (ch : Ch)
  /-- `RETURNED_SCRUB_DONE` (R523). The RETURNED boot's scrub of HBM and depots completes. -/
  | returnedScrubDone
  /-- `NV_CTRL_COMMIT` (R517). COMMIT writes a configuration generation. -/
  | nvCtrlCommit (r : Requester)
  /-- `NV_CTRL_LCREQ` (R519). LCREQ requests a life-cycle transition. -/
  | nvCtrlLcreq (r : Requester)
  /-- `NV_CTRL_LCCANCEL` (R520). LCCANCEL withdraws a pending decommission. -/
  | nvCtrlLccancel (r : Requester)
  /-- `NV_CTRL_FCLEAR` (R515). FCLEAR writes a generation clearing the fault records. -/
  | nvCtrlFclear (r : Requester)
  /-- `NV_CTRL_AUTHGO` (R521). AUTHGO checks an authorisation record and acts on its purpose. -/
  | nvCtrlAuthgo (r : Requester)
  /-- `NV_GENERATION_DONE` (R511). A generation write's commit word reads 0, or the write ends with NV_STORE. -/
  | nvGenerationDone (ok : Bool)
  /-- `NV_ERASE_DONE` (R511). A bank or log half erase completes. -/
  | nvEraseDone
  /-- `NV_FAULT_APPEND` (R514). A fault record is appended to the active log half, compacting when full. -/
  | nvFaultAppend
  /-- `SET_ENDPOINT_ID` (R525). The MCTP Set Endpoint ID command sets the endpoint ID. -/
  | setEndpointId (eid : Nat)
  /-- `GET_ENDPOINT_ID` (R525). The MCTP Get Endpoint ID command returns the endpoint ID. -/
  | getEndpointId
  /-- `GET_ENDPOINT_UUID` (R525). The MCTP Get Endpoint UUID command returns the UUID. -/
  | getEndpointUuid
  /-- `GET_MCTP_VERSION_SUPPORT` (R525). The MCTP Get Version Support command returns supported versions. -/
  | getMctpVersionSupport
  /-- `GET_MESSAGE_TYPE_SUPPORT` (R525). The MCTP Get Message Type Support command returns the message types. -/
  | getMessageTypeSupport
  /-- `GET_VENDOR_MESSAGE_SUPPORT` (R525). The MCTP Get Vendor Defined Message Support command returns vendor support. -/
  | getVendorMessageSupport
  /-- `SMBUS_ARP` (R526). SMBus ARP assigns the endpoint's slave address. -/
  | smbusArp (addr : Nat)
  /-- `SMBUS_LINE_TIMEOUT` (R527). A line held low 25 ms ends the transaction and the lines are released. -/
  | smbusLineTimeout
  /-- `REG_READ` (R529). The vendor REG_READ command reads a register without clearing RC fields. -/
  | regRead (a : Word) (width : Nat)
  /-- `REG_WRITE` (R530). The vendor REG_WRITE command writes a register on the permitted list. -/
  | regWrite (a : Word) (width : Nat) (v : Word)
  /-- `DUMP_INFO` (R529). DUMP_INFO returns the dump header. -/
  | dumpInfo
  /-- `DUMP_READ` (R529). DUMP_READ returns dump bytes. -/
  | dumpRead (off : Nat) (len : Nat)
  /-- `DUMP_CLEAR` (R539). DUMP_CLEAR starts the erase of the dump area. -/
  | dumpClear
  /-- `DUMP_ERASE_DONE` (R539). The dump area erase completes and ERASED is set. -/
  | dumpEraseDone
  /-- `DLY_READ` (R529). DLY_READ returns dailies records of a channel or hub tail. -/
  | dlyRead (chn : Nat) (first : Nat) (count : Nat)
  /-- `PLDM_BASE_REQUEST` (R531). A PLDM Type 0 base request is answered. -/
  | pldmBaseRequest (cmd : Nat)
  /-- `PLDM_SENSOR_REQUEST` (R531). A PLDM Type 2 monitoring request reads sensors or the PDR repository. -/
  | pldmSensorRequest (id : Nat)
  /-- `REQUEST_UPDATE` (R534). RequestUpdate begins a firmware update of the unused slot or is refused. -/
  | requestUpdate (slot : Nat)
  /-- `FIRMWARE_DATA_TRANSFER` (R534). Update data are received and programmed into the target slot. -/
  | firmwareDataTransfer (off : Nat) (data : List Byte)
  /-- `VERIFY_COMPLETE` (R534). VerifyComplete checks the written slot and clears its SKIP bit on success. -/
  | verifyComplete
  /-- `ACTIVATE_FIRMWARE` (R534). ActivateFirmware writes a generation that changes the boot slot. -/
  | activateFirmware
  /-- `SENSOR_SAMPLE` (R531). Every 1 ms each sensor is read and threshold crossings raise events. -/
  | sensorSample (readings : List (Nat × Nat))
  /-- `ALERT_RESPONSE_READ` (R533). An Alert Response Address read returning this address releases SMB_ALERT_N. -/
  | alertResponseRead
  /-- `ALERT_HOLDOFF_END` (R533). 10 ms after a release SMB_ALERT_N may assert again for queued events. -/
  | alertHoldoffEnd
  /-- `CH_DLYCTRL_TRIGARM` (R537). TRIGARM arms a dailies trigger. -/
  | chDlyctrlTrigarm (r : Requester) (ch : Ch)
  /-- `CH_DLYCTRL_CLEAR` (R537). CLEAR empties the dailies buffer. -/
  | chDlyctrlClear (r : Requester) (ch : Ch)
  /-- `CH_DLYMARK_WRITE` (R536). A write of CH_DLYMARK captures a host mark record. -/
  | chDlymarkWrite (r : Requester) (ch : Ch) (v : Word)
  /-- `HUB_DLYFREEZE` (R537). FREEZE stops dailies capture in every live channel. -/
  | hubDlyfreeze (r : Requester)
  /-- `PMCTRL_START` (R540). START starts all 16 performance counters of a channel or of every channel. -/
  | pmctrlStart (r : Requester) (src : Fin 5)
  /-- `PMCTRL_STOP` (R540). STOP stops all 16 performance counters. -/
  | pmctrlStop (r : Requester) (src : Fin 5)
  /-- `PMCTRL_SNAP` (R540). SNAP copies every counter into its snapshot register. -/
  | pmctrlSnap (r : Requester) (src : Fin 5)
  /-- `KEEPER_DUMP_DONE` (R539). The keeper dump of the hub log and tails is written to the dump area. -/
  | keeperDumpDone (bad : List Nat)
  /-- `BYPASS` (R541). The JTAG BYPASS instruction selects the bypass register. -/
  | bypass
  /-- `EXTEST` (R541). The JTAG EXTEST instruction drives boundary scan outputs. -/
  | extest (v : Word)
  /-- `SAMPLE_PRELOAD` (R541). The JTAG SAMPLE/PRELOAD instruction samples or preloads the boundary register. -/
  | samplePreload (v : Word)
  /-- `IDCODE` (R541). The JTAG IDCODE instruction returns the part's IDCODE. -/
  | idcode
  /-- `CLAMP` (R541). The JTAG CLAMP instruction holds outputs and selects bypass. -/
  | clamp
  /-- `HIGHZ` (R541). The JTAG HIGHZ instruction floats outputs. -/
  | highz
  /-- `DBGREG_RD` (R541). DBGREG_RD reads a register at debug level 1. -/
  | dbgregRd (a : Word) (width : Nat)
  /-- `DLY_RD` (R541). DLY_RD reads dailies records at debug level 1. -/
  | dlyRd (chn : Nat) (first : Nat) (count : Nat)
  /-- `DBGREG_WR` (R565). DBGREG_WR writes any register at debug level 2. -/
  | dbgregWr (a : Word) (width : Nat) (v : Word)
  /-- `DBGMEM` (R541). DBGMEM reads or writes 8 bytes of depot, HBM or Seal store at level 2. -/
  | dbgmem (a : Word) (write : Bool) (v : Word)
  /-- `DBGHALT` (R541). DBGHALT writes HALT or RESUME of a tile or steward at level 2. -/
  | dbghalt (t : HaltTarget) (resume : Bool)
  /-- `TRST_N_LOW` (R541). TRST_N low places the TAP in Test-Logic-Reset. -/
  | trstNLow
  /-- `THERMAL_TRIP` (R560). A trip comparator fires, asserting THERMTRIP_N, stopping the package and entering keeper mode. -/
  | thermalTrip (src : Nat) (ch : Ch) (unit : Nat)
  /-- `SUPPLY_SAMPLE` (R549). Every 10 µs each rail is sampled and excursions recorded. -/
  | supplySample (inrange : Nat) (uv : Nat) (ov : Nat)
  /-- `XTAL_LOSS` (R556). MGMT_XTAL lost for 10 µs switches management to a clock from SYSCLK. -/
  | xtalLoss
  /-- `PCIE_REFCLK_LOSS` (R556). Loss of the PCIe reference clock takes the link down. -/
  | pcieRefclkLoss
  /-- `REGISTER_READ` (R564). A host or steward read of a register that holds RC fields, or of the lower half of a 64-bit register, clears those fields or captures the upper half. -/
  | registerRead (r : Requester) (a : RegPlace) (n : Nat)
  /-- `PLL_RELOCK` (R470). A district PLL that lost lock relocks within 50 µs, and its clock is ungated so its clusters fire again. -/
  | pllRelock (d : DistId)
  /-- `HOST_READ_COMPLETION` (R360). A completion carrying host memory data for a copy engine read arrives, and the copy engine writes those bytes toward their TGA. -/
  | hostReadCompletion (f : FnId) (ring : Fin 64) (data : List Byte)
  deriving DecidableEq, Repr

end Sys2Proof
end

