-- ==== Sys2Proof/Decode.lean ====
section
/-! DEFINITION. Words that spell a command. The opcode table gives no row any bits: the block takes its commands as
messages, register accesses and events, never as words of one encoding (log entry 2). -/

namespace Sys2Proof

/-- The command that a word spells by the table's bits: none, since the table gives no row bits. -/
def decodeTableWord (_nbits _w : Nat) : Option Instr := none

end Sys2Proof
end

