-- ==== Sys2Proof/Config.lean ====
section
/-! DEFINITION. What the spec leaves open: free values. None of these constants has a body, so no statement can rest on
a value of theirs. -/

namespace Sys2Proof.Config

/-- FREE VALUE (log entry 10). The result that `FN` function `f` would choose for an FP32 operand of which R112 bounds the result and does
not state the bits, as a place in the order of FP32 values; 8 stands for the reciprocal of a negative operand. -/
opaque fnResult : (f x : Nat) → BitVec 32

/-- FREE VALUE (log entry 11). The SYSCLK count since hub reset when the n-th free value is taken: the model has no clock
of its own, so a time stamp whose command does not carry it is free. -/
opaque sysclk : (n : Nat) → BitVec 64

/-- FREE VALUE (log entry 12). The `TYPE` of a fault record that reports a program fault, a forced action or a log-only
report, by its code: Table 22-4 gives it no type. -/
opaque reportType : (code : Nat) → BitVec 4

/-- FREE VALUE (log entry 13). The hub's random challenge (R521). -/
opaque challenge : (n : Nat) → BitVec 256

/-- FREE VALUE (log entry 14). A code of Table 0-3 that the spec does not name, at the numbered place of the model: its row of
the table (R8). -/
opaque openCode : (place : Nat) → Fin 25

/-- FREE VALUE (log entry 14). The life-cycle byte of a generation committed on a blank store: no rule gives it one. -/
opaque blankLc : (n : Nat) → BitVec 8

/-- FREE VALUE (log entry 15). Identity bytes that a standard the spec names carries and the spec does not give: the
endpoint's UUID, the PCI Vendor ID of PF0, the PLDM terminus. -/
opaque identity : (what : Nat) → BitVec 128

/-- FREE VALUE (log entry 21). The channel monitor image that firmware provides (R153): the spec gives no byte of it. -/
opaque monitorByte : (offset : Nat) → BitVec 8

/-- FREE VALUE (log entry 22). Mask word `k` of the n-th bootstrapped ciphertext: R320 states the phase of a PBS result under the
client's secret key, and not its words. -/
opaque pbsWord : (n k : Nat) → BitVec 32

/-- FREE VALUE (log entry 22). Bit `i` of the secret key that a BSK encrypts (R313): the client holds it, the machine does not. -/
opaque sealKey : (bsk : List Byte) → (i : Nat) → Bool

/-- FREE VALUE (log entry 22). Coefficient `i` of the key that sample extraction implies (R313). -/
opaque sealExt : (bsk : List Byte) → (i : Nat) → Int

/-- FREE VALUE (log entry 22). Error of the n-th bootstrapped ciphertext (R311), of which chapter 16 states a variance. -/
opaque pbsError : (n : Nat) → Int

/-- FREE VALUE (log entry 23). What the channel firmware answers to what stands in its mailbox: a code of Table 0-3, by its row
(R8), and 8 bytes (R357). -/
opaque firmware : (n : Nat) → (mail : List Nat) → Fin 25 × BitVec 64

/-- FREE VALUE (log entry 24). What a Caravan frame carries where the spec gives no value: 0 the destination MAC of a UDP/IPv6
frame, 1 its DSCP, 2 its flow label, 3 the site an OPEN is sent to before the peer has told its `HOME`. -/
opaque frameOpen : (what n : Nat) → Nat

/-- FREE VALUE (log entry 35). The 8-byte routing header of a mesh beat (R265), by its address and its function: chapter 3 gives
it no form. -/
opaque meshHeader : (tga fn : Nat) → BitVec 64

/-- FREE VALUE (log entry 66). The `pc` field of the exception record that a holding pen entry with bad metadata leaves (R291): the
spec states none. `n` numbers the free values taken. -/
opaque penPc : (n : Nat) → BitVec 22

/-- FREE VALUE (log entry 78). Bank and row of a byte address of an HBM pseudo-channel (R480): the spec gives no layout of a stack's
rows. -/
opaque hbmRow : (unit addr : Nat) → Nat × Nat

end Sys2Proof.Config
end

