-- ==== Sys2Proof/Machine/Codes.lean ====
section
/-! DEFINITION. The shared fault and status codes of Table 0-3 (R7, R8). -/

namespace Sys2Proof.Machine

def cNone : Nat := 0x00
def cEccCorrected : Nat := 0x01
def cEccUncorrected : Nat := 0x02
def cLinkRetry : Nat := 0x03
def cLinkDown : Nat := 0x04
def cUnitAbsent : Nat := 0x05
def cCfgIgnored : Nat := 0x06
def cLoadCrc : Nat := 0x10
def cLoadOrder : Nat := 0x11
def cSidingExhausted : Nat := 0x12
def cQueuePoison : Nat := 0x13
def cSyncPoison : Nat := 0x14
def cRptViolation : Nat := 0x15
def cRptStale : Nat := 0x16
def cFlrAborted : Nat := 0x17
def cSealNoiseLimit : Nat := 0x18
def cSealKeyMissing : Nat := 0x19
def cSealParamMismatch : Nat := 0x1A
def cFdlNegotiate : Nat := 0x1B
def cThermal : Nat := 0x1C
def cChannelRetired : Nat := 0x1D
def cKeeperEntered : Nat := 0x1E
def cNvStore : Nat := 0x1F
def cNonfiniteSkip : Nat := 0x20
def cTakeDeferred : Nat := 0x21

/-- The codes of class S and C: the operation took effect as defined (Table 0-3). -/
def codeOk (c : Nat) : Bool := decide (c = 0x00 ∨ c = 0x01 ∨ c = 0x03 ∨ c = 0x20)

/-- The rows of Table 0-3. -/
def codeTable : List Nat :=
  [0x00, 0x01, 0x02, 0x03, 0x04, 0x05, 0x06, 0x10, 0x11, 0x12, 0x13, 0x14, 0x15, 0x16, 0x17, 0x18, 0x19, 0x1A, 0x1B, 0x1C, 0x1D,
   0x1E, 0x1F, 0x20, 0x21]

/-- The code of a row. -/
def codeRow (k : Fin 25) : Nat := codeTable.getD k.val 0

/-- A code the spec leaves open, at a place of the model (log entry 14). -/
def openCode (place : Nat) : Nat := codeRow (Config.openCode place)

/-- A code that another device sent, as this device reports it (R8): a value outside Table 0-3 is of class E, and which code of that
class stands for it is open (log entry 14). -/
def wireCode (c : Nat) : Nat :=
  if codeTable.contains c then c
  else if codeOk (openCode (256 + c)) then cLinkDown else openCode (256 + c)

/-- The earlier of two codes in operation order: the first that is not `NONE`. -/
def firstCode (a b : Nat) : Nat := if a = 0 then b else a

end Sys2Proof.Machine
end

