-- ==== Sys2Proof/Machine/Bits.lean ====
section
/-! DEFINITION. Bit fields of numbers, lanes of registers, bytes of words and the operations on sparse tables. -/

namespace Sys2Proof.Machine

/-- Bits `[lo + w - 1 : lo]` of a number (R1). -/
def bits (n lo w : Nat) : Nat := (n >>> lo) % 2 ^ w

/-- Bit `i` of a number as a truth value. -/
def bit (n i : Nat) : Bool := n.testBit i

/-- The number with bits `[lo + w - 1 : lo]` replaced by the low `w` bits of `v`. -/
def putBits (n lo w v : Nat) : Nat :=
  n - (bits n lo w) * 2 ^ lo + (v % 2 ^ w) * 2 ^ lo

/-- A truth value as one bit. -/
def ofBit (b : Bool) : Nat := if b then 1 else 0

/-- The two's complement value of the low `w` bits of a number. -/
def sint (w n : Nat) : Int :=
  let m := n % 2 ^ w
  if 2 * m < 2 ^ w then (m : Int) else (m : Int) - (2 ^ w : Nat)

/-- The low `w` bits of an integer in two's complement. -/
def uint (w : Nat) (x : Int) : Nat := (x % ((2 ^ w : Nat) : Int)).toNat

/-- Addition that stops at the largest `w`-bit value (a saturating count). -/
def satAdd (w a b : Nat) : Nat := min (a + b) (2 ^ w - 1)

/-- Little-endian number of a byte list (R1). -/
def leNat : List Byte → Nat
  | [] => 0
  | b :: r => b.toNat + 256 * leNat r

/-- The `n` little-endian bytes of a number (R1). -/
def leBytes : Nat → Nat → List Byte
  | 0, _ => []
  | n + 1, v => BitVec.ofNat 8 v :: leBytes n (v / 256)

/-- `List.range` of `n` numbers from `a`. -/
def rangeFrom (a n : Nat) : List Nat := (List.range n).map (a + ·)

/-- The smallest element of a list of numbers, or a default. -/
def listMin (d : Nat) : List Nat → Nat
  | [] => d
  | x :: r => if x < listMin (x + 1) r then x else listMin d r

/-- Position of the first element that satisfies a test. -/
def findIdx? {α : Type} (p : α → Bool) (l : List α) : Option Nat :=
  let i := l.findIdx p
  if i < l.length then some i else none

end Sys2Proof.Machine

namespace Sys2Proof.SMap

variable {α : Type}

/-- The entry of a key, if the table lists it. -/
def get? : SMap α → Nat → Option α
  | [], _ => none
  | (k, v) :: r, a => if a = k then some v else get? r a

/-- The entry of a key, the table's default where it lists none. -/
def get (d : α) (m : SMap α) (a : Nat) : α := (get? m a).getD d

/-- The table without a key. -/
def erase : SMap α → Nat → SMap α
  | [], _ => []
  | (k, v) :: r, a => if a = k then erase r a else (k, v) :: erase r a

/-- The table with a key listed at a value, keys kept rising. -/
def put : SMap α → Nat → α → SMap α
  | [], a, x => [(a, x)]
  | (k, v) :: r, a, x =>
    if a < k then (a, x) :: (k, v) :: r
    else if a = k then (a, x) :: r
    else (k, v) :: put r a x

/-- Canonical write: an entry equal to the default is not listed. -/
def set [DecidableEq α] (d : α) (m : SMap α) (a : Nat) (x : α) : SMap α :=
  if x = d then erase m a else put m a x

/-- Canonical update of one entry. -/
def upd [DecidableEq α] (d : α) (m : SMap α) (a : Nat) (f : α → α) : SMap α :=
  set d m a (f (get d m a))

/-- Keys strictly rising. -/
def sorted : SMap α → Bool
  | [] => true
  | [_] => true
  | (k, _) :: (k', v') :: r => decide (k < k') && sorted ((k', v') :: r)

/-- The canonical form: keys strictly rising and no entry equal to the default. -/
def wf [DecidableEq α] (d : α) (m : SMap α) : Bool :=
  sorted m && m.all (fun c => decide (c.2 ≠ d))

/-- The entries whose keys pass a test. -/
def keep (p : Nat → Bool) (m : SMap α) : SMap α := m.filter (fun c => p c.1)

end Sys2Proof.SMap
end

