-- ==== Sys2Proof/Machine/TileState.lean ====
section
/-! DEFINITION. State of a tile: registers, predicates, scratch, router, token queues, take (chapters 3 and 4). Its
registers of the `TL_` block hold its program, route table, mode, flags, counters, state and program counter. -/

namespace Sys2Proof.Machine

/-- A flit and its tag (Table 3-3). -/
structure Flit where
  payload : BitVec 256
  route : BitVec 8
  last : Bool
  half : Bool
  take : BitVec 2
  spec : Bool
  poison : Bool
  kind : BitVec 2
  /-- MODEL's own field: its take was squashed after it was emitted (R60) -/
  gone : Bool := false
  deriving DecidableEq, Repr

/-- A vector register: 32 lanes of 16 bits, lane i in bits [16i + 15 : 16i]; its poison mark and take mark. -/
structure VReg where
  val : BitVec 512 := 0
  psn : Bool := false
  mark : Option (Fin 4) := none
  deriving DecidableEq, Repr

/-- A predicate register. -/
structure PReg where
  val : BitVec 32 := 0
  psn : Bool := false
  mark : Option (Fin 4) := none
  deriving DecidableEq, Repr

/-- A scratch row: 64 bytes, a poison mark for each 64-bit word (R567), a take mark. -/
structure SRow where
  val : BitVec 512 := 0
  psn : BitVec 8 := 0
  mark : Option (Fin 4) := none
  deriving DecidableEq, Repr

/-- A tile. Ports are numbered 0 `n`, 1 `e`, 2 `s`, 3 `w`, 4 `l`. -/
structure Tile where
  vregs : SMap VReg := []
  pregs : SMap PReg := []
  rows : SMap SRow := []
  /-- router input queues and token queues, head first -/
  rq : SMap (List Flit) := []
  tq : SMap (List Flit) := []
  /-- credits freed and not yet usable by the sender (R44) -/
  retR : SMap Nat := []
  retT : SMap Nat := []
  /-- output link locked to an input (R42); grant pointer of each output (R43) -/
  lock : SMap Nat := []
  ptr : SMap Nat := []
  /-- outputs that have carried the head flit of an input queue (4 the local path) -/
  served : SMap (List Nat) := []
  /-- route entry of the head of an input queue, where the entry has been rewritten since it became the head (R57) -/
  latched : SMap Nat := []
  /-- entered take slot -/
  take : Option (Fin 4) := none
  /-- generator state of each lane (R111); a lane not listed is seeded with 0 -/
  rng : SMap (BitVec 32) := []
  /-- halted by `END`; one instruction to fire for `STEP` -/
  ended : Bool := false
  stepping : Bool := false
  /-- router input queues in the spilled state, and the siding units of each list, head first (R266) -/
  spilled : List Nat := []
  siding : SMap (List Nat) := []
  /-- units whose flit a squash has condemned (R271) -/
  dead : List Nat := []
  deriving DecidableEq, Repr

/-- Tile states of `TL_STATUS.STATE`. -/
def tReset : Nat := 0
def tReady : Nat := 1
def tRun : Nat := 2
def tHalted : Nat := 3
def tFaulted : Nat := 4

end Sys2Proof.Machine
end

