-- ==== Sys2Proof/Machine/TransportState.lean ====
section
/-! DEFINITION. State of a channel's Caravan Transport: flows, streams, operations, groups and collectives
(chapter 20). -/

namespace Sys2Proof.Machine

/-- A Caravan packet: the header of Table 20-2 and its payload. -/
structure CPkt where
  ty : Nat
  flags : Nat := 0
  srcPkg : Nat := 0
  dstPkg : Nat := 0
  srcCh : Nat := 0
  dstCh : Nat := 0
  inc : Nat := 0
  code : Nat := 0
  flow : Nat := 0
  stream : Nat := 7
  seq : Nat := 0
  opid : Nat := 0
  aux : Nat := 0
  dlv : Nat := 0
  addr : Nat := 0
  payload : List Byte := []
  deriving DecidableEq, Repr

/-- One stream of a flow, both directions (R427 to R431). -/
structure CStream where
  /-- next SEQ to assign, packets built and not yet sent, packets kept until acknowledged -/
  txNext : Nat := 0
  waiting : List CPkt := []
  kept : List CPkt := []
  /-- DLV of the latest ACK -/
  peerDlv : Nat := 0
  /-- next SEQ to deliver, packets received beyond it, packets received since the last ACK, congestion echo due -/
  dlv : Nat := 0
  rx : List CPkt := []
  unacked : Nat := 0
  ece : Bool := false
  deriving DecidableEq, Repr

/-- Who issued a request, and so who is told of its outcome. Stewards are numbered `2 × cluster + steward`. -/
inductive RetTo
  /-- nobody -/
  | drop
  /-- a steward's posted store, send or sync operation (R126) -/
  | posted (w : Nat)
  /-- a steward's global load: the register it fills, its width -/
  | load (w rd : Nat)
  /-- a steward's synchronous sync instruction (R132) -/
  | sync (w : Nat)
  /-- a dolly descriptor's request: cluster, slot, byte offset in the transfer, whether it writes -/
  | dolly (c slot off : Nat) (wr : Bool)
  /-- a token that left the array through an egress entry -/
  | egress (c route : Nat)
  /-- a signal of a descriptor (0), buffer (1) or queue (2) of a cluster, with its number -/
  | signal (kind c n : Nat)
  /-- an FDL request of a die at a gate site: link, tag -/
  | fdl (l tag : Nat)
  /-- an operation that a Caravan flow brought: flow, stream, operation identifier -/
  | flow (f stream op : Nat)
  /-- a host ring command: function, ring, number of the command -/
  | ring (f r cid : Nat)
  /-- a host access through an aperture: function, whether it writes -/
  | aper (f : Nat) (wr : Bool)
  /-- a leg of a request split over stack sites, by its number (R53) -/
  | leg (no : Nat)
  /-- a key-stream read of the Seal unit (R329) -/
  | seal
  /-- an access of a unit beside the clusters, the load sequencer (0), the Seal unit (1) or the collective engine (2): address, bytes,
  whether it writes -/
  | unit (u a n : Nat) (wr : Bool)
  deriving DecidableEq, Repr

/-- An operation outstanding on a flow (R432). -/
structure CtOp where
  opid : Nat
  ty : Nat
  ret : RetTo
  addr : Nat := 0
  len : Nat := 0
  /-- read data arrived so far -/
  data : List (Byte × Bool) := []
  /-- the request of the channel it carries, by its number -/
  req : Option Nat := none
  deriving DecidableEq, Repr

/-- A write that a flow brought and whose packets are still arriving or being performed: first failing code so far, whether its
last packet has come. -/
structure CtIn where
  opid : Nat
  code : Nat := 0
  last : Bool := false
  deriving DecidableEq, Repr

/-- A flow entry: shadow and live words of Table 20-3, status, and its streams. -/
structure Flow where
  sh0 : Word := 0
  sh1 : Word := 0
  w0 : Word := 0
  w1 : Word := 0
  /-- 0 IDLE, 1 OPENING, 2 UP, 3 DOWN, 4 RETIRED -/
  st : Nat := 0
  inc : Nat := 0
  code : Nat := 0
  win : Nat := 0
  grown : Nat := 0
  retx : Nat := 0
  streams : SMap CStream := []
  expiries : Nat := 0
  ops : List CtOp := []
  ins : List CtIn := []
  nextOp : Nat := 0
  /-- next port of the spray in the order of port numbers, next port of the peer's die -/
  spray : Nat := 0
  dst : Nat := 0
  /-- peer table entry read at the last OPEN, and the peer's `HOME` once its OPEN told it -/
  peerAddr : List Byte := []
  peerHome : Option Nat := none
  deriving DecidableEq, Repr

/-- A group entry: shadow and live words of Table 20-8, collectives submitted, and the barrier tree's instance (R438,
R441). -/
structure Group where
  sh : List Word := [0, 0, 0]
  w : List Word := [0, 0, 0]
  number : Nat := 0
  /-- this member has completed the present barrier instance; ranks of children whose BAR came; the ORs -/
  own : Bool := false
  kids : List Nat := []
  nf : Bool := false
  psn : Bool := false
  deriving DecidableEq, Repr

/-- A collective waiting at the port: descriptor TGA, submitter function and cluster. -/
structure CollReq where
  desc : Nat
  func : Nat
  cluster : Nat
  deriving DecidableEq, Repr

/-- The running collective (R437 to R440): its request, descriptor words, group entry, number on the group, compression mode
used, and the clip record's first two words. -/
structure Coll where
  req : CollReq
  d : List Nat
  group : Nat
  number : Nat
  lcused : Nat := 0
  clip : Nat := 0
  result : Nat := 0
  /-- receptions finished, elements of the present one received, segments sent -/
  step : Nat := 0
  pos : Nat := 0
  segs : Nat := 0
  /-- first code of a write of the result that failed or was discarded (R300) -/
  code : Nat := 0
  /-- clip statistics: sum of squares, clamped and non-finite elements (R303) -/
  sumsq : Nat := 0
  clamped : Nat := 0
  nonfin : Nat := 0
  /-- what reached the result (R446) -/
  ncomp : Nat := 0
  ebmax : Nat := 0
  /-- it has passed its checks and made its first sends; its code once it ends, and whether its `STATUS` is then on the way -/
  going : Bool := false
  ended : Option Nat := none
  wrote : Bool := false
  deriving DecidableEq, Repr

/-- A channel's Caravan Transport. The `CT_` registers hold its configuration and counts. -/
structure Ct where
  flows : SMap Flow := []
  groups : SMap Group := []
  collq : List CollReq := []
  coll : Option Coll := none
  /-- frames put on a port, oldest first, as (port, frame bytes) -/
  sent : List (Nat × List Byte) := []
  /-- port configuration in force per site: MODE, UDP, MAXPAY as in `CT_PORTn_CFG` -/
  live : List Nat := [0, 0, 0, 0]
  /-- received control packets not yet acted on -/
  ctl : List CPkt := []
  /-- this channel's own peer table entry, read at the last OPEN -/
  own : List Byte := []
  /-- NOTICE frames still to send: (peer package, peer channel, flow, times) -/
  notices : List (Nat × Nat × Nat × Nat) := []
  deriving DecidableEq, Repr

end Sys2Proof.Machine
end

