-- ==== Sys2Proof/Machine/ClusterState.lean ====
section
/-! DEFINITION. State of a cluster outside its tiles: stewards, dolly, stream buffers, queues, gateway, takes and siding
(chapters 6 to 13). -/

namespace Sys2Proof.Machine

/-- A byte in flight and whether its word was poisoned. -/
abbrev DByte := Byte × Bool

/-- A deferred exception record: code, kind, pc field, detail (R134, R285). -/
structure DefRec where
  code : Nat
  kind : Nat
  pc : Nat
  deriving DecidableEq, Repr

/-- A record of the holding pen (Table 13-1). Ports 0 to 15 are the gateway's array ports, 16 to 31 the depot interface's. -/
inductive PenRec
  | flit (port : Nat) (f : Flit)
  | store (w tga : Nat) (data : List DByte)
  | send (w dst words : Nat) (data : List DByte)
  | undo (off : Nat) (data : List DByte)
  /-- an entry lost to an uncorrectable error (R291): of an UNDO record the depot range it saved, of any other its metadata -/
  | lost (range : Option (Nat × Nat))
  deriving DecidableEq, Repr

/-- A take slot. -/
structure TakeSlot where
  isOpen : Bool := false
  rec? : Option DefRec := none
  deriving DecidableEq, Repr

/-- A commit or squash being performed, or waiting for the one in progress (R277). -/
structure TakeAct where
  w : Nat
  slot : Nat
  commit : Bool
  /-- register that takes the result -/
  rd : Nat
  /-- records released -/
  n : Nat := 0
  deriving DecidableEq, Repr

/-- What a stalled steward waits for (`CL_STWn_STATUS.WAIT`). -/
inductive Wait
  | none
  | qrcv (q : Nat)
  | qsnd
  | syncWge
  | reply
  | barrier
  | dolly
  | load
  | take
  | seal
  deriving DecidableEq, Repr

/-- A steward's registered or requested wait on an object (R253, R254; Table 11-3). -/
structure SyncWait where
  obj : Nat
  ch : Nat
  remote : Bool
  bar : Bool
  parked : Bool := false
  rd : Nat := 0
  tga : Nat := 0
  /-- `BAR.ARW`: the registration brings an arrival -/
  arw : Bool := false
  /-- the registration has reached the bank: the wait point has passed -/
  reg : Bool := false
  deriving DecidableEq, Repr

/-- A steward core (chapter 6). -/
structure Stw where
  /-- `STATE`: 0 RESET, 1 RUN, 2 STALLED, 3 HALTED, 4 FAULTED -/
  st : Nat := 0
  pc : Nat := 0
  x : SMap Word := []
  take : Option (Fin 4) := none
  fcause : Nat := 0
  fdetail : Nat := 0
  epc : Nat := 0
  tvec : Nat := 0
  /-- `priv` -/
  prv : Bool := false
  pprv : Bool := false
  intrap : Bool := false
  arvDone : Bool := false
  /-- `serr` and `dlyerr`: first code and count -/
  serr : Nat × Nat := (0, 0)
  dlyerr : Nat × Nat := (0, 0)
  instret : Nat := 0
  hepc : Nat := 0
  sscratch : Word := 0
  /-- length in bytes of the instruction in progress -/
  ilen : Nat := 4
  /-- complete one instruction, then halt again -/
  stepping : Bool := false
  wait : Wait := .none
  /-- began waiting in `QRCV`, by order of waiting (R231) -/
  waitNo : Nat := 0
  swait : Option SyncWait := none
  /-- running handler: queue and handler entry (R233) -/
  inh : Option (Nat × Nat) := none
  /-- the message that started it is still queued (R234) -/
  inMsg : Bool := false
  /-- posted operations not yet acknowledged (R126) -/
  posted : Nat := 0
  /-- code bytes as fetched, where this steward's own stores since the last `FENCE.I` changed them (R136) -/
  oldCode : SMap Byte := []
  deriving DecidableEq, Repr

/-- A dolly descriptor in a slot (R129, R130, R190). -/
structure DSlot where
  /-- issuing steward, 2 for a preload descriptor of the load sequencer -/
  w : Nat
  count : Nat
  collect : Bool
  /-- the four words read from the depot -/
  desc : List Nat
  take : Option (Fin 4) := none
  /-- order of issue among the cluster's descriptors -/
  order : Nat := 0
  started : Bool := false
  /-- bytes of the source requested, taken in, and of the destination asked to be written -/
  asked : Nat := 0
  taken : Nat := 0
  put : Nat := 0
  /-- bytes taken in and not yet written: copy remainder or encoded bytes -/
  hold : List DByte := []
  /-- decoded bytes that wait for room in a buffer (R208) -/
  lane : List DByte := []
  /-- code that ended it; cancelled (R566); complete and held for collection -/
  code : Option Nat := none
  /-- a write of it was discarded by the guard (R300) -/
  skipped : Bool := false
  /-- RPT epoch it was checked under (R380, R382) -/
  epoch : Nat := 0
  cancelled : Bool := false
  complete : Bool := false
  deriving DecidableEq, Repr

/-- A queue entry: header and body words. -/
structure Msg where
  hdr : Nat
  body : List DByte
  deriving DecidableEq, Repr

/-- A stream buffer's state that no register shows. -/
structure SBuf where
  pend : Option (Nat × Nat) := none
  /-- HALVES: the fill half is filled; the drain half holds undrained data -/
  filled : Bool := false
  full : Bool := false
  /-- passes of the drain half finished -/
  pass : Nat := 0
  /-- flits of the present slot or pass emitted by each port -/
  sent : SMap Nat := []
  /-- take mark: `PUBCNT` and `FILL` where it began -/
  markPub : Nat := 0
  markFill : Nat := 0
  /-- held signals in order, true for a publish -/
  held : List Bool := []
  /-- emission stops after the token in progress: its slot was squashed (R218) -/
  stopped : Option (Fin 4) := none
  deriving DecidableEq, Repr

/-- A steward's publish, or the signal of its release, that waits for its earlier stores (R139, R210, R216): steward, order among the
channel's requests, cluster and number of the buffer. -/
structure SbDue where
  w : Nat
  no : Nat
  cl : Nat
  buf : Nat
  pub : Bool
  deriving DecidableEq, Repr

/-- A cluster outside its tiles. Input queues of the gateway are numbered 0 N, 1 E, 2 S, 3 W, 4 XN, 5 XE, 6 XS, 7 XW, 8 its
own traffic; ports 0 to 15 as chapters 3 and 9 number them. -/
structure Cluster where
  /-- perimeter queues: array ports, depot interface ports, head first; credits not yet usable -/
  aq : SMap (List Flit) := []
  dq : SMap (List Flit) := []
  retA : SMap Nat := []
  retD : SMap Nat := []
  retM : SMap Nat := []
  stws : SMap Stw := []
  slots : SMap DSlot := []
  issues : Nat := 0
  /-- the steward that won the last tie for a slot (R130) -/
  tie : Nat := 1
  bufs : SMap SBuf := []
  sbDue : List SbDue := []
  /-- buffer that a depot port is part-way through, and the buffer it served last -/
  portBuf : SMap Nat := []
  /-- the gateway's round-robin over its array ports (R43), and each queue's over the gateway inputs (R229) -/
  arrPtr : Nat := 0
  inPtr : SMap Nat := []
  queues : SMap (List Msg) := []
  /-- poisoned DISPATCH queues whose steward has trapped for it (R235) -/
  ptrapped : List Nat := []
  /-- messages built: sources 0 and 1 the stewards, 2 + route an egress entry -/
  seqs : SMap Nat := []
  /-- tokens written through a WRITE egress entry -/
  tokens : SMap Nat := []
  /-- order counter of `QRCV` waits -/
  waits : Nat := 0
  take : SMap TakeSlot := []
  /-- the holding pen, oldest first: slot and record -/
  pen : List (Fin 4 × PenRec) := []
  act : Option TakeAct := none
  actq : List TakeAct := []
  /-- flits a commit has released to a port, still to be taken there: array ports, then 16 + depot port (R282) -/
  relq : SMap (List Flit) := []
  /-- array flits wait while a commit runs (R281) -/
  shut : Bool := false
  /-- siding: KiB, free units, spilled gateway inputs, and where the engine's round-robin stands -/
  siding : Nat := 0
  freeUnits : List Nat := []
  gwSpilled : List Nat := []
  engine : Nat := 0
  /-- the bank round-robin over burst requesters: 0 to 15 the depot interface ports, 16 the dolly, 17 the gateway, 18 the siding
  engine (R177) -/
  bankPtr : SMap Nat := []
  /-- the monitor watches this cluster: its section runs (R262) -/
  watched : Bool := false
  /-- the load that took the cluster and its function (R374) -/
  owner : Option (Nat × Nat) := none
  /-- physical column that the next load sets aside (R52) -/
  remap : Option Nat := none
  deriving DecidableEq, Repr

end Sys2Proof.Machine
end

