-- ==== Sys2Proof/Machine/ChannelState.lean ====
section
/-! DEFINITION. State of a channel's fabric and units: requests in flight, edge routers, sync unit, predictor (chapters 3, 8,
11 and 13). -/

namespace Sys2Proof.Machine

/-- Operations on sync objects (Table 11-2). -/
inductive SOp
  | rd
  | add
  | set
  | wge
  | arv
  | wait
  | arw
  deriving DecidableEq, Repr

/-- What a request asks of its target. -/
inductive ROp
  | read (len : Nat)
  | write (data : List DByte)
  /-- a queue message to the queue address of the request -/
  | msg (hdr : Nat) (body : List DByte)
  /-- a flit for another cluster's depot interface (R238): port and flit -/
  | flit (port : Nat) (f : Flit)
  | sync (op : SOp) (n : Nat)
  /-- the write-back of a granule read with a corrected error, which changes no byte (R183) -/
  | fix
  deriving DecidableEq, Repr

/-- Where a request stands. -/
inductive Place
  /-- held at a closed WRITES gate (R159) -/
  | gate
  /-- waiting for a transaction table entry (R191) -/
  | table
  /-- in an input queue of a cluster's gateway -/
  | mesh (cl inp : Nat)
  /-- at the stack-site edge routers -/
  | hbm
  /-- split over several stack sites: its legs are requests of their own (R53) -/
  | legs
  /-- at the banks of a depot -/
  | depot (cl : Nat)
  /-- at a bank of the sync unit -/
  | bank
  /-- a wait registration answered busy, to be repeated (R253) -/
  | busy
  /-- held by the write guard (R299) -/
  | guard
  /-- handed to Caravan Transport -/
  | remote
  /-- its outcome is on the way back -/
  | done
  deriving DecidableEq, Repr

/-- A request in flight. -/
structure Req where
  /-- order of issue in the channel -/
  no : Nat := 0
  ret : RetTo
  /-- function it belongs to; none for supervisor code and the hub (R374) -/
  fn : Option Nat
  /-- RPT epoch it was checked under (R381) -/
  epoch : Nat
  /-- issuing cluster; 96 for requests from outside the channel -/
  cl : Nat
  tga : Nat
  op : ROp
  /-- 0 read, 1 write, 2 remote (R193) -/
  cls : Nat
  prefetch : Bool := false
  entry : Bool := false
  place : Place
  /-- performed so far: granule offsets done for HBM, bytes for a depot -/
  parts : List Nat := []
  /-- siding units that hold it, when a spilled gateway queue does -/
  units : List Nat := []
  /-- a leg of another request: the stack site whose granules it covers (R53) -/
  site : Option Nat := none
  /-- cluster where the mesh has to take it, and the gateway port of the edge router by which it came there -/
  dest : Nat := 0
  port : Nat := 0
  /-- pseudo-channels lost while it was on its way, with the code of the fault (R200) -/
  doom : List (Nat × Nat) := []
  code : Nat := 0
  data : List DByte := []
  deriving DecidableEq, Repr

/-- A sync object (R244). -/
structure SObj where
  bind : Word := 0
  /-- COUNTER value or BARRIER phase -/
  val : Nat := 0
  cnt : Nat := 0
  psn : Bool := false
  armed : Bool := false
  deriving DecidableEq, Repr

/-- A registered waiter: who, object, barrier or counter condition, threshold. -/
structure Waiter where
  who : RetTo
  obj : Nat
  bar : Bool
  thr : Nat
  deriving DecidableEq, Repr

/-- A predictor entry (R288). -/
structure PredEnt where
  func : Nat
  tag : Nat
  exps : List Nat
  conf : List Nat
  deriving DecidableEq, Repr

/-- A channel's fabric and units. -/
structure Chan where
  reqs : List Req := []
  nextNo : Nat := 0
  /-- next requester of the transaction table's round-robin -/
  ttPtr : Nat := 0
  /-- per site: credits of the classes, the split in force, whether a committed split still waits for the boundary, the
  next gateway port of each class -/
  credit : SMap (List Int) := []
  split : SMap Nat := []
  splitWait : List Nat := []
  portPtr : SMap Nat := []
  objs : SMap SObj := []
  waiters : List Waiter := []
  pred : SMap PredEnt := []
  /-- epoch of the channel's last fence (R384); functions being disabled, with the record in force when the disable came (R388) -/
  fence : Option Nat := none
  /-- the firmware's mailbox: bytes 8 to 63 of the last `FWCALL` entry, by words (R357) -/
  mailbox : List Nat := []
  scrubs : SMap Nat := []
  deriving DecidableEq, Repr

end Sys2Proof.Machine
end

