-- ==== Sys2Proof/Machine/UnitState.lean ====
section
/-! DEFINITION. State of a channel's load sequencer, non-finite monitor and Seal unit (chapters 7, 14 to 16). -/

namespace Sys2Proof.Machine

/-- A command of a host ring: function, ring, number of the command in the ring. -/
structure CmdRef where
  f : Nat
  r : Nat
  no : Nat
  deriving DecidableEq, Repr

/-- A command that waits at the sequencer for `IDLE` (R358), or a `START` it holds (R359). -/
inductive LoadCmd
  | load (c : CmdRef) (tga len : Nat)
  | unload (c : CmdRef) (section_ : Nat)
  | start (c : CmdRef) (section_ : Nat)
  deriving DecidableEq, Repr

/-- A running section: identifier, function, number of the load that placed it, clusters (R164, R374). -/
structure Section where
  id : Nat
  fn : Nat
  load : Nat
  cls : List Nat
  deriving DecidableEq, Repr

/-- What a `STEWARD` record says of a cluster (Table 7-3). -/
structure StwRec where
  entry0 : Nat
  run0 : Bool
  entry1 : Nat
  run1 : Bool
  deriving DecidableEq, Repr

/-- The load sequencer beyond its `CH_LD` registers. -/
structure LoadSeq where
  /-- the live request: reel TGA, length, function, ring command if one asked (R150) -/
  tga : Nat := 0
  len : Nat := 0
  fn : Nat := 0
  cmd : Option CmdRef := none
  /-- the reel as the first pass read it -/
  reel : List Byte := []
  /-- from the reel's header: section, clusters, start source, units required (bit 1 also for an EGC preload) -/
  sec : Nat := 0
  cls : List Nat := []
  start : Nat := 0
  needs : Nat := 0
  /-- the clusters are owned by this load -/
  owned : Bool := false
  stw : SMap StwRec := []
  /-- `PRELOAD` descriptors still to run, by cluster, in reel order -/
  pre : SMap (List (List Nat)) := []
  /-- the step in progress has been issued; districts that have applied it -/
  issued : Bool := false
  /-- number of the present load and of the loads begun -/
  no : Nat := 0
  /-- a `SYNC_IN` pulse has been accepted since `ARMED` was entered -/
  pulse : Bool := false
  /-- ring command of the unload in progress -/
  unloadCmd : Option CmdRef := none
  waiting : List LoadCmd := []
  /-- images and codes of `STEWARD` records written, by cluster and place in the reel (R153 step 7) -/
  puts : List (Nat × Nat) := []
  sections : List Section := []
  deriving DecidableEq, Repr

/-- A monitor configuration: word of `CH_NFCFG`, and the windows as (base, configuration). -/
structure NfCfg where
  cfg : Nat := 0
  wins : List (Nat × Nat) := []
  deriving DecidableEq, Repr

/-- A write that the guard holds (R299, R300): a request of the channel by its number, or bytes that a unit would write, with the
unit (kind, cluster, number) that waits for it. -/
inductive HeldWrite
  | req (no : Nat)
  | put (key : Nat × Nat × Nat) (at_ : Nat) (data : List (Byte × Bool))
  deriving DecidableEq, Repr

/-- The non-finite monitor beyond its registers: configuration in force, accepted configuration waiting (R293), number of the
present step, sample that travels with a group arrival (R296). -/
structure Monitor where
  live : NfCfg := {}
  pend : Option NfCfg := none
  step : Nat := 0
  sample : Option Bool := none
  /-- writes held, in the order they arrived, and outcomes (code, bytes) of those that their unit has still to take -/
  held : List HeldWrite := []
  ready : List ((Nat × Nat × Nat) × (Nat × Nat)) := []
  deriving DecidableEq, Repr

/-- A Seal object as read or to be written: header fields and body words (R309, R310). -/
structure SealObj where
  pset : Nat
  dim : Nat
  res : Bool
  taint : Bool
  /-- `NOISE`, 16 bits -/
  noise : Nat
  keyset : Nat
  user : Nat
  words : List Nat
  deriving DecidableEq, Repr

/-- An entry of the submission queue (R317). -/
structure SealEnt where
  /-- the context a `SEAL.CTX` names, none for a convoy -/
  ctx : Option Nat
  fn : Option Nat
  /-- epoch of submission -/
  epoch : Nat
  /-- submitting steward, `2 × cluster + steward` -/
  w : Nat
  cnt : Nat
  desc : Nat
  collect : Bool
  /-- complete and held for collection -/
  done : Bool := false
  code : Nat := 0
  /-- its section or function is gone: it ends with no completion and no signal (R331) -/
  silent : Bool := false
  /-- queued at a disable, or submitted while the unit was disabled (R343) -/
  barred : Bool := false
  deriving DecidableEq, Repr

/-- The entry that executes: phase as `SEAL_STAT.PHASE`, descriptor words, operand lists, test polynomial, operands by TGA,
operands marked for refresh and their copies, accumulators, results. -/
structure SealRun where
  ent : Nat
  phase : Nat
  d : List Nat := []
  lists : List (List Nat) := []
  tp : Option SealObj := none
  objs : SMap SealObj := []
  marks : List Nat := []
  copies : SMap SealObj := []
  /-- by list entry: the operands its refreshed copies replace, and whether it runs over under TAINT -/
  fresh : List (List Nat) := []
  hot : List Bool := []
  /-- objects bootstrapped and not yet key-switched; finished bodies by list entry -/
  accs : List SealObj := []
  outs : List SealObj := []
  /-- noise of each list entry's result -/
  noises : List Nat := []
  /-- PBS passes finished in this phase; key bytes asked for so far in this phase; code of a failed key read or of a store's error -/
  passes : Nat := 0
  keyPos : Nat := 0
  bad : Nat := 0
  /-- in WRITE, by list entry: the code of an output that is not written, and the requests that write it -/
  wouts : List (Nat × List Nat) := []
  deriving DecidableEq, Repr

/-- A Seal unit beyond its registers. -/
structure Seal where
  ents : SMap SealEnt := []
  /-- entries submitted and not complete, oldest first -/
  order : List Nat := []
  run : Option SealRun := none
  /-- submissions made -/
  subs : Nat := 0
  /-- addresses of the BSK and the KSK of each context -/
  keydir : SMap (Nat × Nat) := []
  /-- a disable that waits for WRITE to end: its code; permanent faults of the unit found during WRITE, for the controller to
  receive then (R344) -/
  ending : Option Nat := none
  late : List FaultEv := []
  deriving DecidableEq, Repr

end Sys2Proof.Machine
end

