-- ==== Sys2Proof/Machine/HostState.lean ====
section
/-! DEFINITION. State of the host port and of the functions behind it (chapters 17 and 18). The `VF_` registers of a function
hold its queue positions and configuration; this holds the rest. -/

namespace Sys2Proof.Machine

/-- A fetched command: its number in the ring, its eight words, whether it has started, whether its action has been carried out
or its next copy piece asked for, its outcome once known (code, result, detail), bytes copied so far. -/
structure HCmd where
  no : Nat
  w : List Nat
  started : Bool := false
  sent : Bool := false
  out : Option (Nat × Nat × Nat) := none
  prog : Nat := 0
  deriving DecidableEq, Repr

/-- A command ring beyond its registers. -/
structure Ring where
  /-- fetched commands whose completion is not written, in ring order -/
  cmds : List HCmd := []
  /-- entries whose read from host memory is outstanding -/
  asked : Nat := 0
  /-- outcomes in the order commands completed: the completions to write -/
  done : List Nat := []
  /-- completion slots written and not released -/
  used : Nat := 0
  /-- the committed configuration that waits for the safe point: `SQBASE`, `CQBASE`, `CFG` -/
  pend : Option (Nat × Nat × Nat) := none
  /-- disabled since its last commit (R353) -/
  fresh : Bool := true
  /-- number of the next command -/
  next : Nat := 0
  deriving DecidableEq, Repr

/-- An event that waits to be written (Table 17-5). -/
structure HEvent where
  id : Nat
  ch : Nat
  code : Nat
  result : Nat
  detail : Nat
  deriving DecidableEq, Repr

/-- Errors reported through AER (R369), in PCIe's classes. -/
inductive AerErr
  /-- fatal: keeper mode -/
  | internal
  /-- not fatal -/
  | unsupported
  | completerAbort
  | timeout
  | poisoned
  deriving DecidableEq, Repr

/-- A function beyond its registers. -/
structure HostFn where
  rings : SMap Ring := []
  /-- event queue: events to write, slots written and not released, live base and configuration, committed one waiting -/
  events : List HEvent := []
  evUsed : Nat := 0
  evLive : Nat × Nat := (0, 4)
  evPend : Option (Nat × Nat) := none
  evFresh : Bool := true
  /-- D3hot -/
  d3 : Bool := false
  /-- vectors with a message requested and not yet sent (R363) -/
  msi : List Nat := []
  /-- MSI-X table entries: vector to message address, data and vector control -/
  msix : SMap (Nat × Nat × Nat) := []
  /-- MSI-X Enable and Function Mask of its MSI-X capability, errors of its AER capability -/
  msixEn : Bool := false
  msixMask : Bool := false
  aer : List AerErr := []
  /-- channels whose disable of this function has not finished (R388) -/
  busy : List Nat := []
  deriving DecidableEq, Repr

/-- Ordering attributes of a request; the device sets neither (R365). -/
structure TlpAttr where
  relaxed : Bool := false
  idBased : Bool := false
  deriving DecidableEq, Repr

/-- What the device put on the host link. -/
inductive HostOut
  /-- a memory write: address and bytes -/
  | write (addr : Nat) (data : List Byte) (attr : TlpAttr := {})
  /-- a memory read the device asks for -/
  | read (addr len : Nat) (attr : TlpAttr := {})
  /-- an MSI-X message of a function's vector: address and data of its table entry -/
  | msix (f vec addr data : Nat) (attr : TlpAttr := {})
  /-- the completion of an aperture read: bytes, EP -/
  | reply (data : List Byte) (ep : Bool)
  /-- Completer Abort and Unsupported Request -/
  | abort
  | unsupported
  /-- Configuration Request Retry Status (R367) -/
  | retry
  deriving DecidableEq, Repr

/-- The host port. -/
structure Port where
  /-- `PERST_N` asserted, and being timed by the filter -/
  perst : Bool := false
  timing : Bool := false
  /-- the port is ready: link trained, configuration requests answered -/
  ready : Bool := false
  /-- VF Enable and NumVFs of the SR-IOV capability (R371) -/
  vfEnable : Bool := false
  numVfs : Nat := 0
  fns : SMap HostFn := []
  /-- round-robin of the fetcher over functions and rings -/
  fetchPtr : Nat := 0
  /-- MODEL's own field: what left the port, oldest first -/
  out : List HostOut := []
  deriving DecidableEq, Repr

end Sys2Proof.Machine
end

