-- ==== Sys2Proof/Machine/LinkState.lean ====
section
/-! DEFINITION. State of one end of a Fyast Die Link (chapter 19): packets, flits, retry, credits, outstanding requests. -/

namespace Sys2Proof.Machine

/-- An FDL packet: the header of Table 19-3 and its 16-byte data slots. -/
structure FPkt where
  ptype : Nat
  cls : Nat
  dslots : Nat := 0
  tag : Nat := 0
  code : Nat := 0
  func : Nat := 0
  len : Nat := 0
  last : Bool := false
  busy : Bool := false
  op : Nat := 0
  addr : Nat := 0
  slots : List Nat := []
  deriving DecidableEq, Repr

/-- An FDL flit: the header of Table 19-2 and its fifteen slots. -/
structure FFlit where
  ftype : Nat
  sub : Nat := 0
  seq : Nat := 0
  ack : Nat := 0
  ackv : Bool := false
  crcls : Nat := 0
  crcnt : Nat := 0
  hdrptr : Nat := 15
  slots : List Nat := []
  deriving DecidableEq, Repr

/-- A request issued over a link that awaits its final response (R402, R414). -/
structure FOut where
  tag : Nat
  ptype : Nat
  /-- register window accesses: whether the request was a read, the offset, and whether the host waits for so many bytes -/
  read : Bool := false
  addr : Nat := 0
  host : Option Nat := none
  data : List Nat := []
  deriving DecidableEq, Repr

/-- One end of a link. The registers of the end (`FDL_LINKn_…` or `FDL_HLc_…`) hold its state, version, features and
counts; this holds the rest. -/
structure FdlEnd where
  /-- this end's capability record (Table 19-5), 64 bytes as a number -/
  own : Nat := 0
  /-- the partner's record, once received -/
  peer : Option Nat := none
  /-- AGREE sent by the master and not yet echoed: version and features as R406 gives -/
  agreeOut : Option Nat := none
  /-- next SEQ to send, flits kept for replay, next SEQ to resend while a replay runs (R398, R399) -/
  txSeq : Nat := 0
  kept : List FFlit := []
  resend : Option Nat := none
  /-- next SEQ expected, whether any DATA flit was accepted, RETRY outstanding, RETRYs sent for the expected SEQ -/
  rxNext : Nat := 0
  rxAny : Bool := false
  retryPend : Bool := false
  retries : Nat := 0
  /-- control flits to send and received, as (SUB, slots 0 to 3) -/
  ctrlOut : List (Nat × Nat) := []
  ctrlIn : List (Nat × Nat) := []
  /-- packets waiting for credit, then slots waiting for a flit as (starts a packet, slot) -/
  txq : List FPkt := []
  txSlots : List (Bool × Nat) := []
  /-- credits held toward the partner and credits owed to it, class 0 first -/
  cred : List Nat := [0, 0, 0, 0, 0, 0]
  /-- credits that the partner holds toward this end, as this end has granted them (R403, R413) -/
  given : List Nat := [0, 0, 0, 0, 0, 0]
  owed : List Nat := [0, 0, 0, 0, 0, 0]
  /-- slots of a packet in reception, and packets received and not yet acted on -/
  rxPart : List Nat := []
  rxq : List FPkt := []
  /-- outstanding requests, tags timed out and not yet reusable, next tag -/
  outst : List FOut := []
  dead : List Nat := []
  nextTag : Nat := 1
  /-- PMREQ sent and not yet answered -/
  pmWait : Bool := false
  /-- test mode: flits sent and not yet looped back, pattern generator state -/
  testOut : List Nat := []
  prbs : Nat := 0x7FFFFFFF
  /-- values in force of FUNC and L1IDLE -/
  func : Nat := 0xFF
  l1idle : Nat := 0
  /-- last flit put on the wire -/
  wire : Option Nat := none
  /-- fragments of FRAME packets in reassembly, image bytes received in BOOT packets, NOTE words received -/
  frame : List Byte := []
  image : List Byte := []
  notes : List Nat := []
  /-- queue messages taken in over this end, which number them (R411) -/
  msgs : Nat := 0
  /-- the link has been agreed once since this end's reset: what follows is no longer bring-up (R415, R416) -/
  up : Bool := false
  /-- result of the last register window access: code and value -/
  regResult : Nat × Nat := (0, 0)
  deriving DecidableEq, Repr

end Sys2Proof.Machine
end

