-- ==== Sys2Proof/Machine/PackageState.lean ====
section
/-! DEFINITION. State of power control, fault handling, boot, the nonvolatile store, management and debug (chapters 21
to 25). The registers of those chapters hold their register-visible part; this holds the rest. -/

namespace Sys2Proof.Machine

/-- A district's operating point beyond its registers (R452 to R466). Frequencies are 25 MHz codes, voltages 5 mV
codes. -/
structure District where
  /-- committed target awaiting its epoch boundary, `DST_VFTGT` [23:0] -/
  pend : Option Nat := none
  /-- budget, thermal and monitor caps -/
  capB : Nat := 84
  capT : Nat := 84
  capM : Nat := 84
  /-- budget caps of the channel's districts when this district began lending (R463) -/
  capsBefore : Option (List Nat) := none
  /-- a tile fired or a depot port emitted since the last epoch boundary; a steward was active -/
  active : Bool := false
  /-- the PLL has lost lock: its clock is gated (R470) -/
  pllLost : Bool := false
  deriving DecidableEq, Repr

/-- A location table entry (R475). -/
structure LocEnt where
  ty : Nat
  loc : Nat
  time : Nat
  armed : Bool
  deriving DecidableEq, Repr

/-- A repair copy in progress (R480): type, location, unit. -/
structure Repair where
  ty : Nat
  loc : Nat
  unit : Nat
  deriving DecidableEq, Repr

/-- A fault controller (R474 to R480): bucket levels keyed by type, cluster and unit, the location table most recent first,
events in the present window and quiet windows per type, repairs running, spares used keyed as the buckets. -/
structure FaultCtl where
  bucket : SMap Nat := []
  locs : List LocEnt := []
  count : SMap Nat := []
  quiet : SMap Nat := []
  repairs : List Repair := []
  /-- spare rows used of the HBM banks and service memories, keyed by type and unit as the buckets, and by bank above bit 64 -/
  spares : SMap Nat := []
  /-- locations redirected to a spare -/
  repaired : List Nat := []
  deriving DecidableEq, Repr

/-- What a store operation writes (R508, R511). -/
structure NvJob where
  bank : Nat
  kind : Nat
  fromLc : Nat
  toLc : Nat
  seq : Nat
  body : List Byte
  deriving DecidableEq, Repr

/-- Background store work. -/
inductive NvErase
  | bank (b : Nat)
  | half (h : Nat)
  | dump
  deriving DecidableEq, Repr

/-- The nonvolatile store and boot state (chapter 23). -/
structure Nv where
  /-- the 64 MiB flash; an unlisted byte reads 0xFF -/
  flash : SMap Byte := []
  /-- the bank that holds the current generation, none for an empty store -/
  cur : Option Nat := none
  job : Option NvJob := none
  erases : List NvErase := []
  /-- fault records waiting to be appended, 32 bytes each -/
  appends : List (List Byte) := []
  /-- fused SHA-384 hashes of the four public keys -/
  keyHash : List Nat := [0, 0, 0, 0]
  /-- the RETURNED boot's scrub is running (R523) -/
  scrub : Bool := false
  /-- transition permitted by an accepted PURPOSE 2 record: target state -/
  permit : Option Nat := none
  deriving DecidableEq, Repr

/-- Where the hub stands between reset and run (R499 to R507, R489). -/
inductive Phase
  /-- `PWRGD` low or not yet stable: every die held in reset -/
  | held
  /-- `PWRGD` accepted high, or a warm reset taken: the ROM is to run -/
  | rom
  /-- the firmware has started and brings the package up -/
  | fw
  /-- running -/
  | run
  /-- keeper mode -/
  | keeper
  deriving DecidableEq, Repr

/-- A management response: completion code and bytes. -/
structure Resp where
  code : Nat
  data : List Byte
  deriving DecidableEq, Repr

/-- A firmware update session (R534): target slot, bytes received; what the ROM holds in hub SRAM in keeper mode, by slot
offset (R535). -/
structure FwUpdate where
  slot : Nat
  written : Nat
  verified : Bool
  sram : List (Nat × List Byte) := []
  deriving DecidableEq, Repr

/-- Management, JTAG and pins of the hub (chapters 21, 22, 24, 25). -/
structure Mgmt where
  /-- the address in force: `ADDR`, or the one ARP assigned -/
  addr : Nat := 0x4C
  /-- queued event messages, oldest first, as (kind, data) -/
  events : List (Nat × Nat) := []
  /-- events discarded since the last vendor event -/
  lost : Nat := 0
  alert : Bool := false
  holdoff : Bool := false
  /-- threshold state of each sensor: 0 normal, 1 warning, 2 critical, 3 fatal; and its last reading -/
  level : SMap Nat := []
  reading : SMap Nat := []
  update : Option FwUpdate := none
  resp : Option Resp := none
  /-- JTAG: instruction register, DBGDENY, result of the last debug instruction, boundary register -/
  ir : Nat := 0xFF
  deny : Bool := false
  tdo : List Nat := []
  boundary : List Bool := []
  /-- the dump area's erase is running; a keeper dump is being written (R539) -/
  erasing : Bool := false
  dumping : Bool := false
  /-- SMBus transaction in progress: bytes so far -/
  partialMsg : List Byte := []
  deriving DecidableEq, Repr

/-- A channel's dailies beyond `CH_DLY…` (R536, R537). -/
structure Dailies where
  /-- records by buffer index -/
  recs : SMap (List Word) := []
  seq : Nat := 0
  full : Nat := 0
  armed : Bool := false
  /-- records still to take after the trigger -/
  left : Option Nat := none
  frozen : Bool := false
  /-- the hub's tail, oldest first, at most 2,048 records -/
  tail : List (List Word) := []
  /-- counters running -/
  counting : Bool := false
  deriving DecidableEq, Repr

end Sys2Proof.Machine
end

