-- ==== Sys2Proof/Machine/Regs.lean ====
section
/-! DEFINITION. The register map: every software-visible register of the spec with its block, offset, repetition, width
and fields, transcribed from the register tables of chapters 1 to 25. -/

namespace Sys2Proof.Machine

/-- Register blocks (chapter 0, *Register conventions*). -/
inductive Block
  | hub | ch | dst | cl | tl | seal | fdl | ct | fn
  deriving DecidableEq, Repr

/-- Access codes of Table 0-2; a field with no row is RSV. -/
inductive Acc
  | ro | rw | w1c | w1s | wo | rc
  deriving DecidableEq, Repr

/-- One field: low bit, width, access code, reset value. -/
structure FieldDesc where
  lo : Nat
  w : Nat
  acc : Acc
  rst : Nat
  deriving DecidableEq, Repr

/-- One register: block, offset of copy 0, distance between copies, number of copies, width in bits, fields. A register
wider than 64 bits is described as its 64-bit words (R9 governs their halves). -/
structure RegDesc where
  block : Block
  off : Nat
  stride : Nat
  count : Nat
  width : Nat
  fields : List FieldDesc
  deriving DecidableEq, Repr

/-- The registers. -/
inductive Reg
  | HUB_CAPS
  | HUB_OPMODE
  | HUB_CHCAPSn
  | HUB_HOSTERR
  | HUB_HOSTERRADDR
  | HUB_PORTSTAT
  | HUB_PERSTCNT
  | HUB_RPTFENCE
  | HUB_PWRBUDGET
  | HUB_PWRSHAREn
  | HUB_PWRLIVE
  | HUB_THROTTLE
  | HUB_SYNCIN
  | HUB_PODTIME
  | HUB_SYNCSTAMP
  | HUB_PODLOAD
  | HUB_SYNCCTRL
  | HUB_FAULTPEND
  | HUB_FAULTMASK
  | HUB_FLOGPTR
  | HUB_FCLS
  | HUB_RSTCTRL
  | HUB_MGMTCFG
  | HUB_MGMTSTAT
  | HUB_DUMPSTAT
  | HUB_DLYFREEZE
  | HUB_PMCTRL
  | HUB_TAILSEL
  | HUB_TAILRECn
  | HUB_SUPPLYSTAT
  | HUB_THERMSTAT
  | HUB_VFCFGn
  | HUB_VFSTATn
  | NV_CFG
  | NV_CFGLIVE
  | NV_CTRL
  | NV_STAT
  | NV_LC
  | NV_FLOGSTAT
  | NV_BOOTSTAT
  | NV_DIEID
  | NV_CHALn
  | NV_KEYREV
  | NV_AUTHn
  | HUB_FLOGn
  | CH_SELF
  | CH_CAPS
  | CH_CLFENCE0
  | CH_CLFENCE1
  | CH_UNITERR
  | CH_LDCTRL
  | CH_LDSRC
  | CH_LDREQ
  | CH_LDORDER
  | CH_LDSTAT
  | CH_LDUNLOAD
  | CH_BWSPLIT
  | CH_BWLIVE
  | CH_HBMMAP
  | CH_HBMSIZE
  | CH_TTCFG
  | CH_TTSTAT
  | CH_MEMERR
  | CH_MEMERRADDR
  | CH_EGCSTAT
  | CH_SYNCSEL
  | CH_SYNCCFG
  | CH_SYNCSTATE
  | CH_SYNCCTRL
  | CH_SYNCERR
  | CH_SYNCCNT
  | CH_PREDCTRL
  | CH_PREDSTAT
  | CH_NFCTRL
  | CH_NFCFG
  | CH_NFSTAT
  | CH_NFADDR
  | CH_NFVERDICT
  | CH_LSCALE
  | CH_NFWINn_BASE
  | CH_NFWINn_CFG
  | CH_RPTCTRL
  | CH_RPTSTAT
  | CH_RPTERR
  | CH_RPTERRADDR
  | CH_PWRSTAT
  | CH_PWRCFG
  | CH_FCLSn
  | CH_FSTAT
  | CH_FLOGPTR
  | CH_FINJ
  | CH_DLYCFG
  | CH_DLYCTRL
  | CH_DLYSTAT
  | CH_DLYMARK
  | CH_DLYSEL
  | CH_DLYRECn
  | CH_PMCTRL
  | CH_PMSELn
  | CH_PMCn
  | CH_PMSNAPn
  | CH_RPTWINn
  | CH_RPTWINLn
  | CH_FNRECf
  | CH_FNRECLf
  | CH_FLOGn
  | DST_VFTGT
  | DST_VFLIVE
  | DST_PWRSTAT
  | DST_THERMCFG
  | DST_STALLCFG
  | DST_STALLSTAT
  | CL_CAPS
  | CL_GATE
  | CL_SECTION
  | CL_DEPERR
  | CL_SYNCW
  | CL_SIDSTAT
  | CL_STALLAGE
  | CL_GWSPILL
  | CL_TAKESTAT
  | CL_PENSTAT
  | CL_TAKEk
  | CL_DEPSPARE
  | CL_STWn_CTRL
  | CL_STWn_STATUS
  | CL_STWn_EPC
  | CL_STWn_FDETAIL
  | CL_QSTATn
  | CL_QCFGn
  | CL_QHDRn
  | CL_QCTRLn
  | CL_QERR
  | CL_QDISP
  | CL_QBODYn_w
  | CL_SBn_CFGA
  | CL_SBn_CFGB
  | CL_SBn_LIVEA
  | CL_SBn_LIVEB
  | CL_SBn_CTRL
  | CL_SBn_STAT
  | CL_SBERR
  | CL_HTn
  | CL_EGn
  | TL_CTRL
  | TL_STATUS
  | TL_MODE
  | TL_FLAGS
  | TL_FIRECNT
  | TL_STALLCNT
  | TL_BPCNT
  | TL_QOCC
  | TL_RNGSEED
  | TL_SPILL
  | TL_ROUTEn
  | TL_IMEMn
  | SEAL_STAT
  | SEAL_CFG
  | SEAL_ERR
  | SEAL_PBSCNT
  | SEAL_KSWCNT
  | SEAL_KEYBYTES
  | SEAL_CTRL
  | SEAL_NOISESTAT
  | SEAL_NOISEREC
  | SEAL_NCONSTs
  | SEAL_CTXn_STAT
  | FDL_LINKn_STAT
  | FDL_LINKn_PCAP
  | FDL_LINKn_PCRED
  | FDL_LINKn_PDIE
  | FDL_LINKn_CFG
  | FDL_LINKn_CTRL
  | FDL_LINKn_ERR
  | FDL_LINKn_CREDIT
  | CT_GLOBAL
  | CT_PEERBASE
  | CT_LCCFG
  | CT_LCLIVE
  | CT_PORTn_CFG
  | CT_PORTn_STAT
  | CT_FLOWSEL
  | CT_FLOWCFGw
  | CT_FLOWCTRL
  | CT_FLOWSTAT
  | CT_GRPSEL
  | CT_GRPCFGw
  | CT_GRPCTRL
  | CT_ERR
  | CT_ERRADDR
  | CT_TXPKT
  | CT_RXPKT
  | CT_RETXPKT
  | CT_COLLSTAT
  | VF_SELF
  | VF_CHGRANT
  | VF_GRANTSEL
  | VF_GRANTRECn
  | VF_WINSEL
  | VF_WINn
  | VF_RPTERR
  | VF_RPTERRADDR
  | VF_RINGn_SQBASE
  | VF_RINGn_CQBASE
  | VF_RINGn_CFG
  | VF_RINGn_CTRL
  | VF_RINGn_STAT
  | VF_RINGn_LIVESQ
  | VF_RINGn_LIVECQ
  | VF_RINGn_LIVECFG
  | VF_EVQ_BASE
  | VF_EVQ_CFG
  | VF_EVQ_CTRL
  | VF_EVQ_STAT
  | VF_SQDB
  | VF_CQDB
  | VF_EVQDB
  | VF_APa_BASE
  deriving DecidableEq, Repr

/-- The register tables of the spec. -/
def Reg.desc : Reg → RegDesc
  | .HUB_CAPS => ⟨.hub, 0x8, 0, 1, 64, [⟨0, 4, .ro, 0⟩, ⟨4, 3, .ro, 0⟩, ⟨8, 4, .ro, 0⟩, ⟨12, 4, .ro, 0⟩, ⟨16, 8, .ro, 128⟩, ⟨32, 16, .ro, 0⟩]⟩
  | .HUB_OPMODE => ⟨.hub, 0x40, 0, 1, 64, [⟨0, 2, .ro, 0⟩, ⟨16, 16, .ro, 0⟩]⟩
  | .HUB_CHCAPSn => ⟨.hub, 0x100, 8, 4, 64, [⟨0, 64, .ro, 0⟩]⟩
  | .HUB_HOSTERR => ⟨.hub, 0x300, 0, 1, 64, [⟨0, 8, .ro, 0⟩, ⟨8, 8, .ro, 0⟩, ⟨32, 32, .rc, 0⟩]⟩
  | .HUB_HOSTERRADDR => ⟨.hub, 0x308, 0, 1, 64, [⟨0, 64, .ro, 0⟩]⟩
  | .HUB_PORTSTAT => ⟨.hub, 0x310, 0, 1, 32, [⟨0, 3, .ro, 0⟩, ⟨3, 5, .ro, 0⟩, ⟨8, 1, .ro, 0⟩]⟩
  | .HUB_PERSTCNT => ⟨.hub, 0x318, 0, 1, 32, [⟨0, 16, .rc, 0⟩, ⟨16, 16, .rc, 0⟩]⟩
  | .HUB_RPTFENCE => ⟨.hub, 0x400, 0, 1, 32, [⟨0, 4, .wo, 0⟩, ⟨4, 4, .ro, 0⟩, ⟨8, 4, .w1c, 0⟩]⟩
  | .HUB_PWRBUDGET => ⟨.hub, 0x500, 0, 1, 64, [⟨0, 16, .rw, 0⟩, ⟨16, 16, .rw, 30⟩, ⟨63, 1, .wo, 0⟩]⟩
  | .HUB_PWRSHAREn => ⟨.hub, 0x508, 8, 4, 32, [⟨0, 8, .rw, 1⟩]⟩
  | .HUB_PWRLIVE => ⟨.hub, 0x530, 0, 1, 64, [⟨0, 16, .ro, 0⟩, ⟨16, 16, .ro, 30⟩]⟩
  | .HUB_THROTTLE => ⟨.hub, 0x540, 0, 1, 64, [⟨0, 1, .ro, 0⟩, ⟨1, 1, .ro, 0⟩, ⟨16, 16, .rc, 0⟩, ⟨32, 16, .rc, 0⟩]⟩
  | .HUB_SYNCIN => ⟨.hub, 0x548, 0, 1, 64, [⟨0, 32, .ro, 0⟩, ⟨32, 16, .rc, 0⟩]⟩
  | .HUB_PODTIME => ⟨.hub, 0x550, 0, 1, 64, [⟨0, 64, .ro, 0⟩]⟩
  | .HUB_SYNCSTAMP => ⟨.hub, 0x558, 0, 1, 64, [⟨0, 64, .ro, 0⟩]⟩
  | .HUB_PODLOAD => ⟨.hub, 0x560, 0, 1, 64, [⟨0, 64, .rw, 0⟩]⟩
  | .HUB_SYNCCTRL => ⟨.hub, 0x568, 0, 1, 32, [⟨0, 1, .w1s, 0⟩]⟩
  | .HUB_FAULTPEND => ⟨.hub, 0x600, 0, 1, 32, [⟨0, 1, .w1c, 0⟩, ⟨1, 1, .w1c, 0⟩, ⟨2, 1, .w1c, 0⟩, ⟨3, 1, .w1c, 0⟩, ⟨4, 1, .w1c, 0⟩, ⟨5, 1, .w1c, 0⟩]⟩
  | .HUB_FAULTMASK => ⟨.hub, 0x608, 0, 1, 32, [⟨0, 32, .rw, 25⟩]⟩
  | .HUB_FLOGPTR => ⟨.hub, 0x610, 0, 1, 64, [⟨0, 10, .ro, 0⟩, ⟨10, 32, .ro, 0⟩, ⟨42, 1, .ro, 0⟩]⟩
  | .HUB_FCLS => ⟨.hub, 0x620, 0, 1, 64, [⟨0, 8, .rw, 32⟩, ⟨8, 8, .rw, 16⟩, ⟨16, 16, .rw, 10000⟩, ⟨32, 10, .rw, 64⟩, ⟨42, 3, .rw, 3⟩, ⟨45, 1, .rw, 1⟩]⟩
  | .HUB_RSTCTRL => ⟨.hub, 0x700, 0, 1, 32, [⟨0, 16, .wo, 0⟩]⟩
  | .HUB_MGMTCFG => ⟨.hub, 0x900, 0, 1, 32, [⟨0, 7, .rw, 76⟩, ⟨7, 1, .rw, 1⟩]⟩
  | .HUB_MGMTSTAT => ⟨.hub, 0x908, 0, 1, 64, [⟨0, 8, .ro, 0⟩, ⟨8, 8, .rc, 0⟩, ⟨16, 16, .rc, 0⟩, ⟨32, 16, .rc, 0⟩, ⟨48, 7, .ro, 0⟩]⟩
  | .HUB_DUMPSTAT => ⟨.hub, 0x910, 0, 1, 32, [⟨0, 1, .ro, 0⟩, ⟨1, 1, .w1c, 0⟩, ⟨2, 1, .ro, 0⟩]⟩
  | .HUB_DLYFREEZE => ⟨.hub, 0x918, 0, 1, 32, [⟨0, 1, .wo, 0⟩]⟩
  | .HUB_PMCTRL => ⟨.hub, 0x920, 0, 1, 32, [⟨0, 1, .wo, 0⟩, ⟨1, 1, .wo, 0⟩, ⟨2, 1, .wo, 0⟩]⟩
  | .HUB_TAILSEL => ⟨.hub, 0x930, 0, 1, 32, [⟨0, 2, .rw, 0⟩, ⟨2, 11, .rw, 0⟩]⟩
  | .HUB_TAILRECn => ⟨.hub, 0x938, 8, 4, 64, [⟨0, 64, .ro, 0⟩]⟩
  | .HUB_SUPPLYSTAT => ⟨.hub, 0xA00, 0, 1, 64, [⟨0, 11, .ro, 0⟩, ⟨16, 11, .w1c, 0⟩, ⟨32, 11, .w1c, 0⟩, ⟨43, 1, .ro, 0⟩]⟩
  | .HUB_THERMSTAT => ⟨.hub, 0xA08, 0, 1, 64, [⟨0, 1, .ro, 0⟩, ⟨1, 3, .ro, 0⟩, ⟨4, 2, .ro, 0⟩, ⟨6, 3, .ro, 0⟩, ⟨16, 12, .ro, 0⟩]⟩
  | .HUB_VFCFGn => ⟨.hub, 0x1008, 8, 128, 64, [⟨0, 7, .rw, 0⟩, ⟨8, 11, .rw, 0⟩, ⟨19, 11, .rw, 0⟩]⟩
  | .HUB_VFSTATn => ⟨.hub, 0x1808, 8, 128, 32, [⟨0, 2, .ro, 0⟩, ⟨8, 8, .ro, 0⟩]⟩
  | .NV_CFG => ⟨.hub, 0x2000, 0, 1, 64, [⟨0, 2, .rw, 1⟩, ⟨2, 1, .rw, 0⟩, ⟨16, 16, .rw, 0⟩, ⟨32, 32, .rw, 0⟩]⟩
  | .NV_CFGLIVE => ⟨.hub, 0x2008, 0, 1, 64, [⟨0, 2, .ro, 1⟩, ⟨2, 1, .ro, 0⟩, ⟨16, 16, .ro, 0⟩, ⟨32, 32, .ro, 0⟩]⟩
  | .NV_CTRL => ⟨.hub, 0x2010, 0, 1, 32, [⟨0, 1, .wo, 0⟩, ⟨1, 1, .wo, 0⟩, ⟨2, 1, .wo, 0⟩, ⟨3, 1, .wo, 0⟩, ⟨4, 1, .wo, 0⟩, ⟨8, 3, .rw, 0⟩]⟩
  | .NV_STAT => ⟨.hub, 0x2018, 0, 1, 64, [⟨0, 3, .ro, 0⟩, ⟨3, 1, .ro, 0⟩, ⟨4, 1, .ro, 0⟩, ⟨5, 1, .ro, 0⟩, ⟨8, 8, .ro, 0⟩, ⟨16, 48, .ro, 0⟩]⟩
  | .NV_LC => ⟨.hub, 0x2020, 0, 1, 32, [⟨0, 3, .ro, 0⟩, ⟨3, 3, .ro, 0⟩, ⟨6, 1, .ro, 0⟩, ⟨7, 2, .ro, 0⟩, ⟨9, 2, .ro, 0⟩]⟩
  | .NV_FLOGSTAT => ⟨.hub, 0x2028, 0, 1, 64, [⟨0, 12, .ro, 0⟩, ⟨12, 1, .ro, 0⟩, ⟨16, 32, .ro, 0⟩]⟩
  | .NV_BOOTSTAT => ⟨.hub, 0x2030, 0, 1, 64, [⟨0, 1, .ro, 0⟩, ⟨1, 1, .ro, 0⟩, ⟨2, 4, .ro, 0⟩, ⟨6, 4, .ro, 0⟩, ⟨10, 3, .ro, 0⟩, ⟨13, 2, .ro, 0⟩, ⟨32, 32, .ro, 0⟩]⟩
  | .NV_DIEID => ⟨.hub, 0x2038, 0, 1, 64, [⟨0, 64, .ro, 0⟩]⟩
  | .NV_CHALn => ⟨.hub, 0x2040, 8, 4, 64, [⟨0, 64, .ro, 0⟩]⟩
  | .NV_KEYREV => ⟨.hub, 0x2060, 0, 1, 32, [⟨0, 4, .ro, 0⟩]⟩
  | .NV_AUTHn => ⟨.hub, 0x2100, 8, 30, 64, [⟨0, 64, .wo, 0⟩]⟩
  | .HUB_FLOGn => ⟨.hub, 0x8000, 8, 4096, 64, [⟨0, 64, .ro, 0⟩]⟩
  | .CH_SELF => ⟨.ch, 0x0, 0, 1, 32, [⟨0, 2, .ro, 0⟩, ⟨2, 2, .ro, 0⟩, ⟨16, 16, .ro, 0⟩]⟩
  | .CH_CAPS => ⟨.ch, 0x8, 0, 1, 64, [⟨0, 4, .ro, 0⟩, ⟨4, 4, .ro, 0⟩, ⟨8, 4, .ro, 0⟩, ⟨12, 1, .ro, 0⟩, ⟨13, 1, .ro, 0⟩, ⟨14, 1, .ro, 0⟩, ⟨16, 1, .ro, 0⟩, ⟨17, 1, .ro, 0⟩, ⟨18, 1, .ro, 0⟩, ⟨24, 8, .ro, 0⟩, ⟨32, 8, .ro, 0⟩, ⟨40, 7, .ro, 96⟩, ⟨47, 1, .ro, 0⟩, ⟨48, 16, .ro, 0⟩]⟩
  | .CH_CLFENCE0 => ⟨.ch, 0x10, 0, 1, 64, [⟨0, 64, .ro, 0⟩]⟩
  | .CH_CLFENCE1 => ⟨.ch, 0x18, 0, 1, 64, [⟨0, 32, .ro, 0⟩]⟩
  | .CH_UNITERR => ⟨.ch, 0x20, 0, 1, 64, [⟨0, 8, .ro, 0⟩, ⟨8, 3, .ro, 0⟩, ⟨32, 32, .rc, 0⟩]⟩
  | .CH_LDCTRL => ⟨.ch, 0x200, 0, 1, 32, [⟨0, 1, .wo, 0⟩, ⟨1, 1, .wo, 0⟩, ⟨2, 1, .wo, 0⟩, ⟨3, 1, .wo, 0⟩, ⟨4, 1, .wo, 0⟩]⟩
  | .CH_LDSRC => ⟨.ch, 0x208, 0, 1, 64, [⟨0, 64, .rw, 0⟩]⟩
  | .CH_LDREQ => ⟨.ch, 0x210, 0, 1, 64, [⟨0, 32, .rw, 0⟩, ⟨32, 8, .rw, 0⟩]⟩
  | .CH_LDORDER => ⟨.ch, 0x218, 0, 1, 32, [⟨0, 8, .rw, 228⟩, ⟨8, 8, .rw, 0⟩, ⟨16, 8, .ro, 228⟩, ⟨24, 8, .ro, 0⟩]⟩
  | .CH_LDSTAT => ⟨.ch, 0x220, 0, 1, 64, [⟨0, 4, .ro, 0⟩, ⟨4, 2, .ro, 0⟩, ⟨6, 1, .ro, 0⟩, ⟨8, 8, .ro, 0⟩, ⟨16, 8, .ro, 0⟩, ⟨32, 16, .ro, 0⟩]⟩
  | .CH_LDUNLOAD => ⟨.ch, 0x228, 0, 1, 32, [⟨0, 32, .rw, 0⟩]⟩
  | .CH_BWSPLIT => ⟨.ch, 0x300, 0, 1, 32, [⟨0, 7, .rw, 40⟩, ⟨8, 7, .rw, 16⟩, ⟨16, 7, .rw, 8⟩, ⟨24, 1, .rw, 0⟩, ⟨31, 1, .wo, 0⟩]⟩
  | .CH_BWLIVE => ⟨.ch, 0x308, 0, 1, 32, [⟨0, 7, .ro, 40⟩, ⟨8, 7, .ro, 16⟩, ⟨16, 7, .ro, 8⟩, ⟨24, 1, .ro, 0⟩]⟩
  | .CH_HBMMAP => ⟨.ch, 0x310, 0, 1, 64, [⟨0, 7, .ro, 0⟩, ⟨8, 4, .ro, 0⟩, ⟨16, 7, .ro, 0⟩]⟩
  | .CH_HBMSIZE => ⟨.ch, 0x318, 0, 1, 64, [⟨0, 64, .ro, 0⟩]⟩
  | .CH_TTCFG => ⟨.ch, 0x320, 0, 1, 32, [⟨0, 13, .rw, 256⟩]⟩
  | .CH_TTSTAT => ⟨.ch, 0x328, 0, 1, 64, [⟨0, 13, .ro, 0⟩, ⟨16, 13, .rc, 0⟩, ⟨32, 32, .rc, 0⟩]⟩
  | .CH_MEMERR => ⟨.ch, 0x330, 0, 1, 64, [⟨0, 8, .ro, 0⟩, ⟨32, 32, .rc, 0⟩]⟩
  | .CH_MEMERRADDR => ⟨.ch, 0x338, 0, 1, 64, [⟨0, 64, .ro, 0⟩]⟩
  | .CH_EGCSTAT => ⟨.ch, 0x340, 0, 1, 64, [⟨0, 32, .rc, 0⟩, ⟨32, 16, .rc, 0⟩]⟩
  | .CH_SYNCSEL => ⟨.ch, 0x400, 0, 1, 32, [⟨0, 16, .rw, 0⟩]⟩
  | .CH_SYNCCFG => ⟨.ch, 0x408, 0, 1, 64, [⟨0, 64, .ro, 0⟩]⟩
  | .CH_SYNCSTATE => ⟨.ch, 0x410, 0, 1, 64, [⟨0, 32, .ro, 0⟩, ⟨32, 16, .ro, 0⟩, ⟨48, 1, .ro, 0⟩, ⟨49, 1, .ro, 0⟩, ⟨50, 8, .ro, 0⟩, ⟨58, 6, .ro, 0⟩]⟩
  | .CH_SYNCCTRL => ⟨.ch, 0x418, 0, 1, 32, [⟨0, 1, .wo, 0⟩, ⟨1, 1, .wo, 0⟩]⟩
  | .CH_SYNCERR => ⟨.ch, 0x420, 0, 1, 64, [⟨0, 8, .ro, 0⟩, ⟨16, 16, .ro, 0⟩, ⟨32, 32, .rc, 0⟩]⟩
  | .CH_SYNCCNT => ⟨.ch, 0x428, 0, 1, 64, [⟨0, 32, .rc, 0⟩, ⟨32, 16, .ro, 0⟩, ⟨48, 16, .rc, 0⟩]⟩
  | .CH_PREDCTRL => ⟨.ch, 0x500, 0, 1, 32, [⟨0, 1, .rw, 1⟩, ⟨1, 1, .wo, 0⟩]⟩
  | .CH_PREDSTAT => ⟨.ch, 0x508, 0, 1, 64, [⟨0, 32, .rc, 0⟩, ⟨32, 32, .rc, 0⟩]⟩
  | .CH_NFCTRL => ⟨.ch, 0x600, 0, 1, 32, [⟨0, 1, .wo, 0⟩, ⟨1, 1, .wo, 0⟩]⟩
  | .CH_NFCFG => ⟨.ch, 0x608, 0, 1, 64, [⟨0, 1, .rw, 0⟩, ⟨8, 8, .rw, 0⟩, ⟨16, 16, .rw, 0⟩, ⟨32, 16, .rw, 0⟩, ⟨63, 1, .wo, 0⟩]⟩
  | .CH_NFSTAT => ⟨.ch, 0x610, 0, 1, 64, [⟨0, 1, .ro, 0⟩, ⟨1, 1, .ro, 0⟩, ⟨2, 1, .ro, 0⟩, ⟨3, 2, .ro, 0⟩, ⟨5, 11, .rc, 0⟩, ⟨16, 16, .ro, 0⟩, ⟨32, 32, .rc, 0⟩]⟩
  | .CH_NFADDR => ⟨.ch, 0x618, 0, 1, 64, [⟨0, 64, .ro, 0⟩]⟩
  | .CH_NFVERDICT => ⟨.ch, 0x620, 0, 1, 64, [⟨0, 16, .ro, 0⟩, ⟨16, 1, .ro, 0⟩, ⟨17, 1, .ro, 0⟩, ⟨24, 8, .ro, 0⟩, ⟨32, 32, .rc, 0⟩]⟩
  | .CH_LSCALE => ⟨.ch, 0x628, 0, 1, 64, [⟨0, 8, .rw, 127⟩, ⟨8, 8, .rw, 127⟩, ⟨16, 8, .rw, 167⟩, ⟨24, 4, .rw, 1⟩, ⟨32, 16, .rw, 2000⟩, ⟨48, 16, .ro, 0⟩]⟩
  | .CH_NFWINn_BASE => ⟨.ch, 0x640, 16, 16, 64, [⟨0, 64, .rw, 0⟩]⟩
  | .CH_NFWINn_CFG => ⟨.ch, 0x648, 16, 16, 64, [⟨0, 32, .rw, 0⟩, ⟨32, 2, .rw, 0⟩, ⟨34, 4, .rw, 0⟩]⟩
  | .CH_RPTCTRL => ⟨.ch, 0x800, 0, 1, 32, [⟨0, 1, .wo, 0⟩, ⟨1, 1, .wo, 0⟩]⟩
  | .CH_RPTSTAT => ⟨.ch, 0x808, 0, 1, 64, [⟨0, 16, .ro, 0⟩, ⟨16, 1, .ro, 0⟩, ⟨17, 1, .ro, 0⟩, ⟨32, 32, .rc, 0⟩]⟩
  | .CH_RPTERR => ⟨.ch, 0x810, 0, 1, 64, [⟨0, 8, .ro, 0⟩, ⟨8, 8, .ro, 0⟩, ⟨32, 32, .rc, 0⟩]⟩
  | .CH_RPTERRADDR => ⟨.ch, 0x818, 0, 1, 64, [⟨0, 64, .ro, 0⟩]⟩
  | .CH_PWRSTAT => ⟨.ch, 0xA00, 0, 1, 64, [⟨0, 16, .ro, 0⟩, ⟨16, 16, .ro, 0⟩, ⟨32, 16, .ro, 0⟩, ⟨48, 6, .ro, 0⟩]⟩
  | .CH_PWRCFG => ⟨.ch, 0xA08, 0, 1, 32, [⟨0, 1, .rw, 1⟩]⟩
  | .CH_FCLSn => ⟨.ch, 0xC00, 8, 15, 64, [⟨0, 8, .rw, 32⟩, ⟨8, 8, .rw, 16⟩, ⟨16, 16, .rw, 10000⟩, ⟨32, 10, .rw, 64⟩, ⟨42, 3, .rw, 3⟩, ⟨45, 1, .rw, 1⟩]⟩
  | .CH_FSTAT => ⟨.ch, 0xC80, 0, 1, 64, [⟨0, 32, .ro, 0⟩, ⟨32, 8, .ro, 0⟩, ⟨48, 16, .rc, 0⟩]⟩
  | .CH_FLOGPTR => ⟨.ch, 0xC88, 0, 1, 64, [⟨0, 8, .ro, 0⟩, ⟨8, 32, .ro, 0⟩]⟩
  | .CH_FINJ => ⟨.ch, 0xC90, 0, 1, 32, [⟨0, 4, .rw, 0⟩, ⟨4, 1, .rw, 0⟩, ⟨5, 1, .rw, 0⟩, ⟨6, 7, .rw, 0⟩, ⟨13, 1, .w1s, 0⟩]⟩
  | .CH_DLYCFG => ⟨.ch, 0xE00, 0, 1, 32, [⟨0, 11, .rw, 197⟩, ⟨11, 1, .rw, 0⟩]⟩
  | .CH_DLYCTRL => ⟨.ch, 0xE08, 0, 1, 32, [⟨0, 1, .w1s, 0⟩, ⟨1, 1, .wo, 0⟩, ⟨2, 1, .rw, 1⟩, ⟨3, 4, .rw, 0⟩, ⟨8, 8, .rw, 0⟩, ⟨16, 16, .rw, 0⟩]⟩
  | .CH_DLYSTAT => ⟨.ch, 0xE10, 0, 1, 64, [⟨0, 17, .ro, 0⟩, ⟨17, 1, .ro, 0⟩, ⟨18, 1, .ro, 0⟩, ⟨32, 32, .rc, 0⟩]⟩
  | .CH_DLYMARK => ⟨.ch, 0xE18, 0, 1, 32, [⟨0, 32, .wo, 0⟩]⟩
  | .CH_DLYSEL => ⟨.ch, 0xE20, 0, 1, 32, [⟨0, 17, .rw, 0⟩]⟩
  | .CH_DLYRECn => ⟨.ch, 0xE28, 8, 4, 64, [⟨0, 64, .ro, 0⟩]⟩
  | .CH_PMCTRL => ⟨.ch, 0xE48, 0, 1, 32, [⟨0, 1, .wo, 0⟩, ⟨1, 1, .wo, 0⟩, ⟨2, 1, .wo, 0⟩]⟩
  | .CH_PMSELn => ⟨.ch, 0xF00, 8, 16, 32, [⟨0, 8, .rw, 0⟩, ⟨8, 7, .rw, 0⟩]⟩
  | .CH_PMCn => ⟨.ch, 0xF80, 8, 16, 64, [⟨0, 64, .ro, 0⟩]⟩
  | .CH_PMSNAPn => ⟨.ch, 0x1000, 8, 16, 64, [⟨0, 64, .ro, 0⟩]⟩
  | .CH_RPTWINn => ⟨.ch, 0x2000, 8, 1024, 64, [⟨0, 64, .rw, 0⟩]⟩
  | .CH_RPTWINLn => ⟨.ch, 0x4000, 8, 1024, 64, [⟨0, 64, .ro, 0⟩]⟩
  | .CH_FNRECf => ⟨.ch, 0x6000, 8, 516, 64, [⟨0, 64, .rw, 0⟩]⟩
  | .CH_FNRECLf => ⟨.ch, 0x8000, 8, 516, 64, [⟨0, 64, .ro, 0⟩]⟩
  | .CH_FLOGn => ⟨.ch, 0xA000, 8, 1024, 64, [⟨0, 64, .ro, 0⟩]⟩
  | .DST_VFTGT => ⟨.dst, 0x0, 0, 1, 32, [⟨0, 7, .rw, 64⟩, ⟨7, 1, .rw, 1⟩, ⟨8, 7, .rw, 40⟩, ⟨16, 8, .rw, 16⟩, ⟨31, 1, .wo, 0⟩]⟩
  | .DST_VFLIVE => ⟨.dst, 0x8, 0, 1, 64, [⟨0, 24, .ro, 0⟩, ⟨24, 7, .ro, 64⟩, ⟨32, 7, .ro, 40⟩, ⟨40, 7, .ro, 84⟩, ⟨48, 5, .ro, 0⟩, ⟨53, 1, .ro, 0⟩, ⟨54, 1, .ro, 0⟩, ⟨55, 1, .ro, 0⟩, ⟨56, 1, .ro, 0⟩]⟩
  | .DST_PWRSTAT => ⟨.dst, 0x10, 0, 1, 64, [⟨0, 16, .ro, 0⟩, ⟨16, 16, .ro, 0⟩, ⟨32, 12, .ro, 0⟩, ⟨48, 16, .rc, 0⟩]⟩
  | .DST_THERMCFG => ⟨.dst, 0x18, 0, 1, 32, [⟨0, 7, .rw, 100⟩]⟩
  | .DST_STALLCFG => ⟨.dst, 0x100, 0, 1, 32, [⟨0, 5, .rw, 16⟩, ⟨8, 1, .rw, 1⟩]⟩
  | .DST_STALLSTAT => ⟨.dst, 0x108, 0, 1, 64, [⟨0, 24, .rc, 0⟩, ⟨24, 7, .ro, 0⟩, ⟨32, 8, .ro, 0⟩, ⟨40, 24, .rc, 0⟩]⟩
  | .CL_CAPS => ⟨.cl, 0x8, 0, 1, 64, [⟨0, 1, .ro, 0⟩, ⟨1, 1, .ro, 0⟩, ⟨2, 4, .ro, 8⟩, ⟨6, 1, .ro, 0⟩, ⟨8, 12, .ro, 3584⟩, ⟨20, 5, .ro, 16⟩, ⟨25, 9, .ro, 256⟩, ⟨34, 7, .ro, 64⟩]⟩
  | .CL_GATE => ⟨.cl, 0x40, 0, 1, 32, [⟨0, 1, .ro, 0⟩, ⟨1, 1, .ro, 0⟩, ⟨2, 1, .ro, 0⟩, ⟨3, 1, .ro, 0⟩, ⟨4, 1, .ro, 0⟩]⟩
  | .CL_SECTION => ⟨.cl, 0x48, 0, 1, 32, [⟨0, 32, .ro, 0⟩]⟩
  | .CL_DEPERR => ⟨.cl, 0x60, 0, 1, 64, [⟨0, 16, .rc, 0⟩, ⟨16, 16, .rc, 0⟩, ⟨32, 22, .ro, 0⟩]⟩
  | .CL_SYNCW => ⟨.cl, 0x70, 0, 1, 64, [⟨0, 64, .ro, 0⟩]⟩
  | .CL_SIDSTAT => ⟨.cl, 0x80, 0, 1, 64, [⟨0, 15, .ro, 0⟩, ⟨16, 15, .ro, 0⟩, ⟨31, 1, .ro, 0⟩, ⟨32, 15, .rc, 0⟩, ⟨47, 1, .ro, 0⟩]⟩
  | .CL_STALLAGE => ⟨.cl, 0x88, 0, 1, 32, [⟨0, 25, .ro, 0⟩]⟩
  | .CL_GWSPILL => ⟨.cl, 0x90, 0, 1, 32, [⟨0, 8, .ro, 0⟩, ⟨16, 16, .ro, 0⟩]⟩
  | .CL_TAKESTAT => ⟨.cl, 0xA0, 0, 1, 64, [⟨0, 4, .ro, 0⟩, ⟨4, 4, .ro, 0⟩, ⟨8, 1, .ro, 0⟩, ⟨16, 16, .rc, 0⟩, ⟨32, 16, .rc, 0⟩]⟩
  | .CL_PENSTAT => ⟨.cl, 0xA8, 0, 1, 64, [⟨0, 14, .ro, 0⟩, ⟨16, 14, .rc, 0⟩, ⟨32, 1, .ro, 0⟩]⟩
  | .CL_TAKEk => ⟨.cl, 0xB0, 8, 4, 64, [⟨0, 14, .ro, 0⟩, ⟨14, 1, .ro, 0⟩, ⟨15, 1, .ro, 0⟩, ⟨16, 8, .ro, 0⟩, ⟨24, 8, .ro, 0⟩, ⟨32, 22, .ro, 0⟩]⟩
  | .CL_DEPSPARE => ⟨.cl, 0xD0, 0, 1, 64, [⟨0, 64, .ro, 0⟩]⟩
  | .CL_STWn_CTRL => ⟨.cl, 0x100, 64, 2, 32, [⟨0, 1, .w1s, 0⟩, ⟨1, 1, .wo, 0⟩, ⟨2, 1, .wo, 0⟩]⟩
  | .CL_STWn_STATUS => ⟨.cl, 0x108, 64, 2, 64, [⟨0, 3, .ro, 0⟩, ⟨3, 1, .ro, 0⟩, ⟨4, 1, .ro, 0⟩, ⟨5, 2, .ro, 0⟩, ⟨8, 22, .ro, 0⟩, ⟨32, 8, .ro, 0⟩, ⟨40, 8, .ro, 0⟩, ⟨48, 3, .ro, 0⟩]⟩
  | .CL_STWn_EPC => ⟨.cl, 0x110, 64, 2, 64, [⟨0, 64, .ro, 0⟩]⟩
  | .CL_STWn_FDETAIL => ⟨.cl, 0x118, 64, 2, 64, [⟨0, 64, .ro, 0⟩]⟩
  | .CL_QSTATn => ⟨.cl, 0x400, 8, 16, 64, [⟨0, 6, .ro, 0⟩, ⟨6, 2, .ro, 0⟩, ⟨8, 1, .ro, 0⟩, ⟨9, 1, .ro, 0⟩, ⟨10, 1, .ro, 0⟩, ⟨11, 1, .ro, 0⟩, ⟨16, 16, .ro, 0⟩, ⟨32, 16, .ro, 0⟩, ⟨48, 16, .rc, 0⟩]⟩
  | .CL_QCFGn => ⟨.cl, 0x480, 8, 16, 64, [⟨0, 64, .rw, 0⟩]⟩
  | .CL_QHDRn => ⟨.cl, 0x500, 8, 16, 64, [⟨0, 64, .ro, 0⟩]⟩
  | .CL_QCTRLn => ⟨.cl, 0x580, 8, 16, 32, [⟨0, 1, .wo, 0⟩, ⟨1, 1, .wo, 0⟩]⟩
  | .CL_QERR => ⟨.cl, 0x600, 0, 1, 64, [⟨0, 8, .ro, 0⟩, ⟨8, 4, .ro, 0⟩, ⟨12, 8, .ro, 0⟩, ⟨32, 32, .rc, 0⟩]⟩
  | .CL_QDISP => ⟨.cl, 0x608, 0, 1, 64, [⟨0, 1, .ro, 0⟩, ⟨1, 4, .ro, 0⟩, ⟨5, 8, .ro, 0⟩, ⟨16, 1, .ro, 0⟩, ⟨17, 4, .ro, 0⟩, ⟨21, 8, .ro, 0⟩]⟩
  | .CL_QBODYn_w => ⟨.cl, 0x800, 8, 128, 64, [⟨0, 64, .ro, 0⟩]⟩
  | .CL_SBn_CFGA => ⟨.cl, 0x1000, 64, 32, 64, [⟨0, 64, .rw, 0⟩]⟩
  | .CL_SBn_CFGB => ⟨.cl, 0x1008, 64, 32, 64, [⟨0, 64, .rw, 0⟩]⟩
  | .CL_SBn_LIVEA => ⟨.cl, 0x1010, 64, 32, 64, [⟨0, 64, .ro, 0⟩]⟩
  | .CL_SBn_LIVEB => ⟨.cl, 0x1018, 64, 32, 64, [⟨0, 64, .ro, 0⟩]⟩
  | .CL_SBn_CTRL => ⟨.cl, 0x1020, 64, 32, 32, [⟨0, 1, .wo, 0⟩, ⟨1, 1, .wo, 0⟩, ⟨2, 1, .wo, 0⟩, ⟨3, 1, .wo, 0⟩, ⟨4, 1, .wo, 0⟩]⟩
  | .CL_SBn_STAT => ⟨.cl, 0x1028, 64, 32, 64, [⟨0, 16, .ro, 0⟩, ⟨16, 16, .ro, 0⟩, ⟨32, 20, .ro, 0⟩, ⟨52, 1, .ro, 0⟩, ⟨53, 1, .ro, 0⟩, ⟨54, 1, .ro, 0⟩, ⟨55, 1, .ro, 0⟩, ⟨56, 2, .ro, 0⟩, ⟨58, 1, .ro, 0⟩, ⟨59, 1, .ro, 0⟩]⟩
  | .CL_SBERR => ⟨.cl, 0x1800, 0, 1, 64, [⟨0, 8, .ro, 0⟩, ⟨8, 5, .ro, 0⟩, ⟨32, 32, .rc, 0⟩]⟩
  | .CL_HTn => ⟨.cl, 0x2000, 8, 256, 64, [⟨0, 64, .rw, 0⟩]⟩
  | .CL_EGn => ⟨.cl, 0x2800, 8, 256, 64, [⟨0, 64, .rw, 0⟩]⟩
  | .TL_CTRL => ⟨.tl, 0x0, 0, 1, 32, [⟨0, 1, .w1s, 0⟩, ⟨1, 1, .wo, 0⟩, ⟨2, 1, .wo, 0⟩]⟩
  | .TL_STATUS => ⟨.tl, 0x8, 0, 1, 64, [⟨0, 3, .ro, 0⟩, ⟨4, 8, .ro, 0⟩, ⟨12, 3, .ro, 0⟩, ⟨15, 3, .ro, 0⟩, ⟨18, 1, .w1c, 0⟩, ⟨19, 1, .w1c, 0⟩, ⟨24, 8, .w1c, 0⟩]⟩
  | .TL_MODE => ⟨.tl, 0x10, 0, 1, 32, [⟨0, 2, .rw, 0⟩, ⟨2, 1, .rw, 0⟩, ⟨3, 1, .rw, 0⟩, ⟨4, 1, .rw, 0⟩]⟩
  | .TL_FLAGS => ⟨.tl, 0x18, 0, 1, 32, [⟨0, 5, .w1c, 0⟩]⟩
  | .TL_FIRECNT => ⟨.tl, 0x20, 0, 1, 64, [⟨0, 64, .rc, 0⟩]⟩
  | .TL_STALLCNT => ⟨.tl, 0x28, 0, 1, 64, [⟨0, 64, .rc, 0⟩]⟩
  | .TL_BPCNT => ⟨.tl, 0x30, 0, 1, 64, [⟨0, 64, .rc, 0⟩]⟩
  | .TL_QOCC => ⟨.tl, 0x38, 0, 1, 64, [⟨0, 20, .ro, 0⟩, ⟨20, 20, .ro, 0⟩]⟩
  | .TL_RNGSEED => ⟨.tl, 0x40, 0, 1, 32, [⟨0, 32, .rw, 0⟩]⟩
  | .TL_SPILL => ⟨.tl, 0x48, 0, 1, 32, [⟨0, 5, .ro, 0⟩, ⟨16, 16, .ro, 0⟩]⟩
  | .TL_ROUTEn => ⟨.tl, 0x400, 4, 256, 32, [⟨0, 5, .rw, 0⟩, ⟨8, 8, .rw, 0⟩, ⟨16, 1, .rw, 0⟩]⟩
  | .TL_IMEMn => ⟨.tl, 0x800, 8, 256, 64, [⟨0, 64, .rw, 0⟩]⟩
  | .SEAL_STAT => ⟨.seal, 0x0, 0, 1, 64, [⟨0, 3, .ro, 0⟩, ⟨3, 5, .ro, 0⟩, ⟨8, 4, .ro, 0⟩, ⟨16, 11, .ro, 0⟩, ⟨27, 7, .ro, 0⟩]⟩
  | .SEAL_CFG => ⟨.seal, 0x8, 0, 1, 32, [⟨0, 13, .rw, 1024⟩]⟩
  | .SEAL_ERR => ⟨.seal, 0x10, 0, 1, 64, [⟨0, 8, .ro, 0⟩, ⟨8, 4, .ro, 0⟩, ⟨16, 16, .ro, 0⟩, ⟨32, 32, .rc, 0⟩]⟩
  | .SEAL_PBSCNT => ⟨.seal, 0x18, 0, 1, 64, [⟨0, 64, .rc, 0⟩]⟩
  | .SEAL_KSWCNT => ⟨.seal, 0x20, 0, 1, 64, [⟨0, 64, .rc, 0⟩]⟩
  | .SEAL_KEYBYTES => ⟨.seal, 0x28, 0, 1, 64, [⟨0, 64, .rc, 0⟩]⟩
  | .SEAL_CTRL => ⟨.seal, 0x30, 0, 1, 32, [⟨0, 1, .wo, 0⟩, ⟨1, 1, .wo, 0⟩, ⟨2, 1, .ro, 0⟩]⟩
  | .SEAL_NOISESTAT => ⟨.seal, 0x38, 0, 1, 64, [⟨0, 16, .rc, 0⟩, ⟨16, 16, .rc, 0⟩, ⟨32, 32, .rc, 0⟩]⟩
  | .SEAL_NOISEREC => ⟨.seal, 0x40, 0, 1, 64, [⟨0, 4, .ro, 0⟩, ⟨4, 6, .ro, 0⟩, ⟨10, 2, .ro, 0⟩, ⟨16, 16, .ro, 0⟩]⟩
  | .SEAL_NCONSTs => ⟨.seal, 0x50, 8, 3, 64, [⟨0, 64, .ro, 0⟩]⟩
  | .SEAL_CTXn_STAT => ⟨.seal, 0x100, 8, 16, 64, [⟨0, 2, .ro, 0⟩, ⟨2, 2, .ro, 0⟩, ⟨4, 2, .ro, 0⟩, ⟨8, 8, .ro, 0⟩, ⟨16, 8, .ro, 0⟩, ⟨32, 32, .ro, 0⟩]⟩
  | .FDL_LINKn_STAT => ⟨.fdl, 0x0, 0, 1, 64, [⟨0, 4, .ro, 0⟩, ⟨4, 2, .ro, 0⟩, ⟨6, 1, .ro, 0⟩, ⟨8, 2, .ro, 0⟩, ⟨10, 3, .ro, 0⟩, ⟨13, 1, .ro, 0⟩, ⟨14, 2, .ro, 0⟩, ⟨16, 16, .ro, 0⟩, ⟨32, 8, .ro, 0⟩]⟩
  | .FDL_LINKn_PCAP => ⟨.fdl, 0x8, 0, 1, 64, [⟨0, 64, .ro, 0⟩]⟩
  | .FDL_LINKn_PCRED => ⟨.fdl, 0x10, 8, 2, 64, [⟨0, 64, .ro, 0⟩]⟩
  | .FDL_LINKn_PDIE => ⟨.fdl, 0x18, 0, 1, 32, [⟨0, 32, .ro, 0⟩]⟩
  | .FDL_LINKn_CFG => ⟨.fdl, 0x20, 0, 1, 32, [⟨0, 8, .rw, 255⟩, ⟨8, 2, .rw, 2⟩, ⟨16, 8, .rw, 0⟩, ⟨31, 1, .wo, 0⟩]⟩
  | .FDL_LINKn_CTRL => ⟨.fdl, 0x28, 0, 1, 32, [⟨0, 1, .wo, 0⟩, ⟨1, 1, .wo, 0⟩, ⟨2, 1, .rw, 0⟩]⟩
  | .FDL_LINKn_ERR => ⟨.fdl, 0x30, 0, 1, 64, [⟨0, 16, .rc, 0⟩, ⟨16, 16, .rc, 0⟩, ⟨32, 8, .rc, 0⟩, ⟨40, 8, .rc, 0⟩, ⟨48, 8, .rc, 0⟩, ⟨56, 8, .ro, 0⟩]⟩
  | .FDL_LINKn_CREDIT => ⟨.fdl, 0x38, 0, 1, 64, [⟨0, 60, .ro, 0⟩]⟩
  | .CT_GLOBAL => ⟨.ct, 0x0, 0, 1, 64, [⟨0, 16, .rw, 34997⟩, ⟨16, 16, .rw, 46528⟩, ⟨32, 8, .rw, 10⟩]⟩
  | .CT_PEERBASE => ⟨.ct, 0x8, 0, 1, 64, [⟨0, 64, .rw, 0⟩]⟩
  | .CT_LCCFG => ⟨.ct, 0x10, 0, 1, 32, [⟨0, 2, .rw, 0⟩, ⟨8, 8, .rw, 254⟩, ⟨31, 1, .wo, 0⟩]⟩
  | .CT_LCLIVE => ⟨.ct, 0x18, 0, 1, 32, [⟨0, 2, .ro, 0⟩, ⟨8, 8, .ro, 254⟩]⟩
  | .CT_PORTn_CFG => ⟨.ct, 0x20, 8, 4, 32, [⟨0, 2, .rw, 0⟩, ⟨2, 1, .rw, 0⟩, ⟨3, 2, .rw, 0⟩, ⟨31, 1, .wo, 0⟩]⟩
  | .CT_PORTn_STAT => ⟨.ct, 0x40, 8, 4, 64, [⟨0, 8, .ro, 0⟩, ⟨32, 32, .rc, 0⟩]⟩
  | .CT_FLOWSEL => ⟨.ct, 0x100, 0, 1, 32, [⟨0, 12, .rw, 0⟩]⟩
  | .CT_FLOWCFGw => ⟨.ct, 0x108, 8, 2, 64, [⟨0, 64, .rw, 0⟩]⟩
  | .CT_FLOWCTRL => ⟨.ct, 0x118, 0, 1, 32, [⟨0, 1, .wo, 0⟩, ⟨1, 1, .wo, 0⟩, ⟨2, 1, .wo, 0⟩]⟩
  | .CT_FLOWSTAT => ⟨.ct, 0x120, 0, 1, 64, [⟨0, 3, .ro, 0⟩, ⟨3, 4, .ro, 0⟩, ⟨8, 8, .ro, 0⟩, ⟨16, 11, .ro, 0⟩, ⟨32, 32, .rc, 0⟩]⟩
  | .CT_GRPSEL => ⟨.ct, 0x200, 0, 1, 32, [⟨0, 10, .rw, 0⟩]⟩
  | .CT_GRPCFGw => ⟨.ct, 0x208, 8, 3, 64, [⟨0, 64, .rw, 0⟩]⟩
  | .CT_GRPCTRL => ⟨.ct, 0x220, 0, 1, 32, [⟨0, 1, .wo, 0⟩]⟩
  | .CT_ERR => ⟨.ct, 0x300, 0, 1, 64, [⟨0, 8, .ro, 0⟩, ⟨16, 12, .ro, 0⟩, ⟨32, 32, .rc, 0⟩]⟩
  | .CT_ERRADDR => ⟨.ct, 0x308, 0, 1, 64, [⟨0, 64, .ro, 0⟩]⟩
  | .CT_TXPKT => ⟨.ct, 0x310, 0, 1, 64, [⟨0, 64, .rc, 0⟩]⟩
  | .CT_RXPKT => ⟨.ct, 0x318, 0, 1, 64, [⟨0, 64, .rc, 0⟩]⟩
  | .CT_RETXPKT => ⟨.ct, 0x320, 0, 1, 64, [⟨0, 64, .rc, 0⟩]⟩
  | .CT_COLLSTAT => ⟨.ct, 0x328, 0, 1, 32, [⟨0, 7, .ro, 0⟩, ⟨7, 1, .ro, 0⟩]⟩
  | .VF_SELF => ⟨.fn, 0x0, 0, 1, 64, [⟨0, 8, .ro, 0⟩, ⟨8, 2, .ro, 0⟩, ⟨16, 16, .ro, 0⟩, ⟨32, 7, .ro, 0⟩, ⟨40, 11, .ro, 0⟩]⟩
  | .VF_CHGRANT => ⟨.fn, 0x8, 0, 1, 32, [⟨0, 4, .ro, 0⟩]⟩
  | .VF_GRANTSEL => ⟨.fn, 0x10, 0, 1, 32, [⟨0, 2, .rw, 0⟩]⟩
  | .VF_GRANTRECn => ⟨.fn, 0x18, 8, 4, 64, [⟨0, 64, .ro, 0⟩]⟩
  | .VF_WINSEL => ⟨.fn, 0x38, 0, 1, 32, [⟨0, 2, .rw, 0⟩, ⟨16, 9, .rw, 0⟩]⟩
  | .VF_WINn => ⟨.fn, 0x40, 8, 2, 64, [⟨0, 64, .ro, 0⟩]⟩
  | .VF_RPTERR => ⟨.fn, 0x50, 0, 1, 64, [⟨0, 8, .ro, 0⟩, ⟨32, 32, .rc, 0⟩]⟩
  | .VF_RPTERRADDR => ⟨.fn, 0x58, 0, 1, 64, [⟨0, 64, .ro, 0⟩]⟩
  | .VF_RINGn_SQBASE => ⟨.fn, 0x1000, 64, 64, 64, [⟨0, 64, .rw, 0⟩]⟩
  | .VF_RINGn_CQBASE => ⟨.fn, 0x1008, 64, 64, 64, [⟨0, 64, .rw, 0⟩]⟩
  | .VF_RINGn_CFG => ⟨.fn, 0x1010, 64, 64, 64, [⟨0, 5, .rw, 4⟩, ⟨16, 11, .rw, 0⟩, ⟨32, 16, .rw, 0⟩]⟩
  | .VF_RINGn_CTRL => ⟨.fn, 0x1018, 64, 64, 32, [⟨0, 1, .wo, 0⟩, ⟨1, 1, .wo, 0⟩, ⟨2, 1, .wo, 0⟩]⟩
  | .VF_RINGn_STAT => ⟨.fn, 0x1020, 64, 64, 64, [⟨0, 16, .ro, 0⟩, ⟨16, 16, .ro, 0⟩, ⟨32, 16, .ro, 0⟩, ⟨48, 1, .ro, 1⟩, ⟨49, 1, .ro, 0⟩, ⟨50, 1, .ro, 0⟩, ⟨51, 1, .ro, 0⟩, ⟨52, 8, .ro, 0⟩]⟩
  | .VF_RINGn_LIVESQ => ⟨.fn, 0x1028, 64, 64, 64, [⟨0, 64, .ro, 0⟩]⟩
  | .VF_RINGn_LIVECQ => ⟨.fn, 0x1030, 64, 64, 64, [⟨0, 64, .ro, 0⟩]⟩
  | .VF_RINGn_LIVECFG => ⟨.fn, 0x1038, 64, 64, 64, [⟨0, 5, .ro, 4⟩, ⟨16, 11, .ro, 0⟩, ⟨32, 16, .ro, 0⟩]⟩
  | .VF_EVQ_BASE => ⟨.fn, 0x2000, 0, 1, 64, [⟨0, 64, .rw, 0⟩]⟩
  | .VF_EVQ_CFG => ⟨.fn, 0x2008, 0, 1, 64, [⟨0, 5, .rw, 4⟩, ⟨16, 11, .rw, 0⟩, ⟨32, 16, .rw, 0⟩]⟩
  | .VF_EVQ_CTRL => ⟨.fn, 0x2010, 0, 1, 32, [⟨0, 1, .wo, 0⟩, ⟨1, 1, .wo, 0⟩, ⟨2, 1, .wo, 0⟩]⟩
  | .VF_EVQ_STAT => ⟨.fn, 0x2018, 0, 1, 64, [⟨0, 12, .ro, 0⟩, ⟨12, 1, .ro, 1⟩, ⟨13, 1, .ro, 0⟩, ⟨32, 32, .rc, 0⟩]⟩
  | .VF_SQDB => ⟨.fn, 0x3000, 8, 64, 32, [⟨0, 32, .wo, 0⟩]⟩
  | .VF_CQDB => ⟨.fn, 0x3004, 8, 64, 32, [⟨0, 32, .wo, 0⟩]⟩
  | .VF_EVQDB => ⟨.fn, 0x3200, 0, 1, 32, [⟨0, 32, .wo, 0⟩]⟩
  | .VF_APa_BASE => ⟨.fn, 0x3400, 8, 4, 64, [⟨0, 64, .rw, 0⟩]⟩

/-- The registers of one block, by offset. -/
def Block.hubRegs : List Reg :=
  [.HUB_CAPS, .HUB_OPMODE, .HUB_CHCAPSn, .HUB_HOSTERR, .HUB_HOSTERRADDR, .HUB_PORTSTAT,
   .HUB_PERSTCNT, .HUB_RPTFENCE, .HUB_PWRBUDGET, .HUB_PWRSHAREn, .HUB_PWRLIVE, .HUB_THROTTLE,
   .HUB_SYNCIN, .HUB_PODTIME, .HUB_SYNCSTAMP, .HUB_PODLOAD, .HUB_SYNCCTRL, .HUB_FAULTPEND,
   .HUB_FAULTMASK, .HUB_FLOGPTR, .HUB_FCLS, .HUB_RSTCTRL, .HUB_MGMTCFG, .HUB_MGMTSTAT,
   .HUB_DUMPSTAT, .HUB_DLYFREEZE, .HUB_PMCTRL, .HUB_TAILSEL, .HUB_TAILRECn, .HUB_SUPPLYSTAT,
   .HUB_THERMSTAT, .HUB_VFCFGn, .HUB_VFSTATn, .NV_CFG, .NV_CFGLIVE, .NV_CTRL,
   .NV_STAT, .NV_LC, .NV_FLOGSTAT, .NV_BOOTSTAT, .NV_DIEID, .NV_CHALn,
   .NV_KEYREV, .NV_AUTHn, .HUB_FLOGn]
/-- The registers of one block, by offset. -/
def Block.chRegs : List Reg :=
  [.CH_SELF, .CH_CAPS, .CH_CLFENCE0, .CH_CLFENCE1, .CH_UNITERR, .CH_LDCTRL,
   .CH_LDSRC, .CH_LDREQ, .CH_LDORDER, .CH_LDSTAT, .CH_LDUNLOAD, .CH_BWSPLIT,
   .CH_BWLIVE, .CH_HBMMAP, .CH_HBMSIZE, .CH_TTCFG, .CH_TTSTAT, .CH_MEMERR,
   .CH_MEMERRADDR, .CH_EGCSTAT, .CH_SYNCSEL, .CH_SYNCCFG, .CH_SYNCSTATE, .CH_SYNCCTRL,
   .CH_SYNCERR, .CH_SYNCCNT, .CH_PREDCTRL, .CH_PREDSTAT, .CH_NFCTRL, .CH_NFCFG,
   .CH_NFSTAT, .CH_NFADDR, .CH_NFVERDICT, .CH_LSCALE, .CH_NFWINn_BASE, .CH_NFWINn_CFG,
   .CH_RPTCTRL, .CH_RPTSTAT, .CH_RPTERR, .CH_RPTERRADDR, .CH_PWRSTAT, .CH_PWRCFG,
   .CH_FCLSn, .CH_FSTAT, .CH_FLOGPTR, .CH_FINJ, .CH_DLYCFG, .CH_DLYCTRL,
   .CH_DLYSTAT, .CH_DLYMARK, .CH_DLYSEL, .CH_DLYRECn, .CH_PMCTRL, .CH_PMSELn,
   .CH_PMCn, .CH_PMSNAPn, .CH_RPTWINn, .CH_RPTWINLn, .CH_FNRECf, .CH_FNRECLf,
   .CH_FLOGn]
/-- The registers of one block, by offset. -/
def Block.dstRegs : List Reg :=
  [.DST_VFTGT, .DST_VFLIVE, .DST_PWRSTAT, .DST_THERMCFG, .DST_STALLCFG, .DST_STALLSTAT]
/-- The registers of one block, by offset. -/
def Block.clRegs : List Reg :=
  [.CL_CAPS, .CL_GATE, .CL_SECTION, .CL_DEPERR, .CL_SYNCW, .CL_SIDSTAT,
   .CL_STALLAGE, .CL_GWSPILL, .CL_TAKESTAT, .CL_PENSTAT, .CL_TAKEk, .CL_DEPSPARE,
   .CL_STWn_CTRL, .CL_STWn_STATUS, .CL_STWn_EPC, .CL_STWn_FDETAIL, .CL_QSTATn, .CL_QCFGn,
   .CL_QHDRn, .CL_QCTRLn, .CL_QERR, .CL_QDISP, .CL_QBODYn_w, .CL_SBn_CFGA,
   .CL_SBn_CFGB, .CL_SBn_LIVEA, .CL_SBn_LIVEB, .CL_SBn_CTRL, .CL_SBn_STAT, .CL_SBERR,
   .CL_HTn, .CL_EGn]
/-- The registers of one block, by offset. -/
def Block.tlRegs : List Reg :=
  [.TL_CTRL, .TL_STATUS, .TL_MODE, .TL_FLAGS, .TL_FIRECNT, .TL_STALLCNT,
   .TL_BPCNT, .TL_QOCC, .TL_RNGSEED, .TL_SPILL, .TL_ROUTEn, .TL_IMEMn]
/-- The registers of one block, by offset. -/
def Block.sealRegs : List Reg :=
  [.SEAL_STAT, .SEAL_CFG, .SEAL_ERR, .SEAL_PBSCNT, .SEAL_KSWCNT, .SEAL_KEYBYTES,
   .SEAL_CTRL, .SEAL_NOISESTAT, .SEAL_NOISEREC, .SEAL_NCONSTs, .SEAL_CTXn_STAT]
/-- The registers of one block, by offset. -/
def Block.fdlRegs : List Reg :=
  [.FDL_LINKn_STAT, .FDL_LINKn_PCAP, .FDL_LINKn_PCRED, .FDL_LINKn_PDIE, .FDL_LINKn_CFG, .FDL_LINKn_CTRL,
   .FDL_LINKn_ERR, .FDL_LINKn_CREDIT]
/-- The registers of one block, by offset. -/
def Block.ctRegs : List Reg :=
  [.CT_GLOBAL, .CT_PEERBASE, .CT_LCCFG, .CT_LCLIVE, .CT_PORTn_CFG, .CT_PORTn_STAT,
   .CT_FLOWSEL, .CT_FLOWCFGw, .CT_FLOWCTRL, .CT_FLOWSTAT, .CT_GRPSEL, .CT_GRPCFGw,
   .CT_GRPCTRL, .CT_ERR, .CT_ERRADDR, .CT_TXPKT, .CT_RXPKT, .CT_RETXPKT,
   .CT_COLLSTAT]
/-- The registers of one block, by offset. -/
def Block.fnRegs : List Reg :=
  [.VF_SELF, .VF_CHGRANT, .VF_GRANTSEL, .VF_GRANTRECn, .VF_WINSEL, .VF_WINn,
   .VF_RPTERR, .VF_RPTERRADDR, .VF_RINGn_SQBASE, .VF_RINGn_CQBASE, .VF_RINGn_CFG, .VF_RINGn_CTRL,
   .VF_RINGn_STAT, .VF_RINGn_LIVESQ, .VF_RINGn_LIVECQ, .VF_RINGn_LIVECFG, .VF_EVQ_BASE, .VF_EVQ_CFG,
   .VF_EVQ_CTRL, .VF_EVQ_STAT, .VF_SQDB, .VF_CQDB, .VF_EVQDB, .VF_APa_BASE]

def Block.regs : Block → List Reg
  | .hub => Block.hubRegs
  | .ch => Block.chRegs
  | .dst => Block.dstRegs
  | .cl => Block.clRegs
  | .tl => Block.tlRegs
  | .seal => Block.sealRegs
  | .fdl => Block.fdlRegs
  | .ct => Block.ctRegs
  | .fn => Block.fnRegs

/-- A field of a register. -/
structure Fld where
  reg : Reg
  lo : Nat
  w : Nat
  deriving DecidableEq, Repr

namespace Fld

def HUB_CAPS_PART : Fld := ⟨.HUB_CAPS, 0, 4⟩
def HUB_CAPS_CH_COUNT : Fld := ⟨.HUB_CAPS, 4, 3⟩
def HUB_CAPS_CH_PRESENT : Fld := ⟨.HUB_CAPS, 8, 4⟩
def HUB_CAPS_CH_LIVE : Fld := ⟨.HUB_CAPS, 12, 4⟩
def HUB_CAPS_VF_MAX : Fld := ⟨.HUB_CAPS, 16, 8⟩
def HUB_CAPS_MAX_POWER_W : Fld := ⟨.HUB_CAPS, 32, 16⟩
def HUB_OPMODE_MODE : Fld := ⟨.HUB_OPMODE, 0, 2⟩
def HUB_OPMODE_PKG_NUM : Fld := ⟨.HUB_OPMODE, 16, 16⟩
def HUB_CHCAPSn_MIRROR : Fld := ⟨.HUB_CHCAPSn, 0, 64⟩
def HUB_HOSTERR_CODE : Fld := ⟨.HUB_HOSTERR, 0, 8⟩
def HUB_HOSTERR_FUNC : Fld := ⟨.HUB_HOSTERR, 8, 8⟩
def HUB_HOSTERR_COUNT : Fld := ⟨.HUB_HOSTERR, 32, 32⟩
def HUB_HOSTERRADDR_ADDR : Fld := ⟨.HUB_HOSTERRADDR, 0, 64⟩
def HUB_PORTSTAT_RATE : Fld := ⟨.HUB_PORTSTAT, 0, 3⟩
def HUB_PORTSTAT_WIDTH : Fld := ⟨.HUB_PORTSTAT, 3, 5⟩
def HUB_PORTSTAT_FLIT : Fld := ⟨.HUB_PORTSTAT, 8, 1⟩
def HUB_PERSTCNT_RESETS : Fld := ⟨.HUB_PERSTCNT, 0, 16⟩
def HUB_PERSTCNT_FILTERED : Fld := ⟨.HUB_PERSTCNT, 16, 16⟩
def HUB_RPTFENCE_START : Fld := ⟨.HUB_RPTFENCE, 0, 4⟩
def HUB_RPTFENCE_BUSY : Fld := ⟨.HUB_RPTFENCE, 4, 4⟩
def HUB_RPTFENCE_STALE : Fld := ⟨.HUB_RPTFENCE, 8, 4⟩
def HUB_PWRBUDGET_BUDGET : Fld := ⟨.HUB_PWRBUDGET, 0, 16⟩
def HUB_PWRBUDGET_RESERVE : Fld := ⟨.HUB_PWRBUDGET, 16, 16⟩
def HUB_PWRBUDGET_COMMIT : Fld := ⟨.HUB_PWRBUDGET, 63, 1⟩
def HUB_PWRSHAREn_WEIGHT : Fld := ⟨.HUB_PWRSHAREn, 0, 8⟩
def HUB_PWRLIVE_BUDGET : Fld := ⟨.HUB_PWRLIVE, 0, 16⟩
def HUB_PWRLIVE_RESERVE : Fld := ⟨.HUB_PWRLIVE, 16, 16⟩
def HUB_THROTTLE_PIN : Fld := ⟨.HUB_THROTTLE, 0, 1⟩
def HUB_THROTTLE_ACTIVE : Fld := ⟨.HUB_THROTTLE, 1, 1⟩
def HUB_THROTTLE_ACCEPTED : Fld := ⟨.HUB_THROTTLE, 16, 16⟩
def HUB_THROTTLE_FILTERED : Fld := ⟨.HUB_THROTTLE, 32, 16⟩
def HUB_SYNCIN_ACCEPTED : Fld := ⟨.HUB_SYNCIN, 0, 32⟩
def HUB_SYNCIN_SYNC_OVERRUN : Fld := ⟨.HUB_SYNCIN, 32, 16⟩
def HUB_PODTIME_TIME : Fld := ⟨.HUB_PODTIME, 0, 64⟩
def HUB_SYNCSTAMP_STAMP : Fld := ⟨.HUB_SYNCSTAMP, 0, 64⟩
def HUB_PODLOAD_LOAD : Fld := ⟨.HUB_PODLOAD, 0, 64⟩
def HUB_SYNCCTRL_ARMLOAD : Fld := ⟨.HUB_SYNCCTRL, 0, 1⟩
def HUB_FAULTPEND_PERM : Fld := ⟨.HUB_FAULTPEND, 0, 1⟩
def HUB_FAULTPEND_ABORT : Fld := ⟨.HUB_FAULTPEND, 1, 1⟩
def HUB_FAULTPEND_UE : Fld := ⟨.HUB_FAULTPEND, 2, 1⟩
def HUB_FAULTPEND_RETIRE : Fld := ⟨.HUB_FAULTPEND, 3, 1⟩
def HUB_FAULTPEND_THERMAL : Fld := ⟨.HUB_FAULTPEND, 4, 1⟩
def HUB_FAULTPEND_LOGWRAP : Fld := ⟨.HUB_FAULTPEND, 5, 1⟩
def HUB_FAULTMASK_MASK : Fld := ⟨.HUB_FAULTMASK, 0, 32⟩
def HUB_FLOGPTR_NEXT : Fld := ⟨.HUB_FLOGPTR, 0, 10⟩
def HUB_FLOGPTR_TOTAL : Fld := ⟨.HUB_FLOGPTR, 10, 32⟩
def HUB_FLOGPTR_KEEPER : Fld := ⟨.HUB_FLOGPTR, 42, 1⟩
def HUB_FCLS_CAP : Fld := ⟨.HUB_FCLS, 0, 8⟩
def HUB_FCLS_LEAKMS : Fld := ⟨.HUB_FCLS, 8, 8⟩
def HUB_FCLS_WINDOWMS : Fld := ⟨.HUB_FCLS, 16, 16⟩
def HUB_FCLS_STORM : Fld := ⟨.HUB_FCLS, 32, 10⟩
def HUB_FCLS_RETRY : Fld := ⟨.HUB_FCLS, 42, 3⟩
def HUB_FCLS_ACT : Fld := ⟨.HUB_FCLS, 45, 1⟩
def HUB_RSTCTRL_KEY : Fld := ⟨.HUB_RSTCTRL, 0, 16⟩
def HUB_MGMTCFG_ADDR : Fld := ⟨.HUB_MGMTCFG, 0, 7⟩
def HUB_MGMTCFG_ARP : Fld := ⟨.HUB_MGMTCFG, 7, 1⟩
def HUB_MGMTSTAT_EID : Fld := ⟨.HUB_MGMTSTAT, 0, 8⟩
def HUB_MGMTSTAT_TIMEOUTS : Fld := ⟨.HUB_MGMTSTAT, 8, 8⟩
def HUB_MGMTSTAT_ALERTHOLD : Fld := ⟨.HUB_MGMTSTAT, 16, 16⟩
def HUB_MGMTSTAT_EVLOST : Fld := ⟨.HUB_MGMTSTAT, 32, 16⟩
def HUB_MGMTSTAT_QUEUED : Fld := ⟨.HUB_MGMTSTAT, 48, 7⟩
def HUB_DUMPSTAT_ERASED : Fld := ⟨.HUB_DUMPSTAT, 0, 1⟩
def HUB_DUMPSTAT_SKIPPED : Fld := ⟨.HUB_DUMPSTAT, 1, 1⟩
def HUB_DUMPSTAT_VALID : Fld := ⟨.HUB_DUMPSTAT, 2, 1⟩
def HUB_DLYFREEZE_FREEZE : Fld := ⟨.HUB_DLYFREEZE, 0, 1⟩
def HUB_PMCTRL_START : Fld := ⟨.HUB_PMCTRL, 0, 1⟩
def HUB_PMCTRL_STOP : Fld := ⟨.HUB_PMCTRL, 1, 1⟩
def HUB_PMCTRL_SNAP : Fld := ⟨.HUB_PMCTRL, 2, 1⟩
def HUB_TAILSEL_CH : Fld := ⟨.HUB_TAILSEL, 0, 2⟩
def HUB_TAILSEL_REC : Fld := ⟨.HUB_TAILSEL, 2, 11⟩
def HUB_TAILRECn_REC : Fld := ⟨.HUB_TAILRECn, 0, 64⟩
def HUB_SUPPLYSTAT_INRANGE : Fld := ⟨.HUB_SUPPLYSTAT, 0, 11⟩
def HUB_SUPPLYSTAT_UV : Fld := ⟨.HUB_SUPPLYSTAT, 16, 11⟩
def HUB_SUPPLYSTAT_OV : Fld := ⟨.HUB_SUPPLYSTAT, 32, 11⟩
def HUB_SUPPLYSTAT_XTALLOST : Fld := ⟨.HUB_SUPPLYSTAT, 43, 1⟩
def HUB_THERMSTAT_TRIP : Fld := ⟨.HUB_THERMSTAT, 0, 1⟩
def HUB_THERMSTAT_SRC : Fld := ⟨.HUB_THERMSTAT, 1, 3⟩
def HUB_THERMSTAT_CH : Fld := ⟨.HUB_THERMSTAT, 4, 2⟩
def HUB_THERMSTAT_UNIT : Fld := ⟨.HUB_THERMSTAT, 6, 3⟩
def HUB_THERMSTAT_HOTTEST : Fld := ⟨.HUB_THERMSTAT, 16, 12⟩
def HUB_VFCFGn_RINGS : Fld := ⟨.HUB_VFCFGn, 0, 7⟩
def HUB_VFCFGn_MSIX_BASE : Fld := ⟨.HUB_VFCFGn, 8, 11⟩
def HUB_VFCFGn_MSIX_CNT : Fld := ⟨.HUB_VFCFGn, 19, 11⟩
def HUB_VFSTATn_STATE : Fld := ⟨.HUB_VFSTATn, 0, 2⟩
def HUB_VFSTATn_CODE : Fld := ⟨.HUB_VFSTATn, 8, 8⟩
def NV_CFG_MODE : Fld := ⟨.NV_CFG, 0, 2⟩
def NV_CFG_SLOT : Fld := ⟨.NV_CFG, 2, 1⟩
def NV_CFG_PKG_NUM : Fld := ⟨.NV_CFG, 16, 16⟩
def NV_CFG_MINSVN : Fld := ⟨.NV_CFG, 32, 32⟩
def NV_CFGLIVE_MODE : Fld := ⟨.NV_CFGLIVE, 0, 2⟩
def NV_CFGLIVE_SLOT : Fld := ⟨.NV_CFGLIVE, 2, 1⟩
def NV_CFGLIVE_PKG_NUM : Fld := ⟨.NV_CFGLIVE, 16, 16⟩
def NV_CFGLIVE_MINSVN : Fld := ⟨.NV_CFGLIVE, 32, 32⟩
def NV_CTRL_COMMIT : Fld := ⟨.NV_CTRL, 0, 1⟩
def NV_CTRL_LCREQ : Fld := ⟨.NV_CTRL, 1, 1⟩
def NV_CTRL_LCCANCEL : Fld := ⟨.NV_CTRL, 2, 1⟩
def NV_CTRL_FCLEAR : Fld := ⟨.NV_CTRL, 3, 1⟩
def NV_CTRL_AUTHGO : Fld := ⟨.NV_CTRL, 4, 1⟩
def NV_CTRL_LCTGT : Fld := ⟨.NV_CTRL, 8, 3⟩
def NV_STAT_BUSY : Fld := ⟨.NV_STAT, 0, 3⟩
def NV_STAT_INTERRUPTED : Fld := ⟨.NV_STAT, 3, 1⟩
def NV_STAT_CONFLICT : Fld := ⟨.NV_STAT, 4, 1⟩
def NV_STAT_BANK : Fld := ⟨.NV_STAT, 5, 1⟩
def NV_STAT_CODE : Fld := ⟨.NV_STAT, 8, 8⟩
def NV_STAT_SEQ : Fld := ⟨.NV_STAT, 16, 48⟩
def NV_LC_STATE : Fld := ⟨.NV_LC, 0, 3⟩
def NV_LC_STORED : Fld := ⟨.NV_LC, 3, 3⟩
def NV_LC_PENDDEC : Fld := ⟨.NV_LC, 6, 1⟩
def NV_LC_DBGMAX : Fld := ⟨.NV_LC, 7, 2⟩
def NV_LC_DBGLEVEL : Fld := ⟨.NV_LC, 9, 2⟩
def NV_FLOGSTAT_RECORDS : Fld := ⟨.NV_FLOGSTAT, 0, 12⟩
def NV_FLOGSTAT_HALF : Fld := ⟨.NV_FLOGSTAT, 12, 1⟩
def NV_FLOGSTAT_FLOG_EPOCH : Fld := ⟨.NV_FLOGSTAT, 16, 32⟩
def NV_BOOTSTAT_SLOT : Fld := ⟨.NV_BOOTSTAT, 0, 1⟩
def NV_BOOTSTAT_FALLBACK : Fld := ⟨.NV_BOOTSTAT, 1, 1⟩
def NV_BOOTSTAT_RESULTA : Fld := ⟨.NV_BOOTSTAT, 2, 4⟩
def NV_BOOTSTAT_RESULTB : Fld := ⟨.NV_BOOTSTAT, 6, 4⟩
def NV_BOOTSTAT_KCAUSE : Fld := ⟨.NV_BOOTSTAT, 10, 3⟩
def NV_BOOTSTAT_SKIP : Fld := ⟨.NV_BOOTSTAT, 13, 2⟩
def NV_BOOTSTAT_SVN : Fld := ⟨.NV_BOOTSTAT, 32, 32⟩
def NV_DIEID_DIEID : Fld := ⟨.NV_DIEID, 0, 64⟩
def NV_CHALn_CHAL : Fld := ⟨.NV_CHALn, 0, 64⟩
def NV_KEYREV_REVOKED : Fld := ⟨.NV_KEYREV, 0, 4⟩
def NV_AUTHn_BYTES : Fld := ⟨.NV_AUTHn, 0, 64⟩
def HUB_FLOGn_REC : Fld := ⟨.HUB_FLOGn, 0, 64⟩
def CH_SELF_CHANNEL : Fld := ⟨.CH_SELF, 0, 2⟩
def CH_SELF_MODE : Fld := ⟨.CH_SELF, 2, 2⟩
def CH_SELF_PKG_NUM : Fld := ⟨.CH_SELF, 16, 16⟩
def CH_CAPS_SITE_STACK : Fld := ⟨.CH_CAPS, 0, 4⟩
def CH_CAPS_SITE_GATE : Fld := ⟨.CH_CAPS, 4, 4⟩
def CH_CAPS_SITE_LIVE : Fld := ⟨.CH_CAPS, 8, 4⟩
def CH_CAPS_SEAL_FIT : Fld := ⟨.CH_CAPS, 12, 1⟩
def CH_CAPS_EGC_FIT : Fld := ⟨.CH_CAPS, 13, 1⟩
def CH_CAPS_LC_FIT : Fld := ⟨.CH_CAPS, 14, 1⟩
def CH_CAPS_SEAL_LIVE : Fld := ⟨.CH_CAPS, 16, 1⟩
def CH_CAPS_EGC_LIVE : Fld := ⟨.CH_CAPS, 17, 1⟩
def CH_CAPS_LC_LIVE : Fld := ⟨.CH_CAPS, 18, 1⟩
def CH_CAPS_PC_RETIRED : Fld := ⟨.CH_CAPS, 24, 8⟩
def CH_CAPS_LANES_LIVE : Fld := ⟨.CH_CAPS, 32, 8⟩
def CH_CAPS_CL_LIVE : Fld := ⟨.CH_CAPS, 40, 7⟩
def CH_CAPS_RETIRED : Fld := ⟨.CH_CAPS, 47, 1⟩
def CH_CAPS_CAPS_GEN : Fld := ⟨.CH_CAPS, 48, 16⟩
def CH_CLFENCE0_FENCE_LO : Fld := ⟨.CH_CLFENCE0, 0, 64⟩
def CH_CLFENCE1_FENCE_HI : Fld := ⟨.CH_CLFENCE1, 0, 32⟩
def CH_UNITERR_CODE : Fld := ⟨.CH_UNITERR, 0, 8⟩
def CH_UNITERR_UNIT : Fld := ⟨.CH_UNITERR, 8, 3⟩
def CH_UNITERR_COUNT : Fld := ⟨.CH_UNITERR, 32, 32⟩
def CH_LDCTRL_GO : Fld := ⟨.CH_LDCTRL, 0, 1⟩
def CH_LDCTRL_START : Fld := ⟨.CH_LDCTRL, 1, 1⟩
def CH_LDCTRL_CLEAR : Fld := ⟨.CH_LDCTRL, 2, 1⟩
def CH_LDCTRL_UNLOAD : Fld := ⟨.CH_LDCTRL, 3, 1⟩
def CH_LDCTRL_COMMIT : Fld := ⟨.CH_LDCTRL, 4, 1⟩
def CH_LDSRC_TGA : Fld := ⟨.CH_LDSRC, 0, 64⟩
def CH_LDREQ_LENGTH : Fld := ⟨.CH_LDREQ, 0, 32⟩
def CH_LDREQ_FUNC : Fld := ⟨.CH_LDREQ, 32, 8⟩
def CH_LDORDER_SEQ : Fld := ⟨.CH_LDORDER, 0, 8⟩
def CH_LDORDER_GAP : Fld := ⟨.CH_LDORDER, 8, 8⟩
def CH_LDORDER_LIVE_SEQ : Fld := ⟨.CH_LDORDER, 16, 8⟩
def CH_LDORDER_LIVE_GAP : Fld := ⟨.CH_LDORDER, 24, 8⟩
def CH_LDSTAT_STATE : Fld := ⟨.CH_LDSTAT, 0, 4⟩
def CH_LDSTAT_STEP : Fld := ⟨.CH_LDSTAT, 4, 2⟩
def CH_LDSTAT_WOPEN : Fld := ⟨.CH_LDSTAT, 6, 1⟩
def CH_LDSTAT_CODE : Fld := ⟨.CH_LDSTAT, 8, 8⟩
def CH_LDSTAT_CMTCODE : Fld := ⟨.CH_LDSTAT, 16, 8⟩
def CH_LDSTAT_FAILCNT : Fld := ⟨.CH_LDSTAT, 32, 16⟩
def CH_LDUNLOAD_SECTION : Fld := ⟨.CH_LDUNLOAD, 0, 32⟩
def CH_BWSPLIT_READ : Fld := ⟨.CH_BWSPLIT, 0, 7⟩
def CH_BWSPLIT_WRITE : Fld := ⟨.CH_BWSPLIT, 8, 7⟩
def CH_BWSPLIT_REMOTE : Fld := ⟨.CH_BWSPLIT, 16, 7⟩
def CH_BWSPLIT_LEND : Fld := ⟨.CH_BWSPLIT, 24, 1⟩
def CH_BWSPLIT_COMMIT : Fld := ⟨.CH_BWSPLIT, 31, 1⟩
def CH_BWLIVE_READ : Fld := ⟨.CH_BWLIVE, 0, 7⟩
def CH_BWLIVE_WRITE : Fld := ⟨.CH_BWLIVE, 8, 7⟩
def CH_BWLIVE_REMOTE : Fld := ⟨.CH_BWLIVE, 16, 7⟩
def CH_BWLIVE_LEND : Fld := ⟨.CH_BWLIVE, 24, 1⟩
def CH_HBMMAP_LANES : Fld := ⟨.CH_HBMMAP, 0, 7⟩
def CH_HBMMAP_SITES : Fld := ⟨.CH_HBMMAP, 8, 4⟩
def CH_HBMMAP_LANES_LOST : Fld := ⟨.CH_HBMMAP, 16, 7⟩
def CH_HBMSIZE_SIZE : Fld := ⟨.CH_HBMSIZE, 0, 64⟩
def CH_TTCFG_CL_MAX : Fld := ⟨.CH_TTCFG, 0, 13⟩
def CH_TTSTAT_INUSE : Fld := ⟨.CH_TTSTAT, 0, 13⟩
def CH_TTSTAT_HIGH : Fld := ⟨.CH_TTSTAT, 16, 13⟩
def CH_TTSTAT_FULLCNT : Fld := ⟨.CH_TTSTAT, 32, 32⟩
def CH_MEMERR_CODE : Fld := ⟨.CH_MEMERR, 0, 8⟩
def CH_MEMERR_COUNT : Fld := ⟨.CH_MEMERR, 32, 32⟩
def CH_MEMERRADDR_TGA : Fld := ⟨.CH_MEMERRADDR, 0, 64⟩
def CH_EGCSTAT_BLOCKS : Fld := ⟨.CH_EGCSTAT, 0, 32⟩
def CH_EGCSTAT_FAILS : Fld := ⟨.CH_EGCSTAT, 32, 16⟩
def CH_SYNCSEL_INDEX : Fld := ⟨.CH_SYNCSEL, 0, 16⟩
def CH_SYNCCFG_BINDING : Fld := ⟨.CH_SYNCCFG, 0, 64⟩
def CH_SYNCSTATE_VALUE : Fld := ⟨.CH_SYNCSTATE, 0, 32⟩
def CH_SYNCSTATE_COUNT : Fld := ⟨.CH_SYNCSTATE, 32, 16⟩
def CH_SYNCSTATE_POISON : Fld := ⟨.CH_SYNCSTATE, 48, 1⟩
def CH_SYNCSTATE_ARMED : Fld := ⟨.CH_SYNCSTATE, 49, 1⟩
def CH_SYNCSTATE_LWAIT : Fld := ⟨.CH_SYNCSTATE, 50, 8⟩
def CH_SYNCSTATE_RWAIT : Fld := ⟨.CH_SYNCSTATE, 58, 6⟩
def CH_SYNCCTRL_POISON : Fld := ⟨.CH_SYNCCTRL, 0, 1⟩
def CH_SYNCCTRL_UNPOISON : Fld := ⟨.CH_SYNCCTRL, 1, 1⟩
def CH_SYNCERR_CODE : Fld := ⟨.CH_SYNCERR, 0, 8⟩
def CH_SYNCERR_INDEX : Fld := ⟨.CH_SYNCERR, 16, 16⟩
def CH_SYNCERR_COUNT : Fld := ⟨.CH_SYNCERR, 32, 32⟩
def CH_SYNCCNT_RELEASES : Fld := ⟨.CH_SYNCCNT, 0, 32⟩
def CH_SYNCCNT_PARKED : Fld := ⟨.CH_SYNCCNT, 32, 16⟩
def CH_SYNCCNT_RBUSY : Fld := ⟨.CH_SYNCCNT, 48, 16⟩
def CH_PREDCTRL_EN : Fld := ⟨.CH_PREDCTRL, 0, 1⟩
def CH_PREDCTRL_CLEAR : Fld := ⟨.CH_PREDCTRL, 1, 1⟩
def CH_PREDSTAT_HITS : Fld := ⟨.CH_PREDSTAT, 0, 32⟩
def CH_PREDSTAT_MISSES : Fld := ⟨.CH_PREDSTAT, 32, 32⟩
def CH_NFCTRL_ARM : Fld := ⟨.CH_NFCTRL, 0, 1⟩
def CH_NFCTRL_ABORT : Fld := ⟨.CH_NFCTRL, 1, 1⟩
def CH_NFCFG_EN : Fld := ⟨.CH_NFCFG, 0, 1⟩
def CH_NFCFG_FUNC : Fld := ⟨.CH_NFCFG, 8, 8⟩
def CH_NFCFG_VOBJ : Fld := ⟨.CH_NFCFG, 16, 16⟩
def CH_NFCFG_WIN_EN : Fld := ⟨.CH_NFCFG, 32, 16⟩
def CH_NFCFG_COMMIT : Fld := ⟨.CH_NFCFG, 63, 1⟩
def CH_NFSTAT_NF : Fld := ⟨.CH_NFSTAT, 0, 1⟩
def CH_NFSTAT_PSN : Fld := ⟨.CH_NFSTAT, 1, 1⟩
def CH_NFSTAT_FORCE : Fld := ⟨.CH_NFSTAT, 2, 1⟩
def CH_NFSTAT_GUARD : Fld := ⟨.CH_NFSTAT, 3, 2⟩
def CH_NFSTAT_PARTIAL : Fld := ⟨.CH_NFSTAT, 5, 11⟩
def CH_NFSTAT_WHIT : Fld := ⟨.CH_NFSTAT, 16, 16⟩
def CH_NFSTAT_NFCOUNT : Fld := ⟨.CH_NFSTAT, 32, 32⟩
def CH_NFADDR_TGA : Fld := ⟨.CH_NFADDR, 0, 64⟩
def CH_NFVERDICT_STEP : Fld := ⟨.CH_NFVERDICT, 0, 16⟩
def CH_NFVERDICT_VALID : Fld := ⟨.CH_NFVERDICT, 16, 1⟩
def CH_NFVERDICT_SKIP : Fld := ⟨.CH_NFVERDICT, 17, 1⟩
def CH_NFVERDICT_CODE : Fld := ⟨.CH_NFVERDICT, 24, 8⟩
def CH_NFVERDICT_DISCARDS : Fld := ⟨.CH_NFVERDICT, 32, 32⟩
def CH_LSCALE_EXP : Fld := ⟨.CH_LSCALE, 0, 8⟩
def CH_LSCALE_MINEXP : Fld := ⟨.CH_LSCALE, 8, 8⟩
def CH_LSCALE_MAXEXP : Fld := ⟨.CH_LSCALE, 16, 8⟩
def CH_LSCALE_DOWN : Fld := ⟨.CH_LSCALE, 24, 4⟩
def CH_LSCALE_GROW : Fld := ⟨.CH_LSCALE, 32, 16⟩
def CH_LSCALE_RUN : Fld := ⟨.CH_LSCALE, 48, 16⟩
def CH_NFWINn_BASE_BASE : Fld := ⟨.CH_NFWINn_BASE, 0, 64⟩
def CH_NFWINn_CFG_SIZE64 : Fld := ⟨.CH_NFWINn_CFG, 0, 32⟩
def CH_NFWINn_CFG_KIND : Fld := ⟨.CH_NFWINn_CFG, 32, 2⟩
def CH_NFWINn_CFG_FMT : Fld := ⟨.CH_NFWINn_CFG, 34, 4⟩
def CH_RPTCTRL_COMMIT : Fld := ⟨.CH_RPTCTRL, 0, 1⟩
def CH_RPTCTRL_FENCE : Fld := ⟨.CH_RPTCTRL, 1, 1⟩
def CH_RPTSTAT_EPOCH : Fld := ⟨.CH_RPTSTAT, 0, 16⟩
def CH_RPTSTAT_FENCE_BUSY : Fld := ⟨.CH_RPTSTAT, 16, 1⟩
def CH_RPTSTAT_SCRUB : Fld := ⟨.CH_RPTSTAT, 17, 1⟩
def CH_RPTSTAT_STALE : Fld := ⟨.CH_RPTSTAT, 32, 32⟩
def CH_RPTERR_CODE : Fld := ⟨.CH_RPTERR, 0, 8⟩
def CH_RPTERR_FUNC : Fld := ⟨.CH_RPTERR, 8, 8⟩
def CH_RPTERR_COUNT : Fld := ⟨.CH_RPTERR, 32, 32⟩
def CH_RPTERRADDR_TGA : Fld := ⟨.CH_RPTERRADDR, 0, 64⟩
def CH_PWRSTAT_GRANT : Fld := ⟨.CH_PWRSTAT, 0, 16⟩
def CH_PWRSTAT_UNCORE : Fld := ⟨.CH_PWRSTAT, 16, 16⟩
def CH_PWRSTAT_LENT : Fld := ⟨.CH_PWRSTAT, 32, 16⟩
def CH_PWRSTAT_LENDERS : Fld := ⟨.CH_PWRSTAT, 48, 6⟩
def CH_PWRCFG_LEND : Fld := ⟨.CH_PWRCFG, 0, 1⟩
def CH_FCLSn_CAP : Fld := ⟨.CH_FCLSn, 0, 8⟩
def CH_FCLSn_LEAKMS : Fld := ⟨.CH_FCLSn, 8, 8⟩
def CH_FCLSn_WINDOWMS : Fld := ⟨.CH_FCLSn, 16, 16⟩
def CH_FCLSn_STORM : Fld := ⟨.CH_FCLSn, 32, 10⟩
def CH_FCLSn_RETRY : Fld := ⟨.CH_FCLSn, 42, 3⟩
def CH_FCLSn_ACT : Fld := ⟨.CH_FCLSn, 45, 1⟩
def CH_FSTAT_STORM : Fld := ⟨.CH_FSTAT, 0, 32⟩
def CH_FSTAT_CODE : Fld := ⟨.CH_FSTAT, 32, 8⟩
def CH_FSTAT_PERM : Fld := ⟨.CH_FSTAT, 48, 16⟩
def CH_FLOGPTR_NEXT : Fld := ⟨.CH_FLOGPTR, 0, 8⟩
def CH_FLOGPTR_TOTAL : Fld := ⟨.CH_FLOGPTR, 8, 32⟩
def CH_FINJ_TYPE : Fld := ⟨.CH_FINJ, 0, 4⟩
def CH_FINJ_DBL : Fld := ⟨.CH_FINJ, 4, 1⟩
def CH_FINJ_STICKY : Fld := ⟨.CH_FINJ, 5, 1⟩
def CH_FINJ_CLUSTER : Fld := ⟨.CH_FINJ, 6, 7⟩
def CH_FINJ_ARM : Fld := ⟨.CH_FINJ, 13, 1⟩
def CH_DLYCFG_SRCMASK : Fld := ⟨.CH_DLYCFG, 0, 11⟩
def CH_DLYCFG_STOP : Fld := ⟨.CH_DLYCFG, 11, 1⟩
def CH_DLYCTRL_TRIGARM : Fld := ⟨.CH_DLYCTRL, 0, 1⟩
def CH_DLYCTRL_CLEAR : Fld := ⟨.CH_DLYCTRL, 1, 1⟩
def CH_DLYCTRL_RUN : Fld := ⟨.CH_DLYCTRL, 2, 1⟩
def CH_DLYCTRL_TRIGSRC : Fld := ⟨.CH_DLYCTRL, 3, 4⟩
def CH_DLYCTRL_TRIGCODE : Fld := ⟨.CH_DLYCTRL, 8, 8⟩
def CH_DLYCTRL_POST : Fld := ⟨.CH_DLYCTRL, 16, 16⟩
def CH_DLYSTAT_NEXT : Fld := ⟨.CH_DLYSTAT, 0, 17⟩
def CH_DLYSTAT_TRIGGERED : Fld := ⟨.CH_DLYSTAT, 17, 1⟩
def CH_DLYSTAT_FULL : Fld := ⟨.CH_DLYSTAT, 18, 1⟩
def CH_DLYSTAT_DROPS : Fld := ⟨.CH_DLYSTAT, 32, 32⟩
def CH_DLYMARK_MARK : Fld := ⟨.CH_DLYMARK, 0, 32⟩
def CH_DLYSEL_INDEX : Fld := ⟨.CH_DLYSEL, 0, 17⟩
def CH_DLYRECn_REC : Fld := ⟨.CH_DLYRECn, 0, 64⟩
def CH_PMCTRL_START : Fld := ⟨.CH_PMCTRL, 0, 1⟩
def CH_PMCTRL_STOP : Fld := ⟨.CH_PMCTRL, 1, 1⟩
def CH_PMCTRL_SNAP : Fld := ⟨.CH_PMCTRL, 2, 1⟩
def CH_PMSELn_EVENT : Fld := ⟨.CH_PMSELn, 0, 8⟩
def CH_PMSELn_CLUSTER : Fld := ⟨.CH_PMSELn, 8, 7⟩
def CH_PMCn_COUNT : Fld := ⟨.CH_PMCn, 0, 64⟩
def CH_PMSNAPn_SNAP : Fld := ⟨.CH_PMSNAPn, 0, 64⟩
def CH_RPTWINn_WORD : Fld := ⟨.CH_RPTWINn, 0, 64⟩
def CH_RPTWINLn_WORD : Fld := ⟨.CH_RPTWINLn, 0, 64⟩
def CH_FNRECf_WORD : Fld := ⟨.CH_FNRECf, 0, 64⟩
def CH_FNRECLf_WORD : Fld := ⟨.CH_FNRECLf, 0, 64⟩
def CH_FLOGn_REC : Fld := ⟨.CH_FLOGn, 0, 64⟩
def DST_VFTGT_F_TGT : Fld := ⟨.DST_VFTGT, 0, 7⟩
def DST_VFTGT_AVFS : Fld := ⟨.DST_VFTGT, 7, 1⟩
def DST_VFTGT_V_FIX : Fld := ⟨.DST_VFTGT, 8, 7⟩
def DST_VFTGT_WEIGHT : Fld := ⟨.DST_VFTGT, 16, 8⟩
def DST_VFTGT_COMMIT : Fld := ⟨.DST_VFTGT, 31, 1⟩
def DST_VFLIVE_LIVE : Fld := ⟨.DST_VFLIVE, 0, 24⟩
def DST_VFLIVE_F_NOW : Fld := ⟨.DST_VFLIVE, 24, 7⟩
def DST_VFLIVE_V_NOW : Fld := ⟨.DST_VFLIVE, 32, 7⟩
def DST_VFLIVE_F_CAP : Fld := ⟨.DST_VFLIVE, 40, 7⟩
def DST_VFLIVE_CAPBY : Fld := ⟨.DST_VFLIVE, 48, 5⟩
def DST_VFLIVE_LOCK : Fld := ⟨.DST_VFLIVE, 53, 1⟩
def DST_VFLIVE_SLEW : Fld := ⟨.DST_VFLIVE, 54, 1⟩
def DST_VFLIVE_LENDING : Fld := ⟨.DST_VFLIVE, 55, 1⟩
def DST_VFLIVE_PENDING : Fld := ⟨.DST_VFLIVE, 56, 1⟩
def DST_PWRSTAT_DRAW : Fld := ⟨.DST_PWRSTAT, 0, 16⟩
def DST_PWRSTAT_ALLOC : Fld := ⟨.DST_PWRSTAT, 16, 16⟩
def DST_PWRSTAT_TEMP : Fld := ⟨.DST_PWRSTAT, 32, 12⟩
def DST_PWRSTAT_DROOPS : Fld := ⟨.DST_PWRSTAT, 48, 16⟩
def DST_THERMCFG_THROT_C : Fld := ⟨.DST_THERMCFG, 0, 7⟩
def DST_STALLCFG_WLOG : Fld := ⟨.DST_STALLCFG, 0, 5⟩
def DST_STALLCFG_EN : Fld := ⟨.DST_STALLCFG, 8, 1⟩
def DST_STALLSTAT_ROUNDS : Fld := ⟨.DST_STALLSTAT, 0, 24⟩
def DST_STALLSTAT_LASTCL : Fld := ⟨.DST_STALLSTAT, 24, 7⟩
def DST_STALLSTAT_CODE : Fld := ⟨.DST_STALLSTAT, 32, 8⟩
def DST_STALLSTAT_QSPILLED : Fld := ⟨.DST_STALLSTAT, 40, 24⟩
def CL_CAPS_FENCED : Fld := ⟨.CL_CAPS, 0, 1⟩
def CL_CAPS_SPARE_USED : Fld := ⟨.CL_CAPS, 1, 1⟩
def CL_CAPS_UNUSED_COL : Fld := ⟨.CL_CAPS, 2, 4⟩
def CL_CAPS_REMAP_PENDING : Fld := ⟨.CL_CAPS, 6, 1⟩
def CL_CAPS_DEPOT_KIB : Fld := ⟨.CL_CAPS, 8, 12⟩
def CL_CAPS_QUEUES : Fld := ⟨.CL_CAPS, 20, 5⟩
def CL_CAPS_HANDLERS : Fld := ⟨.CL_CAPS, 25, 9⟩
def CL_CAPS_DOLLY_DESC : Fld := ⟨.CL_CAPS, 34, 7⟩
def CL_GATE_CLK_OK : Fld := ⟨.CL_GATE, 0, 1⟩
def CL_GATE_OUT : Fld := ⟨.CL_GATE, 1, 1⟩
def CL_GATE_TILES : Fld := ⟨.CL_GATE, 2, 1⟩
def CL_GATE_WR : Fld := ⟨.CL_GATE, 3, 1⟩
def CL_GATE_OWNED : Fld := ⟨.CL_GATE, 4, 1⟩
def CL_SECTION_SECTION : Fld := ⟨.CL_SECTION, 0, 32⟩
def CL_DEPERR_CE : Fld := ⟨.CL_DEPERR, 0, 16⟩
def CL_DEPERR_UE : Fld := ⟨.CL_DEPERR, 16, 16⟩
def CL_DEPERR_OFFSET : Fld := ⟨.CL_DEPERR, 32, 22⟩
def CL_SYNCW_VIEW : Fld := ⟨.CL_SYNCW, 0, 64⟩
def CL_SIDSTAT_USED : Fld := ⟨.CL_SIDSTAT, 0, 15⟩
def CL_SIDSTAT_TOTAL : Fld := ⟨.CL_SIDSTAT, 16, 15⟩
def CL_SIDSTAT_EXHAUSTED : Fld := ⟨.CL_SIDSTAT, 31, 1⟩
def CL_SIDSTAT_HIGH : Fld := ⟨.CL_SIDSTAT, 32, 15⟩
def CL_SIDSTAT_STUCK : Fld := ⟨.CL_SIDSTAT, 47, 1⟩
def CL_STALLAGE_AGE : Fld := ⟨.CL_STALLAGE, 0, 25⟩
def CL_GWSPILL_SPILLED : Fld := ⟨.CL_GWSPILL, 0, 8⟩
def CL_GWSPILL_UNITS : Fld := ⟨.CL_GWSPILL, 16, 16⟩
def CL_TAKESTAT_OPEN : Fld := ⟨.CL_TAKESTAT, 0, 4⟩
def CL_TAKESTAT_DEF : Fld := ⟨.CL_TAKESTAT, 4, 4⟩
def CL_TAKESTAT_BUSY : Fld := ⟨.CL_TAKESTAT, 8, 1⟩
def CL_TAKESTAT_COMMITS : Fld := ⟨.CL_TAKESTAT, 16, 16⟩
def CL_TAKESTAT_SQUASHES : Fld := ⟨.CL_TAKESTAT, 32, 16⟩
def CL_PENSTAT_USED : Fld := ⟨.CL_PENSTAT, 0, 14⟩
def CL_PENSTAT_HIGH : Fld := ⟨.CL_PENSTAT, 16, 14⟩
def CL_PENSTAT_FULL : Fld := ⟨.CL_PENSTAT, 32, 1⟩
def CL_TAKEk_ENTRIES : Fld := ⟨.CL_TAKEk, 0, 14⟩
def CL_TAKEk_OPEN : Fld := ⟨.CL_TAKEk, 14, 1⟩
def CL_TAKEk_DVALID : Fld := ⟨.CL_TAKEk, 15, 1⟩
def CL_TAKEk_DCODE : Fld := ⟨.CL_TAKEk, 16, 8⟩
def CL_TAKEk_DKIND : Fld := ⟨.CL_TAKEk, 24, 8⟩
def CL_TAKEk_DPC : Fld := ⟨.CL_TAKEk, 32, 22⟩
def CL_DEPSPARE_USED : Fld := ⟨.CL_DEPSPARE, 0, 64⟩
def CL_STWn_CTRL_HALT : Fld := ⟨.CL_STWn_CTRL, 0, 1⟩
def CL_STWn_CTRL_RESUME : Fld := ⟨.CL_STWn_CTRL, 1, 1⟩
def CL_STWn_CTRL_STEP : Fld := ⟨.CL_STWn_CTRL, 2, 1⟩
def CL_STWn_STATUS_STATE : Fld := ⟨.CL_STWn_STATUS, 0, 3⟩
def CL_STWn_STATUS_PRV : Fld := ⟨.CL_STWn_STATUS, 3, 1⟩
def CL_STWn_STATUS_TAKE_V : Fld := ⟨.CL_STWn_STATUS, 4, 1⟩
def CL_STWn_STATUS_TAKE_SLOT : Fld := ⟨.CL_STWn_STATUS, 5, 2⟩
def CL_STWn_STATUS_PC : Fld := ⟨.CL_STWn_STATUS, 8, 22⟩
def CL_STWn_STATUS_CODE : Fld := ⟨.CL_STWn_STATUS, 32, 8⟩
def CL_STWn_STATUS_KIND : Fld := ⟨.CL_STWn_STATUS, 40, 8⟩
def CL_STWn_STATUS_WAIT : Fld := ⟨.CL_STWn_STATUS, 48, 3⟩
def CL_STWn_EPC_EPC : Fld := ⟨.CL_STWn_EPC, 0, 64⟩
def CL_STWn_FDETAIL_FDETAIL : Fld := ⟨.CL_STWn_FDETAIL, 0, 64⟩
def CL_QSTATn_OCC : Fld := ⟨.CL_QSTATn, 0, 6⟩
def CL_QSTATn_MODE : Fld := ⟨.CL_QSTATn, 6, 2⟩
def CL_QSTATn_POISONED : Fld := ⟨.CL_QSTATn, 8, 1⟩
def CL_QSTATn_INHANDLER : Fld := ⟨.CL_QSTATn, 9, 1⟩
def CL_QSTATn_RWAIT : Fld := ⟨.CL_QSTATn, 10, 1⟩
def CL_QSTATn_HOLB : Fld := ⟨.CL_QSTATn, 11, 1⟩
def CL_QSTATn_ENQ : Fld := ⟨.CL_QSTATn, 16, 16⟩
def CL_QSTATn_DEQ : Fld := ⟨.CL_QSTATn, 32, 16⟩
def CL_QSTATn_DROPS : Fld := ⟨.CL_QSTATn, 48, 16⟩
def CL_QCFGn_CFG : Fld := ⟨.CL_QCFGn, 0, 64⟩
def CL_QHDRn_HEAD : Fld := ⟨.CL_QHDRn, 0, 64⟩
def CL_QCTRLn_POISON : Fld := ⟨.CL_QCTRLn, 0, 1⟩
def CL_QCTRLn_UNPOISON : Fld := ⟨.CL_QCTRLn, 1, 1⟩
def CL_QERR_CODE : Fld := ⟨.CL_QERR, 0, 8⟩
def CL_QERR_QUEUE : Fld := ⟨.CL_QERR, 8, 4⟩
def CL_QERR_ROUTE : Fld := ⟨.CL_QERR, 12, 8⟩
def CL_QERR_COUNT : Fld := ⟨.CL_QERR, 32, 32⟩
def CL_QDISP_INH0 : Fld := ⟨.CL_QDISP, 0, 1⟩
def CL_QDISP_Q0 : Fld := ⟨.CL_QDISP, 1, 4⟩
def CL_QDISP_H0 : Fld := ⟨.CL_QDISP, 5, 8⟩
def CL_QDISP_INH1 : Fld := ⟨.CL_QDISP, 16, 1⟩
def CL_QDISP_Q1 : Fld := ⟨.CL_QDISP, 17, 4⟩
def CL_QDISP_H1 : Fld := ⟨.CL_QDISP, 21, 8⟩
def CL_QBODYn_w_WORD : Fld := ⟨.CL_QBODYn_w, 0, 64⟩
def CL_SBn_CFGA_SHADOW : Fld := ⟨.CL_SBn_CFGA, 0, 64⟩
def CL_SBn_CFGB_SHADOW : Fld := ⟨.CL_SBn_CFGB, 0, 64⟩
def CL_SBn_LIVEA_LIVE : Fld := ⟨.CL_SBn_LIVEA, 0, 64⟩
def CL_SBn_LIVEB_LIVE : Fld := ⟨.CL_SBn_LIVEB, 0, 64⟩
def CL_SBn_CTRL_COMMIT : Fld := ⟨.CL_SBn_CTRL, 0, 1⟩
def CL_SBn_CTRL_SWAP : Fld := ⟨.CL_SBn_CTRL, 1, 1⟩
def CL_SBn_CTRL_PUB : Fld := ⟨.CL_SBn_CTRL, 2, 1⟩
def CL_SBn_CTRL_REL : Fld := ⟨.CL_SBn_CTRL, 3, 1⟩
def CL_SBn_CTRL_FLUSH : Fld := ⟨.CL_SBn_CTRL, 4, 1⟩
def CL_SBn_STAT_PUBCNT : Fld := ⟨.CL_SBn_STAT, 0, 16⟩
def CL_SBn_STAT_RELCNT : Fld := ⟨.CL_SBn_STAT, 16, 16⟩
def CL_SBn_STAT_FILL : Fld := ⟨.CL_SBn_STAT, 32, 20⟩
def CL_SBn_STAT_PENDING : Fld := ⟨.CL_SBn_STAT, 52, 1⟩
def CL_SBn_STAT_SWAPREQ : Fld := ⟨.CL_SBn_STAT, 53, 1⟩
def CL_SBn_STAT_FHALF : Fld := ⟨.CL_SBn_STAT, 54, 1⟩
def CL_SBn_STAT_MARKV : Fld := ⟨.CL_SBn_STAT, 55, 1⟩
def CL_SBn_STAT_MARK : Fld := ⟨.CL_SBn_STAT, 56, 2⟩
def CL_SBn_STAT_PWAIT : Fld := ⟨.CL_SBn_STAT, 58, 1⟩
def CL_SBn_STAT_CWAIT : Fld := ⟨.CL_SBn_STAT, 59, 1⟩
def CL_SBERR_CODE : Fld := ⟨.CL_SBERR, 0, 8⟩
def CL_SBERR_BUF : Fld := ⟨.CL_SBERR, 8, 5⟩
def CL_SBERR_COUNT : Fld := ⟨.CL_SBERR, 32, 32⟩
def CL_HTn_ENTRY : Fld := ⟨.CL_HTn, 0, 64⟩
def CL_EGn_ENTRY : Fld := ⟨.CL_EGn, 0, 64⟩
def TL_CTRL_HALT : Fld := ⟨.TL_CTRL, 0, 1⟩
def TL_CTRL_RESUME : Fld := ⟨.TL_CTRL, 1, 1⟩
def TL_CTRL_STEP : Fld := ⟨.TL_CTRL, 2, 1⟩
def TL_STATUS_STATE : Fld := ⟨.TL_STATUS, 0, 3⟩
def TL_STATUS_PC : Fld := ⟨.TL_STATUS, 4, 8⟩
def TL_STATUS_STALL : Fld := ⟨.TL_STATUS, 12, 3⟩
def TL_STATUS_STALL_PORT : Fld := ⟨.TL_STATUS, 15, 3⟩
def TL_STATUS_ROUTE_MISS : Fld := ⟨.TL_STATUS, 18, 1⟩
def TL_STATUS_POISON_SEEN : Fld := ⟨.TL_STATUS, 19, 1⟩
def TL_STATUS_CODE : Fld := ⟨.TL_STATUS, 24, 8⟩
def TL_MODE_RND : Fld := ⟨.TL_MODE, 0, 2⟩
def TL_MODE_FTZ : Fld := ⟨.TL_MODE, 2, 1⟩
def TL_MODE_FP8_SAT : Fld := ⟨.TL_MODE, 3, 1⟩
def TL_MODE_STOCH : Fld := ⟨.TL_MODE, 4, 1⟩
def TL_FLAGS_FLAGS : Fld := ⟨.TL_FLAGS, 0, 5⟩
def TL_FIRECNT_FIRED : Fld := ⟨.TL_FIRECNT, 0, 64⟩
def TL_STALLCNT_STALLED : Fld := ⟨.TL_STALLCNT, 0, 64⟩
def TL_BPCNT_BACKPRESSURED : Fld := ⟨.TL_BPCNT, 0, 64⟩
def TL_QOCC_RQ : Fld := ⟨.TL_QOCC, 0, 20⟩
def TL_QOCC_TQ : Fld := ⟨.TL_QOCC, 20, 20⟩
def TL_RNGSEED_SEED : Fld := ⟨.TL_RNGSEED, 0, 32⟩
def TL_SPILL_SPILLED : Fld := ⟨.TL_SPILL, 0, 5⟩
def TL_SPILL_UNITS : Fld := ⟨.TL_SPILL, 16, 16⟩
def TL_ROUTEn_OUT : Fld := ⟨.TL_ROUTEn, 0, 5⟩
def TL_ROUTEn_NEXT : Fld := ⟨.TL_ROUTEn, 8, 8⟩
def TL_ROUTEn_VALID : Fld := ⟨.TL_ROUTEn, 16, 1⟩
def TL_IMEMn_INSN : Fld := ⟨.TL_IMEMn, 0, 64⟩
def SEAL_STAT_PHASE : Fld := ⟨.SEAL_STAT, 0, 3⟩
def SEAL_STAT_QUEUED : Fld := ⟨.SEAL_STAT, 3, 5⟩
def SEAL_STAT_ENTRY : Fld := ⟨.SEAL_STAT, 8, 4⟩
def SEAL_STAT_STEP : Fld := ⟨.SEAL_STAT, 16, 11⟩
def SEAL_STAT_ACC : Fld := ⟨.SEAL_STAT, 27, 7⟩
def SEAL_CFG_TT_MAX : Fld := ⟨.SEAL_CFG, 0, 13⟩
def SEAL_ERR_CODE : Fld := ⟨.SEAL_ERR, 0, 8⟩
def SEAL_ERR_ENTRY : Fld := ⟨.SEAL_ERR, 8, 4⟩
def SEAL_ERR_TICKET_CNT : Fld := ⟨.SEAL_ERR, 16, 16⟩
def SEAL_ERR_COUNT : Fld := ⟨.SEAL_ERR, 32, 32⟩
def SEAL_PBSCNT_PBS : Fld := ⟨.SEAL_PBSCNT, 0, 64⟩
def SEAL_KSWCNT_KSW : Fld := ⟨.SEAL_KSWCNT, 0, 64⟩
def SEAL_KEYBYTES_BYTES : Fld := ⟨.SEAL_KEYBYTES, 0, 64⟩
def SEAL_CTRL_DISABLE : Fld := ⟨.SEAL_CTRL, 0, 1⟩
def SEAL_CTRL_ENABLE : Fld := ⟨.SEAL_CTRL, 1, 1⟩
def SEAL_CTRL_DISABLED : Fld := ⟨.SEAL_CTRL, 2, 1⟩
def SEAL_NOISESTAT_LIMITS : Fld := ⟨.SEAL_NOISESTAT, 0, 16⟩
def SEAL_NOISESTAT_TAINTED : Fld := ⟨.SEAL_NOISESTAT, 16, 16⟩
def SEAL_NOISESTAT_REFRESHES : Fld := ⟨.SEAL_NOISESTAT, 32, 32⟩
def SEAL_NOISEREC_ENTRY : Fld := ⟨.SEAL_NOISEREC, 0, 4⟩
def SEAL_NOISEREC_LIST : Fld := ⟨.SEAL_NOISEREC, 4, 6⟩
def SEAL_NOISEREC_WHICH : Fld := ⟨.SEAL_NOISEREC, 10, 2⟩
def SEAL_NOISEREC_VALUE : Fld := ⟨.SEAL_NOISEREC, 16, 16⟩
def SEAL_NCONSTs_CONST : Fld := ⟨.SEAL_NCONSTs, 0, 64⟩
def SEAL_CTXn_STAT_STATE : Fld := ⟨.SEAL_CTXn_STAT, 0, 2⟩
def SEAL_CTXn_STAT_PSET : Fld := ⟨.SEAL_CTXn_STAT, 2, 2⟩
def SEAL_CTXn_STAT_POLICY : Fld := ⟨.SEAL_CTXn_STAT, 4, 2⟩
def SEAL_CTXn_STAT_FUNC : Fld := ⟨.SEAL_CTXn_STAT, 8, 8⟩
def SEAL_CTXn_STAT_CODE : Fld := ⟨.SEAL_CTXn_STAT, 16, 8⟩
def SEAL_CTXn_STAT_KEYSET : Fld := ⟨.SEAL_CTXn_STAT, 32, 32⟩
def FDL_LINKn_STAT_STATE : Fld := ⟨.FDL_LINKn_STAT, 0, 4⟩
def FDL_LINKn_STAT_VER : Fld := ⟨.FDL_LINKn_STAT, 4, 2⟩
def FDL_LINKn_STAT_DOWNGRADE : Fld := ⟨.FDL_LINKn_STAT, 6, 1⟩
def FDL_LINKn_STAT_PROLE : Fld := ⟨.FDL_LINKn_STAT, 8, 2⟩
def FDL_LINKn_STAT_MODS : Fld := ⟨.FDL_LINKn_STAT, 10, 3⟩
def FDL_LINKn_STAT_X8 : Fld := ⟨.FDL_LINKn_STAT, 13, 1⟩
def FDL_LINKn_STAT_ATTEMPT : Fld := ⟨.FDL_LINKn_STAT, 14, 2⟩
def FDL_LINKn_STAT_FEAT : Fld := ⟨.FDL_LINKn_STAT, 16, 16⟩
def FDL_LINKn_STAT_CODE : Fld := ⟨.FDL_LINKn_STAT, 32, 8⟩
def FDL_LINKn_PCAP_REC : Fld := ⟨.FDL_LINKn_PCAP, 0, 64⟩
def FDL_LINKn_PCRED_REC : Fld := ⟨.FDL_LINKn_PCRED, 0, 64⟩
def FDL_LINKn_PDIE_DIEID : Fld := ⟨.FDL_LINKn_PDIE, 0, 32⟩
def FDL_LINKn_CFG_FUNC : Fld := ⟨.FDL_LINKn_CFG, 0, 8⟩
def FDL_LINKn_CFG_VERMAX : Fld := ⟨.FDL_LINKn_CFG, 8, 2⟩
def FDL_LINKn_CFG_L1IDLE : Fld := ⟨.FDL_LINKn_CFG, 16, 8⟩
def FDL_LINKn_CFG_COMMIT : Fld := ⟨.FDL_LINKn_CFG, 31, 1⟩
def FDL_LINKn_CTRL_RENEG : Fld := ⟨.FDL_LINKn_CTRL, 0, 1⟩
def FDL_LINKn_CTRL_RETRAIN : Fld := ⟨.FDL_LINKn_CTRL, 1, 1⟩
def FDL_LINKn_CTRL_TEST : Fld := ⟨.FDL_LINKn_CTRL, 2, 1⟩
def FDL_LINKn_ERR_CRCERR : Fld := ⟨.FDL_LINKn_ERR, 0, 16⟩
def FDL_LINKn_ERR_REPLAYS : Fld := ⟨.FDL_LINKn_ERR, 16, 16⟩
def FDL_LINKn_ERR_RETRAINS : Fld := ⟨.FDL_LINKn_ERR, 32, 8⟩
def FDL_LINKn_ERR_PKTERR : Fld := ⟨.FDL_LINKn_ERR, 40, 8⟩
def FDL_LINKn_ERR_TESTERR : Fld := ⟨.FDL_LINKn_ERR, 48, 8⟩
def FDL_LINKn_ERR_CODE : Fld := ⟨.FDL_LINKn_ERR, 56, 8⟩
def FDL_LINKn_CREDIT_AVAIL : Fld := ⟨.FDL_LINKn_CREDIT, 0, 60⟩
def CT_GLOBAL_ETHERTYPE : Fld := ⟨.CT_GLOBAL, 0, 16⟩
def CT_GLOBAL_UDPPORT : Fld := ⟨.CT_GLOBAL, 16, 16⟩
def CT_GLOBAL_COLLTO : Fld := ⟨.CT_GLOBAL, 32, 8⟩
def CT_PEERBASE_TGA : Fld := ⟨.CT_PEERBASE, 0, 64⟩
def CT_LCCFG_MODE : Fld := ⟨.CT_LCCFG, 0, 2⟩
def CT_LCCFG_BLIM : Fld := ⟨.CT_LCCFG, 8, 8⟩
def CT_LCCFG_COMMIT : Fld := ⟨.CT_LCCFG, 31, 1⟩
def CT_LCLIVE_MODE : Fld := ⟨.CT_LCLIVE, 0, 2⟩
def CT_LCLIVE_BLIM : Fld := ⟨.CT_LCLIVE, 8, 8⟩
def CT_PORTn_CFG_MODE : Fld := ⟨.CT_PORTn_CFG, 0, 2⟩
def CT_PORTn_CFG_UDP : Fld := ⟨.CT_PORTn_CFG, 2, 1⟩
def CT_PORTn_CFG_MAXPAY : Fld := ⟨.CT_PORTn_CFG, 3, 2⟩
def CT_PORTn_CFG_COMMIT : Fld := ⟨.CT_PORTn_CFG, 31, 1⟩
def CT_PORTn_STAT_UP : Fld := ⟨.CT_PORTn_STAT, 0, 8⟩
def CT_PORTn_STAT_FECUNC : Fld := ⟨.CT_PORTn_STAT, 32, 32⟩
def CT_FLOWSEL_INDEX : Fld := ⟨.CT_FLOWSEL, 0, 12⟩
def CT_FLOWCFGw_CFG : Fld := ⟨.CT_FLOWCFGw, 0, 64⟩
def CT_FLOWCTRL_COMMIT : Fld := ⟨.CT_FLOWCTRL, 0, 1⟩
def CT_FLOWCTRL_OPEN : Fld := ⟨.CT_FLOWCTRL, 1, 1⟩
def CT_FLOWCTRL_CLOSE : Fld := ⟨.CT_FLOWCTRL, 2, 1⟩
def CT_FLOWSTAT_STATE : Fld := ⟨.CT_FLOWSTAT, 0, 3⟩
def CT_FLOWSTAT_INC : Fld := ⟨.CT_FLOWSTAT, 3, 4⟩
def CT_FLOWSTAT_CODE : Fld := ⟨.CT_FLOWSTAT, 8, 8⟩
def CT_FLOWSTAT_WIN : Fld := ⟨.CT_FLOWSTAT, 16, 11⟩
def CT_FLOWSTAT_RETX : Fld := ⟨.CT_FLOWSTAT, 32, 32⟩
def CT_GRPSEL_INDEX : Fld := ⟨.CT_GRPSEL, 0, 10⟩
def CT_GRPCFGw_CFG : Fld := ⟨.CT_GRPCFGw, 0, 64⟩
def CT_GRPCTRL_COMMIT : Fld := ⟨.CT_GRPCTRL, 0, 1⟩
def CT_ERR_CODE : Fld := ⟨.CT_ERR, 0, 8⟩
def CT_ERR_FLOW : Fld := ⟨.CT_ERR, 16, 12⟩
def CT_ERR_COUNT : Fld := ⟨.CT_ERR, 32, 32⟩
def CT_ERRADDR_ADDR : Fld := ⟨.CT_ERRADDR, 0, 64⟩
def CT_TXPKT_SENT : Fld := ⟨.CT_TXPKT, 0, 64⟩
def CT_RXPKT_DELIVERED : Fld := ⟨.CT_RXPKT, 0, 64⟩
def CT_RETXPKT_RESENT : Fld := ⟨.CT_RETXPKT, 0, 64⟩
def CT_COLLSTAT_QUEUED : Fld := ⟨.CT_COLLSTAT, 0, 7⟩
def CT_COLLSTAT_RUNNING : Fld := ⟨.CT_COLLSTAT, 7, 1⟩
def VF_SELF_FUNC : Fld := ⟨.VF_SELF, 0, 8⟩
def VF_SELF_MODE : Fld := ⟨.VF_SELF, 8, 2⟩
def VF_SELF_PKG : Fld := ⟨.VF_SELF, 16, 16⟩
def VF_SELF_RINGS : Fld := ⟨.VF_SELF, 32, 7⟩
def VF_SELF_VECTORS : Fld := ⟨.VF_SELF, 40, 11⟩
def VF_CHGRANT_GRANT : Fld := ⟨.VF_CHGRANT, 0, 4⟩
def VF_GRANTSEL_CH : Fld := ⟨.VF_GRANTSEL, 0, 2⟩
def VF_GRANTRECn_WORD : Fld := ⟨.VF_GRANTRECn, 0, 64⟩
def VF_WINSEL_CH : Fld := ⟨.VF_WINSEL, 0, 2⟩
def VF_WINSEL_K : Fld := ⟨.VF_WINSEL, 16, 9⟩
def VF_WINn_WORD : Fld := ⟨.VF_WINn, 0, 64⟩
def VF_RPTERR_CODE : Fld := ⟨.VF_RPTERR, 0, 8⟩
def VF_RPTERR_COUNT : Fld := ⟨.VF_RPTERR, 32, 32⟩
def VF_RPTERRADDR_ADDR : Fld := ⟨.VF_RPTERRADDR, 0, 64⟩
def VF_RINGn_SQBASE_BASE : Fld := ⟨.VF_RINGn_SQBASE, 0, 64⟩
def VF_RINGn_CQBASE_BASE : Fld := ⟨.VF_RINGn_CQBASE, 0, 64⟩
def VF_RINGn_CFG_LOGSIZE : Fld := ⟨.VF_RINGn_CFG, 0, 5⟩
def VF_RINGn_CFG_VEC : Fld := ⟨.VF_RINGn_CFG, 16, 11⟩
def VF_RINGn_CFG_HOLDOFF : Fld := ⟨.VF_RINGn_CFG, 32, 16⟩
def VF_RINGn_CTRL_COMMIT : Fld := ⟨.VF_RINGn_CTRL, 0, 1⟩
def VF_RINGn_CTRL_ENABLE : Fld := ⟨.VF_RINGn_CTRL, 1, 1⟩
def VF_RINGn_CTRL_DISABLE : Fld := ⟨.VF_RINGn_CTRL, 2, 1⟩
def VF_RINGn_STAT_HEAD : Fld := ⟨.VF_RINGn_STAT, 0, 16⟩
def VF_RINGn_STAT_TAIL : Fld := ⟨.VF_RINGn_STAT, 16, 16⟩
def VF_RINGn_STAT_CQTAIL : Fld := ⟨.VF_RINGn_STAT, 32, 16⟩
def VF_RINGn_STAT_PHASE : Fld := ⟨.VF_RINGn_STAT, 48, 1⟩
def VF_RINGn_STAT_EN : Fld := ⟨.VF_RINGn_STAT, 49, 1⟩
def VF_RINGn_STAT_PENDING : Fld := ⟨.VF_RINGn_STAT, 50, 1⟩
def VF_RINGn_STAT_ERROR : Fld := ⟨.VF_RINGn_STAT, 51, 1⟩
def VF_RINGn_STAT_CODE : Fld := ⟨.VF_RINGn_STAT, 52, 8⟩
def VF_RINGn_LIVESQ_BASE : Fld := ⟨.VF_RINGn_LIVESQ, 0, 64⟩
def VF_RINGn_LIVECQ_BASE : Fld := ⟨.VF_RINGn_LIVECQ, 0, 64⟩
def VF_RINGn_LIVECFG_LOGSIZE : Fld := ⟨.VF_RINGn_LIVECFG, 0, 5⟩
def VF_RINGn_LIVECFG_VEC : Fld := ⟨.VF_RINGn_LIVECFG, 16, 11⟩
def VF_RINGn_LIVECFG_HOLDOFF : Fld := ⟨.VF_RINGn_LIVECFG, 32, 16⟩
def VF_EVQ_BASE_BASE : Fld := ⟨.VF_EVQ_BASE, 0, 64⟩
def VF_EVQ_CFG_LOGSIZE : Fld := ⟨.VF_EVQ_CFG, 0, 5⟩
def VF_EVQ_CFG_VEC : Fld := ⟨.VF_EVQ_CFG, 16, 11⟩
def VF_EVQ_CFG_HOLDOFF : Fld := ⟨.VF_EVQ_CFG, 32, 16⟩
def VF_EVQ_CTRL_COMMIT : Fld := ⟨.VF_EVQ_CTRL, 0, 1⟩
def VF_EVQ_CTRL_ENABLE : Fld := ⟨.VF_EVQ_CTRL, 1, 1⟩
def VF_EVQ_CTRL_DISABLE : Fld := ⟨.VF_EVQ_CTRL, 2, 1⟩
def VF_EVQ_STAT_TAIL : Fld := ⟨.VF_EVQ_STAT, 0, 12⟩
def VF_EVQ_STAT_PHASE : Fld := ⟨.VF_EVQ_STAT, 12, 1⟩
def VF_EVQ_STAT_EN : Fld := ⟨.VF_EVQ_STAT, 13, 1⟩
def VF_EVQ_STAT_LOST : Fld := ⟨.VF_EVQ_STAT, 32, 32⟩
def VF_SQDB_VALUE : Fld := ⟨.VF_SQDB, 0, 32⟩
def VF_CQDB_VALUE : Fld := ⟨.VF_CQDB, 0, 32⟩
def VF_EVQDB_VALUE : Fld := ⟨.VF_EVQDB, 0, 32⟩
def VF_APa_BASE_BASE : Fld := ⟨.VF_APa_BASE, 0, 64⟩

end Fld

end Sys2Proof.Machine
end

