-- ==== Sys2Proof/Machine/State.lean ====
section
/-! DEFINITION. The state of the package: everything the spec gives it, as plain data, and its value after reset. -/

namespace Sys2Proof.Machine

/-- A half of a 64-bit register held or captured for a requester (R9): the register's place, whether it is a write's held
lower half, and the 32 bits. -/
structure HalfHold where
  who : Requester
  place : Nat
  wr : Bool
  val : Nat
  deriving DecidableEq, Repr

/-- The hub's pins, reset lines and firmware state that no register shows. -/
structure Hub where
  phase : Phase := .rom
  /-- `PWRGD` low and being timed; a warm reset requested (R499, R500) -/
  pwrgdLow : Bool := false
  warmReq : Bool := false
  /-- dies whose `DRST_N` is released: `ch × 5 + 4` the field die, `ch × 5 + s` the die at site s (R395) -/
  released : List Nat := []
  /-- channels whose field die firmware has reported ready (R507) -/
  ready : List Nat := []
  /-- open-drain outputs asserted -/
  keeperN : Bool := false
  faultN : Bool := false
  faultHold : Bool := false
  thermtripN : Bool := false
  loadfailN : List Nat := []
  /-- consecutive watchdog expiries (R488) -/
  watchdog : Nat := 0
  /-- pod time minus SYSCLK time, SYSCLK time of the last accepted SYNC_IN pulse (R468) -/
  podOff : Nat := 0
  lastPulse : Option Nat := none
  /-- pending package budget commit: budget, reserve, weights (R458) -/
  budgetPend : Option (Nat × Nat × List Nat) := none
  weights : List Nat := [1, 1, 1, 1]
  /-- channels a retirement has been decided for and whose survivors have the notice still to take -/
  notices : List (Nat × Nat) := []
  /-- capability changes not yet reported, as (channel, code): R32 holds the report until the mirror shows them -/
  capsWait : List (Nat × Nat) := []
  /-- a `SYNC_OUT` pulse requested and not yet driven; the pin (R252, R469) -/
  outPend : Bool := false
  outPin : Bool := false
  /-- live channels that have the notice of an accepted SYNC_IN pulse still to take (R468) -/
  syncNotices : List Nat := []
  deriving DecidableEq, Repr

/-- The package. -/
structure State where
  /-- commands waiting, oldest first -/
  pending : List Instr
  /-- the fused part code (R30) -/
  part : Nat
  regs : SMap Word := []
  half : List HalfHold := []
  mem : List Host.Cell := []
  psn : List Nat := []
  /-- tiles by `tlLoc`, clusters by `clLoc`, channels -/
  tiles : SMap Tile := []
  cls : SMap Cluster := []
  chans : SMap Chan := []
  /-- Region Permission Table in force of each channel (R381), and the hub's copies with their epochs (R383): words 0 to 515
  the function records, from 516 on the window entries -/
  rpts : SMap (SMap Word) := []
  rptHub : SMap (SMap Word) := []
  rptHubEp : SMap Nat := []
  loads : SMap LoadSeq := []
  mons : SMap Monitor := []
  seals : SMap Seal := []
  port : Port := {}
  links : SMap FdlEnd := []
  cts : SMap Ct := []
  dists : SMap District := []
  fcs : SMap FaultCtl := []
  dailies : SMap Dailies := []
  nv : Nv := {}
  mgmt : Mgmt := {}
  hub : Hub := {}
  /-- (pseudo-channel, site) pairs of a channel lost since its lane list was built, as 4 × pseudo-channel + site (R182) -/
  lostLanes : SMap (List Nat) := []
  /-- pairs left out of a channel's lane list when it was built (R180, R486) -/
  absentLanes : SMap (List Nat) := []
  /-- the lane list by which a channel's HBM contents are laid out, where it is not the fused one (R181, R182) -/
  laid : SMap (List Nat) := []
  /-- ports of a channel removed for good (Table 22-3) -/
  goneports : SMap (List Nat) := []
  /-- MODEL's own field: how many free values have been taken -/
  free : Nat := 0
  deriving DecidableEq, Repr

/-- Why the machine stops. -/
inductive Fault
  /-- Raised by no command: the spec gives every command of its table an effect, a refusal by status code, or no effect.
  Safe. -/
  | illFormed
  deriving DecidableEq, Repr

/-- Why a command has no meaning. -/
inductive Refusal
  /-- Raised by the arms of `exec` whose command has no meaning yet, by its mnemonic. Safe. -/
  | notModelled (mnemonic : String)
  deriving DecidableEq, Repr

/-- The package after reset of a part: `PWRGD` accepted, the boot ROM still to run. -/
def State.start (part : Nat) : State := { pending := [], part := part }

/-- The package right after reset (R5, R499, R568): every register at its reset value, nothing queued, HBM and depots 0, the
boot ROM still to run. The part is a TZG-4H (log entry 1). -/
def State.reset : State := State.start 1

end Sys2Proof.Machine
end

