-- ==== Sys2Proof/Machine/RegOps.lean ====
section
/-! DEFINITION. The register file: reset values, reads and writes of registers and of their fields. -/

namespace Sys2Proof.Machine

/-- Channels of a part code (R30, Table 0-1). -/
def partChannels (p : Nat) : Nat := if p = 5 then 2 else 4

/-- Stack sites of a part, bit per site (Table 1-1). -/
def partStacks (p : Nat) : Nat := if p = 1 then 0x7 else if p = 4 then 0x1 else 0x9

/-- Gate sites of a part. -/
def partGates (p : Nat) : Nat := 0xF - partStacks p

def partSeal (p : Nat) : Bool := decide (p = 1 ∨ p = 2)
def partLc (p : Nat) : Bool := decide (p ≠ 5)

/-- Maximum package power in watts (Table 0-1). -/
def partPower (p : Nat) : Nat :=
  if p = 2 ∨ p = 4 then 1500 else if p = 5 then 760 else 1450

/-- Number of set bits among the lowest `w`. -/
def popCount (w n : Nat) : Nat := (List.range w).countP (fun i => n.testBit i)

/-- The table's reset value of a register. -/
def Reg.tableReset (r : Reg) : Nat :=
  r.desc.fields.foldl (fun a f => a + f.rst * 2 ^ f.lo) 0

/-- `CH_CAPS` after hub reset (R30, Table 0-1). -/
def capsReset (p : Nat) : Nat :=
  let st := partStacks p
  let g := partGates p
  let fit := ofBit (partSeal p) + 2 + 4 * ofBit (partLc p)
  st + g * 2 ^ 4 + 0xF * 2 ^ 8 + fit * 2 ^ 12 + fit * 2 ^ 16 + 8 * popCount 4 g * 2 ^ 32 + 96 * 2 ^ 40

/-- Lanes of the lane list with no pseudo-channel retired (R180). -/
def lanesReset (p : Nat) : Nat := 32 * popCount 4 (partStacks p)

/-- The reset value of a register of a part (register tables; R30 and Table 0-1 for what is fused). -/
def Reg.resetVal (p : Nat) (r : Reg) (loc idx : Nat) : Word :=
  BitVec.ofNat 64 (match r with
  | .HUB_CAPS =>
    let n := partChannels p
    p + n * 2 ^ 4 + (2 ^ n - 1) * 2 ^ 8 + (2 ^ n - 1) * 2 ^ 12 + 128 * 2 ^ 16 + partPower p * 2 ^ 32
  | .HUB_CHCAPSn => if idx < partChannels p then capsReset p else 0
  | .HUB_PWRBUDGET | .HUB_PWRLIVE => partPower p + 30 * 2 ^ 16
  | .CH_SELF => loc % 4
  | .CH_CAPS => capsReset p
  | .CH_HBMMAP => lanesReset p + partStacks p * 2 ^ 8
  | .CH_HBMSIZE => lanesReset p * 1125000000
  | .DST_VFLIVE => (64 + 2 ^ 7 + 40 * 2 ^ 8 + 16 * 2 ^ 16) + r.tableReset
  | .SEAL_NCONSTs =>
    if idx = 0 then 0xCE00E500DA00F380 else if idx = 1 then 0xC800DF00D400F200 else 0xC800DD00D200F200
  | _ => r.tableReset)

/-- The place of copy `idx` of a register in the block at location `loc`. -/
def Reg.place (r : Reg) (loc idx : Nat) : Nat := r.ctorIdx * 2 ^ 40 + loc * 2 ^ 16 + idx

/-- The stored value of a register. -/
def State.reg (s : State) (r : Reg) (loc idx : Nat := 0) : Word :=
  SMap.get (r.resetVal s.part loc idx) s.regs (r.place loc idx)

def State.regN (s : State) (r : Reg) (loc idx : Nat := 0) : Nat := (s.reg r loc idx).toNat

/-- The state with a register's stored value replaced. -/
def State.setReg (s : State) (r : Reg) (loc idx : Nat) (v : Nat) : State :=
  { s with regs := SMap.put s.regs (r.place loc idx) (BitVec.ofNat 64 v) }

/-- A field of a register. -/
def State.fget (s : State) (f : Fld) (loc idx : Nat := 0) : Nat := bits (s.regN f.reg loc idx) f.lo f.w

def State.fbit (s : State) (f : Fld) (loc idx : Nat := 0) : Bool := decide (s.fget f loc idx ≠ 0)

/-- The state with a field set. -/
def State.fset (s : State) (f : Fld) (loc idx v : Nat) : State :=
  s.setReg f.reg loc idx (putBits (s.regN f.reg loc idx) f.lo f.w v)

/-- A count field raised, stopping at its largest value. -/
def State.fadd (s : State) (f : Fld) (loc idx n : Nat) : State :=
  s.fset f loc idx (satAdd f.w (s.fget f loc idx) n)

/-- A count field raised modulo its width. -/
def State.finc (s : State) (f : Fld) (loc idx n : Nat) : State :=
  s.fset f loc idx (s.fget f loc idx + n)

/-- A 256-bit record in four words of a wide register, word 0 first. -/
def State.setWords (s : State) (r : Reg) (loc idx : Nat) : List Nat → State
  | [] => s
  | v :: vs => (s.setReg r loc idx v).setWords r loc (idx + 1) vs

/-- A code recorded in a register whose fields are a code and a count. -/
def State.record (s : State) (code count : Fld) (loc c : Nat) : State :=
  (s.fset code loc 0 c).fadd count loc 0 1

/-- The state with one free value taken. -/
def State.took (s : State) : State := { s with free := s.free + 1 }

/-- A half held or captured for a requester is discarded by its next register access (R9). -/
def dropHalf (s : State) (r : Requester) : State := { s with half := s.half.filter fun h => h.who ≠ r }

/-- Location numbers of the blocks: clusters, tiles, districts, link ends. -/

def clLoc (ch cl : Nat) : Nat := ch * 96 + cl
def tlLoc (ch cl t : Nat) : Nat := clLoc ch cl * 64 + t
def dstLoc (ch d : Nat) : Nat := ch * 6 + d
def linkLoc (ch n : Nat) (far : Bool) : Nat := (ch * 5 + n) * 2 + ofBit far

/-- District of a cluster (R12). -/
def clDistrict (cl : Nat) : Nat := cl / 16

/-- A channel is present, live and not retired (R29, R36). -/
def State.chLive (s : State) (ch : Nat) : Bool := (s.fget Fld.HUB_CAPS_CH_LIVE).testBit ch

def State.chPresent (s : State) (ch : Nat) : Bool := decide (ch < partChannels s.part)

def State.retired (s : State) (ch : Nat) : Bool := s.fbit Fld.CH_CAPS_RETIRED ch

/-- Live channels in order. -/
def State.liveChs (s : State) : List Nat := (List.range 4).filter s.chLive

end Sys2Proof.Machine
end

