-- ==== Sys2Proof/Machine/Addr.lean ====
section
/-! DEFINITION. The Tolsozon Global Address (R171) and the tables of the Region Permission Table (R375, R378). -/

namespace Sys2Proof.Machine

/-! A TGA (Table 8-1). -/

def tgaPkg (a : Nat) : Nat := bits a 48 16
def tgaCh (a : Nat) : Nat := bits a 46 2
def tgaSpace (a : Nat) : Nat := bits a 44 2
def tgaOff (a : Nat) : Nat := bits a 0 44
/-- Cluster of a depot TGA or queue address. -/
def tgaCl (a : Nat) : Nat := bits a 22 7
/-- The memory address of a TGA of this package. -/
def tgaMem (a : Nat) : Nat := a % 2 ^ 48

def mkTga (pkg ch space off : Nat) : Nat := pkg * 2 ^ 48 + ch * 2 ^ 46 + space * 2 ^ 44 + off

/-- The package's own number (R18). -/
def ownPkg (s : State) : Nat := s.fget Fld.HUB_OPMODE_PKG_NUM

/-- POD mode. -/
def podMode (s : State) : Bool := decide (s.fget Fld.HUB_OPMODE_MODE = 2)

/-- The TGA names this package. -/
def isOwnPkg (s : State) (a : Nat) : Bool := decide (tgaPkg a = ownPkg s)

/-- The TGA names this channel of this package. -/
def isOwn (s : State) (ch a : Nat) : Bool := isOwnPkg s a && decide (tgaCh a = ch)

/-- Word `i` of a Region Permission Table. -/
def rptWord (t : SMap Word) (i : Nat) : Nat := (SMap.get 0#64 t i).toNat

/-- A function record as a number (Table 18-1); PF0's is fixed (R375). -/
def fnRec (t : SMap Word) (f : Nat) : Nat :=
  if f = 0 then (2 ^ 96 - 1) + 2 ^ 96 + 2 ^ 97 + 65536 * 2 ^ 144 + 1536 * 2 ^ 208
  else rptWord t (4 * f) + rptWord t (4 * f + 1) * 2 ^ 64 + rptWord t (4 * f + 2) * 2 ^ 128 +
    rptWord t (4 * f + 3) * 2 ^ 192

def recClmask (r : Nat) : Nat := bits r 0 96
def recValid (r : Nat) : Bool := bit r 96
def recSeal (r : Nat) : Bool := bit r 97
def recSyncBase (r : Nat) : Nat := bits r 128 16
def recSyncCnt (r : Nat) : Nat := bits r 144 17
def recQBase (r : Nat) : Nat := bits r 192 11
def recQCnt (r : Nat) : Nat := bits r 208 11

/-- A window entry as a number (Table 18-2). -/
def rptWin (t : SMap Word) (n : Nat) : Nat := rptWord t (516 + 2 * n) + rptWord t (517 + 2 * n) * 2 ^ 64

/-- The window entry grants function `f` the access to the whole range (R378, R379). -/
def winCovers (w f : Nat) (write : Bool) (a len : Nat) : Bool :=
  bit w 0 && decide (bits w 8 8 = f) && (if write then bit w 2 else bit w 1) &&
    decide (bits w 16 2 = tgaSpace a) && decide (bits w 32 16 = tgaPkg a) && decide (bits w 48 2 = tgaCh a) &&
    decide (bits w 64 32 * 4096 ≤ tgaOff a) && decide (tgaOff a + len ≤ (bits w 64 32 + bits w 96 32) * 4096)

def anyWin (t : SMap Word) (f : Nat) (write : Bool) (a len : Nat) : Bool :=
  (List.range 512).any fun n => winCovers (rptWin t n) f write a len

/-- The channel's table in force. -/
def State.rpt (s : State) (ch : Nat) : SMap Word := SMap.get [] s.rpts ch

/-- A function's record in force in a channel. -/
def State.fnrec (s : State) (ch f : Nat) : Nat := fnRec (s.rpt ch) f

/-- The channel is granted to the function. -/
def granted (s : State) (ch f : Nat) : Bool := recValid (s.fnrec ch f)

end Sys2Proof.Machine
end

