-- ==== Sys2Proof/Machine/HostOps.lean ====
section
/-! DEFINITION. Functions of the host port as other units see them: whether they are enabled, events posted to them (R362),
outcomes of their ring commands (R361), and the port's state cleared (R366). -/

namespace Sys2Proof.Machine

/-- A function's state beyond its registers, and its replacement. -/
def State.fn (s : State) (f : Nat) : HostFn := SMap.get {} s.port.fns f

def State.setFn (s : State) (f : Nat) (g : HostFn → HostFn) : State :=
  { s with port := { s.port with fns := SMap.put s.port.fns f (g (s.fn f)) } }

def fnRing (h : HostFn) (r : Nat) : Ring := SMap.get {} h.rings r

def State.setRing (s : State) (f r : Nat) (g : Ring → Ring) : State :=
  s.setFn f fun h => { h with rings := SMap.put h.rings r (g (fnRing h r)) }

/-- The function is enabled: PF0 always, VF n by `HUB_VFSTATn.STATE` (R371, R387). -/
def fnOn (s : State) (f : Nat) : Bool := decide (f = 0) || decide (s.fget Fld.HUB_VFSTATn_STATE 0 (f - 1) = 1)

/-- Entries of a function's event queue (R351, R352: 4 to 12). -/
def evqSize (h : HostFn) : Nat := 2 ^ bits h.evLive.2 0 5

/-- A function reports an error through AER. -/
def aerSet (s : State) (f : Nat) (e : AerErr) : State :=
  s.setFn f fun h => if h.aer.contains e then h else { h with aer := h.aer ++ [e] }

/-- An event for a function: it waits to be written, or is discarded and counted (R362); a disabled function gets none
(R387, R388). -/
def postEvent (s : State) (f id ch code result detail : Nat) : State :=
  if !fnOn s f || !(s.fn f).busy.isEmpty then s
  else
    let h := s.fn f
    if s.fbit Fld.VF_EVQ_STAT_EN f && decide (h.evUsed + h.events.length < evqSize h) then
      s.setFn f fun h => { h with events := h.events ++ [⟨id, ch, code, result, detail⟩] }
    else s.fadd Fld.VF_EVQ_STAT_LOST f 0 1

/-- The outcome of a ring command becomes known: its completion is to be written, in the order of outcomes (R361, R364). -/
def hostDone (s : State) (c : CmdRef) (code result detail : Nat) : State :=
  s.setRing c.f c.r fun r =>
    if r.cmds.any fun x => decide (x.no = c.no) && x.out.isNone then
      { r with cmds := r.cmds.map fun x => if x.no = c.no then { x with out := some (code, result, detail) } else x,
               done := r.done ++ [c.no] }
    else r

/-- The outcome of a command that something may have asked for. -/
def hostDone? (s : State) (c : Option CmdRef) (code result detail : Nat) : State :=
  match c with
  | some c => hostDone s c code result detail
  | none => s

/-- Registers of one kind of block at locations that pass a test go back to their reset values. -/
def dropRegs (s : State) (p : Nat → Nat → Bool) : State :=
  { s with regs := SMap.keep (fun k => !p (k / 2 ^ 40) (k / 2 ^ 16 % 2 ^ 24)) s.regs }

/-- Registers of the function block (Table 17-7). -/
def isFnReg (i : Nat) : Bool := Block.fnRegs.any fun r => decide (r.ctorIdx = i)

/-- The host port's own state cleared: link, configuration space, rings, event queues, apertures, MSI-X tables (R366). -/
def portClear (s : State) : State :=
  let s := dropRegs s fun i _ => isFnReg i
  let s := s.setReg .HUB_PORTSTAT 0 0 0
  { s with port := { perst := s.port.perst, timing := s.port.timing, out := s.port.out } }

/-- Every channel has finished with a disabled function: it is usable again, its rings disabled and its
MSI-X table reset (R390); as PCIe has it of an FLR, its MSI-X control is reset and it is in D0 (log entry 26). -/
def fnFinish (s : State) (f : Nat) : State :=
  let on := s.port.vfEnable && decide (f ≤ s.port.numVfs)
  let s := if f = 0 then s else s.fset Fld.HUB_VFSTATn_STATE 0 (f - 1) (ofBit on)
  let live : List Reg := [.VF_RINGn_STAT, .VF_RINGn_LIVESQ, .VF_RINGn_LIVECQ, .VF_RINGn_LIVECFG]
  let s := dropRegs s fun i loc => decide (loc = f) && live.any fun r => decide (r.ctorIdx = i)
  s.setFn f fun h => { h with rings := [], msix := [], msixEn := false, msixMask := false, d3 := false, msi := [], busy := [] }

/-- A channel has finished with a disabled function, or is gone. -/
def chanDisabled (s : State) (ch f : Nat) : State :=
  let h := s.fn f
  if !h.busy.contains ch then s
  else
    let s := s.setFn f fun h => { h with busy := h.busy.filter (· ≠ ch) }
    if (h.busy.filter (· ≠ ch)).isEmpty then fnFinish s f else s

end Sys2Proof.Machine
end

