-- ==== Sys2Proof/Machine/Report.lean ====
section
/-! DEFINITION. Reports: fault records and logs (R492), dailies records (R536 to R538), management events (R532, R533), the
open-drain outputs (R490, R491), capability changes (R31, R32), and who may write configuration. -/

namespace Sys2Proof.Machine

/-- A SYSCLK time the model does not know. -/
def State.now (s : State) : Nat := (Config.sysclk s.free).toNat

/-- The channel's dailies. -/
def State.dly (s : State) (ch : Nat) : Dailies := SMap.get {} s.dailies ch

def State.setDly (s : State) (ch : Nat) (f : Dailies → Dailies) : State :=
  { s with dailies := SMap.put s.dailies ch (f (s.dly ch)) }

/-- Records a channel's dailies buffer holds (R536). -/
def dlySize : Nat := 131072

/-- A channel captures a record of this source now (R536, R537). -/
def State.capturing (s : State) (ch src : Nat) : Bool :=
  let d := s.dly ch
  s.fbit Fld.CH_DLYCTRL_RUN ch && !d.frozen && decide (d.left ≠ some 0) &&
    ((s.fget Fld.CH_DLYCFG_SRCMASK ch).testBit src || decide (src = 0 ∨ src = 2 ∨ src = 6 ∨ src = 7)) &&
    !(s.fbit Fld.CH_DLYCFG_STOP ch && decide (d.full = dlySize))

/-- A dailies record (Table 24-4) taken, with its copy in the hub's tail (R536 to R538). -/
def dlyRecord (s : State) (ch src code cl arg0 arg1 : Nat) : State :=
  if s.capturing ch src then
    let d := s.dly ch
    let next := s.fget Fld.CH_DLYSTAT_NEXT ch
    let w1 := src + code * 2 ^ 8 + ch * 2 ^ 16 + cl % 128 * 2 ^ 18 + arg0 % 2 ^ 32 * 2 ^ 32
    let r : List Word := [BitVec.ofNat 64 s.now, BitVec.ofNat 64 w1, BitVec.ofNat 64 arg1, BitVec.ofNat 64 d.seq]
    let full := min (d.full + 1) dlySize
    let hit := d.armed && decide (src = s.fget Fld.CH_DLYCTRL_TRIGSRC ch) &&
      decide (code = s.fget Fld.CH_DLYCTRL_TRIGCODE ch)
    let left := if hit then some (s.fget Fld.CH_DLYCTRL_POST ch) else d.left.map (· - 1)
    let tail := d.tail ++ [r]
    let s := s.setDly ch fun d =>
      { d with recs := SMap.put d.recs next r, seq := d.seq + 1, full := full, armed := d.armed && !hit, left := left,
               tail := tail.drop (tail.length - 2048) }
    let s := s.fset Fld.CH_DLYSTAT_NEXT ch 0 ((next + 1) % dlySize)
    let s := s.fset Fld.CH_DLYSTAT_FULL ch 0 (ofBit (decide (full = dlySize)))
    (if hit then (s.fset Fld.CH_DLYSTAT_TRIGGERED ch 0 1).fset Fld.CH_DLYCTRL_TRIGARM ch 0 0 else s).took
  else s

/-- An event counted by the channel's performance counters that select it (R540, Table 24-6); `cl` 127 when it belongs to no
cluster. -/
def pmCount (s : State) (ch ev cl n : Nat) : State :=
  if (s.dly ch).counting then
    (List.range 16).foldl (fun s i =>
      let sel := s.regN .CH_PMSELn ch i
      if bits sel 0 8 = ev ∧ (bits sel 8 7 = 127 ∨ bits sel 8 7 = cl) then
        s.setReg .CH_PMCn ch i (satAdd 64 (s.regN .CH_PMCn ch i) n)
      else s) s
  else s

/-- `SMB_ALERT_N` follows the queue (R533). -/
def alertPin (s : State) (arrived : Bool) : State :=
  let m := s.mgmt
  if m.events.isEmpty then { s with mgmt := { m with alert := false, holdoff := m.alert || m.holdoff } }
  else if m.alert then s
  else if m.holdoff then if arrived then s.fadd Fld.HUB_MGMTSTAT_ALERTHOLD 0 0 1 else s
  else { s with mgmt := { m with alert := true } }

def queuedField (s : State) : State := s.fset Fld.HUB_MGMTSTAT_QUEUED 0 0 s.mgmt.events.length

/-- Kinds of management event (R532). -/
def evThreshold : Nat := 1
def evFault : Nat := 2
def evKeeper : Nat := 3
def evRetired : Nat := 4
def evLife : Nat := 5
def evLost : Nat := 6

/-- An event enters the endpoint's queue of 64, or is discarded and counted (R532). -/
def mgmtEvent (s : State) (kind data : Nat) : State :=
  let m := s.mgmt
  let add := if m.lost = 0 then [(kind, data)] else [(evLost, m.lost), (kind, data)]
  if m.events.length + add.length ≤ 64 then
    alertPin (queuedField { s with mgmt := { m with events := m.events ++ add, lost := 0 } }) true
  else ({ s with mgmt := { m with lost := m.lost + 1 } } : State).fadd Fld.HUB_MGMTSTAT_EVLOST 0 0 1

/-- `FAULT_N` follows the enabled pending bits, held for its minimum (R491). -/
def faultPin (s : State) : State :=
  let want := s.hub.keeperN ||
    decide ((s.fget Fld.HUB_FAULTMASK_MASK) &&& (s.regN .HUB_FAULTPEND) ≠ 0)
  if want then { s with hub := { s.hub with faultN := true, faultHold := s.hub.faultHold || !s.hub.faultN } }
  else if s.hub.faultHold then s
  else { s with hub := { s.hub with faultN := false } }

/-- A pending bit of `HUB_FAULTPEND` set. -/
def pend (s : State) (f : Fld) : State := faultPin (s.fset f 0 0 1)

/-- Classes and actions of Table 22-4. -/
def clsTransient : Nat := 0
def clsLocation : Nat := 1
def clsUnit : Nat := 2
def clsOther : Nat := 3

/-- A fault record (Table 22-4): its four words. -/
def faultWords (time code ty cls act ch cl unit loc level storm sec : Nat) : List Nat :=
  [time % 2 ^ 64,
   code + ty % 16 * 2 ^ 8 + cls * 2 ^ 12 + act * 2 ^ 14 + ch % 4 * 2 ^ 18 + cl % 128 * 2 ^ 20 + unit % 2 ^ 32 * 2 ^ 32,
   loc % 2 ^ 64, level % 2 ^ 16 + storm % 4 * 2 ^ 16 + sec % 2 ^ 32 * 2 ^ 32]

/-- A record written in the hub's fault log (R492). -/
def hubLog (s : State) (rec : List Nat) : State :=
  let n := s.fget Fld.HUB_FLOGPTR_NEXT
  let wrap := decide (1024 ≤ s.fget Fld.HUB_FLOGPTR_TOTAL)
  let s := s.setWords .HUB_FLOGn 0 (4 * n) rec
  let s := (s.fset Fld.HUB_FLOGPTR_NEXT 0 0 ((n + 1) % 1024)).finc Fld.HUB_FLOGPTR_TOTAL 0 0 1
  if wrap then pend s Fld.HUB_FAULTPEND_LOGWRAP else s

/-- A record written in a controller's log and copied to the hub's (R492); `src` 4 is the hub. -/
def logRec (s : State) (src : Nat) (rec : List Nat) : State :=
  let s :=
    if src < 4 then
      let n := s.fget Fld.CH_FLOGPTR_NEXT src
      let s := s.setWords .CH_FLOGn src (4 * n) rec
      (s.fset Fld.CH_FLOGPTR_NEXT src 0 ((n + 1) % 256)).finc Fld.CH_FLOGPTR_TOTAL src 0 1
    else s
  hubLog s rec

/-- Storm level of a type in a channel (R476); the hub's type has none of its own register. -/
def stormOf (s : State) (src ty : Nat) : Nat := if src < 4 then bits (s.fget Fld.CH_FSTAT_STORM src) (2 * ty) 2 else 0

/-- One fault record with its dailies record and, for `CLASS` 1 or 2, its management event (R477, R532, Table 24-3). -/
def faultRecord (s : State) (src time code ty cls act cl unit loc level sec : Nat) : State :=
  let s := logRec s src (faultWords time code ty cls act (src % 4) cl unit loc level (stormOf s src ty) sec)
  let s := if src < 4 then
      (dlyRecord s src 0 code cl unit loc).fset Fld.CH_FSTAT_CODE src 0 code else s
  let s := if code = cEccUncorrected then pend s Fld.HUB_FAULTPEND_UE else s
  if cls = 1 ∨ cls = 2 then mgmtEvent s evFault (code + ty * 2 ^ 8) else s

/-- A report of another chapter to the fault controller: one record of `CLASS` 3 (after Table 22-4). -/
def report3 (s : State) (src code act cl unit loc sec : Nat) : State :=
  (faultRecord s src s.now code (Config.reportType code).toNat 3 act cl unit loc 0 sec).took

/-- A capability field of a channel changed: `CAPS_GEN` counts it (R31), and the hub's mirror shows it before anything can report
it (R32; log entry 67). The report itself waits. -/
def capsChanged (s : State) (ch code : Nat) : State :=
  let s := s.finc Fld.CH_CAPS_CAPS_GEN ch 0 1
  let s := s.setReg .HUB_CHCAPSn 0 ch (s.regN .CH_CAPS ch)
  { s with hub := { s.hub with capsWait := s.hub.capsWait ++ [(ch, code)] } }

/-- An event posted to every function granted a channel (Table 17-5). -/
def postGranted (s : State) (ch id code result : Nat) : State :=
  (List.range 129).foldl (fun s f => if granted s ch f then postEvent s f id ch code result 0 else s) s

/-- A steward runs at channel supervisor level. -/
def stwSup (s : State) (w : Nat) : Bool := (SMap.get {} (SMap.get {} s.cls (w / 2)).stws (w % 2)).prv

/-- Writers that the hub, PF0 and channel supervisor rules name (R454, R465, R493); management and debug act as the hub
(R565). -/
def maySup (s : State) : Requester → Bool
  | .hub | .mgmt | .jtag => true
  | .fn f => decide (f.val = 0)
  | .stw w => stwSup s (clLoc w.c.ch w.c.cl * 2 + w.w)

/-- Writers of hub registers: the hub, PF0, management and debug (R530, R565). -/
def mayHub : Requester → Bool
  | .hub | .mgmt | .jtag => true
  | .fn f => decide (f.val = 0)
  | .stw _ => false

/-- A discarded hub register write recorded in `HUB_HOSTERR` (R458, R500). -/
def hostErr (s : State) (code f addr : Nat) : State :=
  ((s.record Fld.HUB_HOSTERR_CODE Fld.HUB_HOSTERR_COUNT 0 code).fset Fld.HUB_HOSTERR_FUNC 0 0 f).fset
    Fld.HUB_HOSTERRADDR_ADDR 0 0 addr

/-- The function number a requester shows in `HUB_HOSTERR` (R530). -/
def reqFunc : Requester → Nat
  | .fn f => f.val
  | _ => 0xFF

end Sys2Proof.Machine
end

