-- ==== Sys2Proof/Machine/Mem.lean ====
section
/-! DEFINITION. Memory: HBM and depot bytes in one canonical list, with the poison marks of depot words and HBM granules. An
address is `CH × 2^46 + SPACE × 2^44 + OFFSET`, a TGA with `PKG` 0. Unlisted bytes read 0. -/

namespace Sys2Proof.Machine

/-- What an unlisted byte reads as: 0 for depots (R568); for HBM the spec gives no reset contents (log entry 20). -/
def memDefault : Byte := 0#8

/-- The canonical form of a memory. -/
abbrev Memory.wf (m : List Host.Cell) : Bool := SMap.wf memDefault m

/-- Sorted insertion without repetition. -/
def insertN (a : Nat) : List Nat → List Nat
  | [] => [a]
  | x :: r => if a < x then a :: x :: r else if a = x then x :: r else x :: insertN a r

/-- Bytes of one poison unit: a depot word, or an HBM granule (R184). -/
def unitSize (a : Nat) : Nat := if bits a 44 2 = 0 then 64 else 8

/-- First address of the poison unit of an address. -/
def unitBase (a : Nat) : Nat := a - a % unitSize a

def State.byteAt (s : State) (a : Nat) : Byte := SMap.get memDefault s.mem a

def State.poisoned (s : State) (a : Nat) : Bool := s.psn.contains (unitBase a)

/-- A byte with its unit's poison mark. -/
def State.dbyteAt (s : State) (a : Nat) : DByte := (s.byteAt a, s.poisoned a)

/-- `n` bytes from an address. -/
def State.readMem (s : State) (a n : Nat) : List DByte := (List.range n).map fun i => s.dbyteAt (a + i)

/-- Bytes written in ascending order of address. -/
def putBytes (m : List Host.Cell) (a : Nat) : List DByte → List Host.Cell
  | [] => m
  | b :: r => putBytes (SMap.set memDefault m a b.1) (a + 1) r

/-- The bytes of a write that fall in the unit at `u`. -/
def inUnit (u a : Nat) (bs : List DByte) : List DByte :=
  ((List.range bs.length).zip bs).filterMap fun p => if unitBase (a + p.1) = u then some p.2 else none

/-- First addresses of the units a write touches. -/
def unitsOf (a n : Nat) : List Nat :=
  let z := unitSize a
  if n = 0 then [] else (List.range ((a % z + n + z - 1) / z)).map fun k => unitBase a + z * k

/-- The poison marks after a write (R184): a unit written with any poisoned byte is marked, one wholly written clean is
cleared, any other keeps its mark. -/
def psnAfter (psn : List Nat) (a : Nat) (bs : List DByte) : List Nat :=
  (unitsOf a bs.length).foldl (fun l u =>
    let w := inUnit u a bs
    if w.any Prod.snd then insertN u l
    else if w.length = unitSize a then l.filter (· ≠ u) else l) psn

/-- Locations a clean write of their whole word or granule arms again (R475). -/
def armWritten (s : State) (a : Nat) (bs : List DByte) : State :=
  let ch := bits a 46 2
  let ty := if bits a 44 2 = 0 then 7 else 5
  match SMap.get? s.fcs ch with
  | none => s
  | some fc =>
    if fc.locs.isEmpty then s
    else
      let hit (e : LocEnt) : Bool := decide (e.ty = ty) &&
        (let u := unitBase (e.loc % 2 ^ 48)
         let w := inUnit u a bs
         decide (w.length = unitSize a) && !w.any Prod.snd)
      { s with fcs := SMap.put s.fcs ch { fc with locs := fc.locs.map fun e => if hit e then { e with armed := true } else e } }

/-- A repair copies a block of a bank of a cluster's depot: accesses to the bank wait (R480, Table 22-3). -/
def depotCopying (s : State) (ch c bank : Nat) : Bool :=
  (SMap.get {} s.fcs ch).repairs.any fun r => decide (r.ty = 5 ∧ r.unit = c * 32 + bank)

/-- A range of a cluster's depot lies in part in a bank whose accesses wait. -/
def depotCopies (s : State) (ch c off n : Nat) : Bool :=
  (List.range ((off % 128 + n + 127) / 128)).any fun k => depotCopying s ch c ((off / 128 + k) % 32)

/-- A write performed in memory: the one operation that changes its bytes and marks. -/
def State.writeMem (s : State) (a : Nat) (bs : List DByte) : State :=
  armWritten { s with mem := putBytes s.mem a bs, psn := psnAfter s.psn a bs } a bs

/-- A word or granule marked poisoned (R473). -/
def State.markPoison (s : State) (a : Nat) : State := { s with psn := insertN (unitBase a) s.psn }

/-- Every byte of a range cleared, marks included (R389, R568). -/
def State.zeroMem (s : State) (a n : Nat) : State :=
  { s with mem := s.mem.filter (fun c => !(decide (a ≤ c.1) && decide (c.1 < a + n))),
           psn := s.psn.filter (fun u => !(decide (a ≤ u) && decide (u < a + n))) }

/-- Clean bytes. -/
def cleanBytes (bs : List Byte) : List DByte := bs.map fun b => (b, false)

/-- Little-endian value of bytes in flight. -/
def dNat (bs : List DByte) : Nat := leNat (bs.map Prod.fst)

/-- Little-endian bytes of a value, clean. -/
def dBytes (n v : Nat) : List DByte := cleanBytes (leBytes n v)

def anyPsn (bs : List DByte) : Bool := bs.any Prod.snd

/-- Address of a depot byte. -/
def depotAt (ch cl off : Nat) : Nat := ch * 2 ^ 46 + 2 ^ 44 + cl * 2 ^ 22 + off

/-- Address of an HBM byte. -/
def hbmAt (ch off : Nat) : Nat := ch * 2 ^ 46 + off

/-- Bytes of a depot. -/
def depotSize : Nat := 3670016

end Sys2Proof.Machine
end

