-- ==== Sys2Proof/Machine/Lanes.lean ====
section
/-! DEFINITION. HBM lanes (R180 to R182): the lane list, the place of an offset in a stack, and what a rebuilt list does to the
contents. -/

namespace Sys2Proof.Machine

/-- A lane list over the stack sites of a bit set, with pairs left out; a pair is `4 × pseudo-channel + site` (R180). -/
def lanesOfSites (sites : Nat) (out : List Nat) : List Nat := (List.range 128).filter fun u => bit sites (u % 4) && !out.contains u

/-- The lane list of a channel. -/
def laneList (s : State) (ch : Nat) : List Nat := lanesOfSites (s.fget Fld.CH_HBMMAP_SITES ch) (SMap.get [] s.absentLanes ch)

/-- Place of an HBM offset under a lane list (R181): the pair, and the byte address within its pseudo-channel. -/
def hbmPlace (l : List Nat) (off : Nat) : Nat × Nat :=
  let g := off / 64
  (l.getD (g % l.length) 0, 64 * (g / l.length) + off % 64)

/-- The offset that has a place under a lane list; none where the list leaves the pair out. -/
def hbmOffset (l : List Nat) (p : Nat × Nat) : Option Nat :=
  (findIdx? (fun u => decide (u = p.1)) l).map fun k => 64 * (p.2 / 64 * l.length + k) + p.2 % 64

/-- The pair a granule maps to. -/
def granuleLane (s : State) (ch g : Nat) : Nat := (hbmPlace (laneList s ch) (64 * g)).1

/-- Bank and row of a location of an HBM unit, which the spec leaves open (log entry 78). -/
def hbmRowOf (s : State) (ch u loc : Nat) : Nat × Nat := Config.hbmRow u (hbmPlace (laneList s ch) (loc % 2 ^ 44)).2

/-- A repair copies the row that holds a granule: accesses to the row wait (R480). -/
def hbmCopying (s : State) (ch g : Nat) : Bool :=
  (SMap.get {} s.fcs ch).repairs.any fun r => decide (r.ty = 7 ∧ r.unit = granuleLane s ch g) &&
    (decide (r.loc % 2 ^ 44 / 64 = g) || decide (hbmRowOf s ch r.unit r.loc = hbmRowOf s ch r.unit (64 * g)))

/-- An address of a channel's HBM. -/
def inHbm (ch a : Nat) : Bool := decide (a / 2 ^ 44 = 4 * ch)

/-- The address under a new lane list of the byte that had an address under an old one; other memory stays where it is. -/
def relayAddr (ch : Nat) (old new : List Nat) (a : Nat) : Option Nat :=
  if inHbm ch a then (hbmOffset new (hbmPlace old (a % 2 ^ 44))).map (hbmAt ch) else some a

/-- The bytes of a memory after the change of a channel's lane list. -/
def relayMem (ch : Nat) (old new : List Nat) (m : List Host.Cell) : List Host.Cell :=
  m.foldl (fun t c => match relayAddr ch old new c.1 with
    | some a => SMap.set memDefault t a c.2
    | none => t) []

/-- A channel's HBM is addressed by the list as it now stands: what the stacks hold keeps its place in them (R182). -/
def relayout (s : State) (ch : Nat) : State :=
  let old := SMap.get (lanesOfSites (partStacks s.part) []) s.laid ch
  let new := laneList s ch
  if old = new then s
  else
    { s with mem := relayMem ch old new s.mem
             psn := s.psn.foldl (fun l u => match relayAddr ch old new u with
               | some a => insertN a l
               | none => l) []
             laid := SMap.put s.laid ch new }

end Sys2Proof.Machine
end

