-- ==== Sys2Proof/Machine/Rpt.lean ====
section
/-! DEFINITION. Address checks: offsets (R172), absent and retired targets (R22 to R24, R33), and the permissions of the Region
Permission Table (R374 to R380). -/

namespace Sys2Proof.Machine

/-- Table 18-3 for HBM, depot and control space, with the tables `tab` of each channel: `ch` the issuing channel, 4 for the
hub. -/
def permitMem (s : State) (tab : Nat → SMap Word) (ch f : Nat) (host write : Bool) (a len : Nat) : Bool :=
  if f = 0 then true
  else
    let tc := tgaCh a
    let own := isOwnPkg s a
    let rec? := fnRec (tab tc) f
    let t := if ch < 4 then tab ch else tab tc
    if own && !recValid rec? then false
    else if tgaSpace a = 3 then
      !host && own && decide (tc = ch) && decide (0x1000000 ≤ tgaOff a) &&
        (recClmask rec?).testBit ((tgaOff a - 0x1000000) / 0x80000)
    else if decide (tgaSpace a = 1) && own && decide (tc = ch ∨ ch = 4) && (recClmask rec?).testBit (tgaCl a) then true
    else anyWin t f write a len

/-- The valid form of an offset (Table 8-2); HBM's size is judged only where `size` is given. -/
def offsetOk (size : Option Nat) (a len : Nat) : Bool :=
  match tgaSpace a with
  | 0 => match size with
    | some n => decide (tgaOff a + len ≤ n)
    | none => decide (tgaOff a + len ≤ 2 ^ 44)
  | 1 => decide (bits a 29 15 = 0) && decide (tgaCl a < 96) && decide (bits a 0 22 + len ≤ depotSize)
  | 2 => decide (bits a 19 25 = 0) && decide (bits a 0 3 = 0)
  | _ => decide (tgaOff a + len ≤ 2 ^ 26)

/-- Channel absent, package out of range (R22 to R24) or target channel retired (R175). -/
def targetCode (s : State) (a : Nat) : Nat :=
  if isOwnPkg s a then
    if !s.chPresent (tgaCh a) then cUnitAbsent
    else if s.retired (tgaCh a) then cChannelRetired else 0
  else if !podMode s then cUnitAbsent
  else if 32768 ≤ tgaPkg a then cUnitAbsent
  else 0

/-- A fenced cluster of this package is the target (Table 2-2). -/
def fencedTarget (s : State) (a : Nat) : Bool :=
  decide (tgaSpace a = 1) && isOwnPkg s a && s.fbit Fld.CL_CAPS_FENCED (clLoc (tgaCh a) (tgaCl a))

/-- Every check of a memory or control access made at issue, in order: sync space (R174), the target (R22 to R24, R175),
the offset (R172), a fenced cluster (R33), the Region Permission Table (R379). -/
def accessCodeWith (s : State) (tab : Nat → SMap Word) (ch : Nat) (fn : Option Nat) (host write : Bool) (a len : Nat) :
    Nat :=
  if tgaSpace a = 2 then cCfgIgnored
  else if targetCode s a ≠ 0 then targetCode s a
  else
    let size := if isOwn s ch a || (decide (ch = 4) && isOwnPkg s a) then some (s.fget Fld.CH_HBMSIZE_SIZE (tgaCh a)) else none
    if !offsetOk size a len then cUnitAbsent
    else if fencedTarget s a then cUnitAbsent
    else match fn with
      | none => 0
      | some f => if permitMem s tab ch f host write a len then 0 else cRptViolation

/-- The checks of an access issued in a channel. -/
def accessCode (s : State) (ch : Nat) (fn : Option Nat) (write : Bool) (a len : Nat) : Nat :=
  accessCodeWith s s.rpt ch fn false write a len

/-- The checks of a host access, made with the hub's copies (R383). -/
def hostCode (s : State) (f : Nat) (write : Bool) (a len : Nat) : Nat :=
  accessCodeWith s (fun c => SMap.get [] s.rptHub c) 4 (some f) true write a len

/-- The range of sync objects and of queues a function may reach in a target (Table 18-3): the target channel's record, or
the issuing channel's when the target is in another package. -/
def rangeRec (s : State) (ch f a : Nat) : Nat := s.fnrec (if isOwnPkg s a then tgaCh a else ch) f

/-- The checks of a sync operation (R172, R243). -/
def syncCode (s : State) (ch : Nat) (fn : Option Nat) (a : Nat) : Nat :=
  if targetCode s a ≠ 0 then targetCode s a
  else if !offsetOk none a 0 then cUnitAbsent
  else match fn with
    | none => 0
    | some f =>
      if f = 0 then 0
      else
        let r := rangeRec s ch f a
        let i := bits a 3 16
        if recValid r && decide (recSyncBase r ≤ i) && decide (i < recSyncBase r + recSyncCnt r) then 0
        else cRptViolation

/-- A refusal of the table recorded in the offending function's block (R386); the dailies record of the channel's fault controller
is of the first since that function's `VF_RPTERR` was read. -/
def fnErr (s : State) (ch f code a : Nat) : State :=
  let first := decide (s.fget Fld.VF_RPTERR_COUNT f = 0)
  let s := (s.record Fld.VF_RPTERR_CODE Fld.VF_RPTERR_COUNT f code).fset Fld.VF_RPTERRADDR_ADDR f 0 a
  if first then dlyRecord s ch 6 code 127 f a else s

/-- A refusal of the table recorded in the channel and in the offending function's block (R386). -/
def rptErr (s : State) (ch f code a : Nat) : State :=
  fnErr (((s.record Fld.CH_RPTERR_CODE Fld.CH_RPTERR_COUNT ch code).fset Fld.CH_RPTERR_FUNC ch 0 f).fset
    Fld.CH_RPTERRADDR_TGA ch 0 a) ch f code a

/-- A refusal reported where its code is `RPT_VIOLATION`. -/
def refusedBy (s : State) (ch : Nat) (fn : Option Nat) (code a : Nat) : State :=
  match fn with
  | some f => if code = cRptViolation then rptErr s ch f code a else s
  | none => s

end Sys2Proof.Machine
end

