-- ==== Sys2Proof/Machine/Cells.lean ====
section
/-! DEFINITION. Access to the tiles, clusters and channels of the state, and the progress monitor's view (R262). -/

namespace Sys2Proof.Machine

def State.clu (s : State) (ch c : Nat) : Cluster := SMap.get {} s.cls (clLoc ch c)

def State.setClu (s : State) (ch c : Nat) (f : Cluster → Cluster) : State :=
  { s with cls := SMap.put s.cls (clLoc ch c) (f (s.clu ch c)) }

def State.tl (s : State) (ch c t : Nat) : Tile := SMap.get {} s.tiles (tlLoc ch c t)

def State.setTl (s : State) (ch c t : Nat) (f : Tile → Tile) : State :=
  { s with tiles := SMap.put s.tiles (tlLoc ch c t) (f (s.tl ch c t)) }

def State.chan (s : State) (ch : Nat) : Chan := SMap.get {} s.chans ch

def State.setChan (s : State) (ch : Nat) (f : Chan → Chan) : State :=
  { s with chans := SMap.put s.chans ch (f (s.chan ch)) }

/-- Function of a cluster: that of the load that placed its section (R374). -/
def clFn (s : State) (ch c : Nat) : Option Nat := (s.clu ch c).owner.map Prod.snd

/-- A gate of a cluster (R155, R159). -/
def gateOut (s : State) (ch c : Nat) : Bool := s.fbit Fld.CL_GATE_OUT (clLoc ch c)
def gateWr (s : State) (ch c : Nat) : Bool := s.fbit Fld.CL_GATE_WR (clLoc ch c)

/-- The cluster's district is clocked. -/
def clocked (s : State) (ch c : Nat) : Bool := !(SMap.get {} s.dists (dstLoc ch (clDistrict c))).pllLost

/-- A progress event in a cluster: its age restarts, and `STUCK` clears (R262). -/
def progress (s : State) (ch c : Nat) : State :=
  if (s.clu ch c).watched then
    if s.fbit Fld.CL_SIDSTAT_STUCK (clLoc ch c) then s.fset Fld.CL_SIDSTAT_STUCK (clLoc ch c) 0 0 else s
  else s

/-- The district did work in this epoch (R463). -/
def districtBusy (s : State) (ch d : Nat) : State :=
  { s with dists := SMap.put s.dists (dstLoc ch d) { SMap.get {} s.dists (dstLoc ch d) with active := true } }

/-- A list entry of a table of lists. -/
def lst {α : Type} (m : SMap (List α)) (k : Nat) : List α := SMap.get [] m k

/-- A list replaced, an empty one not listed. -/
def setLst {α : Type} (m : SMap (List α)) (k : Nat) (l : List α) : SMap (List α) :=
  if l.isEmpty then SMap.erase m k else SMap.put m k l

/-- A count changed, 0 not listed. -/
def setCnt (m : SMap Nat) (k n : Nat) : SMap Nat := SMap.set 0 m k n

def cnt (m : SMap Nat) (k : Nat) : Nat := SMap.get 0 m k

/-- Credits usable into a queue of 8 flits (R44). -/
def room8 (q : SMap (List Flit)) (ret : SMap Nat) (k : Nat) : Nat := 8 - ((lst q k).length + cnt ret k)

end Sys2Proof.Machine
end

