-- ==== Sys2Proof/Machine/Takes.lean ====
section
/-! DEFINITION. Take slots: deferred exception records (R134, R285), the marks of tiles and buffers at commit and squash (R73,
R218), and the holding pen's room (R278, R279). -/

namespace Sys2Proof.Machine

/-- Entries of the holding pen (R278). -/
def penSize : Nat := 8192

def takeSlot (s : State) (ch c k : Nat) : TakeSlot := SMap.get {} (s.clu ch c).take k

def takeOpen (s : State) (ch c k : Nat) : Bool := (takeSlot s ch c k).isOpen

def setTake (s : State) (ch c k : Nat) (f : TakeSlot → TakeSlot) : State :=
  s.setClu ch c fun cl => { cl with take := SMap.put cl.take k (f (SMap.get {} cl.take k)) }

/-- An exception deferred against a slot: the first is kept, and a closed slot keeps none (R276, R285). -/
def deferRec (s : State) (ch c k : Nat) (r : DefRec) : State :=
  if takeOpen s ch c k && (takeSlot s ch c k).rec?.isNone then setTake s ch c k fun t => { t with rec? := some r } else s

/-- A record of a tile under R90 or R91. -/
def deferTile (s : State) (ch c t pc k : Nat) : State := deferRec s ch c k ⟨cTakeDeferred, 0, pc + t * 2 ^ 8⟩

/-- A record placed in the pen (R278); the caller has seen room. -/
def penPut (s : State) (ch c : Nat) (k : Fin 4) (r : PenRec) : State :=
  let s := s.setClu ch c fun cl => { cl with pen := cl.pen ++ [(k, r)] }
  let n := (s.clu ch c).pen.length
  let s := pmCount s ch 0x09 c 1
  if s.fget Fld.CL_PENSTAT_HIGH (clLoc ch c) < n then s.fset Fld.CL_PENSTAT_HIGH (clLoc ch c) 0 n else s

def penFull (s : State) (ch c : Nat) : Bool := decide (penSize ≤ (s.clu ch c).pen.length)

/-- Tile registers and rows at commit of slot `k`: mark cleared (R73). -/
def tileCommit (k : Fin 4) (t : Tile) : Tile :=
  { t with
    vregs := t.vregs.map fun p => (p.1, if p.2.mark = some k then { p.2 with mark := none } else p.2)
    pregs := t.pregs.map fun p => (p.1, if p.2.mark = some k then { p.2 with mark := none } else p.2)
    rows := t.rows.map fun p => (p.1, if p.2.mark = some k then { p.2 with mark := none } else p.2)
    take := if t.take = some k then none else t.take }

/-- Tile registers and rows at squash of slot `k`: marked ones become poisoned (R73, R567). -/
def tileSquash (k : Fin 4) (t : Tile) : Tile :=
  { t with
    vregs := t.vregs.map fun p => (p.1, if p.2.mark = some k then { p.2 with mark := none, psn := true } else p.2)
    pregs := t.pregs.map fun p => (p.1, if p.2.mark = some k then { p.2 with mark := none, psn := true } else p.2)
    rows := t.rows.map fun p => (p.1, if p.2.mark = some k then { p.2 with mark := none, psn := 0xFF#8 } else p.2)
    take := if t.take = some k then none else t.take }

/-- Every tile of a cluster changed. -/
def mapTiles (s : State) (ch c : Nat) (f : Tile → Tile) : State :=
  { s with tiles := s.tiles.map fun p => if p.1 / 64 = clLoc ch c then (p.1, f p.2) else p }

end Sys2Proof.Machine
end

