-- ==== Sys2Proof/Machine/Net.lean ====
section
/-! DEFINITION. Requests entering a channel's fabric, error registers of buffers, queues and sync signals, and the signals of
buffers, queues and descriptors (R216, R242, R247). -/

namespace Sys2Proof.Machine

/-- RPT epoch in force in a channel (R381). -/
def epochOf (s : State) (ch : Nat) : Nat := s.fget Fld.CH_RPTSTAT_EPOCH ch

/-- A request appended to the channel's requests. -/
def pushReq (s : State) (ch : Nat) (r : Req) : State :=
  s.setChan ch fun c => { c with reqs := c.reqs ++ [{ r with no := c.nextNo }], nextNo := c.nextNo + 1 }

/-! Accesses of the units beside the clusters: a unit asks for the ranges it needs, piece by piece, and goes on when they are back
(R191, R193). -/

/-- Pieces of at most 512 bytes of a range. -/
def unitPieces (a n : Nat) : List (Nat × Nat) :=
  (rangeFrom (a / 512) ((a + n + 511) / 512 - a / 512)).map fun b =>
    let lo := max a (512 * b)
    (lo, min (a + n) (512 * b + 512) - lo)

/-- The request of a unit for a piece. -/
def unitReq (s : State) (ch u : Nat) (wr : Bool) (p : Nat × Nat) : Option Req :=
  (s.chan ch).reqs.find? fun r => decide (r.ret = .unit u p.1 p.2 wr)

/-- A unit asks for a piece, unless it has. -/
def unitAskOne (ch u cl : Nat) (fn : Option Nat) (wr : Bool) (op : Nat × Nat → ROp) (s : State) (p : Nat × Nat) : State :=
  if (unitReq s ch u wr p).isSome then s
  else pushReq s ch { ret := .unit u p.1 p.2 wr, fn := fn, epoch := epochOf s ch, cl := cl, tga := p.1, op := op p, cls := ofBit wr, place := .table }

/-- A unit asks for what it has to read. -/
def unitAsk (s : State) (ch u cl : Nat) (fn : Option Nat) (l : List (Nat × Nat)) : State :=
  (l.flatMap fun t => unitPieces t.1 t.2).foldl (unitAskOne ch u cl fn false fun p => .read p.2) s

/-- Every piece of ranges is back. -/
def unitBack (s : State) (ch u : Nat) (wr : Bool) (l : List (Nat × Nat)) : Bool :=
  (l.flatMap fun t => unitPieces t.1 t.2).all fun p => (unitReq s ch u wr p).any fun r => decide (r.place = .done)

/-- The bytes of a range as they came back; what a failed read did not bring counts as poisoned. -/
def unitGot (s : State) (ch u a n : Nat) : List DByte :=
  (unitPieces a n).flatMap fun p =>
    match unitReq s ch u false p with
    | some r => if r.data.length = p.2 then r.data else List.replicate p.2 (0#8, true)
    | none => List.replicate p.2 (0#8, true)

/-- The first failing code among the pieces of a range. -/
def unitCode (s : State) (ch u : Nat) (wr : Bool) (a n : Nat) : Nat :=
  (((unitPieces a n).filterMap fun p => (unitReq s ch u wr p).map Req.code).find? fun c => !codeOk c).getD 0

/-- A unit's accesses leave it: what has not been issued goes, what is on its way answers nobody. -/
def unitDrop (s : State) (ch u : Nat) : State :=
  let mine (r : Req) : Bool := match r.ret with | .unit v _ _ _ => decide (v = u) | _ => false
  s.setChan ch fun k =>
    { k with reqs := (k.reqs.filter fun r => !(mine r && decide (r.place = .done ∨ r.place = .table))).map fun r =>
        if mine r then { r with ret := .drop } else r }

/-- A unit is done with what it has read. -/
def unitForget (s : State) (ch u : Nat) : State :=
  let mine (r : Req) : Bool := match r.ret with | .unit v _ _ wr => decide (v = u) && !wr | _ => false
  s.setChan ch fun k =>
    { k with reqs := (k.reqs.filter fun r => !(mine r && decide (r.place = .done ∨ r.place = .table))).map fun r =>
        if mine r then { r with ret := .drop } else r }

/-- The writes of a unit for bytes at an address, piece by piece. -/
def unitPut (s : State) (ch u cl : Nat) (fn : Option Nat) (a : Nat) (b : List DByte) : State :=
  (unitPieces a b.length).foldl (fun s p => pushReq s ch
    { ret := .unit u p.1 p.2 true, fn := fn, epoch := epochOf s ch, cl := cl, tga := p.1
      op := .write ((b.drop (p.1 - a)).take p.2), cls := 1, place := .table }) s

/-- `CH_SYNCERR` (R247). -/
def syncErr (s : State) (ch code idx : Nat) : State :=
  (s.record Fld.CH_SYNCERR_CODE Fld.CH_SYNCERR_COUNT ch code).fset Fld.CH_SYNCERR_INDEX ch 0 idx

/-- `CL_SBERR` (chapter 9). -/
def sbErr (s : State) (ch c n code : Nat) : State :=
  (s.record Fld.CL_SBERR_CODE Fld.CL_SBERR_COUNT (clLoc ch c) code).fset Fld.CL_SBERR_BUF (clLoc ch c) 0 n

/-- `CL_QERR` (chapter 10). -/
def qErr (s : State) (ch c q route code : Nat) : State :=
  ((s.record Fld.CL_QERR_CODE Fld.CL_QERR_COUNT (clLoc ch c) code).fset Fld.CL_QERR_QUEUE (clLoc ch c) 0 q).fset
    Fld.CL_QERR_ROUTE (clLoc ch c) 0 route

/-- `CH_MEMERR` (chapter 8). -/
def memErr (s : State) (ch code a : Nat) : State :=
  (s.record Fld.CH_MEMERR_CODE Fld.CH_MEMERR_COUNT ch code).fset Fld.CH_MEMERRADDR_TGA ch 0 a

/-- Absolute number of a sync object named relative to the range of a cluster's function (R242). -/
def absSync (s : State) (ch : Nat) (fn : Option Nat) (i : Nat) : Nat :=
  match fn with
  | none => i
  | some f => recSyncBase (s.fnrec ch f) + i

/-- A failed signal of a buffer (kind 1) shows in `CL_SBERR` too (R216), any other in `CH_SYNCERR` (R247). -/
def signalErr (s : State) (ch kind c n code idx : Nat) : State :=
  let s := syncErr s ch code idx
  if kind = 1 then sbErr s ch c n code else s

/-- The add of 1 that a descriptor (0), buffer (1) or queue (2) of a cluster sends to object `i` of a function's range; the
signals of a function that is being disabled are suppressed (R388). -/
def signalFor (s : State) (ch kind c n : Nat) (fn : Option Nat) (i : Nat) : State :=
  if fn.any fun f => (SMap.get? (s.chan ch).scrubs f).isSome then s else
  let o := absSync s ch fn i
  let a := mkTga (ownPkg s) ch 2 (8 * o)
  let code := syncCode s ch fn a
  if code ≠ 0 then signalErr (refusedBy s ch fn code a) ch kind c n code o
  else pushReq s ch
    { ret := .signal kind c n, fn := fn, epoch := epochOf s ch, cl := c, tga := a, op := .sync .add 1, cls := 1, place := .bank }

/-- The same for the cluster's own function. -/
def signalAdd (s : State) (ch kind c n i : Nat) : State := signalFor s ch kind c n (clFn s ch c) i

/-- A descriptor's `KIND`, `DST`, `LENGTH`, `SRC` (Table 6-6). -/
def DSlot.dw (d : DSlot) (i : Nat) : Nat := d.desc.getD i 0
def DSlot.kind (d : DSlot) : Nat := bits (d.dw 2) 32 8
def DSlot.src (d : DSlot) : Nat := d.dw 0
def DSlot.dst (d : DSlot) : Nat := d.dw 1
def DSlot.len (d : DSlot) : Nat := bits (d.dw 2) 0 32

/-- Buffer of `KIND` 0x3, and whether its source is an EGC stream. -/
def DSlot.buf (d : DSlot) : Nat := bits d.dst 0 5
def DSlot.egc (d : DSlot) : Bool := decide (d.kind = 1) || (decide (d.kind = 3) && bit d.dst 5)

/-- The descriptor still runs or waits to run. -/
def DSlot.live (d : DSlot) : Bool := !d.complete

/-- A request of a cluster's stewards, dolly, egress table or signals. -/
def RetTo.ofCluster (c : Nat) : RetTo → Bool
  | .posted w | .load w _ | .sync w => decide (w / 2 = c)
  | .dolly k _ _ _ | .egress k _ => decide (k = c)
  | _ => false

end Sys2Proof.Machine
end

