-- ==== Sys2Proof/Machine/Float.lean ====
section
/-! DEFINITION. Number formats, exact values, rounding and exception flags (chapter 5). -/

namespace Sys2Proof.Machine

/-- Exception flags of `TL_FLAGS` (Table 5-4): bit 0 invalid, 1 divide by zero, 2 overflow, 3 underflow, 4 inexact. -/
abbrev Flags := BitVec 5
def flIV : Flags := 1#5
def flDZ : Flags := 2#5
def flOV : Flags := 4#5
def flUF : Flags := 8#5
def flIX : Flags := 16#5

/-- How a floating format uses its all-ones exponent (R94). -/
inductive FKind
  | ieee
  | e5m2
  | e4m3
  | e2m1
  deriving DecidableEq, Repr

/-- A floating format of Table 5-1. -/
structure Fmt where
  eb : Nat
  fb : Nat
  bias : Nat
  kind : FKind
  deriving DecidableEq, Repr

def fp32 : Fmt := ⟨8, 23, 127, .ieee⟩
def bf16 : Fmt := ⟨8, 7, 127, .ieee⟩
def fp16 : Fmt := ⟨5, 10, 15, .ieee⟩
def fe4m3 : Fmt := ⟨4, 3, 7, .e4m3⟩
def fe5m2 : Fmt := ⟨5, 2, 15, .e5m2⟩
def fe2m1 : Fmt := ⟨2, 1, 1, .e2m1⟩

/-- FP32, BF16 and FP16: the formats flush-to-zero acts on (R103). -/
def Fmt.wide (f : Fmt) : Bool := decide (f.kind = .ieee)

/-- `TL_MODE` (R100, R103, R104, R110). -/
structure FMode where
  rnd : Nat
  ftz : Bool
  sat : Bool
  stoch : Bool
  deriving DecidableEq, Repr

/-- Round to nearest even, nothing flushed. -/
def rneMode : FMode := ⟨0, false, false, false⟩

/-- `TL_MODE` from its register value. -/
def FMode.ofReg (n : Nat) : FMode := ⟨bits n 0 2, bit n 2, bit n 3, bit n 4⟩

/-- An exact floating value: NaN (signalling or not), infinity, or `(-1)^neg * m * 2^e`. -/
inductive FVal
  | nan (sig : Bool)
  | inf (neg : Bool)
  | fin (neg : Bool) (m : Nat) (e : Int)
  deriving DecidableEq, Repr

/-- The value of an element's bits, before any flush (R94, R97). -/
def Fmt.value (f : Fmt) (n : Nat) : FVal :=
  let s := bit n (f.eb + f.fb)
  let ex := bits n f.fb f.eb
  let fr := bits n 0 f.fb
  if ex = 0 then .fin s fr (1 - (f.bias : Int) - f.fb)
  else if ex = 2 ^ f.eb - 1 ∧ f.kind = .ieee then
    if fr = 0 then .inf s else .nan (decide (fr < 2 ^ (f.fb - 1)))
  else if ex = 2 ^ f.eb - 1 ∧ f.kind = .e5m2 then
    if fr = 0 then .inf s else .nan false
  else if ex = 2 ^ f.eb - 1 ∧ f.kind = .e4m3 ∧ fr = 7 then .nan false
  else .fin s (fr + 2 ^ f.fb) ((ex : Int) - f.bias - f.fb)

/-- The value of an operand: subnormals of the wide formats read as zero under `FTZ` (R103). -/
def Fmt.operand (f : Fmt) (md : FMode) (n : Nat) : FVal :=
  if md.ftz ∧ f.wide ∧ bits n f.fb f.eb = 0 then .fin (bit n (f.eb + f.fb)) 0 0 else f.value n

/-- The invalid flag of a signalling NaN operand (R97, R98). -/
def FVal.sigFlag : FVal → Flags
  | .nan true => flIV
  | _ => 0

def FVal.isNan : FVal → Bool
  | .nan _ => true
  | _ => false

/-- Canonical NaN of a format (R97); E2M1 has none and takes +6 (Table 5-3). -/
def Fmt.qnan (f : Fmt) : Nat :=
  match f.kind with
  | .ieee => (2 ^ f.eb - 1) * 2 ^ f.fb + 2 ^ (f.fb - 1)
  | .e5m2 => 0x7E
  | .e4m3 => 0x7F
  | .e2m1 => 0x7

/-- Bits of an infinity. -/
def Fmt.infBits (f : Fmt) (neg : Bool) : Nat :=
  ofBit neg * 2 ^ (f.eb + f.fb) + (2 ^ f.eb - 1) * 2 ^ f.fb

/-- Bits of the largest finite magnitude M, with a sign (Table 5-1). -/
def Fmt.maxBits (f : Fmt) (neg : Bool) : Nat :=
  ofBit neg * 2 ^ (f.eb + f.fb) +
  match f.kind with
  | .ieee => (2 ^ f.eb - 1) * 2 ^ f.fb - 1
  | .e5m2 => 0x7B
  | .e4m3 => 0x7E
  | .e2m1 => 0x7

/-- M as significand and power of two. -/
def Fmt.maxVal (f : Fmt) : Nat × Int :=
  match f.kind with
  | .e4m3 => (14, 5)
  | .e2m1 => (3, 1)
  | _ => (2 ^ (f.fb + 1) - 1, ((2 ^ f.eb - 2 : Nat) : Int) - f.bias - f.fb)

/-- `n * 2^q` compared with `n' * 2^q'`: the two as numbers over one power of two. -/
def alignMag (n : Nat) (q : Int) (n' : Nat) (q' : Int) : Nat × Nat :=
  let lo := min q q'
  (n * 2 ^ (q - lo).toNat, n' * 2 ^ (q' - lo).toNat)

def gtMag (n : Nat) (q : Int) (n' : Nat) (q' : Int) : Bool :=
  let p := alignMag n q n' q'
  decide (p.2 < p.1)

/-- Rounding of `m * 2^e` to a multiple of `2^q` in one of the modes of Table 5-2; the multiple, and whether it is
inexact (R100). -/
def roundTo (rnd : Nat) (neg : Bool) (m : Nat) (e q : Int) : Nat × Bool :=
  if q ≤ e then (m * 2 ^ (e - q).toNat, false)
  else
    let sh := (q - e).toNat
    let n := m >>> sh
    let r := m % 2 ^ sh
    if r = 0 then (n, false)
    else
      let up :=
        match rnd with
        | 0 => decide (2 ^ sh < 2 * r) || (decide (2 * r = 2 ^ sh) && decide (n % 2 = 1))
        | 1 => false
        | 2 => !neg
        | _ => neg
      (if up then n + 1 else n, true)

/-- Overflow result and flags (R101, Table 5-2, Table 5-3). -/
def Fmt.overflow (f : Fmt) (md : FMode) (rnd : Nat) (neg : Bool) : Nat × Flags :=
  let toInf := match rnd with
    | 0 => true
    | 1 => false
    | 2 => !neg
    | _ => neg
  let r :=
    match f.kind with
    | .ieee => if toInf then f.infBits neg else f.maxBits neg
    | .e5m2 => if md.sat then f.maxBits neg else if toInf then f.infBits neg else f.maxBits neg
    | .e4m3 => if md.sat then f.maxBits neg else if toInf then f.qnan else f.maxBits neg
    | .e2m1 => f.maxBits neg
  (r, flOV ||| flIX)

/-- A finite non-zero magnitude rounded once into a format, with its flags (R100 to R104, R110). `draw` is the
lane's stochastic draw where R110 applies. -/
def Fmt.encodeFin (f : Fmt) (md : FMode) (draw : Option Nat) (neg : Bool) (m : Nat) (e : Int) : Nat × Flags :=
  let sb := ofBit neg * 2 ^ (f.eb + f.fb)
  if m = 0 then (sb, 0)
  else
    let top : Int := e + m.log2
    let qU := top - f.fb
    let qmin : Int := 1 - (f.bias : Int) - f.fb
    let q := max qU qmin
    let mx := f.maxVal
    match draw with
    | none =>
      let u := roundTo md.rnd neg m e qU
      if gtMag u.1 qU mx.1 mx.2 then f.overflow md md.rnd neg
      else
        let tiny := gtMag (2 ^ f.fb) qmin u.1 qU
        if tiny && md.ftz && f.wide then (sb, flUF ||| flIX)
        else
          let r := roundTo md.rnd neg m e q
          (sb + ((q - qmin).toNat * 2 ^ f.fb + r.1),
           if r.2 then (if tiny then flUF ||| flIX else flIX) else 0)
    | some d =>
      let lo := (roundTo 1 neg m e q)
      let hi := if q ≤ e then 0 else
        let sh := (q - e).toNat
        let g := (m % 2 ^ sh) * 65536 / 2 ^ sh
        if 65536 ≤ g + d then 1 else 0
      let n := lo.1 + hi
      let tiny := gtMag (2 ^ f.fb) qmin m e
      if gtMag n q mx.1 mx.2 then f.overflow md 0 neg
      else if tiny && md.ftz && f.wide then (sb, flUF ||| flIX)
      else
        (sb + ((q - qmin).toNat * 2 ^ f.fb + n),
         if lo.2 then (if tiny then flUF ||| flIX else flIX) else 0)

/-- A value written into a format (R97, R100 to R104, Table 5-3). -/
def Fmt.encode (f : Fmt) (md : FMode) (draw : Option Nat) : FVal → Nat × Flags
  | .nan _ => (f.qnan, if f.kind = .e2m1 then flIV else 0)
  | .inf s =>
    match f.kind with
    | .ieee => (f.infBits s, 0)
    | .e5m2 => if md.sat then (f.maxBits s, flOV ||| flIX) else (f.infBits s, 0)
    | .e4m3 => if md.sat then (f.maxBits s, flOV ||| flIX) else (f.qnan, flIV)
    | .e2m1 => (f.maxBits s, flOV ||| flIX)
  | .fin s m e => f.encodeFin md draw s m e

/-- Sign of a value. -/
def FVal.sign : FVal → Bool
  | .nan _ => false
  | .inf s => s
  | .fin s _ _ => s

def FVal.neg : FVal → FVal
  | .nan g => .nan g
  | .inf s => .inf (!s)
  | .fin s m e => .fin (!s) m e

def FVal.abs : FVal → FVal
  | .nan g => .nan g
  | .inf _ => .inf false
  | .fin _ m e => .fin false m e

/-- Exact product with its invalid flag (R98, R99). -/
def FVal.mul (a b : FVal) : FVal × Flags :=
  let s := xor a.sign b.sign
  let fl := a.sigFlag ||| b.sigFlag
  match a, b with
  | .nan _, _ => (.nan false, fl)
  | _, .nan _ => (.nan false, fl)
  | .inf _, .fin _ m _ => if m = 0 then (.nan false, fl ||| flIV) else (.inf s, fl)
  | .fin _ m _, .inf _ => if m = 0 then (.nan false, fl ||| flIV) else (.inf s, fl)
  | .inf _, .inf _ => (.inf s, fl)
  | .fin _ m e, .fin _ m' e' => (.fin s (m * m') (e + e'), fl)

/-- The value times a power of two. -/
def FVal.scale (k : Int) : FVal → FVal
  | .fin s m e => .fin s m (e + k)
  | v => v

/-- One exact signed addition of finite parts. -/
def addFin (a b : Int × Int) : Int × Int :=
  let lo := min a.2 b.2
  (a.1 * ((2 ^ (a.2 - lo).toNat : Nat) : Int) + b.1 * ((2 ^ (b.2 - lo).toNat : Nat) : Int), lo)

/-- A finite value as an integer times a power of two. -/
def FVal.parts : FVal → Int × Int
  | .fin s m e => (if s then -(m : Int) else m, e)
  | _ => (0, 0)

def FVal.isZero : FVal → Bool
  | .fin _ m _ => decide (m = 0)
  | _ => false

/-- The exact sum of terms, its invalid flag, and the zero sign of R99 (R98, R105). The terms' own signalling flags
are the caller's. -/
def sumExact (rnd : Nat) (ts : List FVal) : FVal × Flags :=
  if ts.any (· = .inf true) ∧ ts.any (· = .inf false) then (.nan false, flIV)
  else if ts.any FVal.isNan then (.nan false, 0)
  else if ts.any (· = .inf true) then (.inf true, 0)
  else if ts.any (· = .inf false) then (.inf false, 0)
  else
    let t := (ts.map FVal.parts).foldl addFin (0, 0)
    if t.1 = 0 then
      let allNeg := !ts.isEmpty && ts.all FVal.sign
      let allPos := ts.all (fun v => !v.sign)
      (.fin (allNeg || (decide (rnd = 3) && !allPos)) 0 0, 0)
    else (.fin (decide (t.1 < 0)) t.1.natAbs t.2, 0)

/-- Conversion of a value to a `w`-bit integer (R98, R106): saturating, NaN gives 0 with invalid. -/
def FVal.toInt (md : FMode) (w : Nat) : FVal → Nat × Flags
  | .nan _ => (0, flIV)
  | .inf s => (uint w (if s then -((2 ^ (w - 1) : Nat) : Int) else (2 ^ (w - 1) : Nat) - 1), flIV)
  | .fin s m e =>
    let r := roundTo md.rnd s m e 0
    let v : Int := if s then -(r.1 : Int) else r.1
    let hi : Int := (2 ^ (w - 1) : Nat) - 1
    let lo : Int := -((2 ^ (w - 1) : Nat) : Int)
    if hi < v then (uint w hi, flIV)
    else if v < lo then (uint w lo, flIV)
    else (uint w v, if r.2 then flIX else 0)

/-- An integer as a value. -/
def FVal.ofInt (x : Int) : FVal := .fin (decide (x < 0)) x.natAbs 0

/-- Numeric order with −0 below +0 (R107); NaN operands are never compared. -/
def FVal.le (a b : FVal) : Bool :=
  match a, b with
  | .inf true, _ => true
  | _, .inf false => true
  | .inf false, _ => false
  | _, .inf true => false
  | a, b =>
    let x := a.parts
    let y := b.parts
    let d := addFin x (-y.1, y.2)
    if d.1 = 0 then (if a.isZero && b.isZero then a.sign || !b.sign else true) else decide (d.1 < 0)

/-- Comparison of two non-NaN values: equal magnitude and sign, zeros equal. -/
def FVal.numLt (a b : FVal) : Bool :=
  match a, b with
  | .inf true, .inf true => false
  | .inf true, _ => true
  | _, .inf true => false
  | .inf false, _ => false
  | _, .inf false => true
  | a, b => decide ((addFin a.parts (-b.parts.1, b.parts.2)).1 < 0)

def FVal.numEq (a b : FVal) : Bool := !FVal.numLt a b && !FVal.numLt b a

/-- The larger of values, NaNs ignored; NaN only when every value is NaN (R107). -/
def pickMax : List FVal → FVal
  | [] => .nan false
  | v :: r =>
    let w := pickMax r
    if v.isNan then w else if w.isNan then v else if FVal.le v w then w else v

/-- The smaller of values, NaNs ignored (R107). -/
def pickMin : List FVal → FVal
  | [] => .nan false
  | v :: r =>
    let w := pickMin r
    if v.isNan then w else if w.isNan then v else if FVal.le w v then w else v

/-- The union of flags. -/
def orFlags (l : List Flags) : Flags := l.foldl (· ||| ·) 0

/-- E8M0 scale as a power of two; 0xFF is NaN (R94, R96). -/
def e8m0 (s : Nat) : Option Int := if s = 0xFF then none else some ((s : Int) - 127)

/-- Floor of the square root, by bits from the top. -/
def isqrtAux (n : Nat) : Nat → Nat → Nat
  | 0, r => r
  | k + 1, r =>
    let c := r + 2 ^ k
    isqrtAux n k (if c * c ≤ n then c else r)

/-- Floor of the square root of a number below `2^128`. -/
def isqrt (n : Nat) : Nat := isqrtAux n 64 0

/-- Square root of a positive finite value, exact up to a sticky last bit far below the result's precision (R112:
correctly rounded in every mode). -/
def sqrtVal (m : Nat) (e : Int) : FVal :=
  let k := 80 - m.log2
  let k := if (e - (k : Int)) % 2 = 0 then k else k + 1
  let n := m * 2 ^ k
  let r := isqrt n
  .fin false (2 * r + (if r * r = n then 0 else 1)) ((e - (k : Int)) / 2 - 1)

/-- The two consecutive FP32 magnitudes around `num / (den * 2^-e)`, toward zero and away, or the exact one (R112). -/
def quotVal (num den : Nat) (e : Int) : FVal :=
  let k := 80 + den.log2
  let n := num * 2 ^ k
  .fin false (2 * (n / den) + (if n % den = 0 then 0 else 1)) (e - (k : Int) - 1)

end Sys2Proof.Machine
end

