-- ==== Sys2Proof/Machine/TileFn.lean ====
section
/-! DEFINITION. The results of `FN` (R112, Table 5-5): enclosures of the exact functions, the FP32 results that the bounds allow, and a
free choice among them that is monotone where the exact function is (log entry 10). -/

namespace Sys2Proof.Machine

def f32One : Nat := 0x3F800000
def f32Inf : Nat := 0x7F800000
def f32Nan : Nat := 0x7FC00000
def f32Sign : Nat := 0x80000000
def f32Max : Nat := 0x7F7FFFFF
def f32Half : Nat := 0x3F000000

/-! ### Enclosures

A value is enclosed between two integers over `2^fnP`; each side of an enclosure is computed by itself, `up` 0 for the lower and 1 for the
upper one. -/

/-- Fraction bits: more than tanh of the least operand needs to be told from its operand. -/
def fnP : Nat := 560
def fnOne : Nat := 2 ^ fnP

/-- A product's side. -/
def sideMul (up a b : Nat) : Nat := a * b / fnOne + up

/-- A quotient's side. -/
def sideDiv (up a b : Nat) : Nat := a * fnOne / b + up

/-- exp r for r in [0, 1]: its series; what is left of it is below twice the last term. -/
def sideExp (up r : Nat) : Nat :=
  let p := (List.range 130).foldl (fun p k => (p.1 + p.2, p.2 * r / (fnOne * (k + 1)) + up)) (0, fnOne)
  p.1 + up * 2 * p.2

/-- artanh t for t in [0, 1/3]. -/
def sideArtanh (up t : Nat) : Nat :=
  let p := (List.range 180).foldl (fun p k => (p.1 + p.2 / (2 * k + 1) + up, p.2 * t * t / (fnOne * fnOne) + up)) (0, t)
  p.1 + up * 2 * p.2

/-- ln 2 = 2 artanh (1/3). -/
def sideLn2 (up : Nat) : Nat := 2 * sideArtanh up (fnOne / 3 + up)

/-- `2^n × exp r`, where n is not far beyond the exponents of FP32. -/
def sideScale (up : Nat) (n : Int) (r : Nat) : Nat :=
  if n < -300 then up
  else if 0 ≤ n then sideExp up r * 2 ^ n.toNat else sideExp up r / 2 ^ (-n).toNat + up

/-- e^z for z over `2^fnP`: n is chosen so that what is left lies in [0, 1]. -/
def sideExpOf (up : Nat) (z : Int) : Nat :=
  let n := z / (sideLn2 (if 0 ≤ z then 1 else 0) : Int)
  let ln2 := sideLn2 (if 0 ≤ n then 1 - up else up)
  if 128 ≤ n then 2 ^ (128 + fnP) else sideScale up n (z - n * (ln2 : Int)).toNat

/-- 2^z. -/
def sideExp2 (up : Nat) (z : Int) : Nat :=
  let n := z / (fnOne : Int)
  if 128 ≤ n then 2 ^ (128 + fnP) else sideScale up n (sideMul up (z % (fnOne : Int)).toNat (sideLn2 up))

/-- log2 of `m × 2^e`. -/
def sideLog2 (up m : Nat) (e : Int) : Int :=
  let k := m.log2
  (e + k) * (fnOne : Int) + (sideDiv up (2 * sideArtanh up (sideDiv up (m - 2 ^ k) (m + 2 ^ k))) (sideLn2 (1 - up)) : Nat)

/-- The exact function value of `(-1)^s × m × 2^e`: 0 reciprocal and 1 reciprocal square root of the magnitude, 3 2^x, 4 log2, 5 e^x,
6 tanh of the magnitude, 7 logistic sigmoid. -/
def fnSide (up f : Nat) (s : Bool) (m : Nat) (e : Int) : Int :=
  let x : Nat := m * 2 ^ (e + fnP).toNat
  let z : Int := if s then -(x : Int) else x
  match f with
  | 0 => (2 ^ (2 * (fnP : Int) - (e + fnP)).toNat / m + up : Nat)
  | 1 => (isqrtAux (2 ^ (2 * (fnP : Int) - e).toNat / m) 640 0 + up : Nat)
  | 3 => sideExp2 up z
  | 4 => sideLog2 up m e
  | 5 => sideExpOf up z
  | 6 =>
    let q := sideExpOf (1 - up) (-2 * (x : Int))
    (sideDiv up (fnOne - q) (fnOne + q) : Nat)
  | _ =>
    if s then
      let q := sideExpOf up z
      (sideDiv up q (fnOne + q) : Nat)
    else
      let q := sideExpOf (1 - up) (-z)
      (sideDiv up fnOne (fnOne + q) : Nat)

/-! ### The results that a bound allows -/

/-- FP32 bits in the order of their values, and back. -/
def ordKey (b : Nat) : Nat := if bit b 31 then f32Sign - 1 - b % f32Sign else f32Sign + b
def ordBits (k : Nat) : Nat := if k < f32Sign then f32Sign + (f32Sign - 1 - k) else k - f32Sign

/-- A magnitude rounded to FP32 toward zero (1) or away from it (2). -/
def f32Round (rnd n : Nat) : Nat := (fp32.encode { rneMode with rnd := rnd } none (.fin false n (-(fnP : Int)))).1

/-- The greatest FP32 value not above a value, the least not below it. -/
def keyBelow (z : Int) : Nat :=
  if (2 ^ (128 + fnP) : Int) ≤ z then ordKey f32Inf
  else if 0 ≤ z then ordKey (f32Round 1 z.toNat) else ordKey (f32Sign + f32Round 2 z.natAbs)
def keyAbove (z : Int) : Nat :=
  if 0 ≤ z then ordKey (f32Round 2 z.toNat) else ordKey (f32Sign + f32Round 1 z.natAbs)

/-- The gap between the FP32 values around a value (R112). -/
def ulpAt (z : Int) : Int := (2 ^ (max z.natAbs.log2 (fnP - 126) - 23) : Nat)

/-- The least and greatest result that Table 5-5 allows. -/
def fnBound (f : Nat) (s : Bool) (m : Nat) (e : Int) : Nat × Nat :=
  let lo := fnSide 0 f s m e
  let hi := fnSide 1 f s m e
  let near := decide (f = 4) && !gtMag 3 (-2) m e && !gtMag m e 3 (-1)
  let w : Int := if f ≤ 1 then 1 else 2
  let err (z : Int) : Int := if near then (2 ^ (fnP - 22) : Nat) else w * ulpAt z
  if (2 ^ (128 + fnP) : Int) ≤ lo then (ordKey f32Inf, ordKey f32Inf) else (keyAbove (lo - err lo), keyBelow (hi + err hi))

/-- 2^n in FP32. -/
def f32Exp2 (n : Int) : Nat := (fp32.encode rneMode none (.fin false 1 n)).1

/-- The value is an integer, and its floor. -/
def isWhole (m : Nat) (e : Int) : Bool := decide (0 ≤ e) || decide (m % 2 ^ (-e).toNat = 0)
def floorOf (s : Bool) (m : Nat) (e : Int) : Int :=
  let z : Int := if s then -(m : Int) else m
  if 0 ≤ e then z * (2 ^ e.toNat : Nat) else z / (2 ^ (-e).toNat : Nat)

/-- The exact cases of Table 5-5 for a non-zero operand, as values; those of the reciprocals and tanh for a magnitude. -/
def fnExact (f : Nat) (s : Bool) (m : Nat) (e : Int) : Option FVal :=
  let pw := decide (m = 2 ^ m.log2)
  let q : Int := e + m.log2
  let n := floorOf s m e
  match f with
  | 0 => if pw then some (.fin false 1 (-q)) else none
  | 1 => if pw && decide (q % 2 = 0) then some (.fin false 1 (-(q / 2))) else none
  | 3 => if isWhole m e && decide (-149 ≤ n ∧ n ≤ 127) then some (.fin false 1 n) else none
  | 4 => if pw then some (FVal.ofInt q) else none
  | _ => none

/-- The least exact case, or limit, that stands at or above the operand's result. -/
def fnCap (f : Nat) (s : Bool) (m : Nat) (e : Int) : Nat :=
  let q : Int := e + m.log2
  match f with
  | 0 => f32Exp2 (-q)
  | 1 => f32Exp2 (-(q / 2))
  | 3 => f32Exp2 (min 128 (max (-149) (floorOf s m e + 1)))
  | 4 => (fp32.encode rneMode none (FVal.ofInt (q + 1))).1
  | 5 => if s then f32One else f32Inf
  | 6 => f32One
  | _ => if s then f32Half else f32One

/-- The results that Tables 5-6 and 5-8 fix: of a zero, of the least and of the greatest magnitudes. -/
def fnFixed (f x : Nat) : Option Nat :=
  if x % f32Sign = 0 then (if f = 7 then some f32Half else if f = 3 ∨ f = 5 then some f32One else none)
  else if x = 1 then
    [none, some 0x64B504F3, none, some f32One, none, some f32One, some 1, some f32Half].getD f none
  else if x = f32Max then
    [some 0x00200000, some 0x1F800000, none, some f32Inf, some 0x43000000, some f32Inf, some f32One, some f32One].getD f none
  else if x = f32Sign + f32Max then [none, none, none, some 0, none, some 0, none, some 0].getD f none
  else none

/-- The greatest result that the bounds allow at an operand and leave to those below it. The bound of log2 narrows at the first operands
whose results are -1/2 or more, and above 1.5; a result below such an operand is not above what may stand there. -/
def fnTop (f x : Nat) (s : Bool) (m : Nat) (e : Int) : Nat :=
  let turns := if f = 4 then [0x3F3504F4, 0x3FC00001].filter fun t => decide (x ≤ t) else []
  turns.foldl (fun h t => match fp32.value t with | .fin s m e => min h (fnBound f s m e).2 | _ => h)
    (min (fnBound f s m e).2 (ordKey (fnCap f s m e)))

/-- The result chosen for one operand, without regard to the others: fixed or exact, else the free value as far as the bound and the exact
cases above let it. `g` tells apart the reciprocals of negative operands. -/
def fnPick (f g x : Nat) : Nat :=
  match fnFixed f x, fp32.value x with
  | some b, _ => ordKey b
  | none, .fin s m e =>
    match fnExact f s m e with
    | some v => ordKey (fp32.encode rneMode none v).1
    | none => max (fnBound f s m e).1 (min (Config.fnResult g x).toNat (fnTop f x s m e))
  | none, _ => 0

/-- The finite operands of a function in the order of its exact results, and back: a magnitude falling for the reciprocals, a magnitude
rising for log2 and tanh, any value for the others. -/
def fnIndex (f x : Nat) : Nat :=
  if f ≤ 1 then f32Max - x else if f = 4 ∨ f = 6 then x - 1 else ordKey x - (f32Sign - 1 - f32Max)
def fnOperand (f i : Nat) : Nat :=
  if f ≤ 1 then f32Max - i else if f = 4 ∨ f = 6 then i + 1 else ordBits (i + (f32Sign - 1 - f32Max))

/-- The greatest of the choices up to a place: monotone, and, the choices being within their bounds, within them too. -/
def runMax (c : Nat → Nat) : Nat → Nat
  | 0 => c 0
  | n + 1 => max (runMax c n) (c (n + 1))

/-- `FN` of an operand that no table fixes (R112). -/
def fnValue (f g x : Nat) : Nat := ordBits (runMax (fun i => fnPick f g (fnOperand f i)) (fnIndex f x))

end Sys2Proof.Machine
end

