-- ==== Sys2Proof/Machine/TileIsa.lean ====
section
/-! DEFINITION. The Craong-T instruction word: its fields, the operands each opcode names and the reserved encodings
(chapter 4). -/

namespace Sys2Proof.Machine

/-- The opcodes of Tables 4-4 to 4-14. -/
inductive TOp
  | nop | end_ | jmp | br | loop | drop
  | mac | macb | mul | add | sub | max | min
  | mmac | imac | iadd | isub | iand | ior | ixor | ishl | ishr
  | fma | fadd | fsub | fmul | fmax | fmin | fn
  | cvt | mov | perm | rot | bcst | sel
  | rsum | rmax | rmin | ramax | rbexp
  | fwd | fwdh
  | pcmp | plog | pset | pcls
  | ld | ldh | lde | st | sth
  | tkent | tklv | sig
  deriving DecidableEq, Repr

/-- The opcode of a code (Tables 4-4 to 4-14); every other code is reserved. -/
def TOp.ofCode (n : Nat) : Option TOp :=
  match n with
  | 0x00 => some .nop | 0x01 => some .end_ | 0x02 => some .jmp | 0x03 => some .br
  | 0x04 => some .loop | 0x05 => some .drop
  | 0x10 => some .mac | 0x11 => some .macb | 0x12 => some .mul | 0x13 => some .add
  | 0x14 => some .sub | 0x15 => some .max | 0x16 => some .min
  | 0x20 => some .mmac | 0x21 => some .imac | 0x22 => some .iadd | 0x23 => some .isub
  | 0x24 => some .iand | 0x25 => some .ior | 0x26 => some .ixor | 0x27 => some .ishl
  | 0x28 => some .ishr
  | 0x30 => some .fma | 0x31 => some .fadd | 0x32 => some .fsub | 0x33 => some .fmul
  | 0x34 => some .fmax | 0x35 => some .fmin | 0x38 => some .fn
  | 0x40 => some .cvt | 0x41 => some .mov | 0x42 => some .perm | 0x43 => some .rot
  | 0x44 => some .bcst | 0x45 => some .sel
  | 0x50 => some .rsum | 0x51 => some .rmax | 0x52 => some .rmin | 0x53 => some .ramax
  | 0x54 => some .rbexp
  | 0x60 => some .fwd | 0x61 => some .fwdh
  | 0x70 => some .pcmp | 0x71 => some .plog | 0x72 => some .pset | 0x73 => some .pcls
  | 0x80 => some .ld | 0x81 => some .ldh | 0x82 => some .lde | 0x83 => some .st | 0x84 => some .sth
  | 0x90 => some .tkent | 0x91 => some .tklv
  | 0xA0 => some .sig
  | _ => none

/-- Format I opcodes: two sources and a 16-bit immediate (Tables 4-4 to 4-14). -/
def TOp.immFmt : TOp → Bool
  | .jmp | .br | .loop | .mul | .add | .sub | .max | .min
  | .iadd | .isub | .iand | .ior | .ixor | .ishl | .ishr
  | .fadd | .fsub | .fmul | .fmax | .fmin | .rot | .bcst | .pset
  | .ld | .ldh | .lde | .st | .sth | .tkent | .sig => true
  | _ => false

/-- The fields of Table 4-1. -/
structure TInstr where
  op : Nat
  pen : Bool
  pneg : Bool
  preg : Nat
  wr : Bool
  dst : Nat
  em : Bool
  route : Nat
  a : Nat
  b : Nat
  c : Nat
  mod : Nat
  imm : Nat
  mod2 : Nat
  deriving DecidableEq, Repr

/-- The fields of an instruction slot (Table 4-1). -/
def TInstr.ofWord (w : Word) : TInstr :=
  let n := w.toNat
  { op := bits n 56 8, pen := bit n 55, pneg := bit n 54, preg := bits n 51 3, wr := bit n 50,
    dst := bits n 43 7, em := bit n 42, route := bits n 34 8, a := bits n 26 8, b := bits n 18 8,
    c := bits n 10 8, mod := bits n 0 10, imm := bits n 2 16, mod2 := bits n 0 2 }

/-- What an opcode uses a source field for. -/
inductive Use
  /-- the field is not used and must be 0 -/
  | none
  /-- one register or vector token -/
  | vec
  /-- an aligned register pair or two vector tokens (R64) -/
  | pair
  /-- a register, never a token -/
  | reg
  /-- a register or `zero` (R83) -/
  | addr
  /-- a predicate register (R62) -/
  | pred
  /-- a consuming port or `zero` (`DROP`) -/
  | port
  deriving DecidableEq, Repr

/-- What an opcode writes. -/
inductive DUse
  | none
  | vec
  | pair
  | pred
  deriving DecidableEq, Repr

/-- What an opcode table demands of the `WR` or `EM` bit (R68). -/
inductive Need
  | any
  | zero
  | one
  deriving DecidableEq, Repr

/-- The operand shape of an instruction: uses of A, B, C and the destination, demands on `WR`, `EM` and `PEN`, and
whether its modifier and immediate fields hold allowed values. -/
structure TShape where
  a : Use := .none
  b : Use := .none
  c : Use := .none
  d : DUse := .none
  wr : Need := .any
  em : Need := .any
  pen : Bool := true
  ok : Bool := true
  deriving DecidableEq, Repr

/-- FP32 and INT32 operands are pairs (R64). -/
def fmtUse (f : Nat) : Use := if f = 0x9 ∨ f = 0xB then .pair else .vec
def fmtDUse (f : Nat) : DUse := if f = 0x9 ∨ f = 0xB then .pair else .vec

/-- The MX format codes. -/
def isMx (f : Nat) : Bool := decide (f = 0x4 ∨ f = 0x5 ∨ f = 0x8)

/-- The pairs of Table 4-9 with the number of `POS` values each accepts. -/
def cvtPos (src dst : Nat) : Nat :=
  if src = 0x9 then
    (if dst = 0x0 ∨ dst = 0x1 ∨ dst = 0xB then 1
     else if dst = 0x2 ∨ dst = 0x3 ∨ dst = 0x4 then 2
     else if dst = 0x5 then 4 else 0)
  else if src = 0xB then (if dst = 0x9 then 1 else 0)
  else if src = 0x0 then
    (if dst = 0x9 ∨ dst = 0x1 then 1 else if dst = 0x2 ∨ dst = 0x3 then 2 else 0)
  else if src = 0x1 then
    (if dst = 0x9 ∨ dst = 0x0 then 1 else if dst = 0x2 ∨ dst = 0x3 then 2 else 0)
  else if src = 0x2 ∨ src = 0x3 ∨ src = 0x4 ∨ src = 0x6 then (if dst = 0x0 ∨ dst = 0x1 then 2 else 0)
  else if src = 0x5 then (if dst = 0x0 then 4 else 0)
  else 0

/-- The shape each opcode has with its modifier (R74 to R84). DESIGN CHOICE (log entry 80): an arithmetic instruction of format I none of
whose sources is 0x90 may carry any `IMM` (R61 does not name the case), and relation 7 of `PCMP`, which stands neither in Table 4-12 nor in
R69's list, is a reserved encoding (R82). -/
def TOp.shape (o : TOp) (t : TInstr) : TShape :=
  let f := bits t.mod 0 4
  let fl3 := decide (f = 0x0 ∨ f = 0x1 ∨ f = 0x9)
  let red := fl3 || decide (f = 0xA ∨ f = 0xB)
  match o with
  | .nop => { a := .vec, b := .vec, c := .vec, wr := .zero, em := .zero, pen := false, ok := decide (t.mod = 0) }
  | .end_ => { wr := .zero, em := .zero, pen := false, ok := decide (t.mod = 0) }
  | .jmp => { wr := .zero, em := .zero, pen := false, ok := decide (t.imm < 256 ∧ t.mod2 = 0) }
  | .br => { a := .pred, wr := .zero, em := .zero, pen := false, ok := decide (t.imm < 256) }
  | .loop => { d := .vec, wr := .one, em := .zero, pen := false, ok := decide (t.imm < 256 ∧ t.mod2 = 0) }
  | .drop => { a := .port, b := .port, c := .port, wr := .zero, em := .zero, pen := false, ok := decide (t.mod = 0) }
  | .mac =>
    let acc := bit t.mod 4
    { a := .vec, b := .vec, c := if acc then .pair else .vec, d := if acc then .pair else .vec,
      ok := decide (f ≤ 3) && decide (bits t.mod 5 5 = 0) && (acc || decide (f ≤ 1)) }
  | .macb =>
    let acc := bit t.mod 4
    { a := .vec, b := .vec, c := if acc then .pair else .vec, d := if acc then .pair else .vec,
      ok := decide (f ≤ 3) && (acc || decide (f ≤ 1)) }
  | .mul | .add | .sub | .max | .min => { a := .vec, b := .vec, d := .vec, ok := decide (t.mod2 ≤ 1) }
  | .mmac => { a := .vec, b := .vec, c := .reg, d := .pair, ok := isMx f && decide (bits t.mod 4 6 = 0) }
  | .imac => { a := .vec, b := .vec, c := .pair, d := .pair, ok := decide ((f = 6 ∨ f = 7) ∧ bits t.mod 4 6 = 0) }
  | .iadd | .isub | .ishr => { a := .vec, b := .vec, d := .vec, ok := decide (t.mod2 ≤ 1) }
  | .iand | .ior | .ixor | .ishl => { a := .vec, b := .vec, d := .vec, ok := decide (t.mod2 = 0) }
  | .fma => { a := .pair, b := .pair, c := .pair, d := .pair, ok := decide (t.mod = 0) }
  | .fadd | .fsub | .fmul | .fmax | .fmin => { a := .pair, b := .pair, d := .pair, ok := decide (t.mod2 = 0) }
  | .fn => { a := .pair, d := .pair, ok := decide (t.mod < 8) }
  | .cvt =>
    let df := bits t.mod 4 4
    { a := fmtUse f, b := if isMx f || isMx df then .reg else .none, d := fmtDUse df,
      ok := decide (bits t.mod 8 2 < cvtPos f df) }
  | .mov => { a := .vec, d := .vec, ok := decide (t.mod = 0) }
  | .perm => { a := .vec, b := .vec, d := .vec, ok := decide (t.mod = 0) }
  | .rot | .bcst => { a := .vec, d := .vec, ok := decide (t.imm < 32 ∧ t.mod2 = 0) }
  | .sel => { a := .vec, b := .vec, c := .pred, d := .vec, ok := decide (t.mod = 0) }
  | .rsum =>
    let wide := bit t.mod 6
    { a := fmtUse f, d := if wide then .pair else fmtDUse f,
      ok := red && decide (bits t.mod 7 3 = 0) && (!wide || decide (f ≤ 1)) }
  | .rmax | .rmin => { a := fmtUse f, d := fmtDUse f, ok := red && decide (bits t.mod 6 4 = 0) }
  | .ramax => { a := fmtUse f, d := fmtDUse f, ok := fl3 && decide (bits t.mod 6 4 = 0) }
  | .rbexp =>
    { a := fmtUse f, d := .vec,
      ok := fl3 && decide ((bits t.mod 4 4 = 4 ∨ bits t.mod 4 4 = 5) ∧ bits t.mod 8 2 = 0) }
  | .fwd => { a := if bit t.mod 0 then .pair else .vec, wr := .zero, em := .one, ok := decide (t.mod ≤ 1) }
  | .fwdh => { a := .vec, wr := .zero, em := .one, ok := decide (t.mod ≤ 1) }
  | .pcmp =>
    { a := fmtUse f, b := fmtUse f, d := .pred, wr := .one, em := .zero,
      ok := red && decide (bits t.mod 4 3 ≤ 6 ∧ bits t.mod 7 3 = 0) }
  | .plog => { a := .pred, b := .pred, d := .pred, wr := .one, em := .zero, ok := decide (bits t.mod 3 7 = 0) }
  | .pset => { d := .pred, wr := .one, em := .zero, ok := decide (t.imm < 1024 ∧ t.mod2 = 0) }
  | .pcls => { a := fmtUse f, d := .pred, wr := .one, em := .zero, ok := fl3 }
  | .ld => { a := .addr, d := .vec, ok := decide (t.imm < 256 ∧ t.mod2 = 0) }
  | .ldh => { a := .addr, d := .vec, ok := decide (t.imm < 512 ∧ t.mod2 ≤ 1) }
  | .lde => { a := .addr, d := .vec, ok := decide (t.imm < 8192 ∧ t.mod2 = 0) }
  | .st => { a := .addr, b := .vec, wr := .zero, em := .zero, ok := decide (t.imm < 256 ∧ t.mod2 = 0) }
  | .sth => { a := .addr, b := .vec, wr := .zero, em := .zero, ok := decide (t.imm < 512 ∧ t.mod2 ≤ 1) }
  | .tkent => { wr := .zero, em := .zero, pen := false, ok := decide (t.imm < 4 ∧ t.mod2 = 0) }
  | .tklv => { wr := .zero, em := .zero, pen := false, ok := decide (t.mod = 0) }
  | .sig => { wr := .zero, em := .one, pen := false, ok := decide (t.mod2 ≠ 0) }

/-- A source field holds a specifier its use allows (R62, R64, R69). -/
def Use.allows (u : Use) (immFmt : Bool) (v : Nat) : Bool :=
  let special := decide ((0x80 ≤ v ∧ v ≤ 0x84) ∨ (0x88 ≤ v ∧ v ≤ 0x8C) ∨ v = 0x91 ∨ v = 0x92) ||
    (immFmt && decide (v = 0x90))
  match u with
  | .none => decide (v = 0)
  | .vec => decide (v < 0x80) || special
  | .pair => (decide (v < 0x80) && decide (v % 2 = 0)) || special
  | .reg => decide (v < 0x80)
  | .addr => decide (v < 0x80) || decide (v = 0x91)
  | .pred => decide (v < 8)
  | .port => decide (0x80 ≤ v ∧ v ≤ 0x84) || decide (v = 0x91)

def Need.allows (n : Need) (b : Bool) : Bool :=
  match n with
  | .any => true
  | .zero => !b
  | .one => b

/-- The destination field is allowed: even for a pair, below 8 for a predicate, 0 where unused (R61, R64). -/
def dstOk (o : TOp) (d : DUse) (t : TInstr) : Bool :=
  match d with
  | .none => decide (t.dst = 0)
  | .vec => t.wr || decide (t.dst = 0)
  | .pair => (t.wr || decide (o = .mmac) || decide (t.dst = 0)) && decide (t.dst % 2 = 0)
  | .pred => decide (t.dst < 8)

/-- The opcode an instruction slot decodes to; none for every reserved encoding of R69. -/
def tileDecode (w : Word) : Option (TOp × TInstr) :=
  let t := TInstr.ofWord w
  match TOp.ofCode t.op with
  | none => none
  | some o =>
    let s := o.shape t
    let imf := o.immFmt
    if s.ok && s.a.allows imf t.a && s.b.allows imf t.b && (imf || s.c.allows imf t.c) && dstOk o s.d t &&
        s.wr.allows t.wr && s.em.allows t.em && (s.pen || !t.pen) &&
        (t.pen || (!t.pneg && decide (t.preg = 0))) && (t.em || decide (t.route = 0)) then
      some (o, t)
    else none

/-- A reserved encoding (R69). -/
def tileReserved (w : Word) : Bool := (tileDecode w).isNone

end Sys2Proof.Machine
end

