-- ==== Sys2Proof/Machine/TileAlu.lean ====
section
/-! DEFINITION. What each Craong-T instruction computes in its lanes: results and flags (chapters 4 and 5). -/

namespace Sys2Proof.Machine

/-- The format of a floating format code of Table 4-3. -/
def fmtOf (c : Nat) : Fmt :=
  match c with
  | 0x0 => bf16 | 0x1 => fp16 | 0x2 => fe4m3 | 0x3 => fe5m2 | 0x4 => fe4m3 | 0x5 => fe2m1 | _ => fp32

/-- Elements per 16-bit lane of a format code (Table 4-3). -/
def perLane (c : Nat) : Nat :=
  match c with
  | 0x2 | 0x3 | 0x4 | 0x6 | 0x8 => 2
  | 0x5 | 0x7 => 4
  | _ => 1

/-- Element `k` of a lane holding elements of a format (R95). -/
def laneElem (c lane k : Nat) : Nat := bits lane (16 / perLane c * k) (16 / perLane c)

/-- What an instruction sees when it fires: its fields, mode, active lanes, operand lanes (16 bits, or 32 for a pair),
the old destination lanes, the lanes' draws, and the predicate operand. -/
structure AluIn where
  t : TInstr
  md : FMode
  act : List Bool
  a : List Nat
  b : List Nat
  c : List Nat
  d : List Nat
  draws : List Nat
  p : Nat
  p2 : Nat
  deriving DecidableEq, Repr

/-- The lanes an instruction writes and the flags it raises. -/
structure AluOut where
  lanes : List (Option Nat)
  fl : Flags
  deriving DecidableEq, Repr

def nthN (l : List Nat) (i : Nat) : Nat := l.getD i 0
def nthB (l : List Bool) (i : Nat) : Bool := l.getD i false

/-- A result in every active lane, flags joined (R66, R109). -/
def perActive (x : AluIn) (f : Nat → Nat × Flags) : AluOut :=
  let r := (List.range 32).map (fun i => if nthB x.act i then some (f i) else none)
  ⟨r.map (Option.map Prod.fst), orFlags (r.map (fun o => (o.map Prod.snd).getD 0))⟩

/-- The lane's stochastic draw when rounding is stochastic (R110). -/
def AluIn.draw (x : AluIn) (i : Nat) : Option Nat := if x.md.stoch then some (nthN x.draws i) else none

/-- Sum of products and an addend, rounded once (R98, R99, R105). -/
def macLane (f g : Fmt) (md : FMode) (draw : Option Nat) (cbits : Nat) (prods : List (Nat × Nat)) :
    Nat × Flags :=
  let cv := g.operand md cbits
  let ps := prods.map (fun p => FVal.mul (f.operand md p.1) (f.operand md p.2))
  let s := sumExact md.rnd (cv :: ps.map Prod.fst)
  let r := g.encode md draw s.1
  (r.1, cv.sigFlag ||| orFlags (ps.map Prod.snd) ||| s.2 ||| r.2)

/-- `MAC` and `MACB` (R75, R105): `al` gives the lane of A used for lane i. -/
def aluMacWith (x : AluIn) (al : Nat → Nat) : AluOut :=
  let fc := bits x.t.mod 0 4
  let acc := bit x.t.mod 4
  let f := fmtOf fc
  let g := if acc then fp32 else f
  perActive x fun i =>
    macLane f g x.md (if acc then none else x.draw i) (nthN x.c i)
      ((List.range (perLane fc)).map fun k => (laneElem fc (nthN x.a (al i)) k, laneElem fc (nthN x.b i) k))

def aluMac (x : AluIn) : AluOut := aluMacWith x id
def aluMacb (x : AluIn) : AluOut := aluMacWith x fun _ => bits x.t.mod 5 5

/-- A two-operand exact operation in one format, rounded once. -/
def aluBin (x : AluIn) (f : Fmt) (st : Bool) (op : FVal → FVal → FVal × Flags) : AluOut :=
  perActive x fun i =>
    let a := f.operand x.md (nthN x.a i)
    let b := f.operand x.md (nthN x.b i)
    let v := op a b
    let r := f.encode x.md (if st then x.draw i else none) v.1
    (r.1, a.sigFlag ||| b.sigFlag ||| v.2 ||| r.2)

def opMul (a b : FVal) : FVal × Flags := FVal.mul a b
def opAdd (rnd : Nat) (a b : FVal) : FVal × Flags := sumExact rnd [a, b]
def opSub (rnd : Nat) (a b : FVal) : FVal × Flags := sumExact rnd [a, b.neg]
def opMax (a b : FVal) : FVal × Flags := (pickMax [a, b], 0)
def opMin (a b : FVal) : FVal × Flags := (pickMin [a, b], 0)

/-- BF16 or FP16 as `MOD2`[0] selects (Table 4-5). -/
def narrowFmt (x : AluIn) : Fmt := if x.t.mod2 % 2 = 1 then fp16 else bf16

def aluMul (x : AluIn) : AluOut := aluBin x (narrowFmt x) true opMul
def aluAdd (x : AluIn) : AluOut := aluBin x (narrowFmt x) true (opAdd x.md.rnd)
def aluSub (x : AluIn) : AluOut := aluBin x (narrowFmt x) true (opSub x.md.rnd)
def aluMax (x : AluIn) : AluOut := aluBin x (narrowFmt x) false opMax
def aluMin (x : AluIn) : AluOut := aluBin x (narrowFmt x) false opMin

/-- The value of an MX element (R96). -/
def mxValue (fc e : Nat) : FVal :=
  if fc = 0x8 then (FVal.ofInt (sint 8 e)).scale (-6) else (fmtOf fc).value e

/-- `MMAC` (R76, R93, R105): scaled block products added exactly to the FP32 accumulator. -/
def aluMmac (x : AluIn) : AluOut :=
  let fc := bits x.t.mod 0 4
  perActive x fun i =>
    let blk := if fc = 0x5 then i / 8 else i / 16
    let sc := nthN x.c blk
    match e8m0 (bits sc 0 8), e8m0 (bits sc 8 8) with
    | some ka, some kb =>
      let d := fp32.operand x.md (nthN x.d i)
      let ps := (List.range (perLane fc)).map fun k =>
        FVal.mul (mxValue fc (laneElem fc (nthN x.a i) k)) (mxValue fc (laneElem fc (nthN x.b i) k))
      let s := sumExact x.md.rnd (d :: ps.map fun p => p.1.scale (ka + kb))
      let r := fp32.encode x.md none s.1
      (r.1, d.sigFlag ||| orFlags (ps.map Prod.snd) ||| s.2 ||| r.2)
    | _, _ => (fp32.qnan, flIV)

/-- `IMAC` (R76, R106): signed sums modulo 2^32. -/
def aluImac (x : AluIn) : AluOut :=
  let fc := bits x.t.mod 0 4
  let w := 16 / perLane fc
  perActive x fun i =>
    let s := ((List.range (perLane fc)).map fun k =>
      sint w (laneElem fc (nthN x.a i) k) * sint w (laneElem fc (nthN x.b i) k)).foldl (· + ·) (sint 32 (nthN x.c i))
    (uint 32 s, 0)

/-- Saturation to INT16 with the overflow flag (R106). -/
def sat16 (v : Int) : Nat × Flags :=
  if 32767 < v then (0x7FFF, flOV) else if v < -32768 then (0x8000, flOV) else (uint 16 v, 0)

def aluIaddWith (x : AluIn) (g : Int → Int → Int) : AluOut :=
  perActive x fun i =>
    let v := g (sint 16 (nthN x.a i)) (sint 16 (nthN x.b i))
    if x.t.mod2 % 2 = 1 then sat16 v else (uint 16 v, 0)

def aluIadd (x : AluIn) : AluOut := aluIaddWith x (· + ·)
def aluIsub (x : AluIn) : AluOut := aluIaddWith x (· - ·)
def aluIand (x : AluIn) : AluOut := perActive x fun i => (nthN x.a i &&& nthN x.b i, 0)
def aluIor (x : AluIn) : AluOut := perActive x fun i => (nthN x.a i ||| nthN x.b i, 0)
def aluIxor (x : AluIn) : AluOut := perActive x fun i => (nthN x.a i ^^^ nthN x.b i, 0)
def aluIshl (x : AluIn) : AluOut := perActive x fun i => (bits (nthN x.a i <<< bits (nthN x.b i) 0 4) 0 16, 0)
def aluIshr (x : AluIn) : AluOut := perActive x fun i =>
  let n := bits (nthN x.b i) 0 4
  if x.t.mod2 % 2 = 1 then (nthN x.a i >>> n, 0) else (uint 16 (sint 16 (nthN x.a i) / (2 ^ n : Nat)), 0)

/-- `FMA` and the FP32 operations (R77). -/
def aluFma (x : AluIn) : AluOut := perActive x fun i =>
  macLane fp32 fp32 x.md none (nthN x.c i) [(nthN x.a i, nthN x.b i)]
def aluFadd (x : AluIn) : AluOut := aluBin x fp32 false (opAdd x.md.rnd)
def aluFsub (x : AluIn) : AluOut := aluBin x fp32 false (opSub x.md.rnd)
def aluFmul (x : AluIn) : AluOut := aluBin x fp32 false opMul
def aluFmax (x : AluIn) : AluOut := aluBin x fp32 false opMax
def aluFmin (x : AluIn) : AluOut := aluBin x fp32 false opMin

/-- The flags an inexact `FN` result carries (R112): inexact, underflow when tiny, overflow when infinite; a tiny result is written as zero
under `FTZ` (R103). -/
def fnInexact (md : FMode) (r : Nat) : Nat × Flags :=
  if bits r 23 8 = 0 then
    (if md.ftz then bits r 31 1 * 2 ^ 31 else r, flUF ||| flIX)
  else if bits r 23 8 = 255 then (r, flOV ||| flIX)
  else (r, flIX)

/-- `FN` of a finite non-zero operand: an exact case is produced exactly, any other result is inexact; the reciprocal and tanh are odd.
`FN` ignores `RND` and `STOCH`, but for the square root (R112). -/
def fnFinite (md : FMode) (f x : Nat) (s : Bool) (m : Nat) (e : Int) : Nat × Flags :=
  let sg := ofBit s * f32Sign
  if f = 2 then (if s then (f32Nan, flIV) else fp32.encode { md with stoch := false } none (sqrtVal m e))
  else if s ∧ (f = 1 ∨ f = 4) then (f32Nan, flIV)
  else match fnExact f s m e with
    | some v => fp32.encode { md with rnd := 0, stoch := false } none (if f = 0 ∧ s then v.neg else v)
    | none =>
      if f = 0 ∨ f = 6 then
        let r := fnInexact md ((fnFixed f (bits x 0 31)).getD (fnValue f (if f = 0 ∧ s then 8 else f) (bits x 0 31)))
        (sg + r.1, r.2)
      else fnInexact md ((fnFixed f x).getD (fnValue f f x))

/-- `FN` of one lane (R112, R113, Tables 5-5, 5-6 and 5-8). -/
def fnLane (md : FMode) (f x : Nat) : Nat × Flags :=
  let s := bit x 31
  let sg := ofBit s * f32Sign
  match fp32.operand md x with
  | .nan g => (f32Nan, if g then flIV else 0)
  | .inf _ =>
    match f with
    | 0 => (sg, 0)
    | 3 | 5 => (if s then 0 else f32Inf, 0)
    | 6 => (sg + f32One, 0)
    | 7 => (if s then 0 else f32One, 0)
    | _ => if s then (f32Nan, flIV) else (if f = 1 then 0 else f32Inf, 0)
  | .fin _ m e =>
    if m = 0 then
      match f with
      | 0 | 1 => (sg + f32Inf, flDZ)
      | 2 => (sg, 0)
      | 3 | 5 => (f32One, 0)
      | 4 => (f32Sign + f32Inf, flDZ)
      | 6 => (sg, 0)
      | _ => (f32Half, 0)
    else fnFinite md f x s m e

def aluFn (x : AluIn) : AluOut := perActive x fun i => fnLane x.md (bits x.t.mod 0 4) (nthN x.a i)

/-- One `CVT` element (R79, R93, R98, R104, R106). `sc` is the E8M0 scale operand. -/
def cvtElem (md : FMode) (src dst sc : Nat) (draw : Option Nat) (e : Nat) : Nat × Flags :=
  let k := e8m0 sc
  let v : FVal :=
    if src = 0x6 then FVal.ofInt (sint 8 e)
    else if src = 0xB then FVal.ofInt (sint 32 e)
    else if isMx src then
      match k with
      | some k => ((fmtOf src).value e).scale k
      | none => .nan false
    else (fmtOf src).operand md e
  if dst = 0xB then
    let r := v.toInt md 32
    (r.1, v.sigFlag ||| r.2)
  else if isMx dst then
    match k with
    | some k =>
      let r := (fmtOf dst).encode md draw (v.scale (-k))
      (r.1, v.sigFlag ||| r.2)
    | none => ((fmtOf dst).qnan, v.sigFlag ||| flIV)
  else
    let r := (fmtOf dst).encode md draw v
    (r.1, v.sigFlag ||| r.2)

/-- A conversion whose destination format is one R110 rounds stochastically. -/
def cvtStoch (dst : Nat) : Bool := decide (dst ≤ 5)

/-- `CVT` (R79, Table 4-9). -/
def aluCvt (x : AluIn) : AluOut :=
  let src := bits x.t.mod 0 4
  let dst := bits x.t.mod 4 4
  let pos := bits x.t.mod 8 2
  let sc := bits (nthN x.b 0) 0 8
  let ms := perLane src
  let mt := perLane dst
  let el (lane elem : Nat) : Nat × Flags :=
    cvtElem x.md src dst sc (if cvtStoch dst then x.draw lane else none)
      (if ms = 1 then nthN x.a lane else laneElem src (nthN x.a lane) elem)
  if mt = 1 then
    perActive x fun i => if ms = 1 then el i 0 else el (pos * (32 / ms) + i / ms) (i % ms)
  else
    let base := pos * (32 / mt)
    let sel := (List.range 32).map fun j => nthB x.act j && decide (base ≤ j) && decide (j < base + 32 / mt)
    perActive { x with act := sel } fun j =>
      let es := (List.range mt).map fun k => el ((j - base) * mt + k) 0
      ((es.map Prod.fst).foldr (fun v acc => v + 2 ^ (16 / mt) * acc) 0, orFlags (es.map Prod.snd))

/-- Lane movement (R78): bits unchanged, no flags. -/
def aluMov (x : AluIn) : AluOut := perActive x fun i => (nthN x.a i, 0)
def aluPerm (x : AluIn) : AluOut := perActive x fun i => (nthN x.a (bits (nthN x.b i) 0 5), 0)
def aluRot (x : AluIn) : AluOut := perActive x fun i => (nthN x.a ((i + bits x.t.imm 0 5) % 32), 0)
def aluBcst (x : AluIn) : AluOut := perActive x fun _ => (nthN x.a (bits x.t.imm 0 5), 0)
def aluSel (x : AluIn) : AluOut := perActive x fun i => (if bit x.p i then nthN x.a i else nthN x.b i, 0)

/-- Segment width of a reduction (R80). -/
def segWidth (t : TInstr) : Nat := 32 / 2 ^ bits t.mod 4 2

/-- One level of the pairwise FP32 sums of `RSUM`, each rounded to nearest even (R80, R108). -/
def rsumLevel (md : FMode) : List (Option FVal) → List (Option FVal) × Flags
  | some a :: some b :: r =>
    let s := sumExact 0 [a, b]
    let e := fp32.encode { md with rnd := 0, stoch := false } none s.1
    let q := rsumLevel md r
    (some (fp32.operand md e.1) :: q.1, s.2 ||| e.2 ||| q.2)
  | a :: b :: r =>
    let q := rsumLevel md r
    ((if a.isNone then b else a) :: q.1, q.2)
  | l => (l, 0)

/-- All levels of the pairwise sums. -/
def rsumTree (md : FMode) : Nat → List (Option FVal) → Option FVal × Flags
  | 0, l => ((l.head?).join, 0)
  | n + 1, l =>
    let q := rsumLevel md l
    let r := rsumTree md n q.1
    (r.1, q.2 ||| r.2)

/-- A reduction: one result per segment, given to its active lanes (R80). -/
def perSegment (x : AluIn) (f : List Nat → Nat × Flags) : AluOut :=
  let w := segWidth x.t
  let seg (b : Nat) : List Nat := (rangeFrom (b * w) w).filter (nthB x.act)
  let res := (List.range (32 / w)).map fun b => if (seg b).isEmpty then (0, 0) else f (seg b)
  ⟨(List.range 32).map fun i => if nthB x.act i then some ((res.getD (i / w) (0, 0)).1) else none,
   orFlags (res.map Prod.snd)⟩

/-- Values of the lanes of a floating segment with the flags of their use. -/
def segVals (x : AluIn) (f : Fmt) (l : List Nat) : List FVal × Flags :=
  let vs := l.map fun i => f.operand x.md (nthN x.a i)
  (vs, orFlags (vs.map FVal.sigFlag))

/-- Bits of an integer reduction format. -/
def intW (fc : Nat) : Nat := if fc = 0xB then 32 else 16

/-- `RSUM` (R80). DESIGN CHOICE (log entry 80): an INT16 sum overflows when the exact total leaves the range; the spec does not say whether
an intermediate sum that does counts. -/
def aluRsum (x : AluIn) : AluOut :=
  let fc := bits x.t.mod 0 4
  if fc = 0xA ∨ fc = 0xB then
    perSegment x fun l =>
      let s := (l.map fun i => sint (intW fc) (nthN x.a i)).foldl (· + ·) 0
      let r := uint (intW fc) s
      (r, if fc = 0xA ∧ sint 16 r ≠ s then flOV else 0)
  else
    let f := fmtOf fc
    let g := if bit x.t.mod 6 then fp32 else f
    let w := segWidth x.t
    perSegment x fun l =>
      let i0 := l.headD 0
      let base := i0 / w * w
      let vs := segVals x f l
      let tr := rsumTree x.md w.log2 ((rangeFrom base w).map fun i =>
        if nthB x.act i then some (f.operand x.md (nthN x.a i)) else none)
      let r := g.encode x.md (if g = fp32 then none else x.draw i0) (tr.1.getD (.nan false))
      (r.1, vs.2 ||| tr.2 ||| r.2)

/-- Integer maximum or minimum of a segment. -/
def intPick (gt : Int → Int → Bool) : List Int → Int
  | [] => 0
  | [v] => v
  | v :: r => let w := intPick gt r; if gt v w then v else w

def aluPickWith (x : AluIn) (pf : List FVal → FVal) (gt : Int → Int → Bool) : AluOut :=
  let fc := bits x.t.mod 0 4
  if fc = 0xA ∨ fc = 0xB then
    perSegment x fun l => (uint (intW fc) (intPick gt (l.map fun i => sint (intW fc) (nthN x.a i))), 0)
  else
    let f := fmtOf fc
    perSegment x fun l =>
      let vs := segVals x f l
      let r := f.encode { x.md with stoch := false } none (pf vs.1)
      (r.1, vs.2 ||| r.2)

def aluRmax (x : AluIn) : AluOut := aluPickWith x pickMax (fun a b => decide (b < a))
def aluRmin (x : AluIn) : AluOut := aluPickWith x pickMin (fun a b => decide (a < b))
def aluRamax (x : AluIn) : AluOut := aluPickWith x (fun l => pickMax (l.map FVal.abs)) (fun a b => decide (b < a))

/-- floor(log2) of the largest magnitude of values, none when all are zero. -/
def topLog2 : List FVal → Option Int
  | [] => none
  | .fin _ m e :: r =>
    let t := topLog2 r
    if m = 0 then t else
      let k : Int := e + m.log2
      match t with
      | some j => some (max k j)
      | none => some k
  | _ :: r => topLog2 r

/-- `RBEXP` (R80, R118): the E8M0 scale of the active lanes. -/
def aluRbexp (x : AluIn) : AluOut :=
  let f := fmtOf (bits x.t.mod 0 4)
  let l := (List.range 32).filter (nthB x.act)
  let vs := segVals x f l
  let e : Int := if bits x.t.mod 4 4 = 5 then 2 else 8
  let s : Nat :=
    if vs.1.any (fun v => match v with | .fin _ _ _ => false | _ => true) then 0xFF
    else match topLog2 vs.1 with
      | none => 0
      | some k => (max 0 (min 254 (k - e + 127))).toNat
  let o := perActive x fun _ => (s, 0)
  ⟨o.lanes, vs.2⟩

/-- Routing (R81): the source's lanes, unchanged. -/
def aluFwd (x : AluIn) : AluOut := perActive x fun i => (nthN x.a i, 0)

/-- Scratch loads (R83): `row` is the scratch row's 32 elements, given as operand A. -/
def aluLd (x : AluIn) : AluOut := perActive x fun i => (nthN x.a i, 0)
def aluLdh (x : AluIn) : AluOut :=
  let hi := decide (x.t.mod2 % 2 = 1)
  let off := if bit x.t.imm 8 then 16 else 0
  let sel := (List.range 32).map fun i => nthB x.act i && (decide (16 ≤ i) == hi)
  perActive { x with act := sel } fun i =>
    (nthN x.a (off + i % 16), 0)
def aluLde (x : AluIn) : AluOut := perActive x fun _ => (nthN x.a (bits x.t.imm 8 5), 0)

/-- `PCMP` of one lane (R82, R103): the bit and the invalid flag of a signalling NaN. -/
def pcmpLane (md : FMode) (fc rel a b : Nat) : Bool × Flags :=
  if fc = 0xA ∨ fc = 0xB then
    let x := sint (intW fc) a
    let y := sint (intW fc) b
    (match rel with
      | 0 => decide (x = y) | 1 => decide (x ≠ y) | 2 => decide (x < y) | 3 => decide (x ≤ y)
      | 4 => decide (y < x) | 5 => decide (y ≤ x) | _ => false, 0)
  else
    let f := fmtOf fc
    let x := f.operand md a
    let y := f.operand md b
    let fl := x.sigFlag ||| y.sigFlag
    if x.isNan || y.isNan then (decide (rel = 1 ∨ rel = 6), fl)
    else
      (match rel with
        | 0 => FVal.numEq x y | 1 => !FVal.numEq x y | 2 => FVal.numLt x y | 3 => !FVal.numLt y x
        | 4 => FVal.numLt y x | 5 => !FVal.numLt x y | _ => false, fl)

/-- `PCLS` of one lane (R82, R103): the stored bits are classified. DESIGN CHOICE (log entry 80): class negative tests the sign bit alone, so
it holds for -0 and for a NaN with the sign bit set. -/
def pclsLane (fc mask a : Nat) : Bool :=
  let f := fmtOf fc
  let cls : Nat := match f.value a with
    | .nan _ => 0
    | .inf _ => 1
    | .fin _ m _ => if m = 0 then 2 else if bits a f.fb f.eb = 0 then 3 else 4
  bit mask cls || (bit mask 5 && bit a (f.eb + f.fb))

/-- The bits of a predicate instruction, as lane results 0 or 1. -/
def aluPcmp (x : AluIn) : AluOut := perActive x fun i =>
  let r := pcmpLane x.md (bits x.t.mod 0 4) (bits x.t.mod 4 3) (nthN x.a i) (nthN x.b i)
  (ofBit r.1, r.2)
def aluPcls (x : AluIn) : AluOut := perActive x fun i =>
  (ofBit (pclsLane (bits x.t.mod 0 4) (bits x.t.mod 4 6) (nthN x.a i)), 0)
def aluPlog (x : AluIn) : AluOut := perActive x fun i =>
  let a := bit x.p i
  let b := bit x.p2 i
  let r := match bits x.t.mod 0 2 with
    | 0 => a && b
    | 1 => a || b
    | 2 => xor a b
    | _ => a && !b
  (ofBit (xor r (bit x.t.mod 2)), 0)
def aluPset (x : AluIn) : AluOut := perActive x fun i =>
  (ofBit (decide (bits x.t.imm 0 5 ≤ i ∧ i ≤ bits x.t.imm 5 5)), 0)

/-- The generator state after 16 steps (R111). -/
def rngStep (s : Nat) : Nat := if s % 2 = 1 then (s / 2) ^^^ 0x80200003 else s / 2
def rngStep16 (s : Nat) : Nat := (List.range 16).foldl (fun v _ => rngStep v) s

/-- Generator state of a lane after a write of the seed (R111). -/
def rngSeed (seed i : Nat) : Nat :=
  let v := (seed ^^^ (i * 0x9E3779B9 % 2 ^ 32)) % 2 ^ 32
  if v = 0 then 1 else v

/-- An instruction that uses stochastic rounding (R110, R111). -/
def usesStoch (o : TOp) (t : TInstr) : Bool :=
  match o with
  | .mac | .macb => !bit t.mod 4
  | .mul | .add | .sub => true
  | .cvt => cvtStoch (bits t.mod 4 4)
  | .rsum => decide (bits t.mod 0 4 ≤ 1) && !bit t.mod 6
  | _ => false

end Sys2Proof.Machine
end

