-- ==== Sys2Proof/Machine/NfWrite.lean ====
section
/-! DEFINITION. Writes as the non-finite monitor sees them (R294, R295, R299): classification of GRAD windows, the guard of
STATE windows, and the one operation by which a write is performed. -/

namespace Sys2Proof.Machine

def State.mon (s : State) (ch : Nat) : Monitor := SMap.get {} s.mons ch

def State.setMon (s : State) (ch : Nat) (f : Monitor → Monitor) : State :=
  { s with mons := SMap.put s.mons ch (f (s.mon ch)) }

/-- A window of a configuration: kind (0 OFF, 1 GRAD, 2 STATE), format, first address and length, none when not enabled. -/
structure NfWin where
  kind : Nat
  fmt : Nat
  base : Nat
  len : Nat
  deriving DecidableEq, Repr

def NfCfg.en (c : NfCfg) : Bool := bit c.cfg 0
def NfCfg.func (c : NfCfg) : Nat := bits c.cfg 8 8
def NfCfg.vobj (c : NfCfg) : Nat := bits c.cfg 16 16

def NfCfg.win (c : NfCfg) (n : Nat) : NfWin :=
  let p := c.wins.getD n (0, 0)
  { kind := if bit c.cfg (32 + n) then bits p.2 32 2 else 0, fmt := bits p.2 34 4, base := tgaMem p.1, len := 64 * bits p.2 0 32 }

/-- Guard states (Table 14-1). -/
def gOpen : Nat := 0
def gPending : Nat := 1
def gSkipping : Nat := 2

def guardOf (s : State) (ch : Nat) : Nat := s.fget Fld.CH_NFSTAT_GUARD ch

/-- Two ranges of memory addresses meet. -/
def meets (a n b m : Nat) : Bool := decide (a < b + m ∧ b < a + n)

/-- A write of a range lies in a STATE window of the channel whose memory it names. -/
def inStateWin (s : State) (a n : Nat) : Bool :=
  let c := (s.mon (bits a 46 2)).live
  (List.range 16).any fun i => decide ((c.win i).kind = 2) && meets a n (c.win i).base (c.win i).len

/-- What the guard does with a write (R299): 0 perform it, 1 hold it, 2 discard it. -/
def guardAct (s : State) (a n : Nat) : Nat :=
  let g := guardOf s (bits a 46 2)
  if g ≠ gOpen ∧ inStateWin s a n then g else 0

/-- An element that is NaN, or infinite, in the window's format. -/
def nonFinite (fmt n : Nat) : Bool :=
  match (fmtOf fmt).value n with
  | .fin _ _ _ => false
  | _ => true

/-- Bytes of an element of a window's format. -/
def elemBytes (fmt : Nat) : Nat := if fmt = 9 then 4 else if fmt ≤ 1 then 2 else 1

/-- A non-finite element at an address (R295). -/
def nfHit (s : State) (ch win a : Nat) (psn : Bool) : State :=
  let s := if s.fbit Fld.CH_NFSTAT_NF ch then s
    else s.fset Fld.CH_NFADDR_TGA ch 0 (s.fget Fld.HUB_OPMODE_PKG_NUM * 2 ^ 48 + a)
  let s := (s.fset Fld.CH_NFSTAT_NF ch 0 1).fset Fld.CH_NFSTAT_WHIT ch 0 (putBits (s.fget Fld.CH_NFSTAT_WHIT ch) win 1 1)
  let s := if psn then s.fset Fld.CH_NFSTAT_PSN ch 0 1 else s
  s.fadd Fld.CH_NFSTAT_NFCOUNT ch 0 1

/-- The elements of one GRAD window that a write covers, classified (R294); those of a word written poisoned count as
non-finite. -/
def classifyWin (s : State) (ch win a : Nat) (bs : List DByte) : State :=
  let w := (s.mon ch).live.win win
  if w.kind ≠ 1 ∨ !meets a bs.length w.base w.len then s
  else
    let k := elemBytes w.fmt
    let lo := max a w.base
    let hi := min (a + bs.length) (w.base + w.len)
    let first := (lo - w.base) / k
    let last := (hi - w.base + k - 1) / k
    (rangeFrom first (last - first)).foldl (fun s i =>
      let e := w.base + i * k
      if a ≤ e ∧ e + k ≤ a + bs.length then
        let el := (bs.drop (e - a)).take k
        let o := e / 8 * 8
        let psn := anyPsn ((bs.drop (o - a)).take (8 - (a - o)))
        if psn || nonFinite w.fmt (dNat el) then nfHit s ch win e psn else s
      else s.fadd Fld.CH_NFSTAT_PARTIAL ch 0 1) s

/-- A write classified at the cycle it is performed (R294). -/
def classify (s : State) (a : Nat) (bs : List DByte) : State :=
  let ch := bits a 46 2
  if (s.mon ch).live.en then (List.range 16).foldl (fun s n => classifyWin s ch n a bs) s else s

/-- A write reaches its target: classified and performed. -/
def storeBytes (s : State) (a : Nat) (bs : List DByte) : State := (classify s a bs).writeMem a bs

/-- Granules of 64 bytes that a range meets. -/
def rangeGranules (a n : Nat) : List Nat := rangeFrom (a / 64) ((a + n + 63) / 64 - a / 64)

/-- The part of a write at `a` that falls in a granule: its first address and its bytes. -/
def pieceAt (a : Nat) (bs : List DByte) (g : Nat) : Nat × List DByte :=
  let lo := max (64 * g) a
  (lo, (bs.drop (lo - a)).take (min (64 * g + 64) (a + bs.length) - lo))

/-- A write of which the guard discards what lies in a STATE window; windows begin and end at granules (R299). -/
def storeOutside (s : State) (a : Nat) (bs : List DByte) : State :=
  (rangeGranules a bs.length).foldl (fun s g =>
    let p := pieceAt a bs g
    if inStateWin s p.1 p.2.length then s else storeBytes s p.1 p.2) s

/-- A write joins those held. -/
def holdWrite (s : State) (ch : Nat) (w : HeldWrite) : State := s.setMon ch fun m => { m with held := m.held ++ [w] }

/-- A discard counted (R300). -/
def countDiscard (s : State) (ch : Nat) : State := s.fadd Fld.CH_NFVERDICT_DISCARDS ch 0 1

/-- A unit's own write under the guard (R299): its code and the number of its bytes once it is performed or discarded; none while it
is held, and then the unit asks again with the same key. -/
def guardStore (s : State) (key : Nat × Nat × Nat) (a : Nat) (bs : List DByte) : State × Option (Nat × Nat) :=
  let ch := bits a 46 2
  let m := s.mon ch
  match m.ready.find? fun p => decide (p.1 = key) with
  | some p => (s.setMon ch fun m => { m with ready := m.ready.filter fun q => q.1 ≠ key }, some p.2)
  | none =>
    if m.held.any fun w => match w with | .put k _ _ => decide (k = key) | .req _ => false then (s, none)
    else match guardAct s a bs.length with
      | 0 => (storeBytes s a bs, some (0, bs.length))
      | 1 => (holdWrite s ch (.put key a bs), none)
      | _ => (storeOutside (countDiscard s ch) a bs, some (cNonfiniteSkip, bs.length))

/-- A unit has asked for a write under a key that it has not been told the outcome of. -/
def askedStore (s : State) (ch : Nat) (key : Nat × Nat × Nat) : Bool :=
  (s.mon ch).ready.any (fun p => decide (p.1 = key)) ||
    (s.mon ch).held.any fun w => match w with | .put k _ _ => decide (k = key) | .req _ => false

/-- A write that nobody waits for: debug accesses and status words (R299). -/
def guardPut (s : State) (a : Nat) (bs : List DByte) : State :=
  let ch := bits a 46 2
  match guardAct s a bs.length with
  | 0 => storeBytes s a bs
  | 1 => holdWrite s ch (.put (9, 0, 0) a bs)
  | _ => storeOutside (countDiscard s ch) a bs

/-- Held writes and outcomes of units that pass a test go with them. -/
def dropHeld (s : State) (ch : Nat) (p : Nat × Nat × Nat → Bool) : State :=
  match SMap.get? s.mons ch with
  | none => s
  | some _ => s.setMon ch fun m =>
    { m with held := m.held.filter fun w => match w with | .put k _ _ => !p k | .req _ => true
             ready := m.ready.filter fun q => !p q.1 }

end Sys2Proof.Machine
end

