-- ==== Sys2Proof/Machine/Buf.lean ====
section
/-! DEFINITION. Stream buffers (chapter 9): configuration words, slots, publish, release, swap, and what commit and squash of
a take do to them. -/

namespace Sys2Proof.Machine

/-! Word A (Table 9-1). -/

def sbMode (a : Nat) : Nat := bits a 0 2
def sbNslot (a : Nat) : Nat := bits a 2 5
def sbAuto (a : Nat) : Bool := bit a 7
def sbBase (a : Nat) : Nat := bits a 8 15 * 128
def sbSlot (a : Nat) : Nat := bits a 23 13 * 128
def sbProd (a : Nat) : Nat := bits a 36 2
def sbPport (a : Nat) : Nat := bits a 38 4
def sbCmask (a : Nat) : Nat := bits a 42 16

/-! Word B (Table 9-2). -/

def sbRoute (b : Nat) : Nat := bits b 0 8
def sbPasses (b : Nat) : Nat := bits b 8 8
def sbPsig (b : Nat) : Bool := bit b 16
def sbRsig (b : Nat) : Bool := bit b 17
def sbDeal (b : Nat) : Bool := bit b 18
def sbProute (b : Nat) : Nat := bits b 24 8
def sbPsync (b : Nat) : Nat := bits b 32 16
def sbRsync (b : Nat) : Nat := bits b 48 16

def mOff : Nat := 0
def mHalves : Nat := 1
def mRing : Nat := 2

/-- The live words of a buffer. -/
def sbA (s : State) (ch c n : Nat) : Nat := s.regN .CL_SBn_LIVEA (clLoc ch c) n
def sbB (s : State) (ch c n : Nat) : Nat := s.regN .CL_SBn_LIVEB (clLoc ch c) n

/-- A pair of words valid by itself (R201, R202); mode OFF ignores the rest. -/
def sbWordsOk (a b : Nat) : Bool :=
  let m := sbMode a
  decide (m = mOff) ||
    (decide (m = mHalves ∨ m = mRing) &&
      (if m = mHalves then decide (sbNslot a = 2) else decide (3 ≤ sbNslot a ∧ sbNslot a ≤ 16) && !sbAuto a) &&
      decide (1 ≤ bits a 23 13 ∧ bits a 23 13 ≤ 8191) && decide (sbProd a ≠ 3) &&
      (decide (sbProd a = 1) || decide (sbPport a = 0 ∧ sbProute b = 0)) && decide (bits a 58 6 = 0) &&
      (decide (sbCmask a ≠ 0) || (decide (sbRoute b = 0) && !sbDeal b)) &&
      (decide (m = mHalves) || decide (sbPasses b = 0)) && decide (bits b 19 5 = 0) &&
      decide (sbBase a + sbNslot a * sbSlot a ≤ depotSize))

/-- Two buffers share a producer port and route (R202). -/
def sbClash (a b a' b' : Nat) : Bool :=
  decide (sbMode a ≠ mOff ∧ sbMode a' ≠ mOff ∧ sbProd a = 1 ∧ sbProd a' = 1 ∧ sbPport a = sbPport a' ∧
    sbProute b = sbProute b')

/-- The sync indices of a configuration lie in the function's range, whether or not it sends their signals (R203, R242, R243). -/
def sbSyncOk (s : State) (ch : Nat) (fn : Option Nat) (a b : Nat) : Bool :=
  match fn with
  | none => true
  | some f =>
    let n := recSyncCnt (s.fnrec ch f)
    decide (sbMode a = mOff ∨ (sbPsync b < n ∧ sbRsync b < n))

def sbuf (s : State) (ch c n : Nat) : SBuf := SMap.get {} (s.clu ch c).bufs n

def setSbuf (s : State) (ch c n : Nat) (f : SBuf → SBuf) : State :=
  s.setClu ch c fun cl => { cl with bufs := SMap.put cl.bufs n (f (SMap.get {} cl.bufs n)) }

/-- Fields of `CL_SBn_STAT`. -/
def pubCnt (s : State) (ch c n : Nat) : Nat := s.fget Fld.CL_SBn_STAT_PUBCNT (clLoc ch c) n
def relCnt (s : State) (ch c n : Nat) : Nat := s.fget Fld.CL_SBn_STAT_RELCNT (clLoc ch c) n
def sbFill (s : State) (ch c n : Nat) : Nat := s.fget Fld.CL_SBn_STAT_FILL (clLoc ch c) n
def sbMarked (s : State) (ch c n : Nat) : Bool := s.fbit Fld.CL_SBn_STAT_MARKV (clLoc ch c) n
def fHalf (s : State) (ch c n : Nat) : Nat := s.fget Fld.CL_SBn_STAT_FHALF (clLoc ch c) n
def setFill (s : State) (ch c n v : Nat) : State := s.fset Fld.CL_SBn_STAT_FILL (clLoc ch c) n v

/-- Slots published and unreleased (R205). -/
def sbOcc (s : State) (ch c n : Nat) : Nat := (pubCnt s ch c n + 65536 - relCnt s ch c n) % 65536

/-- A fill slot is free (R205, R213). -/
def sbRoom (s : State) (ch c n : Nat) : Bool :=
  let a := sbA s ch c n
  if sbMode a = mHalves then !(sbuf s ch c n).filled else decide (sbOcc s ch c n < sbNslot a)

/-- A slot is published for the consumer (R205, R213). -/
def sbHead (s : State) (ch c n : Nat) : Bool :=
  let a := sbA s ch c n
  if sbMode a = mHalves then (sbuf s ch c n).full else decide (sbMode a = mRing) && decide (sbOcc s ch c n ≠ 0)

/-- Depot offset of the fill slot and of the drain slot (R205). -/
def fillBase (s : State) (ch c n : Nat) : Nat :=
  let a := sbA s ch c n
  let i := if sbMode a = mHalves then fHalf s ch c n else pubCnt s ch c n % sbNslot a
  sbBase a + i * sbSlot a

def drainBase (s : State) (ch c n : Nat) : Nat :=
  let a := sbA s ch c n
  let i := if sbMode a = mHalves then 1 - fHalf s ch c n else relCnt s ch c n % sbNslot a
  sbBase a + i * sbSlot a

/-- The head slot is one published while the mark stands (R217). -/
def headMarked (s : State) (ch c n : Nat) : Bool :=
  sbMarked s ch c n && decide ((relCnt s ch c n + 65536 - (sbuf s ch c n).markPub) % 65536 < 32768) && sbHead s ch c n

/-- The signal of a publish or release (R216), held while its slot is marked (R217). -/
def sbSignal (s : State) (ch c n : Nat) (pub marked : Bool) : State :=
  let b := sbB s ch c n
  if (if pub then sbPsig b else sbRsig b) then
    if marked then setSbuf s ch c n fun x => { x with held := x.held ++ [pub] }
    else signalAdd s ch 1 c n (if pub then sbPsync b else sbRsync b)
  else s

/-- The fill slot published (R207, R213). -/
def sbPublish (s : State) (ch c n : Nat) : State :=
  let a := sbA s ch c n
  let s := s.finc Fld.CL_SBn_STAT_PUBCNT (clLoc ch c) n 1
  let s := if sbMode a = mHalves then setSbuf s ch c n fun x => { x with filled := true } else setFill s ch c n 0
  sbSignal s ch c n true (sbMarked s ch c n)

/-- The head slot released, its signal aside. -/
def sbReleased (s : State) (ch c n : Nat) : State :=
  setSbuf (s.finc Fld.CL_SBn_STAT_RELCNT (clLoc ch c) n 1) ch c n fun x => { x with full := false, pass := 0, sent := [] }

/-- The head slot released (R211, R212). -/
def sbRelease (s : State) (ch c n : Nat) : State := sbSignal (sbReleased s ch c n) ch c n false (headMarked s ch c n)

/-- A descriptor of `KIND` 0x3 names the buffer and has not completed. -/
def sbNamed (s : State) (ch c n : Nat) : Bool :=
  (s.clu ch c).slots.any fun p => p.2.live && decide (p.2.kind = 3) && decide (bits p.2.dst 0 5 = n)

/-- The buffer is idle (R204). -/
def sbIdle (s : State) (ch c n : Nat) : Bool :=
  let x := sbuf s ch c n
  decide (sbOcc s ch c n = 0) && !x.filled && !x.full && decide (sbFill s ch c n = 0) && !sbNamed s ch c n &&
    x.sent.isEmpty && x.stopped.isNone && !sbMarked s ch c n

/-- A configuration put in force (R204). -/
def sbApply (s : State) (ch c n a b : Nat) : State :=
  let l := clLoc ch c
  let s := (s.setReg .CL_SBn_LIVEA l n a).setReg .CL_SBn_LIVEB l n b
  setSbuf (s.setReg .CL_SBn_STAT l n 0) ch c n fun _ => {}

/-- `FILL` moves past bytes that have been settled, publishing the slot they complete (R207, R209). -/
def sbAdvance (s : State) (ch c n k : Nat) : State :=
  let f := sbFill s ch c n + k
  let s := setFill s ch c n f
  if f = sbSlot (sbA s ch c n) then sbPublish s ch c n else s

/-- Address of the next byte of the fill slot. -/
def fillAt (s : State) (ch c n : Nat) : Nat := depotAt ch c (fillBase s ch c n + sbFill s ch c n)

/-- Bytes that fit the present fill slot. -/
def sbFree (s : State) (ch c n : Nat) : Nat :=
  if sbRoom s ch c n then sbSlot (sbA s ch c n) - sbFill s ch c n else 0

/-- Bytes of room in the whole buffer (R208). -/
def sbFreeAll (s : State) (ch c n : Nat) : Nat :=
  let a := sbA s ch c n
  if !sbRoom s ch c n then 0
  else if sbMode a = mHalves then sbSlot a - sbFill s ch c n
  else (sbNslot a - sbOcc s ch c n) * sbSlot a - sbFill s ch c n

/-- The mark of a tagged descriptor begins (R217). -/
def sbMark (s : State) (ch c n : Nat) (k : Fin 4) : State :=
  if sbMarked s ch c n then s
  else
    let l := clLoc ch c
    let p := pubCnt s ch c n
    let f := sbFill s ch c n
    setSbuf ((s.fset Fld.CL_SBn_STAT_MARKV l n 1).fset Fld.CL_SBn_STAT_MARK l n k) ch c n fun x =>
      { x with markPub := p, markFill := f }

/-- Commit of slot `k` for one buffer (R218). -/
def sbCommit (ch c : Nat) (k : Fin 4) (s : State) (n : Nat) : State :=
  let l := clLoc ch c
  if sbMarked s ch c n ∧ s.fget Fld.CL_SBn_STAT_MARK l n = k then
    let held := (sbuf s ch c n).held
    let s := (s.fset Fld.CL_SBn_STAT_MARKV l n 0).fset Fld.CL_SBn_STAT_MARK l n 0
    let s := setSbuf s ch c n fun x => { x with held := [] }
    held.foldl (fun s p => sbSignal s ch c n p false) s
  else s

/-- Squash of slot `k` for one buffer (R218). -/
def sbSquash (ch c : Nat) (k : Fin 4) (s : State) (n : Nat) : State :=
  let l := clLoc ch c
  if sbMarked s ch c n ∧ s.fget Fld.CL_SBn_STAT_MARK l n = k then
    let x := sbuf s ch c n
    let r := relCnt s ch c n
    let past := decide (0 < (r + 65536 - x.markPub) % 65536 ∧ (r + 65536 - x.markPub) % 65536 < 32768)
    let mid := headMarked s ch c n
    let odd := x.sent.filter fun p => p.2 % 2 = 1
    let s := s.fset Fld.CL_SBn_STAT_PUBCNT l n (if past then r else x.markPub)
    let s := setFill s ch c n (if past then 0 else x.markFill)
    let s := (s.fset Fld.CL_SBn_STAT_MARKV l n 0).fset Fld.CL_SBn_STAT_MARK l n 0
    setSbuf s ch c n fun x =>
      { x with held := [], markPub := 0, markFill := 0,
               sent := if mid then odd else x.sent,
               stopped := if mid ∧ ¬ odd.isEmpty then some k else x.stopped }
  else s

end Sys2Proof.Machine
end

