-- ==== Sys2Proof/Machine/Section.lean ====
section
/-! DEFINITION. Squash of a take (R283), the steps by which a section gives its clusters back (R164), failure of a load (R162),
abort of a section (R269, R482), and a cluster or a channel that loses its state (R481, R484). -/

namespace Sys2Proof.Machine

def State.load (s : State) (ch : Nat) : LoadSeq := SMap.get {} s.loads ch

def State.setLoad (s : State) (ch : Nat) (f : LoadSeq → LoadSeq) : State :=
  { s with loads := SMap.put s.loads ch (f (s.load ch)) }

def State.seal (s : State) (ch : Nat) : Seal := SMap.get {} s.seals ch

def State.setSeal (s : State) (ch : Nat) (f : Seal → Seal) : State :=
  { s with seals := SMap.put s.seals ch (f (s.seal ch)) }

def State.ct (s : State) (ch : Nat) : Ct := SMap.get {} s.cts ch

def State.setCt (s : State) (ch : Nat) (f : Ct → Ct) : State :=
  { s with cts := SMap.put s.cts ch (f (s.ct ch)) }

/-! States of the load sequencer (`CH_LDSTAT.STATE`). -/

def ldIdle : Nat := 0
def ldFetch : Nat := 1
def ldCheck : Nat := 2
def ldWrite : Nat := 3
def ldPreload : Nat := 4
def ldArmed : Nat := 5
def ldStarting : Nat := 6
def ldFailed : Nat := 7
def ldUnloading : Nat := 8

def ldState (s : State) (ch : Nat) : Nat := s.fget Fld.CH_LDSTAT_STATE ch

/-- A change of state, which the dailies record (Table 24-3). -/
def setLdState (s : State) (ch v : Nat) : State :=
  dlyRecord (s.fset Fld.CH_LDSTAT_STATE ch 0 v) ch 1 (s.fget Fld.CH_LDSTAT_CODE ch) 127 v (s.load ch).sec

/-- A request that waits where it has not left its issuer yet. -/
def Place.waiting : Place → Bool
  | .gate | .table | .busy => true
  | _ => false

/-- The request writes the depot of the cluster that issued it, and is not performed yet. -/
def Req.ownWrite (r : Req) (c : Nat) : Bool :=
  decide (r.place = .depot c ∨ r.place = .guard) && !r.entry && (match r.op with | .write _ => true | _ => false)

/-- Descriptors of a cluster that pass a test are cancelled (R566): their requests not yet issued go, and so do bytes of the own
depot not yet written. -/
def cancelSlots (s : State) (ch c : Nat) (p : DSlot → Bool) : State :=
  let hit := (s.clu ch c).slots.filter fun x => x.2.live && p x.2
  let mine (n : Nat) : Bool := hit.any fun x => decide (x.1 = n)
  let s := s.setClu ch c fun cl =>
    { cl with slots := cl.slots.map fun x => if x.2.live && p x.2 then (x.1, { x.2 with cancelled := true, hold := [], lane := [] }) else x }
  let s := dropHeld s ch fun k => decide (k.1 = 2 ∧ k.2.1 = c) && mine k.2.2
  s.setChan ch fun k =>
    { k with reqs := k.reqs.filter fun r => !((r.place.waiting || r.ownWrite c) && (match r.ret with
        | .dolly c' n _ _ => decide (c' = c) && mine n
        | _ => false)) }

/-- Units of a tile's siding lists whose flit belongs to slot `k` are condemned (R271). -/
def condemn (s : State) (ch c : Nat) (k : Fin 4) (t : Tile) : Tile :=
  let hit (u : Nat) : Bool :=
    let tag := dNat (s.readMem (depotAt ch c (64 * u + 48)) 2)
    bit tag 12 && decide (bits tag 10 2 = k.val)
  { t with dead := ((t.siding.map Prod.snd).flatten).filter fun u => t.dead.contains u || hit u }

/-- Flits of slot `k` in queues, which are discarded when they reach the cluster edge (R60). -/
def goneFlits (k : Fin 4) (m : SMap (List Flit)) : SMap (List Flit) :=
  m.map fun p => (p.1, p.2.map fun f => if f.spec && decide (f.take.toNat = k.val) then { f with gone := true } else f)

/-- An UNDO record applied (R283): its bytes come back, or where it was lost their words are marked poisoned (R291). -/
def applyUndo (ch c : Nat) (s : State) : PenRec → State
  | .undo off data => s.writeMem (depotAt ch c off) data
  | .lost (some (off, n)) => (unitsOf (depotAt ch c off) n).foldl State.markPoison s
  | _ => s

/-- Squash of slot `k` (R283, steps 2 to 7). -/
def squashSlot (s : State) (ch c : Nat) (k : Fin 4) : State :=
  let s := mapTiles s ch c fun t =>
    condemn s ch c k { tileSquash k t with rq := goneFlits k t.rq, tq := goneFlits k t.tq }
  let s := s.setClu ch c fun cl => { cl with aq := goneFlits k cl.aq, dq := goneFlits k cl.dq }
  let s := (List.range 32).foldl (sbSquash ch c k) s
  let s := cancelSlots s ch c fun d => decide (d.take = some k)
  let s := dropHeld s ch fun q => decide (q.1 = 0 ∧ q.2.1 = c) && decide ((SMap.get {} (s.clu ch c).stws q.2.2).take = some k)
  let undo := ((s.clu ch c).pen.filter fun p => decide (p.1 = k)).reverse
  let s := (undo.map Prod.snd).foldl (applyUndo ch c) s
  let s := s.setClu ch c fun cl => { cl with pen := cl.pen.filter fun p => p.1 ≠ k }
  let s := setTake s ch c k fun _ => {}
  let s := s.fadd Fld.CL_TAKESTAT_SQUASHES (clLoc ch c) 0 1
  pmCount (dlyRecord s ch 4 0 c (k.val + 4) undo.length) ch 0x0A c 1

/-- Requests of a cluster lose their requester: outcomes go nowhere (R164). -/
def orphanReqs (s : State) (ch c : Nat) : State :=
  let s := s.setChan ch fun k =>
    { k with
      reqs := (k.reqs.filter fun r => !(r.ret.ofCluster c && r.place.waiting && (decide (r.place ≠ .table) ||
          (match r.op with | .read _ => true | _ => false)))).map fun r =>
        if r.ret.ofCluster c then { r with ret := .drop } else r
      waiters := k.waiters.filter fun w => !w.who.ofCluster c }
  s.setCt ch fun t =>
    { t with flows := t.flows.map fun p =>
        (p.1, { p.2 with ops := p.2.ops.map fun o => if o.ret.ofCluster c then { o with ret := .drop } else o }) }

/-- Reads of the Seal unit on the way lose their reader. -/
def dropKeyReads (s : State) (ch : Nat) : State :=
  (unitDrop s ch 1).setChan ch fun k => { k with reqs := k.reqs.map fun r => if r.ret = .seal then { r with ret := .drop } else r }

/-- A section's entries of the Seal queue before their write point end without completion (R331). -/
def sealLeave (s : State) (ch c : Nat) : State :=
  match SMap.get? s.seals ch with
  | none => s
  | some u0 =>
    let hit := match u0.run with
      | some r => (match SMap.get? u0.ents r.ent with | some e => decide (e.w / 2 = c ∧ r.phase ≠ 6) && e.ctx.isNone | none => false)
      | none => false
    (if hit then dropKeyReads s ch else s).setSeal ch fun u =>
    let mine (e : SealEnt) : Bool := decide (e.w / 2 = c) && e.ctx.isNone
    let inWrite (n : Nat) : Bool := match u.run with | some r => decide (r.ent = n ∧ r.phase = 6) | none => false
    let gone (n : Nat) : Bool := match SMap.get? u.ents n with | some e => mine e && !inWrite n | none => false
    { u with
      order := u.order.filter fun n => !gone n
      run := match u.run with | some r => if gone r.ent then none else some r | none => none
      ents := (u.ents.filter fun p => !gone p.1).map fun p => if mine p.2 then (p.1, { p.2 with silent := true }) else p }

/-- Steps 1 to 3 of R164 for one cluster. -/
def closeWork (ch : Nat) (s : State) (c : Nat) : State :=
  let l := clLoc ch c
  let s := s.fset Fld.CL_GATE_WR l 0 0
  let s := dropHeld (cancelSlots s ch c fun _ => true) ch fun k => decide (k.1 = 0 ∧ k.2.1 = c)
  let s := orphanReqs s ch c
  let s := (List.range 64).foldl (fun s t =>
    if s.fget Fld.TL_STATUS_STATE (l * 64 + t) = tReset then s else s.fset Fld.TL_STATUS_STATE (l * 64 + t) 0 tReset) s
  let s := s.fset Fld.CL_GATE_TILES l 0 0
  let s := s.setClu ch c fun cl => { cl with stws := [] }
  let s := ((s.setReg .CL_STWn_CTRL l 0 0).setReg .CL_STWn_CTRL l 1 0)
  let s := (List.finRange 4).foldl (fun (s : State) (k : Fin 4) => if takeOpen s ch c k then squashSlot s ch c k else s) s
  let s := sealLeave s ch c
  s.setClu ch c fun cl => { cl with slots := [], pen := [], act := none, actq := [], shut := false, take := [], sbDue := [] }

/-- Flits of a tile's queues and siding lists discarded (R164 step 5, R269). -/
def tileDrain (t : Tile) : Tile :=
  { t with rq := [], tq := [], retR := [], retT := [], lock := [], served := [], latched := [], spilled := [], siding := [], dead := [] }

/-- A write, message, flit or signal of the clusters that is past their gates and not performed yet (R164 step 4). -/
def Req.posted (cs : List Nat) (r : Req) : Bool :=
  cs.contains r.cl && decide (r.place ≠ .done) && (match r.op with | .read _ => false | _ => true)

/-- Traffic in the siding lists of a cluster's gateway inputs is discarded, but what its section has posted completes (R164, R269). -/
def emptyLists (s : State) (ch c : Nat) (cs : List Nat) : State :=
  let inList (r : Req) : Bool := (match r.place with | .mesh c' _ => decide (c' = c) | _ => false) && !r.units.isEmpty
  let lost := ((s.chan ch).reqs.filter fun r => inList r && !r.posted cs).map fun r => match r.ret with | .leg n => n | _ => r.no
  s.setChan ch fun k =>
    { k with reqs := (k.reqs.filter fun r => !lost.contains (match r.ret with | .leg n => n | _ => r.no)).map fun r =>
        if inList r then { r with units := [] } else r }

/-- Signals of a cluster's descriptors, buffers and queues that are on their way act though its release tree port closes. -/
def freeSignals (s : State) (ch c : Nat) : State :=
  s.setChan ch fun k => { k with reqs := k.reqs.map fun r => match r.ret with
    | .signal _ c' _ => if c' = c then { r with ret := .drop } else r
    | _ => r }

/-- Step 5 of R164 for one cluster of a section on the clusters `cs`. -/
def closeOut (cs : List Nat) (ch : Nat) (s : State) (c : Nat) : State :=
  let s := freeSignals (s.fset Fld.CL_GATE_OUT (clLoc ch c) 0 0) ch c
  let s := mapTiles s ch c tileDrain
  let s := dropHeld (emptyLists s ch c cs) ch fun k => decide (k.1 = 1 ∧ k.2.1 = c)
  s.setClu ch c fun cl =>
    { cl with aq := [], dq := [], retA := [], retD := [], relq := [], portBuf := [], gwSpilled := [],
              freeUnits := List.range (16 * cl.siding), bufs := cl.bufs.map fun p => (p.1, { p.2 with sent := [], stopped := none }) }

/-- Step 6 of R164 for one cluster: it is unowned, its buffers and queues are OFF (chapter 9, R241). -/
def disown (ch : Nat) (s : State) (c : Nat) : State :=
  let l := clLoc ch c
  let s := (s.setReg .CL_GATE l 0 0).setReg .CL_SECTION l 0 0
  let s := (List.range 32).foldl (fun s n => if sbA s ch c n = 0 ∧ s.regN .CL_SBn_STAT l n = 0 then s else sbApply s ch c n 0 0) s
  let s := (List.range 16).foldl (fun s q =>
    (s.setReg .CL_QCFGn l q 0).fset Fld.CL_QSTATn_POISONED l q 0) s
  s.setClu ch c fun cl =>
    { cl with bufs := [], queues := [], ptrapped := [], watched := false, owner := none, siding := 0, freeUnits := [], tokens := [] }

/-- Steps 1 to 5, and all six, for the clusters of a section (R162, R164). -/
def closeSection (s : State) (ch : Nat) (cs : List Nat) : State := cs.foldl (closeOut cs ch) (cs.foldl (closeWork ch) s)
def endSection (s : State) (ch : Nat) (cs : List Nat) : State := cs.foldl (disown ch) (closeSection s ch cs)

/-! ### Commands that wait at the sequencer (R358, R359) -/

/-- A load of the function runs. -/
def loadRuns (s : State) (ch f : Nat) : Bool :=
  decide (ldState s ch ≠ ldIdle ∧ ldState s ch ≠ ldFailed ∧ ldState s ch ≠ ldUnloading ∧ (s.load ch).fn = f)

/-- A load of the function is queued or runs. -/
def loadQueued (s : State) (ch f : Nat) : Bool :=
  loadRuns s ch f || (s.load ch).waiting.any fun c => match c with
    | .load c _ _ => decide (c.f = f)
    | _ => false

/-- The start event of an armed section (R158). -/
def beginStart (s : State) (ch : Nat) : State :=
  setLdState ((s.fset Fld.CH_LDSTAT_STEP ch 0 0).setLoad ch fun l => { l with issued := false, pulse := false }) ch ldStarting

/-- The sequencer drops the reads of its reel. -/
def reelDrop (s : State) (ch : Nat) : State := unitDrop s ch 0

/-- The placement of a reel, and its function's right to read it (R146). -/
def reelCode (s : State) (ch : Nat) (l : LoadSeq) : Nat :=
  if !isOwn s ch l.tga || decide (tgaSpace l.tga ≠ 0 ∨ tgaOff l.tga % 8 ≠ 0 ∨ l.len < 84 ∨ 268435460 < l.len ∨ (l.len - 4) % 8 ≠ 0) ||
      !offsetOk (some (s.fget Fld.CH_HBMSIZE_SIZE ch)) l.tga l.len then cCfgIgnored
  else if !permitMem s s.rpt ch l.fn false false l.tga l.len then cRptViolation
  else 0

/-- A pass over the reel begins: the sequencer asks for its bytes (R151, R153, R191). -/
def reelAsk (s : State) (ch : Nat) : State :=
  let l := s.load ch
  if reelCode s ch l ≠ 0 then s else unitAsk s ch 0 98 (some l.fn) [(l.tga, l.len)]

/-- A load begins: `FETCH` (R150). -/
def beginFetch (s : State) (ch tga len fn : Nat) (cmd : Option CmdRef) : State :=
  let s := s.setLoad ch fun l =>
    { tga := tga, len := len, fn := fn, cmd := cmd, no := l.no + 1, waiting := l.waiting, sections := l.sections }
  let s := ((s.fset Fld.CH_LDSTAT_CODE ch 0 0).fset Fld.CH_LDSTAT_WOPEN ch 0 0).fset Fld.CH_LDSTAT_STEP ch 0 0
  reelAsk (setLdState s ch ldFetch) ch

/-- Outcome of a write to `CH_LDCTRL`. -/
def cmtCode (s : State) (ch code : Nat) : State := s.fset Fld.CH_LDSTAT_CMTCODE ch 0 code

/-- Steps 1 to 3 of an unload begin (R164); an identifier that no running section has is refused. -/
def beginUnload (s : State) (ch sec : Nat) (cmd : Option CmdRef) : State :=
  match (s.load ch).sections.find? fun x => decide (x.id = sec) with
  | none => hostDone? (cmtCode s ch cCfgIgnored) cmd cCfgIgnored 0 sec
  | some x =>
    let s := x.cls.foldl (closeWork ch) s
    let s := x.cls.foldl (fun s c => s.setClu ch c fun k => { k with watched := false }) s
    let s := s.setLoad ch fun l =>
      { l with sections := l.sections.filter fun y => y.load ≠ x.load
               unloadCmd := cmd, cls := x.cls, sec := x.id, fn := x.fn, owned := true }
    cmtCode (setLdState s ch ldUnloading) ch cNone

/-- A `START` that is held acts, ends, or stays held (R359). -/
def tryStart (s : State) (ch : Nat) (c : CmdRef) (sec : Nat) : State × Bool :=
  let l := s.load ch
  if ldState s ch = ldArmed then
    if l.sec = sec ∧ l.start = 1 then (hostDone (cmtCode (beginStart s ch) ch cNone) c cNone 0 0, true)
    else (hostDone s c cCfgIgnored 0 sec, true)
  else if loadQueued s ch c.f then (s, false)
  else (hostDone s c cCfgIgnored 0 sec, true)

/-- The held `START`s judged, oldest first. -/
def settleStarts (s : State) (ch : Nat) : State :=
  (s.load ch).waiting.foldl (fun s w =>
    match w with
    | .start c sec =>
      let (s, gone) := tryStart s ch c sec
      if gone then s.setLoad ch fun l => { l with waiting := l.waiting.filter fun y => y ≠ w } else s
    | _ => s) s

/-- An idle sequencer takes the oldest waiting `LOAD` or `UNLOAD`, which its registers then show (Table 17-3). -/
def settleIdle : Nat → State → Nat → State
  | 0, s, _ => s
  | n + 1, s, ch =>
    if ldState s ch ≠ ldIdle then s
    else match (s.load ch).waiting.find? fun w => match w with | .start _ _ => false | _ => true with
      | none => s
      | some w =>
        let s := s.setLoad ch fun l => { l with waiting := l.waiting.filter fun y => y ≠ w }
        match w with
        | .load c tga len =>
          let s := ((s.setReg .CH_LDSRC ch 0 tga).fset Fld.CH_LDREQ_LENGTH ch 0 len).fset Fld.CH_LDREQ_FUNC ch 0 c.f
          cmtCode (beginFetch s ch tga len c.f (some c)) ch cNone
        | .unload c sec => settleIdle n (beginUnload (s.fset Fld.CH_LDUNLOAD_SECTION ch 0 sec) ch sec (some c)) ch
        | .start _ _ => s

/-- The sequencer has changed state: what waits for it goes on. -/
def settle (s : State) (ch : Nat) : State :=
  let s := settleStarts s ch
  settleStarts (settleIdle ((s.load ch).waiting.length + 1) s ch) ch

/-- What the code of a failing load concerns (Table 17-4): the reel until it has been read, then the section. -/
def loadDetail (s : State) (ch : Nat) : Nat := if ldState s ch = ldFetch then (s.load ch).tga else (s.load ch).sec

/-- Entry to `FAILED` (R162), with the unit that the report names (R160). -/
def loadFailAt (s : State) (ch code unit : Nat) : State :=
  let l := s.load ch
  let detail := loadDetail s ch
  let opened := l.owned && l.cls.any fun c => gateWr s ch c
  let s := if l.owned then
      l.cls.foldl (fun s c => (s.setReg .CL_GATE (clLoc ch c) 0 0).fset Fld.CL_GATE_OWNED (clLoc ch c) 0 1) (closeSection s ch l.cls)
    else s
  let s := setLdState ((reelDrop s ch).fset Fld.CH_LDSTAT_CODE ch 0 code) ch ldFailed
  let s := s.fset Fld.CH_LDSTAT_WOPEN ch 0 (ofBit opened)
  let s := s.fadd Fld.CH_LDSTAT_FAILCNT ch 0 1
  let s := { s with hub := { s.hub with loadfailN := insertN ch s.hub.loadfailN } }
  let s := hostDone? s l.cmd code l.sec detail
  settle (report3 (s.setLoad ch fun l => { l with cmd := none }) ch code 0 127 unit 0 l.sec) ch

def loadFail (s : State) (ch code : Nat) : State := loadFailAt s ch code 0

/-- Every unit that a load requires is in service (Table 7-5 check 3): Seal unit, EGC decoder, link compressor, gate dies. -/
def unitsLive (s : State) (ch needs : Nat) : Bool :=
  (!bit needs 0 || s.fbit Fld.CH_CAPS_SEAL_LIVE ch) && (!bit needs 1 || s.fbit Fld.CH_CAPS_EGC_LIVE ch) &&
    (!bit needs 2 || s.fbit Fld.CH_CAPS_LC_LIVE ch) &&
    decide (bits needs 3 2 ≤ popCount 4 ((s.fget Fld.CH_CAPS_SITE_GATE ch) &&& (s.fget Fld.CH_CAPS_SITE_LIVE ch)))

/-- A unit has left service: a load that requires it fails (Table 7-6). -/
def unitLeft (s : State) (ch : Nat) : State :=
  if (s.load ch).owned ∧ ldState s ch ≠ ldIdle ∧ ldState s ch ≠ ldFailed ∧ ldState s ch ≠ ldUnloading ∧
      ¬ unitsLive s ch (s.load ch).needs then loadFail s ch cUnitAbsent
  else s

/-- A load is in progress and owns the cluster. -/
def loadOwns (s : State) (ch c : Nat) : Bool :=
  decide (ldState s ch ≠ ldIdle ∧ ldState s ch ≠ ldUnloading ∧ ldState s ch ≠ ldFailed) && (s.load ch).owned &&
    (s.load ch).cls.contains c

/-- The section that runs on a cluster, if any. -/
def sectionOf (s : State) (ch c : Nat) : Option Section := (s.load ch).sections.find? fun x => x.cls.contains c

/-- Its identifier, 0 for none. -/
def clSection (s : State) (ch c : Nat) : Nat := (sectionOf s ch c).elim 0 Section.id

/-- A running section aborted (R269, R482): its clusters go back, the owner gets event 0x0001. -/
def abortRunning (s : State) (ch c : Nat) (x : Section) (code : Nat) : State :=
  let s := endSection s ch x.cls
  let s := s.setLoad ch fun l => { l with sections := l.sections.filter fun y => y.load ≠ x.load }
  let s := dlyRecord (postEvent s x.fn 1 ch code x.id x.id) ch 2 code c x.id 0
  pend (report3 s ch code 12 c 0 0 x.id) Fld.HUB_FAULTPEND_ABORT

/-- The section that runs on a cluster is aborted with a code. A load that owns the cluster goes on: Table 7-6 lists no such event
for it (R166). -/
def abortCluster (s : State) (ch c code : Nat) : State :=
  match sectionOf s ch c with
  | some x => abortRunning s ch c x code
  | none => s

/-- A fenced cluster loses everything it held (R481); its gateway forwards on. -/
def dropCluster (s : State) (ch c : Nat) : State :=
  let l := clLoc ch c
  let s := orphanReqs s ch c
  let s := { s with tiles := SMap.keep (fun k => !decide (k / 64 = l)) s.tiles, cls := SMap.erase s.cls l }
  let s := dropRegs s fun i loc =>
    (decide (loc = l ∧ i ≠ Reg.CL_CAPS.ctorIdx) && Block.clRegs.any fun r => decide (r.ctorIdx = i)) ||
      (decide (loc / 64 = l) && Block.tlRegs.any fun r => decide (r.ctorIdx = i))
  s.zeroMem (depotAt ch c 0) depotSize

/-- Location of a block's copy in a channel. -/
def Block.inChannel (b : Block) (ch loc : Nat) : Bool :=
  match b with
  | .ch | .seal | .ct => decide (loc = ch)
  | .dst => decide (loc / 6 = ch)
  | .cl => decide (loc / 96 = ch)
  | .tl => decide (loc / 6144 = ch)
  | .fdl => decide (loc / 10 = ch)
  | .hub | .fn => false

/-- A channel held in reset loses the state of its field die (R27, R484); the hub keeps the mirror of its capabilities and the
tail of its dailies. -/
def dropChannel (s : State) (ch : Nat) : State :=
  let keep : List Nat := [Reg.CH_CAPS.ctorIdx, Reg.CH_HBMMAP.ctorIdx, Reg.CH_HBMSIZE.ctorIdx]
  let s := dropRegs s fun i loc =>
    !keep.contains i && [Block.ch, .seal, .ct, .dst, .cl, .tl, .fdl].any fun b =>
      b.inChannel ch loc && b.regs.any fun r => decide (r.ctorIdx = i)
  let tail := (s.dly ch).tail
  { s with
    tiles := SMap.keep (fun k => !decide (k / 6144 = ch)) s.tiles
    cls := SMap.keep (fun k => !decide (k / 96 = ch)) s.cls
    chans := SMap.erase s.chans ch, rpts := SMap.erase s.rpts ch, loads := SMap.erase s.loads ch
    mons := SMap.erase s.mons ch, seals := SMap.erase s.seals ch, cts := SMap.erase s.cts ch
    dists := SMap.keep (fun k => !decide (k / 6 = ch)) s.dists
    fcs := SMap.erase s.fcs ch
    links := SMap.keep (fun k => !decide (k / 10 = ch)) s.links
    dailies := SMap.put s.dailies ch { tail := tail } }

/-- Commands of the rings that a channel was carrying out complete with `CHANNEL_RETIRED` (R484). -/
def retireCmds (s : State) (ch : Nat) : State :=
  s.port.fns.foldl (fun s p => p.2.rings.foldl (fun s q => q.2.cmds.foldl (fun s x =>
    if x.started ∧ x.out.isNone ∧ bits (x.w.getD 0 0) 32 2 = ch then
      hostDone s ⟨p.1, q.1, x.no⟩ cChannelRetired 0 0 else s) s) s) s

end Sys2Proof.Machine
end

