-- ==== Sys2Proof/Machine/Gate.lean ====
section
/-! DEFINITION. What stands between a writer and a register: the channel or unit that holds it is in service (R29, R33, R36), the
writer has a path to it (Tables 8-3, 17-1, 18-3). Every command that writes a control bit passes here. -/

namespace Sys2Proof.Machine

/-- The channel whose field die holds it; the hub's ends of the hub links belong to the hub (chapter 19). -/
def blkCh : BlockRef → Option Nat
  | .hub | .fn _ => none
  | .ch c | .seal c | .ct c => some c
  | .dst d => some d.ch
  | .cl c => some c.ch
  | .tl t => some t.c.ch
  | .fdl l => if l.far ∧ l.n.val = 4 then none else some l.ch

/-- A function whose BARs answer: the link is up, the hub is not in keeper mode (R369), the function is enabled (R387) and in D0
(R347). -/
def fnAnswers (s : State) (f : Nat) : Bool :=
  s.port.ready && decide (s.hub.phase ≠ .keeper) && fnOn s f && !(s.fn f).d3

/-- Who may access a cluster's blocks: hub, PF0, management and debug, channel supervisor code, and a section in its own
clusters (Table 18-3). -/
def mayCl (s : State) (r : Requester) (ch c : Nat) : Bool :=
  maySup s r || (match r with
    | .stw w => decide (w.c.ch.val = ch) && ((clFn s ch w.c.cl).any fun f => f = 0 ∨ (recClmask (s.fnrec ch f)).testBit c)
    | _ => false)

/-- Who may reach a channel's own blocks (Table 18-3): everyone the supervisor rules name, and section code of PF0. -/
def mayChan (s : State) (r : Requester) : Bool :=
  maySup s r || (match r with
    | .stw w => decide (clFn s w.c.ch w.c.cl = some 0)
    | _ => false)

/-- The requester has a path to the block (Table 8-3, Tables 17-1 and 18-3, R372, R565, Table 24-8). -/
def reaches (s : State) (r : Requester) (a : BlockRef) : Bool :=
  let far := match a with | .fdl l => l.far && decide (l.n.val ≠ 4) | _ => false
  let keeper := decide (s.hub.phase = .keeper)
  !far && (match r with
  | .hub => true
  | .mgmt | .jtag => !keeper || (blkCh a).isNone
  | .fn f => fnAnswers s f && (match a with
    | .fn g => decide (g = f)
    | _ => decide (f.val = 0))
  | .stw w => decide (blkCh a = some w.c.ch.val) && (match a with
    | .cl c => mayCl s r c.ch c.cl
    | .tl t => mayCl s r t.c.ch t.c.cl
    | _ => mayChan s r))

/-- A memory request to the BARs of a function that does not answer: Unsupported Request, which AER reports (R347, R369). -/
def barRefused (s : State) (f : Nat) : State := if s.port.ready then aerSet s f .unsupported else s

/-- A control bit of the hub or of a function block, written by a command of its own: a host's write passes where its BARs
answer. -/
def hostGate (s : State) (r : Requester) (f : State → State) : State :=
  let s := dropHalf s r
  match r with
  | .fn g => if fnAnswers s g then f s else barRefused s g
  | _ => f s

/-- `CH_UNITERR` for an absent unit (R33). -/
def unitErr (s : State) (ch unit : Nat) : State :=
  (s.record Fld.CH_UNITERR_CODE Fld.CH_UNITERR_COUNT ch cUnitAbsent).fset Fld.CH_UNITERR_UNIT ch 0 unit

/-- A channel block that does not answer: its channel is retired (R36) or held in reset. -/
def blkShut (s : State) (a : BlockRef) : Bool :=
  match blkCh a with
  | some c => !s.chLive c || decide (s.hub.phase = .keeper)
  | none => false

/-- An access to a shut block: a host's access to a retired channel goes into the hub's fault log (R36). -/
def shutAccess (s : State) (r : Requester) (a : BlockRef) : State :=
  match r, blkCh a with
  | .fn _, some c => if s.retired c then report3 s 4 cChannelRetired 0 127 0 0 0 else s
  | _, _ => s

/-- The block belongs to a Seal unit that is not in service (R33). -/
def blkAbsent (s : State) : BlockRef → Option Nat
  | .seal c => if s.fbit Fld.CH_CAPS_SEAL_LIVE c then none else some c
  | _ => none

/-- The cluster is fenced. -/
def clFenced (s : State) (ch cl : Nat) : Bool := s.fbit Fld.CL_CAPS_FENCED (clLoc ch cl)

/-- The channel works: it is fitted, not retired, and not held in reset by keeper mode (R27, R29, R36). -/
def State.up (s : State) (ch : Nat) : Bool := s.chLive ch && decide (s.hub.phase ≠ .keeper)

/-- Work that the hub's keeper mode stops (R27). -/
def outKeeper (s : State) (f : State → State) : State := if s.hub.phase = .keeper then s else f s

/-- Work in a channel, which does nothing where the channel does not work. -/
def inChan (s : State) (ch : Nat) (f : State → State) : State := if s.up ch then f s else s

/-- A write that finds its cluster fenced (R33): the code is recorded, nothing else changes. -/
def fencedWrite (s : State) : BlockRef → Option State
  | .cl c => if clFenced s c.ch c.cl then some (qErr s c.ch c.cl 0 0 cUnitAbsent) else none
  | .tl t => if clFenced s t.c.ch t.c.cl then some s else none
  | _ => none

/-- A write that reaches a block (R9, R33, R36): a shut channel, an absent unit and a fenced cluster discard it. -/
def blkWrite (s : State) (r : Requester) (a : BlockRef) (f : State → State) : State :=
  if blkShut s a then shutAccess s r a
  else match blkAbsent s a with
  | some c => unitErr s c 0
  | none => (fencedWrite s a).getD (f s)

/-- A steward writes blocks of its own channel only (Table 18-3). -/
def ownSide (r : Requester) (a : BlockRef) : Bool :=
  match r with
  | .stw w => decide (blkCh a = some w.c.ch.val)
  | _ => true

/-- A control bit of a block, written by a command of its own: the writer reaches the block, and the block takes the write. -/
def rowGate (s : State) (r : Requester) (a : BlockRef) (f : State → State) : State :=
  hostGate s r fun s => if ownSide r a then blkWrite s r a f else s

end Sys2Proof.Machine
end

