-- ==== Sys2Proof/Machine/Quiet.lean ====
section
/-! DEFINITION. What keeps a district from lending its power: running stewards and a running convoy (R462). -/

namespace Sys2Proof.Machine

def Cluster.stw (c : Cluster) (w : Nat) : Stw := SMap.get {} c.stws w

/-- A steward that R462 counts as stopped. -/
def Stw.stopped (w : Stw) : Bool :=
  decide (w.st = 0 ∨ w.st = 3 ∨ w.st = 4) || (decide (w.st = 2) && w.swait.any SyncWait.parked)

/-- Every steward of the district's owned clusters is stopped (R462). -/
def distQuiet (s : State) (ch d : Nat) : Bool :=
  s.cls.all fun p => !(decide (p.1 / 96 = ch) && decide (clDistrict (p.1 % 96) = d)) || p.2.owner.isNone ||
    ((p.2.stw 0).stopped && (p.2.stw 1).stopped)

/-- A convoy or context load executes (R462). -/
def sealRunning (s : State) (ch : Nat) : Bool := (s.seal ch).run.isSome

end Sys2Proof.Machine
end

