-- ==== Sys2Proof/Machine/Power.lean ====
section
/-! DEFINITION. Clocks and power control (chapter 21): district operating points, lending, grants, temperature, the
throttle pin. -/

namespace Sys2Proof.Machine

def State.dist (s : State) (ch d : Nat) : District := SMap.get {} s.dists (dstLoc ch d)

def State.setDist (s : State) (ch d : Nat) (f : District → District) : State :=
  { s with dists := SMap.put s.dists (dstLoc ch d) (f (s.dist ch d)) }

/-- Frequency codes of 0.9, 1.175, 1.6 and 2.1 GHz (25 MHz each), and 100 MHz. -/
def f09 : Nat := 36
def fLendStack : Nat := 47
def f16 : Nat := 64
def f21 : Nat := 84
def fStep : Nat := 4

/-- The site a district faces, if any (Table 1-1). -/
def districtSite (d : Nat) : Option Nat :=
  if d = 0 then some 0 else if d = 2 then some 1 else if d = 3 then some 2 else if d = 5 then some 3 else none

/-- The lend point of a district (R462). -/
def lendPoint (s : State) (ch d : Nat) : Nat :=
  match districtSite d with
  | some st => if (s.fget Fld.CH_CAPS_SITE_STACK ch).testBit st then fLendStack else f09
  | none => f09

/-- The fields of `DST_VFLIVE.LIVE`. -/
def liveF (s : State) (ch d : Nat) : Nat := bits (s.fget Fld.DST_VFLIVE_LIVE (dstLoc ch d)) 0 7
def liveAvfs (s : State) (ch d : Nat) : Bool := bit (s.fget Fld.DST_VFLIVE_LIVE (dstLoc ch d)) 7
def liveVfix (s : State) (ch d : Nat) : Nat := bits (s.fget Fld.DST_VFLIVE_LIVE (dstLoc ch d)) 8 7
def liveWeight (s : State) (ch d : Nat) : Nat := bits (s.fget Fld.DST_VFLIVE_LIVE (dstLoc ch d)) 16 8

def lending (s : State) (ch d : Nat) : Bool := s.fbit Fld.DST_VFLIVE_LENDING (dstLoc ch d)

/-- The throttle floor while an assertion is accepted (R467). -/
def throttleCap (s : State) : Nat := if s.fbit Fld.HUB_THROTTLE_ACTIVE then f09 else f21

/-- The caps of R452 on a district, by `CAPBY` bit. -/
def capsOf (s : State) (ch d : Nat) : List Nat :=
  let x := s.dist ch d
  [x.capB, x.capT, throttleCap s, x.capM, if lending s ch d then lendPoint s ch d else f21]

/-- `F_CAP`, `CAPBY`, `SLEW` and `LOCK` follow the caps (R452, R453). -/
def applyCaps (s : State) (ch d : Nat) : State :=
  let l := dstLoc ch d
  let ft := liveF s ch d
  let cs := capsOf s ch d
  let cap := cs.foldl min ft
  let by_ := (cs.zipIdx).foldl (fun a c => a + ofBit (decide (c.1 < ft)) * 2 ^ c.2) 0
  let s := (s.fset Fld.DST_VFLIVE_F_CAP l 0 cap).fset Fld.DST_VFLIVE_CAPBY l 0 by_
  if cap = s.fget Fld.DST_VFLIVE_F_NOW l then s
  else (s.fset Fld.DST_VFLIVE_SLEW l 0 1).fset Fld.DST_VFLIVE_LOCK l 0 0

def applyChannel (s : State) (ch : Nat) : State := (List.range 6).foldl (fun s d => applyCaps s ch d) s

def applyAll (s : State) : State := (List.range 4).foldl applyChannel s

/-- `CH_PWRSTAT.LENDERS` shows the lending districts. -/
def showLenders (s : State) (ch : Nat) : State :=
  s.fset Fld.CH_PWRSTAT_LENDERS ch 0
    ((List.range 6).foldl (fun a d => a + ofBit (lending s ch d) * 2 ^ d) 0)

/-- A district stops lending: the borrowers' caps return to their values before it lent (R463). -/
def stopLending (s : State) (ch d : Nat) : State :=
  if lending s ch d then
    let old := (s.dist ch d).capsBefore.getD []
    let s := s.fset Fld.DST_VFLIVE_LENDING (dstLoc ch d) 0 0
    let s := s.setDist ch d fun x => { x with capsBefore := none }
    let s := (List.range 6).foldl (fun s e =>
      if lending s ch e then s else s.setDist ch e fun x => { x with capB := min x.capB (old.getD e x.capB) }) s
    showLenders (applyChannel s ch) ch
  else s

/-- Work in a district: it does not count as quiet in this epoch, and it stops lending (R462, R463). -/
def wakeDistrict (s : State) (ch d : Nat) : State :=
  stopLending (if (s.dist ch d).active then s else s.setDist ch d fun x => { x with active := true }) ch d

/-- A quiet district begins lending at an epoch boundary (R462). -/
def lendStep (s : State) (ch d : Nat) : State :=
  let x := s.dist ch d
  if s.fbit Fld.CH_PWRCFG_LEND ch && !lending s ch d && !x.active && distQuiet s ch d &&
      !(decide (d = 4) && sealRunning s ch) then
    let caps := (List.range 6).map fun e => (s.dist ch e).capB
    let s := s.fset Fld.DST_VFLIVE_LENDING (dstLoc ch d) 0 1
    s.setDist ch d fun x => { x with capsBefore := some caps }
  else s

/-- A pending target takes effect at an epoch boundary with no slew running (R455). -/
def targetStep (s : State) (ch d : Nat) : State :=
  let l := dstLoc ch d
  match (s.dist ch d).pend with
  | some v =>
    if s.fbit Fld.DST_VFLIVE_SLEW l then s
    else ((s.setDist ch d fun x => { x with pend := none }).fset Fld.DST_VFLIVE_LIVE l 0 v).fset
      Fld.DST_VFLIVE_PENDING l 0 0
  | none => s

/-- The thermal cap's epoch step (R466); temperatures in 1/8 °C. -/
def thermalStep (s : State) (ch d : Nat) : State :=
  let l := dstLoc ch d
  let t := s.fget Fld.DST_PWRSTAT_TEMP l
  let lim := s.fget Fld.DST_THERMCFG_THROT_C l
  if lim * 8 ≤ t then s.setDist ch d fun x => { x with capT := max f09 (x.capT - fStep) }
  else if t < (lim - 3) * 8 then s.setDist ch d fun x => { x with capT := min f21 (x.capT + fStep) }
  else s

/-- Millivolts of a voltage code. -/
def milliVolt (code : Nat) : Nat := 600 + 5 * code

/-- The budget cap's epoch step of a district that does not lend (R461). -/
def capStep (s : State) (ch d alloc vnext : Nat) : State :=
  let l := dstLoc ch d
  let x := s.dist ch d
  let draw := s.fget Fld.DST_PWRSTAT_DRAW l
  let fnow := s.fget Fld.DST_VFLIVE_F_NOW l
  let v1 := milliVolt (s.fget Fld.DST_VFLIVE_V_NOW l)
  let v2 := milliVolt (if liveAvfs s ch d then vnext else liveVfix s ch d)
  if alloc < draw then s.setDist ch d fun x => { x with capB := max f09 (x.capB - fStep) }
  else if draw * (x.capB + fStep) * (v2 * v2) ≤ alloc * fnow * (v1 * v1) then
    s.setDist ch d fun x => { x with capB := min f21 (x.capB + fStep) }
  else s

/-- `POWER_EPOCH` (R461, R462, R455, R466): the epoch boundary of a channel with the draws measured in the epoch before
(1/8 W) and, per district, the voltage code R452 gives 100 MHz above its cap. -/
def execPowerEpoch (ch : Ch) (draws : List Nat) (uncore : Nat) (vnext : List Nat) (s : State) : Host.Outcome State Fault Refusal := .next <| inChan s ch fun s =>
  let c := ch.val
  let ds := List.range 6
  let s := s.fset Fld.CH_PWRSTAT_UNCORE c 0 uncore
  let s := ds.foldl (fun s d => s.fset Fld.DST_PWRSTAT_DRAW (dstLoc c d) 0 (draws.getD d 0)) s
  let s := ds.foldl (fun s d => lendStep (targetStep s c d) c d) s
  let pool : Int := (s.fget Fld.CH_PWRSTAT_GRANT c : Int) - uncore
  let wsum := (ds.map (liveWeight s c)).sum
  let base := fun d => pool * liveWeight s c d / wsum
  let draw := fun d => (s.fget Fld.DST_PWRSTAT_DRAW (dstLoc c d) : Int)
  let lend := fun d => lending s c d
  let freed := ((ds.filter lend).map fun d => base d - draw d).sum
  let nsum := ((ds.filter fun d => !lend d).map (liveWeight s c)).sum
  let alloc := fun d => if lend d then draw d else base d + freed * liveWeight s c d / nsum
  let s := s.fset Fld.CH_PWRSTAT_LENT c 0 freed.toNat
  let s := ds.foldl (fun s d =>
    let a := (alloc d).toNat
    let s := s.fset Fld.DST_PWRSTAT_ALLOC (dstLoc c d) 0 a
    let s := if lend d then s else capStep s c d a (vnext.getD d 0)
    let s := thermalStep s c d
    s.setDist c d fun x => { x with active := !distQuiet s c d }) s
  showLenders (applyChannel s c) c

/-- Grants from the live budget (R459), in 1/8 W. -/
def sendGrants (s : State) : State :=
  let chs := s.liveChs
  let w := fun c => s.hub.weights.getD c 0
  let wsum := (chs.map w).sum
  let b := s.fget Fld.HUB_PWRLIVE_BUDGET - s.fget Fld.HUB_PWRLIVE_RESERVE
  chs.foldl (fun s c => s.fset Fld.CH_PWRSTAT_GRANT c 0 (8 * b * w c / wsum)) s

/-- `GRANT_BOUNDARY` (R458, R459). -/
def execGrantBoundary (s : State) : Host.Outcome State Fault Refusal := .next <|
  let s := match s.hub.budgetPend with
    | some (b, r, ws) =>
      (({ s with hub := { s.hub with budgetPend := none, weights := ws } } : State).fset
        Fld.HUB_PWRLIVE_BUDGET 0 0 b).fset Fld.HUB_PWRLIVE_RESERVE 0 0 r
    | none => s
  sendGrants s

/-- `AVFS_EVALUATION` (R452, R453, R456): a slew in progress ends at the new point; `v` is the lowest code at which the
monitors pass, `pass` whether they pass at `V_FIX`. -/
def execAvfsEvaluation (d : DistId) (v : Nat) (pass : Bool) (s : State) : Host.Outcome State Fault Refusal := .next <| inChan s d.ch fun s =>
  let l := dstLoc d.ch d.d
  let fix := !liveAvfs s d.ch d.d
  let s := if fix && !pass then
      applyCaps (s.setDist d.ch d.d fun x => { x with capM := max f09 (x.capM - 1) }) d.ch d.d
    else s
  let vn := if fix then liveVfix s d.ch d.d else max 10 (min 70 v)
  let s := (s.fset Fld.DST_VFLIVE_F_NOW l 0 (s.fget Fld.DST_VFLIVE_F_CAP l)).fset Fld.DST_VFLIVE_V_NOW l 0 vn
  (s.fset Fld.DST_VFLIVE_SLEW l 0 0).fset Fld.DST_VFLIVE_LOCK l 0 (ofBit (!(s.dist d.ch d.d).pllLost))

/-- `DROOP` (R454). -/
def execDroop (d : DistId) (s : State) : Host.Outcome State Fault Refusal := .next <| inChan s d.ch fun s => s.fadd Fld.DST_PWRSTAT_DROOPS (dstLoc d.ch d.d) 0 1

/-- `DST_VFTGT_COMMIT` (R455). -/
def execDstVftgtCommit (r : Requester) (d : DistId) (s : State) : Host.Outcome State Fault Refusal := .next <|
  rowGate s r (.dst d) fun s =>
  let l := dstLoc d.ch d.d
  let f := s.fget Fld.DST_VFTGT_F_TGT l
  let v := s.fget Fld.DST_VFTGT_V_FIX l
  let bad := decide (f < 36 ∨ 84 < f) || decide (s.fget Fld.DST_VFTGT_WEIGHT l = 0) ||
    (!s.fbit Fld.DST_VFTGT_AVFS l && decide (v < 10 ∨ 70 < v))
  if !maySup s r || bad then s.fset Fld.DST_STALLSTAT_CODE l 0 cCfgIgnored
  else (s.setDist d.ch d.d fun x => { x with pend := some (bits (s.regN .DST_VFTGT l) 0 24) }).fset
    Fld.DST_VFLIVE_PENDING l 0 1

/-- `HUB_PWRBUDGET_COMMIT` (R458). -/
def execHubPwrbudgetCommit (r : Requester) (s : State) : Host.Outcome State Fault Refusal := .next <|
  hostGate s r fun s =>
  let b := s.fget Fld.HUB_PWRBUDGET_BUDGET
  let rs := s.fget Fld.HUB_PWRBUDGET_RESERVE
  let ws := (List.range 4).map fun i => bits (s.regN .HUB_PWRSHAREn 0 i) 0 8
  let chs := s.liveChs
  let bad := decide (s.fget Fld.HUB_CAPS_MAX_POWER_W < b) || decide (rs < 20 ∨ 100 < rs) ||
    chs.any (fun c => decide (ws.getD c 0 = 0)) || decide (b < rs + 100 * chs.length)
  if !mayHub r || bad then hostErr s cCfgIgnored (reqFunc r) 0
  else { s with hub := { s.hub with budgetPend := some (b, rs, ws) } }

/-- `CH_PWRCFG_WRITE` (R463, R465). -/
def execChPwrcfgWrite (r : Requester) (ch : Ch) (v : Word) (s : State) : Host.Outcome State Fault Refusal := .next <|
  rowGate s r (.ch ch) fun s =>
  if maySup s r then
    let on := v.toNat % 2
    let s := s.fset Fld.CH_PWRCFG_LEND ch.val 0 on
    if on = 1 then s else (List.range 6).foldl (fun s d => stopLending s ch.val d) s
  else s

/-- The highest junction reading (`HUB_THERMSTAT.HOTTEST`). -/
def hottest (s : State) : Nat :=
  ((List.range 24).map fun i => s.fget Fld.DST_PWRSTAT_TEMP i).foldl max 0

/-- `THERMAL_SAMPLE` (R466): a reading in 1/8 °C. -/
def execThermalSample (d : DistId) (temp : Nat) (s : State) : Host.Outcome State Fault Refusal := .next <| inChan s d.ch fun s =>
  let l := dstLoc d.ch d.d
  let was := s.fget Fld.DST_PWRSTAT_TEMP l
  let s := s.fset Fld.DST_PWRSTAT_TEMP l 0 temp
  let s := s.fset Fld.HUB_THERMSTAT_HOTTEST 0 0 (hottest s)
  let hot := 105 * 8
  if hot ≤ temp then
    let s := applyCaps (s.setDist d.ch d.d fun x => { x with capT := f09 }) d.ch d.d
    if was < hot then
      let s := s.fset Fld.DST_STALLSTAT_CODE l 0 cThermal
      let s := report3 s d.ch.val cThermal 0 127 d.d.val 0 0
      postGranted (pend s Fld.HUB_FAULTPEND_THERMAL) d.ch.val 5 cThermal 0
    else s
  else s

/-- `THROTTLE_N_EDGE` (R467): the synchronised level; an assertion that ends before acceptance is counted. -/
def execThrottleNEdge (low : Bool) (s : State) : Host.Outcome State Fault Refusal := .next <|
  let was := s.fbit Fld.HUB_THROTTLE_PIN
  let s := s.fset Fld.HUB_THROTTLE_PIN 0 0 (ofBit low)
  if was && !low && !s.fbit Fld.HUB_THROTTLE_ACTIVE then s.fadd Fld.HUB_THROTTLE_FILTERED 0 0 1 else s

/-- After a release the caps rise under R461 from the frequency then in force (R467, Table 21-4; log entry 62). -/
def capsRelease (s : State) : State :=
  s.liveChs.foldl (fun s ch => (List.range 6).foldl (fun s d =>
    s.setDist ch d fun x => { x with capB := min x.capB (s.fget Fld.DST_VFLIVE_F_NOW (dstLoc ch d)) }) s) s

/-- `THROTTLE_FILTER_EXPIRY` (R467): the level has been stable for 50 µs. -/
def execThrottleFilterExpiry (s : State) : Host.Outcome State Fault Refusal := .next <|
  let pin := s.fbit Fld.HUB_THROTTLE_PIN
  let act := s.fbit Fld.HUB_THROTTLE_ACTIVE
  if pin && !act then applyAll ((s.fset Fld.HUB_THROTTLE_ACTIVE 0 0 1).fadd Fld.HUB_THROTTLE_ACCEPTED 0 0 1)
  else if !pin && act then applyAll ((capsRelease s).fset Fld.HUB_THROTTLE_ACTIVE 0 0 0)
  else s

/-- `SYNC_IN_PULSE` (R468): a pulse with the SYSCLK count at its latching; pulses within 100 µs (10,000 cycles) of the last
accepted one are ignored and counted. -/
def execSyncInPulse (time : Word) (s : State) : Host.Outcome State Fault Refusal := .next <|
  let t := time.toNat
  let ok := match s.hub.lastPulse with
    | some p => decide (p + 10000 ≤ t)
    | none => true
  if ok then
    let s := s.fset Fld.HUB_SYNCSTAMP_STAMP 0 0 ((t + s.hub.podOff) % 2 ^ 64)
    let s := s.finc Fld.HUB_SYNCIN_ACCEPTED 0 0 1
    let s := if s.fbit Fld.HUB_SYNCCTRL_ARMLOAD then
        let load := s.fget Fld.HUB_PODLOAD_LOAD
        ({ s with hub := { s.hub with podOff := (load + 2 ^ 64 - t % 2 ^ 64) % 2 ^ 64 } } : State).fset
          Fld.HUB_SYNCCTRL_ARMLOAD 0 0 0
      else s
    { s with hub := { s.hub with lastPulse := some t, syncNotices := s.liveChs } }
  else s.fadd Fld.HUB_SYNCIN_SYNC_OVERRUN 0 0 1

/-- `HUB_SYNCCTRL_ARMLOAD` (R468, R471). -/
def execHubSyncctrlArmload (r : Requester) (s : State) : Host.Outcome State Fault Refusal := .next <|
  hostGate s r fun s =>
  if mayHub r then s.fset Fld.HUB_SYNCCTRL_ARMLOAD 0 0 1 else s

/-- `PLL_LOCK_LOSS` (R470): the district's clock is gated and the fault controller is told. -/
def execPllLockLoss (d : DistId) (s : State) : Host.Outcome State Fault Refusal := .next <| inChan s d.ch fun s =>
  let s := (s.setDist d.ch d.d fun x => { x with pllLost := true }).fset Fld.DST_VFLIVE_LOCK (dstLoc d.ch d.d) 0 0
  (faultRecord s d.ch.val s.now (openCode 1) 14 clsTransient 0 127 d.d.val 0 0 0).took

/-- `PLL_RELOCK` (R470, R456). -/
def execPllRelock (d : DistId) (s : State) : Host.Outcome State Fault Refusal := .next <| inChan s d.ch fun s =>
  let l := dstLoc d.ch d.d
  if (s.dist d.ch d.d).pllLost then
    (s.setDist d.ch d.d fun x => { x with pllLost := false }).fset Fld.DST_VFLIVE_LOCK l 0
      (ofBit (!s.fbit Fld.DST_VFLIVE_SLEW l))
  else s

end Sys2Proof.Machine
end

