-- ==== Sys2Proof/Machine/StwCore.lean ====
section
/-! DEFINITION. A steward as other units act on it: finishing an instruction, traps (R128), deferral (R134), ends of waits
(R246, R250, R257) and abandonment (R142, R232). -/

namespace Sys2Proof.Machine

def State.stw (s : State) (ch c w : Nat) : Stw := (s.clu ch c).stw w

def setStw (s : State) (ch c w : Nat) (f : Stw → Stw) : State :=
  s.setClu ch c fun cl => { cl with stws := SMap.put cl.stws w (f (cl.stw w)) }

/-! States of `CL_STWn_STATUS.STATE`. -/

def wReset : Nat := 0
def wRun : Nat := 1
def wStalled : Nat := 2
def wHalted : Nat := 3
def wFaulted : Nat := 4

/-- Addresses of a steward are 22 bits. -/
def pcAdd (pc d : Nat) : Nat := (pc + d) % 2 ^ 22

/-- A scalar register; `s0` reads 0. -/
def Stw.get (x : Stw) (r : Nat) : Nat := if r = 0 then 0 else (SMap.get 0#64 x.x r).toNat

/-- A scalar register written; a write to `s0` is discarded (R122). -/
def Stw.put (x : Stw) (r v : Nat) : Stw := if r = 0 then x else { x with x := SMap.put x.x r (BitVec.ofNat 64 v) }

/-- The steward leaves its wait and runs, or is halted again after a step. -/
def Stw.go (x : Stw) : Stw :=
  { x with st := if x.stepping then wHalted else wRun, stepping := false, wait := .none, swait := none }

/-- A parked steward that wakes in a lending district ends the lending (R254, R463). -/
def stwWake (s : State) (ch c w : Nat) : State :=
  if (s.stw ch c w).st = wStalled then wakeDistrict s ch (clDistrict c) else s

/-- The present instruction completes: its result, the pc past it (R123). -/
def stwFinish (s : State) (ch c w : Nat) (rd v : Nat) : State :=
  let s := stwWake s ch c w
  setStw s ch c w fun x => { (x.put rd v).go with pc := pcAdd x.pc x.ilen, instret := x.instret + 1 }

/-- The present instruction completes with the pc at a target. -/
def stwJump (s : State) (ch c w : Nat) (rd v target : Nat) : State :=
  setStw s ch c w fun x => { (x.put rd v).go with pc := target % 2 ^ 22, instret := x.instret + 1 }

/-! Trap kinds (Table 6-5). -/

def kIllegal : Nat := 1
def kPrivilege : Nat := 2
def kMisaligned : Nat := 3
def kRange : Nat := 4
def kSyscall : Nat := 5
def kAccess : Nat := 6
def kDeferred : Nat := 7
def kTicket : Nat := 8
def kPosted : Nat := 9

/-- A trap (R128); a double trap faults the steward, and the fault controller ends its section (chapter 22). -/
def stwTrap (s : State) (ch c w kind code detail : Nat) : State :=
  let s := stwWake s ch c w
  if (s.stw ch c w).intrap then
    abortCluster (setStw s ch c w fun x => { x.go with st := wFaulted }) ch c code
  else setStw s ch c w fun x =>
    { x.go with
      epc := if kind = kSyscall ∨ kind = kDeferred then pcAdd x.pc x.ilen else x.pc
      fcause := kind * 2 ^ 8 + code
      fdetail := detail
      pprv := x.prv
      prv := true
      intrap := true
      pc := x.tvec }

/-- The instruction is deferred against slot `k`: recorded, its destination 0, the next instruction follows (R134). -/
def stwDefer (s : State) (ch c w : Nat) (k : Fin 4) (rd kind code : Nat) : State :=
  let r : DefRec := { code := code, kind := kind, pc := (s.stw ch c w).pc }
  stwFinish (deferRec s ch c k r) ch c w rd 0

/-- A trap, deferred where the steward is under a take (Table 6-11). -/
def stwExc (s : State) (ch c w rd kind code detail : Nat) : State :=
  match (s.stw ch c w).take with
  | some k =>
    if (2 ≤ kind ∧ kind ≤ 6) ∨ kind = kTicket then stwDefer s ch c w k rd kind code
    else stwTrap s ch c w kind code detail
  | none => stwTrap s ch c w kind code detail

/-- The instruction stalls (R142 keeps the pc on it). -/
def stwStall (s : State) (ch c w : Nat) (why : Wait) : State :=
  setStw s ch c w fun x => { x with st := wStalled, wait := why }

/-- A steward's number in a channel. -/
def stwNo (c w : Nat) : Nat := 2 * c + w

/-- A synchronous sync instruction ends: with the value, or with a trap of kind `ACCESS` (R246, R247, R257). -/
def stwSyncEnd (s : State) (ch w code v : Nat) : State :=
  let c := w / 2
  let k := w % 2
  match (s.stw ch c k).swait with
  | none => s
  | some q => if codeOk code then stwFinish s ch c k q.rd v else stwTrap s ch c k kAccess code q.tga

/-- The registration of a wait is at the bank (R250): from here a `BAR.ARW` has counted its arrival. -/
def stwRegistered (s : State) (ch w : Nat) : State :=
  setStw s ch (w / 2) (w % 2) fun x => { x with swait := x.swait.map fun q => { q with reg := true } }

/-- A stalled instruction is abandoned with no effect (R142, R232, R255): the wait leaves its waiter entry, an operation still
on its way answers nobody, and an arrival already counted is remembered in `ARV_DONE`. -/
def stwAbandon (s : State) (ch c w : Nat) : State :=
  let n := stwNo c w
  let x := s.stw ch c w
  let s := stwWake s ch c w
  let s := match x.swait with
    | none => s
    | some q =>
      let left := (s.chan ch).reqs.any fun r => decide (r.ret = .sync n) && r.place.waiting
      let s := s.setChan ch fun k =>
        { k with
          waiters := k.waiters.filter fun y => y.who ≠ .sync n
          reqs := (k.reqs.filter fun r => !(decide (r.ret = .sync n) && (r.place.waiting || !q.remote))).map fun r =>
            if r.ret = .sync n then { r with ret := .drop } else r }
      let s := s.setCt ch fun t =>
        { t with flows := t.flows.map fun p =>
            (p.1, { p.2 with ops := p.2.ops.map fun o => if o.ret = .sync n then { o with ret := .drop } else o }) }
      if q.arw ∧ (q.reg ∨ (q.remote ∧ !left)) then setStw s ch c w fun x => { x with arvDone := true } else s
  setStw s ch c w fun x => { x with st := wRun, wait := .none, swait := none }

/-- Bytes of its depot that a steward overwrites stay in its instruction cache until `FENCE.I` (R136). -/
def keepCode (s : State) (ch c w a n : Nat) : State :=
  let old := (s.readMem (depotAt ch c a) n).map Prod.fst
  setStw s ch c w fun x =>
    { x with oldCode := ((rangeFrom a n).zip old).foldl (fun m p => if (SMap.get? m p.1).isSome then m else SMap.put m p.1 p.2) x.oldCode }

/-- The first failing code of a posted operation and the count of failures (R126). -/
def recErr (e : Nat × Nat) (code : Nat) : Nat × Nat := (firstCode e.1 code, satAdd 32 e.2 1)

def stwPostErr (s : State) (ch c w code : Nat) : State :=
  setStw s ch c w fun x => { x with serr := recErr x.serr code }

end Sys2Proof.Machine
end

