-- ==== Sys2Proof/Machine/LinkOps.lean ====
section
/-! DEFINITION. Packets of a Fyast Die Link end as other units send them (R401, R402). -/

namespace Sys2Proof.Machine

/-- Location number of a link end. -/
def lkLoc (l : LinkId) : Nat := linkLoc l.ch l.n l.far

def State.lk (s : State) (l : LinkId) : FdlEnd := SMap.get {} s.links (lkLoc l)

def State.setLk (s : State) (l : LinkId) (f : FdlEnd → FdlEnd) : State :=
  { s with links := SMap.put s.links (lkLoc l) (f (s.lk l)) }

/-! Packet types (Table 19-4). -/

def pMrd : Nat := 0x01
def pMwr : Nat := 0x02
def pRdata : Nat := 0x10
def pCmpl : Nat := 0x11
def pQmsg : Nat := 0x20
def pFrame : Nat := 0x21
def pSync : Nat := 0x30
def pReg : Nat := 0x40
def pNote : Nat := 0x41
def pBoot : Nat := 0x42

/-- Slots a byte range takes at its alignment (R402). -/
def slotsFor (addr len : Nat) : Nat := (addr % 16 + len + 15) / 16

/-- Slots freed for the partner's use in a class (R403). -/
def freeClass (s : State) (l : LinkId) (k n : Nat) : State := s.setLk l fun e => { e with owed := e.owed.modify k (· + n) }

/-- A request that keeps its slots in the receive buffer until it has ended (R403: a held write blocks only REQ, a full queue only
MSG). -/
def holdsSlots (t : Nat) : Bool := decide (t = pMrd ∨ t = pMwr ∨ t = pQmsg)

/-- A packet put behind those that wait for credit. -/
def sendPkt (s : State) (l : LinkId) (p : FPkt) : State := s.setLk l fun e => { e with txq := e.txq ++ [p] }

/-- A completion (R402). -/
def sendCmpl (s : State) (l : LinkId) (tag code value : Nat) (busy : Bool) : State :=
  sendPkt s l { ptype := pCmpl, cls := 1, tag := tag, code := code, busy := busy, addr := value }

/-- A failing RDATA (R402). -/
def sendRdataFail (s : State) (l : LinkId) (tag code addr : Nat) : State :=
  sendPkt s l { ptype := pRdata, cls := 1, tag := tag, code := code, last := true, addr := addr }

/-- The bytes of a data packet: byte a of the transfer at byte (a mod 16) of its slot (R401). -/
def pktBytes (p : FPkt) : List Byte :=
  (((p.slots.map fun x => leBytes 16 x).flatten).drop (p.addr % 16)).take p.len

/-- Data slots for bytes at an address (R401). -/
def bytesSlots (addr : Nat) (bs : List Byte) : List Nat :=
  let all := List.replicate (addr % 16) 0#8 ++ bs
  (List.range (slotsFor addr bs.length)).map fun i => leNat ((all.drop (16 * i)).take 16)

end Sys2Proof.Machine
end

