-- ==== Sys2Proof/Machine/CtFlow.lean ====
section
/-! DEFINITION. Caravan flows and their packets: entries (R423), streams (R427), ports' configuration in force (R420, R421). -/

namespace Sys2Proof.Machine

def State.flow (s : State) (ch n : Nat) : Flow := SMap.get {} (s.ct ch).flows n

def setFlow (s : State) (ch n : Nat) (f : Flow → Flow) : State :=
  s.setCt ch fun t => { t with flows := SMap.put t.flows n (f (SMap.get {} t.flows n)) }

/-! Fields of a flow entry (Table 20-3), of the live words. -/

def Flow.valid (f : Flow) : Bool := f.w0.getLsbD 0
def Flow.func (f : Flow) : Nat := bits f.w0.toNat 8 8
def Flow.pkg (f : Flow) : Nat := bits f.w0.toNat 16 16
def Flow.pch (f : Flow) : Nat := bits f.w0.toNat 32 2
def Flow.home (f : Flow) : Nat := bits f.w0.toNat 34 2
def Flow.peer (f : Flow) : Nat := bits f.w0.toNat 36 12
def Flow.wins (f : Flow) : Nat := bits f.w1.toNat 0 11
def Flow.retries (f : Flow) : Nat := bits f.w1.toNat 26 4
def Flow.ports (f : Flow) : Nat := bits f.w1.toNat 32 32

/-! States of a flow (`CT_FLOWSTAT.STATE`). -/

def fIdle : Nat := 0
def fOpening : Nat := 1
def fUp : Nat := 2
def fDown : Nat := 3
def fRetired : Nat := 4

/-- A flow's state changes: the dailies record it (Table 24-3). -/
def setFlowSt (s : State) (ch n v : Nat) : State :=
  if (s.flow ch n).st = v then s else dlyRecord (setFlow s ch n fun f => { f with st := v }) ch 8 0 127 n v

/-- `CT_ERR` (chapter 20). -/
def ctErr (s : State) (ch code flow addr : Nat) : State :=
  ((s.record Fld.CT_ERR_CODE Fld.CT_ERR_COUNT ch code).fset Fld.CT_ERR_FLOW ch 0 flow).fset Fld.CT_ERRADDR_ADDR ch 0 addr

/-- A packet built in a stream: it takes the next `SEQ` and waits for the window (R427, R430). -/
def ctPush (s : State) (ch n stream : Nat) (p : CPkt) : State :=
  let f := s.flow ch n
  let st := SMap.get {} f.streams stream
  let p := { p with srcPkg := ownPkg s, srcCh := ch, dstPkg := f.pkg, dstCh := f.pch, inc := f.inc, flow := f.peer,
                    stream := stream, seq := st.txNext }
  setFlow s ch n fun f =>
    { f with streams := SMap.put f.streams stream { st with txNext := (st.txNext + 1) % 2 ^ 32, waiting := st.waiting ++ [p] } }

/-- Bytes of a table that a Caravan register names, as they stand in the memory of this package; anything else reads 0 (log entry
74). -/
def tableRead (s : State) (a n : Nat) : List DByte :=
  if isOwnPkg s a && s.chLive (tgaCh a) && decide (tgaSpace a ≤ 1) then s.readMem (tgaMem a) n else List.replicate n (0#8, false)

/-! Packet types (Table 20-2) and streams (Table 20-4). -/

def tWrite : Nat := 1
def tRead : Nat := 2
def tQmsg : Nat := 3
def tSync : Nat := 4
def tBar : Nat := 5
def tColl : Nat := 6
def tResp : Nat := 7
def tRdata : Nat := 8
def tAck : Nat := 9
def tOpen : Nat := 10
def tNotice : Nat := 11

def sW : Nat := 0
def sM : Nat := 1
def sS : Nat := 2
def sC : Nat := 3
def sR : Nat := 4

/-- The stream of a packet type. -/
def streamOf (t : Nat) : Nat :=
  if t = tWrite ∨ t = tRead then sW else if t = tQmsg then sM else if t = tSync ∨ t = tBar then sS
  else if t = tColl then sC else sR

/-- Port configuration of a site in force: its mode, `UDP` and payload limit (R421). -/
def portMode (s : State) (ch site : Nat) : Nat := bits ((s.ct ch).live.getD site 0) 0 2
def portUdp (s : State) (ch site : Nat) : Bool := bit ((s.ct ch).live.getD site 0) 2
def portMaxpay (s : State) (ch site : Nat) : Nat := 1024 * 2 ^ bits ((s.ct ch).live.getD site 0) 3 2

/-- Payload limit of a flow: the least of the sites its ports lie on (R420). -/
def flowMaxpay (s : State) (ch : Nat) (f : Flow) : Nat :=
  ((List.range 4).filter fun n => decide (bits f.ports (8 * n) 8 ≠ 0)).foldl (fun m n => min m (portMaxpay s ch n)) 4096

/-- FLAGS of a packet. -/
def flFirst : Nat := 1
def flLast : Nat := 2
def flLc : Nat := 4
def flPoison : Nat := 8
def flRetx : Nat := 16
def flEce : Nat := 32

/-- The packets of bytes that start at an address: pieces of at most `m`, the first and last marked (R432). -/
def splitPkts (ty opid a m : Nat) : Nat → List DByte → Bool → List CPkt
  | 0, _, _ => []
  | n + 1, bs, first =>
    let b := bs.take m
    let rest := bs.drop m
    { ty := ty, opid := opid, addr := a, payload := b.map Prod.fst,
      flags := (if first then flFirst else 0) + (if rest.isEmpty then flLast else 0) + (if anyPsn b then flPoison else 0) } ::
      (if rest.isEmpty then [] else splitPkts ty opid (a + m) m n rest false)

end Sys2Proof.Machine
end

