-- ==== Sys2Proof/Machine/Crypto.lean ====
section
/-! DEFINITION. Checks and signatures: CRC-32C (R149), CRC-16 and CRC-32 of the die link (R396), SHA-384 and ECDSA P-384
verification (R503, R521). -/

namespace Sys2Proof.Machine

/-- One bit of a reflected CRC. -/
def crcReflBit (poly c : Nat) : Nat := if c % 2 = 1 then (c / 2) ^^^ poly else c / 2

/-- A byte entered into a reflected CRC. -/
def crcReflByte (poly c : Nat) (b : Byte) : Nat :=
  (List.range 8).foldl (fun c _ => crcReflBit poly c) (c ^^^ b.toNat)

/-- CRC-32C over bytes in order (R149). -/
def crc32c (bs : List Byte) : Nat := (bs.foldl (crcReflByte 0x82F63B78) 0xFFFFFFFF) ^^^ 0xFFFFFFFF

/-- The CRC-32 of FDL-2 (R396). -/
def crc32 (bs : List Byte) : Nat := (bs.foldl (crcReflByte 0xEDB88320) 0xFFFFFFFF) ^^^ 0xFFFFFFFF

/-- The CRC-16 of FDL-1 (R396). -/
def crc16 (bs : List Byte) : Nat :=
  bs.foldl (fun c b => (List.range 8).foldl
    (fun c _ => if 0x8000 ≤ c then ((2 * c) ^^^ 0x1021) % 0x10000 else 2 * c) (c ^^^ (b.toNat * 256))) 0xFFFF

/-- Big-endian number of a byte list. -/
def beNat (bs : List Byte) : Nat := bs.foldl (fun a b => 256 * a + b.toNat) 0

/-- The round constants of SHA-384 (FIPS 180-4). -/
def shaK0 : List Nat :=
  [
   0x428A2F98D728AE22, 0x7137449123EF65CD, 0xB5C0FBCFEC4D3B2F, 0xE9B5DBA58189DBBC,
   0x3956C25BF348B538, 0x59F111F1B605D019, 0x923F82A4AF194F9B, 0xAB1C5ED5DA6D8118,
   0xD807AA98A3030242, 0x12835B0145706FBE, 0x243185BE4EE4B28C, 0x550C7DC3D5FFB4E2,
   0x72BE5D74F27B896F, 0x80DEB1FE3B1696B1, 0x9BDC06A725C71235, 0xC19BF174CF692694,
   0xE49B69C19EF14AD2, 0xEFBE4786384F25E3, 0x0FC19DC68B8CD5B5, 0x240CA1CC77AC9C65,
   0x2DE92C6F592B0275, 0x4A7484AA6EA6E483, 0x5CB0A9DCBD41FBD4, 0x76F988DA831153B5,
   0x983E5152EE66DFAB, 0xA831C66D2DB43210, 0xB00327C898FB213F, 0xBF597FC7BEEF0EE4,
   0xC6E00BF33DA88FC2, 0xD5A79147930AA725, 0x06CA6351E003826F, 0x142929670A0E6E70,
   0x27B70A8546D22FFC, 0x2E1B21385C26C926, 0x4D2C6DFC5AC42AED, 0x53380D139D95B3DF,
   0x650A73548BAF63DE, 0x766A0ABB3C77B2A8, 0x81C2C92E47EDAEE6, 0x92722C851482353B]

def shaK1 : List Nat :=
  [
   0xA2BFE8A14CF10364, 0xA81A664BBC423001, 0xC24B8B70D0F89791, 0xC76C51A30654BE30,
   0xD192E819D6EF5218, 0xD69906245565A910, 0xF40E35855771202A, 0x106AA07032BBD1B8,
   0x19A4C116B8D2D0C8, 0x1E376C085141AB53, 0x2748774CDF8EEB99, 0x34B0BCB5E19B48A8,
   0x391C0CB3C5C95A63, 0x4ED8AA4AE3418ACB, 0x5B9CCA4F7763E373, 0x682E6FF3D6B2B8A3,
   0x748F82EE5DEFB2FC, 0x78A5636F43172F60, 0x84C87814A1F0AB72, 0x8CC702081A6439EC,
   0x90BEFFFA23631E28, 0xA4506CEBDE82BDE9, 0xBEF9A3F7B2C67915, 0xC67178F2E372532B,
   0xCA273ECEEA26619C, 0xD186B8C721C0C207, 0xEADA7DD6CDE0EB1E, 0xF57D4F7FEE6ED178,
   0x06F067AA72176FBA, 0x0A637DC5A2C898A6, 0x113F9804BEF90DAE, 0x1B710B35131C471B,
   0x28DB77F523047D84, 0x32CAAB7B40C72493, 0x3C9EBE0A15C9BEBC, 0x431D67C49C100D4C,
   0x4CC5D4BECB3E42B6, 0x597F299CFC657E2A, 0x5FCB6FAB3AD6FAEC, 0x6C44198C4A475817]

def shaInit : List Nat :=
  [
   0xCBBB9D5DC1059ED8, 0x629A292A367CD507, 0x9159015A3070DD17, 0x152FECD8F70E5939,
   0x67332667FFC00B31, 0x8EB44A8768581511, 0xDB0C2E0D64F98FA7, 0x47B5481DBEFA4FA4]

def m64 (x : Nat) : Nat := x % 2 ^ 64
def ror64 (x k : Nat) : Nat := m64 ((x >>> k) ||| (x <<< (64 - k)))

/-- The message schedule, newest word first: extends 16 words by `n` more. -/
def shaSched : Nat → List Nat → List Nat
  | 0, w => w
  | n + 1, w =>
    let a := w.getD 14 0
    let b := w.getD 1 0
    let s0 := ror64 a 1 ^^^ ror64 a 8 ^^^ (a >>> 7)
    let s1 := ror64 b 19 ^^^ ror64 b 61 ^^^ (b >>> 6)
    shaSched n (m64 (w.getD 15 0 + s0 + w.getD 6 0 + s1) :: w)

/-- One round on the eight working variables. -/
def shaRound (v : List Nat) (kw : Nat) : List Nat :=
  match v with
  | [a, b, c, d, e, f, g, h] =>
    let t1 := h + (ror64 e 14 ^^^ ror64 e 18 ^^^ ror64 e 41) + ((e &&& f) ^^^ ((2 ^ 64 - 1 - e) &&& g)) + kw
    let t2 := (ror64 a 28 ^^^ ror64 a 34 ^^^ ror64 a 39) + ((a &&& b) ^^^ (a &&& c) ^^^ (b &&& c))
    [m64 (t1 + t2), a, b, c, m64 (d + t1), e, f, g]
  | _ => v

/-- One block of 128 bytes. -/
def shaBlock (h : List Nat) (blk : List Byte) : List Nat :=
  let w := (List.range 16).map fun i => beNat ((blk.drop (8 * i)).take 8)
  let ws := (shaSched 64 w.reverse).reverse
  let v := (List.zipWith (· + ·) (shaK0 ++ shaK1) ws).foldl shaRound h
  List.zipWith (fun a b => m64 (a + b)) h v

/-- Big-endian bytes of a number. -/
def beBytes (n v : Nat) : List Byte := (leBytes n v).reverse

/-- Blocks of a padded message. -/
def shaBlocks : Nat → List Nat → List Byte → List Nat
  | 0, h, _ => h
  | n + 1, h, m => shaBlocks n (shaBlock h (m.take 128)) (m.drop 128)

/-- SHA-384 (FIPS 180-4), as a number. -/
def sha384 (m : List Byte) : Nat :=
  let n := m.length
  let blocks := (n + 17 + 127) / 128
  let p := m ++ [0x80#8] ++ List.replicate (blocks * 128 - n - 17) 0#8 ++ beBytes 16 (8 * n)
  ((shaBlocks blocks shaInit p).take 6).foldl (fun a w => a * 2 ^ 64 + w) 0

/-- P-384: the field, the group order, the coefficient b and the base point (SEC 1, FIPS 186). -/
def p384 : Nat := 2 ^ 384 - 2 ^ 128 - 2 ^ 96 + 2 ^ 32 - 1
def n384 : Nat := 0xFFFFFFFFFFFFFFFFFFFFFFFFFFFFFFFFFFFFFFFFFFFFFFFFC7634D81F4372DDF581A0DB248B0A77AECEC196ACCC52973
def b384 : Nat := 0xB3312FA7E23EE7E4988E056BE3F82D19181D9C6EFE8141120314088F5013875AC656398D8A2ED19D2A85C8EDD3EC2AEF
def g384 : Nat × Nat := (0xAA87CA22BE8B05378EB1C71EF320AD746E1D3B628BA79B9859F741E082542A385502F25DBF55296C3A545E3872760AB7,
  0x3617DE4A96262C6F5D9E98BF9292DC29F8F41DBD289A147CE9DA3113B5F0B8C00A60B1CE1D7E819D7A431D7C90EA0E5F)

/-- Power modulo m, over the low `k` bits of the exponent. -/
def powMod (m b e : Nat) : Nat → Nat
  | 0 => 1
  | k + 1 =>
    let r := powMod m (b * b % m) (e / 2) k
    if e % 2 = 1 then b * r % m else r

def invMod (m a : Nat) : Nat := powMod m (a % m) (m - 2) 384

/-- A point of the curve in Jacobian coordinates: affine x is `x / z²`, y is `y / z³`; `z` 0 is the point at infinity. -/
structure EcPoint where
  x : Nat
  y : Nat
  z : Nat
  deriving DecidableEq, Repr

def ecInf : EcPoint := ⟨1, 1, 0⟩
def ecBase : EcPoint := ⟨g384.1, g384.2, 1⟩

/-- A point doubled (the curve's coefficient a is -3). -/
def ecDouble (a : EcPoint) : EcPoint :=
  let p := p384
  let yy := a.y * a.y % p
  let zz := a.z * a.z % p
  let s := 4 * a.x * yy % p
  let m := 3 * (a.x + p - zz) * (a.x + zz) % p
  let x := (m * m + 2 * p - 2 * s % p) % p
  ⟨x, (m * (s + p - x) + 8 * (p * p - yy * yy)) % p, 2 * a.y * a.z % p⟩

/-- Point addition. -/
def ecAdd (a b : EcPoint) : EcPoint :=
  let p := p384
  let z1 := a.z * a.z % p
  let z2 := b.z * b.z % p
  let u1 := a.x * z2 % p
  let u2 := b.x * z1 % p
  let s1 := a.y * (b.z * z2 % p) % p
  let s2 := b.y * (a.z * z1 % p) % p
  if a.z = 0 then b
  else if b.z = 0 then a
  else if u1 = u2 then (if s1 = s2 then ecDouble a else ecInf)
  else
    let h := (u2 + p - u1) % p
    let r := (s2 + p - s1) % p
    let hh := h * h % p
    let hhh := hh * h % p
    let v := u1 * hh % p
    let x := (r * r + 3 * p - hhh - 2 * v) % p
    ⟨x, (r * (v + p - x) + p * p - s1 * hhh) % p, h * (a.z * b.z % p) % p⟩

/-- Scalar multiple over the low `k` bits of the scalar. -/
def ecMul (a : EcPoint) (e : Nat) : Nat → EcPoint
  | 0 => ecInf
  | k + 1 =>
    let r := ecMul (ecDouble a) (e / 2) k
    if e % 2 = 1 then ecAdd a r else r

/-- The affine x of a point that is not at infinity. -/
def ecX (a : EcPoint) : Nat := a.x * invMod p384 (a.z * a.z % p384) % p384

/-- ECDSA P-384 verification over a SHA-384 digest (R503): public key bytes X then Y, signature bytes r then s. -/
def ecdsaVerify (pub sig : List Byte) (digest : Nat) : Bool :=
  let x := beNat (pub.take 48)
  let y := beNat ((pub.drop 48).take 48)
  let r := beNat (sig.take 48)
  let s := beNat ((sig.drop 48).take 48)
  let p := p384
  let onCurve := decide (x < p ∧ y < p) && decide (y * y % p = (x * x * x + (p - 3) * x + b384) % p)
  let inRange := decide (0 < r ∧ r < n384 ∧ 0 < s ∧ s < n384)
  if onCurve && inRange then
    let w := invMod n384 s
    let q := ecAdd (ecMul ecBase (digest * w % n384) 384) (ecMul ⟨x, y, 1⟩ (r * w % n384) 384)
    decide (q.z ≠ 0) && decide (ecX q % n384 = r)
  else false
end Sys2Proof.Machine
end

