-- ==== Sys2Proof/Machine/Finish.lean ====
section
/-! DEFINITION. How a request ends for each kind of requester (R125, R126, R197, R216, R238, R247, R350, R360, R402). -/

namespace Sys2Proof.Machine

/-- A request of a channel by its number. -/
def reqOf (s : State) (ch no : Nat) : Option Req := (s.chan ch).reqs.find? fun r => decide (r.no = no)

def dropReq (s : State) (ch no : Nat) : State :=
  s.setChan ch fun k => { k with reqs := k.reqs.filter fun r => !decide (r.no = no) }

def setReq (s : State) (ch no : Nat) (f : Req → Req) : State :=
  s.setChan ch fun k => { k with reqs := k.reqs.map fun r => if r.no = no then f r else r }

/-- A message put on the host link. -/
def hostOut (s : State) (o : HostOut) : State := { s with port := { s.port with out := s.port.out ++ [o] } }

/-- A host read answered with Completer Abort, which AER reports (R350, R369). -/
def hostAbort (s : State) (f : Nat) : State := hostOut (aerSet s f .completerAbort) .abort

/-! Ring commands (Tables 17-2, 17-3). -/

def HCmd.word (x : HCmd) (i : Nat) : Nat := x.w.getD i 0
def HCmd.op (x : HCmd) : Nat := bits (x.word 0) 0 8
def HCmd.fence (x : HCmd) : Bool := bit (x.word 0) 8
def HCmd.irq (x : HCmd) : Bool := bit (x.word 0) 9
def HCmd.cid (x : HCmd) : Nat := bits (x.word 0) 16 16
def HCmd.ch (x : HCmd) : Nat := bits (x.word 0) 32 2
def HCmd.arg (x : HCmd) (i : Nat) : Nat := x.word (1 + i)

def cmdOf (s : State) (c : CmdRef) : Option HCmd := (fnRing (s.fn c.f) c.r).cmds.find? fun x => decide (x.no = c.no)

def setCmd (s : State) (c : CmdRef) (f : HCmd → HCmd) : State :=
  s.setRing c.f c.r fun r => { r with cmds := r.cmds.map fun x => if x.no = c.no then f x else x }

/-- A piece of a copy has been moved: the copy goes on, or ends with the bytes written (R360). -/
def copyMoved (s : State) (c : CmdRef) (n : Nat) : State :=
  match cmdOf s c with
  | none => s
  | some x =>
    let p := x.prog + n
    let s := setCmd s c fun x => { x with prog := p, sent := false }
    if bits (x.arg 2) 0 32 ≤ p then hostDone s c cNone p 0 else s

/-- The outcome of a channel's part of a ring command (Table 17-3, R360). A copy that would read a poisoned granule stops at it
with `ECC_UNCORRECTED`; one whose write the guard discards stops there with `NONFINITE_SKIP` (log entry 72). -/
def hostFinish (s : State) (c : CmdRef) (r : Req) (code : Nat) (data : List DByte) : State :=
  match cmdOf s c with
  | none => s
  | some x =>
    let code := if x.op = 6 ∧ codeOk code ∧ anyPsn data then cEccUncorrected else code
    if x.op = 5 then
      if code = 0 then copyMoved s c (match r.op with | .write d => d.length | _ => 0)
      else hostDone s c code x.prog r.tga
    else if x.op = 6 then
      if codeOk code then copyMoved (hostOut s (.write (x.arg 1 + x.prog) (data.map Prod.fst))) c data.length
      else hostDone s c code x.prog r.tga
    else hostDone s c code (if x.op = 8 ∧ codeOk code then dNat data else 0) (if codeOk code then 0 else r.tga)

/-- The field die's end of a site link. -/
def siteLink (ch n : Nat) : LinkId := ⟨Fin.ofNat 4 ch, Fin.ofNat 5 n, false⟩

/-- RDATA packets of the bytes of a read, at most 256 each, the last marked where the read did not fail (R402). -/
def rdataPkts : Nat → Nat → Nat → List Byte → Bool → List FPkt
  | 0, _, _, _, _ => []
  | n + 1, tag, a, bs, whole =>
    if bs.isEmpty then []
    else
      let b := bs.take 256
      let rest := bs.drop 256
      { ptype := pRdata, cls := 1, tag := tag, len := b.length, dslots := slotsFor a b.length, addr := a,
        last := whole && rest.isEmpty, slots := bytesSlots a b } :: rdataPkts n tag (a + b.length) rest whole

/-- An access of no waiting requester that is aborted is recorded in the table's error registers (Table 18-4). -/
def isAbort (code : Nat) : Bool := decide (code = cRptStale ∨ code = cFlrAborted)

/-- The sender of the operation waits for its value. -/
def SOp.answered : SOp → Bool
  | .rd | .wge | .wait | .arw => true
  | _ => false

/-- A failing operation of a remote sender for which nobody waits is recorded at the object's channel (R247). -/
def remoteSyncErr (s : State) (ch : Nat) (r : Req) (code : Nat) : State :=
  match r.op with
  | .sync op _ =>
    if codeOk code ∨ op.answered ∨ isAbort code then s
    else syncErr s ch code (bits r.tga 3 16)
  | _ => s

/-- The slots of a request that kept them are freed (R403). -/
def fdlFree (s : State) (k : LinkId) (r : Req) : State :=
  match r.op with
  | .read _ => freeClass s k 0 1
  | .write d => freeClass s k 0 (1 + slotsFor r.tga d.length)
  | .msg _ b => freeClass s k 2 (1 + (b.length + 15) / 16)
  | _ => s

/-- The answer to a request of a die at a gate site. -/
def fdlReply (s : State) (ch l tag : Nat) (r : Req) (code : Nat) (data : List DByte) : State :=
  let k := siteLink ch l
  let s := fdlFree (remoteSyncErr s ch r code) k r
  match r.op with
  | .read _ =>
    let clean := data.takeWhile fun b => !b.2
    let code := if codeOk code ∧ clean.length < data.length then cEccUncorrected else code
    let s := (rdataPkts 4 tag r.tga (clean.map Prod.fst) (codeOk code)).foldl (fun s p => sendPkt s k p) s
    if codeOk code then s else sendRdataFail s k tag code (r.tga + clean.length)
  | .sync _ _ => sendCmpl s k tag code (if codeOk code then dNat data else 0) false
  | _ => sendCmpl s k tag code 0 false

/-- The queue a message request names. -/
def reqQueue (r : Req) : Nat := match r.op with | .msg _ _ => bits r.tga 0 4 | _ => 0

/-- A write of a descriptor ends: the descriptor stops at the first that fails (R200), and remembers a discarded one (R300). -/
def dollyWrote (s : State) (ch c n code : Nat) : State :=
  s.setClu ch c fun k =>
    { k with slots := k.slots.map fun p =>
        if p.1 = n then
          (p.1, if code = cNonfiniteSkip then { p.2 with skipped := true }
                else if codeOk code then p.2
                else { p.2 with code := p.2.code <|> some code, lane := [] })
        else p }

/-- A RESP on a flow. -/
def sendResp (s : State) (ch n opid code aux v : Nat) : State :=
  ctPush s ch n sR { ty := tResp, flags := flFirst + flLast, code := code, opid := opid, aux := aux, addr := v }

/-- A request that a flow brought ends: its RESP or RDATA joins the return stream (R432, R434). A write of several packets is
answered at its last. -/
def flowReply (s : State) (ch n opid : Nat) (r : Req) (code : Nat) (data : List DByte) : State :=
  let s := remoteSyncErr s ch r code
  if (s.flow ch n).st ≠ fUp then s
  else match r.op with
    | .write _ =>
      let s := setFlow s ch n fun f => { f with ins := f.ins.map fun i =>
        if i.opid = opid ∧ i.code = 0 then { i with code := code } else i }
      match (s.flow ch n).ins.find? fun i => decide (i.opid = opid) with
      | some i =>
        if i.last then
          sendResp (setFlow s ch n fun f => { f with ins := f.ins.filter fun i => !decide (i.opid = opid) }) ch n opid i.code 0 0
        else s
      | none => s
    | .read _ =>
      if codeOk code then
        (splitPkts tRdata opid r.tga (flowMaxpay s ch (s.flow ch n)) data.length data true).foldl (fun s p => ctPush s ch n sR p) s
      else ctPush s ch n sR { ty := tRdata, flags := flFirst + flLast, code := code, opid := opid, addr := r.tga }
    | .sync _ _ => sendResp s ch n opid code 0 (dNat data)
    | _ => sendResp s ch n opid code 0 0

/-! ### The end of a collective (R440) -/

/-- `STATUS` of a collective (Table 20-6). -/
def collStatus (k : Coll) : Nat :=
  firstCode (k.ended.getD 0) k.code + k.lcused * 2 ^ 8 + 2 ^ 10 + min k.ncomp (2 ^ 21 - 1) * 2 ^ 11 + k.ebmax * 2 ^ 32

/-- The checks of an access that must be one of memory. -/
def memoryCode (s : State) (ch : Nat) (fn : Option Nat) (write : Bool) (a len : Nat) : Nat :=
  firstCode (accessCode s ch fn write a len) (if 2 ≤ tgaSpace a then cCfgIgnored else 0)

/-- Writes of the collective engine are on the way. -/
def collWriting (s : State) (ch : Nat) : Bool :=
  (s.chan ch).reqs.any fun r => match r.ret with | .unit 2 _ _ wr => wr | _ => false

def setColl (s : State) (ch : Nat) (f : Coll → Coll) : State := s.setCt ch fun t => { t with coll := t.coll.map f }

/-- A collective that has ended goes on once its writes are performed: its `STATUS` is written, then its signal is sent (R197, R440).
Where the submitter may not write `STATUS`, the code is recorded in `CT_ERR` (log entry 73). -/
def collTurn (s : State) (ch : Nat) : State :=
  match (s.ct ch).coll with
  | none => s
  | some k =>
    if k.ended.isNone || collWriting s ch then s
    else
      let a := k.req.desc + 56
      let code := memoryCode s ch (some k.req.func) true a 8
      if !k.wrote && decide (code = 0) then
        unitPut (setColl s ch fun k => { k with wrote := true }) ch 2 96 (some k.req.func) a (dBytes 8 (collStatus k))
      else
        let s := if k.wrote then s else ctErr s ch code 0 a
        let s := s.setCt ch fun t => { t with coll := none }
        let w0 := k.d.getD 0 0
        if bit w0 12 then signalFor s ch 0 k.req.cluster 0 (some k.req.func) (bits w0 32 16) else s

/-- The collective that runs ends with a code (R437, R440). -/
def collEnd (s : State) (ch code : Nat) : State :=
  match (s.ct ch).coll with
  | none => s
  | some k => if k.ended.isSome then s else collTurn (setColl (unitForget s ch 2) ch fun k => { k with ended := some code }) ch

/-- A write of the collective engine has ended with a code: of its result, or of its `STATUS`. -/
def collWrote (s : State) (ch a code : Nat) : State :=
  let late := ((s.ct ch).coll.map Coll.wrote).getD false
  let s := if late then (if codeOk code then s else ctErr s ch code 0 a) else setColl s ch fun k => { k with code := firstCode k.code code }
  collTurn s ch

/-- A request that is no leg ends with a code and, for a read, its data: who waits for it is told, or finds it when it looks. -/
def finishWhole (s : State) (ch : Nat) (r : Req) (code : Nat) (data : List DByte) : State :=
  match r.ret with
  | .drop | .leg _ => dropReq s ch r.no
  | .dolly c n _ true => dollyWrote (dropReq s ch r.no) ch c n code
  | .sync w => stwSyncEnd (dropReq s ch r.no) ch w code (dNat data)
  | .egress c route =>
    let s := dropReq s ch r.no
    if codeOk code then s
    else if isAbort code then rptErr s ch (r.fn.getD 0) code r.tga
    else match r.op with
      | .sync _ _ => syncErr s ch code (bits r.tga 3 16)
      | _ => qErr s ch c (reqQueue r) route code
  | .signal kind c n =>
    let s := dropReq s ch r.no
    if codeOk code then s
    else if isAbort code then rptErr s ch (r.fn.getD 0) code r.tga
    else signalErr s ch kind c n code (bits r.tga 3 16)
  | .ring f q no => hostFinish (dropReq s ch r.no) ⟨f, q, no⟩ r code data
  | .aper f wr =>
    let s := dropReq s ch r.no
    if wr then (if code = 0 then s else hostErr s code f r.tga)
    else if codeOk code then hostOut s (.reply (data.map Prod.fst) (anyPsn data))
    else hostAbort (hostErr s code f r.tga) f
  | .seal =>
    let s := dropReq s ch r.no
    let c := if !codeOk code then code else if anyPsn data then cEccUncorrected else 0
    let s := s.fadd Fld.SEAL_KEYBYTES_BYTES ch 0 data.length
    s.setSeal ch fun u => { u with run := u.run.map fun x => { x with bad := if x.bad = 0 then c else x.bad } }
  | .unit 2 a _ true => collWrote (dropReq s ch r.no) ch a code
  | .fdl l tag => fdlReply (dropReq s ch r.no) ch l tag r code data
  | .flow n _ opid => flowReply (dropReq s ch r.no) ch n opid r code data
  | _ => setReq s ch r.no fun r => { r with place := .done, code := code, data := data }

/-- A request ends. One that was split over stack sites ends with its last leg, with the first code of a leg (R53). -/
def finish (s : State) (ch : Nat) (r : Req) (code : Nat) (data : List DByte) : State :=
  match r.ret with
  | .leg n =>
    let s := setReq (dropReq s ch r.no) ch n fun q => { q with code := firstCode q.code code }
    match reqOf s ch n with
    | some q => if (s.chan ch).reqs.any fun x => decide (x.ret = .leg n) then s else finishWhole s ch q q.code q.data
    | none => s
  | _ => finishWhole s ch r code data

/-- The request that a leg belongs to, else the request itself: where its data and its code gather. -/
def Req.whole (r : Req) : Nat := match r.ret with | .leg n => n | _ => r.no

end Sys2Proof.Machine
end

