-- ==== Sys2Proof/Machine/CtSend.lean ====
section
/-! DEFINITION. Requests that leave by Caravan flows (R423, R432): the flow an access travels on, the packets of a request, and
the end of its operation. -/

namespace Sys2Proof.Machine

/-- The valid entry whose key is the function and the peer (R423). -/
def findFlow (s : State) (ch func pkg pch : Nat) : Option Nat :=
  ((s.ct ch).flows.find? fun p => p.2.valid && decide (p.2.func = func ∧ p.2.pkg = pkg ∧ p.2.pch = pch)).map Prod.fst

/-- Every port of a flow lies on a gate die that is absent or out of service (Table 2-2). -/
def portsAbsent (s : State) (ch : Nat) (f : Flow) : Bool :=
  let dies := s.fget Fld.CH_CAPS_SITE_GATE ch &&& s.fget Fld.CH_CAPS_SITE_LIVE ch
  (List.range 32).all fun p => !(f.ports.testBit p && dies.testBit (p / 8))

/-- No gate die of the channel is in service (R35). -/
def noDie (s : State) (ch : Nat) : Bool := decide (s.fget Fld.CH_CAPS_SITE_GATE ch &&& s.fget Fld.CH_CAPS_SITE_LIVE ch = 0)

/-- The flow a TGA's access travels on for a function, and the code of an issue now: an issuer without a function matches no
entry. -/
def routeOf (s : State) (ch : Nat) (fn : Option Nat) (a : Nat) : Nat × Nat :=
  match fn.bind fun f => findFlow s ch f (tgaPkg a) (tgaCh a) with
  | none => (0, cLinkDown)
  | some n =>
    let st := (s.flow ch n).st
    (n, if noDie s ch then cLinkDown else if portsAbsent s ch (s.flow ch n) then cUnitAbsent else if st = fUp then 0 else if st = fRetired then cChannelRetired else cLinkDown)

/-- The code of an operation in a SYNC packet (Table 19-4); the spec gives none for a barrier's waits: 6 a wait for the next
release, 7 an arrival with it (log entry 30). -/
def sopCode : SOp → Nat
  | .add => 1
  | .set => 2
  | .arv => 3
  | .rd => 4
  | .wge => 5
  | .wait => 6
  | .arw => 7

def sopOf (n : Nat) : Option SOp :=
  match n with
  | 1 => some .add
  | 2 => some .set
  | 3 => some .arv
  | 4 => some .rd
  | 5 => some .wge
  | 6 => some .wait
  | 7 => some .arw
  | _ => none

/-- Packets of a request (Table 20-5). -/
def reqPkts (m opid : Nat) (r : Req) : Nat × List CPkt :=
  match r.op with
  | .read len => (tRead, [{ ty := tRead, opid := opid, addr := r.tga, aux := len, flags := flFirst + flLast }])
  | .write d => (tWrite, splitPkts tWrite opid r.tga m d.length d true)
  | .msg h b => (tQmsg, [{ ty := tQmsg, opid := opid, addr := r.tga, flags := flFirst + flLast + (if anyPsn b then flPoison else 0),
                           payload := leBytes 8 h ++ b.map Prod.fst }])
  | .sync o n => (tSync, [{ ty := tSync, opid := opid, addr := r.tga, aux := sopCode o,
                            flags := flFirst + flLast + (if r.parts.isEmpty then 0 else flPoison),
                            payload := leBytes 8 n }])
  | .flit _ _ | .fix => (tWrite, [])

/-- A request handed to Caravan Transport: its packets join its flow's stream, or it ends with the flow's code (R423, R429). -/
def ctIssue (s : State) (ch : Nat) (r : Req) : State :=
  let (n, code) := routeOf s ch r.fn r.tga
  if code ≠ 0 then finish s ch r code []
  else
    let f := s.flow ch n
    let id := f.nextOp
    let (ty, ps) := reqPkts (flowMaxpay s ch f) id r
    let o : CtOp := { opid := id, ty := ty, ret := r.ret, addr := r.tga, req := some r.no,
                      len := match r.op with | .read l => l | _ => 0 }
    let s := setFlow s ch n fun f => { f with nextOp := (id + 1) % 2 ^ 16, ops := f.ops ++ [o] }
    let s := ps.foldl (fun s p => ctPush s ch n (streamOf ty) p) s
    setReq s ch r.no fun r => { r with place := .remote }

/-- An operation of a flow ends: its request does (R432). -/
def ctOpEnd (s : State) (ch n opid code : Nat) (data : List DByte) : State :=
  match (s.flow ch n).ops.find? fun o => decide (o.opid = opid) with
  | none => s
  | some o =>
    let s := setFlow s ch n fun f => { f with ops := f.ops.filter fun o => !decide (o.opid = opid) }
    match o.req.bind fun no => reqOf s ch no with
    | some r => finish s ch r code data
    | none => s

end Sys2Proof.Machine
end

