-- ==== Sys2Proof/Machine/SyncCore.lean ====
section
/-! DEFINITION. Sync objects (chapter 11): operations, barriers, waiters, poison; the training verdict that hangs on one barrier
(R296 to R305) and the group barrier tree (R441). -/

namespace Sys2Proof.Machine

def State.obj (s : State) (ch o : Nat) : SObj := SMap.get {} (s.chan ch).objs o

def setObj (s : State) (ch o : Nat) (f : SObj → SObj) : State :=
  s.setChan ch fun k => { k with objs := SMap.put k.objs o (f (SMap.get {} k.objs o)) }

/-! A binding (Table 11-1). -/

def SObj.kind (x : SObj) : Nat := bits x.bind.toNat 0 2
def SObj.lend (x : SObj) : Bool := x.bind.getLsbD 2
def SObj.outPulse (x : SObj) : Bool := x.bind.getLsbD 3
def SObj.scope (x : SObj) : Nat := bits x.bind.toNat 4 2
def SObj.pch (x : SObj) : Nat := bits x.bind.toNat 6 4
def SObj.target (x : SObj) : Nat := bits x.bind.toNat 32 16
def SObj.group (x : SObj) : Nat := bits x.bind.toNat 48 16

def okUnbound : Nat := 0
def okCounter : Nat := 1
def okBarrier : Nat := 2

/-! ### Waiters -/

/-- The answer to a waiter: a steward goes on or traps, a remote one gets its message (R251, R257). -/
def answer (s : State) (ch : Nat) (who : RetTo) (o code v : Nat) : State :=
  let r : Req := { ret := who, fn := none, epoch := epochOf s ch, cl := 96, tga := mkTga (ownPkg s) ch 2 (8 * o),
                   op := .sync .wge 0, cls := 2, place := .bank }
  let no := (s.chan ch).nextNo
  let s := pushReq s ch r
  finish s ch { r with no := no } code (dBytes 8 v)

/-- A waiter's condition on an object's value (R253); one that waits for a release has none. -/
def Waiter.met (w : Waiter) (v : Nat) : Bool := !w.bar && decide (w.thr ≤ v)

/-- Waiters of an object that pass a test leave their entries and are answered. -/
def wakeWhere (s : State) (ch o code v : Nat) (p : Waiter → Bool) : State :=
  let ws := (s.chan ch).waiters.filter fun w => decide (w.obj = o) && p w
  let s := s.setChan ch fun k => { k with waiters := k.waiters.filter fun w => !(decide (w.obj = o) && p w) }
  ws.foldl (fun s w => answer s ch w.who o code v) s

/-! ### The training verdict -/

/-- The object is the verdict barrier of an enabled monitor (R296). -/
def isVerdict (s : State) (ch o : Nat) : Bool :=
  (s.mon ch).live.en && decide ((s.mon ch).live.vobj = o) && decide ((s.obj ch o).kind = okBarrier)

/-- The sample at a completion (R296): the flag, with the sticky bits cleared and the guard closed. -/
def nfSample (s : State) (ch : Nat) : State :=
  let v := s.fbit Fld.CH_NFSTAT_NF ch || s.fbit Fld.CH_NFSTAT_FORCE ch
  let s := (s.fset Fld.CH_NFSTAT_NF ch 0 0).fset Fld.CH_NFSTAT_PSN ch 0 0
  let s := (s.fset Fld.CH_NFSTAT_WHIT ch 0 0).fset Fld.CH_NFSTAT_FORCE ch 0 0
  (s.fset Fld.CH_NFSTAT_GUARD ch 0 gPending).setMon ch fun m => { m with sample := some v }

/-- Where a write waits for its turn at its target. -/
def targetPlace (a : Nat) : Place := if tgaSpace a = 1 then .depot (tgaCl a) else .hbm

/-- Bytes that a request moves. -/
def Req.len (r : Req) : Nat :=
  match r.op with
  | .read n => n
  | .write d => d.length
  | .fix => 64
  | _ => 0

/-- Granules of HBM that a request covers: a leg those of its site (R53). -/
def hbmGranules (s : State) (ch : Nat) (r : Req) : List Nat :=
  let l := rangeGranules (tgaOff r.tga) r.len
  match r.site with
  | some k => l.filter fun g => decide (granuleLane s ch g % 4 = k)
  | none => l

/-- Granules of a write not yet performed, as memory granules; `parts` of an HBM request holds `2 × granule` of those done, of a
depot request the numbers of its 128-byte blocks. -/
def granulesLeft (s : State) (ch : Nat) (r : Req) : List Nat :=
  if tgaSpace r.tga = 0 then
    ((hbmGranules s ch r).filter fun g => !r.parts.contains (2 * g)).map fun g => hbmAt ch 0 / 64 + g
  else (rangeGranules (tgaMem r.tga) r.len).filter fun g => !r.parts.contains (g / 2)

/-- A request that the guard held is performed (code 0), or discarded where it lies in a STATE window (R299, R300). -/
def settleReq (s : State) (ch no code : Nat) : State :=
  match reqOf s ch no with
  | none => s
  | some r =>
    let d := match r.op with | .write d => d | _ => []
    let s := (granulesLeft s ch r).foldl (fun s g =>
      let p := pieceAt (tgaMem r.tga) d g
      if code ≠ 0 ∧ inStateWin s p.1 p.2.length then s else storeBytes s p.1 p.2) s
    finish (if code = 0 ∨ ((reqOf s ch r.whole).map Req.code) = some code then s else countDiscard s ch) ch r (firstCode r.code code) r.data

/-- One held write settled. -/
def settleOne (ch code : Nat) (s : State) : HeldWrite → State
  | .req no => settleReq s ch no code
  | .put k a bs =>
    let s := if code = 0 then storeBytes s a bs else storeOutside (countDiscard s ch) a bs
    if k.1 = 9 then s else s.setMon ch fun m => { m with ready := m.ready ++ [(k, (code, bs.length))] }

/-- Every held write settled in the order of arrival: performed (code 0), or discarded with a code (R299, R300, R304, R306). -/
def settleHeld (s : State) (ch code : Nat) : State :=
  let l := (s.mon ch).held
  l.foldl (settleOne ch code) (s.setMon ch fun m => { m with held := [] })

/-- `CH_LSCALE` at a verdict (R301). -/
def lscaleStep (s : State) (ch : Nat) (skip : Bool) : State :=
  let e := s.fget Fld.CH_LSCALE_EXP ch
  if skip then
    (s.fset Fld.CH_LSCALE_EXP ch 0 (max (e - s.fget Fld.CH_LSCALE_DOWN ch) (s.fget Fld.CH_LSCALE_MINEXP ch))).fset
      Fld.CH_LSCALE_RUN ch 0 0
  else
    let run := s.fget Fld.CH_LSCALE_RUN ch + 1
    let g := s.fget Fld.CH_LSCALE_GROW ch
    if g ≠ 0 ∧ g ≤ run then
      (s.fset Fld.CH_LSCALE_EXP ch 0 (min (e + 1) (s.fget Fld.CH_LSCALE_MAXEXP ch))).fset Fld.CH_LSCALE_RUN ch 0 0
    else s.fset Fld.CH_LSCALE_RUN ch 0 (min run 65535)

/-- A verdict latched (R297, R301, Table 14-1); `code` 0 for a PASS, and the scale moves unless the barrier was poisoned
(R304). -/
def latchVerdict (s : State) (ch code : Nat) : State :=
  let m := s.mon ch
  let skip := decide (code ≠ 0)
  let s := (s.fset Fld.CH_NFVERDICT_STEP ch 0 m.step).fset Fld.CH_NFVERDICT_VALID ch 0 1
  let s := (s.fset Fld.CH_NFVERDICT_SKIP ch 0 (ofBit skip)).fset Fld.CH_NFVERDICT_CODE ch 0 code
  let s := s.setMon ch fun m => { m with step := (m.step + 1) % 65536, sample := none }
  let s := dlyRecord s ch 7 code 127 m.step (ofBit skip)
  let s := if code = cSyncPoison then s else lscaleStep s ch skip
  if skip then
    let s := postEvent s m.live.func 2 ch cNonfiniteSkip m.step 0
    settleHeld (s.fset Fld.CH_NFSTAT_GUARD ch 0 gSkipping) ch cNonfiniteSkip
  else settleHeld (s.fset Fld.CH_NFSTAT_GUARD ch 0 gOpen) ch 0

/-! ### Barriers (R249) -/

/-- A release, with the verdict it carries. -/
def release (s : State) (ch o : Nat) (nf : Bool) : State :=
  let s := if isVerdict s ch o then latchVerdict s ch (if nf then cNonfiniteSkip else 0) else s
  let v := ((s.obj ch o).val + 1) % 2 ^ 32
  let s := setObj s ch o fun x => { x with val := v, armed := false }
  let s := dlyRecord (s.fadd Fld.CH_SYNCCNT_RELEASES ch 0 1) ch 3 0 127 o v
  let s := wakeWhere s ch o 0 v fun w => w.bar || w.met v
  if (s.obj ch o).outPulse then { s with hub := { s.hub with outPend := true } } else s

/-! ### The group barrier tree (R441) -/

def State.group (s : State) (ch n : Nat) : Group := SMap.get {} (s.ct ch).groups n

def setGroup (s : State) (ch n : Nat) (f : Group → Group) : State :=
  s.setCt ch fun t => { t with groups := SMap.put t.groups n (f (SMap.get {} t.groups n)) }

def Group.word (g : Group) (i : Nat) : Nat := (g.w.getD i 0#64).toNat
def Group.gid (g : Group) : Nat := bits (g.word 0) 0 32
def Group.func (g : Group) : Nat := bits (g.word 0) 32 8
def Group.fan (g : Group) : Nat := bits (g.word 0) 40 4
def Group.valid (g : Group) : Bool := bit (g.word 0) 44
def Group.bobj (g : Group) : Nat := bits (g.word 0) 48 16
def Group.size (g : Group) : Nat := bits (g.word 1) 0 17
def Group.rank (g : Group) : Nat := bits (g.word 1) 32 17
def Group.table (g : Group) : Nat := g.word 2

/-- `FAN` 16 does not fit its four bits as 16: it stands as 0 (log entry 31). -/
def Group.width (g : Group) : Nat := if g.fan = 0 then 16 else g.fan

/-- Package and channel of a member, from the member table. -/
def member (s : State) (g : Group) (rank : Nat) : Nat × Nat :=
  let e := dNat (tableRead s (g.table + 4 * rank) 4)
  (bits e 0 16, bits e 16 2)

def Group.parent (g : Group) : Nat := (g.rank - 1) / g.width

def Group.children (g : Group) : List Nat :=
  (rangeFrom (g.width * g.rank + 1) g.width).filter fun r => decide (r < g.size)

/-- The flow to a member. -/
def flowTo (s : State) (ch : Nat) (g : Group) (rank : Nat) : Nat × Nat :=
  let (p, c) := member s g rank
  routeOf s ch (some g.func) (mkTga p c 0 0)

/-- A BAR to a member: `AUX` as R441 gives. -/
def sendBar (s : State) (ch : Nat) (g : Group) (rank : Nat) (nf psn rel : Bool) : State :=
  let (n, code) := flowTo s ch g rank
  if code ≠ 0 then s
  else ctPush s ch n sS { ty := tBar, flags := flFirst + flLast, addr := g.gid,
                          aux := ofBit nf + 2 * ofBit psn + 256 * ofBit rel }

/-- The group whose barrier object this is. -/
def groupOf (s : State) (ch o : Nat) : Option Nat :=
  let n := (s.obj ch o).group
  if (s.group ch n).valid ∧ (s.group ch n).bobj = o then some n else none

def clearInst (g : Group) : Group := { g with own := false, kids := [], nf := false, psn := false }

/-- This member and every child are in: the root releases, any other member reports to its parent (R441). -/
def groupTry (s : State) (ch n : Nat) : State :=
  let g := s.group ch n
  if !g.own || !(g.children.all fun r => g.kids.contains r) then s
  else if g.rank = 0 then
    let s := setGroup s ch n clearInst
    let s := g.children.foldl (fun s r => sendBar s ch g r g.nf g.psn true) s
    release s ch g.bobj g.nf
  else sendBar (setGroup s ch n fun g => { g with own := false, kids := [] }) ch g g.parent g.nf g.psn false

/-- Poison of an object (R257): its waiters trap; a verdict barrier latches SKIP (R304); a group barrier tells its tree. -/
def poisonObj (s : State) (ch o : Nat) : State :=
  if (s.obj ch o).psn then s
  else
    let s := setObj s ch o fun x => { x with psn := true }
    let s := wakeWhere s ch o cSyncPoison 0 fun _ => true
    let s := if isVerdict s ch o then latchVerdict s ch cSyncPoison else s
    let x := s.obj ch o
    if x.kind = okBarrier ∧ x.scope = 1 then
      match groupOf s ch o with
      | none => s
      | some n =>
        let g := s.group ch n
        let s := setGroup s ch n clearInst
        let s := if g.rank = 0 then s else sendBar s ch g g.parent g.nf true false
        ctErr (g.children.foldl (fun s r => sendBar s ch g r g.nf true true) s) ch cSyncPoison 0 0
    else s

/-- The local completion of a barrier (R249, R296). -/
def complete (s : State) (ch o : Nat) : State :=
  let x := s.obj ch o
  let s := if isVerdict s ch o then nfSample s ch else s
  let nf := (s.mon ch).sample.getD false && isVerdict s ch o
  if x.scope = 0 then release s ch o nf
  else
    let s := setObj s ch o fun x => { x with armed := true }
    if x.scope = 2 then s
    else match groupOf s ch o with
      | some n => groupTry (setGroup s ch n fun g => { g with own := true, nf := g.nf || nf }) ch n
      | none => ctErr (poisonObj s ch o) ch cCfgIgnored 0 0

/-- Completions while the count allows (R249). -/
def barLoop : Nat → State → Nat → Nat → State
  | 0, s, _, _ => s
  | k + 1, s, ch, o =>
    let x := s.obj ch o
    if x.kind = okBarrier ∧ !x.armed ∧ !x.psn ∧ x.target ≠ 0 ∧ x.target ≤ x.cnt then
      barLoop k (complete (setObj s ch o fun x => { x with cnt := x.cnt - x.target }) ch o) ch o
    else s

/-- Completions that the present count gives. -/
def barRun (s : State) (ch o : Nat) : State := barLoop ((s.obj ch o).cnt + 1) s ch o

/-- Arrivals at a barrier. -/
def arrive (s : State) (ch o n : Nat) : State :=
  barRun (setObj s ch o fun x => { x with cnt := min (x.cnt + n) (2 ^ 32 - 1) }) ch o

/-- A counter takes a value: waiters are judged (R253). -/
def counterSet (s : State) (ch o v : Nat) : State :=
  let v := v % 2 ^ 32
  wakeWhere (setObj s ch o fun x => { x with val := v }) ch o 0 v fun w => w.met v

/-- The release that the group or a `SYNC_IN` pulse brings to an armed barrier, and what its count then gives. -/
def releaseArmed (s : State) (ch o : Nat) (nf : Bool) : State :=
  if (s.obj ch o).armed then barRun (release s ch o nf) ch o else s

/-- A posted operation on an object (Table 11-2): the state and the code. -/
def syncPost (s : State) (ch o : Nat) (op : SOp) (n : Nat) : State × Nat :=
  let x := s.obj ch o
  if x.psn then (s, cSyncPoison)
  else if x.kind = okUnbound then (s, cCfgIgnored)
  else if x.kind = okCounter then
    match op with
    | .add => (counterSet s ch o (x.val + n % 2 ^ 32), 0)
    | .set => (counterSet s ch o n, 0)
    | _ => (counterSet s ch o (x.val + 1), 0)
  else
    match op with
    | .add => (if n % 2 ^ 32 = 0 then s else arrive s ch o (n % 2 ^ 32), 0)
    | .set => (s, cCfgIgnored)
    | _ => (arrive s ch o 1, 0)

/-- An object bound (R244, R245): waiters are kept, and those of a counter judged against its new value. -/
def bindObj (s : State) (ch o v : Nat) : State :=
  let k := bits v 0 2
  let s := setObj s ch o fun x =>
    { x with bind := BitVec.ofNat 64 v, cnt := 0, psn := false, armed := false,
             val := if k = okCounter then bits v 32 32 else x.val }
  if k = okCounter then wakeWhere s ch o 0 (bits v 32 32) fun w => w.met (bits v 32 32) else s

end Sys2Proof.Machine
end

