-- ==== Sys2Proof/Machine/Loss.lean ====
section
/-! DEFINITION. What ends when a unit is lost: flows (R429, R447), collectives (R440), convoys (R34, R325, R344), ports and gate
dies, and what an uncorrectable error poisons (R473). -/

namespace Sys2Proof.Machine

/-! ### Collectives -/

/-- The ranks next to this member on the ring. -/
def ringNext (g : Group) : Nat := (g.rank + 1) % g.size
def ringPrev (g : Group) : Nat := (g.rank + g.size - 1) % g.size

/-- A group uses the flow: a neighbour of this member in its ring or tree is the flow's peer. -/
def groupUses (s : State) (f : Flow) (g : Group) : Bool :=
  g.valid && decide (g.func = f.func) && decide (0 < g.size) &&
    ([ringNext g, ringPrev g, g.parent] ++ g.children).any fun r => decide (member s g r = (f.pkg, f.pch))

/-! ### Flows -/

/-- Every operation of a flow ends with a code. -/
def flowOpsEnd (s : State) (ch n code : Nat) : State :=
  (s.flow ch n).ops.foldl (fun s o => ctOpEnd s ch n o.opid code []) s

/-- A flow leaves `UP` for a state: its operations end, its groups and the collective that need it fail (R429, R440, R441). -/
def flowLost (s : State) (ch n code st : Nat) : State :=
  let f := s.flow ch n
  let s := setFlow (setFlowSt s ch n st) ch n fun f => { f with code := code, expiries := 0 }
  let s := flowOpsEnd s ch n code
  let s := setFlow s ch n fun f => { f with streams := [], ins := [] }
  let s := (s.ct ch).groups.foldl (fun s p =>
    if groupUses s f p.2 then ctErr (poisonObj s ch p.2.bobj) ch code n 0 else s) s
  match (s.ct ch).coll with
  | some k => if groupUses s f (s.group ch k.group) then collEnd s ch cLinkDown else s
  | none => s

/-- The flows of a function are opened again once its disable has finished (R447); what was outstanding ends with `LINK_DOWN`. -/
def flowsReopen (s : State) (ch func : Nat) : State :=
  (s.ct ch).flows.foldl (fun s p =>
    if p.2.valid ∧ p.2.func = func ∧ p.2.st ≠ fIdle ∧ p.2.st ≠ fRetired then
      let s := flowOpsEnd s ch p.1 cLinkDown
      setFlow (setFlowSt s ch p.1 fOpening) ch p.1 fun f => { f with streams := [], ins := [] }
    else s) s

/-- A flow goes `DOWN` (R429). -/
def flowDown (s : State) (ch n : Nat) : State :=
  if (s.flow ch n).st = fUp then flowLost s ch n cLinkDown fDown else s

/-! ### Ports and gate dies -/

/-- Lanes of a port in its mode (Table 20-1). -/
def portLanes (s : State) (ch port : Nat) : Nat :=
  let m := portMode s ch (port / 8)
  if m = 1 then 4 else if m = 2 then 2 else if m = 3 then 1 else 0

/-- Ports of a site in its mode. -/
def sitePorts (s : State) (ch site : Nat) : Nat :=
  let m := portMode s ch site
  if m = 1 then 2 else if m = 2 then 4 else if m = 3 then 8 else 0

def portGone (s : State) (ch port : Nat) : Bool := (SMap.get [] s.goneports ch).contains port

/-- Ports of a site not removed. -/
def portsLeft (s : State) (ch site : Nat) : Nat :=
  ((List.range (sitePorts s ch site)).filter fun j => !portGone s ch (8 * site + j)).length

/-- Lanes of a site whose ports are not removed. -/
def siteLanes (s : State) (ch site : Nat) : Nat :=
  8 - (((List.range 8).filter fun j => portGone s ch (8 * site + j)).map fun j => portLanes s ch (8 * site + j)).sum

/-- Lanes of a site counted in `LANES_LIVE`: none behind a die of another maker (R415). -/
def dieLanes (s : State) (ch site : Nat) : Nat :=
  if s.fget Fld.FDL_LINKn_STAT_PROLE (linkLoc ch site false) = 3 then 0 else siteLanes s ch site

/-- A port has no link: it leaves every spray set (R447). -/
def portLost (s : State) (ch port : Nat) : State :=
  s.fset Fld.CT_PORTn_STAT_UP ch (port / 8) (putBits (s.fget Fld.CT_PORTn_STAT_UP ch (port / 8)) (port % 8) 1 0)

/-- A gate die's ports go, and the flows homed on it; what is outstanding on a flow that has no other port ends too (R34, R447). -/
def dieLost (s : State) (ch site code : Nat) : State :=
  let s := s.fset Fld.CT_PORTn_STAT_UP ch site 0
  (s.ct ch).flows.foldl (fun s p =>
    if p.2.st ≠ fUp then s
    else if p.2.home = site then flowLost s ch p.1 code fDown
    else if p.2.ports = bits p.2.ports (8 * site) 8 * 2 ^ (8 * site) then flowOpsEnd s ch p.1 code
    else s) s

/-- The flow table of a channel about to retire goes to the lowest live channel with a gate die, which will send the notices
(R447); a notice is (peer package, peer channel, peer flow, 4 × times left + retired channel). -/
def flowsHanded (s : State) (ch : Nat) : State :=
  let ns := (s.ct ch).flows.filterMap fun p =>
    if p.2.valid then some (p.2.pkg, p.2.pch, p.2.peer, 4 * 3 + ch) else none
  match (s.liveChs.filter fun c => decide (c ≠ ch)).find? fun c =>
      decide (s.fget Fld.CH_CAPS_SITE_LIVE c &&& s.fget Fld.CH_CAPS_SITE_GATE c ≠ 0) with
  | some c => if ns.isEmpty then s else s.setCt c fun t => { t with notices := t.notices ++ ns }
  | none => s

/-! ### The Seal unit -/

/-- Ticket of an entry (R317); the count is kept with it. -/
def sealTicket (e : SealEnt) (n : Nat) : Nat := n + e.cnt * 2 ^ 16

/-- An entry of the Seal queue completes with a code (R325). -/
def sealComplete (s : State) (ch n code : Nat) : State :=
  match SMap.get? (s.seal ch).ents n with
  | none => s
  | some e =>
    let run := (s.seal ch).run.filter fun r => decide (r.ent = n)
    let w0 := match run with
      | some r => if r.d.isEmpty then dNat (s.readMem (tgaMem e.desc) 8) else r.d.getD 0 0
      | none => dNat (s.readMem (tgaMem e.desc) 8)
    let s := (if run.isSome then dropKeyReads s ch else s).setSeal ch fun u =>
      { u with order := u.order.filter (· ≠ n), run := if run.isSome then none else u.run }
    let free := fun (s : State) => s.setSeal ch fun u => { u with ents := SMap.erase u.ents n }
    let failed := fun (s : State) =>
      ((free (s.record Fld.SEAL_ERR_CODE Fld.SEAL_ERR_COUNT ch code)).fset Fld.SEAL_ERR_ENTRY ch 0 n).fset
        Fld.SEAL_ERR_TICKET_CNT ch 0 e.cnt
    if e.silent then free s
    else if e.ctx.isSome then (if code = 0 then free s else failed s)
    else
      let s := if code = 0 then s else dlyRecord s ch 9 code 127 n (sealTicket e n)
      let s := if bit w0 19 then signalFor s ch 0 (e.w / 2) n e.fn (bits w0 20 16) else s
      if e.collect then s.setSeal ch fun u => { u with ents := SMap.put u.ents n { e with done := true, code := code } }
      else if code = 0 then free s
      else failed s

/-- A convoy is in WRITE. -/
def sealInWrite (s : State) (ch : Nat) : Bool := (s.seal ch).run.any fun r => decide (r.phase = 6)

/-- Every entry of the queue ends with a code, in queue order. -/
def sealFlush (s : State) (ch code : Nat) : State := (s.seal ch).order.foldl (fun s n => sealComplete s ch n code) s

/-! ### Decoder and compressor -/

/-- The descriptors that the EGC decoder works on end with the code of the fault that retired it (R34). -/
def egcRetired (s : State) (ch code : Nat) : State :=
  (List.range 96).foldl (fun s c =>
    if (s.clu ch c).slots.any fun p => p.2.egc && p.2.started && p.2.code.isNone then
      s.setClu ch c fun k => { k with slots := k.slots.map fun p =>
        if p.2.egc && p.2.started && p.2.code.isNone then (p.1, { p.2 with code := some code, hold := [] }) else p }
    else s) s

/-- The collective that the link compressor works on ends with the code of the fault that retired it (R34). -/
def lcRetired (s : State) (ch code : Nat) : State :=
  match (s.ct ch).coll with
  | some k => if k.lcused ≠ 0 then collEnd s ch code else s
  | none => s

/-! ### Columns and errors -/

/-- The failed column of a cluster, to be set aside at its next load (R52). -/
def setRemap (s : State) (ch c col : Nat) : State := s.setClu ch c fun cl => { cl with remap := some col }

/-- A request whose mesh beat held an uncorrectable word: its payload and its header are poisoned (R473). -/
def Req.spoiled (r : Req) : Req :=
  match r.op with
  | .write d => { r with op := .write (d.map fun b => (b.1, true)) }
  | .msg h b => { r with op := .msg h (b.map fun x => (x.1, true)) }
  | .flit p f => { r with op := .flit p { f with poison := true } }
  | .sync _ _ => { r with parts := [1] }
  | .read _ | .fix => r

/-- A pen record whose entry has become uncorrectable (R291): bad data goes out poisoned, without its metadata nothing goes out. -/
def PenRec.spoiled (md : Bool) : PenRec → PenRec
  | .flit p f => if md then .lost none else .flit p { f with poison := true }
  | .store w a d => if md then .lost none else .store w a (d.map fun b => (b.1, true))
  | .send w a n d => if md then .lost none else .send w a n (d.map fun b => (b.1, true))
  | .undo off d => .lost (some (off, d.length))
  | .lost r => .lost r

/-! ### Poisoned queues -/

def qPsn (s : State) (ch c q : Nat) : Bool := s.fbit Fld.CL_QSTATn_POISONED (clLoc ch c) q

/-- A steward waits in `QRCV` for the queue. -/
def qWaits (s : State) (ch c q w : Nat) : Bool := decide ((s.stw ch c w).st = wStalled ∧ (s.stw ch c w).wait = .qrcv q)

/-- A queue becomes poisoned (R235): waiting receivers trap. -/
def poisonQueue (s : State) (ch c q : Nat) : State :=
  if qPsn s ch c q then s
  else
    let s := s.fset Fld.CL_QSTATn_POISONED (clLoc ch c) q 1
    [0, 1].foldl (fun s w => if qWaits s ch c q w then stwExc s ch c w 0 kAccess cQueuePoison q else s) s

/-- What a persistent error leaves behind (R291, R473). -/
def poisonPlace (s : State) : EvPlace → State
  | .plain | .hubState => s
  | .tileReg t v _ =>
    s.setTl t.c.ch t.c.cl t.t fun x => { x with vregs := SMap.put x.vregs v { SMap.get {} x.vregs v with psn := true } }
  | .tileFlit t port pos =>
    s.setTl t.c.ch t.c.cl t.t fun x =>
      { x with rq := setLst x.rq port ((lst x.rq port).modify pos fun f => { f with poison := true }) }
  | .tileSlot t =>
    let l := tlLoc t.c.ch t.c.cl t.t
    abortCluster ((s.fset Fld.TL_STATUS_STATE l 0 tFaulted).fset Fld.TL_STATUS_CODE l 0 cEccUncorrected) t.c.ch t.c.cl
      cEccUncorrected
  | .stwReg w =>
    abortCluster (setStw s w.c.ch w.c.cl w.w fun x => { x with st := wFaulted, fcause := cEccUncorrected }) w.c.ch w.c.cl
      cEccUncorrected
  | .word a => s.markPoison (tgaMem a)
  | .meshBeat ch no =>
    setReq s ch no fun r => match r.place with
      | .mesh _ _ => r.spoiled
      | _ => r
  | .scratch t row w =>
    s.setTl t.c.ch t.c.cl t.t fun x =>
      { x with rows := SMap.put x.rows row { SMap.get {} x.rows row with psn := (SMap.get {} x.rows row).psn ||| 1#8 <<< w.val } }
  | .penEntry c pos md => s.setClu c.ch c.cl fun k => { k with pen := k.pen.modify pos fun p => (p.1, p.2.spoiled md) }
  | .queueWord c q => poisonQueue s c.ch c.cl q
  | .syncWord ch o => poisonObj s ch o
  | .sealStore ch =>
    match (s.seal ch).run with
    | some r =>
      if r.phase = 7 then s
      else if r.phase = 6 then s.setSeal ch fun u => { u with run := u.run.map fun x => { x with bad := firstCode x.bad cEccUncorrected } }
      else sealComplete s ch r.ent cEccUncorrected
    | none => s

/-- HBM and depots cleared, marks too (R523). -/
def scrubMem (s : State) : State := { s with mem := [], psn := [] }

end Sys2Proof.Machine
end

