-- ==== Sys2Proof/Machine/Fault.lean ====
section
/-! DEFINITION. The fault controllers (chapter 22): classification, actions, channel retirement and keeper mode. -/

namespace Sys2Proof.Machine

def State.fc (s : State) (src : Nat) : FaultCtl := SMap.get {} s.fcs src

def State.setFc (s : State) (src : Nat) (f : FaultCtl → FaultCtl) : State :=
  { s with fcs := SMap.put s.fcs src (f (s.fc src)) }

/-- The class register of a type: `CH_FCLSn`, or `HUB_FCLS` for the hub's own controller. -/
def fclsWord (s : State) (src ty : Nat) : Nat :=
  if src < 4 then s.regN .CH_FCLSn src ty else s.regN .HUB_FCLS

def fclsCap (w : Nat) : Nat := bits w 0 8
def fclsLeak (w : Nat) : Nat := bits w 8 8
def fclsWindow (w : Nat) : Nat := bits w 16 16
def fclsStorm (w : Nat) : Nat := bits w 32 10
def fclsRetry (w : Nat) : Nat := bits w 42 3
def fclsAct (w : Nat) : Bool := bit w 45

/-- A unit's bucket: its type, its cluster (127 for a channel unit) and its number in it (Table 22-1). -/
def bucketKey (ty cl unit : Nat) : Nat := (ty * 128 + cl) * 2 ^ 32 + unit

/-- Points an event adds to its unit's bucket (R474). -/
def evPoints : EvKind → Nat
  | .corrected | .linkRetry => 1
  | .retried => 4
  | .persistent | .linkRetrain => 8

/-- Code and transient action an event's record shows (Table 22-4, worked example of chapter 22); a code the spec does not
name is free. -/
def evCode : EvKind → Nat
  | .corrected => cEccCorrected
  | .retried => (openCode 2)
  | .persistent => cEccUncorrected
  | .linkRetry => cLinkRetry
  | .linkRetrain => (openCode 3)

def evAction : EvKind → Nat
  | .corrected => 1
  | .retried | .linkRetry | .linkRetrain => 2
  | .persistent => 3

/-- Types with a location table (R475). -/
def hasLocs (ty : Nat) : Bool := [0, 1, 2, 5, 6, 7, 11, 12, 15].contains ty

/-- An event counted in its unit's bucket: whether the unit overflows (R474). -/
def bucketAdd (s : State) (src ty cl unit pts : Nat) : State × Bool × Nat :=
  let k := bucketKey ty cl unit
  let lv := SMap.get 0 (s.fc src).bucket k + pts
  let ovf := decide (fclsCap (fclsWord s src ty) < lv)
  let lv := if ovf then 0 else lv
  (s.setFc src fun f => { f with bucket := SMap.put f.bucket k lv }, ovf, lv)

/-- The location rule (R475): whether the event makes its location permanent. A corrected event's write-back arms the
entry again, one of HBM when its slot comes (R183). -/
def locEvent (s : State) (src ty loc time : Nat) (k : EvKind) : State × Bool :=
  if !hasLocs ty then (s, false)
  else
    let size := if src < 4 then 256 else 64
    let ls := (s.fc src).locs
    let old := ls.find? fun e => decide (e.ty = ty ∧ e.loc = loc)
    let win := fclsWindow (fclsWord s src ty) * 100000
    let perm := match old with
      | some e => e.armed && decide (time ≤ e.time + win)
      | none => false
    let e : LocEnt := ⟨ty, loc, time, decide (k = .corrected ∧ ty ≠ 7)⟩
    let rest := ls.filter fun x => !decide (x.ty = ty ∧ x.loc = loc)
    (s.setFc src fun f => { f with locs := (e :: rest).take size }, perm)

/-- A clean write of a word or granule of memory arms the table entries of its locations (R475). -/
def armLoc (s : State) (src ty a : Nat) : State :=
  let hit (e : LocEnt) : Bool := decide (e.ty = ty ∧ unitBase (e.loc % 2 ^ 48) = unitBase a)
  s.setFc src fun f => { f with locs := f.locs.map fun e => if hit e then { e with armed := true } else e }

/-- Keeper mode entered (R489, R490): every `DRST_N` asserted, every channel in reset, the pins and the record; `dump`
whether the dump is to be written (R539, R560). -/
def keeperEnter (s : State) (cause code act : Nat) (dump : Bool) : State :=
  if s.hub.phase = .keeper then s
  else
    let s := (List.range 4).foldl dropChannel s
    let s := { s with hub := { s.hub with phase := .keeper, released := [], ready := [], keeperN := true,
                                          loadfailN := [], capsWait := [], syncNotices := [], notices := [] } }
    let s := (s.fset Fld.NV_BOOTSTAT_KCAUSE 0 0 cause).fset Fld.HUB_FLOGPTR_KEEPER 0 0 1
    let s := report3 s 4 code act 127 0 0 0
    let s := if !dump then s
      else if s.fbit Fld.HUB_DUMPSTAT_ERASED then { s with mgmt := { s.mgmt with dumping := true } }
      else s.fset Fld.HUB_DUMPSTAT_SKIPPED 0 0 1
    mgmtEvent (faultPin (aerSet s 0 .internal)) evKeeper cause

/-- A hub critical fault at run time (R488, R489). -/
def criticalFault (s : State) : State := keeperEnter s 4 cKeeperEntered 13 true

/-- A stored fault record queued for the fault log (R486, R513), which shows in `BUSY`; the append fills in its `EPOCH`, `SEQ` and
CRC. -/
def persist (s : State) (act ty ch cl unit : Nat) (time : Nat) : State :=
  let r := leBytes 4 0 ++ [BitVec.ofNat 8 act, BitVec.ofNat 8 ty, BitVec.ofNat 8 ch, BitVec.ofNat 8 cl] ++
    leBytes 4 unit ++ leBytes 4 0 ++ leBytes 8 time
  let s := if s.fget Fld.NV_STAT_BUSY = 0 ∧ s.nv.cur.isSome then s.fset Fld.NV_STAT_BUSY 0 0 3 else s
  { s with nv := { s.nv with appends := s.nv.appends ++ [r] } }

/-- A channel's own capability register with the mirror (R484 item 1). The spec names `RETIRED` for the mirror; that it shows in the
channel's own register too, and that `CAPS_GEN` counts it, is the model's choice (log entry 67). -/
def markRetired (s : State) (ch : Nat) : State :=
  let s := s.fset Fld.HUB_CAPS_CH_LIVE 0 0 (putBits (s.fget Fld.HUB_CAPS_CH_LIVE) ch 1 0)
  let s := s.fset Fld.CH_CAPS_RETIRED ch 0 1
  let s := s.finc Fld.CH_CAPS_CAPS_GEN ch 0 1
  s.setReg .HUB_CHCAPSn 0 ch (s.regN .CH_CAPS ch)

/-- The oldest change of a channel's capabilities that waits is reported (R32). -/
def reportCap (s : State) (ch : Nat) : State :=
  match s.hub.capsWait.find? fun p => decide (p.1 = ch) with
  | none => s
  | some p => postGranted { s with hub := { s.hub with capsWait := s.hub.capsWait.erase p } } ch 3 p.2 (s.fget Fld.CH_CAPS_CAPS_GEN ch)

def reportCaps : Nat → State → Nat → State
  | 0, s, _ => s
  | n + 1, s, ch => reportCaps n (reportCap s ch) ch

/-- Channel retirement (R483, R484; a load in progress asserts its `LOADFAIL_N`, R168); survivors take the notice with `RETIREMENT_NOTICE` (R485). -/
def retireChannel (s : State) (ch code : Nat) : State :=
  if !s.chLive ch then s
  else
    let s := report3 s 4 code 11 127 0 0 0
    let s := persist s 11 9 ch 127 0 s.now
    let s := retireCmds (flowsHanded s ch) ch
    let s := (s.chan ch).reqs.foldl (fun s r => match r.ret with
      | .aper _ _ => finish s ch r cChannelRetired []
      | _ => s) s
    let s := reportCaps (s.hub.capsWait.length) s ch
    let fs := (List.range 129).filter (granted s ch)
    let loading := decide (ldState s ch ≠ ldIdle ∧ ldState s ch ≠ ldUnloading)
    let fc := s.fc ch
    let s := (dropChannel s ch).setFc ch fun _ => { fc with repairs := [] }
    let s := { s with hub := { s.hub with
      released := s.hub.released.filter fun x => !decide (x / 5 = ch),
      ready := s.hub.ready.filter (· ≠ ch),
      loadfailN := if loading then insertN ch s.hub.loadfailN else s.hub.loadfailN } }
    let s := sendGrants (markRetired s ch)
    let s := { s with hub := { s.hub with notices := s.hub.notices ++ s.liveChs.map fun c => (c, ch) } }
    let s := fs.foldl (fun s f => postEvent s f 4 ch cChannelRetired 0 0) s
    let s := s.port.fns.foldl (fun s p => chanDisabled s ch p.1) s
    mgmtEvent (pend s Fld.HUB_FAULTPEND_RETIRE) evRetired ch

/-- A cluster fenced (R39, R481): its capability register, the fence masks, the abort of its section, and the failure of a load
that owns it (Table 7-6). -/
def fenceCluster (s : State) (ch cl code : Nat) : State :=
  let s := abortCluster s ch cl code
  let s := if loadOwns s ch cl then loadFail s ch cUnitAbsent else s
  let s := if [1, 5, 6].contains (s.fget Fld.CH_FINJ_TYPE ch) ∧ s.fget Fld.CH_FINJ_CLUSTER ch = cl then s.fset Fld.CH_FINJ_ARM ch 0 0
    else s
  let s := s.setReg .CL_CAPS (clLoc ch cl) 0 1
  let s := if cl < 64 then
      s.setReg .CH_CLFENCE0 ch 0 (putBits (s.regN .CH_CLFENCE0 ch) cl 1 1)
    else s.setReg .CH_CLFENCE1 ch 0 (putBits (s.regN .CH_CLFENCE1 ch) (cl - 64) 1 1)
  let s := s.fset Fld.CH_CAPS_CL_LIVE ch 0 (s.fget Fld.CH_CAPS_CL_LIVE ch - 1)
  dropCluster (capsChanged s ch code) ch cl

/-- A pseudo-channel retired (R182, Table 22-3): 4 × pseudo-channel + site. Requests on their way to it end with the fault's code
(R200). -/
def retirePc (s : State) (ch pc code : Nat) : State :=
  let lost := SMap.get [] s.lostLanes ch
  let s := { s with lostLanes := SMap.put s.lostLanes ch (lost ++ [pc]) }
  let aimed (r : Req) : Bool := decide (tgaSpace r.tga = 0) && isOwn s ch r.tga
  let s := s.setChan ch fun k =>
    { k with reqs := k.reqs.map fun r => if aimed r then { r with doom := r.doom ++ [(pc, code)] } else r }
  let s := (s.fadd Fld.CH_CAPS_PC_RETIRED ch 0 1).fadd Fld.CH_HBMMAP_LANES_LOST ch 0 1
  let site := pc % 4
  let gone := ((lost ++ [pc]).filter fun x => decide (x % 4 = site)).length
  if gone < 32 then capsChanged s ch code
  else
    let live := putBits (s.fget Fld.CH_CAPS_SITE_LIVE ch) site 1 0
    let s := capsChanged (s.fset Fld.CH_CAPS_SITE_LIVE ch 0 live) ch code
    if live &&& s.fget Fld.CH_CAPS_SITE_STACK ch = 0 then retireChannel s ch code else s

/-- A gate die retired (R34, R447, Table 22-3). -/
def retireDie (s : State) (ch site code : Nat) : State :=
  if !(s.fget Fld.CH_CAPS_SITE_LIVE ch).testBit site then s
  else
    let lanes := s.fget Fld.CH_CAPS_LANES_LIVE ch - dieLanes s ch site
    let s := dieLost s ch site code
    let s := s.fset Fld.CH_CAPS_SITE_LIVE ch 0 (putBits (s.fget Fld.CH_CAPS_SITE_LIVE ch) site 1 0)
    let s := { s with hub := { s.hub with released := s.hub.released.filter (· ≠ ch * 5 + site) } }
    unitLeft (capsChanged (s.fset Fld.CH_CAPS_LANES_LIVE ch 0 lanes) ch code) ch

/-- A port removed from every spray set (Table 22-3). -/
def removePort (s : State) (ch port code : Nat) : State :=
  let lanes := s.fget Fld.CH_CAPS_LANES_LIVE ch - portLanes s ch port
  let s := portLost { s with goneports := SMap.put s.goneports ch (SMap.get [] s.goneports ch ++ [port]) } ch port
  let s := capsChanged (s.fset Fld.CH_CAPS_LANES_LIVE ch 0 lanes) ch code
  if portsLeft s ch (port / 8) = 0 then
    retireDie (persist s 10 8 ch 127 (port / 8) s.now) ch (port / 8) code
  else s

/-- The column has been removed already: it is set aside, or its remap waits for the next load (R52, R58, R478). -/
def columnGone (s : State) (ch cl col : Nat) : Bool :=
  let l := clLoc ch cl
  (s.fbit Fld.CL_CAPS_SPARE_USED l && decide (s.fget Fld.CL_CAPS_UNUSED_COL l = col)) ||
    (s.fbit Fld.CL_CAPS_REMAP_PENDING l && decide ((s.clu ch cl).remap = some col))

/-- A tile column classified permanent (Table 22-3): the unused one is marked (R58), another is remapped at the next load, or the
cluster fenced. -/
def columnAction (s : State) (ch cl col code : Nat) : State × Nat :=
  let l := clLoc ch cl
  if clFenced s ch cl || columnGone s ch cl col then (s, 0)
  else if col = s.fget Fld.CL_CAPS_UNUSED_COL l ∧ !s.fbit Fld.CL_CAPS_SPARE_USED l ∧ !s.fbit Fld.CL_CAPS_REMAP_PENDING l then
    (capsChanged ((s.fset Fld.CL_CAPS_SPARE_USED l 0 1).fset Fld.CL_CAPS_UNUSED_COL l 0 8) ch code, 5)
  else if s.fbit Fld.CL_CAPS_SPARE_USED l || s.fbit Fld.CL_CAPS_REMAP_PENDING l then (fenceCluster s ch cl code, 6)
  else (capsChanged ((setRemap s ch cl col).fset Fld.CL_CAPS_REMAP_PENDING l 0 1) ch code, 5)

/-- Fencing unless the cluster is already fenced (R478). -/
def fenceAction (s : State) (ch cl code : Nat) : State × Nat :=
  if clFenced s ch cl then (s, 0) else (fenceCluster s ch cl code, 6)

/-- A repair copy started (R480). -/
def repairStart (s : State) (src ty loc unit : Nat) : State :=
  s.setFc src fun f => { f with repairs := f.repairs ++ [⟨ty, loc, unit⟩] }

/-- Spare blocks used in a depot bank: the field of `CL_DEPSPARE`. -/
def depSpares (s : State) (ch cl bank : Nat) : Nat := bits (s.regN .CL_DEPSPARE (clLoc ch cl)) (2 * bank) 2

/-- The bank whose spares a location's repair draws on: of HBM the bank of its row, else the unit itself (R480). -/
def spareBank (s : State) (src ty unit loc : Nat) : Nat := if ty = 7 then (hbmRowOf s src unit loc).1 else 0

def spareKey (s : State) (src ty unit loc : Nat) : Nat := bucketKey ty 127 unit + spareBank s src ty unit loc * 2 ^ 64

/-- Repairs already running for a unit, of HBM in the bank of a location. -/
def repairing (s : State) (src ty unit loc : Nat) : Nat :=
  ((s.fc src).repairs.filter fun r => decide (r.ty = ty ∧ r.unit = unit) &&
    decide (spareBank s src ty unit r.loc = spareBank s src ty unit loc)).length

/-- Spare rows a location's repair may no longer take (R480). -/
def sparesUsed (s : State) (src ty unit loc : Nat) : Nat := SMap.get 0 (s.fc src).spares (spareKey s src ty unit loc)

def channelAction (s : State) (ch code : Nat) : State × Nat :=
  if s.chLive ch then (retireChannel s ch code, 11) else (s, 0)

/-- A unit of the services retired: `SEAL_LIVE`, `EGC_LIVE` or `LC_LIVE` (Table 22-3, R34). -/
def unitAction (s : State) (ch code : Nat) (f : Fld) : State × Nat :=
  if s.fbit f ch then
    let s := s.fset f ch 0 0
    let s := if f = Fld.CH_CAPS_SEAL_LIVE then sealFlush s ch code
      else if f = Fld.CH_CAPS_EGC_LIVE then egcRetired s ch code else lcRetired s ch code
    (unitLeft (capsChanged s ch code) ch, 9)
  else (s, 0)

/-- The action of Table 22-3 and the action code it gives; `unitWide` for a permanent unit. The unit of a depot event is its
bank, of a gateway, steward or tile event its cluster's unit. -/
def takeAction (s : State) (ch ty cl unit loc code : Nat) (unitWide : Bool) : State × Nat :=
  match ty with
  | 0 | 1 | 2 => columnAction s ch cl unit code
  | 3 | 9 | 14 => channelAction s ch code
  | 4 | 6 => fenceAction s ch cl code
  | 5 =>
    if unitWide then fenceAction s ch cl code
    else if clFenced s ch cl then (s, 0)
    else if 3 ≤ depSpares s ch cl unit + repairing s ch 5 (cl * 32 + unit) loc then fenceAction s ch cl code
    else (repairStart s ch 5 loc (cl * 32 + unit), 4)
  | 7 =>
    if (SMap.get [] s.lostLanes ch).contains unit then (s, 0)
    else if unitWide || decide (0 < sparesUsed s ch 7 unit loc + repairing s ch 7 unit loc) then (retirePc s ch unit code, 7)
    else (repairStart s ch 7 loc unit, 4)
  | 8 => if (s.fget Fld.CH_CAPS_SITE_LIVE ch).testBit unit then (retireDie s ch unit code, 10) else (s, 0)
  | 10 => if (SMap.get [] s.goneports ch).contains unit then (s, 0) else (removePort s ch unit code, 8)
  | 11 =>
    if unitWide || decide (8 ≤ sparesUsed s ch 11 unit loc + repairing s ch 11 unit loc) then channelAction s ch code
    else (repairStart s ch 11 loc unit, 4)
  | 12 => unitAction s ch code Fld.CH_CAPS_SEAL_LIVE
  | 13 => unitAction s ch code (if unit = 2 then Fld.CH_CAPS_LC_LIVE else Fld.CH_CAPS_EGC_LIVE)
  | 15 => (s, 13)
  | _ => (s, 0)

/-- An action that is taken whatever `ACT` holds: a second failed column, a hub critical fault (R477). -/
def forced (s : State) (src ty cl : Nat) : Bool :=
  decide (src = 4 ∧ ty = 15) ||
  decide (ty ≤ 2 ∧ src < 4) &&
    (s.fbit Fld.CL_CAPS_SPARE_USED (clLoc src cl) || s.fbit Fld.CL_CAPS_REMAP_PENDING (clLoc src cl))

/-- An armed injection that this event reports has been injected (`CH_FINJ.ARM`; log entry 63). -/
def injDone (s : State) (src ty cl : Nat) : State :=
  if src < 4 ∧ s.fbit Fld.CH_FINJ_ARM src ∧ s.fget Fld.CH_FINJ_TYPE src = ty ∧
      (ty = 7 ∨ ty = 11 ∨ s.fget Fld.CH_FINJ_CLUSTER src = cl) then s.fset Fld.CH_FINJ_ARM src 0 0
  else s

/-- A depot error counted in its cluster (R178). -/
def depotErr (s : State) (e : FaultEv) : State :=
  let l := clLoc e.src e.cluster
  if 4 ≤ e.src.val ∨ 96 ≤ e.cluster.val ∨ e.ty ≠ 5 then s
  else
    let s := s.fset Fld.CL_DEPERR_OFFSET l 0 (bits e.loc.toNat 0 22)
    if e.kind = .corrected then s.fadd Fld.CL_DEPERR_CE l 0 1
    else if e.kind = .persistent then s.fadd Fld.CL_DEPERR_UE l 0 1
    else s

/-- A corrected HBM granule is written back in a write slot of the remote class (R183). -/
def granuleFix (s : State) (e : FaultEv) : State :=
  if 4 ≤ e.src.val ∨ e.ty ≠ 7 ∨ e.kind ≠ .corrected then s
  else
    let g := e.loc.toNat % 2 ^ 44 / 64
    pushReq s e.src { ret := .drop, fn := none, epoch := epochOf s e.src, cl := 96, tga := mkTga (ownPkg s) e.src 0 (64 * g), op := .fix,
                      cls := 2, place := .hbm }

/-- An error event classified, its action taken, its record written and its own effect had (R473 to R479, R492): the class and the
action with the state. -/
def faultCore (s : State) (e : FaultEv) : State × Nat × Nat :=
  let src := e.src.val
  let ty := e.ty.val
  let cl := e.cluster.val
  let code := evCode e.kind
  let sec := if src < 4 ∧ cl < 96 then clSection s src cl else 0
  let s := if 4 ≤ src ∨ s.chLive src then granuleFix (depotErr s e) e else s
  let s := (injDone s src ty cl).setFc src fun f => { f with count := SMap.put f.count ty (SMap.get 0 f.count ty + 1) }
  let (s, ovf, lv) := bucketAdd s src ty cl e.unit (evPoints e.kind)
  let (s, locPerm) := locEvent s src ty e.loc.toNat e.time.toNat e.kind
  let cls := if ovf then clsUnit else if locPerm then clsLocation else clsTransient
  let act := fclsAct (fclsWord s src ty)
  let (s, a) :=
    if cls = clsTransient then (s, evAction e.kind)
    else if src < 4 ∧ !s.chLive src then (s, 0)
    else
      let s := if src < 4 then s.fadd Fld.CH_FSTAT_PERM src 0 1 else s
      if act || forced s src ty cl then
        if src < 4 then takeAction s src ty cl e.unit e.loc.toNat code ovf else (s, if ty = 15 then 13 else 0)
      else (s, 0)
  let critical := decide (src = 4 ∧ e.kind = .persistent ∧ e.place = .hubState)
  let a := if critical then 13 else a
  let s := if 5 ≤ a ∧ a ≤ 10 then persist s a ty src cl (if ty = 12 then 0 else e.unit) e.time.toNat else s
  let s := if 4 ≤ a ∧ cls ≠ clsTransient then pend s Fld.HUB_FAULTPEND_PERM else s
  let s := faultRecord s src e.time.toNat code ty cls a cl e.unit e.loc.toNat lv sec
  let s := if e.kind = .persistent ∧ (4 ≤ src ∨ s.chLive src) then poisonPlace s e.place else s
  (if a = 13 then criticalFault s else s, cls, a)

/-- An error event reaches its controller. A permanent fault of the Seal unit found during WRITE does so when WRITE ends (R344);
one that a retirement of its channel has come before is recorded with `ACTION` 0 (R478, R495). -/
def faultTake (s : State) (e : FaultEv) : State :=
  let src := e.src.val
  if (src < 4 ∧ !s.chLive src ∧ !s.retired src) ∨ s.hub.phase = .keeper then s
  else
    let (t, cls, _) := faultCore s e
    if src < 4 ∧ !s.chLive src then (if cls = clsTransient then s else t)
    else
    if src < 4 ∧ e.ty = 12 ∧ cls ≠ clsTransient ∧ sealInWrite s src then
      s.setSeal src fun u => { u with late := u.late ++ [e] }
    else t

/-- `FAULT_EVENT` (R473 to R479, R492). -/
def execFaultEvent (e : FaultEv) (s : State) : Host.Outcome State Fault Refusal := .next <| faultTake s e

/-- `BUCKET_LEAK` (R474): a leak boundary of a unit's bucket. -/
def execBucketLeak (src : Fin 5) (ty : Fin 16) (cluster : Fin 128) (unit : Nat) (s : State) : Host.Outcome State Fault Refusal := .next <|
  let k := bucketKey ty.val cluster.val unit
  s.setFc src.val fun f => { f with bucket := SMap.put f.bucket k (SMap.get 0 f.bucket k - 1) }

/-- One type's step at the end of a 1 ms window (R476). -/
def stormStep (s : State) (src ty : Nat) : State :=
  let f := s.fc src
  let n := SMap.get 0 f.count ty
  let q := SMap.get 0 f.quiet ty
  let lv := stormOf s src ty
  let setLv := fun (s : State) (v : Nat) =>
    if src < 4 then s.fset Fld.CH_FSTAT_STORM src 0 (putBits (s.fget Fld.CH_FSTAT_STORM src) (2 * ty) 2 v) else s
  let cleared := s.setFc src fun f => { f with count := SMap.put f.count ty 0 }
  if fclsStorm (fclsWord s src ty) < n then
    setLv (cleared.setFc src fun f => { f with quiet := SMap.put f.quiet ty 0 }) (min 3 (lv + 1))
  else if q + 1 < 100 then cleared.setFc src fun f => { f with quiet := SMap.put f.quiet ty (q + 1) }
  else setLv (cleared.setFc src fun f => { f with quiet := SMap.put f.quiet ty 0 }) (lv - 1)

/-- `STORM_WINDOW` (R476). -/
def execStormWindow (src : Fin 5) (s : State) : Host.Outcome State Fault Refusal := .next <| (List.range 16).foldl (fun s ty => stormStep s src.val ty) s

/-- `REPAIR_COPY_DONE` (R480): the oldest running copy of a channel completes and its location goes to the spare. -/
def execRepairCopyDone (ch : Ch) (s : State) : Host.Outcome State Fault Refusal := .next <| inChan s ch fun s =>
  let c := ch.val
  match (s.fc c).repairs with
  | [] => s
  | r :: rest =>
    let s := s.setFc c fun f => { f with repairs := rest, repaired := f.repaired ++ [r.loc] }
    if r.ty = 5 then
      let l := clLoc c (r.unit / 32)
      let w := s.regN .CL_DEPSPARE l
      s.setReg .CL_DEPSPARE l 0 (putBits w (2 * (r.unit % 32)) 2 (bits w (2 * (r.unit % 32)) 2 + 1))
    else
      let k := spareKey s c r.ty r.unit r.loc
      s.setFc c fun f => { f with spares := SMap.put f.spares k (SMap.get 0 f.spares k + 1) }

/-- `HEARTBEAT` (R483, R497): the hub takes note; a retired channel's is ignored. -/
def execHeartbeat (_ch : Ch) (s : State) : Host.Outcome State Fault Refusal := .next <| s

/-- `HEARTBEAT_TIMEOUT` (R483). -/
def execHeartbeatTimeout (ch : Ch) (s : State) : Host.Outcome State Fault Refusal := .next <| inChan s ch fun s =>
  if s.hub.phase = .keeper then s else retireChannel s ch.val cChannelRetired

/-- `PLL_RELOCK_TIMEOUT` (R470, R483): a failed relock retires the channel, whatever `ACT` holds (R477). -/
def execPllRelockTimeout (d : DistId) (s : State) : Host.Outcome State Fault Refusal := .next <| inChan s d.ch fun s =>
  if (s.dist d.ch d.d).pllLost ∧ s.chLive d.ch then
    retireChannel ((faultRecord s d.ch.val s.now (openCode 1) 14 clsUnit 11 127 d.d.val 0 0 0).took)
      d.ch.val cChannelRetired
  else s

/-- `HUB_CRITICAL_FAULT` (R488, R489). -/
def execHubCriticalFault (s : State) : Host.Outcome State Fault Refusal := .next <| criticalFault s

/-- `SYSCLK_LOSS` (R470, R488). -/
def execSysclkLoss (s : State) : Host.Outcome State Fault Refusal := .next <| criticalFault s

/-- `HUB_WATCHDOG_EXPIRY` (R488): the second of two consecutive expiries is a critical fault. -/
def execHubWatchdogExpiry (s : State) : Host.Outcome State Fault Refusal := .next <|
  let s := { s with hub := { s.hub with watchdog := s.hub.watchdog + 1 } }
  if 2 ≤ s.hub.watchdog then criticalFault s else s

/-- `FAULT_N_HOLD_END` (R491). -/
def execFaultNHoldEnd (s : State) : Host.Outcome State Fault Refusal := .next <| faultPin { s with hub := { s.hub with faultHold := false } }

/-- `CH_FINJ_ARM` (R493): arms an injection; one aimed at a fenced cluster, an absent unit or a type that injects nothing is
discarded. -/
def execChFinjArm (r : Requester) (ch : Ch) (s : State) : Host.Outcome State Fault Refusal := .next <|
  rowGate s r (.ch ch) fun s =>
  let c := ch.val
  if maySup s r then
    let ty := s.fget Fld.CH_FINJ_TYPE c
    let cl := s.fget Fld.CH_FINJ_CLUSTER c
    let aimed := decide (ty = 7 ∨ ty = 11) ||
      (decide (ty = 1 ∨ ty = 5 ∨ ty = 6) && decide (cl < 96) && !clFenced s c cl)
    s.fset Fld.CH_FINJ_ARM c 0 (ofBit aimed)
  else s.fset Fld.CH_FSTAT_CODE c 0 cCfgIgnored

/-- `THERMAL_TRIP` (R560): a comparator of a district (1), the hub (2), a gate die (3) or a stack (4). -/
def execThermalTrip (src : Nat) (ch : Ch) (unit : Nat) (s : State) : Host.Outcome State Fault Refusal := .next <|
  if s.hub.thermtripN then s
  else
    let s := (s.fset Fld.HUB_THERMSTAT_TRIP 0 0 1).fset Fld.HUB_THERMSTAT_SRC 0 0 src
    let s := (s.fset Fld.HUB_THERMSTAT_CH 0 0 ch.val).fset Fld.HUB_THERMSTAT_UNIT 0 0 unit
    let s := { s with hub := { s.hub with thermtripN := true } }
    if s.hub.phase = .keeper then report3 s 4 cThermal 13 127 0 0 0
    else keeperEnter s (s.fget Fld.NV_BOOTSTAT_KCAUSE) cThermal 13 false

/-- `SUPPLY_SAMPLE` (R549): rails in range, under and over, bit per rail group of Table 25-1. -/
def execSupplySample (inrange uv ov : Nat) (s : State) : Host.Outcome State Fault Refusal := .next <|
  let s := s.fset Fld.HUB_SUPPLYSTAT_INRANGE 0 0 inrange
  let s := s.fset Fld.HUB_SUPPLYSTAT_UV 0 0 (s.fget Fld.HUB_SUPPLYSTAT_UV ||| uv % 2 ^ 11)
  s.fset Fld.HUB_SUPPLYSTAT_OV 0 0 (s.fget Fld.HUB_SUPPLYSTAT_OV ||| ov % 2 ^ 11)

/-- `XTAL_LOSS` (R556). -/
def execXtalLoss (s : State) : Host.Outcome State Fault Refusal := .next <| s.fset Fld.HUB_SUPPLYSTAT_XTALLOST 0 0 1

end Sys2Proof.Machine
end

