-- ==== Sys2Proof/Machine/Fdl.lean ====
section
/-! DEFINITION. The Fyast Die Link (chapter 19): negotiation, flits and retry, packets and credits, power and test. What an
arriving memory, message or sync packet does stands in `LinkPackets`. -/

namespace Sys2Proof.Machine

def lkPartner (l : LinkId) : LinkId := { l with far := !l.far }

/-- The master end: the hub on hub links, the field die on site links. -/
def lkMaster (l : LinkId) : Bool := if l.n.val = 4 then l.far else !l.far

/-- Link states (`FDL_LINKn_STAT.STATE`). -/
def lDown : Nat := 0
def lTrain : Nat := 1
def lCapx : Nat := 2
def lAgree : Nat := 3
def lUprate : Nat := 4
def lActive : Nat := 5
def lRetrain : Nat := 6
def lL1 : Nat := 7
def lTest : Nat := 8
def lFailed : Nat := 9

def lkState (s : State) (l : LinkId) : Nat := s.fget Fld.FDL_LINKn_STAT_STATE (lkLoc l)
def lkVer (s : State) (l : LinkId) : Nat := s.fget Fld.FDL_LINKn_STAT_VER (lkLoc l)
def lkFeat (s : State) (l : LinkId) : Nat := s.fget Fld.FDL_LINKn_STAT_FEAT (lkLoc l)
def setLkState (s : State) (l : LinkId) (v : Nat) : State := s.fset Fld.FDL_LINKn_STAT_STATE (lkLoc l) 0 v
def lkErr (s : State) (l : LinkId) (c : Nat) : State := s.fset Fld.FDL_LINKn_ERR_CODE (lkLoc l) 0 c

/-! ### Capability records (Table 19-5) -/

def recVers (r : Nat) : Nat := bits r 0 2
def recRole (r : Nat) : Nat := bits r 2 2
def recMods (r : Nat) : Nat := bits r 4 3
def recFeat (r : Nat) : Nat := bits r 16 16
def recMaxtag (r : Nat) : Nat := bits r 32 16
def recCred (r k : Nat) : Nat := bits r (64 + 16 * k) 16
def recDieid (r : Nat) : Nat := bits r 160 32

/-- Feature bits. -/
def ftMem : Nat := 0
def ftMsg : Nat := 1
def ftSync : Nat := 2
def ftFrame : Nat := 3
def ftPwr : Nat := 4
def ftTest : Nat := 5
def ftReg : Nat := 6

/-- This end's record: the one set, or the package's own dies' (log entry 17). -/
def ownRec (s : State) (l : LinkId) : Nat :=
  let o := (s.lk l).own
  if o ≠ 0 then o
  else
    let role := if l.n.val = 4 then (if l.far then 0 else 1) else if l.far then 2 else 1
    let mods := if l.n.val = 4 then 1 else 4
    3 + role * 2 ^ 2 + mods * 2 ^ 4 + 0x7F * 2 ^ 16 + 256 * 2 ^ 32 +
      ((List.range 6).map fun k => 256 * 2 ^ (64 + 16 * k)).sum

/-- Versions an end may offer under `VERMAX` (Table 19-6 check 6). -/
def versUnder (vermax vers : Nat) : Nat :=
  (if 1 ≤ vermax then bits vers 0 1 else 0) + (if 2 ≤ vermax then 2 * bits vers 1 1 else 0)

/-- The record an end offers: no version above its `VERMAX`. -/
def offered (s : State) (l : LinkId) : Nat :=
  let r := ownRec s l
  putBits r 0 2 (versUnder (s.fget Fld.FDL_LINKn_CFG_VERMAX (lkLoc l)) (recVers r))

/-- Reserved fields of a record are 0 and `FLIT` is 0 (Table 19-6 check 2). -/
def recClean (r : Nat) : Bool :=
  decide (bits r 7 1 = 0 ∧ bits r 8 8 = 0 ∧ bits r 23 9 = 0 ∧ bits r 48 16 = 0 ∧ r / 2 ^ 192 = 0)

/-- Features a partner of a role must share (Table 19-6 check 4). -/
def featNeed (hubLink : Bool) (role feat : Nat) : Bool :=
  let has := fun k => feat.testBit k
  if hubLink then has ftMem && has ftMsg && has ftSync && has ftPwr && has ftReg
  else if role = 2 then has ftMem && has ftMsg && has ftSync && has ftFrame && has ftReg
  else has ftReg && (has ftMem || has ftMsg || has ftSync)

/-- The feature a class needs; RSP and MGT need none. -/
def clsFeat (k : Nat) : Option Nat :=
  if k = 0 then some ftMem else if k = 2 then some ftMsg else if k = 3 then some ftSync
  else if k = 5 then some ftFrame else none

/-- Credits meet R403 for the agreed features. -/
def credOk (r feat : Nat) : Bool :=
  (List.range 6).all fun k =>
    match clsFeat k with
    | some f => !feat.testBit f || decide (17 ≤ recCred r k)
    | none => decide (17 ≤ recCred r k)

/-- The agreement checks (R406, Table 19-6): the AGREE word, version in byte 0 and features in bytes 2 and 3. -/
def agreeWord (hubLink : Bool) (vermax mine theirs : Nat) : Option Nat :=
  let v := versUnder vermax (recVers mine) &&& recVers theirs
  let role := recRole theirs
  let f0 := recFeat mine &&& recFeat theirs
  let f := if role = 2 then f0 else putBits f0 ftFrame 1 0
  let roleOk := if hubLink then decide (recRole mine + role = 1) else decide (recRole mine = 1 ∧ 2 ≤ role)
  if v ≠ 0 && recClean mine && recClean theirs && roleOk && featNeed hubLink role f0 && credOk mine f && credOk theirs f &&
      decide (1 ≤ recMaxtag mine ∧ 1 ≤ recMaxtag theirs) then
    some ((if v.testBit 1 then 2 else 1) + f * 2 ^ 16)
  else none

/-! ### Completions and failure -/

/-- A register window access ends with a code and a value; a host's read is answered with it, or with 0 (R6, R412). -/
def regEnd (s : State) (l : LinkId) (host : Option Nat) (code v : Nat) : State :=
  let v := if code = 0 then v else 0
  let s := s.setLk l fun e => { e with regResult := (code, v) }
  let s := if code = 0 then s else lkErr s l code
  match host with
  | some n => hostOut s (.reply (leBytes n v) false)
  | none => s

/-- Outstanding requests that pass a test end with `LINK_DOWN`. -/
def endOutst (s : State) (l : LinkId) (p : FOut → Bool) : State :=
  let gone := (s.lk l).outst.filter p
  let s := s.setLk l fun e => { e with outst := e.outst.filter fun o => !p o }
  gone.foldl (fun s o => regEnd s l o.host cLinkDown 0) s

/-- Every request outstanding over a link completes with `LINK_DOWN` (R400, R416). -/
def dropOutst (s : State) (l : LinkId) : State := endOutst s l fun _ => true

/-- The packet of a request still waits at this end. -/
def FdlEnd.holds (e : FdlEnd) (o : FOut) : Bool := e.txq.any fun p => decide (p.tag = o.tag ∧ p.ptype = o.ptype)

/-- The requests that have left this end complete with `LINK_DOWN`; those whose packets still wait are held (R400). -/
def dropSent (s : State) (l : LinkId) : State := endOutst s l fun o => !(s.lk l).holds o

/-- Requests that the partner has issued over the link answer nobody: it has ended them (R400, R416; log entry 76). -/
def dropInbound (s : State) (l : LinkId) : State :=
  if l.far then s
  else s.setChan l.ch fun k =>
    { k with
      reqs := k.reqs.map fun r => match r.ret with
        | .fdl n _ => if n = l.n.val then { r with ret := .drop } else r
        | _ => r
      waiters := k.waiters.filter fun w => match w.who with | .fdl n _ => decide (n ≠ l.n.val) | _ => true }

/-- A request of the partner is being carried out. -/
def inboundLeft (s : State) (l : LinkId) : Bool :=
  !l.far && ((s.chan l.ch).reqs.any (fun r => match r.ret with | .fdl n _ => decide (n = l.n.val) | _ => false) ||
    (s.chan l.ch).waiters.any fun w => match w.who with | .fdl n _ => decide (n = l.n.val) | _ => false)

/-- Queues and sequence state of an end as after its die's reset; the record offered and the configuration stay. -/
def freshEnd (e : FdlEnd) : FdlEnd :=
  { own := e.own, func := e.func, l1idle := e.l1idle, image := e.image, notes := e.notes, up := e.up, regResult := e.regResult }

/-- The hub's mirror shows a channel's capabilities as bring-up leaves them (R415). -/
def showCaps (s : State) (c : Nat) : State := s.setReg .HUB_CHCAPSn 0 c (s.regN .CH_CAPS c)

/-- A link that fails (R415, R416): at bring-up the unit is shown absent, while running it is retired. -/
def linkFailed (s : State) (l : LinkId) (code : Nat) (bringup : Bool) : State :=
  let s := dropInbound (dropInbound (dropOutst s l) l) (lkPartner l)
  let s := (setLkState s l lFailed).fset Fld.FDL_LINKn_STAT_CODE (lkLoc l) 0 code
  let s := setLkState s (lkPartner l) lFailed
  let c := l.ch.val
  if bringup then
    let s := report3 s 4 code 0 127 l.n.val 0 0
    if l.n.val = 4 then
      s.fset Fld.HUB_CAPS_CH_LIVE 0 0 (putBits (s.fget Fld.HUB_CAPS_CH_LIVE) c 1 0)
    else
      let live := s.fget Fld.CH_CAPS_SITE_LIVE c
      if live.testBit l.n.val then
        (s.fset Fld.CH_CAPS_SITE_LIVE c 0 (putBits live l.n.val 1 0)).fset Fld.CH_CAPS_LANES_LIVE c 0
          (s.fget Fld.CH_CAPS_LANES_LIVE c - siteLanes s c l.n.val) |> (showCaps · c)
      else s
  else if l.n.val = 4 then retireChannel s c code
  else if (s.fget Fld.CH_CAPS_SITE_LIVE c).testBit l.n.val then
    let s := persist (report3 s c code 10 127 l.n.val 0 0) 10 8 c 127 l.n.val s.now
    retireDie (pend s Fld.HUB_FAULTPEND_PERM) c l.n.val code
  else s

/-- Both ends of a link back in training, or held down when disabled (Table 19-7); `f` says what an end keeps. -/
def trainWith (f : FdlEnd → FdlEnd) (s : State) (l : LinkId) : State :=
  let up := fun (s : State) (l : LinkId) =>
    let s := dropInbound (dropOutst s l) l
    let s := s.setLk l f
    let loc := lkLoc l
    let on := decide (s.fget Fld.FDL_LINKn_CFG_VERMAX loc ≠ 0)
    let s := (s.fset Fld.FDL_LINKn_STAT_VER loc 0 0).fset Fld.FDL_LINKn_STAT_FEAT loc 0 0
    let s := (s.fset Fld.FDL_LINKn_STAT_DOWNGRADE loc 0 0).fset Fld.FDL_LINKn_STAT_CODE loc 0 0
    let s := s.fset Fld.FDL_LINKn_STAT_ATTEMPT loc 0 (max 1 (s.fget Fld.FDL_LINKn_STAT_ATTEMPT loc))
    setLkState s l (if on then lTrain else lDown)
  up (up s l) (lkPartner l)

/-- A link goes into training (R407). -/
def trainBoth (s : State) (l : LinkId) : State := trainWith freshEnd s l

/-- The attempts of a new bring-up are counted from its first. -/
def attemptsNew (s : State) (l : LinkId) : State :=
  (s.fset Fld.FDL_LINKn_STAT_ATTEMPT (lkLoc l) 0 0).fset Fld.FDL_LINKn_STAT_ATTEMPT (lkLoc (lkPartner l)) 0 0

/-- Bring-up begins again (R407, R418). -/
def bringAgain (f : FdlEnd → FdlEnd) (s : State) (l : LinkId) : State := trainWith f (attemptsNew s l) l

/-- The die that a link leads to: its number in `Hub.released`. -/
def lkDie (l : LinkId) : Nat := l.ch.val * 5 + l.n.val

/-- `DRST_N_DEASSERT` (R395, R407, R415, R507): the die at the end of the link leaves reset once bring-up allows it, in a
returned package after the scrub (Table 23-7). -/
def execDrstNDeassert (l : LinkId) (s : State) : Host.Outcome State Fault Refusal := .next <| outKeeper s fun s =>
  let c := l.ch.val
  let fit := if l.n.val = 4 then s.chLive c
    else s.chLive c && s.hub.ready.contains c &&
      (s.fget Fld.CH_CAPS_SITE_GATE c &&& s.fget Fld.CH_CAPS_SITE_LIVE c).testBit l.n.val
  if s.hub.phase = .run ∧ !s.nv.scrub ∧ fit ∧ lkDie l ∉ s.hub.released then
    trainBoth { s with hub := { s.hub with released := s.hub.released ++ [lkDie l] } } l
  else s

/-- Modules that a link may train with (R394). -/
def modsOk (l : LinkId) (mods : Nat) : Bool := decide (mods = 1) || (decide (l.n.val < 4) && decide (mods = 2 ∨ mods = 4))

/-- `UCIE_TRAINED` (R394, R407). -/
def execUcieTrained (l : LinkId) (mods : Nat) (x8 : Bool) (s : State) : Host.Outcome State Fault Refusal := .next <| outKeeper s fun s =>
  if lkState s l = lTrain ∧ modsOk l mods then
    let loc := lkLoc l
    let s := (s.fset Fld.FDL_LINKn_STAT_MODS loc 0 mods).fset Fld.FDL_LINKn_STAT_X8 loc 0 (ofBit x8)
    setLkState (s.setLk l fun e => { e with ctrlOut := e.ctrlOut ++ [(1, offered s l)] }) l lCapx
  else s

/-- The oldest received control flit, if of a kind. -/
def takeCtrl (s : State) (l : LinkId) (sub : Nat) : Option (Nat × State) :=
  match (s.lk l).ctrlIn with
  | (k, v) :: rest => if k = sub then some (v, s.setLk l fun e => { e with ctrlIn := rest }) else none
  | [] => none

def sendCtrl (s : State) (l : LinkId) (sub v : Nat) : State :=
  s.setLk l fun e => { e with ctrlOut := e.ctrlOut ++ [(sub, v)] }

/-- `CAPX` (R405, R407): the partner's record is noted, and with both records known the link enters `AGREE`. -/
def execCapx (l : LinkId) (s : State) : Host.Outcome State Fault Refusal := .next <| outKeeper s fun s =>
  match takeCtrl s l 1 with
  | none => s
  | some (r, s) =>
    let loc := lkLoc l
    let s := s.setLk l fun e => { e with peer := some r }
    let s := (s.setReg .FDL_LINKn_PCAP loc 0 (bits r 0 64)).setReg .FDL_LINKn_PCRED loc 0 (bits r 64 64)
    let s := (s.setReg .FDL_LINKn_PCRED loc 1 (bits r 128 32)).setReg .FDL_LINKn_PDIE loc 0 (recDieid r)
    let s := s.fset Fld.FDL_LINKn_STAT_PROLE loc 0 (recRole r)
    if lkState s l = lCapx then setLkState s l lAgree else s

/-- `CAPX_REPEAT` (R407). -/
def execCapxRepeat (l : LinkId) (s : State) : Host.Outcome State Fault Refusal := .next <| outKeeper s fun s =>
  if lkState s l = lCapx ∧ (s.lk l).peer.isNone then sendCtrl s l 1 (offered s l) else s

/-- Credits of the partner's record granted in full (R408). -/
def grantCredits (s : State) (l : LinkId) : State :=
  let mine := ownRec s l
  s.setLk l fun e =>
    { e with cred := (List.range 6).map fun k => recCred (e.peer.getD 0) k, given := (List.range 6).map fun k => recCred mine k }

/-- Version and features agreed: `ACTIVE`, or `UPRATE` for FDL-2 (Table 19-7). -/
def agreed (s : State) (l : LinkId) (w : Nat) : State :=
  let loc := lkLoc l
  let v := bits w 0 8
  let s := (s.fset Fld.FDL_LINKn_STAT_VER loc 0 v).fset Fld.FDL_LINKn_STAT_FEAT loc 0 (bits w 16 16)
  let c := l.ch.val
  let s := if lkMaster l ∧ l.n.val < 4 ∧ recRole ((s.lk l).peer.getD 0) = 3 ∧ ¬ (s.lk l).up then
      showCaps (s.fset Fld.CH_CAPS_LANES_LIVE c 0 (s.fget Fld.CH_CAPS_LANES_LIVE c - siteLanes s c l.n.val)) c else s
  let s := s.setLk l fun e => { e with agreeOut := none, up := true }
  setLkState (grantCredits s l) l (if v = 2 then lUprate else lActive)

/-- A failed negotiation: ABORT and `FAILED` (R406). -/
def negotiateFail (s : State) (l : LinkId) : State :=
  linkFailed (lkErr (sendCtrl s l 8 0) l cFdlNegotiate) l cFdlNegotiate (!(s.lk l).up)

/-- `AGREE` (R406): a received AGREE is echoed by the partner, or completes agreement at the master; without one the master
applies the checks and sends its own. -/
def execAgree (l : LinkId) (s : State) : Host.Outcome State Fault Refusal := .next <| outKeeper s fun s =>
  if lkState s l ≠ lAgree then s
  else
    match takeCtrl s l 2 with
    | some (w, s) =>
      if lkMaster l then
        if (s.lk l).agreeOut = some (w % 2 ^ 32) then agreed s l (w % 2 ^ 32) else negotiateFail s l
      else agreed (sendCtrl s l 2 w) l (w % 2 ^ 32)
    | none =>
      match lkMaster l, (s.lk l).agreeOut, (s.lk l).peer with
      | true, none, some r =>
        match agreeWord (decide (l.n.val = 4)) (s.fget Fld.FDL_LINKn_CFG_VERMAX (lkLoc l)) (offered s l) r with
        | some w => sendCtrl (s.setLk l fun e => { e with agreeOut := some w }) l 2 w
        | none => negotiateFail s l
      | _, _, _ => s

/-- `UPRATE_DONE` (R407): training at 32 GT/s succeeds, or the link runs as FDL-1. -/
def execUprateDone (l : LinkId) (ok : Bool) (s : State) : Host.Outcome State Fault Refusal := .next <| outKeeper s fun s =>
  if lkState s l = lUprate then
    let loc := lkLoc l
    let s := if ok then s
      else (s.fset Fld.FDL_LINKn_STAT_VER loc 0 1).fset Fld.FDL_LINKn_STAT_DOWNGRADE loc 0 1
    setLkState s l lActive
  else s

/-- `FDL_STAGE_TIMEOUT` (Table 19-7). -/
def execFdlStageTimeout (l : LinkId) (s : State) : Host.Outcome State Fault Refusal := .next <| outKeeper s fun s =>
  if lkState s l = lTrain ∨ lkState s l = lCapx then
    let loc := lkLoc l
    let n := s.fget Fld.FDL_LINKn_STAT_ATTEMPT loc
    if 3 ≤ n then linkFailed (lkErr s l cFdlNegotiate) l cFdlNegotiate (!(s.lk l).up)
    else
      let p := lkPartner l
      let s := { s with hub := { s.hub with released := s.hub.released.filter (· ≠ lkDie l) } }
      let s := (s.fset Fld.FDL_LINKn_STAT_ATTEMPT loc 0 (n + 1)).fset Fld.FDL_LINKn_STAT_ATTEMPT (lkLoc p) 0 (n + 1)
      setLkState (setLkState s l lDown) p lDown
  else s

/-! ### Packets (Tables 19-3, 19-4) -/

/-- A packet's header slot (Table 19-3). -/
def hdrSlot (p : FPkt) : Nat :=
  p.ptype + p.cls * 2 ^ 8 + p.dslots * 2 ^ 11 + p.tag * 2 ^ 16 + p.code * 2 ^ 32 + p.func * 2 ^ 40 + p.len * 2 ^ 48 +
    ofBit p.last * 2 ^ 58 + ofBit p.busy * 2 ^ 59 + p.op * 2 ^ 60 + p.addr * 2 ^ 64

/-- A packet from its header slot and data slots. -/
def pktOf (h : Nat) (ds : List Nat) : FPkt :=
  { ptype := bits h 0 8, cls := bits h 8 3, dslots := bits h 11 5, tag := bits h 16 16, code := bits h 32 8,
    func := bits h 40 8, len := bits h 48 10, last := bit h 58, busy := bit h 59, op := bits h 60 4,
    addr := bits h 64 64, slots := ds }

/-- Class and feature of a packet type (Table 19-4); none for a reserved type. -/
def ptypeRow (t : Nat) : Option (Nat × Option Nat) :=
  if t = pMrd ∨ t = pMwr then some (0, some ftMem)
  else if t = pRdata ∨ t = pCmpl then some (1, none)
  else if t = pQmsg then some (2, some ftMsg)
  else if t = pFrame then some (5, some ftFrame)
  else if t = pSync then some (3, some ftSync)
  else if t = pReg then some (4, some ftReg)
  else if t = pNote ∨ t = pBoot then some (4, none)
  else none

/-- `LENGTH` and `DSLOTS` lie in the packet's row (Table 19-4). -/
def pktFits (p : FPkt) : Bool :=
  let t := p.ptype
  if t = pMrd then decide (1 ≤ p.len ∧ p.len ≤ 512 ∧ p.dslots = 0)
  else if t = pMwr ∨ t = pFrame then decide (1 ≤ p.len ∧ p.len ≤ 256 ∧ p.dslots = slotsFor p.addr p.len)
  else if t = pRdata then
    decide ((p.len = 0 ∧ p.dslots = 0) ∨ (1 ≤ p.len ∧ p.len ≤ 256 ∧ p.dslots = slotsFor p.addr p.len))
  else if t = pCmpl then decide (p.dslots = 0)
  else if t = pQmsg then decide (8 ≤ p.len ∧ p.len ≤ 64 ∧ p.dslots = (p.len + 15) / 16)
  else if t = pSync then decide (p.dslots = 1)
  else if t = pReg then decide (p.dslots = if p.op = 1 ∨ p.op = 2 then 1 else 0)
  else decide (p.dslots ≤ 16)

/-- The slots of a packet freed (R403). -/
def freeSlots (s : State) (l : LinkId) (p : FPkt) : State := freeClass s l p.cls (1 + p.dslots)

/-- A packet of R413 discarded: counted, its credits returned, a request completed with the code. -/
def discardPkt (s : State) (l : LinkId) (p : FPkt) (code : Nat) : State :=
  let s := (freeSlots s l p).fadd Fld.FDL_LINKn_ERR_PKTERR (lkLoc l) 0 1
  if p.ptype = pMrd then sendRdataFail s l p.tag code p.addr
  else if p.ptype = pMwr ∨ p.ptype = pQmsg ∨ p.ptype = pSync ∨ p.ptype = pReg ∨ p.ptype = pBoot then
    sendCmpl s l p.tag code 0 false
  else s

/-- A die of another maker sits at the partner's end. -/
def partnerRole3 (s : State) (l : LinkId) : Bool := decide (recRole ((s.lk l).peer.getD 0) = 3) && (s.lk l).peer.isSome

/-- A packet within its sender's credits: accepted for its row, or discarded (R412, R413). -/
def judgePkt (s : State) (l : LinkId) (p : FPkt) : State :=
  match ptypeRow p.ptype with
  | none => discardPkt s l p cCfgIgnored
  | some (k, ft) =>
    if k ≠ p.cls ∨ !pktFits p then discardPkt s l p cCfgIgnored
    else if (match ft with | some f => !(lkFeat s l).testBit f | none => false) then discardPkt s l p cUnitAbsent
    else if partnerRole3 s l ∧ (p.ptype = pNote ∨ p.ptype = pBoot ∨ p.ptype = pReg) then discardPkt s l p cUnitAbsent
    else s.setLk l fun e => { e with rxq := e.rxq ++ [p] }

/-- A packet received whole; one beyond the credits given takes the link down (R413). -/
def acceptPkt (s : State) (l : LinkId) (p : FPkt) : State :=
  if p.cls < 6 ∧ (s.lk l).given.getD p.cls 0 < 1 + p.dslots then linkFailed (lkErr s l cLinkDown) l cLinkDown false
  else judgePkt (s.setLk l fun e => { e with given := e.given.modify p.cls (· - (1 + p.dslots)) }) l p

/-- Slots of accepted DATA flits made into packets (R397): `part` holds the slots of a packet in reception. -/
def takeSlots (l : LinkId) : List Nat → State → State
  | [], s => s
  | x :: xs, s =>
    let part := (s.lk l).rxPart
    if lkState s l = lFailed then s
    else if part.isEmpty ∧ x = 0 then takeSlots l xs s
    else
      let part := part ++ [x]
      let need := 1 + bits (part.headD 0) 11 5
      if part.length < need then takeSlots l xs (s.setLk l fun e => { e with rxPart := part })
      else
        let s := s.setLk l fun e => { e with rxPart := [] }
        takeSlots l xs (acceptPkt s l (pktOf (part.headD 0) (part.drop 1)))

/-! ### Flits (R396 to R399) -/

/-- A flit's bits: header, slots and the CRC of its version. -/
def flitBits (ver : Nat) (f : FFlit) : Nat :=
  let h := f.ftype + f.sub * 2 ^ 4 + f.seq * 2 ^ 8 + f.ack * 2 ^ 20 + ofBit f.ackv * 2 ^ 32 + f.crcls * 2 ^ 33 +
    f.crcnt * 2 ^ 36 + f.hdrptr * 2 ^ 48
  let body := h + ((f.slots.take 15).zipIdx.map fun p => p.1 % 2 ^ 128 * 2 ^ (96 + 128 * p.2)).sum
  let bs := leBytes 252 body
  body + (if ver = 2 then crc32 bs else crc16 bs) * 2 ^ 2016

/-- A flit's fields. -/
def flitOf (n : Nat) : FFlit :=
  { ftype := bits n 0 4, sub := bits n 4 4, seq := bits n 8 12, ack := bits n 20 12, ackv := bit n 32,
    crcls := bits n 33 3, crcnt := bits n 36 12, hdrptr := bits n 48 4,
    slots := (List.range 15).map fun i => bits n (96 + 128 * i) 128 }

/-- The CRC of a received flit is good (R396). -/
def flitCrcOk (ver n : Nat) : Bool :=
  let bs := leBytes 252 n
  if ver = 2 then decide (bits n 2016 32 = crc32 bs) else decide (bits n 2016 16 = crc16 bs)

/-- The framing in force: FDL-1 until the link is `ACTIVE` as FDL-2 (R407). -/
def framing (s : State) (l : LinkId) : Nat :=
  let st := lkState s l
  if lkVer s l = 2 ∧ (st = lActive ∨ st = lTest ∨ st = lL1) then 2 else 1

/-- A packet that is a request, which holds a tag until its final response (R402). -/
def isReqPkt (t : Nat) : Bool := decide (t = pMrd ∨ t = pMwr ∨ t = pQmsg ∨ t = pSync ∨ t = pReg ∨ t = pBoot)

/-- Packets moved to the slot stream while their class has credit, and requests while the partner has room for them (`MAXTAG`); a
blocked class keeps its order (R402 to R404). -/
def drainTx : List FPkt → List Nat → Nat → List Nat → List FPkt × List Nat × List (Bool × Nat)
  | [], cred, _, _ => ([], cred, [])
  | p :: ps, cred, room, blocked =>
    let need := 1 + p.dslots
    if blocked.contains p.cls || decide (cred.getD p.cls 0 < need) || (isReqPkt p.ptype && decide (room = 0)) then
      let (q, c, sl) := drainTx ps cred room (p.cls :: blocked)
      (p :: q, c, sl)
    else
      let (q, c, sl) := drainTx ps (cred.modify p.cls (· - need)) (if isReqPkt p.ptype then room - 1 else room) blocked
      (q, c, (true, hdrSlot p) :: p.slots.map (fun x => (false, x)) ++ sl)

/-- An end to `RETRAIN`. -/
def endRetrain (s : State) (l : LinkId) : State :=
  setLkState ((s.fadd Fld.FDL_LINKn_ERR_RETRAINS (lkLoc l) 0 1).setLk l fun e => { e with pmWait := false }) l lRetrain

/-- A link to `RETRAIN` (R400): its training takes both ends there (R418). -/
def toRetrain (s : State) (l : LinkId) : State :=
  let s := endRetrain s l
  if lkState s (lkPartner l) = lActive ∨ lkState s (lkPartner l) = lL1 then endRetrain s (lkPartner l) else s

/-- Current ACK fields put into a flit. -/
def withAck (e : FdlEnd) (f : FFlit) : FFlit := { f with ack := (e.rxNext + 4095) % 4096, ackv := e.rxAny }

/-- One PRBS31 bit string: the next 128 bits and the generator after them. -/
def prbsStep (st : Nat) : Nat := (st * 2 + ofBit (bit st 30 != bit st 27)) % 2 ^ 31
def prbs128 : Nat → Nat → Nat × Nat
  | 0, st => (0, st)
  | n + 1, st =>
    let r := prbs128 n (prbsStep st)
    (ofBit (bit st 30) + 2 * r.1, r.2)
def prbsSlots : Nat → Nat → List Nat × Nat
  | 0, st => ([], st)
  | n + 1, st =>
    let x := prbs128 128 st
    let r := prbsSlots n x.2
    (x.1 :: r.1, r.2)

/-- A flit put on the wire. -/
def onWire (s : State) (l : LinkId) (f : FFlit) : State :=
  let b := flitBits (framing s l) f
  s.setLk l fun e => { e with wire := some b }

/-- What the packets that wait at an end become. -/
def drained (e : FdlEnd) : List FPkt × List Nat × List (Bool × Nat) :=
  drainTx e.txq e.cred (recMaxtag (e.peer.getD 0) - (e.outst.filter fun o => !e.holds o).length) []

/-- A DATA flit built and sent; FDL-2 keeps it (R397, R398). -/
def sendData (s : State) (l : LinkId) : State :=
  let e := s.lk l
  let (q, cred, sl) := drained e
  let all := e.txSlots ++ sl
  let now := all.take 15
  let k := (findIdx? (fun o => decide (0 < o)) e.owed).getD 6
  let cnt := if k < 6 then min 4095 (e.owed.getD k 0) else 0
  let f : FFlit := withAck e
    { ftype := 1, seq := e.txSeq, crcls := if k < 6 then k else 0, crcnt := cnt,
      hdrptr := (findIdx? (fun x => x.1) now).getD 15, slots := now.map Prod.snd }
  let keep := decide (lkVer s l = 2)
  let s := s.setLk l fun e =>
    { e with txq := q, cred := cred, txSlots := all.drop 15, txSeq := (e.txSeq + 1) % 4096,
             kept := if keep then e.kept ++ [f] else e.kept,
             owed := if k < 6 then e.owed.modify k (· - cnt) else e.owed,
             given := if k < 6 then e.given.modify k (· + cnt) else e.given }
  onWire s l f

/-- The end has packet slots or credits to send. -/
def hasData (e : FdlEnd) : Bool :=
  !e.txSlots.isEmpty || !(drained e).2.2.isEmpty || e.owed.any fun o => decide (0 < o)

/-- `TEST` is set and no request is outstanding (R410). -/
def testDue (s : State) (l : LinkId) : Bool :=
  s.fbit Fld.FDL_LINKn_CTRL_TEST (lkLoc l) && (lkFeat s l).testBit ftTest && (s.lk l).outst.isEmpty && !inboundLeft s l

/-- `FLIT_TRANSMIT` (R397, R398, R399, R410, R417): control flits first, then a replay, then DATA, else IDLE. -/
def execFlitTransmit (l : LinkId) (s : State) : Host.Outcome State Fault Refusal := .next <| outKeeper s fun s =>
  let st := lkState s l
  let e := s.lk l
  if st = lDown ∨ st = lTrain ∨ st = lUprate ∨ st = lRetrain ∨ (st = lL1 ∧ e.ctrlOut.isEmpty) then s
  else
    match e.ctrlOut with
    | (sub, v) :: rest =>
      onWire (s.setLk l fun e => { e with ctrlOut := rest }) l
        (withAck e { ftype := 3, sub := sub, slots := (List.range 4).map fun i => bits v (128 * i) 128 })
    | [] =>
      if st = lTest then
        if lkMaster l then
          let r := prbsSlots 15 e.prbs
          let f : FFlit := { ftype := 1, seq := e.txSeq, slots := r.1 }
          let b := flitBits (framing s l) f
          s.setLk l fun e =>
            { e with prbs := r.2, txSeq := (e.txSeq + 1) % 4096, testOut := e.testOut ++ [b], wire := some b }
        else
          match e.testOut with
          | b :: rest => s.setLk l fun e => { e with testOut := rest, wire := some b }
          | [] => s
      else if st ≠ lActive then s
      else if testDue s l then
        setLkState (onWire s l (withAck e { ftype := 3, sub := 7, slots := [0, 0, 0, 0] })) l lTest
      else
        match e.resend with
        | some q =>
          match e.kept.find? fun f => decide (f.seq = q) with
          | some f =>
            let more := e.kept.any fun g => decide (g.seq = (q + 1) % 4096)
            onWire (s.setLk l fun e => { e with resend := if more then some ((q + 1) % 4096) else none }) l (withAck e f)
          | none => s.setLk l fun e => { e with resend := none }
        | none =>
          if (lkVer s l = 1 ∨ e.kept.length < 64) ∧ hasData e then sendData s l
          else onWire s l (withAck e { ftype := 2 })

/-- A RETRY sent for the expected `SEQ` (R399, R400). -/
def sendRetry (s : State) (l : LinkId) : State :=
  let e := s.lk l
  let s := lkErr (s.fadd Fld.FDL_LINKn_ERR_REPLAYS (lkLoc l) 0 1) l cLinkRetry
  let s := sendCtrl s l 3 e.rxNext
  let s := s.setLk l fun e => { e with retryPend := true, retries := e.retries + 1 }
  if 3 ≤ e.retries + 1 ∧ lkVer s l = 2 then toRetrain s l else s

/-- Kept flits freed by an acknowledgement (R398). -/
def ackKept (e : FdlEnd) (ack : Nat) : FdlEnd :=
  if e.kept.any fun f => decide (f.seq = ack) then
    { e with kept := (e.kept.dropWhile fun f => decide (f.seq ≠ ack)).drop 1 }
  else e

/-- A DATA flit with a good CRC (R399). -/
def dataFlit (s : State) (l : LinkId) (f : FFlit) : State :=
  let e := s.lk l
  if f.seq = e.rxNext then
    let s := s.setLk l fun e =>
      { e with rxNext := (f.seq + 1) % 4096, rxAny := true, retryPend := false, retries := 0,
               cred := e.cred.modify f.crcls (· + f.crcnt) }
    let slots := if (s.lk l).rxPart.isEmpty then (if f.hdrptr = 15 then [] else f.slots.drop f.hdrptr) else f.slots
    takeSlots l slots s
  else if 2048 ≤ (f.seq + 4096 - e.rxNext) % 4096 then s
  else if e.retryPend then s
  else sendRetry s l

/-- `FLIT_RECEIVE` (R396 to R400, R410); a field die takes an ABORT in any state (R418). -/
def execFlitReceive (l : LinkId) (flit : BitVec 2048) (s : State) : Host.Outcome State Fault Refusal := .next <| outKeeper s fun s =>
  let st := lkState s l
  let n := flit.toNat
  if st = lDown ∨ st = lTrain ∨ st = lRetrain then s
  else if st = lFailed then
    if lkMaster l ∧ l.n.val < 4 ∧ flitCrcOk (framing s l) n ∧ (flitOf n).ftype = 3 ∧ (flitOf n).sub = 8 then
      s.setLk l fun e => { e with ctrlIn := [(8, 0)] }
    else s
  else if st = lTest then
    if lkMaster l then
      match (s.lk l).testOut with
      | b :: rest =>
        let s := s.setLk l fun e => { e with testOut := rest }
        if b = n then s else s.fadd Fld.FDL_LINKn_ERR_TESTERR (lkLoc l) 0 1
      | [] => s
    else s.setLk l fun e => { e with testOut := e.testOut ++ [n] }
  else if !flitCrcOk (framing s l) n then
    let s := s.fadd Fld.FDL_LINKn_ERR_CRCERR (lkLoc l) 0 1
    if st ≠ lActive then s
    else if lkVer s l = 2 then sendRetry s l
    else toRetrain s l
  else
    let f := flitOf n
    let s := if f.ackv then s.setLk l fun e => ackKept e f.ack else s
    if f.ftype = 3 then
      s.setLk l fun e =>
        { e with ctrlIn := e.ctrlIn ++ [(f.sub, ((f.slots.take 4).zipIdx.map fun p => p.1 * 2 ^ (128 * p.2)).sum)] }
    else if f.ftype = 1 ∧ st = lActive then dataFlit s l f
    else s

/-- `RETRY` (R399): resend every kept flit from the named `SEQ`. -/
def execFdlRetry (l : LinkId) (s : State) : Host.Outcome State Fault Refusal := .next <| outKeeper s fun s =>
  match takeCtrl s l 3 with
  | some (v, s) => s.setLk l fun e => { e with resend := some (v % 4096) }
  | none => s

/-- `ACK_TIMEOUT` (R400). -/
def execAckTimeout (l : LinkId) (s : State) : Host.Outcome State Fault Refusal := .next <| outKeeper s fun s =>
  if lkState s l = lActive ∧ lkVer s l = 2 ∧ !(s.lk l).kept.isEmpty then toRetrain s l else s

/-- An FDL-1 end starts again after `RETRAIN`: partial packets go, and so do requests and responses whose requester has ended them;
the flits are numbered from 0 again (R400, R408; log entry 76). -/
def plainRestart (e : FdlEnd) : FdlEnd :=
  { e with rxPart := [], txSlots := [], kept := [], resend := none, owed := e.owed.map fun _ => 0, txSeq := 0, rxNext := 0, rxAny := false
           txq := e.txq.filter fun p => decide (p.cls ≠ 1)
           rxq := e.rxq.filter fun p => decide (p.ptype = pFrame ∨ p.ptype = pNote) }

/-- `RETRAIN_DONE` (R400, R407, R408, R414). -/
def execRetrainDone (l : LinkId) (s : State) : Host.Outcome State Fault Refusal := .next <| outKeeper s fun s =>
  if lkState s l = lRetrain then
    let s := setLkState (s.setLk l fun e => { e with dead := [], retries := 0, retryPend := false }) l lActive
    if lkVer s l = 2 then s.setLk l fun e => { e with resend := e.kept.head?.map (·.seq) }
    else
      let s := dropInbound (dropSent s l) l
      grantCredits (s.setLk l plainRestart) l
  else s

/-- `RETRAIN_TIMEOUT` (R407, R416). -/
def execRetrainTimeout (l : LinkId) (s : State) : Host.Outcome State Fault Refusal := .next <| outKeeper s fun s =>
  if lkState s l = lRetrain then linkFailed (lkErr s l cLinkDown) l cLinkDown false else s

/-! ### Power and test (R409, R410) -/

/-- Nothing waits to be sent at an end. -/
def lkIdle (e : FdlEnd) : Bool := e.txq.isEmpty && e.txSlots.isEmpty && e.ctrlOut.isEmpty

/-- `L1_IDLE_EXPIRY`. -/
def execL1IdleExpiry (l : LinkId) (s : State) : Host.Outcome State Fault Refusal := .next <| outKeeper s fun s =>
  let e := s.lk l
  if lkState s l = lActive ∧ (lkFeat s l).testBit ftPwr ∧ e.l1idle ≠ 0 ∧ lkIdle e then
    (sendCtrl s l 4 0).setLk l fun e => { e with pmWait := true }
  else s

/-- `PMREQ`: answered with PMACK or PMNAK. -/
def execPmreq (l : LinkId) (s : State) : Host.Outcome State Fault Refusal := .next <| outKeeper s fun s =>
  match takeCtrl s l 4 with
  | none => s
  | some (_, s) =>
    let e := s.lk l
    if lkState s l = lActive ∧ (lkFeat s l).testBit ftPwr ∧ e.l1idle ≠ 0 ∧ e.kept.isEmpty ∧ lkIdle e ∧ e.resend.isNone ∧ !e.retryPend then setLkState (sendCtrl s l 5 0) l lL1
    else sendCtrl s l 6 0

/-- `PMACK`. -/
def execPmack (l : LinkId) (s : State) : Host.Outcome State Fault Refusal := .next <| outKeeper s fun s =>
  match takeCtrl s l 5 with
  | some (_, s) =>
    let t := s.setLk l fun e => { e with pmWait := false }
    if (s.lk l).pmWait ∧ lkState s l = lActive then setLkState t l lL1 else t
  | none => s

/-- `PMNAK`. -/
def execPmnak (l : LinkId) (s : State) : Host.Outcome State Fault Refusal := .next <| outKeeper s fun s =>
  match takeCtrl s l 6 with
  | some (_, s) => s.setLk l fun e => { e with pmWait := false }
  | none => s

/-- `L1_EXIT` (Table 19-7). -/
def execL1Exit (l : LinkId) (ok : Bool) (s : State) : Host.Outcome State Fault Refusal := .next <| outKeeper s fun s =>
  if lkState s l = lL1 then (if ok then setLkState s l lActive else toRetrain s l) else s

/-- `TESTREQ`: the partner enters test mode. -/
def execTestreq (l : LinkId) (s : State) : Host.Outcome State Fault Refusal := .next <| outKeeper s fun s =>
  match takeCtrl s l 7 with
  | some (_, s) => if lkState s l = lActive ∧ (lkFeat s l).testBit ftTest then setLkState s l lTest else s
  | none => s

/-- `ABORT` (R406, R418): the field die takes a site link `DOWN` and brings it up again; any other end has gone to `FAILED` with its
master. -/
def execFdlAbort (l : LinkId) (s : State) : Host.Outcome State Fault Refusal := .next <| outKeeper s fun s =>
  match takeCtrl s l 8 with
  | some (_, s) => if lkMaster l ∧ l.n.val < 4 then bringAgain freshEnd s l else s
  | none => s

/-! ### Register commands -/

/-- A link register command discarded for its writer (chapter 19, *Registers*). -/
def lkGuard (r : Requester) (l : LinkId) (s : State) (f : State → State) : State :=
  if maySup s r then f s else lkErr s l cCfgIgnored

/-- `FDL_LINK_CTRL_RENEG` (R407). -/
def execFdlLinkCtrlReneg (r : Requester) (l : LinkId) (s : State) : Host.Outcome State Fault Refusal := .next <|
  rowGate s r (.fdl l) fun s =>
  lkGuard r l s fun s => bringAgain freshEnd s l

/-- `FDL_LINK_CTRL_RETRAIN`. -/
def execFdlLinkCtrlRetrain (r : Requester) (l : LinkId) (s : State) : Host.Outcome State Fault Refusal := .next <|
  rowGate s r (.fdl l) fun s =>
  lkGuard r l s fun s => if lkState s l = lActive then toRetrain s l else s

/-- `FDL_LINK_CTRL_TEST` (R407, R410): clearing it brings the link up again, with the packets that wait held. -/
def execFdlLinkCtrlTest (r : Requester) (l : LinkId) (on : Bool) (s : State) : Host.Outcome State Fault Refusal := .next <|
  rowGate s r (.fdl l) fun s =>
  lkGuard r l s fun s =>
    let s := s.fset Fld.FDL_LINKn_CTRL_TEST (lkLoc l) 0 (ofBit on)
    if on then
      if lkState s l = lActive ∧ testDue s l then
        setLkState (sendCtrl s l 7 0) l lTest
      else s
    else if lkState s l = lTest then bringAgain (fun e => { freshEnd e with txq := e.txq, rxq := e.rxq }) s l
    else s

/-- `FDL_LINK_CFG_COMMIT` (R411). -/
def execFdlLinkCfgCommit (r : Requester) (l : LinkId) (s : State) : Host.Outcome State Fault Refusal := .next <|
  rowGate s r (.fdl l) fun s =>
  lkGuard r l s fun s =>
    s.setLk l fun e =>
      { e with func := s.fget Fld.FDL_LINKn_CFG_FUNC (lkLoc l), l1idle := s.fget Fld.FDL_LINKn_CFG_L1IDLE (lkLoc l) }

/-- A tag not in use (R402, R414). -/
def freshTag (e : FdlEnd) : Nat :=
  (((List.range 4096).map fun i => 1 + (e.nextTag + i) % 4096).find? fun t =>
    !(e.outst.any fun o => decide (o.tag = t)) && !e.dead.contains t).getD 1

/-- A REG request to the partner (R412). -/
def regAsk (s : State) (l : LinkId) (off : Nat) (write : Bool) (n v : Nat) (host : Option Nat) : State :=
  let t := freshTag (s.lk l)
  let op := if write then (if n = 8 then 2 else 1) else if n = 8 then 3 else 0
  let s := s.setLk l fun e =>
    { e with nextTag := t, outst := e.outst ++ [{ tag := t, ptype := pReg, read := !write, addr := off, host := host }] }
  sendPkt s l { ptype := pReg, cls := 4, tag := t, op := op, addr := off, dslots := ofBit write, slots := if write then [v] else [] }

/-- `FDL_REG_WINDOW_ACCESS` (R412, R6): a REG request to the partner; its outcome arrives in the CMPL. -/
def execFdlRegWindowAccess (r : Requester) (l : LinkId) (off : Nat) (write : Bool) (n : Nat) (v : Word) (s : State) : Host.Outcome State Fault Refusal := .next <|
  match r, reaches s r (.fdl l) with
  | .fn f, false => barRefused (dropHalf s r) f
  | _, false => dropHalf s r
  | _, true =>
    rowGate s r (.fdl l) fun s =>
    let host := match r with | .fn _ => if write then none else some n | _ => none
    if 4 ≤ l.n.val ∨ ¬ (n = 4 ∨ n = 8) ∨ off % n ≠ 0 ∨ 0x1000 ≤ off then regEnd s l host cCfgIgnored 0
    else if lkState s l < lActive ∨ lTest < lkState s l then regEnd s l host cLinkDown 0
    else if !(lkFeat s l).testBit ftReg then regEnd s l host cUnitAbsent 0
    else regAsk s l off write n v.toNat host

/-- The oldest received packet of a class, if of a type: the state without it, its slots freed but where it keeps them until its
request has ended. -/
def takePkt (s : State) (l : LinkId) (t : Nat) : Option (FPkt × State) :=
  let k := ((ptypeRow t).map Prod.fst).getD 0
  match (s.lk l).rxq.find? fun p => decide (p.cls = k) with
  | some p =>
    if p.ptype = t ∧ s.hub.phase ≠ .keeper then
      let s := s.setLk l fun e => { e with rxq := e.rxq.erase p }
      some (p, if holdsSlots t then s else freeSlots s l p)
    else none
  | none => none

/-- A response whose tag names nothing (R413, R414). -/
def strayResp (s : State) (l : LinkId) (tag : Nat) : State :=
  if (s.lk l).dead.contains tag then s.fadd Fld.FDL_LINKn_ERR_PKTERR (lkLoc l) 0 1
  else linkFailed (lkErr s l cLinkDown) l cLinkDown false

/-- `FDL_CMPL` (R402, R412): a completion ends its request. -/
def execFdlCmpl (l : LinkId) (s : State) : Host.Outcome State Fault Refusal := .next <| outKeeper s fun s =>
  match takePkt s l pCmpl with
  | none => s
  | some (p, s) =>
    match (s.lk l).outst.find? fun o => decide (o.tag = p.tag) with
    | none => strayResp s l p.tag
    | some o =>
      let s := s.setLk l fun e => { e with outst := e.outst.filter fun x => !decide (x.tag = p.tag) }
      if o.ptype = pReg then regEnd s l o.host (wireCode p.code) (if o.read then p.addr else 0) else s

/-- `FDL_RDATA` (R402): data of a read, complete at its last packet. -/
def execFdlRdata (l : LinkId) (s : State) : Host.Outcome State Fault Refusal := .next <| outKeeper s fun s =>
  match takePkt s l pRdata with
  | none => s
  | some (p, s) =>
    match (s.lk l).outst.find? fun o => decide (o.tag = p.tag ∧ o.ptype = pMrd) with
    | none => strayResp s l p.tag
    | some _ =>
      s.setLk l fun e =>
        { e with outst := if p.last then e.outst.filter fun x => !decide (x.tag = p.tag)
                          else e.outst.map fun x =>
                            if x.tag = p.tag then { x with data := x.data ++ (pktBytes p).map BitVec.toNat } else x }

/-- A request that a flow homed on a gate die has brought, known at the die by its operation identifier, gets no answer in time: it is
answered with `LINK_DOWN`, whatever becomes of it (R434, R435). -/
def dieTimeout (s : State) (l : LinkId) (tag : Nat) : State :=
  let ch := l.ch.val
  let hit (r : Req) : Bool := match r.ret with
    | .flow n _ op => decide (op = tag) && decide ((s.flow ch n).home = l.n.val)
    | _ => false
  match (s.chan ch).reqs.find? hit with
  | some r => match r.ret with
    | .flow n _ op => flowReply (setReq s ch r.no fun r => { r with ret := .drop }) ch n op r cLinkDown []
    | _ => s
  | none => s

/-- `FDL_REQUEST_TIMEOUT` (R414, R434). -/
def execFdlRequestTimeout (l : LinkId) (tag : Nat) (s : State) : Host.Outcome State Fault Refusal := .next <| outKeeper s fun s =>
  match (s.lk l).outst.find? fun o => decide (o.tag = tag) with
  | some o =>
    regEnd (s.setLk l fun e => { e with outst := e.outst.filter (fun x => !decide (x.tag = tag)), dead := e.dead ++ [tag] }) l o.host cLinkDown 0
  | none => if l.far ∧ l.n.val < 4 then dieTimeout s l tag else s

/-- `NOTE` (R402, Table 19-9): a notice between Vilind dies; at the hub, the field die's readiness. -/
def execFdlNote (l : LinkId) (s : State) : Host.Outcome State Fault Refusal := .next <| outKeeper s fun s =>
  match takePkt s l pNote with
  | none => s
  | some (p, s) =>
    let s := s.setLk l fun e => { e with notes := e.notes ++ [p.addr] }
    if l.n.val = 4 ∧ l.far ∧ l.ch.val ∉ s.hub.ready then
      { s with hub := { s.hub with ready := s.hub.ready ++ [l.ch.val] } }
    else s

/-- `BOOT` (R402, R507): image bytes for a die, answered with a completion. -/
def execBoot (l : LinkId) (s : State) : Host.Outcome State Fault Refusal := .next <| outKeeper s fun s =>
  match takePkt s l pBoot with
  | none => s
  | some (p, s) =>
    let s := s.setLk l fun e => { e with image := e.image ++ (p.slots.map fun x => leBytes 16 x).flatten }
    sendCmpl s l p.tag cNone 0 false

/-- `FDL_LINKn_CREDIT` as it reads: ten bits per class, saturating. -/
def lkCredit (s : State) (l : LinkId) : Nat :=
  ((s.lk l).cred.zipIdx.map fun p => min 1023 p.1 * 2 ^ (10 * p.2)).sum

end Sys2Proof.Machine
end

