-- ==== Sys2Proof/Machine/Ctl.lean ====
section
/-! DEFINITION. Control space (Table 8-3) and the record of an access to it that R6 refuses. -/

namespace Sys2Proof.Machine

/-- The block and offset that a control-space offset of a channel names (Table 8-3). -/
def ctlAddr (ch : Ch) (o : Nat) : Option RegAddr :=
  if o < 0x10000 then some ⟨.ch ch, o⟩
  else if o < 0x16000 then some ⟨.dst ⟨ch, Fin.ofNat 6 ((o - 0x10000) / 0x1000)⟩, o % 0x1000⟩
  else if 0x20000 ≤ o ∧ o < 0x30000 then some ⟨.seal ch, o - 0x20000⟩
  else if 0x30000 ≤ o ∧ o < 0x40000 then some ⟨.ct ch, o - 0x30000⟩
  else if 0x40000 ≤ o ∧ o < 0x4A000 then some ⟨.fdl ⟨ch, Fin.ofNat 5 ((o - 0x40000) / 0x2000), false⟩, o % 0x2000⟩
  else if 0x1000000 ≤ o ∧ o < 0x4000000 then
    let c : Cl := ⟨ch, Fin.ofNat 96 ((o - 0x1000000) / 0x80000)⟩
    let k := o % 0x80000
    if k < 0x10000 then some ⟨.cl c, k⟩
    else if 0x40000 ≤ k then some ⟨.tl ⟨c, Fin.ofNat 64 ((k - 0x40000) / 0x1000)⟩, k % 0x1000⟩
    else none
  else none

/-- An access that R6 refuses, recorded in the owning block's status. -/
def badAccess (s : State) (r : Requester) (a : RegAddr) : State :=
  match a.blk with
  | .hub | .fn _ => hostErr s cCfgIgnored (reqFunc r) a.off
  | .ch c => memErr s c cCfgIgnored (mkTga (ownPkg s) c 3 a.off)
  | .dst d => s.fset Fld.DST_STALLSTAT_CODE (dstLoc d.ch d.d) 0 cCfgIgnored
  | .cl c => qErr s c.ch c.cl 0 0 cCfgIgnored
  | .tl t => s.fset Fld.TL_STATUS_CODE (tlLoc t.c.ch t.c.cl t.t) 0 cCfgIgnored
  | .seal c => s.record Fld.SEAL_ERR_CODE Fld.SEAL_ERR_COUNT c cCfgIgnored
  | .fdl l => lkErr s l cCfgIgnored
  | .ct c => ctErr s c cCfgIgnored 0 a.off

/-- An access to control space that names no register by its offset and width: recorded where it falls (R6, R172). -/
def ctlRefused (s : State) (r : Requester) (a : Nat) : State :=
  match ctlAddr (Fin.ofNat 4 (tgaCh a)) (tgaOff a) with
  | some x => badAccess s r x
  | none => memErr s (tgaCh a) cCfgIgnored a

end Sys2Proof.Machine
end

