-- ==== Sys2Proof/Machine/Egc.lean ====
section
/-! DEFINITION. Decoding of one block of an EGC stream (R185 to R188). -/

namespace Sys2Proof.Machine

/-! A block header (Table 8-5). -/

def egcMode (h : Nat) : Nat := bits h 0 2
/-- Decoded length in bytes. -/
def egcLen (h : Nat) : Nat := 64 * bits h 2 7
def egcElen (h : Nat) : Nat := bits h 9 13
def egcFill (h : Nat) : Nat := bits h 24 8
def egcCrc (h : Nat) : Nat := bits h 32 32

/-- The header names a block that may be decoded (R185, R186, R188); `last` tells that it ends the stream. -/
def egcHdrOk (h : Nat) (last : Bool) : Bool :=
  let d := egcLen h
  let e := egcElen h
  decide (egcMode h ≠ 3) && decide (bits h 22 2 = 0) && decide (512 ≤ d ∧ d ≤ 4096) && (last || decide (d = 4096)) &&
    decide (e ≤ d) &&
    (if egcMode h = 0 then decide (e = d ∧ egcFill h = 0)
     else if egcMode h = 2 then decide (e = 0)
     else decide (8 + d / 2 ≤ e ∧ egcFill h = 0))

/-- First canonical code of each length 1 to 15 (RFC 1951, section 3.2.2). -/
def huffFirst (lens : List Nat) : Nat → Nat
  | 0 => 0
  | n + 1 => 2 * (huffFirst lens n + (if n = 0 then 0 else lens.count n))

/-- Length and code of each symbol, none for an unused one. -/
def huffCodes (lens : List Nat) : List (Option (Nat × Nat)) :=
  (List.range 16).map fun i =>
    match lens.getD i 0 with
    | 0 => none
    | l => some (l, huffFirst lens l + (lens.take i).count l)

/-- The lengths give a used symbol and no Kraft sum above 1. -/
def huffOk (lens : List Nat) : Bool :=
  lens.any (fun l => decide (l ≠ 0)) &&
    decide ((lens.map fun l => if l = 0 then 0 else 2 ^ (15 - l)).sum ≤ 2 ^ 15)

/-- Bits of bytes, least significant first. -/
def bitStream (bs : List Byte) : List Bool := (bs.map fun b => (List.range 8).map fun i => b.getLsbD i).flatten

/-- The next symbol: code bits most significant first. -/
def huffSym (codes : List (Option (Nat × Nat))) : Nat → Nat → Nat → List Bool → Option (Nat × List Bool)
  | 0, _, _, _ => none
  | _, _, _, [] => none
  | k + 1, len, code, b :: rest =>
    let len := len + 1
    let code := 2 * code + ofBit b
    let i := codes.findIdx fun c => decide (c = some (len, code))
    if i < 16 then some (i, rest) else huffSym codes k len code rest

/-- `n` symbols, and the bits left. -/
def huffRun (codes : List (Option (Nat × Nat))) : Nat → List Bool → List Nat → Option (List Nat × List Bool)
  | 0, bs, acc => some (acc.reverse, bs)
  | n + 1, bs, acc =>
    match huffSym codes 15 0 0 bs with
    | none => none
    | some (x, rest) => huffRun codes n rest (x :: acc)

/-- The decoded bytes of a payload, before the CRC check (R186). -/
def egcBody (h : Nat) (p : List Byte) : Option (List Byte) :=
  let d := egcLen h
  match egcMode h with
  | 0 => some p
  | 2 => some (List.replicate d (BitVec.ofNat 8 (egcFill h)))
  | _ =>
    let w := leNat (p.take 8)
    let lens := (List.range 16).map fun i => bits w (4 * i) 4
    if !huffOk lens then none
    else
      let low := (p.drop 8).take (d / 2)
      match huffRun (huffCodes lens) d (bitStream (p.drop (8 + d / 2))) [] with
      | none => none
      | some (hi, rest) =>
        if 8 ≤ rest.length then none
        else some ((List.range d).map fun i =>
          BitVec.ofNat 8 (bits ((low.getD (i / 2) 0#8).toNat) (4 * (i % 2)) 4 + 16 * hi.getD i 0))

/-- The decoded bytes of a block, none where it fails. -/
def egcDecode (h : Nat) (p : List Byte) : Option (List Byte) :=
  match egcBody h p with
  | none => none
  | some b => if crc32c b = egcCrc h then some b else none

end Sys2Proof.Machine
end

