-- ==== Sys2Proof/Machine/Tile.lean ====
section
/-! DEFINITION. Craong-T tiles: firing of an instruction (R46 to R50, R64 to R73, R83 to R92, R110, R567) and control of a tile
(R55, R69, R111). -/

namespace Sys2Proof.Machine

/-! ### Operands -/

/-- Lane `i` of 16 bits of a 512-bit value. -/
def laneOf (v : BitVec 512) (i : Nat) : Nat := bits v.toNat (16 * i) 16

/-- Thirty-two lanes packed. -/
def packLanes (w : Nat) (l : List Nat) : Nat :=
  ((List.range l.length).zip l).foldl (fun a p => a + p.2 % 2 ^ 16 * 2 ^ (w * p.1)) 0

def lanesOf (v : BitVec 512) : List Nat := (List.range 32).map (laneOf v)

/-- The first `n` complete tokens of a queue and the queue without them. -/
def headTokens : Nat → List Flit → Option (List (List Flit) × List Flit)
  | 0, q => some ([], q)
  | n + 1, q =>
    match findIdx? Flit.last q with
    | none => none
    | some i => (headTokens n (q.drop (i + 1))).map fun r => (q.take (i + 1) :: r.1, r.2)

/-- Lanes of a token (R65): a flit with `HALF` 0 brings lanes 0 to 15, one with `HALF` 1 lanes 16 to 31. -/
def tokenLanes (t : List Flit) : List Nat :=
  (List.range 32).map fun i =>
    match t.find? fun f => decide (f.half = decide (16 ≤ i)) with
    | some f => bits f.payload.toNat (16 * (i % 16)) 16
    | none => 0

/-- The port a specifier names, and whether it consumes (Table 4-2). -/
def specPort (v : Nat) : Option (Nat × Bool) :=
  if 0x80 ≤ v ∧ v ≤ 0x84 then some (v - 0x80, true)
  else if 0x88 ≤ v ∧ v ≤ 0x8C then some (v - 0x88, false)
  else none

/-- Tokens an operand takes from its port (R64). -/
def Use.tokens : Use → Nat
  | .pair => 2
  | _ => 1

/-- The source operands of an instruction in order (R46 names the first unmet one). -/
def operandsOf (o : TOp) (t : TInstr) : List (Use × Nat) :=
  let sh := o.shape t
  [(sh.a, t.a), (sh.b, t.b)] ++ if o.immFmt then [] else [(sh.c, t.c)]

/-- Tokens needed at a port, and consumed there (R87). -/
def portNeed (ops : List (Use × Nat)) (port : Nat) (onlyConsumed : Bool) : Nat :=
  ops.foldl (fun n o => match specPort o.2 with
    | some (p, k) => if p = port ∧ (k ∨ !onlyConsumed) ∧ o.1 ≠ .none then max n o.1.tokens else n
    | none => n) 0

/-- Ports in the order the operands name them. -/
def portsNamed (ops : List (Use × Nat)) : List Nat :=
  ops.filterMap fun o => if o.1 = .none then none else (specPort o.2).map Prod.fst

/-- A source operand as read: its lanes (16 bits, 32 for a pair), whether poisoned, the takes its tokens and registers carry. -/
structure Opd where
  lanes : List Nat := []
  psn : Bool := false
  marks : List Nat := []
  deriving DecidableEq, Repr

def vreg (t : Tile) (r : Nat) : VReg := SMap.get {} t.vregs r
def preg (t : Tile) (r : Nat) : PReg := SMap.get {} t.pregs r
def srow (t : Tile) (r : Nat) : SRow := SMap.get {} t.rows r

def markList (m : Option (Fin 4)) : List Nat := m.toList.map Fin.val

def joinHalves (lo hi : List Nat) : List Nat := (lo.zip hi).map fun p => p.1 + p.2 * 2 ^ 16

def regOpd (t : Tile) (r : Nat) : Opd :=
  let v := vreg t r
  ⟨lanesOf v.val, v.psn, markList v.mark⟩

def pairOpd (t : Tile) (r : Nat) : Opd :=
  let a := regOpd t r
  let b := regOpd t (r + 1)
  ⟨joinHalves a.lanes b.lanes, a.psn || b.psn, a.marks ++ b.marks⟩

/-- Takes of a token's flits (Table 3-3). -/
def tokenMarks (t : List Flit) : List Nat := (t.filter Flit.spec).map fun f => f.take.toNat

/-- Operand A, B or C (Table 4-2, R64, R65). -/
def readOpd (t : Tile) (ins : TInstr) (o : Use × Nat) : Opd :=
  let (u, v) := o
  match u with
  | .none => {}
  | .pred =>
    let p := preg t v
    ⟨[], p.psn, markList p.mark⟩
  | _ =>
    let pair := decide (u = .pair)
    match specPort v with
    | some (p, _) =>
      match headTokens u.tokens (lst t.tq p) with
      | none => {}
      | some (ts, _) =>
        let l := ts.map tokenLanes
        ⟨if pair then joinHalves (l.getD 0 []) (l.getD 1 []) else l.getD 0 [], ts.any fun k => k.any Flit.poison,
          (ts.map tokenMarks).flatten⟩
    | none =>
      if v < 0x80 then if pair then pairOpd t v else regOpd t v
      else if v = 0x90 then ⟨List.replicate 32 (if pair then ins.imm * 2 ^ 16 else ins.imm), false, []⟩
      else if v = 0x92 then ⟨List.range 32, false, []⟩
      else ⟨List.replicate 32 0, false, []⟩

/-- Lanes that act (R66). -/
def activeLanes (t : Tile) (ins : TInstr) : List Bool :=
  (List.range 32).map fun i => !ins.pen || (bit (preg t ins.preg).val.toNat i != ins.pneg)

/-! ### Scratch -/

/-- Row of a scratch access (R83); `x` is the address operand. -/
def rowOf (ins : TInstr) (x : Opd) : Nat := (bits ins.imm 0 8 + x.lanes.getD 0 0 % 256) % 256

/-- 64-bit words of a row that a load reads (R567). DESIGN CHOICE (log entry 80): `LD` reads all 8, whatever lanes are active. -/
def loadWords (o : TOp) (ins : TInstr) : List Nat :=
  match o with
  | .ldh => rangeFrom (if bit ins.imm 8 then 4 else 0) 4
  | .lde => [bits ins.imm 8 5 / 4]
  | _ => List.range 8

def isLoad (o : TOp) : Bool := decide (o = .ld ∨ o = .ldh ∨ o = .lde)
def isStore (o : TOp) : Bool := decide (o = .st ∨ o = .sth)

/-- What a store writes: 16-bit elements of the row with their values. -/
def storeElems (o : TOp) (ins : TInstr) (act : List Bool) (b : List Nat) : List (Nat × Nat) :=
  if o = .sth then
    let base := if bit ins.imm 8 then 16 else 0
    let src := if ins.mod2 % 2 = 1 then 16 else 0
    (List.range 16).filterMap fun j => if nthB act (src + j) then some (base + j, nthN b (src + j)) else none
  else (List.range 32).filterMap fun i => if nthB act i then some (i, nthN b i) else none

/-- A row after a store (R72, R567). DESIGN CHOICE (log entry 80): a row stored under two takes is poisoned in the 64-bit words written,
no other (R90 does not say which). -/
def storeRow (r : SRow) (es : List (Nat × Nat)) (psn : Bool) (slot : Option (Fin 4)) : SRow :=
  let v := es.foldl (fun v e => putBits v (16 * e.1) 16 e.2) r.val.toNat
  let touched (w : Nat) : Nat := (es.filter fun e => decide (e.1 / 4 = w)).length
  let marks := (List.range 8).map fun w =>
    if touched w = 0 then r.psn.getLsbD w
    else if psn then true
    else if touched w = 4 then false
    else r.psn.getLsbD w
  { val := BitVec.ofNat 512 v
    psn := BitVec.ofNat 8 (((List.range 8).zip marks).foldl (fun a p => a + ofBit p.2 * 2 ^ p.1) 0)
    mark := if es.isEmpty then r.mark else match slot with
      | some k => some k
      | none => if es.length = 32 then none else r.mark }

/-! ### Writing and emitting -/

/-- A register written in some lanes (R49, R66, R72). -/
def writeReg (r : VReg) (l : List (Option Nat)) (psn : Bool) (slot : Option (Fin 4)) : VReg :=
  let whole := l.all Option.isSome
  { val := BitVec.ofNat 512 (packLanes 16 ((List.range 32).map fun i => (l.getD i none).getD (laneOf r.val i)))
    psn := psn || (r.psn && !whole)
    mark := match slot with
      | some k => some k
      | none => if whole then none else r.mark }

def writePred (r : PReg) (l : List (Option Nat)) (psn : Bool) (slot : Option (Fin 4)) : PReg :=
  let whole := l.all Option.isSome
  { val := BitVec.ofNat 32 (((List.range 32).map fun i => ((l.getD i none).getD (bits r.val.toNat i 1)) % 2 * 2 ^ i).sum)
    psn := psn || (r.psn && !whole)
    mark := match slot with
      | some k => some k
      | none => if whole then none else r.mark }

/-- The destination after the instruction. -/
def writeDst (t : Tile) (d : DUse) (dst : Nat) (l : List (Option Nat)) (psn : Bool) (slot : Option (Fin 4)) : Tile :=
  match d with
  | .none => t
  | .vec => { t with vregs := SMap.put t.vregs dst (writeReg (vreg t dst) l psn slot) }
  | .pair =>
    let lo := l.map (Option.map (· % 2 ^ 16))
    let hi := l.map (Option.map (· / 2 ^ 16))
    let t := { t with vregs := SMap.put t.vregs dst (writeReg (vreg t dst) lo psn slot) }
    { t with vregs := SMap.put t.vregs (dst + 1) (writeReg (vreg t (dst + 1)) hi psn slot) }
  | .pred => { t with pregs := SMap.put t.pregs dst (writePred (preg t dst) l psn slot) }

/-- Flits of one vector token (R67). -/
def vectorToken (route : Nat) (psn : Bool) (slot : Option (Fin 4)) (l : List Nat) : List Flit :=
  let f (h : Bool) : Flit :=
    { payload := BitVec.ofNat 256 (packLanes 16 ((List.range 16).map fun j => nthN l (if h then 16 + j else j)))
      route := BitVec.ofNat 8 route, last := h, half := h, take := BitVec.ofNat 2 (slot.elim 0 Fin.val)
      spec := slot.isSome, poison := psn, kind := 0#2 }
  [f false, f true]

/-- A half token (R81, R85). -/
def halfToken (route kind payload : Nat) (psn : Bool) (slot : Option (Fin 4)) : List Flit :=
  [{ payload := BitVec.ofNat 256 payload, route := BitVec.ofNat 8 route, last := true, half := false
     take := BitVec.ofNat 2 (slot.elim 0 Fin.val), spec := slot.isSome, poison := psn, kind := BitVec.ofNat 2 kind }]

/-- The instruction emits a pair (R67, R81). -/
def emitsPair (o : TOp) (ins : TInstr) : Bool :=
  decide ((o.shape ins).d = .pair) || (decide (o = .fwd) && bit ins.mod 0)

/-- Flits the instruction emits (R46 condition 3, R91). -/
def flitsOf (o : TOp) (ins : TInstr) (slot : Option (Fin 4)) : Nat :=
  if !ins.em then 0
  else if o = .sig then (if slot.isSome then 0 else 1)
  else if o = .fwdh then 1
  else if emitsPair o ins then 4 else 2

/-- What the instruction emits, given its lanes and the tile after its write. DESIGN CHOICE (log entry 80): in a narrowing `CVT` the
active lanes that `POS` does not select are emitted as inactive lanes are (R79 does not say). -/
def emission (o : TOp) (ins : TInstr) (t : Tile) (l : List (Option Nat)) (a : List Nat) (act : List Bool) (psn : Bool)
    (slot : Option (Fin 4)) : List Flit :=
  if flitsOf o ins slot = 0 then []
  else if o = .sig then halfToken ins.route 1 (ins.mod2 + ins.imm * 2 ^ 16) psn slot
  else if o = .fwdh then
    let off := if bit ins.mod 0 then 16 else 0
    halfToken ins.route 0 (packLanes 16 ((List.range 16).map fun j => if nthB act (off + j) then nthN a (off + j) else 0)) psn slot
  else
    let old (i : Nat) : Nat :=
      if !ins.wr then 0
      else if emitsPair o ins then nthN (pairOpd t ins.dst).lanes i
      else laneOf (vreg t ins.dst).val i
    let out := (List.range 32).map fun i => (l.getD i none).getD (old i)
    if emitsPair o ins then
      vectorToken ins.route psn slot (out.map (· % 2 ^ 16)) ++ vectorToken ins.route psn slot (out.map (· / 2 ^ 16))
    else vectorToken ins.route psn slot out

/-! ### Firing -/

/-- The tile arrays of a district are clocked: its PLL holds lock and it does not lend (R462, R470). -/
def arrayClock (s : State) (ch c : Nat) : Bool := clocked s ch c && !lending s ch (clDistrict c)

/-- The tile may fire: ready, running, or halted with a step asked for. -/
def tileLive (s : State) (ch c t : Nat) : Bool :=
  let l := tlLoc ch c t
  let st := s.fget Fld.TL_STATUS_STATE l
  arrayClock s ch c && (decide (st = tReady ∨ st = tRun) || (decide (st = tHalted) && (s.tl ch c t).stepping))

/-- The instruction slot at the program counter. -/
def tileWord (s : State) (ch c t : Nat) : Word :=
  let l := tlLoc ch c t
  s.reg .TL_IMEMn l (s.fget Fld.TL_STATUS_PC l)

/-- A cycle in which the tile did not fire (R47). -/
def tileStall (s : State) (ch c t why port : Nat) : State :=
  let l := tlLoc ch c t
  let run := decide (s.fget Fld.TL_STATUS_STATE l = tRun)
  let s := (s.fset Fld.TL_STATUS_STALL l 0 why).fset Fld.TL_STATUS_STALL_PORT l 0 port
  if !run then s
  else if why = 2 then pmCount (s.fadd Fld.TL_BPCNT_BACKPRESSURED l 0 1) ch 0x03 c 1
  else s.fadd Fld.TL_STALLCNT_STALLED l 0 1

/-- Generator state of a lane (R111). -/
def laneRng (t : Tile) (i : Nat) : Nat := ((SMap.get? t.rng i).map BitVec.toNat).getD (rngSeed 0 i)

/-- Every lane's generator advanced. -/
def advanceRng (t : Tile) : Tile :=
  { t with rng := (List.range 32).map fun i => (i, BitVec.ofNat 32 (rngStep16 (laneRng t i))) }

/-- The program counter after the instruction (R71, R74, R88); `lane0` is the counter `LOOP` has written. -/
def nextPc (o : TOp) (ins : TInstr) (t : Tile) (pc lane0 : Nat) : Nat :=
  let p := (preg t ins.a).val.toNat
  let take? := match o with
    | .jmp => true
    | .br => match ins.mod2 with
      | 0 => decide (p ≠ 0)
      | 1 => decide (p = 0)
      | 2 => decide (p = 2 ^ 32 - 1)
      | _ => decide (p ≠ 2 ^ 32 - 1)
    | .loop => decide (lane0 ≠ 0)
    | _ => false
  if o = .end_ then pc else if take? then bits ins.imm 0 8 else (pc + 1) % 256

/-- Everything an instruction reads besides its named sources: its predicate (R49), the accumulator of `MMAC`, the counter of
`LOOP`, the row of a load. DESIGN CHOICE (log entry 80): the old destination lanes that `EM` 1 and `WR` 1 emit for inactive lanes are no
source, so the destination's own poison or take mark does not count as read (R67 does not say). -/
def extraReads (o : TOp) (ins : TInstr) (t : Tile) (row : Nat) : List Opd :=
  let p := preg t ins.preg
  (if ins.pen then [⟨[], p.psn, markList p.mark⟩] else []) ++
  (if o = .mmac then [pairOpd t ins.dst] else []) ++
  (if o = .loop then [regOpd t ins.dst] else []) ++
  (if isLoad o then
    let r := srow t row
    [⟨lanesOf r.val, (loadWords o ins).any fun w => r.psn.getLsbD w, markList r.mark⟩] else [])

/-- The take an instruction fires under (R72, R90): the lowest of those it entered or meets. -/
def takesOf (t : Tile) (os : List Opd) : List Nat :=
  (List.range 4).filter fun k => decide (t.take.map Fin.val = some k) || os.any fun o => o.marks.contains k

/-- The operands of an instruction as read, and everything it reads (R49). -/
def sourcesOf (o : TOp) (ins : TInstr) (t : Tile) : List Opd := (operandsOf o ins).map (readOpd t ins)

def readsOf (o : TOp) (ins : TInstr) (t : Tile) : List Opd :=
  let src := sourcesOf o ins t
  src ++ extraReads o ins t (rowOf ins (src.getD 0 {}))

/-- Takes an instruction fires under (R72). -/
def firesUnder (o : TOp) (ins : TInstr) (t : Tile) : List Nat := takesOf t (readsOf o ins t)

/-- The port whose token is missing first (R46). -/
def missingPort (o : TOp) (ins : TInstr) (t : Tile) : Option Nat :=
  let ops := operandsOf o ins
  (portsNamed ops).find? fun p => (headTokens (portNeed ops p false) (lst t.tq p)).isNone

/-- What an instruction computes from. -/
def aluInput (s : State) (l : Nat) (o : TOp) (ins : TInstr) (t : Tile) : AluIn :=
  let src := sourcesOf o ins t
  { t := ins, md := FMode.ofReg (s.regN .TL_MODE l), act := activeLanes t ins
    a := if isLoad o then lanesOf (srow t (rowOf ins (src.getD 0 {}))).val else (src.getD 0 {}).lanes
    b := (src.getD 1 {}).lanes
    c := (src.getD 2 {}).lanes
    d := (pairOpd t ins.dst).lanes
    draws := (List.range 32).map fun i => laneRng t i % 2 ^ 16
    p := (preg t (if o = .sel then ins.c else ins.a)).val.toNat
    p2 := (preg t ins.b).val.toNat }

/-- The token queues an instruction consumes from: the port, the flits taken and what stays. -/
def eatenBy (o : TOp) (ins : TInstr) (t : Tile) : List (Nat × Nat × List Flit) :=
  (List.range 5).filterMap fun p =>
    match portNeed (operandsOf o ins) p true with
    | 0 => none
    | k => (headTokens k (lst t.tq p)).map fun r => (p, (lst t.tq p).length - r.2.length, r.2)

/-- The tile after the consumption of its tokens and the advance of its generators. -/
def consumed (o : TOp) (ins : TInstr) (md : FMode) (t : Tile) : Tile :=
  let t := (eatenBy o ins t).foldl (fun t e =>
    { t with tq := setLst t.tq e.1 e.2.2, retT := setCnt t.retT e.1 (cnt t.retT e.1 + e.2.1) }) t
  if usesStoch o ins ∧ md.stoch then advanceRng t else t

/-- The tile after its writes. -/
def written (o : TOp) (ins : TInstr) (row : Nat) (x : AluIn) (out : AluOut) (psn : Bool) (slot : Option (Fin 4)) (t : Tile) : Tile :=
  let t := if ins.wr then writeDst t (o.shape ins).d ins.dst out.lanes psn slot else t
  if isStore o then { t with rows := SMap.put t.rows row (storeRow (srow t row) (storeElems o ins x.act x.b) psn slot) } else t

/-- The tile after it has emitted (R67). -/
def emitted (t : Tile) (fl : List Flit) : Tile :=
  if fl.isEmpty then t else { t with rq := setLst t.rq 4 (lst t.rq 4 ++ fl) }

/-- The take slot the tile stands in afterwards (R90). -/
def entered (o : TOp) (ins : TInstr) (t : Tile) : Tile :=
  match o with
  | .tkent => { t with take := some (Fin.ofNat 4 (bits ins.imm 0 2)) }
  | .tklv => { t with take := none }
  | _ => t

/-- A flit among those the instruction reads or takes is of a squashed take. -/
def meetsGone (o : TOp) (ins : TInstr) (t : Tile) : Bool :=
  (portsNamed (operandsOf o ins)).any fun p =>
    match headTokens (portNeed (operandsOf o ins) p false) (lst t.tq p) with
    | some (ts, _) => ts.flatten.any Flit.gone
    | none => false

/-- The tile after an instruction; `gone` marks what it emits for the cluster edge to discard (R60, R89). -/
def firedTile (o : TOp) (ins : TInstr) (x : AluIn) (out : AluOut) (psn : Bool) (slot : Option (Fin 4)) (gone : Bool) (t : Tile) : Tile :=
  let row := rowOf ins ((sourcesOf o ins t).getD 0 {})
  let u := written o ins row x out psn slot (consumed o ins x.md t)
  let fl := (emission o ins u out.lanes x.a x.act psn slot).map fun f => { f with gone := gone }
  { entered o ins (emitted u fl) with
    ended := decide (o = .end_), stepping := false }

/-- The registers of a tile after an instruction; `t` is the tile as it now is. -/
def firedRegs (s : State) (ch c n : Nat) (o : TOp) (ins : TInstr) (t : Tile) (fl : Flags) (bad halt : Bool) : State :=
  let l := tlLoc ch c n
  let pc := s.fget Fld.TL_STATUS_PC l
  let s := s.fset Fld.TL_FLAGS_FLAGS l 0 (s.fget Fld.TL_FLAGS_FLAGS l ||| fl.toNat)
  let s := if bad then s.fset Fld.TL_STATUS_POISON_SEEN l 0 1 else s
  let s := s.fset Fld.TL_STATUS_PC l 0 (nextPc o ins t pc (laneOf (vreg t ins.dst).val 0))
  let s := s.fset Fld.TL_STATUS_STATE l 0 (if halt then tHalted else tRun)
  let s := if halt then s.fset Fld.TL_CTRL_HALT l 0 0 else s
  pmCount (s.fadd Fld.TL_FIRECNT_FIRED l 0 1) ch 0x02 c 1

/-- The instruction at the program counter fires (R46 to R50): `alu` is what it computes in its lanes. -/
def fireWith (s : State) (ch c n : Nat) (o : TOp) (ins : TInstr) (alu : AluIn → AluOut) : State :=
  let l := tlLoc ch c n
  let t := s.tl ch c n
  match missingPort o ins t with
  | some p => tileStall s ch c n 1 p
  | none =>
    let takes := firesUnder o ins t
    let slot : Option (Fin 4) := takes.head?.map (Fin.ofNat 4)
    if room8 t.rq t.retR 4 < flitsOf o ins slot then tileStall s ch c n 2 0
    else
      let two := decide (2 ≤ takes.length)
      let bad := (readsOf o ins t).any Opd.psn
      let x := aluInput s l o ins t
      let out := alu x
      let gone := meetsGone o ins t || slot.any fun k => !takeOpen s ch c k
      let u := firedTile o ins x out (bad || two) slot gone t
      let pc := s.fget Fld.TL_STATUS_PC l
      let s := firedRegs (s.setTl ch c n fun _ => u) ch c n o ins u out.fl bad (decide (o = .end_) || t.stepping)
      let s := if two ∨ (o = .sig ∧ slot.isSome) then takes.foldl (fun s k => deferTile s ch c n pc k) s else s
      districtBusy (if (eatenBy o ins t).isEmpty then s else progress s ch c) ch (clDistrict c)

/-- The tile fires the instruction at its program counter, if that is an `o`. -/
def fireTile (s : State) (t : TileId) (o : TOp) (alu : AluIn → AluOut) : State :=
  let ch := t.c.ch.val
  let c := t.c.cl.val
  let n := t.t.val
  if !tileLive s ch c n then s
  else match tileDecode (tileWord s ch c n) with
    | some (o', ins) => if o' = o then fireWith s ch c n o ins alu else s
    | none => s

/-- An instruction that computes nothing in its lanes. -/
def aluNone (_ : AluIn) : AluOut := ⟨List.replicate 32 none, 0⟩

/-- `LOOP`: lane 0 of the counter, less 1 (R74). -/
def aluLoop (x : AluIn) : AluOut :=
  ⟨(List.range 32).map fun i => if i = 0 then some ((nthN x.d 0 % 2 ^ 16 + 65535) % 2 ^ 16) else none, 0⟩

/-! ### Control of a tile -/

/-- State of a tile. -/
def tileSt (s : State) (t : TileId) : Nat := s.fget Fld.TL_STATUS_STATE (tlLoc t.c.ch t.c.cl t.t)

/-- Guards a write to a tile's block. -/
def tlWrite (s : State) (r : Requester) (t : TileId) (f : Nat → State → State) : State :=
  if mayCl s r t.c.ch t.c.cl then f (tlLoc t.c.ch t.c.cl t.t) s else s

/-- `TL_CTRL_HALT` (R55): the request is pending until the tile halts. DESIGN CHOICE (log entry 80): written to a tile that is `HALTED`,
`RESET` or `FAULTED` it stays pending too, and acts after `RESUME` or release; the spec does not say. -/
def execTlCtrlHalt (r : Requester) (t : TileId) (s : State) : Host.Outcome State Fault Refusal := .next <|
  rowGate s r (.tl t) fun s =>
  tlWrite s r t fun l s => s.fset Fld.TL_CTRL_HALT l 0 1

/-- `TILE_HALT_EFFECT` (R55). -/
def execTileHaltEffect (t : TileId) (s : State) : Host.Outcome State Fault Refusal := .next <|
  let l := tlLoc t.c.ch t.c.cl t.t
  if s.fbit Fld.TL_CTRL_HALT l ∧ (tileSt s t = tReady ∨ tileSt s t = tRun) ∧ arrayClock s t.c.ch t.c.cl then
    ((s.fset Fld.TL_STATUS_STATE l 0 tHalted).fset Fld.TL_CTRL_HALT l 0 0).setTl t.c.ch t.c.cl t.t fun x => { x with ended := false }
  else s

/-- `TL_CTRL_RESUME` (R55, R74): after `END` the tile goes on at the next slot. DESIGN CHOICE (log entry 80): written while a `STEP` is
still pending it is ignored, though the tile shows `HALTED`; the spec does not say. -/
def execTlCtrlResume (r : Requester) (t : TileId) (s : State) : Host.Outcome State Fault Refusal := .next <|
  rowGate s r (.tl t) fun s =>
  tlWrite s r t fun l s =>
    let x := s.tl t.c.ch t.c.cl t.t
    if tileSt s t = tHalted ∧ ¬ x.stepping then
      let s := if x.ended then s.fset Fld.TL_STATUS_PC l 0 ((s.fget Fld.TL_STATUS_PC l + 1) % 256) else s
      (s.fset Fld.TL_STATUS_STATE l 0 tRun).setTl t.c.ch t.c.cl t.t fun x => { x with ended := false }
    else s

/-- `TL_CTRL_STEP` (R55). DESIGN CHOICE (log entry 80): written while a `STEP` is still pending it is ignored. -/
def execTlCtrlStep (r : Requester) (t : TileId) (s : State) : Host.Outcome State Fault Refusal := .next <|
  rowGate s r (.tl t) fun s =>
  tlWrite s r t fun l s =>
    let x := s.tl t.c.ch t.c.cl t.t
    if tileSt s t = tHalted ∧ ¬ x.stepping then
      let s := if x.ended then s.fset Fld.TL_STATUS_PC l 0 ((s.fget Fld.TL_STATUS_PC l + 1) % 256) else s
      s.setTl t.c.ch t.c.cl t.t fun x => { x with ended := false, stepping := true }
    else s

/-- The generators of all lanes set from a seed (R111). -/
def seedTile (t : Tile) (seed : Nat) : Tile :=
  { t with rng := (List.range 32).map fun i => (i, BitVec.ofNat 32 (rngSeed seed i)) }

/-- `TL_RNGSEED_WRITE` (R55, R111): discarded with `CFG_IGNORED` unless the tile is in `RESET` or `HALTED`. -/
def execTlRngseedWrite (r : Requester) (t : TileId) (v : Word) (s : State) : Host.Outcome State Fault Refusal := .next <|
  rowGate s r (.tl t) fun s =>
  tlWrite s r t fun l s =>
    let v := v.toNat % 2 ^ 32
    if tileSt s t = tReset ∨ tileSt s t = tHalted then
      (s.setReg .TL_RNGSEED l 0 v).setTl t.c.ch t.c.cl t.t fun x => seedTile x v
    else s.fset Fld.TL_STATUS_CODE l 0 cCfgIgnored

/-- `TILE_RESERVED_ENCODING` (R69): the tile faults, and the fault controller ends its section. -/
def execTileReservedEncoding (t : TileId) (s : State) : Host.Outcome State Fault Refusal := .next <|
  let l := tlLoc t.c.ch t.c.cl t.t
  if tileLive s t.c.ch t.c.cl t.t && tileReserved (tileWord s t.c.ch t.c.cl t.t) then
    let s := s.setTl t.c.ch t.c.cl t.t fun x => { x with stepping := false }
    abortCluster ((s.fset Fld.TL_STATUS_STATE l 0 tFaulted).fset Fld.TL_STATUS_CODE l 0 cUnitAbsent) t.c.ch t.c.cl cUnitAbsent
  else s

/-! ### The instructions: each fires when the slot at the program counter holds it -/

/-- `NOP` (R74). -/
def execTNop (t : TileId) (s : State) : Host.Outcome State Fault Refusal := .next <| fireTile s t .nop aluNone

/-- `END` (R74). -/
def execTEnd (t : TileId) (s : State) : Host.Outcome State Fault Refusal := .next <| fireTile s t .end_ aluNone

/-- `JMP` (R74). -/
def execTJmp (t : TileId) (s : State) : Host.Outcome State Fault Refusal := .next <| fireTile s t .jmp aluNone

/-- `BR` (R74). -/
def execTBr (t : TileId) (s : State) : Host.Outcome State Fault Refusal := .next <| fireTile s t .br aluNone

/-- `LOOP` (R74, R88). -/
def execTLoop (t : TileId) (s : State) : Host.Outcome State Fault Refusal := .next <| fireTile s t .loop aluLoop

/-- `DROP` (R74). -/
def execTDrop (t : TileId) (s : State) : Host.Outcome State Fault Refusal := .next <| fireTile s t .drop aluNone

/-- `MAC` (R75). -/
def execTMac (t : TileId) (s : State) : Host.Outcome State Fault Refusal := .next <| fireTile s t .mac aluMac

/-- `MACB` (R75). -/
def execTMacb (t : TileId) (s : State) : Host.Outcome State Fault Refusal := .next <| fireTile s t .macb aluMacb

/-- `MUL` (R75). -/
def execTMul (t : TileId) (s : State) : Host.Outcome State Fault Refusal := .next <| fireTile s t .mul aluMul

/-- `ADD` (R75). -/
def execTAdd (t : TileId) (s : State) : Host.Outcome State Fault Refusal := .next <| fireTile s t .add aluAdd

/-- `SUB` (R75). -/
def execTSub (t : TileId) (s : State) : Host.Outcome State Fault Refusal := .next <| fireTile s t .sub aluSub

/-- `MAX` (R75). -/
def execTMax (t : TileId) (s : State) : Host.Outcome State Fault Refusal := .next <| fireTile s t .max aluMax

/-- `MIN` (R75). -/
def execTMin (t : TileId) (s : State) : Host.Outcome State Fault Refusal := .next <| fireTile s t .min aluMin

/-- `MMAC` (R76, R93). -/
def execTMmac (t : TileId) (s : State) : Host.Outcome State Fault Refusal := .next <| fireTile s t .mmac aluMmac

/-- `IMAC` (R76). -/
def execTImac (t : TileId) (s : State) : Host.Outcome State Fault Refusal := .next <| fireTile s t .imac aluImac

/-- `IADD` (R76). -/
def execTIadd (t : TileId) (s : State) : Host.Outcome State Fault Refusal := .next <| fireTile s t .iadd aluIadd

/-- `ISUB` (R76). -/
def execTIsub (t : TileId) (s : State) : Host.Outcome State Fault Refusal := .next <| fireTile s t .isub aluIsub

/-- `IAND` (R76). -/
def execTIand (t : TileId) (s : State) : Host.Outcome State Fault Refusal := .next <| fireTile s t .iand aluIand

/-- `IOR` (R76). -/
def execTIor (t : TileId) (s : State) : Host.Outcome State Fault Refusal := .next <| fireTile s t .ior aluIor

/-- `IXOR` (R76). -/
def execTIxor (t : TileId) (s : State) : Host.Outcome State Fault Refusal := .next <| fireTile s t .ixor aluIxor

/-- `ISHL` (R76). -/
def execTIshl (t : TileId) (s : State) : Host.Outcome State Fault Refusal := .next <| fireTile s t .ishl aluIshl

/-- `ISHR` (R76). -/
def execTIshr (t : TileId) (s : State) : Host.Outcome State Fault Refusal := .next <| fireTile s t .ishr aluIshr

/-- `FMA` (R77). -/
def execTFma (t : TileId) (s : State) : Host.Outcome State Fault Refusal := .next <| fireTile s t .fma aluFma

/-- `FADD` (R77). -/
def execTFadd (t : TileId) (s : State) : Host.Outcome State Fault Refusal := .next <| fireTile s t .fadd aluFadd

/-- `FSUB` (R77). -/
def execTFsub (t : TileId) (s : State) : Host.Outcome State Fault Refusal := .next <| fireTile s t .fsub aluFsub

/-- `FMUL` (R77). -/
def execTFmul (t : TileId) (s : State) : Host.Outcome State Fault Refusal := .next <| fireTile s t .fmul aluFmul

/-- `FMAX` (R77). -/
def execTFmax (t : TileId) (s : State) : Host.Outcome State Fault Refusal := .next <| fireTile s t .fmax aluFmax

/-- `FMIN` (R77). -/
def execTFmin (t : TileId) (s : State) : Host.Outcome State Fault Refusal := .next <| fireTile s t .fmin aluFmin

/-- `FN` (R112, R113). -/
def execTFn (t : TileId) (s : State) : Host.Outcome State Fault Refusal := .next <| fireTile s t .fn aluFn

/-- `CVT` (R79). -/
def execTCvt (t : TileId) (s : State) : Host.Outcome State Fault Refusal := .next <| fireTile s t .cvt aluCvt

/-- `MOV` (R78). -/
def execTMov (t : TileId) (s : State) : Host.Outcome State Fault Refusal := .next <| fireTile s t .mov aluMov

/-- `PERM` (R78). -/
def execTPerm (t : TileId) (s : State) : Host.Outcome State Fault Refusal := .next <| fireTile s t .perm aluPerm

/-- `ROT` (R78). -/
def execTRot (t : TileId) (s : State) : Host.Outcome State Fault Refusal := .next <| fireTile s t .rot aluRot

/-- `BCST` (R78). -/
def execTBcst (t : TileId) (s : State) : Host.Outcome State Fault Refusal := .next <| fireTile s t .bcst aluBcst

/-- `SEL` (R78). -/
def execTSel (t : TileId) (s : State) : Host.Outcome State Fault Refusal := .next <| fireTile s t .sel aluSel

/-- `RSUM` (R80, R108). -/
def execTRsum (t : TileId) (s : State) : Host.Outcome State Fault Refusal := .next <| fireTile s t .rsum aluRsum

/-- `RMAX` (R80). -/
def execTRmax (t : TileId) (s : State) : Host.Outcome State Fault Refusal := .next <| fireTile s t .rmax aluRmax

/-- `RMIN` (R80). -/
def execTRmin (t : TileId) (s : State) : Host.Outcome State Fault Refusal := .next <| fireTile s t .rmin aluRmin

/-- `RAMAX` (R80). -/
def execTRamax (t : TileId) (s : State) : Host.Outcome State Fault Refusal := .next <| fireTile s t .ramax aluRamax

/-- `RBEXP` (R80, R118). -/
def execTRbexp (t : TileId) (s : State) : Host.Outcome State Fault Refusal := .next <| fireTile s t .rbexp aluRbexp

/-- `FWD` (R81). -/
def execTFwd (t : TileId) (s : State) : Host.Outcome State Fault Refusal := .next <| fireTile s t .fwd aluFwd

/-- `FWDH` (R81). -/
def execTFwdh (t : TileId) (s : State) : Host.Outcome State Fault Refusal := .next <| fireTile s t .fwdh aluNone

/-- `PCMP` (R82). -/
def execTPcmp (t : TileId) (s : State) : Host.Outcome State Fault Refusal := .next <| fireTile s t .pcmp aluPcmp

/-- `PLOG` (R82). -/
def execTPlog (t : TileId) (s : State) : Host.Outcome State Fault Refusal := .next <| fireTile s t .plog aluPlog

/-- `PSET` (R82). -/
def execTPset (t : TileId) (s : State) : Host.Outcome State Fault Refusal := .next <| fireTile s t .pset aluPset

/-- `PCLS` (R82). -/
def execTPcls (t : TileId) (s : State) : Host.Outcome State Fault Refusal := .next <| fireTile s t .pcls aluPcls

/-- `LD` (R83, R567). -/
def execTLd (t : TileId) (s : State) : Host.Outcome State Fault Refusal := .next <| fireTile s t .ld aluLd

/-- `LDH` (R83, R567). -/
def execTLdh (t : TileId) (s : State) : Host.Outcome State Fault Refusal := .next <| fireTile s t .ldh aluLdh

/-- `LDE` (R83, R567). -/
def execTLde (t : TileId) (s : State) : Host.Outcome State Fault Refusal := .next <| fireTile s t .lde aluLde

/-- `ST` (R83, R567). -/
def execTSt (t : TileId) (s : State) : Host.Outcome State Fault Refusal := .next <| fireTile s t .st aluNone

/-- `STH` (R83, R567). -/
def execTSth (t : TileId) (s : State) : Host.Outcome State Fault Refusal := .next <| fireTile s t .sth aluNone

/-- `TKENT` (R84, R89). -/
def execTTkent (t : TileId) (s : State) : Host.Outcome State Fault Refusal := .next <| fireTile s t .tkent aluNone

/-- `TKLV` (R84, R89). -/
def execTTklv (t : TileId) (s : State) : Host.Outcome State Fault Refusal := .next <| fireTile s t .tklv aluNone

/-- `SIG` (R84, R85, R91). -/
def execTSig (t : TileId) (s : State) : Host.Outcome State Fault Refusal := .next <| fireTile s t .sig aluNone

end Sys2Proof.Machine
end

