-- ==== Sys2Proof/Machine/Siding.lean ====
section
/-! DEFINITION. Sidings (chapter 12): units, spilled router queues and gateway inputs, the progress monitor's rounds (R262 to
R273). Spillable queues are numbered `5 × tile + port`, then 320 + gateway input. -/

namespace Sys2Proof.Machine

/-- First depot byte of a siding unit (R179, R265). -/
def unitAt (ch c u : Nat) : Nat := depotAt ch c (64 * u)

/-- The unit written for a flit at the tail of a list (Table 12-1). -/
def unitBytes (data tag srcq tile next : Nat) : List Byte :=
  leBytes 64 (data % 2 ^ 384 + tag % 2 ^ 16 * 2 ^ 384 + srcq * 2 ^ 400 + tile * 2 ^ 406 + next * 2 ^ 416)

/-- The tag of a flit (Table 3-3). -/
def flitTag (f : Flit) : Nat :=
  f.route.toNat + ofBit f.last * 2 ^ 8 + ofBit f.half * 2 ^ 9 + f.take.toNat * 2 ^ 10 + ofBit f.spec * 2 ^ 12 +
    ofBit f.poison * 2 ^ 13 + f.kind.toNat * 2 ^ 14

/-- A flit of a payload and a tag. -/
def tagFlit (payload tag : Nat) : Flit :=
  { payload := BitVec.ofNat 256 payload, route := BitVec.ofNat 8 tag, last := bit tag 8, half := bit tag 9,
    take := BitVec.ofNat 2 (bits tag 10 2), spec := bit tag 12, poison := bit tag 13, kind := BitVec.ofNat 2 (bits tag 14 2) }

/-- The flit a unit holds; an uncorrectable word makes it poisoned (R272). -/
def unitFlit (s : State) (ch c u : Nat) : Flit :=
  let d := s.readMem (unitAt ch c u) 64
  let n := dNat d
  let f := tagFlit (bits n 0 256) (bits n 384 16)
  { f with poison := f.poison || anyPsn (d.take 56) }

/-- Units held by the lists of a cluster. -/
def unitsUsed (s : State) (ch c : Nat) : Nat := 16 * (s.clu ch c).siding - (s.clu ch c).freeUnits.length

/-- The head of a router input queue: that of its list while it holds any, else of its storage (R266). -/
def rqHead (s : State) (ch c t port : Nat) : Option Flit :=
  let x := s.tl ch c t
  match lst x.siding port with
  | u :: _ => if x.dead.contains u then none else some (unitFlit s ch c u)
  | [] => (lst x.rq port).head?

/-- Units come back to the free list. -/
def freeUnits (s : State) (ch c : Nat) (us : List Nat) : State :=
  s.setClu ch c fun k => { k with freeUnits := us.foldl (fun l u => insertN u l) k.freeUnits }

/-- The unit that the `NEXT` word of a unit names (Table 12-1). -/
def nextUnit (s : State) (ch c u : Nat) : Nat := dNat (s.readMem (unitAt ch c u + 52) 2)

/-- A list whose head leaves follows the head's `NEXT` word, which an uncorrectable error or a write of the program can spoil. -/
def listAfter (s : State) (ch c u : Nat) (rest : List Nat) : List Nat :=
  match rest with
  | [] => []
  | _ :: more => nextUnit s ch c u :: more

/-- The head of a list has to follow a `NEXT` word that is uncorrectable (R272). -/
def nextBad (s : State) (ch c : Nat) (l : List Nat) : Bool :=
  match l with
  | u :: _ :: _ => s.poisoned (unitAt ch c u + 52)
  | _ => false

/-- A list cannot be extended or followed: the section ends (R269, R272). -/
def sidingOut (s : State) (ch c code : Nat) : State :=
  let s := abortCluster s ch c code
  if code = cSidingExhausted then s.fset Fld.CL_SIDSTAT_EXHAUSTED (clLoc ch c) 0 1 else s

/-- The list of a queue loses its head unit; an empty list returns the queue to normal (R266). -/
def popUnit (s : State) (ch c t port : Nat) : State :=
  match lst (s.tl ch c t).siding port with
  | [] => s
  | u :: rest =>
    if nextBad s ch c (u :: rest) then sidingOut s ch c cEccUncorrected
    else
      let l := listAfter s ch c u rest
      let s := freeUnits s ch c [u]
      s.setTl ch c t fun x =>
        { x with siding := setLst x.siding port l, dead := x.dead.filter (· ≠ u),
                 spilled := if l.isEmpty then x.spilled.filter (· ≠ port) else x.spilled }

/-- The head of a list that the engine discards (R271) leaves no output served or held for it. -/
def dropUnit (s : State) (ch c t port : Nat) : State :=
  popUnit (s.setTl ch c t fun x =>
    { x with served := setLst x.served port [], latched := SMap.erase x.latched port
             lock := x.lock.filter fun p => p.2 ≠ port }) ch c t port

/-- The head of a router input queue has left. -/
def rqPop (s : State) (ch c t port : Nat) : State :=
  let s := s.setTl ch c t fun x => { x with latched := SMap.erase x.latched port }
  if (lst (s.tl ch c t).siding port).isEmpty then
    s.setTl ch c t fun x =>
      { x with rq := setLst x.rq port (lst x.rq port).tail, retR := setCnt x.retR port (cnt x.retR port + 1) }
  else popUnit s ch c t port

/-! ### Gateway inputs -/

/-- Data bytes that a request carries over the mesh: those of its part of a write. -/
def carried (s : State) (ch : Nat) (r : Req) : List DByte :=
  match r.op with
  | .write d => if r.site.isNone then d
    else ((hbmGranules s ch r).map fun g =>
      let lo := max (64 * g) (tgaOff r.tga)
      (d.drop (lo - tgaOff r.tga)).take (min (64 * g + 64) (tgaOff r.tga + d.length) - lo)).flatten
  | .msg h b => dBytes 8 h ++ b
  | .flit _ f => dBytes 32 f.payload.toNat
  | .sync _ n => dBytes 8 n
  | _ => []

/-- Beats of a request on the mesh: 256 bytes each (chapter 3). -/
def beats (s : State) (ch : Nat) (r : Req) : Nat := max 1 (((carried s ch r).length + 255) / 256)

/-- Every unit of the request's beats is in the list. -/
def listed (s : State) (ch : Nat) (r : Req) : Bool := decide (6 * beats s ch r ≤ r.units.length)

/-- Requests in an input queue of a gateway, head first. -/
def meshQueue (s : State) (ch c inp : Nat) : List Req := (s.chan ch).reqs.filter fun r => decide (r.place = .mesh c inp)

/-- Beats that an input queue of a gateway can still take (R44): its list takes none of its 16. -/
def meshRoom (s : State) (ch c inp : Nat) : Nat :=
  16 - ((meshQueue s ch c inp).foldl (fun n r => n + (beats s ch r - r.units.length / 6)) 0 + cnt (s.clu ch c).retM inp)

/-- Units of the list of a spilled gateway input, head first. -/
def gwList (s : State) (ch c inp : Nat) : List Nat := ((meshQueue s ch c inp).map Req.units).flatten

/-- The units of a list as its `NEXT` words give them: the head, then `n` more. -/
def chainOf (s : State) (ch c : Nat) : Nat → Nat → List Nat
  | 0, u => [u]
  | n + 1, u => u :: chainOf s ch c n (nextUnit s ch c u)

/-- The units of the request at the head of a gateway input as they are read back. -/
def headUnits (s : State) (ch c : Nat) (r : Req) : List Nat :=
  match r.units with
  | [] => []
  | u :: rest => chainOf s ch c rest.length u

/-- A `NEXT` word that the head request of a spilled gateway input needs is uncorrectable (R272). -/
def gwBad (s : State) (ch c inp : Nat) (r : Req) : Bool :=
  let us := headUnits s ch c r
  let us := if (gwList s ch c inp).length ≤ us.length then us.dropLast else us
  us.any fun u => s.poisoned (unitAt ch c u + 52)

/-- A request leaves a gateway input: its units are freed and the list goes on at the unit its last one names, or its credits
return. -/
def leaveMesh (s : State) (ch : Nat) (r : Req) (c inp : Nat) : State :=
  if listed s ch r then
    let us := headUnits s ch c r
    let nxt := nextUnit s ch c (us.getLast?.getD 0)
    let s := setReq (freeUnits s ch c us) ch r.no fun r => { r with units := [] }
    match (meshQueue s ch c inp).find? fun q => decide (q.no ≠ r.no) && !q.units.isEmpty with
    | some q => setReq s ch q.no fun q => { q with units := nxt :: q.units.tail }
    | none => s.setClu ch c fun k => { k with gwSpilled := k.gwSpilled.filter (· ≠ inp) }
  else
    let left := beats s ch r - r.units.length / 6
    let s := setReq (freeUnits s ch c r.units) ch r.no fun r => { r with units := [] }
    if inp < 8 then s.setClu ch c fun k => { k with retM := setCnt k.retM inp (cnt k.retM inp + left) }
    else s

/-- A request that is about to end leaves the gateway input that holds it. -/
def quitMesh (s : State) (ch : Nat) (r : Req) : State :=
  match r.place with
  | .mesh c inp => leaveMesh s ch r c inp
  | _ => s

/-- A request moves behind every other of its channel, to a place. -/
def moveReq (s : State) (ch no : Nat) (p : Place) : State :=
  s.setChan ch fun k =>
    { k with reqs := (k.reqs.filter fun r => r.no ≠ no) ++
        ((k.reqs.filter fun r => decide (r.no = no)).map fun r => { r with place := p }) }

/-- Express inputs of a gateway (chapter 3, *The cluster edge*). -/
def dieCol (c : Nat) : Nat := 4 * (c / 16 % 3) + c % 4
def dieRow (c : Nat) : Nat := 4 * (c / 48) + c % 16 / 4

/-- The cluster at a die position. -/
def clAt (x y : Nat) : Nat := 16 * (x / 4 + 3 * (y / 4)) + 4 * (y % 4) + x % 4

/-- Links of a gateway toward a side: 0 N, 1 E, 2 S, 3 W; whether it has an express link there. -/
def hasExpress (c side : Nat) : Bool :=
  let x := dieCol c
  let y := dieRow c
  match side with
  | 0 => decide (y = 7)
  | 1 => decide (x = 3 ∨ x = 7)
  | 2 => decide (y = 3)
  | _ => decide (x = 7 ∨ x = 11)

/-- A gateway input exists: the mesh inputs of neighbours and sites, the express inputs of its links. -/
def hasInput (c inp : Nat) : Bool := decide (inp < 4) || hasExpress c (inp - 4)

/-! ### Spill rounds -/

/-- A queue number of the cluster. -/
def spillQueues : List Nat := List.range 328

/-- The queue holds an entry, is not spilled yet, and its head has stood for 16 cycles. -/
def stuckQueue (s : State) (ch c : Nat) (young : List Nat) (q : Nat) : Bool :=
  !young.contains q &&
    (if q < 320 then
      let x := s.tl ch c (q / 5)
      !x.spilled.contains (q % 5) && !(lst x.rq (q % 5)).isEmpty
    else
      hasInput c (q - 320) && !(s.clu ch c).gwSpilled.contains (q - 320) && !(meshQueue s ch c (q - 320)).isEmpty)

/-- It may spill: a gateway input only with beats of the owner's function alone (R264). -/
def maySpill (s : State) (ch c q : Nat) : Bool :=
  decide (q < 320) || (meshQueue s ch c (q - 320)).all fun r => decide (r.fn = clFn s ch c)

def spillOne (ch c : Nat) (s : State) (q : Nat) : State :=
  if q < 320 then s.setTl ch c (q / 5) fun x => { x with spilled := insertN (q % 5) x.spilled }
  else s.setClu ch c fun k => { k with gwSpilled := insertN (q - 320) k.gwSpilled }

/-- `STALL_WINDOW_EXPIRY` (R263): the cluster's age has reached the window; `young` names the queues whose head has stood there
for less than 16 cycles. -/
def execStallWindowExpiry (c : Cl) (young : List Nat) (s : State) : Host.Outcome State Fault Refusal := .next <|
  let ch := c.ch.val
  let n := c.cl.val
  let d := dstLoc ch (clDistrict n)
  if (s.clu ch n).watched ∧ s.fbit Fld.DST_STALLCFG_EN d ∧ clocked s ch n then
    let qs := spillQueues.filter (stuckQueue s ch n young)
    let ok := qs.filter (maySpill s ch n)
    let s := (s.fadd Fld.DST_STALLSTAT_ROUNDS d 0 1).fset Fld.DST_STALLSTAT_LASTCL d 0 n
    let s := dlyRecord s ch 5 0 n ok.length (unitsUsed s ch n)
    if qs.isEmpty then s
    else if ok.isEmpty then
      report3 (s.fset Fld.CL_SIDSTAT_STUCK (clLoc ch n) 0 1) ch (openCode 5) 0 n 0 0 (clSection s ch n)
    else ok.foldl (spillOne ch n) (s.fadd Fld.DST_STALLSTAT_QSPILLED d 0 ok.length)
  else s

/-- `DST_STALLCFG_WRITE` (R263): who may write it, and the windows it accepts. -/
def execDstStallcfgWrite (r : Requester) (d : DistId) (v : Word) (s : State) : Host.Outcome State Fault Refusal := .next <|
  rowGate s r (.dst d) fun s =>
  let l := dstLoc d.ch d.d
  let w := bits v.toNat 0 5
  if maySup s r && decide (12 ≤ w ∧ w ≤ 24) then
    (s.fset Fld.DST_STALLCFG_WLOG l 0 w).fset Fld.DST_STALLCFG_EN l 0 (bits v.toNat 8 1)
  else s.fset Fld.DST_STALLSTAT_CODE l 0 cCfgIgnored

/-! ### The engine -/

/-- A free unit is taken; the most held is kept (R273). -/
def takeUnit (s : State) (ch c u : Nat) : State :=
  let s := s.setClu ch c fun k => { k with freeUnits := k.freeUnits.filter (· ≠ u) }
  let s := pmCount s ch 0x08 c 1
  let n := unitsUsed s ch c
  let l := clLoc ch c
  if s.fget Fld.CL_SIDSTAT_HIGH l < n then s.fset Fld.CL_SIDSTAT_HIGH l 0 n else s

/-- A unit is written at the tail of a list whose last unit is `prev`. -/
def writeUnit (s : State) (ch c u : Nat) (prev : Option Nat) (bs : List Byte) : State :=
  let s := s.writeMem (unitAt ch c u) (cleanBytes bs)
  match prev with
  | none => s
  | some p => s.writeMem (unitAt ch c p + 52) (dBytes 2 u)

/-- Bytes that six units hold of a beat: its routing header, whose form the spec does not give (log entry 35), and its data. -/
def beatBytes (s : State) (ch : Nat) (r : Req) (b : Nat) : List DByte :=
  dBytes 8 (Config.meshHeader r.tga (r.fn.getD 255)).toNat ++ ((carried s ch r).drop (256 * b)).take 256

/-- Bytes of a request as the units of its beats give them back; an uncorrectable word poisons its beat (R272). -/
def unitData (s : State) (ch c : Nat) (us : List Nat) : List DByte :=
  ((List.range (us.length / 6)).map fun b =>
    let d := (((us.drop (6 * b)).take 6).map fun u => s.readMem (unitAt ch c u) 48).flatten
    ((d.drop 8).take 256).map fun x => (x.1, anyPsn d)).flatten

/-- The bytes of a write at `a` with those of its granules replaced, poison kept. -/
def spliceBack (a : Nat) : List Nat → List DByte → List DByte → List DByte
  | [], d, _ => d
  | g :: gs, d, bs =>
    let i := max (64 * g) a - a
    let n := min (64 * g + 64) (a + d.length) - a - i
    let old := (d.drop i).take n
    spliceBack a gs (d.take i ++ (old.zip bs).map (fun p => (p.2.1, p.1.2 || p.2.2)) ++ d.drop (i + n)) (bs.drop n)

/-- The request at the head of a gateway input, as read back from the units that hold it. -/
def readBack (s : State) (ch c : Nat) (r : Req) : Req :=
  if r.units.isEmpty then r
  else
    let bs := unitData s ch c (headUnits s ch c r)
    match r.op with
    | .write d => { r with op := .write (spliceBack (tgaOff r.tga) (if r.site.isSome then hbmGranules s ch r
        else rangeGranules (tgaOff r.tga) d.length) d bs) }
    | .msg _ b => { r with op := .msg (dNat (bs.take 8)) ((b.zip (bs.drop 8)).map fun p => (p.2.1, p.1.2 || p.2.2)) }
    | .flit p f => { r with op := .flit p { f with payload := BitVec.ofNat 256 (dNat (bs.take 32)), poison := f.poison || anyPsn bs } }
    | .sync o _ => { r with op := .sync o (dNat (bs.take 8)), parts := if anyPsn bs then [1] else r.parts }
    | _ => r

/-- The engine has something to do for a queue. -/
def engineWork (s : State) (ch c q : Nat) : Bool :=
  if q < 320 then
    let x := s.tl ch c (q / 5)
    x.spilled.contains (q % 5) && (!(lst x.rq (q % 5)).isEmpty || (lst x.siding (q % 5)).any x.dead.contains)
  else
    (s.clu ch c).gwSpilled.contains (q - 320) &&
      (match (meshQueue s ch c (q - 320)).find? fun r => !listed s ch r with
        | some r => decide (r.fn = clFn s ch c)
        | none => false)

/-- The engine serves one queue. -/
def engineServe (s : State) (ch c q : Nat) : State :=
  if q < 320 then
    let t := q / 5
    let p := q % 5
    let x := s.tl ch c t
    match lst x.siding p with
    | u :: _ => if x.dead.contains u then dropUnit s ch c t p else engineAppend s ch c t p
    | [] => engineAppend s ch c t p
  else
    match (meshQueue s ch c (q - 320)).find? fun r => !listed s ch r, (s.clu ch c).freeUnits with
    | none, _ => s
    | some _, [] => sidingOut s ch c cSidingExhausted
    | some r, u :: _ =>
      let k := r.units.length
      let bs := ((beatBytes s ch r (k / 6)).drop (48 * (k % 6))).take 48
      let prev := (gwList s ch c (q - 320)).getLast?
      let s := takeUnit s ch c u
      let s := writeUnit s ch c u prev (unitBytes (dNat bs) (k % 6) (8 + (q - 320)) 0 0xFFFF)
      let s := setReq s ch r.no fun r => { r with units := r.units ++ [u] }
      if (k + 1) % 6 = 0 then s.setClu ch c fun x => { x with retM := setCnt x.retM (q - 320) (cnt x.retM (q - 320) + 1) }
      else s
where
  /-- The oldest staging flit of a router queue goes to the list tail. -/
  engineAppend (s : State) (ch c t p : Nat) : State :=
    let x := s.tl ch c t
    match lst x.rq p, (s.clu ch c).freeUnits with
    | [], _ => s
    | _ :: _, [] => sidingOut s ch c cSidingExhausted
    | f :: rest, u :: _ =>
      let s := takeUnit s ch c u
      let s := writeUnit s ch c u (lst x.siding p).getLast? (unitBytes f.payload.toNat (flitTag f) p t 0xFFFF)
      s.setTl ch c t fun x =>
        { x with rq := setLst x.rq p rest, siding := setLst x.siding p (lst x.siding p ++ [u])
                 dead := if f.gone then insertN u x.dead else x.dead
                 retR := setCnt x.retR p (cnt x.retR p + 1) }

/-- The queue that the engine serves next (R268). -/
def engineNext (s : State) (ch c : Nat) : Option Nat :=
  let p := (s.clu ch c).engine
  if clocked s ch c then (spillQueues.map fun i => (p + i) % 328).find? (engineWork s ch c) else none

/-- Bank of the unit that the engine would write or read for a queue: the next free one, or the head it discards. -/
def engineBank (s : State) (ch c q : Nat) : Nat :=
  let x := s.tl ch c (q / 5)
  let u := match lst x.siding (q % 5) with
    | u :: _ => if q < 320 ∧ x.dead.contains u then u else (s.clu ch c).freeUnits.headD 0
    | [] => (s.clu ch c).freeUnits.headD 0
  64 * u / 128 % 32

/-- The engine's cycle: the next spilled queue with work, round-robin (R266, R268). -/
def engineCycle (s : State) (ch c : Nat) : State :=
  match engineNext s ch c with
  | none => s
  | some q => engineServe (s.setClu ch c fun k => { k with engine := (q + 1) % 328 }) ch c q

end Sys2Proof.Machine
end

