-- ==== Sys2Proof/Machine/Fabric.lean ====
section
/-! DEFINITION. The channel's fabric: the cluster mesh (R51, R53), the transaction table (R191), depot banks (R177), HBM slots
(R181 to R183, R192 to R194), and requests entering it (R159, R190). -/

namespace Sys2Proof.Machine

/-! ### The mesh -/

/-- The next gateway from `c` toward `d` and the input entered there (R51); none at `d`. -/
def stepToward (c d : Nat) : Option (Nat × Nat) :=
  let x := dieCol c
  let y := dieRow c
  let u := dieCol d
  let v := dieRow d
  if x < u then some (if hasExpress c 1 ∧ 4 ≤ u - x then (clAt (x + 4) y, 7) else (clAt (x + 1) y, 3))
  else if u < x then some (if hasExpress c 3 ∧ 4 ≤ x - u then (clAt (x - 4) y, 5) else (clAt (x - 1) y, 1))
  else if y < v then some (if hasExpress c 2 ∧ 4 ≤ v - y then (clAt x (y + 4), 4) else (clAt x (y + 1), 0))
  else if v < y then some (if hasExpress c 0 ∧ 4 ≤ y - v then (clAt x (y - 4), 6) else (clAt x (y - 1), 2))
  else none

/-- Hops of the path from `c` to `d`; twenty links always suffice on a 12 × 8 mesh. -/
def hopsTo : Nat → Nat → Nat → Nat
  | 0, _, _ => 0
  | n + 1, c, d => match stepToward c d with
    | none => 0
    | some (k, _) => 1 + hopsTo n k d

/-- Clusters attached to a site's edge router (Table 3-2). -/
def attached (site : Nat) : List Nat :=
  match site with
  | 0 => [0, 1, 2, 3]
  | 1 => [32, 33, 34, 35]
  | 2 => [60, 61, 62, 63]
  | _ => [92, 93, 94, 95]

/-- Position among a site's attached clusters of the one nearest to `c` (R53). -/
def nearest (c site : Nat) : Nat :=
  let ds := (attached site).map fun d => hopsTo 20 c d
  ds.findIdx fun d => decide (d = listMin 0 ds)

def nearCl (c site : Nat) : Nat := (attached site).getD (nearest c site) 0

/-! ### Requests -/

def Req.isWrite (r : Req) : Bool :=
  match r.op with
  | .write _ => true
  | _ => false

/-- The request names another channel or package. -/
def remoteReq (s : State) (ch : Nat) (r : Req) : Bool := !isOwn s ch r.tga

/-- The collective port of the channel (R436), and any other queue address beyond its clusters. -/
def collPort (a : Nat) : Bool := decide (tgaCl a = 127 ∧ bits a 12 2 = 2 ∧ bits a 0 4 = 0)

/-- Stack site that a request of HBM is for: a leg's own, else that of its first granule. -/
def siteOf (s : State) (ch : Nat) (r : Req) : Nat := r.site.getD (granuleLane s ch (tgaOff r.tga / 64) % 4)

/-- Where the mesh takes a request from a cluster (R53); none where no flow leads there. A message for a number beyond the clusters
is settled where it enters. -/
def meshDest (s : State) (ch from_ : Nat) (r : Req) : Option Nat :=
  if remoteReq s ch r then
    let (n, code) := routeOf s ch r.fn r.tga
    if code ≠ 0 then none else some (nearCl from_ (s.flow ch n).home)
  else if tgaSpace r.tga = 0 then some (nearCl from_ (siteOf s ch r))
  else some (if 96 ≤ tgaCl r.tga then from_ else tgaCl r.tga)

/-- Stack sites over which the granules of a request lie (R181). -/
def reqSites (s : State) (ch : Nat) (r : Req) : List Nat :=
  if remoteReq s ch r || decide (tgaSpace r.tga ≠ 0) then []
  else (List.range 4).filter fun k => (hbmGranules s ch r).any fun g => decide (granuleLane s ch g % 4 = k)

/-- The attached cluster of a site by which traffic for a target enters (R53). -/
def entryCl (s : State) (ch site : Nat) (r : Req) : Nat :=
  let hop (e : Nat) : Nat := hopsTo 20 e ((meshDest s ch e r).getD e)
  let ds := (attached site).map hop
  (attached site).getD (ds.findIdx fun d => decide (d = listMin 0 ds)) 0

/-- A request of the channel's list put on the mesh at input `inp` of the cluster that `at_` gives for it; one whose granules lie
at several stack sites goes on as one leg for each (R53). -/
def launch (s : State) (ch : Nat) (r : Req) (at_ : Req → Nat) (inp : Nat) : State :=
  let go (s : State) (r : Req) : State :=
    let c := at_ r
    match meshDest s ch c r with
    | none => finish s ch r (routeOf s ch r.fn r.tga).2 []
    | some d => moveReq (setReq s ch r.no fun x => { x with dest := d }) ch r.no (.mesh c inp)
  let sites := reqSites s ch r
  if sites.length < 2 then go s r
  else
    let s := setReq s ch r.no fun x => { x with place := .legs }
    sites.foldl (fun s k =>
      let leg := { r with ret := .leg r.no, site := some k, entry := false, no := (s.chan ch).nextNo }
      go (pushReq s ch leg) leg) s

/-- The access stays in the issuing cluster's depot, and so holds no entry (R191). -/
def ownDepot (s : State) (ch : Nat) (r : Req) : Bool :=
  !remoteReq s ch r && decide (tgaSpace r.tga = 1) && decide (tgaCl r.tga = r.cl) &&
    (match r.op with
      | .read _ | .write _ => true
      | _ => false)

/-- Traffic of the load sequencer, which both gates let pass (R154). -/
def seqTraffic (s : State) (ch : Nat) (r : Req) : Bool :=
  match r.ret with
  | .dolly c n _ _ => decide ((SMap.get? (s.clu ch c).slots n).map DSlot.w = some 2)
  | .drop => true
  | _ => false

/-- Where a request whose WRITES gate is open begins (R191): a sync operation of the own channel at its bank, an access of the
own depot at its banks, any other waits for an entry. -/
def firstPlace (s : State) (ch : Nat) (r : Req) : Place :=
  match r.op with
  | .sync _ _ => if remoteReq s ch r then .table else .bank
  | _ => if ownDepot s ch r then .depot r.cl else .table

/-- The WRITES gate of the issuing cluster holds the request (R159). -/
def heldByGate (s : State) (ch : Nat) (r : Req) : Bool :=
  decide (r.cl < 96) && !gateWr s ch r.cl && !seqTraffic s ch r && (r.isWrite || (remoteReq s ch r && (match r.op with
    | .read _ => false
    | _ => true)))

/-- A request of a cluster issued. -/
def issueReq (s : State) (ch : Nat) (r : Req) : State :=
  pushReq s ch { r with place := if heldByGate s ch r then .gate else firstPlace s ch r }

/-- An opened WRITES gate lets held requests go on, in their order (R159). -/
def releaseGate (s : State) (ch c : Nat) : State :=
  s.setChan ch fun k => { k with reqs := k.reqs.map fun r =>
    if r.place = .gate ∧ r.cl = c then { r with place := firstPlace s ch r } else r }

/-- A request that is where it takes effect: a sync bank, a queue, a depot or a stack. -/
def targetOf (r : Req) : Place :=
  match r.op with
  | .sync _ _ => .bank
  | .msg _ _ => .mesh (tgaCl r.tga) 8
  | _ => targetPlace r.tga

/-- Mesh input of an attached cluster toward its site: N of the north sites, S of the south ones (Table 3-2). -/
def siteInput (site : Nat) : Nat := if site < 2 then 0 else 2

/-- A request that enters the die at a gate site, from its link or from a flow: it goes over the mesh from the attached cluster
(R53). -/
def siteReq (s : State) (ch site : Nat) (r : Req) : State :=
  let no := (s.chan ch).nextNo
  let r := { r with cl := 96, no := no }
  match r.op with
  | .sync _ _ => pushReq s ch { r with place := .bank }
  | _ =>
    if 96 ≤ tgaCl r.tga ∧ tgaSpace r.tga ≠ 0 then pushReq s ch { r with place := targetOf r, dest := tgaCl r.tga }
    else launch (pushReq s ch r) ch r (entryCl s ch site) (siteInput site)

/-- A request of the host (R349): a sync operation or a message goes straight to its target, a memory access first waits for an
entry. The spec gives the hub link no place on the mesh (log entry 65). -/
def hubReq (s : State) (ch : Nat) (r : Req) : State :=
  pushReq s ch { r with cl := 96, dest := tgaCl r.tga, place := match r.op with
    | .read _ | .write _ => .table
    | _ => targetOf r }

/-! ### The transaction table -/

/-- A request of a `PRELOAD` descriptor, which the load sequencer reads (R191). -/
def isPreload (s : State) (ch : Nat) (r : Req) : Bool :=
  match r.ret with
  | .dolly c n _ _ => decide ((SMap.get? (s.clu ch c).slots n).map DSlot.w = some 2)
  | _ => false

/-- Requesters of the transaction table: 0 to 95 the clusters, 96 the host, 97 the Seal unit, 98 the load sequencer. -/
def holder (s : State) (ch : Nat) (r : Req) : Nat := if isPreload s ch r then 98 else r.cl

/-- Entries that a requester holds. -/
def ttHeld (s : State) (ch q : Nat) : Nat := (s.chan ch).reqs.countP fun r => r.entry && decide (holder s ch r = q)

/-- Entries reserved for a requester (R191): 32 for the load sequencer, 256 for a Seal unit in service. -/
def ttOwn (s : State) (ch q : Nat) : Nat :=
  if q = 98 then 32 else if q = 97 ∧ s.fbit Fld.CH_CAPS_SEAL_LIVE ch then 256 else 0

/-- Entries that all share. -/
def ttShared (s : State) (ch : Nat) : Nat := 4096 - ttOwn s ch 98 - ttOwn s ch 97

/-- Shared entries in use: those that no reserved one covers. -/
def ttUsed (s : State) (ch : Nat) : Nat :=
  (s.chan ch).reqs.countP (fun r => r.entry && decide (holder s ch r < 97)) + (ttHeld s ch 97 - ttOwn s ch 97) +
    (ttHeld s ch 98 - ttOwn s ch 98)

/-- Clusters whose gateway port the Seal unit may use (R329). -/
def sealPorts (s : State) (ch : Nat) : List Nat := (rangeFrom 64 4).filter fun c => !s.fbit Fld.CL_CAPS_FENCED (clLoc ch c)

/-- The port by which a request of the Seal unit leaves (log entry 69). -/
def sealPort (s : State) (ch no : Nat) : Nat := (sealPorts s ch).getD (no % (sealPorts s ch).length) 64

/-- An entry is free for a requester: its own first, then a shared one, within its limit (R191, R329). -/
def ttFree (s : State) (ch q : Nat) : Bool :=
  (decide (ttHeld s ch q < ttOwn s ch q) || decide (ttUsed s ch < ttShared s ch)) &&
    (if q < 96 then decide (ttHeld s ch q < s.fget Fld.CH_TTCFG_CL_MAX ch)
     else decide (q ≠ 97) || (decide (ttHeld s ch 97 < s.fget Fld.SEAL_CFG_TT_MAX ch) && !(sealPorts s ch).isEmpty))

/-- `CH_TTSTAT.HIGH` follows the entries held. -/
def ttMark (s : State) (ch : Nat) : State :=
  let n := (s.chan ch).reqs.countP fun r => r.entry
  if s.fget Fld.CH_TTSTAT_HIGH ch < n then s.fset Fld.CH_TTSTAT_HIGH ch 0 n else s

/-- A request that has its entry leaves: a cluster's for the mesh, or it ends where no flow leads to its target (R429); the Seal
unit's by a port of its own (R329); the load sequencer's and the host's, which have no place on the mesh, for their target. -/
def leaveTable (s : State) (ch : Nat) (r : Req) : State :=
  let s := ttMark (setReq s ch r.no fun r => { r with entry := true }) ch
  let r := { r with entry := true }
  if r.cl = 97 then launch s ch r (fun q => sealPort s ch q.no) 8
  else if 96 ≤ r.cl then
    if remoteReq s ch r then ctIssue s ch r else moveReq s ch r.no (targetOf r)
  else launch s ch r (fun _ => r.cl) 8

/-- The operation releases (R139 items 2 and 5): it takes effect after everything its source issued before. -/
def SOp.releases : SOp → Bool
  | .add | .set | .arv | .arw => true
  | _ => false

/-- An earlier access of the same source has not taken effect yet; what a descriptor's or a buffer's signal covers is performed
before it is sent. -/
def earlierLeft (s : State) (ch : Nat) (r : Req) : Bool :=
  (s.chan ch).reqs.any fun q => decide (q.no < r.no) && decide (q.place ≠ .done) &&
    (match r.ret, q.ret with
      | .posted w, .posted v | .posted w, .load v _ | .sync w, .posted v | .sync w, .load v _ => decide (v = w)
      | .egress c _, .egress k _ => decide (k = c)
      | _, _ => false)

/-- The request releases and something that its source issued before it is still on its way (R139). -/
def releaseWaits (s : State) (ch : Nat) (r : Req) : Bool :=
  match r.op with
  | .sync op _ => op.releases && earlierLeft s ch r
  | _ => false

/-- The oldest request of a requester that waits for an entry and may leave. -/
def ttWaiting (s : State) (ch q : Nat) : Option Req :=
  (s.chan ch).reqs.find? fun r => decide (r.place = .table) && decide (holder s ch r = q) && !releaseWaits s ch r

/-- `TT_ENTRY_ASSIGN` (R191): the next requester in turn whose oldest request waits and may have an entry. -/
def execTtEntryAssign (ch : Ch) (s : State) : Host.Outcome State Fault Refusal := .next <|
  let k := s.chan ch
  match ((List.range 99).map fun i => (k.ttPtr + i) % 99).findSome? fun q =>
      if ttFree s ch q then (ttWaiting s ch q).map fun r => (q, r) else none with
  | none => if (List.range 99).any (fun q => (ttWaiting s ch q).isSome) then s.fadd Fld.CH_TTSTAT_FULLCNT ch 0 1 else s
  | some (q, r) => leaveTable (s.setChan ch fun k => { k with ttPtr := (q + 1) % 99 }) ch r

/-! ### Mesh hops -/

/-- A flit reaches the depot interface port it was sent to (R238). -/
def flitArrive (s : State) (ch c : Nat) (r : Req) (port : Nat) (f : Flit) : State :=
  if s.fbit Fld.CL_CAPS_FENCED (clLoc ch c) then finish s ch r cUnitAbsent []
  else finish (s.setClu ch c fun k => { k with dq := setLst k.dq port (lst k.dq port ++ [f]) }) ch r 0 []

/-- The head of a gateway input that its edge router may take now: traffic for another channel that has come to its port (R53). -/
def atEdge (s : State) (ch c inp : Nat) : Bool :=
  match meshQueue s ch c inp with
  | r :: _ => remoteReq s ch r && decide (r.dest = c) && (r.units.isEmpty || listed s ch r)
  | [] => false

/-- The edge router of a gate site takes its gateway ports in turn (R53): no port before this one waits. -/
def edgeTurn (s : State) (ch site k : Nat) : Bool :=
  let p := cnt (s.chan ch).portPtr (3 * site + 2)
  ((List.range 4).map fun i => (p + i) % 4).takeWhile (· ≠ k) |>.all fun q =>
    let c := (attached site).getD q 0
    (List.range 9).all fun inp => !atEdge s ch c inp

/-- A packet that is where the mesh had to take it. -/
def meshArrive (s : State) (ch c inp : Nat) (r : Req) : State :=
  if remoteReq s ch r then
    let site := (s.flow ch (routeOf s ch r.fn r.tga).1).home
    let k := (attached site).findIdx fun e => decide (e = c)
    if !edgeTurn s ch site k then s
    else
      let s := s.setChan ch fun x => { x with portPtr := setCnt x.portPtr (3 * site + 2) ((k + 1) % 4) }
      ctIssue (leaveMesh s ch r c inp) ch r
  else match r.op with
    | .msg _ _ =>
      if 96 ≤ tgaCl r.tga ∧ ¬ collPort r.tga then finish (leaveMesh s ch r c inp) ch r cUnitAbsent [] else s
    | .flit p f =>
      if room8 (s.clu ch c).dq (s.clu ch c).retD p = 0 ∧ ¬ s.fbit Fld.CL_CAPS_FENCED (clLoc ch c) then s
      else flitArrive (leaveMesh s ch r c inp) ch c r p f
    | _ =>
      let s := setReq (leaveMesh s ch r c inp) ch r.no fun x =>
        { x with port := if tgaSpace r.tga = 0 then (attached (siteOf s ch r)).findIdx fun e => decide (e = c) else 0 }
      moveReq s ch r.no (targetPlace r.tga)

/-- `GATEWAY_MESH_HOP` (R51): input 8 is the gateway's own traffic, which its OUTPUTS gate holds. -/
def execGatewayMeshHop (c : Cl) (inp : Fin 9) (s : State) : Host.Outcome State Fault Refusal := .next <|
  let ch := c.ch.val
  let n := c.cl.val
  match meshQueue s ch n inp with
  | [] => s
  | r :: _ =>
    if !clocked s ch n || (!r.units.isEmpty && !listed s ch r) || (decide (inp.val = 8) && !gateOut s ch n && decide (r.cl = n) &&
        !seqTraffic s ch r) then s
    else if gwBad s ch n inp r then sidingOut s ch n cEccUncorrected
    else
      let r' := readBack s ch n r
      let s' := if r' = r then s else setReq s ch r.no fun x => { x with op := r'.op, parts := r'.parts }
      match stepToward n r.dest with
      | none =>
        let code := if remoteReq s ch r then (routeOf s ch r.fn r.tga).2 else 0
        if code ≠ 0 then finish (leaveMesh s' ch r n inp) ch r' code [] else meshArrive s' ch n inp r'
      | some (k, i) =>
        if meshRoom s ch k i < beats s ch r then s else moveReq (leaveMesh s' ch r n inp) ch r.no (.mesh k i)

/-! ### Performing an access -/

/-- A piece of a list replaced. -/
def putSlice {α : Type} (d : α) (n : Nat) (l : List α) (i : Nat) (p : List α) : List α :=
  let l := if l.isEmpty then List.replicate n d else l
  l.take i ++ p ++ l.drop (i + p.length)

/-- The bytes of a range that lie in the block of `z` bytes numbered `b`: first address and count. -/
def inBlock (z a n b : Nat) : Nat × Nat :=
  let lo := max a (z * b)
  (lo, min (a + n) (z * b + z) - lo)

/-- Data of a read joined to what its request has gathered. -/
def gather (s : State) (ch : Nat) (r : Req) (at_ : Nat) (bs : List DByte) : State :=
  setReq s ch r.whole fun x => { x with data := putSlice (0#8, false) r.len x.data at_ bs }

/-- A part of a request performed: the read bytes join its data, a write passes the guard (R299). Answers false where the request is
held. -/
def performPart (s : State) (ch : Nat) (r : Req) (lo n : Nat) : State × Bool :=
  let a := tgaMem r.tga
  match r.op with
  | .read _ => (gather s ch r (lo - a) (s.readMem lo n), true)
  | .write d =>
    let bs := (d.drop (lo - a)).take n
    match guardAct s lo n with
    | 0 => (storeBytes s lo bs, true)
    | 1 => (holdWrite (setReq s ch r.no fun x => { x with place := .guard }) (bits lo 46 2) (.req r.no), false)
    | _ =>
      let s := if ((reqOf s ch r.whole).map Req.code) = some cNonfiniteSkip then s else countDiscard s (bits lo 46 2)
      (setReq (storeOutside s lo bs) ch r.whole fun x => { x with code := firstCode x.code cNonfiniteSkip }, true)
  | .fix => (armLoc s ch 7 lo, true)
  | _ => (s, true)

/-- The request ends once every block of it is done. -/
def performEnd (s : State) (ch no : Nat) (all : Nat → Bool) (blocks : List Nat) : State :=
  match reqOf s ch no with
  | none => s
  | some r => if blocks.all all then finish s ch r r.code r.data else s

/-- Blocks of a depot request. -/
def depotBlocks (r : Req) : List Nat :=
  let a := tgaMem r.tga
  rangeFrom (a / 128) ((a + r.len + 127) / 128 - a / 128)

/-- Requesters whose accesses to one 64-byte granule keep their order (R196): a steward, a descriptor, a host function, a unit. -/
def RetTo.source : RetTo → Option (Nat × Nat × Nat)
  | .posted w | .load w _ => some (0, w, 0)
  | .dolly c n _ _ => some (1, c, n)
  | .ring f _ _ | .aper f _ => some (2, f, 0)
  | .unit u _ _ _ => some (3, u, 0)
  | _ => none

/-- The requester of a request, that of a leg the one of the whole. -/
def sourceOf (s : State) (ch : Nat) (r : Req) : Option (Nat × Nat × Nat) :=
  match r.ret with
  | .leg n => (reqOf s ch n).bind fun q => q.ret.source
  | x => x.source

/-- An earlier request of the same requester has still to be performed in the part of the block of `z` bytes numbered `b` that
shares a 64-byte granule with this one (R137, R196); `done` tells whether its part of the block is. -/
def behindOwn (s : State) (ch : Nat) (r : Req) (z b : Nat) (isDone : Req → Bool) : Bool :=
  (sourceOf s ch r).isSome && (s.chan ch).reqs.any fun q =>
    decide (q.whole < r.whole ∧ q.place ≠ .done ∧ q.place ≠ .legs ∧ q.tga / 2 ^ 44 = r.tga / 2 ^ 44) &&
      decide (sourceOf s ch q = sourceOf s ch r) && !isDone q && (q.site.isNone || decide (q.site = r.site)) &&
      (let lo := max (max (tgaOff q.tga / 64) (tgaOff r.tga / 64)) (z * b / 64)
       let hi := min (min ((tgaOff q.tga + q.len + 63) / 64) ((tgaOff r.tga + r.len + 63) / 64)) ((z * b + z) / 64)
       decide (lo < hi))

/-- An access that the dolly of cluster `c` makes in its own depot; any other comes through the gateway. -/
def Req.byDolly (r : Req) (c : Nat) : Bool :=
  !r.entry && (match r.ret with
    | .dolly k _ _ _ => decide (k = c)
    | _ => false)

/-- A steward's own store by TGA reaches its depot: its instruction cache keeps what it shows (R136). -/
def keepOwn (s : State) (ch c : Nat) (r : Req) (lo k : Nat) : State :=
  match r.ret with
  | .posted w => if r.isWrite ∧ w / 2 = c then keepCode s ch c (w % 2) (lo % 2 ^ 22) k else s
  | _ => s

/-- A burst of a request granted at a bank of a depot. -/
def bankGrant (s : State) (ch c : Nat) (r : Req) (b : Nat) : State :=
  if s.fbit Fld.CL_CAPS_FENCED (clLoc ch c) then finish s ch r cUnitAbsent []
  else
    let (lo, k) := inBlock 128 (tgaMem r.tga) r.len b
    match performPart (keepOwn s ch c r lo k) ch r lo k with
    | (s, false) => s
    | (s, true) =>
      let s := if r.isWrite && !r.byDolly c then progress s ch c else s
      let s := setReq s ch r.no fun x => { x with parts := b :: x.parts }
      performEnd s ch r.no (fun b' => b' = b || r.parts.contains b') (depotBlocks r)

/-! ### HBM slots -/

/-- `parts` of an HBM request holds `2 × granule` once the granule is done, `2 × granule + 1` once the first of two slots has
been taken (R183). -/
def granuleLeft (s : State) (ch site : Nat) (r : Req) : Option Nat :=
  (hbmGranules s ch r).find? fun g => decide (granuleLane s ch g % 4 = site) && !r.parts.contains (2 * g) &&
    !hbmCopying s ch g && !behindOwn s ch r 64 g fun q => q.parts.contains (2 * g)

/-- Requests of a class that wait at a site; a prefetch only where no other waits (R287). -/
def classWaiting (s : State) (ch site k : Nat) : List Req :=
  let l := (s.chan ch).reqs.filter fun r => decide (r.place = .hbm ∧ r.cls = k) && (granuleLeft s ch site r).isSome
  let plain := l.filter fun r => !r.prefetch
  if plain.isEmpty then l else plain

/-- Shares in force at a site: read, write, remote, and `LEND` (R192). -/
def siteSplit (s : State) (ch site : Nat) : Nat := SMap.get (40 + 16 * 2 ^ 8 + 8 * 2 ^ 16) (s.chan ch).split site

def share (w k : Nat) : Nat := bits w (8 * k) 7

def siteCredit (s : State) (ch site : Nat) : List Int := SMap.get [0, 0, 0] (s.chan ch).credit site

/-- One slot of R194: the credits after it and the class granted. -/
def slotPick (w : Nat) (waiting : Nat → Bool) (credit : List Int) : List Int × Option Nat :=
  let lend := bit w 24
  let el := (List.range 3).filter fun k => !lend || waiting k
  let c (k : Nat) : Int := if el.contains k then credit.getD k 0 + share w k else if lend then 0 else credit.getD k 0
  let total : Int := (el.map fun k => (share w k : Int)).sum
  match el.foldl (fun b k => match b with
      | none => some k
      | some j => if c j < c k then some k else b) none with
  | none => ((List.range 3).map c, none)
  | some k => ((List.range 3).map fun j => if j = k then c j - total else c j, some k)

/-- The code of a lost pseudo-channel for a request (R182, R200): that of the fault for one that was on its way. -/
def lostCode (s : State) (ch : Nat) (r : Req) (g : Nat) : Option Nat :=
  let u := granuleLane s ch g
  if (SMap.get [] s.lostLanes ch).contains u then
    some (((r.doom.find? fun p => decide (p.1 = u)).map Prod.snd).getD cUnitAbsent)
  else none

/-- The code that a slot granted to a granule of a request meets: a read that of its granule; a write that of any granule of the
request, which is performed whole or fails (R200). -/
def slotFails (s : State) (ch : Nat) (r : Req) (g : Nat) : Option Nat :=
  if r.isWrite then (rangeGranules (tgaOff r.tga) r.len).findSome? (lostCode s ch r) else lostCode s ch r g

/-- A granule of a request is granted its slot; one that a lost pseudo-channel fails comes back poisoned. -/
def grantGranule (s : State) (ch : Nat) (r : Req) (g : Nat) : State :=
  let ended (s : State) : State :=
    let s := setReq s ch r.no fun x => { x with parts := (2 * g) :: x.parts }
    performEnd s ch r.no (fun g' => g' = g || r.parts.contains (2 * g')) (hbmGranules s ch r)
  let (lo, n) := inBlock 64 (tgaOff r.tga) r.len g
  match slotFails s ch r g with
  | some code =>
    let s := if r.isWrite then s else gather s ch r (lo - tgaOff r.tga) (List.replicate n (0#8, true))
    ended (setReq s ch r.whole fun x => { x with code := firstCode x.code code })
  | none =>
    if r.isWrite ∧ n < 64 ∧ ¬ r.parts.contains (2 * g + 1) then
      setReq s ch r.no fun x => { x with parts := (2 * g + 1) :: x.parts }
    else match performPart s ch r (hbmAt ch lo) n with
      | (s, false) => s
      | (s, true) => ended s

/-- `STACK_SLOT_GRANT` (R194, R53). -/
def execStackSlotGrant (ch : Ch) (site : Fin 4) (s : State) : Host.Outcome State Fault Refusal := .next <|
  let w := siteSplit s ch site
  let wait (k : Nat) : Bool := !(classWaiting s ch site k).isEmpty
  let (credit, k?) := slotPick w wait (siteCredit s ch site)
  let s := s.setChan ch fun c => { c with credit := SMap.put c.credit site credit }
  match k? with
  | none => s
  | some k =>
    let l := classWaiting s ch site k
    let p := cnt (s.chan ch).portPtr (3 * site + k)
    match ((List.range 4).map fun i => (p + i) % 4).findSome? fun q => (l.find? fun r => decide (r.port = q)).map fun r => (q, r) with
    | none => s
    | some (q, r) =>
      let s := s.setChan ch fun c => { c with portPtr := setCnt c.portPtr (3 * site + k) ((q + 1) % 4) }
      let s := pmCount s ch (4 + k) (if r.cl < 96 then r.cl else 127) 1
      match granuleLeft s ch site r with
      | none => s
      | some g => grantGranule s ch r g

/-- Stack sites whose edge routers apply the split. -/
def stackSites (s : State) (ch : Nat) : List Nat := (List.range 4).filter fun n => bit (s.fget Fld.CH_HBMMAP_SITES ch) n

/-- `CH_BWSPLIT_COMMIT` (R192). -/
def execChBwsplitCommit (r : Requester) (ch : Ch) (s : State) : Host.Outcome State Fault Refusal := .next <|
  rowGate s r (.ch ch) fun s =>
  let w := s.regN .CH_BWSPLIT ch % 2 ^ 31
  if maySup s r && (List.range 3).all (fun k => decide (0 < share w k)) &&
      decide (share w 0 + share w 1 + share w 2 = 64) then
    (s.setReg .CH_BWLIVE ch 0 w).setChan ch fun c => { c with splitWait := stackSites s ch }
  else memErr s ch cCfgIgnored (mkTga (ownPkg s) ch 3 0x300)

/-- `BWSPLIT_FRAME_BOUNDARY` (R192, R194). -/
def execBwsplitFrameBoundary (ch : Ch) (site : Fin 4) (s : State) : Host.Outcome State Fault Refusal := .next <|
  if (s.chan ch).splitWait.contains site.val then
    s.setChan ch fun c =>
      { c with split := SMap.put c.split site (s.regN .CH_BWLIVE ch % 2 ^ 25), credit := SMap.put c.credit site [0, 0, 0],
               splitWait := c.splitWait.filter (· ≠ site.val) }
  else s

end Sys2Proof.Machine
end

