-- ==== Sys2Proof/Machine/Queue.lean ====
section
/-! DEFINITION. Message queues (chapter 10): headers, delivery, dispatch, poison, configuration. -/

namespace Sys2Proof.Machine

/-! ### Queue addresses and headers (Tables 10-1, 10-2) -/

def qaKind (a : Nat) : Nat := bits a 12 2
def qaHandler (a : Nat) : Nat := bits a 4 8
def qaQueue (a : Nat) : Nat := bits a 0 4

def mkQaddr (pkg ch cl kind handler q : Nat) : Nat :=
  mkTga pkg ch 1 (cl * 2 ^ 22 + kind * 2 ^ 12 + handler * 2 ^ 4 + q)

def mkHdr (kind handler words : Nat) (psn tile : Bool) (stw cl ch pkg seq : Nat) : Nat :=
  kind + handler * 2 ^ 2 + (words - 1) % 8 * 2 ^ 10 + ofBit psn * 2 ^ 13 + ofBit tile * 2 ^ 14 + stw * 2 ^ 16 + cl * 2 ^ 17 +
    ch * 2 ^ 24 + pkg * 2 ^ 32 + seq % 2 ^ 16 * 2 ^ 48

/-- Check 1 of Table 10-5 (R222, R227). -/
def qaddrBad (a words : Nat) : Bool :=
  decide (bits a 44 2 ≠ 1 ∨ bits a 29 15 ≠ 0 ∨ bits a 14 8 ≠ 0 ∨ qaKind a = 3 ∨ (qaKind a ≠ 1 ∧ qaHandler a ≠ 0) ∨
    (qaKind a = 2 ∧ words < 2))

/-- The pointer of a DESC message checked at the sender (R222). -/
def descCode (s : State) (ch : Nat) (fn : Option Nat) (body : List DByte) : Nat :=
  let a := dNat (body.take 8)
  let len := dNat ((body.drop 8).take 4)
  let size := if isOwn s ch a then some (s.fget Fld.CH_HBMSIZE_SIZE ch) else none
  if 2 ≤ tgaSpace a ∨ len = 0 ∨ ¬ offsetOk size a len then cCfgIgnored
  else match fn with
    | none => 0
    | some f => if permitMem s s.rpt ch f false false a len then 0 else cRptViolation

/-- What the sender finds wrong with a message: check 1, R222, and for another channel or package checks 2, 3 and 5. -/
def sendCode (s : State) (ch : Nat) (fn : Option Nat) (a : Nat) (body : List DByte) : Nat :=
  if qaddrBad a (body.length / 8) then cCfgIgnored
  else
    let d := if qaKind a = 2 then descCode s ch fn body else 0
    if d ≠ 0 then d
    else if isOwn s ch a then 0
    else if targetCode s a ≠ 0 then targetCode s a
    else if 96 ≤ tgaCl a then cUnitAbsent
    else 0

/-! ### Queues -/

def queue (s : State) (ch c q : Nat) : List Msg := lst (s.clu ch c).queues q

def setQueue (s : State) (ch c q : Nat) (l : List Msg) : State :=
  s.setClu ch c fun k => { k with queues := setLst k.queues q l }

/-- Configuration (Table 10-3). -/
def qMode (s : State) (ch c q : Nat) : Nat := bits (s.regN .CL_QCFGn (clLoc ch c) q) 0 2
def qStw (s : State) (ch c q : Nat) : Nat := bits (s.regN .CL_QCFGn (clLoc ch c) q) 2 1
def qDefh (s : State) (ch c q : Nat) : Nat := bits (s.regN .CL_QCFGn (clLoc ch c) q) 3 8

def qOff : Nat := 0
def qRecv : Nat := 1
def qDispatch : Nat := 2

/-- A queue configuration a write may give (R223). -/
def qCfgOk (v : Nat) : Bool := decide (bits v 0 2 ≠ 3 ∧ bits v 12 4 = 0 ∧ bits v 32 32 = 0)

/-- A message enqueued (R223, R228, R235). -/
def enqueue (s : State) (ch c q : Nat) (hdr : Nat) (body : List DByte) : State :=
  let l := clLoc ch c
  let s := setQueue s ch c q (queue s ch c q ++ [⟨hdr, body⟩])
  let s := progress (s.finc Fld.CL_QSTATn_ENQ l q 1) ch c
  let cfg := s.regN .CL_QCFGn l q
  let s := if bit cfg 11 then signalAdd s ch 2 c q (bits cfg 16 16) else s
  if bit hdr 13 then poisonQueue s ch c q else s

/-- The head message removed. -/
def dequeue (s : State) (ch c q : Nat) : State :=
  (setQueue s ch c q (queue s ch c q).tail).finc Fld.CL_QSTATn_DEQ (clLoc ch c) q 1

/-- Checks 2 to 7 of Table 10-5 at the destination gateway. -/
def deliverCode (s : State) (ch : Nat) (fn : Option Nat) (a : Nat) : Nat :=
  let c := tgaCl a
  if !s.chPresent ch ∨ 96 ≤ c then cUnitAbsent
  else if s.retired ch then cChannelRetired
  else if s.fbit Fld.CL_CAPS_FENCED (clLoc ch c) then cUnitAbsent
  else
    let granted := match fn with
      | none => true
      | some f =>
        let r := s.fnrec ch f
        let n := 16 * c + qaQueue a
        recValid r && decide (recQBase r ≤ n) && decide (n < recQBase r + recQCnt r)
    if !granted then cRptViolation
    else if qPsn s ch c (qaQueue a) then cQueuePoison
    else if qMode s ch c (qaQueue a) = qOff then cCfgIgnored
    else 0

/-- The message at the head of a gateway input, if it has come to its destination. -/
def arrivedAt (s : State) (ch c inp : Nat) : Option (Req × Nat × List DByte) :=
  match meshQueue s ch c inp with
  | [] => none
  | r :: _ =>
    match r.op with
    | .msg h b =>
      if !remoteReq s ch r && decide (tgaCl r.tga = c) && (r.units.isEmpty || listed s ch r) &&
          clocked s ch c && (decide (inp ≠ 8) || decide (r.cl ≠ c) || gateOut s ch c) then some (r, h, b) else none
    | _ => none

/-- The same; `held` tells whether it has been found to wait for a full queue (R230). -/
def arrived (s : State) (ch c inp : Nat) (held : Bool) : Option (Req × Nat × List DByte) :=
  (arrivedAt s ch c inp).filter fun p => decide (p.1.parts.isEmpty ≠ held)

/-- A message that a queue refuses: dropped, and counted unless the cluster is fenced and so has no register to count in (R33,
Table 10-5). -/
def dropCount (s : State) (ch c q : Nat) : State :=
  if clFenced s ch c then s else pmCount (s.fadd Fld.CL_QSTATn_DROPS (clLoc ch c) q 1) ch 0x0D c 1

/-- A message judged at its destination (R227, R230), once what a list holds of it has been read back (R272). -/
def deliver (s : State) (ch c inp : Nat) (r : Req) (h : Nat) (b : List DByte) : State :=
  let q := qaQueue r.tga
  let code := deliverCode s ch r.fn r.tga
  if gwBad s ch c inp r then sidingOut s ch c cEccUncorrected
  else if code ≠ 0 then
    finish (refusedBy (dropCount (leaveMesh s ch r c inp) ch c q) ch r.fn code r.tga) ch r code []
  else if 32 ≤ (queue s ch c q).length then setReq s ch r.no fun r => { r with parts := [1] }
  else
    let (h, b) := match (readBack s ch c r).op with
      | .msg h b => (h, b)
      | _ => (h, b)
    let s := leaveMesh s ch r c inp
    let s := enqueue s ch c q (if anyPsn b then putBits h 13 1 1 else h) b
    finish s ch r 0 []

/-- A gateway input, of the nine of the mesh, has a message that the queue would take. -/
def inputWants (s : State) (ch c q inp : Nat) : Bool :=
  match arrivedAt s ch c inp with
  | some (r, _, _) => decide (qaQueue r.tga = q) && decide (deliverCode s ch r.fn r.tga = 0)
  | none => false

/-- No input before this one, in the queue's turn over the gateway inputs, passes a test (R229); input 9 stands for the array
ports. -/
def queueTurn (s : State) (ch c q inp : Nat) (wants : Nat → Bool) : Bool :=
  let p := cnt (s.clu ch c).inPtr q
  (((List.range 10).map fun i => (p + i) % 10).takeWhile (· ≠ inp)).all fun i => !wants i

/-- The queue has taken a message of an input. -/
def queueTook (s : State) (ch c q inp : Nat) : State :=
  s.setClu ch c fun k => { k with inPtr := setCnt k.inPtr q ((inp + 1) % 10) }

/-! ### Dispatch -/

/-- The steward is at, or may be brought to, a boundary where a handler may start (R232). -/
def mayDispatch (x : Stw) : Bool :=
  !x.prv && !x.intrap && x.take.isNone && x.inh.isNone &&
    (decide (x.st = wRun) || (decide (x.st = wStalled) && (match x.wait with
      | .qrcv _ | .qsnd | .syncWge | .barrier | .dolly | .seal => true
      | _ => false)))

/-- The queue has something for its steward: a message to dispatch, or its poison to tell (R232, R235). -/
def dispatchDue (s : State) (ch c w q : Nat) : Bool :=
  decide (qMode s ch c q = qDispatch ∧ qStw s ch c q = w) &&
    (if qPsn s ch c q then !(s.clu ch c).ptrapped.contains q else !(queue s ch c q).isEmpty)

/-- `HANDLER_DISPATCH` (R232, R233, R235). -/
def execHandlerDispatch (w : StwId) (s : State) : Host.Outcome State Fault Refusal := .next <|
  let ch := w.c.ch.val
  let c := w.c.cl.val
  let k := w.w.val
  let x := s.stw ch c k
  if !mayDispatch x || !clocked s ch c then s
  else match (List.range 16).find? (dispatchDue s ch c k) with
    | none => s
    | some q =>
      let free (s : State) : State := wakeDistrict (if x.st = wStalled then stwAbandon s ch c k else s) ch (clDistrict c)
      if qPsn s ch c q then
        stwTrap ((free s).setClu ch c fun y => { y with ptrapped := q :: y.ptrapped }) ch c k kAccess cQueuePoison q
      else
        let h := ((queue s ch c q).head?.map Msg.hdr).getD 0
        let n := if bits h 0 2 = 1 then bits h 2 8 else qDefh s ch c q
        let e := s.regN .CL_HTn (clLoc ch c) n
        if bit e 22 then
          setStw (free s) ch c k fun x => { x with hepc := x.pc, pc := bits e 0 22, inh := some (q, n), inMsg := true }
        else qErr (dequeue s ch c q) ch c q 0 cCfgIgnored

/-! ### Control -/

/-- `CL_QCTRL_POISON` (R235, R236). -/
def execClQctrlPoison (r : Requester) (c : Cl) (q : Fin 16) (s : State) : Host.Outcome State Fault Refusal := .next <|
  rowGate s r (.cl c) fun s =>
  if maySup s r then poisonQueue s c.ch c.cl q else qErr s c.ch c.cl q 0 cCfgIgnored

/-- `CL_QCTRL_UNPOISON` (R236). -/
def execClQctrlUnpoison (r : Requester) (c : Cl) (q : Fin 16) (s : State) : Host.Outcome State Fault Refusal := .next <|
  rowGate s r (.cl c) fun s =>
  if maySup s r then
    let s := (setQueue s c.ch c.cl q []).fset Fld.CL_QSTATn_POISONED (clLoc c.ch c.cl) q 0
    let s := [0, 1].foldl (fun s w =>
      if ((s.stw c.ch c.cl w).inh.map Prod.fst) = some q.val then setStw s c.ch c.cl w fun x => { x with inMsg := false } else s) s
    s.setClu c.ch c.cl fun k => { k with ptrapped := k.ptrapped.filter (· ≠ q.val) }
  else qErr s c.ch c.cl q 0 cCfgIgnored

/-- A handler dispatched from the queue runs. -/
def inHandler (s : State) (ch c q : Nat) : Bool :=
  [0, 1].any fun w => decide ((s.stw ch c w).inh.map Prod.fst = some q)

/-- `CL_QCFG_WRITE` (R225, R10): the defined fields are taken. A reserved `MODE` is discarded (log entry 64). -/
def execClQcfgWrite (r : Requester) (c : Cl) (q : Fin 16) (v : Word) (s : State) : Host.Outcome State Fault Refusal := .next <|
  rowGate s r (.cl c) fun s =>
  if !mayCl s r c.ch c.cl then s
  else if (queue s c.ch c.cl q).isEmpty && !inHandler s c.ch c.cl q && decide (bits v.toNat 0 2 ≠ 3) then
    s.setReg .CL_QCFGn (clLoc c.ch c.cl) q (putBits (v.toNat % 2 ^ 32) 12 4 0)
  else qErr s c.ch c.cl q 0 cCfgIgnored

/-- `CL_HT_WRITE` (R225): reserved bits keep 0. -/
def execClHtWrite (r : Requester) (c : Cl) (n : Fin 256) (v : Word) (s : State) : Host.Outcome State Fault Refusal := .next <|
  rowGate s r (.cl c) fun s =>
  if mayCl s r c.ch c.cl then s.setReg .CL_HTn (clLoc c.ch c.cl) n (v.toNat % 2 ^ 23) else s

end Sys2Proof.Machine
end

