-- ==== Sys2Proof/Machine/Array.lean ====
section
/-! DEFINITION. The tile array and its edge: routing of flits (R42 to R45), credits (R44), the gateway's egress of tokens (R238),
the depot interface (R209, R211). -/

namespace Sys2Proof.Machine

/-! ### Routers -/

/-- The route entry that the head of an input follows: as it stood when the flit came to the head (R57). -/
def entryAt (s : State) (l : Nat) (x : Tile) (p : Nat) (f : Flit) : Nat :=
  (SMap.get? x.latched p).getD (s.regN .TL_ROUTEn l f.route.toNat)

/-- Outputs a flit asks for: 0 `n`, 1 `e`, 2 `s`, 3 `w`, 4 the local token queue; the route for the next router, and whether
the entry `e` cannot be used (chapter 3, *Route tables*). -/
def routeEntry (e : Nat) (f : Flit) : List Nat × Nat × Bool :=
  let out := bits e 0 5
  if 2 ≤ f.kind.toNat ∨ ¬ bit e 16 ∨ out = 0 then ([4], f.route.toNat, true)
  else ((List.range 5).filter fun o => bit out o, bits e 8 8, false)

/-- What lies behind an output link of a tile. -/
inductive Behind
  /-- a tile's router input -/
  | tile (t port : Nat)
  /-- a depot interface port, an array port of the gateway -/
  | depot (p : Nat)
  | array (p : Nat)
  deriving DecidableEq, Repr

/-- The neighbour of an output (chapter 3, *The array*). -/
def behind (t out : Nat) : Behind :=
  let row := t / 8
  let col := t % 8
  match out with
  | 0 => if row = 0 then .depot col else .tile (t - 8) 2
  | 1 => if col = 7 then .array (8 + row) else .tile (t + 1) 3
  | 2 => if row = 7 then .depot (8 + col) else .tile (t + 8) 0
  | _ => if col = 0 then .array row else .tile (t - 1) 1

/-- The output can carry a flit: its queue grants a credit, and the OUTPUTS gate is open (R44, R155). -/
def outOpen (s : State) (ch c t out : Nat) : Bool :=
  gateOut s ch c &&
    (match behind t out with
      | .tile t' p => let x := s.tl ch c t'; decide (0 < room8 x.rq x.retR p)
      | .depot p => let k := s.clu ch c; decide (0 < room8 k.dq k.retD p)
      | .array p => let k := s.clu ch c; decide (0 < room8 k.aq k.retA p))

def putOut (s : State) (ch c t out : Nat) (f : Flit) : State :=
  match behind t out with
  | .tile t' p => s.setTl ch c t' fun x => { x with rq := setLst x.rq p (lst x.rq p ++ [f]) }
  | .depot p => s.setClu ch c fun k => { k with dq := setLst k.dq p (lst k.dq p ++ [f]) }
  | .array p => s.setClu ch c fun k => { k with aq := setLst k.aq p (lst k.aq p ++ [f]) }

/-- Inputs of a router that hold a flit with outputs still to be served. -/
def routerHeads (s : State) (ch c t : Nat) : List (Nat × Flit × List Nat × Nat × Bool) :=
  (List.range 5).filterMap fun p =>
    (rqHead s ch c t p).map fun f =>
      let (outs, next, miss) := routeEntry (entryAt s (tlLoc ch c t) (s.tl ch c t) p f) f
      (p, f, outs.filter fun o => !(lst (s.tl ch c t).served p).contains o, next, miss)

/-- An output has carried the head of an input. -/
def markServed (s : State) (ch c t p o : Nat) : State :=
  s.setTl ch c t fun x => { x with served := setLst x.served p (insertN o (lst x.served p)) }

/-- The input an output link grants: the one that locks it, or the next that asks, round-robin (R42, R43). -/
def grantOf (x : Tile) (heads : List (Nat × Flit × List Nat × Nat × Bool)) (o : Nat) : Option (Nat × Flit × Nat) :=
  let want (p : Nat) : Option (Nat × Flit × Nat) :=
    (heads.find? fun h => decide (h.1 = p) && h.2.2.1.contains o).map fun h => (p, h.2.1, h.2.2.2.1)
  match SMap.get? x.lock o with
  | some p => want p
  | none => ((List.range 5).map fun i => (cnt x.ptr o + i) % 5).findSome? want

/-- One output link in a cycle. -/
def routeLink (ch c t : Nat) (heads : List (Nat × Flit × List Nat × Nat × Bool)) (s : State) (o : Nat) : State :=
  let x := s.tl ch c t
  match grantOf x heads o with
  | none => s
  | some (p, f, next) =>
    if !outOpen s ch c t o then s
    else
      let s := putOut s ch c t o { f with route := BitVec.ofNat 8 next }
      let s := s.setTl ch c t fun x =>
        { x with lock := if f.last then SMap.erase x.lock o else SMap.put x.lock o p
                 ptr := if (SMap.get? x.lock o).isSome then x.ptr else setCnt x.ptr o ((p + 1) % 5) }
      markServed s ch c t p o

/-- The local path of an input: no competition, one token queue each. A flit that no entry routes goes there poisoned. -/
def routeLocal (ch c t : Nat) (s : State) (h : Nat × Flit × List Nat × Nat × Bool) : State :=
  let (p, f, outs, next, miss) := h
  let x := s.tl ch c t
  if outs.contains 4 ∧ 0 < room8 x.tq x.retT p then
    let f := if miss then { f with poison := true } else { f with route := BitVec.ofNat 8 next }
    let s := if miss then s.fset Fld.TL_STATUS_ROUTE_MISS (tlLoc ch c t) 0 1 else s
    markServed (s.setTl ch c t fun x => { x with tq := setLst x.tq p (lst x.tq p ++ [f]) }) ch c t p 4
  else s

/-- A head leaves its input once every copy has gone. -/
def routeDone (ch c t : Nat) (s : State) (h : Nat × Flit × List Nat × Nat × Bool) : State :=
  let (p, f, _, _, _) := h
  let (outs, _, _) := routeEntry (entryAt s (tlLoc ch c t) (s.tl ch c t) p f) f
  if outs.all fun o => (lst (s.tl ch c t).served p).contains o then
    rqPop (s.setTl ch c t fun x => { x with served := setLst x.served p [] }) ch c t p
  else s

/-- `FLIT_ROUTE` (R42, R43, R56): one cycle of a tile's router. -/
def execFlitRoute (t : TileId) (s : State) : Host.Outcome State Fault Refusal := .next <|
  let ch := t.c.ch.val
  let c := t.c.cl.val
  let n := t.t.val
  if !arrayClock s ch c then s
  else
    let heads := routerHeads s ch c n
    let s := (List.range 4).foldl (routeLink ch c n heads) s
    let s := heads.foldl (routeLocal ch c n) s
    heads.foldl (routeDone ch c n) s

/-- A credit that comes back. -/
def lessOne (m : SMap Nat) (k : Nat) : SMap Nat := setCnt m k (cnt m k - 1)

/-- `CREDIT_RETURN` (R44). -/
def execCreditReturn (q : CreditQ) (s : State) : Host.Outcome State Fault Refusal := .next <|
  match q with
  | .router t p => s.setTl t.c.ch t.c.cl t.t fun x => { x with retR := lessOne x.retR p }
  | .token t p => s.setTl t.c.ch t.c.cl t.t fun x => { x with retT := lessOne x.retT p }
  | .array c p => s.setClu c.ch c.cl fun k => { k with retA := lessOne k.retA p }
  | .depot c p => s.setClu c.ch c.cl fun k => { k with retD := lessOne k.retD p }
  | .mesh c i => s.setClu c.ch c.cl fun k => { k with retM := lessOne k.retM i }

/-! ### The edge: what waits at a port -/

/-- Flits at an array port (0 to 15) or depot interface port (16 to 31): those a commit has released come first (R282). -/
def portFlits (s : State) (ch c p : Nat) : List Flit :=
  let k := s.clu ch c
  lst k.relq p ++ (if k.shut then [] else if p < 16 then lst k.aq p else lst k.dq (p - 16))

/-- The head of a port's own queue, whatever the gates. -/
def portHead (s : State) (ch c p : Nat) : Option Flit :=
  let k := s.clu ch c
  if p < 16 then (lst k.aq p).head? else (lst k.dq (p - 16)).head?

/-- The head flit of a port's own queue leaves it. -/
def portPop (s : State) (ch c p : Nat) : State :=
  s.setClu ch c fun k =>
    if p < 16 then { k with aq := setLst k.aq p (lst k.aq p).tail, retA := setCnt k.retA p (cnt k.retA p + 1) }
    else { k with dq := setLst k.dq (p - 16) (lst k.dq (p - 16)).tail, retD := setCnt k.retD (p - 16) (cnt k.retD (p - 16) + 1) }

/-- `n` flits taken from a port, released ones first. -/
def portTake : Nat → State → Nat → Nat → Nat → State
  | 0, s, _, _, _ => s
  | n + 1, s, ch, c, p =>
    let q := lst (s.clu ch c).relq p
    portTake n (if q.isEmpty then portPop s ch c p
      else s.setClu ch c fun k => { k with relq := setLst k.relq p q.tail }) ch c p

/-- A speculative flit at the head of a port: its take was squashed or its slot is closed and it is discarded (R60, R89), or it enters
the pen, or it waits for an entry (R278, R279). -/
def penFlit (s : State) (ch c p : Nat) (f : Flit) : Option State :=
  let k : Fin 4 := f.take.toFin
  if f.gone || !takeOpen s ch c k then some (portPop s ch c p)
  else if penFull s ch c then none
  else some (progress (penPut (portPop s ch c p) ch c k (.flit p f)) ch c)

/-- A port's flits are dropped with an error of its egress entry. -/
def egressDrop (s : State) (ch c p n q route code : Nat) : State := qErr (portTake n s ch c p) ch c q route code

/-! ### Egress entries (Table 10-6) -/

def egValid (e : Nat) : Bool := bit e 0
def egType (e : Nat) : Nat := bits e 1 3
def egPkg (e : Nat) : Nat := bits e 4 16
def egCh (e : Nat) : Nat := bits e 20 2
def egCl (e : Nat) : Nat := bits e 22 7
def egLow4 (e : Nat) : Nat := bits e 29 4

def egQueueTy : Nat := 1
def egWriteTy : Nat := 2
def egBufferTy : Nat := 3
def egSyncTy : Nat := 4

/-- Bytes of a token in lane order, marked where a flit of it is poisoned. -/
def tokenBytes (t : List Flit) : List DByte :=
  (t.map fun f => (leBytes 32 f.payload.toNat).map fun b => (b, f.poison)).flatten

/-- A message of a tile for a queue of its own cluster: enqueued in the queue's turn (R229), refused (R227), or left waiting at its
port (R230). -/
def egressOwn (s : State) (ch c : Nat) (r : Req) (h : Nat) (b : List DByte) : Option State :=
  let q := qaQueue r.tga
  let code := deliverCode s ch r.fn r.tga
  if code ≠ 0 then some (finish (refusedBy (dropCount s ch c q) ch r.fn code r.tga) ch r code [])
  else if 32 ≤ (queue s ch c q).length ∨ ¬ queueTurn s ch c q 9 (inputWants s ch c q) then none
  else some (finish (enqueue (queueTook s ch c q 9) ch c q h b) ch r 0 [])

/-- A packet of a tile whose target is its own cluster, or an edge router attached there. -/
def egressHere (s : State) (ch c : Nat) (r : Req) : Option State :=
  if remoteReq s ch r then
    let site := (s.flow ch (routeOf s ch r.fn r.tga).1).home
    let k := (attached site).findIdx fun e => decide (e = c)
    if edgeTurn s ch site k then
      some (ctIssue (s.setChan ch fun x => { x with portPtr := setCnt x.portPtr (3 * site + 2) ((k + 1) % 4) }) ch r)
    else none
  else match r.op with
    | .flit p f => if room8 (s.clu ch c).dq (s.clu ch c).retD p = 0 then none else some (flitArrive s ch c r p f)
    | .msg h b =>
      if tgaCl r.tga < 96 then egressOwn s ch c r h b
      else if !collPort r.tga then some (finish s ch r cUnitAbsent [])
      else if 64 ≤ (s.ct ch).collq.length then none
      else some s
    | _ => some (moveReq s ch r.no (targetPlace r.tga))

/-- What an egress entry made of a token leaves for its target if it can: a write or a packet for another channel needs a
transaction table entry (R191), its first hop needs room. Answers none while it cannot leave. -/
def egressLeave (s : State) (ch c : Nat) (r : Req) (entry : Bool) : Option State :=
  if entry && !ttFree s ch c then none
  else
    let no := (s.chan ch).nextNo
    let d? := meshDest s ch c r
    let r := { r with no := no, entry := entry, dest := d?.getD c, place := .mesh c 8
                      port := if tgaSpace r.tga = 0 then nearest c (siteOf s ch r) else 0 }
    let s' := pushReq s ch r
    let s' := if entry then ttMark s' ch else s'
    match d? with
    | none => some (finish s' ch r (routeOf s ch r.fn r.tga).2 [])
    | some d => match stepToward c d with
      | some (k, i) => if meshRoom s ch k i < beats s ch r then none else some (moveReq s' ch no (.mesh k i))
      | none => egressHere s' ch c r

/-- The request of a token's egress entry. -/
def egressReq (s : State) (ch c route a : Nat) (op : ROp) (cls : Nat) : Req :=
  { ret := .egress c route, fn := clFn s ch c, epoch := epochOf s ch, cl := c, tga := a, op := op, cls := cls, place := .table }

/-- The queue address that a QUEUE entry names. -/
def egQaddr (e : Nat) : Nat := mkQaddr (egPkg e) (egCh e) (egCl e) (bits e 33 2) (bits e 35 8) (egLow4 e)

/-- A token at a QUEUE entry: one message (R238, R227); the WRITES gate holds one for another channel (R159). -/
def egressMsg (s : State) (ch c p route e : Nat) (t : List Flit) : Option State :=
  let a := egQaddr e
  let body := tokenBytes t
  let fn := clFn s ch c
  let code := sendCode s ch fn a body
  if code ≠ 0 then some (egressDrop (refusedBy s ch fn code a) ch c p t.length (egLow4 e) route code)
  else if !isOwn s ch a && !gateWr s ch c then none
  else
    let seq := cnt (s.clu ch c).seqs (2 + route)
    let h := mkHdr (bits e 33 2) (bits e 35 8) (body.length / 8) (t.any Flit.poison) true 0 c ch (ownPkg s) seq
    let r := egressReq s ch c route a (.msg h body) (if isOwn s ch a then 1 else 2)
    (egressLeave s ch c r (!isOwn s ch a)).map fun s =>
      portTake t.length (s.setClu ch c fun k => { k with seqs := setCnt k.seqs (2 + route) ((seq + 1) % 2 ^ 16) }) ch c p

/-- A token at a WRITE entry (R238). -/
def egressWrite (s : State) (ch c p route e : Nat) (t : List Flit) : Option State :=
  let n := cnt (s.clu ch c).tokens route
  let off := bits e 23 38 * 64 + 64 * n
  let a := mkTga (egPkg e) (egCh e) (bits e 22 1) off
  let bs := tokenBytes t
  let fn := clFn s ch c
  let s1 := s.setClu ch c fun k => { k with tokens := setCnt k.tokens route (n + 1) }
  let code := if 2 ^ 44 ≤ off + bs.length then cUnitAbsent else accessCode s ch fn true a bs.length
  if code ≠ 0 then some (egressDrop (refusedBy s1 ch fn code a) ch c p t.length 0 route code)
  else if !gateWr s ch c then none
  else
    let r := egressReq s ch c route a (.write bs) (if isOwn s ch a then 1 else 2)
    (egressLeave s1 ch c r (!ownDepot s ch r)).map fun s => portTake t.length s ch c p

/-- A flit at a BUFFER entry (R238). -/
def egressBuffer (s : State) (ch c p route e : Nat) (f : Flit) : Option State :=
  if egPkg e ≠ ownPkg s ∨ egCh e ≠ ch ∨ 96 ≤ egCl e then some (egressDrop s ch c p 1 0 route cUnitAbsent)
  else if !gateWr s ch c then none
  else
    let a := mkTga (egPkg e) ch 1 (egCl e * 2 ^ 22)
    let f := { f with route := BitVec.ofNat 8 (bits e 33 8) }
    (egressLeave s ch c (egressReq s ch c route a (.flit (egLow4 e) f) 1) false).map fun s => portTake 1 s ch c p

/-- The operation of a `SIG` flit (R85). -/
def sigOp (f : Flit) : Option SOp :=
  match bits f.payload.toNat 0 4 with
  | 1 => some .arv
  | 2 => some .add
  | 3 => some .set
  | _ => none

/-- The sync object that a SYNC entry names (R242). -/
def egSync (s : State) (ch c e : Nat) : Nat :=
  let i := bits e 22 16
  match clFn s ch c with
  | some g => recSyncBase (s.fnrec (if egPkg e = ownPkg s then egCh e else ch) g) + i
  | none => i

/-- A `SIG` token at a SYNC entry (R85, R238, R257): `parts` tells the unit that it is poisoned. One for another channel waits for what
the gateway took before it (R139 item 5). -/
def egressSync (s : State) (ch c p route e : Nat) (f : Flit) : Option State :=
  let fn := clFn s ch c
  let o := egSync s ch c e
  let a := mkTga (egPkg e) (egCh e) 2 (8 * o)
  let n := bits f.payload.toNat 16 16
  let code := syncCode s ch fn a
  match sigOp f with
  | none => some (egressDrop s ch c p 1 0 route cCfgIgnored)
  | some op =>
    if code ≠ 0 then some (syncErr (refusedBy (portTake 1 s ch c p) ch fn code a) ch code o)
    else
      let own := isOwn s ch a
      let r := { egressReq s ch c route a (.sync op n) (if own then 1 else 2) with parts := if f.poison then [1] else [] }
      if own then some (progress (portTake 1 (pushReq s ch { r with place := .bank }) ch c p) ch c)
      else if !gateWr s ch c || releaseWaits s ch { r with no := (s.chan ch).nextNo } then none
      else (egressLeave s ch c r true).map fun s => portTake 1 s ch c p

/-- The flits of the first complete token of a port. -/
def firstToken (q : List Flit) : Option (List Flit) := (findIdx? Flit.last q).map fun i => q.take (i + 1)

/-- A speculative flit heads a port's own queue, and nothing released comes before it. -/
def specHead (s : State) (ch c p : Nat) : Option Flit :=
  if (lst (s.clu ch c).relq p).isEmpty then (portHead s ch c p).filter Flit.spec else none

/-- What the gateway makes of the head of an array port (R50, R60, R238); none while it waits or has nothing. -/
def egressTry (s : State) (ch c p : Nat) : Option State :=
  match specHead s ch c p with
  | some f => penFlit s ch c p f
  | none =>
    match portFlits s ch c p with
    | [] => none
    | f :: l =>
      let route := f.route.toNat
      let e := s.regN .CL_EGn (clLoc ch c) route
      let ty := egType e
      let bad := !egValid e || decide (ty = 0 ∨ 4 < ty) || (decide (f.kind.toNat = 1) != decide (ty = egSyncTy))
      if bad then some (egressDrop s ch c p 1 0 route cCfgIgnored)
      else if !gateOut s ch c then none
      else if ty = egBufferTy then egressBuffer s ch c p route e f
      else if ty = egSyncTy then egressSync s ch c p route e f
      else (firstToken (f :: l)).bind fun t =>
        if ty = egQueueTy then egressMsg s ch c p route e t else egressWrite s ch c p route e t

/-- No array port before this one, in the gateway's turn, can be served (R43). -/
def arrayTurn (s : State) (ch c p : Nat) : Bool :=
  (((List.range 16).map fun i => ((s.clu ch c).arrPtr + i) % 16).takeWhile (· ≠ p)).all fun q => (egressTry s ch c q).isNone

/-- `EGRESS_TOKEN` (R43, R237, R238, R50, R60). -/
def execEgressToken (c : Cl) (port : Fin 16) (s : State) : Host.Outcome State Fault Refusal := .next <|
  let ch := c.ch.val
  let n := c.cl.val
  if !arrayClock s ch n || !arrayTurn s ch n port then s
  else match egressTry s ch n port with
    | none => s
    | some s => s.setClu ch n fun k => { k with arrPtr := (port.val + 1) % 16 }

/-- An array port heads with a whole message for a queue of the own cluster that the queue would take. -/
def arrayWants (s : State) (ch c q : Nat) : Bool :=
  arrayClock s ch c && gateOut s ch c && (List.range 16).any fun p =>
    (specHead s ch c p).isNone && (match portFlits s ch c p with
      | [] => false
      | f :: l =>
        let e := s.regN .CL_EGn (clLoc ch c) f.route.toNat
        let a := egQaddr e
        egValid e && decide (egType e = egQueueTy ∧ f.kind.toNat ≠ 1 ∧ egCl e = c ∧ egLow4 e = q) && isOwn s ch a &&
          (match firstToken (f :: l) with
            | some t => decide (sendCode s ch (clFn s ch c) a (tokenBytes t) = 0)
            | none => false) && decide (deliverCode s ch (clFn s ch c) a = 0))

/-! ### Arrival at a queue -/

/-- The arrival at a gateway input judged: it waits for its turn at its queue (R229). -/
def arrivalRow (s : State) (ch c inp : Nat) (held : Bool) : State :=
  match arrived s ch c inp held with
  | none => s
  | some (r, h, b) =>
    let q := qaQueue r.tga
    if deliverCode s ch r.fn r.tga ≠ 0 ∨ 32 ≤ (queue s ch c q).length then deliver s ch c inp r h b
    else if queueTurn s ch c q inp fun i => if i = 9 then arrayWants s ch c q else inputWants s ch c q i then
      queueTook (deliver s ch c inp r h b) ch c q inp
    else s

/-- `QUEUE_ARRIVAL` (R227, R230). -/
def execQueueArrival (c : Cl) (inp : Fin 9) (s : State) : Host.Outcome State Fault Refusal := .next <|
  arrivalRow s c.ch c.cl inp false

/-- `MESSAGE_ENQUEUE_AFTER_WAIT` (R230): nothing changes while its queue is full. -/
def execMessageEnqueueAfterWait (c : Cl) (inp : Fin 9) (s : State) : Host.Outcome State Fault Refusal := .next <|
  arrivalRow s c.ch c.cl inp true

/-! ### The depot interface -/

/-- The buffer that a port and route feed (R209). -/
def portBuffer (s : State) (ch c port route : Nat) : Option Nat :=
  (List.range 32).find? fun n =>
    let a := sbA s ch c n
    decide (sbMode a ≠ mOff ∧ sbProd a = 1 ∧ sbPport a = port ∧ sbProute (sbB s ch c n) = route)

/-- The flit at the head of a depot interface port that its buffer has room for (R209), once the WRITES gate is open (R159). -/
def flitDue (s : State) (ch c port : Nat) : Option (Flit × Nat) :=
  if (specHead s ch c (16 + port)).isSome || !arrayClock s ch c || !gateWr s ch c then none
  else match portFlits s ch c (16 + port) with
    | [] => none
    | f :: _ => (portBuffer s ch c port f.route.toNat).bind fun b => if sbRoom s ch c b then some (f, b) else none

/-- A flit written into its buffer: one the guard holds waits at the port, one it discards advances `FILL` without its bytes
(R299). -/
def flitWrite (s : State) (ch c port : Nat) (f : Flit) (b : Nat) : State :=
  match guardStore s (1, c, port) (fillAt s ch c b) (tokenBytes [f]) with
  | (s, none) => s
  | (s, some (_, n)) => progress (sbAdvance (portTake 1 s ch c (16 + port)) ch c b n) ch c

/-! ### Emission into the array (R211, R213) -/

/-- Flits of one slot that a port emits in a pass. -/
def portTotal (a b port : Nat) : Nat :=
  let tokens := sbSlot a / 64
  if sbDeal b then
    let ps := (List.range 16).filter fun i => bit (sbCmask a) i
    2 * ((tokens + ps.length - 1 - ps.findIdx (fun i => decide (i = port))) / ps.length)
  else 2 * tokens

/-- Slot flit number of the j-th flit a port emits. -/
def portFlitNo (a b port j : Nat) : Nat :=
  if sbDeal b then
    let ps := (List.range 16).filter fun i => bit (sbCmask a) i
    2 * ((j / 2) * ps.length + ps.findIdx (fun i => decide (i = port))) + j % 2
  else j

/-- The port has flits of the buffer's present slot and pass to emit. -/
def portWants (s : State) (ch c port n : Nat) : Bool :=
  let a := sbA s ch c n
  let x := sbuf s ch c n
  bit (sbCmask a) port && decide (sbMode a ≠ mOff) &&
    (if x.stopped.isSome then decide (cnt x.sent port % 2 = 1)
     else sbHead s ch c n && decide (cnt x.sent port < portTotal a (sbB s ch c n) port))

/-- The buffer a port emits from: the one it is part-way through, or the next eligible round-robin. -/
def portChoice (s : State) (ch c port : Nat) : Option Nat :=
  let mid := (List.range 32).find? fun n => portWants s ch c port n && decide (0 < cnt (sbuf s ch c n).sent port)
  mid <|> (((List.range 32).map fun i => (cnt (s.clu ch c).portBuf port + i) % 32).find? fun n => portWants s ch c port n)

/-- Every port has emitted its last flit of the pass. -/
def passDone (s : State) (ch c n : Nat) : Bool :=
  let a := sbA s ch c n
  let b := sbB s ch c n
  (List.range 16).all fun p => !bit (sbCmask a) p || decide (portTotal a b p ≤ cnt (sbuf s ch c n).sent p)

/-- The pass or the slot ends. -/
def emitEnd (s : State) (ch c n : Nat) : State :=
  let x := sbuf s ch c n
  if x.stopped.isSome then
    if x.sent.isEmpty then setSbuf s ch c n fun x => { x with stopped := none } else s
  else if !passDone s ch c n then s
  else if sbMode (sbA s ch c n) = mHalves ∧ x.pass < sbPasses (sbB s ch c n) then
    setSbuf s ch c n fun x => { x with pass := x.pass + 1, sent := [] }
  else sbRelease s ch c n

/-- The input of the tile array that a depot interface port feeds. -/
def portInput (port : Nat) : Nat × Nat := if port < 8 then (port, 0) else (56 + (port - 8), 2)

/-- The buffer of which a port may emit a flit now (R211, R44). -/
def emitDue (s : State) (ch c port : Nat) : Option Nat :=
  let (t, q) := portInput port
  let x := s.tl ch c t
  if arrayClock s ch c && gateOut s ch c && decide (room8 x.rq x.retR q ≠ 0) then portChoice s ch c port else none

/-- Address of the next 32 bytes that a port emits of a buffer. -/
def emitAt (s : State) (ch c port n : Nat) : Nat :=
  depotAt ch c (drainBase s ch c n + 32 * portFlitNo (sbA s ch c n) (sbB s ch c n) port (cnt (sbuf s ch c n).sent port))

/-- A port's next flit, of a buffer (R211, R217, R218). -/
def emitFlit (s : State) (ch k port n : Nat) : State :=
  let (t, q) := portInput port
  let y := sbuf s ch k n
  let j := cnt y.sent port
  let bs := s.readMem (emitAt s ch k port n) 32
  let slot : Option (Fin 4) :=
    match y.stopped with
    | some m => some m
    | none => if headMarked s ch k n then some (Fin.ofNat 4 (s.fget Fld.CL_SBn_STAT_MARK (clLoc ch k) n)) else none
  let odd := decide (j % 2 = 1)
  let f : Flit :=
    { payload := BitVec.ofNat 256 (dNat bs), route := BitVec.ofNat 8 (sbRoute (sbB s ch k n)), last := odd, half := odd
      take := BitVec.ofNat 2 (slot.elim 0 Fin.val), spec := slot.isSome, poison := anyPsn bs, kind := 0#2, gone := y.stopped.isSome }
  let s := s.setTl ch k t fun x => { x with rq := setLst x.rq q (lst x.rq q ++ [f]) }
  let s := setSbuf s ch k n fun y =>
    { y with sent := if y.stopped.isSome then SMap.erase y.sent port else SMap.put y.sent port (j + 1) }
  let s := s.setClu ch k fun y => { y with portBuf := setCnt y.portBuf port ((n + 1) % 32) }
  districtBusy (emitEnd s ch k n) ch (clDistrict k)

end Sys2Proof.Machine
end

