-- ==== Sys2Proof/Machine/Bank.lean ====
section
/-! DEFINITION. The turn of a depot bank over its requesters (R177), and the commands by which each of them is served there: depot
interface ports (R209, R211), stewards, dolly, gateway, siding engine (R268). -/

namespace Sys2Proof.Machine

/-- Bank of a depot address. -/
def bankOf (a : Nat) : Nat := a / 128 % 32

/-- A steward's own access to its depot by TGA: 0 and 1 the stewards. -/
def Req.bySteward (r : Req) (c : Nat) : Option Nat :=
  if r.entry ∨ r.cl ≠ c then none
  else match r.ret with
    | .posted w | .load w _ => some (w % 2)
    | _ => none

/-- The oldest request that passes a test and waits at a bank, with its block. -/
def bankReq (s : State) (ch c bank : Nat) (p : Req → Bool) : Option (Req × Nat) :=
  (s.chan ch).reqs.findSome? fun r =>
    if r.place = .depot c ∧ p r then
      ((depotBlocks r).find? fun b => decide (b % 32 = bank) && !r.parts.contains b &&
        !behindOwn s ch r 128 (b - tgaMem r.tga / 128 + tgaOff r.tga / 128) fun q => q.parts.contains b).map fun b => (r, b)
    else none

/-- A steward's request that waits at a bank, steward 0 first. -/
def bankStw (s : State) (ch c bank : Nat) : Option (Req × Nat) :=
  bankReq s ch c bank (fun r => decide (r.bySteward c = some 0)) <|> bankReq s ch c bank (fun r => decide (r.bySteward c = some 1))

/-- A burst requester waits at a bank: 0 to 15 the depot interface ports, 16 the dolly, 17 the gateway, 18 the siding engine. -/
def burstWaits (s : State) (ch c bank src : Nat) : Bool :=
  if src < 16 then
    (match flitDue s ch c src with | some (_, b) => decide (bankOf (fillAt s ch c b) = bank) | none => false) ||
      (match emitDue s ch c src with | some n => decide (bankOf (emitAt s ch c src n) = bank) | none => false)
  else if src = 16 then (bankReq s ch c bank fun r => r.byDolly c).isSome
  else if src = 17 then (bankReq s ch c bank fun r => !r.byDolly c && (r.bySteward c).isNone).isSome
  else (match engineNext s ch c with | some q => decide (engineBank s ch c q = bank) | none => false)

/-- The burst requester whose turn it is at a bank (R177 item 3). -/
def burstTurn (s : State) (ch c bank : Nat) : Option Nat :=
  let p := cnt (s.clu ch c).bankPtr bank
  ((List.range 19).map fun i => (p + i) % 19).find? (burstWaits s ch c bank)

/-- It is a burst requester's turn at a bank: no repair copy runs there (R480) and no steward waits. -/
def bankTurn (s : State) (ch c bank src : Nat) : Bool :=
  !depotCopying s ch c bank && (bankStw s ch c bank).isNone && decide (burstTurn s ch c bank = some src)

/-- The turn passes on. -/
def bankTook (s : State) (ch c bank src : Nat) : State :=
  s.setClu ch c fun k => { k with bankPtr := setCnt k.bankPtr bank ((src + 1) % 19) }

/-- A port's burst at a bank: the flit it writes, else the one it emits. -/
def portBurst (s : State) (ch c bank port : Nat) : State :=
  match (flitDue s ch c port).filter fun x => decide (bankOf (fillAt s ch c x.2) = bank) with
  | some (f, b) => flitWrite s ch c port f b
  | none => match emitDue s ch c port with
    | some n => emitFlit s ch c port n
    | none => s

/-- `DEPOT_BANK_GRANT` (R177): a waiting steward request first, then the bursts in turn; none while a repair copy runs (R480). -/
def execDepotBankGrant (c : Cl) (bank : Fin 32) (s : State) : Host.Outcome State Fault Refusal := .next <|
  let ch := c.ch.val
  let n := c.cl.val
  if depotCopying s ch n bank then s
  else match bankStw s ch n bank with
  | some (r, b) => bankGrant s ch n r b
  | none => match burstTurn s ch n bank with
    | none => s
    | some src =>
      let s := bankTook s ch n bank src
      if src < 16 then portBurst s ch n bank src
      else if src = 18 then engineCycle s ch n
      else match bankReq s ch n bank fun r => (r.bySteward n).isNone && (r.byDolly n == decide (src = 16)) with
        | some (r, b) => bankGrant s ch n r b
        | none => s

/-- `DEPOT_INTERFACE_FLIT` (R209, R50, R159): a flit of a take goes to the pen and one of no buffer is discarded; any other is written
when its bank's turn has come to the port. -/
def execDepotInterfaceFlit (c : Cl) (port : Fin 16) (s : State) : Host.Outcome State Fault Refusal := .next <|
  let ch := c.ch.val
  let n := c.cl.val
  if !arrayClock s ch n then s
  else match specHead s ch n (16 + port), portFlits s ch n (16 + port) with
    | some f, _ => (penFlit s ch n (16 + port) f).getD s
    | none, [] => s
    | none, f :: _ =>
      if (portBuffer s ch n port f.route.toNat).isNone then sbErr (portTake 1 s ch n (16 + port)) ch n 0 cCfgIgnored
      else match flitDue s ch n port with
        | none => s
        | some (f, b) =>
          let bank := bankOf (fillAt s ch n b)
          if bankTurn s ch n bank port then flitWrite (bankTook s ch n bank port) ch n port f b else s

/-- `DEPOT_PORT_EMIT` (R211, R217, R218): the port's next flit, of the buffer it serves, when the bank's turn has come to it. -/
def execDepotPortEmit (c : Cl) (port : Fin 16) (n : Fin 32) (s : State) : Host.Outcome State Fault Refusal := .next <|
  let ch := c.ch.val
  let k := c.cl.val
  if emitDue s ch k port ≠ some n.val then s
  else
    let bank := bankOf (emitAt s ch k port n)
    if bankTurn s ch k bank port then emitFlit (bankTook s ch k bank port) ch k port n else s

/-- `SIDING_ENGINE_CYCLE` (R266, R268): the engine's next unit, when its bank's turn has come to the engine. -/
def execSidingEngineCycle (c : Cl) (s : State) : Host.Outcome State Fault Refusal := .next <|
  let ch := c.ch.val
  let n := c.cl.val
  match engineNext s ch n with
  | none => s
  | some q =>
    let bank := engineBank s ch n q
    if bankTurn s ch n bank 18 then engineCycle (bankTook s ch n bank 18) ch n else s

end Sys2Proof.Machine
end

