-- ==== Sys2Proof/Machine/SBuf.lean ====
section
/-! DEFINITION. Commands of the stream buffers (R203, R204, R210 to R215). -/

namespace Sys2Proof.Machine

/-- The requester may act on the cluster's block: then the command runs. -/
def sbGuard (r : Requester) (c : Cl) (s : State) (f : State → State) : State :=
  if mayCl s r c.ch c.cl then f s else s

/-- A buffer's words as they are or will be in force. -/
def sbWordsOf (s : State) (ch c n : Nat) : List (Nat × Nat) :=
  (sbA s ch c n, sbB s ch c n) :: (sbuf s ch c n).pend.toList

/-- A configuration clashes with another buffer's (R202). -/
def sbClashes (s : State) (ch c n a b : Nat) : Bool :=
  (List.range 32).any fun m => decide (m ≠ n) && (sbWordsOf s ch c m).any fun w => sbClash a b w.1 w.2

/-- `CL_SB_CTRL_COMMIT` (R203). -/
def execClSbCtrlCommit (r : Requester) (c : Cl) (n : Fin 32) (s : State) : Host.Outcome State Fault Refusal := .next <|
  rowGate s r (.cl c) fun s =>
  sbGuard r c s fun s =>
    let l := clLoc c.ch c.cl
    let a := s.regN .CL_SBn_CFGA l n
    let b := s.regN .CL_SBn_CFGB l n
    if !sbWordsOk a b || sbClashes s c.ch c.cl n a b then sbErr s c.ch c.cl n cCfgIgnored
    else if !sbSyncOk s c.ch (clFn s c.ch c.cl) a b then sbErr s c.ch c.cl n cRptViolation
    else setSbuf (s.fset Fld.CL_SBn_STAT_PENDING l n 1) c.ch c.cl n fun x => { x with pend := some (a, b) }

/-- `SB_CONFIG_APPLY` (R204). -/
def execSbConfigApply (c : Cl) (n : Fin 32) (s : State) : Host.Outcome State Fault Refusal := .next <|
  match (sbuf s c.ch c.cl n).pend with
  | none => s
  | some (a, b) => if sbIdle s c.ch c.cl n && clocked s c.ch c.cl then sbApply s c.ch c.cl n a b else s

/-- `CL_SB_CTRL_SWAP` (R213). -/
def execClSbCtrlSwap (r : Requester) (c : Cl) (n : Fin 32) (s : State) : Host.Outcome State Fault Refusal := .next <|
  rowGate s r (.cl c) fun s =>
  sbGuard r c s fun s =>
    if sbMode (sbA s c.ch c.cl n) = mHalves then s.fset Fld.CL_SBn_STAT_SWAPREQ (clLoc c.ch c.cl) n 1
    else sbErr s c.ch c.cl n cCfgIgnored

/-- The halves swap (R213). -/
def sbSwapNow (s : State) (ch c n : Nat) : State :=
  let l := clLoc ch c
  let h := fHalf s ch c n
  let s := (s.fset Fld.CL_SBn_STAT_FHALF l n (1 - h)).fset Fld.CL_SBn_STAT_SWAPREQ l n 0
  setSbuf (setFill s ch c n 0) ch c n fun x => { x with filled := false, full := true, pass := 0, sent := [] }

/-- `SB_SWAP` (R213). -/
def execSbSwap (c : Cl) (n : Fin 32) (s : State) : Host.Outcome State Fault Refusal := .next <|
  let a := sbA s c.ch c.cl n
  let x := sbuf s c.ch c.cl n
  if sbMode a = mHalves ∧ (sbAuto a ∨ s.fbit Fld.CL_SBn_STAT_SWAPREQ (clLoc c.ch c.cl) n) ∧ x.filled ∧ ¬ x.full ∧
      clocked s c.ch c.cl then sbSwapNow s c.ch c.cl n
  else s

/-- Stores of a steward that have not been performed yet. -/
def storesLeft (s : State) (ch w : Nat) : Bool :=
  (s.chan ch).reqs.any fun r => decide (r.ret = .posted w ∧ r.place ≠ .done)

/-- A publish takes effect, or is discarded (R210). -/
def sbPubNow (s : State) (ch c n : Nat) : State :=
  let a := sbA s ch c n
  if sbMode a ≠ mOff ∧ sbProd a = 2 ∧ sbRoom s ch c n ∧ ¬ sbMarked s ch c n then sbPublish s ch c n
  else sbErr s ch c n cCfgIgnored

/-- The steward whose earlier stores a command of it has to let go first (R139), or its earlier publishes. -/
def sbBehind (s : State) (ch : Nat) : Requester → Option StwId
  | .stw w =>
    if w.c.ch.val = ch ∧ (storesLeft s ch (stwNo w.c.cl w.w) ∨ ((s.clu ch w.c.cl).sbDue.any fun d => decide (d.w = w.w.val)) = true) then some w
    else none
  | _ => none

/-- A steward's publish or signal waits for its earlier stores. -/
def sbWait (s : State) (w : StwId) (c n : Nat) (pub : Bool) : State :=
  s.setClu w.c.ch w.c.cl fun k => { k with sbDue := k.sbDue ++ [⟨w.w, (s.chan w.c.ch).nextNo, c, n, pub⟩] }

/-- `CL_SB_CTRL_PUB` (R210): a steward's publish takes effect once every earlier store of it is performed. -/
def execClSbCtrlPub (r : Requester) (c : Cl) (n : Fin 32) (s : State) : Host.Outcome State Fault Refusal := .next <|
  rowGate s r (.cl c) fun s =>
  sbGuard r c s fun s =>
    match sbBehind s c.ch r with
    | some w => sbWait s w c.cl n true
    | none => sbPubNow s c.ch c.cl n

/-- `CL_SB_CTRL_REL` (R212); the signal of a steward's release follows its earlier stores (R216). -/
def execClSbCtrlRel (r : Requester) (c : Cl) (n : Fin 32) (s : State) : Host.Outcome State Fault Refusal := .next <|
  rowGate s r (.cl c) fun s =>
  sbGuard r c s fun s =>
    if sbHead s c.ch c.cl n ∧ sbCmask (sbA s c.ch c.cl n) = 0 then
      match sbBehind s c.ch r with
      | some w =>
        if sbRsig (sbB s c.ch c.cl n) ∧ ¬ headMarked s c.ch c.cl n then sbWait (sbReleased s c.ch c.cl n) w c.cl n false
        else sbRelease s c.ch c.cl n
      | none => sbRelease s c.ch c.cl n
    else sbErr s c.ch c.cl n cCfgIgnored

/-- What waited for a steward's earlier stores acts. -/
def sbDueAct (ch : Nat) (s : State) (d : SbDue) : State :=
  if clFenced s ch d.cl then s
  else if d.pub then sbPubNow s ch d.cl d.buf
  else signalAdd s ch 1 d.cl d.buf (sbRsync (sbB s ch d.cl d.buf))

/-- The publishes and signals of a steward whose earlier stores are all performed take effect, in their order (R139, R210, R216). -/
def sbDueRun (s : State) (ch c w : Nat) : State :=
  let left (d : SbDue) : Bool := (s.chan ch).reqs.any fun r => decide (r.ret = .posted (stwNo c w) ∧ r.place ≠ .done ∧ r.no < d.no)
  let go := (s.clu ch c).sbDue.filter fun d => decide (d.w = w) && !left d
  if go.isEmpty then s
  else go.foldl (sbDueAct ch) (s.setClu ch c fun k => { k with sbDue := k.sbDue.filter fun d => !go.contains d })

/-- `CL_SB_CTRL_FLUSH` (R214). -/
def execClSbCtrlFlush (r : Requester) (c : Cl) (n : Fin 32) (s : State) : Host.Outcome State Fault Refusal := .next <|
  rowGate s r (.cl c) fun s =>
  sbGuard r c s fun s =>
    if (sbMode (sbA s c.ch c.cl n) ≠ mOff ∧ sbProd (sbA s c.ch c.cl n) = 2) ∨ sbNamed s c.ch c.cl n then sbErr s c.ch c.cl n cCfgIgnored
    else if sbFill s c.ch c.cl n = 0 ∨ ¬ sbRoom s c.ch c.cl n then s
    else sbPublish s c.ch c.cl n

end Sys2Proof.Machine
end

