-- ==== Sys2Proof/Machine/Dolly.lean ====
section
/-! DEFINITION. Dolly descriptors (R129, R189, R190, R197, R206 to R208, R566): start, requests, returned data, completion. -/

namespace Sys2Proof.Machine

/-! ### A descriptor (Table 6-6) -/

def DSlot.sig (d : DSlot) : Bool := bit (d.dw 2) 40
def DSlot.prefetch (d : DSlot) : Bool := bit (d.dw 2) 41
def DSlot.sync (d : DSlot) : Nat := bits (d.dw 2) 48 16

/-- Reserved fields, or a length of 0 (R129). -/
def DSlot.malformed (d : DSlot) : Bool :=
  decide (3 < d.kind ∨ d.len = 0 ∨ bits (d.dw 2) 42 6 ≠ 0 ∨ d.dw 3 ≠ 0 ∨ (d.kind = 3 ∧ d.dst / 64 ≠ 0))

def dSlot? (s : State) (ch c n : Nat) : Option DSlot := SMap.get? (s.clu ch c).slots n

def setSlot (s : State) (ch c n : Nat) (f : DSlot → DSlot) : State :=
  s.setClu ch c fun k => { k with slots := k.slots.map fun p => if p.1 = n then (p.1, f p.2) else p }

/-- The destination is the issuing cluster's depot (R286). -/
def ownDepotTga (s : State) (ch c a : Nat) : Bool := isOwn s ch a && decide (tgaSpace a = 1 ∧ tgaCl a = c)

/-- The checks of a whole range before a byte of it moves (R172, R174, R175, R189); of HBM of this package the size counts too. -/
def rangeCode (s : State) (ch : Nat) (fn : Option Nat) (write : Bool) (a len : Nat) : Nat :=
  let code := accessCode s ch fn write a len
  if code = 0 ∧ isOwnPkg s a ∧ tgaSpace a = 0 ∧ ¬ offsetOk (some (s.fget Fld.CH_HBMSIZE_SIZE (tgaCh a))) a len then cUnitAbsent
  else code

/-- What a descriptor is refused with before it moves a byte (R129, R189, R206, R286, R34). -/
def startCode (s : State) (ch c : Nat) (d : DSlot) : Nat :=
  let fn := clFn s ch c
  if d.malformed then cCfgIgnored
  else if d.kind = 3 ∧ (sbMode (sbA s ch c d.buf) = mOff ∨ sbProd (sbA s ch c d.buf) ≠ 0 ∨
      (d.take.isSome ∧ sbMode (sbA s ch c d.buf) = mHalves)) then cCfgIgnored
  else if d.egc ∧ ¬ s.fbit Fld.CH_CAPS_EGC_LIVE ch then cUnitAbsent
  else if d.take.isSome ∧ d.kind ≠ 3 ∧ ¬ ownDepotTga s ch c d.dst then cCfgIgnored
  else
    let src := if d.kind = 2 then 0 else rangeCode s ch fn false d.src d.len
    if src ≠ 0 then src
    else
      let dst := if d.kind = 0 ∨ d.kind = 2 then rangeCode s ch fn true d.dst d.len else 0
      if dst ≠ 0 then dst
      else if d.kind = 0 ∧ d.src / 2 ^ 44 = d.dst / 2 ^ 44 ∧ d.src < d.dst + d.len ∧ d.dst < d.src + d.len then cCfgIgnored
      else 0

/-- A stream descriptor waits for its turn at its buffer: an earlier one has not completed, or another take's mark stands
(R207, R217). -/
def startWaits (s : State) (ch c : Nat) (d : DSlot) : Bool :=
  decide (d.kind = 3) &&
    ((s.clu ch c).slots.any (fun p => p.2.live && decide (p.2.kind = 3 ∧ p.2.buf = d.buf ∧ p.2.order < d.order)) ||
      (sbMarked s ch c d.buf && decide (d.take.map Fin.val ≠ some (s.fget Fld.CL_SBn_STAT_MARK (clLoc ch c) d.buf))))

/-! ### Into a buffer (R207, R208) -/

/-- Bytes of the lane enter the buffer, the first of a tagged descriptor marking it (R217); the answer tells whether any did, and the
write guard may hold them (R299). -/
def appendPiece (s : State) (ch c n : Nat) (d : DSlot) : State × Bool :=
  let b := d.buf
  let bs := d.lane.take (sbFree s ch c b)
  if bs.isEmpty then (s, false)
  else
    let s := match d.take with
      | some k => if d.put = 0 then sbMark s ch c b k else s
      | none => s
    match guardStore s (2, c, n) (fillAt s ch c b) bs with
    | (s, none) => (s, false)
    | (s, some (code, m)) =>
      let s := setSlot s ch c n fun d =>
        { d with lane := d.lane.drop m, put := d.put + m, skipped := d.skipped || decide (code = cNonfiniteSkip) }
      (sbAdvance (if code = cNone then progress s ch c else s) ch c b m, true)

/-- The lane drains into the buffer as far as it has room; the WRITES gate holds it, but not a preload (R159, R154). -/
def appendLane : Nat → State → Nat → Nat → Nat → State
  | 0, s, _, _, _ => s
  | k + 1, s, ch, c, n =>
    match dSlot? s ch c n with
    | none => s
    | some d =>
      if !gateWr s ch c && decide (d.w ≠ 2) then s
      else match appendPiece s ch c n d with
        | (s, false) => s
        | (s, true) => appendLane k s ch c n

/-! ### The EGC decoder -/

/-- A block fails, or ends the descriptor with a code. -/
def egcStop (s : State) (ch c n code : Nat) : State :=
  let s := if code = cEccUncorrected then s.fadd Fld.CH_EGCSTAT_FAILS ch 0 1 else s
  setSlot s ch c n fun d => { d with code := d.code <|> some code, hold := [] }

/-- One block decoded from the head of the bytes taken in, if it is there whole (R188). Answers whether to go on. -/
def egcStep (s : State) (ch c n : Nat) (d : DSlot) : State × Bool :=
  let all := decide (d.taken = d.len)
  if d.code.isSome || d.hold.isEmpty then (s, false)
  else if d.hold.length < 8 then (if all then egcStop s ch c n cCfgIgnored else s, false)
  else
    let h := dNat (d.hold.take 8)
    let size := 8 + egcElen h
    let left := d.len - d.taken + d.hold.length
    if anyPsn (d.hold.take 8) || !egcHdrOk h (decide (left = size)) && decide (size ≤ left) || decide (egcMode h = 3) then
      (egcStop s ch c n cEccUncorrected, false)
    else if left < size then (egcStop s ch c n cCfgIgnored, false)
    else if d.hold.length < size then (s, false)
    else
      let p := (d.hold.drop 8).take (egcElen h)
      match if anyPsn p then none else egcDecode h (p.map Prod.fst) with
      | none => (egcStop s ch c n cEccUncorrected, false)
      | some bs =>
        let at_ := d.dst + d.put + d.lane.length
        let code := if d.kind = 1 then accessCode s ch (clFn s ch c) true at_ bs.length else 0
        if code ≠ 0 then (refusedBy (egcStop s ch c n code) ch (clFn s ch c) code at_, false)
        else
          let s := pmCount (s.fadd Fld.CH_EGCSTAT_BLOCKS ch 0 1) ch 0x0C c 1
          (setSlot s ch c n fun d => { d with hold := d.hold.drop size, lane := d.lane ++ cleanBytes bs }, true)

/-- Every whole block at hand decoded. -/
def egcRun : Nat → State → Nat → Nat → Nat → State
  | 0, s, _, _, _ => s
  | k + 1, s, ch, c, n =>
    match dSlot? s ch c n with
    | none => s
    | some d => match egcStep s ch c n d with
      | (s, true) => egcRun k s ch c n
      | (s, false) => s

/-- Source bytes taken in, in stream order. -/
def takeData (s : State) (ch c n : Nat) (d : DSlot) (bs : List DByte) : State :=
  let s := setSlot s ch c n fun d =>
    if d.egc then { d with taken := d.taken + bs.length, hold := d.hold ++ bs }
    else { d with taken := d.taken + bs.length, lane := d.lane ++ bs }
  let s := if d.egc then egcRun 65 s ch c n else s
  if d.kind = 3 then appendLane 64 s ch c n else s

/-! ### Requests (R190) -/

/-- The request of a descriptor. -/
def dollyReq (s : State) (ch c n : Nat) (d : DSlot) (a off : Nat) (op : ROp) (wr : Bool) : Req :=
  { ret := .dolly c n off wr, fn := clFn s ch c, epoch := d.epoch, cl := c, tga := a, op := op, cls := ofBit wr,
    prefetch := !wr && d.prefetch, place := .table }

/-- Bytes up to the next 512-byte boundary. -/
def toBound (a : Nat) : Nat := 512 - a % 512

/-- The next write request of a descriptor that has its bytes; in control space a transfer is of no register's width: discarded
and recorded (R6). -/
def dollyWrite (s : State) (ch c n : Nat) (d : DSlot) : Option State :=
  let a := d.dst + d.put
  let m := min (toBound a) (if d.kind = 2 then d.len - d.put else d.lane.length)
  let whole := decide (d.kind = 2 ∨ m = toBound a ∨ d.taken = d.len) || d.code.isSome
  if m = 0 || !whole || (decide (d.kind = 2) && d.code.isSome) then none
  else
    let bs : List DByte := if d.kind = 2 then (List.range m).map fun i => (BitVec.ofNat 8 (bits d.src (8 * ((d.put + i) % 8)) 8), false)
      else d.lane.take m
    let s := setSlot s ch c n fun d => { d with put := d.put + m, lane := d.lane.drop m }
    some (if tgaSpace a = 3 ∧ isOwn s ch a then ctlRefused s .hub a else issueReq s ch (dollyReq s ch c n d a d.put (.write bs) true))

/-- The next read request (R190, R208). -/
def dollyRead (s : State) (ch c n : Nat) (d : DSlot) : State :=
  let a := d.src + d.asked
  let m := min (toBound a) (d.len - d.asked)
  if d.code.isSome || decide (m = 0 ∨ d.kind = 2) || (decide (d.kind = 3) && !sbRoom s ch c d.buf) then s
  else
    let s' := setSlot s ch c n fun d => { d with asked := d.asked + m }
    if tgaSpace a = 3 ∧ isOwn s ch a then takeData (ctlRefused s' .hub a) ch c n d (List.replicate m (0#8, false))
    else issueReq s' ch (dollyReq s ch c n d a d.asked (.read m) false)

/-- A started descriptor does its next thing: drains its lane, writes, or reads. -/
def dollyNext (s : State) (ch c n : Nat) (d : DSlot) : State :=
  if d.kind = 3 then
    if d.lane.isEmpty then dollyRead s ch c n d else appendLane 64 s ch c n
  else match dollyWrite s ch c n d with
    | some s => s
    | none => dollyRead s ch c n d

/-- `DOLLY_REQUEST_ISSUE` (R189, R190). -/
def execDollyRequestIssue (c : Cl) (slot : Fin 64) (s : State) : Host.Outcome State Fault Refusal := .next <|
  let ch := c.ch.val
  let k := c.cl.val
  match dSlot? s ch k slot with
  | none => s
  | some d =>
    if d.complete || d.cancelled || !clocked s ch k then s
    else if d.started then dollyNext s ch k slot d
    else if d.code.isSome || startWaits s ch k d then s
    else
      let code := startCode s ch k d
      if code ≠ 0 then
        setSlot (refusedBy s ch (clFn s ch k) code d.src) ch k slot fun d => { d with code := some code }
      else
        let d := { d with started := true, epoch := epochOf s ch }
        dollyNext (setSlot s ch k slot fun _ => d) ch k slot d

/-- Requests of a slot. -/
def slotReqs (s : State) (ch c n : Nat) : List Req :=
  (s.chan ch).reqs.filter fun r => match r.ret with
    | .dolly c' n' _ _ => decide (c' = c ∧ n' = n)
    | _ => false

/-- Offset of a read request in its descriptor. -/
def Req.off (r : Req) : Nat := match r.ret with | .dolly _ _ o _ => o | _ => 0

/-- `DOLLY_DATA_RETURN` (R199, R188, R200): the next read of the descriptor in stream order has come back. -/
def execDollyDataReturn (c : Cl) (slot : Fin 64) (s : State) : Host.Outcome State Fault Refusal := .next <|
  let ch := c.ch.val
  let k := c.cl.val
  match dSlot? s ch k slot with
  | none => s
  | some d =>
    if !clocked s ch k then s
    else
      let stop := d.cancelled || d.code.isSome
      match (slotReqs s ch k slot).find? fun r => decide (r.place = .done) && (stop || decide (r.off = d.taken)) with
      | none => s
      | some r =>
        let s := dropReq s ch r.no
        if stop then s
        else if codeOk r.code then takeData s ch k slot d r.data
        else if d.egc then takeData s ch k slot d (if r.data.length = r.len then r.data else List.replicate r.len (0#8, true))
        else setSlot s ch k slot fun d => { d with code := some r.code }

/-! ### Completion -/

/-- Nothing of the descriptor is left to do. -/
def slotDone (s : State) (ch c n : Nat) (d : DSlot) : Bool :=
  !d.complete && (slotReqs s ch c n).isEmpty &&
    (d.cancelled || (d.lane.isEmpty && (d.code.isSome || (d.started && d.hold.isEmpty &&
      decide ((d.kind = 2 ∨ d.taken = d.len) ∧ (d.kind ≠ 2 ∨ d.put = d.len))))))

/-- Its completion code (R300, R566). -/
def slotCode (d : DSlot) : Nat :=
  if d.cancelled then cNone else d.code.getD (if d.skipped then cNonfiniteSkip else cNone)

/-- The next preload descriptor of a cluster begins (R154). -/
def startPreload (ch : Nat) (s : State) (c : Nat) : State :=
  match lst (s.load ch).pre c with
  | [] => s
  | d :: ds =>
    let s := s.setLoad ch fun l => { l with pre := setLst l.pre c ds }
    s.setClu ch c fun k => { k with slots := SMap.put k.slots 0 { w := 2, count := 0, collect := false, desc := d } }

/-- `DESCRIPTOR_COMPLETE` (R154, R129, R130, R197, R566). -/
def execDescriptorComplete (c : Cl) (slot : Fin 64) (s : State) : Host.Outcome State Fault Refusal := .next <|
  let ch := c.ch.val
  let k := c.cl.val
  match dSlot? s ch k slot with
  | none => s
  | some d =>
    if !slotDone s ch k slot d || !clocked s ch k then s
    else
      let code := slotCode d
      let s := if d.sig ∧ ¬ d.cancelled then signalAdd s ch 0 k slot d.sync else s
      if d.w = 2 then
        if code ≠ cNone then loadFail s ch code
        else startPreload ch (s.setClu ch k fun y => { y with slots := SMap.erase y.slots slot }) k
      else if d.collect then setSlot s ch k slot fun d => { d with complete := true, code := some code }
      else
        let s := if codeOk code then s else setStw s ch k d.w fun x => { x with dlyerr := recErr x.dlyerr code }
        s.setClu ch k fun y => { y with slots := SMap.erase y.slots slot }

end Sys2Proof.Machine
end

