-- ==== Sys2Proof/Machine/Sync.lean ====
section
/-! DEFINITION. The sync unit's commands (chapter 11): operations and registrations at the banks, parking, poison, the sampling
view, and the pins of `SYNC_OUT` and `SYNC_IN` (R252, R468, R469). -/

namespace Sys2Proof.Machine

/-- Object of a sync request. -/
def Req.obj (r : Req) : Nat := bits r.tga 3 16

def SOp.waits : SOp → Bool
  | .wge | .wait | .arw => true
  | _ => false

/-- Sources whose operations on one object keep their order (R248). -/
def RetTo.syncSource : RetTo → Option (Nat × Nat × Nat)
  | .posted w | .sync w => some (0, w, 0)
  | .egress c n => some (1, c, n)
  | .signal k c n => some (2 + k, c, n)
  | .flow n _ _ => some (5, n, 0)
  | _ => none

/-- An earlier operation of the same source on the same object is still at the bank. -/
def behindSame (s : State) (ch : Nat) (r : Req) : Bool :=
  r.ret.syncSource.isSome && (s.chan ch).reqs.any fun q =>
    decide (q.no < r.no ∧ q.place = .bank ∧ q.obj = r.obj ∧ q.ret.syncSource = r.ret.syncSource)

/-- The OUTPUTS gate of the issuing cluster, which holds its release tree port, is open (R159); a preload's signal passes (R154). -/
def treeOpen (s : State) (ch : Nat) (r : Req) : Bool :=
  decide (96 ≤ r.cl) || gateOut s ch r.cl || (match r.ret with
    | .drop => true
    | .signal 0 c _ => loadOwns s ch c
    | _ => false)

/-- The first request at a bank that may take effect. -/
def bankHead (s : State) (ch bank : Nat) (waits : Bool) : Option (Req × SOp × Nat) :=
  (s.chan ch).reqs.findSome? fun r =>
    match r.op with
    | .sync op n =>
      if r.place = .bank ∧ r.obj % 4 = bank ∧ op.waits = waits ∧ ¬ (op.releases ∧ earlierLeft s ch r) ∧ ¬ behindSame s ch r ∧ treeOpen s ch r then
        some (r, op, n)
      else none
    | _ => none

/-- `SYNC_OPERATION` (R246 to R249, R257). -/
def execSyncOperation (ch : Ch) (bank : Fin 4) (s : State) : Host.Outcome State Fault Refusal := .next <| inChan s ch fun s =>
  match bankHead s ch bank false with
  | none => s
  | some (r, op, n) =>
    let o := r.obj
    let x := s.obj ch o
    if !r.parts.isEmpty then finish (poisonObj s ch o) ch r 0 []
    else match op with
      | .rd =>
        let code := if x.psn then cSyncPoison else if x.kind = okUnbound then cCfgIgnored else 0
        finish s ch r code (dBytes 8 x.val)
      | op =>
        let (s, code) := syncPost s ch o op n
        finish s ch r code []

/-- A waiter that is a steward of the channel. -/
def RetTo.local_ : RetTo → Bool
  | .sync _ => true
  | _ => false

/-- Entries for remote waiters (R253). -/
def remoteMax : Nat := 512

def remoteWaiters (s : State) (ch : Nat) : Nat := (s.chan ch).waiters.countP fun w => !w.who.local_

/-- A registration that the bank answers busy: a die at a gate site or a flow is told so (R253, R432). -/
def busyAnswer (s : State) (ch : Nat) (r : Req) : State :=
  let s := s.fadd Fld.CH_SYNCCNT_RBUSY ch 0 1
  match r.ret with
  | .fdl l tag => sendCmpl (dropReq s ch r.no) (siteLink ch l) tag 0 0 true
  | .flow n _ opid => sendResp (dropReq s ch r.no) ch n opid 0 1 0
  | _ => setReq s ch r.no fun r => { r with place := .busy }

/-- A waiter entered. -/
def addWaiter (s : State) (ch : Nat) (r : Req) (bar : Bool) (thr : Nat) : State :=
  let s := (dropReq s ch r.no).setChan ch fun k => { k with waiters := k.waiters ++ [⟨r.ret, r.obj, bar, thr⟩] }
  match r.ret with
  | .sync w => stwRegistered s ch w
  | _ => s

/-- `WAIT_REGISTRATION` (R250, R253, Table 11-2). -/
def execWaitRegistration (ch : Ch) (bank : Fin 4) (s : State) : Host.Outcome State Fault Refusal := .next <| inChan s ch fun s =>
  match bankHead s ch bank true with
  | none => s
  | some (r, op, n) =>
    let o := r.obj
    let x := s.obj ch o
    let bar := decide (op ≠ .wge)
    if x.psn then finish s ch r cSyncPoison []
    else if x.kind = okUnbound ∨ (bar ∧ x.kind ≠ okBarrier) then finish s ch r cCfgIgnored []
    else if !bar && decide (n ≤ x.val) then finish s ch r 0 (dBytes 8 x.val)
    else if !r.ret.local_ && decide (remoteMax ≤ remoteWaiters s ch) then busyAnswer s ch r
    else
      let s := addWaiter s ch r bar n
      if op = .arw then arrive s ch o 1 else s

/-- `REMOTE_WAIT_RETRY` (R253): a registration answered busy is sent again. -/
def execRemoteWaitRetry (ch : Ch) (s : State) : Host.Outcome State Fault Refusal := .next <| inChan s ch fun s =>
  match (s.chan ch).reqs.find? fun r => decide (r.place = .busy) with
  | none => s
  | some r => if remoteReq s ch r then ctIssue s ch r else setReq s ch r.no fun r => { r with place := .bank }

/-- The wait of a steward has passed its wait point at an object under LEND: of its own channel, or of another to which its request
has gone. The command itself tells that `THRESH` cycles have passed since, and of an object in another package, whose binding is not
here, that it is under LEND (log entry 68). -/
def mayPark (s : State) (ch c w : Nat) (q : SyncWait) : Bool :=
  if q.remote then
    (s.chan ch).reqs.any (fun r => decide (r.ret = .sync (stwNo c w) ∧ r.place = .remote)) &&
      (!isOwnPkg s q.tga || (s.obj (tgaCh q.tga) q.obj).lend)
  else q.reg && (s.obj ch q.obj).lend

/-- `STEWARD_PARK` (R254): parking changes no architectural state but the view of it. -/
def execStewardPark (w : StwId) (s : State) : Host.Outcome State Fault Refusal := .next <|
  let ch := w.c.ch.val
  let c := w.c.cl.val
  match (s.stw ch c w.w).swait with
  | none => s
  | some q =>
    if (s.stw ch c w.w).st = wStalled ∧ ¬ q.parked ∧ mayPark s ch c w.w q then
      setStw s ch c w.w fun x => { x with swait := some { q with parked := true } }
    else s

/-- `SYNC_OUT_PULSE` (R252, R469). -/
def execSyncOutPulse (s : State) : Host.Outcome State Fault Refusal := .next <|
  if s.hub.outPend ∧ ¬ s.hub.outPin then { s with hub := { s.hub with outPend := false, outPin := true } } else s

/-- `SYNC_OUT_END` (R469). -/
def execSyncOutEnd (s : State) : Host.Outcome State Fault Refusal := .next <| { s with hub := { s.hub with outPin := false } }

/-- What `CH_SYNCSTATE` shows of an object. -/
def objView (s : State) (ch o : Nat) : Nat :=
  let x := s.obj ch o
  let ws := (s.chan ch).waiters.filter fun w => decide (w.obj = o)
  let near := ws.countP fun w => w.who.local_
  x.val + min x.cnt 0xFFFF * 2 ^ 32 + ofBit x.psn * 2 ^ 48 + ofBit x.armed * 2 ^ 49 + near * 2 ^ 50 + min (ws.length - near) 63 * 2 ^ 58

/-- `CH_SYNCSEL_WRITE`: the named object sampled. -/
def execChSyncselWrite (r : Requester) (ch : Ch) (v : Word) (s : State) : Host.Outcome State Fault Refusal := .next <|
  rowGate s r (.ch ch) fun s =>
  if mayChan s r then
    let o := v.toNat % 2 ^ 16
    ((s.setReg .CH_SYNCSEL ch 0 o).setReg .CH_SYNCCFG ch 0 (s.obj ch o).bind.toNat).setReg .CH_SYNCSTATE ch 0 (objView s ch o)
  else s

/-- A write of `CH_SYNCCTRL` acts, or is discarded (R258). -/
def syncCtrl (r : Requester) (ch : Nat) (s : State) (f : State → Nat → State) : State :=
  let o := s.regN .CH_SYNCSEL ch
  if maySup s r then f s o else syncErr s ch cCfgIgnored o

/-- `CH_SYNCCTRL_POISON` (R257, R258). -/
def execChSyncctrlPoison (r : Requester) (ch : Ch) (s : State) : Host.Outcome State Fault Refusal := .next <|
  rowGate s r (.ch ch) fun s =>
  syncCtrl r ch s fun s o => poisonObj s ch o

/-- `CH_SYNCCTRL_UNPOISON` (R258). -/
def execChSyncctrlUnpoison (r : Requester) (ch : Ch) (s : State) : Host.Outcome State Fault Refusal := .next <|
  rowGate s r (.ch ch) fun s =>
  syncCtrl r ch s fun s o =>
    setObj s ch o fun x =>
      { x with psn := false, cnt := 0, armed := false, val := if x.kind = okCounter then 0 else x.val }

/-- `SYNC_IN_NOTICE` (R249, R468): armed SYNCIN barriers are released, and an armed load may start on the pulse. -/
def execSyncInNotice (ch : Ch) (s : State) : Host.Outcome State Fault Refusal := .next <| inChan s ch fun s =>
  if s.hub.syncNotices.contains ch.val then
    let s := { s with hub := { s.hub with syncNotices := s.hub.syncNotices.filter (· ≠ ch.val) } }
    let s := (s.chan ch).objs.foldl (fun s p => if p.2.kind = okBarrier ∧ p.2.scope = 2 then releaseArmed s ch p.1 false else s) s
    if ldState s ch = ldArmed then s.setLoad ch fun l => { l with pulse := true } else s
  else s

end Sys2Proof.Machine
end

