-- ==== Sys2Proof/Machine/Train.lean ====
section
/-! DEFINITION. Commands of the non-finite monitor (R292, R293, R298) and of the expert-history predictor (R288 to R290). -/

namespace Sys2Proof.Machine

/-! ### The monitor -/

/-- A code in `CH_NFVERDICT.CODE`. -/
def nfCode (s : State) (ch code : Nat) : State := s.fset Fld.CH_NFVERDICT_CODE ch 0 code

/-- A write of the monitor's registers acts, or is discarded (R292). -/
def nfGuard (r : Requester) (ch : Nat) (s : State) (f : State → State) : State :=
  if maySup s r then f s else nfCode s ch cCfgIgnored

/-- `CH_NFCTRL_ARM` (R298). -/
def execChNfctrlArm (r : Requester) (ch : Ch) (s : State) : Host.Outcome State Fault Refusal := .next <|
  rowGate s r (.ch ch) fun s =>
  nfGuard r ch s fun s => s.fset Fld.CH_NFSTAT_GUARD ch 0 gPending

/-- `CH_NFCTRL_ABORT` (R298, R305). -/
def execChNfctrlAbort (r : Requester) (ch : Ch) (s : State) : Host.Outcome State Fault Refusal := .next <|
  rowGate s r (.ch ch) fun s =>
  nfGuard r ch s fun s => s.fset Fld.CH_NFSTAT_FORCE ch 0 1

/-- The shadow of the group (R293). -/
def nfShadow (s : State) (ch : Nat) : NfCfg :=
  { cfg := s.regN .CH_NFCFG ch % 2 ^ 48
    wins := (List.range 16).map fun n => (s.regN .CH_NFWINn_BASE ch n, s.regN .CH_NFWINn_CFG ch n) }

/-- A window that is not OFF: base, bytes. -/
def nfRange (p : Nat × Nat) : Nat × Nat := (p.1, 64 * bits p.2 0 32)
def nfKind (p : Nat × Nat) : Nat := bits p.2 32 2

/-- A window's range lies in this channel's HBM, or in one depot of it (R293). -/
def nfWinOk (s : State) (ch : Nat) (p : Nat × Nat) : Bool :=
  let (a, n) := nfRange p
  decide (nfKind p ≠ 3) && decide (a % 64 = 0) && isOwn s ch a &&
    decide (tgaSpace a ≤ 1) && offsetOk (some (s.fget Fld.CH_HBMSIZE_SIZE ch)) a n

/-- A format of Table 5-1 that can be classified (R293). -/
def nfFmtOk (p : Nat × Nat) : Bool := [0, 1, 2, 3, 9].contains (bits p.2 34 4)

/-- A GRAD window overlaps a STATE window. -/
def nfMixed (ws : List (Nat × Nat)) : Bool :=
  ws.any fun p => decide (nfKind p = 1) && ws.any fun q =>
    decide (nfKind q = 2) && meets (nfRange p).1 (nfRange p).2 (nfRange q).1 (nfRange q).2

/-- What a commit of the group is answered with (R293, R296). -/
def nfCommitCode (s : State) (ch : Nat) (c : NfCfg) : Nat :=
  let ws := c.wins.filter fun p => decide (nfKind p ≠ 0)
  let f := c.func
  let o := s.obj ch c.vobj
  let rec? := s.fnrec ch f
  if !(c.wins.all nfFmtOk) || !(ws.all (nfWinOk s ch)) || nfMixed ws || (decide (o.kind = okBarrier) && decide (o.scope = 2)) then cCfgIgnored
  else if !(recValid rec? && decide (recSyncBase rec? ≤ c.vobj) && decide (c.vobj < recSyncBase rec? + recSyncCnt rec?)) ||
      ws.any (fun p => !permitMem s s.rpt ch f false true (nfRange p).1 (nfRange p).2) then cRptViolation
  else 0

/-- `CH_NFCFG_COMMIT` (R293). -/
def execChNfcfgCommit (r : Requester) (ch : Ch) (s : State) : Host.Outcome State Fault Refusal := .next <|
  rowGate s r (.ch ch) fun s =>
  nfGuard r ch s fun s =>
    let c := nfShadow s ch
    let code := nfCommitCode s ch c
    if code ≠ 0 then nfCode s ch code else s.setMon ch fun m => { m with pend := some c }

/-- `NF_CONFIG_APPLY` (R293): the monitor's safe point. -/
def execNfConfigApply (ch : Ch) (s : State) : Host.Outcome State Fault Refusal := .next <|
  match (s.mon ch).pend with
  | none => s
  | some c =>
    if guardOf s ch ≠ gPending ∧ (s.mon ch).held = [] then
      s.setMon ch fun m => { m with live := c, pend := none }
    else s

/-! ### The predictor -/

/-- Entry and tag of a key (R288). -/
def predIndex (k : Nat) : Nat := (bits k 0 12) ^^^ (bits k 32 12)
def predTag (k : Nat) : Nat := (bits k 12 20) ^^^ (bits k 44 20)

/-- The entry of a key for a function, if it hits. -/
def predHit (s : State) (ch f k : Nat) : Option PredEnt :=
  (SMap.get? (s.chan ch).pred (predIndex k)).filter fun e => decide (e.func = f ∧ e.tag = predTag k)

/-- Four 16-bit experts packed. -/
def packExperts (l : List Nat) : Nat := ((List.range 4).map fun i => l.getD i 0xFFFF * 2 ^ (16 * i)).sum

/-- Experts of an entry with confidence, most confident first (R289). -/
def predExperts (e : PredEnt) : List Nat :=
  ([3, 2, 1].map fun v => (List.range 4).filterMap fun w => if e.conf.getD w 0 = v then some (e.exps.getD w 0xFFFF) else none).flatten

/-- `PRED.Q`: the answer, and the counts (R289, R290). -/
def predQuery (s : State) (ch f k : Nat) : State × Nat :=
  if !s.fbit Fld.CH_PREDCTRL_EN ch then (s, packExperts [])
  else match predHit s ch f k with
    | some e => (s.fadd Fld.CH_PREDSTAT_HITS ch 0 1, packExperts (predExperts e))
    | none => (s.fadd Fld.CH_PREDSTAT_MISSES ch 0 1, packExperts [])

/-- The experts of an update: 0xFFFF ignored, a repeated one counted once. -/
def actualExperts (v : Nat) : List Nat :=
  ((List.range 4).map fun i => bits v (16 * i) 16).foldl (fun l x => if x = 0xFFFF ∨ l.contains x then l else l ++ [x]) []

/-- One actual expert in an entry (R289). -/
def predOne (e : PredEnt) (x : Nat) : PredEnt :=
  let w := e.exps.findIdx fun y => decide (y = x)
  if w < 4 then { e with conf := e.conf.set w (min (e.conf.getD w 0 + 1) 3) }
  else
    let low := listMin 0 e.conf
    let w := e.conf.findIdx fun y => decide (y = low)
    { e with exps := e.exps.set w x, conf := e.conf.set w 1 }

/-- `PRED.U` (R289, R290). -/
def predUpdate (s : State) (ch f k v : Nat) : State :=
  if !s.fbit Fld.CH_PREDCTRL_EN ch then s
  else
    let act := actualExperts v
    let e := (predHit s ch f k).getD { func := f, tag := predTag k, exps := [0xFFFF, 0xFFFF, 0xFFFF, 0xFFFF], conf := [0, 0, 0, 0] }
    let e := { e with conf := (List.range 4).map fun w =>
      let x := e.exps.getD w 0xFFFF
      if x ≠ 0xFFFF ∧ ¬ act.contains x then e.conf.getD w 0 - 1 else e.conf.getD w 0 }
    let e := act.foldl predOne e
    s.setChan ch fun c => { c with pred := SMap.put c.pred (predIndex k) e }

/-- `CH_PREDCTRL_CLEAR` (R290). -/
def execChPredctrlClear (r : Requester) (ch : Ch) (s : State) : Host.Outcome State Fault Refusal := .next <|
  rowGate s r (.ch ch) fun s =>
  if maySup s r then s.setChan ch fun c => { c with pred := [] } else s

end Sys2Proof.Machine
end

