-- ==== Sys2Proof/Machine/Load.lean ====
section
/-! DEFINITION. Reels and the load sequencer (chapter 7). -/

namespace Sys2Proof.Machine

/-! ### The reel (Tables 7-1 to 7-3) -/

/-- Little-endian field of `n` bytes at a byte offset. -/
def fieldAt (b : List Byte) (o n : Nat) : Nat := leNat ((b.drop o).take n)

/-- A record: type, cluster, tile mask, body. -/
structure Rec where
  ty : Nat
  cl : Nat
  tmask : Nat
  body : List Byte
  deriving DecidableEq, Repr

def tProg : Nat := 1
def tRoute : Nat := 2
def tEgress : Nat := 3
def tSteward : Nat := 4
def tBind : Nat := 5
def tPreload : Nat := 6
def tScratch : Nat := 7
def tEnd : Nat := 0xFF

/-! The header. -/

def rlClmap (b : List Byte) : Nat := fieldAt b 0x10 16
def rlNeeds (b : List Byte) : Nat := fieldAt b 0x20 2
def rlSeq (b : List Byte) : Nat := fieldAt b 0x22 1
def rlGap (b : List Byte) : Nat := fieldAt b 0x23 1
def rlTlmode (b : List Byte) : Nat := fieldAt b 0x24 1
def rlStart (b : List Byte) : Nat := fieldAt b 0x25 1
def rlSiding (b : List Byte) : Nat := fieldAt b 0x26 2
def rlSeed (b : List Byte) : Nat := fieldAt b 0x28 4
def rlSection (b : List Byte) : Nat := fieldAt b 0x2C 4
def rlClusters (b : List Byte) : List Nat := (List.range 96).filter fun c => (rlClmap b).testBit c

/-- First byte of an entry of `z` bytes, from the `k`-th on, whose first 8 bytes fail a test. -/
def badEntry (b : List Byte) (z : Nat) (bad : Nat → Bool) : Option Nat :=
  ((List.range (b.length / z)).find? fun k => bad (fieldAt b (z * k) 8)).map (z * ·)

/-- Rows of a `SCRATCH` record: 256 stands as 0 in its 8 bits. -/
def scratchRows (b : List Byte) : Nat := if fieldAt b 1 1 = 0 then 256 else fieldAt b 1 1

/-- Offset of the first error of a record's body (Table 7-3). -/
def bodyBad (ty : Nat) (b : List Byte) : Option Nat :=
  let n := b.length
  let w := fieldAt b 0 8
  if ty = tProg then (if 1 ≤ w ∧ w ≤ 256 ∧ n = 8 + 8 * w then none else some 0)
  else if ty = tRoute then badEntry b 8 fun e => decide (bits e 8 24 ≠ 0)
  else if ty = tEgress then (if n % 16 ≠ 0 then some 0 else badEntry b 16 fun e => decide (bits e 8 56 ≠ 0))
  else if ty = tSteward then
    let v := fieldAt b 0 16
    (if n < 16 ∨ bits v 22 10 ≠ 0 ∨ bits v 54 10 ≠ 0 ∨ bits v 87 9 ≠ 0 ∨ bits v 119 9 ≠ 0 then some 0 else none)
  else if ty = tBind then
    (if n % 16 ≠ 0 then some 0 else badEntry b 16 fun e => decide (bits e 24 40 ≠ 0 ∨ e % 256 = 0 ∨ 4 < e % 256))
  else if ty = tPreload then (if n % 32 ≠ 0 then some 0 else none)
  else if n < 8 ∨ bits w 16 48 ≠ 0 ∨ n ≠ 8 + 64 * scratchRows b then some 0
  else none

/-- The records from a position on; an error gives the position where it stands. -/
def parseRecs (b : List Byte) : Nat → Nat → List Rec → Except Nat (List Rec)
  | 0, pos, _ => .error pos
  | fuel + 1, pos, acc =>
    let stop := b.length - 4
    if stop < pos + 16 then .error pos
    else
      let h := fieldAt b pos 16
      let ty := bits h 0 8
      let cl := bits h 8 8
      let len := bits h 32 32
      let tm := bits h 64 64
      if bits h 16 16 ≠ 0 ∨ len % 8 ≠ 0 ∨ stop < pos + 16 + len then .error pos
      else if ty = tEnd then
        if cl ≠ 0 ∨ tm ≠ 0 ∨ len ≠ 0 then .error pos
        else if pos + 16 ≠ stop then .error (pos + 16)
        else .ok (acc ++ [⟨ty, 0, 0, []⟩])
      else if ty = 0 ∨ 7 < ty ∨ ¬ (rlClmap b).testBit cl then .error pos
      else if (decide (ty = tProg ∨ ty = tRoute ∨ ty = tScratch)) ≠ decide (tm ≠ 0) then .error pos
      else
        let body := (b.drop (pos + 16)).take len
        match bodyBad ty body with
        | some o => .error (pos + 16 + o)
        | none => parseRecs b fuel (pos + 16 + len) (acc ++ [⟨ty, cl, tm, body⟩])

/-- The structure of a reel (R147, R148), checked in ascending byte order. -/
def parseReel (b : List Byte) : Except Nat (List Rec) :=
  if fieldAt b 0 4 ≠ 0x4C454552 then .error 0
  else if fieldAt b 4 2 ≠ 1 then .error 4
  else if fieldAt b 6 2 ≠ 64 then .error 6
  else if fieldAt b 8 4 ≠ b.length then .error 8
  else if fieldAt b 0x1C 4 ≠ 0 then .error 0x1C
  else if bits (rlNeeds b) 7 9 ≠ 0 then .error 0x20
  else if rlSection b = 0 then .error 0x2C
  else if fieldAt b 0x30 16 ≠ 0 then .error 0x30
  else match parseRecs b b.length 64 [] with
    | .error p => .error p
    | .ok rs => if rs.length = fieldAt b 12 4 then .ok rs else .error 12

/-- The reel's CRC (R149). -/
def reelCrcOk (b : List Byte) : Bool := decide (crc32c (b.take (b.length - 4)) = fieldAt b (b.length - 4) 4)

/-- Entries of a `BIND` record: kind, index, value. -/
def binds (r : Rec) : List (Nat × Nat × Nat) :=
  if r.ty = tBind then (List.range (r.body.length / 16)).map fun k =>
    (fieldAt r.body (16 * k) 1, fieldAt r.body (16 * k + 1) 2, fieldAt r.body (16 * k + 8) 8)
  else []

/-- Descriptors of a `PRELOAD` record: four words each. -/
def preloads (r : Rec) : List (List Nat) :=
  if r.ty = tPreload then (List.range (r.body.length / 32)).map fun k =>
    (List.range 4).map fun j => fieldAt r.body (32 * k + 8 * j) 8
  else []

/-- Entries of the clusters' buffers that `BIND` gives: cluster, buffer, words A and B, later entries standing (R201). -/
def bindBufs (rs : List Rec) : List (Nat × Nat × Nat × Nat) :=
  rs.foldl (fun l r => (binds r).foldl (fun l e =>
    match e with
    | (k, i, v) =>
      if k ≠ 4 then l
      else
        let key := fun x : Nat × Nat × Nat × Nat => decide (x.1 = r.cl ∧ x.2.1 = i % 32)
        let old := ((l.find? key).map fun x => x.2.2).getD (0, 0)
        l.filter (fun x => !key x) ++ [(r.cl, i % 32, if bit i 5 then (old.1, v) else (v, old.2))]) l) []

/-! ### Checks (Table 7-5) -/

/-- The sequencer's function where one restricts it. -/
def ldFn (f : Nat) : Option Nat := if f = 0 then none else some f

/-- Check 5 for one `BIND` entry (R223, R242). -/
def bindRange (s : State) (ch fn : Nat) (cl : Nat) (e : Nat × Nat × Nat) : Bool :=
  let r := s.fnrec ch fn
  match e with
  | (1, i, v) => decide (i < recQCnt r) && decide ((recQBase r + i) / 16 = cl) && decide (bits v 16 16 < recSyncCnt r)
  | (3, i, _) => decide (i < recSyncCnt r)
  | _ => true

/-- Check 5 for one entry of an egress table: a SYNC target in range (R242). -/
def egressRange (s : State) (ch fn : Nat) (r : Rec) : Bool :=
  decide (r.ty ≠ tEgress) || (List.range (r.body.length / 16)).all fun k =>
    let v := fieldAt r.body (16 * k + 8) 8
    !egValid v || decide (egType v ≠ egSyncTy) || decide (bits v 22 16 < recSyncCnt (s.fnrec ch fn))

/-- Check 5 for one preload descriptor: its addresses are granted. -/
def preloadGranted (s : State) (ch fn : Nat) (d : List Nat) : Bool :=
  let x : DSlot := { w := 2, count := 0, collect := false, desc := d }
  (decide (x.kind = 2) || permitMem s s.rpt ch fn false false x.src x.len) &&
    permitMem s s.rpt ch fn false true x.dst (if x.kind = 1 then 1 else x.len)

/-- Check 7 for one `BIND` entry (R201, R223, R224, R244). -/
def bindOk (e : Nat × Nat × Nat) : Bool :=
  match e with
  | (1, _, v) => qCfgOk v
  | (2, i, v) => decide (i < 256 ∧ bits v 23 41 = 0 ∧ v % 2 = 0 ∧ bits v 0 22 < depotSize)
  | (3, _, v) =>
    let k := bits v 0 2
    decide (k = okCounter ∨ k = okBarrier) && decide (bits v 4 2 ≠ 3) && decide (bits v 10 6 = 0) && decide (bits v 28 4 = 0) &&
      (if k = okBarrier then decide (bits v 32 16 ≠ 0) && (decide (bits v 4 2 = 1) || decide (bits v 48 16 = 0))
       else decide (bits v 3 3 = 0))
  | (_, i, _) => decide (i < 64)

/-- Bytes of the monitor region: its alignment unit. -/
def monSize : Nat := 16384

/-- Check 7 for a `STEWARD` record. -/
def stewardOk (r : Rec) : Bool :=
  if r.ty ≠ tSteward then true
  else
    let v := fieldAt r.body 0 16
    let la := bits v 0 22
    let mb := bits v 32 22
    let n := r.body.length - 16
    decide (la % 8 = 0 ∧ mb % monSize = 0 ∧ la + n ≤ depotSize ∧ mb + monSize ≤ depotSize) &&
      decide (n = 0 ∨ la + n ≤ mb ∨ mb + monSize ≤ la)

/-- R154 for one descriptor. -/
def preloadOk (d : List Nat) : Bool :=
  let w := d.getD 2 0
  decide (bits w 32 8 ≤ 2 ∧ bits w 40 8 = 0 ∧ bits w 0 32 ≠ 0 ∧ d.getD 3 0 = 0)

/-- Start-up orders that R156 accepts. -/
def orderOk (seq : Nat) : Bool := decide (seq = 0xE4 ∨ seq = 0xB4 ∨ seq = 0xD8)

/-- Check 5 of a whole reel. -/
def check5 (s : State) (ch fn : Nat) (cs : List Nat) (rs : List Rec) : Bool :=
  let r := s.fnrec ch fn
  recValid r && cs.all (fun c => (recClmask r).testBit c) &&
    rs.all (fun x => (binds x).all (bindRange s ch fn x.cl) && egressRange s ch fn x &&
      (preloads x).all (preloadGranted s ch fn)) &&
    (bindBufs rs).all fun b => sbSyncOk s ch (some fn) b.2.2.1 b.2.2.2

/-- Check 7 of a whole reel. -/
def check7 (b : List Byte) (rs : List Rec) : Bool :=
  let sid := rlSiding b
  let bufs := bindBufs rs
  decide (sid = 0 ∨ (64 ≤ sid ∧ sid ≤ 1024 ∧ sid % 64 = 0)) && decide (rlStart b ≤ 2) && decide (rlTlmode b < 32) &&
    rs.all (fun x => stewardOk x && (binds x).all bindOk && (preloads x).all preloadOk) &&
    bufs.all (fun x => sbWordsOk x.2.2.1 x.2.2.2) &&
    bufs.all fun x => bufs.all fun y => decide (x.1 ≠ y.1 ∨ x.2.1 = y.2.1) || !sbClash x.2.2.1 x.2.2.2 y.2.2.1 y.2.2.2

/-- The units a reel requires: `NEEDS`, and the decoder for a preload through it. -/
def reelNeeds (b : List Byte) (rs : List Rec) : Nat :=
  let egc := rs.any fun r => (preloads r).any fun d => decide (bits (d.getD 2 0) 32 8 = 1)
  if egc then rlNeeds b ||| 2 else rlNeeds b

/-- A granule of a range lies on a lane lost since the lane list was built (R182). -/
def rangeLost (s : State) (ch off len : Nat) : Bool :=
  let lost := SMap.get [] s.lostLanes ch
  !lost.isEmpty && (rangeFrom (off / 64) ((off % 64 + len + 63) / 64)).any fun g => lost.contains (granuleLane s ch g)

/-! ### Requests of the sequencer -/

/-- `CH_LDCTRL_GO` (R150). -/
def execChLdctrlGo (r : Requester) (ch : Ch) (s : State) : Host.Outcome State Fault Refusal := .next <|
  rowGate s r (.ch ch) fun s =>
  let c := ch.val
  if !mayHub r then s
  else if ldState s c ≠ ldIdle then cmtCode s c cCfgIgnored
  else
    let f := s.fget Fld.CH_LDREQ_FUNC c
    cmtCode (beginFetch s c (s.regN .CH_LDSRC c) (s.fget Fld.CH_LDREQ_LENGTH c) f none) c cNone

/-- Position of the first poisoned byte. -/
def firstPsn (bs : List DByte) : Option Nat := bs.findIdx? Prod.snd

/-- The reel as the sequencer has read it in the present pass. -/
def reelRead (s : State) (ch : Nat) : List DByte := let l := s.load ch; unitGot s ch 0 l.tga l.len

/-- The reel is read. -/
def reelBack (s : State) (ch : Nat) : Bool := let l := s.load ch; unitBack s ch 0 false [(l.tga, l.len)]

/-- What an unreadable byte of the reel is reported as: the code of the read that failed, or a poisoned word's. -/
def reelBad (s : State) (ch p : Nat) : Nat :=
  let a := (s.load ch).tga + p
  let c := ((unitPieces (s.load ch).tga (s.load ch).len).find? fun q => decide (q.1 ≤ a ∧ a < q.1 + q.2)).bind fun q => unitReq s ch 0 false q
  match c with
  | some r => if codeOk r.code then cEccUncorrected else r.code
  | none => cEccUncorrected

/-- The first pass over a reel that has been read: a code, or its bytes and records (R151). -/
def fetchPass (s : State) (ch : Nat) : Nat × List Byte × List Rec :=
  let d := reelRead s ch
  let b := d.map Prod.fst
  match parseReel b, firstPsn d with
  | .error p, some q => if q ≤ p then (reelBad s ch q, [], []) else (cCfgIgnored, [], [])
  | .error _, none => (cCfgIgnored, [], [])
  | .ok _, some q => (reelBad s ch q, [], [])
  | .ok rs, none => if reelCrcOk b then (cNone, b, rs) else (cLoadCrc, b, rs)

/-- `LOAD_FETCH_DONE` (R146 to R151): the reel is not read where its placement or the table refuses it. -/
def execLoadFetchDone (ch : Ch) (s : State) : Host.Outcome State Fault Refusal := .next <|
  let c := ch.val
  let l := s.load c
  if ldState s c ≠ ldFetch then s
  else if reelCode s c l ≠ 0 then loadFail (refusedBy s c (some l.fn) (reelCode s c l) l.tga) c (reelCode s c l)
  else if !reelBack s c then s
  else match fetchPass s c with
    | (code, b, rs) =>
      let s := if b.isEmpty then s else s.setLoad c fun l =>
        { l with reel := b, sec := rlSection b, cls := rlClusters b, start := rlStart b, needs := reelNeeds b rs }
      if code ≠ cNone then loadFail s c code else setLdState (reelDrop s c) c ldCheck

/-- What the checks 2 to 7 of Table 7-5 give. -/
def checkCode (s : State) (ch : Nat) (l : LoadSeq) (rs : List Rec) : Nat :=
  let m := bits l.needs 5 2
  if m ≠ 0 ∧ (m = 3 ∨ m ≠ s.fget Fld.HUB_OPMODE_MODE) then cUnitAbsent
  else if !unitsLive s ch l.needs then cUnitAbsent
  else if l.cls.any fun c => s.fbit Fld.CL_CAPS_FENCED (clLoc ch c) then cUnitAbsent
  else if !check5 s ch l.fn l.cls rs then cRptViolation
  else if !orderOk (rlSeq l.reel) then cLoadOrder
  else if !check7 l.reel rs then cCfgIgnored
  else cNone

/-- A cluster taken by a load (R152). -/
def takeCluster (ch : Nat) (l : LoadSeq) (s : State) (c : Nat) : State :=
  let k := clLoc ch c
  let s := (s.setReg .CL_GATE k 0 0).fset Fld.CL_GATE_OWNED k 0 1
  let s := s.setReg .CL_SECTION k 0 l.sec
  let s := (List.range 64).foldl (fun s t => s.fset Fld.TL_STATUS_STATE (k * 64 + t) 0 tReset) s
  let s := ((s.setReg .CL_STWn_CTRL k 0 0).setReg .CL_STWn_CTRL k 1 0)
  let s := s.setClu ch c fun x => { x with stws := [], owner := some (l.no, l.fn) }
  wakeDistrict s ch (clDistrict c)

/-- `LOAD_CHECK_DONE` (R152). -/
def execLoadCheckDone (ch : Ch) (s : State) : Host.Outcome State Fault Refusal := .next <|
  let c := ch.val
  if ldState s c ≠ ldCheck then s
  else
    let l := s.load c
    match parseReel l.reel with
    | .error _ => loadFail s c cCfgIgnored
    | .ok rs =>
      if l.cls.any fun k => s.fbit Fld.CL_GATE_OWNED (clLoc c k) then
        let s := setLdState (s.fset Fld.CH_LDSTAT_CODE c 0 cCfgIgnored) c ldIdle
        settle ((hostDone? s l.cmd cCfgIgnored l.sec l.sec).setLoad c fun l => { l with cmd := none, reel := [], cls := [] }) c
      else
        let code := checkCode s c l rs
        let s := if code = cNone ∨ code = cCfgIgnored then
            (s.fset Fld.CH_LDORDER_LIVE_SEQ c 0 (rlSeq l.reel)).fset Fld.CH_LDORDER_LIVE_GAP c 0 (rlGap l.reel)
          else s
        if code ≠ cNone then loadFail s c code
        else
          let s := l.cls.foldl (takeCluster c l) s
          reelAsk (setLdState (s.setLoad c fun l => { l with owned := true }) c ldWrite) c

/-! ### WRITE (R153) -/

/-- Step 1 (R52); the change counts in `CAPS_GEN` (R31) and has no fault's code (log entry 67). -/
def applyRemap (s : State) (ch c : Nat) : State :=
  let k := clLoc ch c
  if s.fbit Fld.CL_CAPS_REMAP_PENDING k then
    let col := (s.clu ch c).remap.getD (s.fget Fld.CL_CAPS_UNUSED_COL k)
    let s := ((s.fset Fld.CL_CAPS_UNUSED_COL k 0 col).fset Fld.CL_CAPS_SPARE_USED k 0 1).fset Fld.CL_CAPS_REMAP_PENDING k 0 0
    capsChanged (s.setClu ch c fun x => { x with remap := none }) ch cNone
  else s

/-- The encoding of `END`, in every slot beyond a program (R71). -/
def endWord : Nat := 0x0100000000000000

/-- Steps 2 to 4 for one tile, its tables emptied (step 6) and its program cleared. -/
def freshTile (ch c mode seed : Nat) (s : State) (t : Nat) : State :=
  let k := tlLoc ch c t
  let s := s.setTl ch c t fun _ => seedTile {} seed
  let s := ((s.setReg .TL_STATUS k 0 0).setReg .TL_FLAGS k 0 0).setReg .TL_MODE k 0 mode
  let s := s.setReg .TL_RNGSEED k 0 seed
  (List.range 256).foldl (fun s i => (s.setReg .TL_IMEMn k i endWord).setReg .TL_ROUTEn k i 0) s

/-- A tile record written into one tile. -/
def tileRec (r : Rec) (ch c : Nat) (s : State) (t : Nat) : State :=
  let k := tlLoc ch c t
  if !r.tmask.testBit t then s
  else if r.ty = tProg then
    let n := fieldAt r.body 0 2
    (List.range 256).foldl (fun s i => s.setReg .TL_IMEMn k i (if i < n then fieldAt r.body (8 + 8 * i) 8 else endWord)) s
  else if r.ty = tRoute then
    (List.range (r.body.length / 8)).foldl (fun s i =>
      s.setReg .TL_ROUTEn k (fieldAt r.body (8 * i) 1) (fieldAt r.body (8 * i + 4) 4 &&& 0x1FF1F)) s
  else
    let first := fieldAt r.body 0 1
    (List.range (scratchRows r.body)).foldl (fun s i => s.setTl ch c t fun x =>
      { x with rows := SMap.put x.rows ((first + i) % 256)
                 { val := BitVec.ofNat 512 (fieldAt r.body (8 + 64 * i) 64), psn := 0, mark := none } }) s

/-- A `BIND` entry of a cluster's queue, handler or buffer; a sync object of the channel (R201, R223, R224, R244). -/
def bindRec (ch fn c : Nat) (s : State) (e : Nat × Nat × Nat) : State :=
  let k := clLoc ch c
  match e with
  | (1, i, v) => s.setReg .CL_QCFGn k ((recQBase (s.fnrec ch fn) + i) % 16) v
  | (2, i, v) => s.setReg .CL_HTn k (i % 256) v
  | (3, i, v) => bindObj s ch (recSyncBase (s.fnrec ch fn) + i) v
  | (_, i, v) => s.setReg (if bit i 5 then .CL_SBn_LIVEB else .CL_SBn_LIVEA) k (i % 32) v

/-- A record applied (step 5, and 7 and 8 for `STEWARD`). -/
def applyRecord (ch fn : Nat) (s : State) (r : Rec) : State :=
  if r.ty = tProg ∨ r.ty = tRoute ∨ r.ty = tScratch then (List.range 64).foldl (tileRec r ch r.cl) s
  else if r.ty = tEgress then
    (List.range (r.body.length / 16)).foldl (fun s i =>
      s.setReg .CL_EGn (clLoc ch r.cl) (fieldAt r.body (16 * i) 1) (fieldAt r.body (16 * i + 8) 8)) s
  else if r.ty = tBind then (binds r).foldl (bindRec ch fn r.cl) s
  else s

/-- The channel monitor image (R153 step 7). -/
def monitorImage : List Byte := (List.range monSize).map Config.monitorByte

/-- What a `STEWARD` record writes into its depot (step 7): the monitor image (0) and the code (1), each with its place. -/
def stewardPuts (rs : List Rec) : List ((Nat × Nat) × Nat × List Byte) :=
  rs.zipIdx.flatMap fun x =>
    let v := fieldAt x.1.body 0 16
    if x.1.ty ≠ tSteward then []
    else [((x.1.cl, 2 * x.2), bits v 32 22, monitorImage), ((x.1.cl, 2 * x.2 + 1), bits v 0 22, x.1.body.drop 16)]

/-- One of them written, unless it has been; the write guard may hold it (R299). -/
def stewardPut (ch : Nat) (s : State) (p : (Nat × Nat) × Nat × List Byte) : State :=
  if (s.load ch).puts.contains p.1 then s
  else match guardStore s (5, p.1.1, p.1.2) (depotAt ch p.1.1 p.2.1) (cleanBytes p.2.2) with
    | (s, none) => s
    | (s, some _) => s.setLoad ch fun l => { l with puts := l.puts ++ [p.1] }

/-- Step 8 and the entry points of a `STEWARD` record. -/
def applySteward (ch : Nat) (s : State) (r : Rec) : State :=
  if r.ty ≠ tSteward then s
  else
    let v := fieldAt r.body 0 16
    let s := [0, 1].foldl (fun s w => setStw s ch r.cl w fun _ => { tvec := bits v 32 22 }) s
    let e : StwRec := ⟨bits v 64 22, bit v 86, bits v 96 22, bit v 118⟩
    s.setLoad ch fun l => { l with stw := SMap.put l.stw r.cl e }

/-- A cluster made fresh: steps 1 to 4, 6, 9 and 10, its queues and buffers off and empty. -/
def freshCluster (ch : Nat) (b : List Byte) (s : State) (c : Nat) : State :=
  let k := clLoc ch c
  let s := applyRemap s ch c
  let s := (List.range 64).foldl (freshTile ch c (rlTlmode b % 32) (rlSeed b)) s
  let s := (List.range 256).foldl (fun s i => (s.setReg .CL_EGn k i 0).setReg .CL_HTn k i 0) s
  let s := (List.range 16).foldl (fun s q => (s.setReg .CL_QCFGn k q 0).fset Fld.CL_QSTATn_POISONED k q 0) s
  let s := (List.range 32).foldl (fun s n => sbApply s ch c n 0 0) s
  let s := (s.fset Fld.CL_SIDSTAT_EXHAUSTED k 0 0).fset Fld.CL_SIDSTAT_STUCK k 0 0
  let kib := if rlSiding b = 0 then 256 else rlSiding b
  s.setClu ch c fun x =>
    { x with aq := [], dq := [], retA := [], retD := [], relq := [], portBuf := [], gwSpilled := [], queues := [], ptrapped := [],
             arrPtr := 0, inPtr := [], bankPtr := [], sbDue := [],
             seqs := [], tokens := [], take := [], pen := [], act := none, actq := [], shut := false, stws := [], tie := 1,
             bufs := [], siding := kib, freeUnits := List.range (16 * kib) }

/-- `WRITE` applied. -/
def applyReel (s : State) (ch fn : Nat) (b : List Byte) (rs : List Rec) : State :=
  let s := (rlClusters b).foldl (freshCluster ch b) s
  let s := rs.foldl (applyRecord ch fn) s
  let s := rs.foldl (applySteward ch) s
  s.setLoad ch fun l => { l with pre := (rlClusters b).filterMap fun c =>
    let d := (rs.filter fun r => decide (r.cl = c)).flatMap preloads
    if d.isEmpty then none else some (c, d) }

/-- The second pass has read what the first did, by the CRC computed again and the one that the reel carries (R153). -/
def reelSame (first again : List Byte) : Bool :=
  let n := again.length - 4
  reelCrcOk again && decide (fieldAt again n 4 = fieldAt first n 4)

/-- `LOAD_WRITE_DONE` (R153). -/
def execLoadWriteDone (ch : Ch) (s : State) : Host.Outcome State Fault Refusal := .next <|
  let c := ch.val
  let l := s.load c
  if ldState s c ≠ ldWrite then s
  else if reelCode s c l ≠ 0 then loadFail (refusedBy s c (some l.fn) (reelCode s c l) l.tga) c (reelCode s c l)
  else if !reelBack s c then s
  else
    let d := reelRead s c
    let b := d.map Prod.fst
    match firstPsn d with
    | some q => loadFail s c (reelBad s c q)
    | none =>
      match parseReel b with
      | .error _ => loadFail s c cLoadCrc
      | .ok rs =>
        if rlClmap b ≠ rlClmap l.reel then loadFail s c cLoadCrc
        else
          let ps := stewardPuts rs
          let s := ps.foldl (stewardPut c) s
          if !(ps.all fun p => (s.load c).puts.contains p.1) then s
          else
            let s := applyReel s c l.fn b rs
            if !reelSame l.reel b then loadFail s c cLoadCrc
            else
              let s := (reelDrop s c).setLoad c fun l => { l with reel := b }
              l.cls.foldl (startPreload c) (setLdState s c ldPreload)

/-! ### ARMED and the start-up (R154 to R161) -/

/-- A preload descriptor of a cluster has not completed. -/
def preloadsLeft (s : State) (ch : Nat) (c : Nat) : Bool :=
  !(lst (s.load ch).pre c).isEmpty || (s.clu ch c).slots.any fun p => decide (p.2.w = 2)

/-- `PRELOAD_DONE` (R154, R158): `ARMED`; source 0 starts at once. -/
def execPreloadDone (ch : Ch) (s : State) : Host.Outcome State Fault Refusal := .next <|
  let c := ch.val
  if ldState s c ≠ ldPreload then s
  else if (s.load c).cls.any (preloadsLeft s c) then s
  else
    let s := setLdState (s.setLoad c fun l => { l with pulse := false, issued := false }) c ldArmed
    settle (if (s.load c).start = 0 then beginStart s c else s) c

/-- `CH_LDCTRL_START` (R158). -/
def execChLdctrlStart (r : Requester) (ch : Ch) (s : State) : Host.Outcome State Fault Refusal := .next <|
  rowGate s r (.ch ch) fun s =>
  let c := ch.val
  if !mayHub r then s
  else if ldState s c = ldArmed ∧ (s.load c).start = 1 then settle (cmtCode (beginStart s c) c cNone) c
  else cmtCode s c cCfgIgnored

/-- A failed load cleared (R163). -/
def clearLoad (s : State) (ch : Nat) : State :=
  let l := s.load ch
  let s := if l.owned then l.cls.foldl (disown ch) s else s
  let s := setLdState (s.setLoad ch fun l => { l with owned := false, cls := [], reel := [], pre := [], stw := [] }) ch ldIdle
  settle { s with hub := { s.hub with loadfailN := s.hub.loadfailN.filter (· ≠ ch) } } ch

/-- `CH_LDCTRL_CLEAR` (R163). -/
def execChLdctrlClear (r : Requester) (ch : Ch) (s : State) : Host.Outcome State Fault Refusal := .next <|
  rowGate s r (.ch ch) fun s =>
  let c := ch.val
  if !mayHub r then s
  else if ldState s c = ldFailed then clearLoad (cmtCode s c cNone) c
  else cmtCode s c cCfgIgnored

/-- A load abandoned while armed (R164). -/
def abandonArmed (s : State) (ch : Nat) : State :=
  let l := s.load ch
  let s := endSection s ch l.cls
  let s := hostDone? (s.fset Fld.CH_LDSTAT_CODE ch 0 cCfgIgnored) l.cmd cCfgIgnored l.sec l.sec
  setLdState (s.setLoad ch fun l => { l with cmd := none, owned := false, cls := [], reel := [], stw := [] }) ch ldIdle

/-- `CH_LDCTRL_UNLOAD` (R164). -/
def execChLdctrlUnload (r : Requester) (ch : Ch) (s : State) : Host.Outcome State Fault Refusal := .next <|
  rowGate s r (.ch ch) fun s =>
  let c := ch.val
  let sec := s.fget Fld.CH_LDUNLOAD_SECTION c
  if !mayHub r then s
  else if ldState s c = ldIdle then settle (beginUnload s c sec none) c
  else if ldState s c = ldArmed ∧ (s.load c).sec = sec then settle (cmtCode (abandonArmed s c) c cNone) c
  else cmtCode s c cCfgIgnored

/-- `CH_LDCTRL_COMMIT` (R156, R157). -/
def execChLdctrlCommit (r : Requester) (ch : Ch) (s : State) : Host.Outcome State Fault Refusal := .next <|
  rowGate s r (.ch ch) fun s =>
  let c := ch.val
  if !mayHub r then s
  else if ldState s c ≠ ldArmed then cmtCode s c cCfgIgnored
  else
    let seq := s.fget Fld.CH_LDORDER_SEQ c
    if !orderOk seq then cmtCode s c cLoadOrder
    else
      let g := s.fget Fld.CH_LDORDER_GAP c
      cmtCode ((s.fset Fld.CH_LDORDER_LIVE_SEQ c 0 seq).fset Fld.CH_LDORDER_LIVE_GAP c 0 g) c cNone

/-- Step in progress, as its code (Table 7-4). -/
def stepCode (s : State) (ch : Nat) : Nat := bits (s.fget Fld.CH_LDORDER_LIVE_SEQ ch) (2 * s.fget Fld.CH_LDSTAT_STEP ch) 2

/-- The gate bit that records a step. -/
def stepFld (k : Nat) : Fld :=
  match k with
  | 0 => Fld.CL_GATE_CLK_OK
  | 1 => Fld.CL_GATE_OUT
  | 2 => Fld.CL_GATE_TILES
  | _ => Fld.CL_GATE_WR

/-- A steward released (Table 7-4). -/
def releaseStw (s : State) (ch c w entry : Nat) (run : Bool) : State :=
  setStw s ch c w fun x => { x with st := if run then wRun else wHalted, pc := entry, prv := false }

/-- The step TILES for one cluster (R155, R170). -/
def releaseTiles (s : State) (ch c : Nat) : State :=
  let k := clLoc ch c
  let s := (List.range 64).foldl (fun s t => s.fset Fld.TL_STATUS_STATE (k * 64 + t) 0 tReady) s
  match SMap.get? (s.load ch).stw c with
  | none => s
  | some x => releaseStw (releaseStw s ch c 0 x.entry0 x.run0) ch c 1 x.entry1 x.run1

/-- A step applied to one cluster. -/
def applyStep (ch k : Nat) (s : State) (c : Nat) : State :=
  let s := s.fset (stepFld k) (clLoc ch c) 0 1
  let s := if k = 2 then releaseTiles s ch c else if k = 3 then releaseGate s ch c else s
  if k = 0 then s else wakeDistrict s ch (clDistrict c)

/-- Clusters of the load that a step has still to reach. -/
def stepLeft (s : State) (ch k : Nat) : List Nat :=
  (s.load ch).cls.filter fun c => !s.fbit (stepFld k) (clLoc ch c)

/-- A district can apply a step to its clusters: CLOCK once it reports lock (R160, R456), any other while it is clocked. -/
def stepReady (s : State) (ch k c : Nat) : Bool :=
  clocked s ch c && (decide (k ≠ 0) || s.fbit Fld.DST_VFLIVE_LOCK (dstLoc ch (clDistrict c)))

/-- A step applied wherever it can be. -/
def applySteps (s : State) (ch k : Nat) : State :=
  ((stepLeft s ch k).filter (stepReady s ch k)).foldl (applyStep ch k) s

/-- `STARTUP_STEP_ISSUE` (R155, R158, R160): the start event of source 2, or the next step to every district. -/
def execStartupStepIssue (ch : Ch) (s : State) : Host.Outcome State Fault Refusal := .next <|
  let c := ch.val
  let l := s.load c
  if ldState s c = ldArmed then
    if l.start = 2 ∧ l.pulse then settle (beginStart s c) c else s
  else if ldState s c ≠ ldStarting ∨ l.issued then s
  else applySteps (s.setLoad c fun l => { l with issued := true }) c (stepCode s c)

/-- The load completes (R161): the section runs. -/
def loadDone (s : State) (ch : Nat) : State :=
  let l := s.load ch
  let s := l.cls.foldl (fun s c => s.setClu ch c fun k => { k with watched := true }) s
  let s := (s.fset Fld.CH_LDSTAT_STEP ch 0 0).fset Fld.CH_LDSTAT_CODE ch 0 cNone
  let s := hostDone? s l.cmd cNone l.sec 0
  let s := s.setLoad ch fun l =>
    { l with sections := l.sections ++ [⟨l.sec, l.fn, l.no, l.cls⟩], cmd := none, owned := false, cls := [], reel := [], stw := [],
             issued := false }
  settle (setLdState s ch ldIdle) ch

/-- `STARTUP_STEP_COMPLETE` (R160, R161). -/
def execStartupStepComplete (ch : Ch) (s : State) : Host.Outcome State Fault Refusal := .next <|
  let c := ch.val
  if ldState s c ≠ ldStarting ∨ ¬ (s.load c).issued then s
  else
    let s := applySteps s c (stepCode s c)
    if !(stepLeft s c (stepCode s c)).isEmpty then s
    else
      let n := s.fget Fld.CH_LDSTAT_STEP c
      if n = 3 then loadDone s c
      else (s.fset Fld.CH_LDSTAT_STEP c 0 (n + 1)).setLoad c fun l => { l with issued := false }

/-- `STARTUP_STEP_TIMEOUT` (R160): a district that has not applied the step is named by the report. -/
def execStartupStepTimeout (d : DistId) (s : State) : Host.Outcome State Fault Refusal := .next <|
  let c := d.ch.val
  if ldState s c ≠ ldStarting ∨ ¬ (s.load c).issued then s
  else if (stepLeft s c (stepCode s c)).any fun k => decide (clDistrict k = d.d.val) then loadFailAt s c cUnitAbsent d.d
  else s

/-- `UNLOAD_DONE` (R164): steps 5 and 6 follow once what the section has posted is performed. -/
def execUnloadDone (ch : Ch) (s : State) : Host.Outcome State Fault Refusal := .next <|
  let c := ch.val
  if ldState s c ≠ ldUnloading then s
  else if (s.chan c).reqs.any (Req.posted (s.load c).cls) then s
  else
    let l := s.load c
    let s := l.cls.foldl (disown c) (l.cls.foldl (closeOut l.cls c) s)
    let s := hostDone? s l.unloadCmd cNone 0 0
    let s := s.setLoad c fun l => { l with unloadCmd := none, cls := [], owned := false }
    settle (setLdState s c ldIdle) c

/-- A load of a function that is disabled or reset ends without a completion (R165). Answers its clusters, to be scrubbed. -/
def loadEnd (s : State) (ch f : Nat) : State × List Nat :=
  let l := s.load ch
  if ldState s ch = ldIdle ∨ l.fn ≠ f then (s, [])
  else
    let cs := if l.owned then l.cls else []
    let s := reelDrop (endSection s ch cs) ch
    let s := { s with hub := { s.hub with loadfailN := s.hub.loadfailN.filter (· ≠ ch) } }
    (setLdState (s.setLoad ch fun l =>
      { l with cmd := none, unloadCmd := none, owned := false, cls := [], reel := [], pre := [], stw := [], puts := [], issued := false }) ch ldIdle, cs)

end Sys2Proof.Machine
end

