-- ==== Sys2Proof/Machine/SealMath.lean ====
section
/-! DEFINITION. Arithmetic of the Seal unit: parameter sets, objects, noise estimates, kernels (chapters 15 and 16). -/

namespace Sys2Proof.Machine

/-! ### Moduli and parameter sets (R307, R308) -/

def sealPrimes : List Nat := [2130706433, 2113929217, 2013265921]

/-- The constants of a parameter set (Table 15-2). -/
structure PSet where
  n : Nat
  big : Nat
  ell : Nat
  /-- base of the PBS gadget in bits: the unit decomposes with it, no stated result depends on it -/
  bell : Nat
  lks : Nat
  bks : Nat
  r : Nat
  deriving DecidableEq, Repr

def psetOf (p : Nat) : PSet :=
  if p = 1 then ⟨630, 1024, 3, 7, 5, 3, 2⟩ else if p = 2 then ⟨742, 2048, 4, 6, 6, 3, 3⟩ else ⟨1024, 4096, 4, 7, 5, 4, 3⟩

def PSet.primes (x : PSet) : List Nat := sealPrimes.take x.r
def PSet.q (x : PSet) : Nat := x.primes.foldl (· * ·) 1
/-- Q / p0. -/
def PSet.cofactor (x : PSet) : Nat := (x.primes.drop 1).foldl (· * ·) 1
def PSet.ggsw (x : PSet) : Nat := 2 * x.ell * 2 * x.r * x.big * 4
def PSet.bsk (x : PSet) : Nat := x.n * x.ggsw
def PSet.ksk (x : PSet) : Nat := x.big * x.lks * (4 * x.r * (x.n + 1))

def p0 : Nat := 2130706433
/-- Δ of R311. -/
def sealDelta : Nat := 266338304

/-! ### Objects (R309, R310) -/

/-- Words of one plane. -/
def planeWords (x : PSet) (dim : Nat) : Nat := if dim = 0 then x.n + 1 else if dim = 1 then x.big + 1 else x.big

/-- Primes of an object's planes. -/
def objPrimes (x : PSet) (res : Bool) : List Nat := if res then x.primes else [p0]

def objLen (p dim : Nat) (res : Bool) : Nat :=
  4 * (objPrimes (psetOf p) res).length * planeWords (psetOf p) dim

/-- Bytes that an object occupies. -/
def objSize (p dim : Nat) (res : Bool) : Nat := (32 + objLen p dim res + 63) / 64 * 64

/-- The 32 bytes of a header: set, dimension, planes. -/
def hdrPset (h : List Byte) : Nat := bits (fieldAt h 0 1) 0 2
def hdrDim (h : List Byte) : Nat := bits (fieldAt h 0 1) 2 2
def hdrRes (h : List Byte) : Bool := bit (fieldAt h 0 1) 4

/-- A well-formed header (Tables 15-3 and 15-4). -/
def hdrOk (h : List Byte) : Bool :=
  decide (hdrPset h ≠ 0 ∧ hdrDim h ≠ 3 ∧ bits (fieldAt h 0 1) 6 2 = 0 ∧ fieldAt h 1 1 = 0 ∧ fieldAt h 12 4 = 0 ∧
    fieldAt h 24 8 = 0) && (decide (hdrDim h ≠ 2) || !hdrRes h) &&
    decide (fieldAt h 8 4 = objLen (hdrPset h) (hdrDim h) (hdrRes h))

/-- Bytes read of an object: those of its form, or the header alone where it has none. -/
def hdrSize (h : List Byte) : Nat := if hdrOk h then 32 + fieldAt h 8 4 else 32

/-- An object from its header and its body. -/
def objOf (h : List Byte) (body : List DByte) : SealObj :=
  { pset := hdrPset h, dim := hdrDim h, res := hdrRes h, taint := bit (fieldAt h 0 1) 5, noise := fieldAt h 2 2,
    keyset := fieldAt h 4 4, user := fieldAt h 16 8,
    words := (List.range (fieldAt h 8 4 / 4)).map fun k => dNat ((body.drop (4 * k)).take 4) }

/-- The bytes of an object, padding included (R309, R323). -/
def objBytes (o : SealObj) : List Byte :=
  let body := o.words.flatMap (leBytes 4)
  let b := leBytes 1 (o.pset + o.dim * 2 ^ 2 + ofBit o.res * 2 ^ 4 + ofBit o.taint * 2 ^ 5) ++ leBytes 1 0 ++
    leBytes 2 o.noise ++ leBytes 4 o.keyset ++ leBytes 4 body.length ++ leBytes 4 0 ++ leBytes 8 o.user ++ leBytes 8 0 ++ body
  b ++ List.replicate ((64 - b.length % 64) % 64) 0#8

/-! ### Noise (R332 to R335) -/

/-- A `NOISE` value; none is zero variance. -/
abbrev Noise := Option Int

def noiseOf (w : Nat) : Noise := if w = 0x8000 then none else some (sint 16 w)

def noiseCode : Noise → Nat
  | none => 0x8000
  | some v => (v % 65536).toNat

/-- The largest `y` of `bits` bits with `y^256 ≤ t`. -/
def root256 : Nat → Nat → Nat → Nat
  | 0, _, y => y
  | k + 1, t, y => root256 k t (if (y + 2 ^ k) ^ 256 ≤ t then y + 2 ^ k else y)

/-- ⌊256 × log2(1 + 2^(−d / 256)) + 1/2⌋, from 64 bits of 2^(−d / 256), which decide it for every `d`. -/
def logStep (d : Nat) : Nat :=
  let y := if 256 * 64 < d then 0 else root256 65 (2 ^ (256 * 64 - d)) 0
  (((2 ^ 64 + y) ^ 512).log2 - 512 * 64 + 1) / 2

def logadd : Noise → Noise → Noise
  | none, y => y
  | x, none => x
  | some x, some y => some (min (max x y + logStep (max x y - min x y).toNat) 32767)

/-- ⌊512 × log2 w + 1/2⌋. -/
def logWeight (w : Nat) : Nat := ((w ^ 1024).log2 + 1) / 2

def scaleN (x : Noise) (w : Int) : Noise := x.map fun v => min (v + logWeight w.natAbs) 32767

/-- Constants of Table 16-1. -/
def nLim (p : Nat) : Int := if p = 1 then -3200 else -3584
def nFreshx (p : Nat) : Int := if p = 1 then -9728 else if p = 2 then -11264 else -11776
def nKs (p : Nat) : Int := if p = 1 then -6912 else if p = 2 then -8448 else -8960
def nFreshb (p : Nat) : Int := nKs p
def nRd (p : Nat) : Int := if p = 1 then -12800 else -14336

/-- Terms with equal TGAs as one (R335). -/
def addTerm (l : List (Nat × Int)) (t : Nat × Int) : List (Nat × Int) :=
  if l.any fun x => decide (x.1 = t.1) then l.map fun x => if x.1 = t.1 then (x.1, x.2 + t.2) else x else l ++ [t]

/-- The estimate of a linear combination. -/
def combine (no : Nat → Noise) (terms : List (Nat × Int)) : Noise :=
  ((terms.foldl addTerm []).filter fun t => t.2 ≠ 0).foldl (fun a t => logadd a (scaleN (no t.1) t.2)) none

/-! ### The convoy descriptor (Table 15-7) -/

def cvCtx (d : List Nat) : Nat := bits (d.getD 0 0) 0 4
def cvOp (d : List Nat) : Nat := bits (d.getD 0 0) 4 3
def cvGate (d : List Nat) : Nat := bits (d.getD 0 0) 8 3
def cvLift (d : List Nat) : Bool := bit (d.getD 0 0) 11
def cvCount (d : List Nat) : Nat := bits (d.getD 0 0) 12 7
def cvList (d : List Nat) : Nat := d.getD 1 0
def cvTp (d : List Nat) : Nat := d.getD 2 0
def cvWa (d : List Nat) : Int := sint 8 (bits (d.getD 3 0) 0 8)
def cvWb (d : List Nat) : Int := sint 8 (bits (d.getD 3 0) 8 8)
def cvK (d : List Nat) : Nat := bits (d.getD 3 0) 32 32

def opPbs : Nat := 0
def opKsw : Nat := 1
def opBconv : Nat := 2
def opGate : Nat := 3
def opLin : Nat := 4

/-- Check 1 of Table 15-8. -/
def convoyOk (d : List Nat) : Bool :=
  let op := cvOp d
  decide (op ≤ 4) && decide (1 ≤ cvCount d ∧ cvCount d ≤ 64) && decide (bits (d.getD 0 0) 36 28 = 0) &&
    (if op = opGate then decide (cvGate d ≤ 5) else decide (cvGate d = 0)) && (decide (op = opBconv) || !cvLift d) &&
    decide (cvList d % 32 = 0) && (decide (op = opPbs) == decide (cvTp d ≠ 0)) && decide (bits (d.getD 3 0) 16 16 = 0) &&
    (decide (op = opPbs ∨ op = opLin) || decide (d.getD 3 0 = 0)) && (rangeFrom 4 4).all fun i => decide (d.getD i 0 = 0)

/-- Operands of a list entry. -/
def cvOperands (d l : List Nat) : List Nat :=
  let a := l.getD 0 0
  let b := l.getD 1 0
  let op := cvOp d
  if op = opGate then (if cvGate d = 5 then [a, b, l.getD 2 0] else [a, b])
  else if (op = opPbs ∨ op = opLin) ∧ b ≠ 0 then [a, b] else [a]

/-- Operand TGAs that must be 0. -/
def cvUnused (d l : List Nat) : List Nat :=
  let op := cvOp d
  if op = opGate then (if cvGate d = 5 then [] else [l.getD 2 0])
  else if op = opPbs ∨ op = opLin then [l.getD 2 0] else [l.getD 1 0, l.getD 2 0]

/-- The form an operand has is one that Table 15-9 allows: `a` is operand A's. -/
def cvForm (d : List Nat) (o a : List Byte) : Bool :=
  let op := cvOp d
  let dim := hdrDim o
  let res := hdrRes o
  if op = opPbs ∨ op = opGate then decide (dim = 0) && !res
  else if op = opKsw then decide (dim = 1) && res
  else if op = opBconv then decide (dim ≤ 1) && (if cvLift d then !res else res)
  else decide (dim ≤ 1) && decide (dim = hdrDim a) && decide (res = hdrRes a)

/-- Form of the result. -/
def cvOutForm (d : List Nat) (a : List Byte) : Nat × Bool :=
  let op := cvOp d
  if op = opPbs then (1, true)
  else if op = opKsw ∨ op = opGate then (0, false)
  else if op = opBconv then (hdrDim a, cvLift d)
  else (hdrDim a, hdrRes a)

/-- Signed weights of a gate's combinations over A, B, C, with the constant in units of Δ (Table 15-10). -/
def gateCombs (gate : Nat) : List (List Int × Int) :=
  match gate with
  | 0 => [([-1, -1, 0], 1)]
  | 1 => [([1, 1, 0], -1)]
  | 2 => [([1, 1, 0], 1)]
  | 3 => [([2, 2, 0], 2)]
  | 4 => [([-2, -2, 0], -2)]
  | _ => [([1, 0, 1], -1), ([0, 1, -1], -1)]

/-- Terms of a combination over a list entry; an operand that is absent, or has weight 0, gives none. -/
def terms (l : List Nat) (ws : List Int) : List (Nat × Int) := (l.take 3).zip ws |>.filter fun t => t.2 ≠ 0

/-- Values checked against LIM, and the result's estimate (Table 16-2). -/
def entryNoise (p : Nat) (d l : List Nat) (no : Nat → Noise) : List Noise × Noise :=
  let op := cvOp d
  let na := no (l.getD 0 0)
  let lin := combine no (terms l [cvWa d, if l.getD 1 0 = 0 then 0 else cvWb d, 0])
  if op = opPbs then ([lin], some (nFreshx p))
  else if op = opLin then ([lin], lin)
  else if op = opKsw then (let v := logadd na (some (nKs p)); ([v], v))
  else if op = opBconv then (let v := if cvLift d then na else logadd na (some (nRd p)); ([v], v))
  else ((gateCombs (cvGate d)).map fun c => combine no (terms l c.1), some (nFreshb p))

def overLim (p : Nat) (x : Noise) : Bool := match x with
  | some v => decide (nLim p < v)
  | none => false

/-- Whether an entry is over (R336): 0 a spent operand or 1 a checked value, and the value. -/
def judge (p : Nat) (d l : List Nat) (no : Nat → Noise) : Option (Nat × Nat) :=
  match (cvOperands d l).find? fun a => overLim p (no a) with
  | some a => some (0, noiseCode (no a))
  | none => ((entryNoise p d l no).1.find? (overLim p)).map fun v => (1, noiseCode v)

/-- Marking of an entry that is over (R338): the operands still to look at, those refreshed for it, which begin with the ones that
earlier entries marked, all marks so far, and why it is over. Answers `WHICH` and `VALUE` of a refusal, or the refreshed operands and
the marks. -/
def markEntry (p : Nat) (d l : List Nat) (no : Nat → Noise) (bitCt : Nat → Bool) :
    List Nat → List Nat → List Nat → (Nat × Nat) → (Nat × Nat) ⊕ (List Nat × List Nat)
  | [], _, _, why => .inl (2, why.2)
  | a :: rest, mine, marks, why =>
    if mine.contains a then markEntry p d l no bitCt rest mine marks why
    else if !bitCt a then .inl (2, why.2)
    else if 64 ≤ marks.length then .inl (3, 0)
    else
      match judge p d l fun x => if x = a ∨ mine.contains x then some (nFreshb p) else no x with
      | none => .inr (mine ++ [a], marks ++ [a])
      | some why => markEntry p d l no bitCt rest (mine ++ [a]) (marks ++ [a]) why

/-- Outcome of check 7: a refusal with its list entry, `WHICH` and `VALUE`, or the marks, the operands refreshed for each entry, the
entries that run over under TAINT. Every entry is judged by its headers first (R337); what earlier entries marked counts as
refreshed in one that is over (R338). -/
def cvNoise (p policy : Nat) (d : List Nat) (no : Nat → Noise) (bitCt : Nat → Bool) :
    Nat → List (List Nat) → List Nat → (Nat × Nat × Nat) ⊕ (List Nat × List (List Nat) × List Bool)
  | _, [], marks => .inr (marks, [], [])
  | i, l :: ls, marks =>
    let next (mine : List Nat) (hot : Bool) (marks : List Nat) :=
      match cvNoise p policy d no bitCt (i + 1) ls marks with
      | .inl e => .inl e
      | .inr (m, f, h) => .inr (m, mine :: f, hot :: h)
    match judge p d l no with
    | none => next [] false marks
    | some why =>
      if policy = 0 then .inl (i, why.1, why.2)
      else if policy = 2 then next [] true marks
      else
        let ops := cvOperands d l
        let mine := ops.filter marks.contains
        match judge p d l fun x => if mine.contains x then some (nFreshb p) else no x with
        | none => next mine false marks
        | some why => match markEntry p d l no bitCt ops mine marks why with
          | .inl e => .inl (i, e.1, e.2)
          | .inr (mine, marks) => next mine false marks

/-- First non-zero code of a list. -/
def firstBad (l : List Nat) : Nat := (l.find? fun c => decide (c ≠ 0)).getD 0

/-! ### Kernels (R320, R321) -/

/-- Sum of weighted words and a constant on the body word, plane by plane. -/
def linWords (x : PSet) (dim : Nat) (res : Bool) (ts : List (Int × List Nat)) (k : Nat) : List Nat :=
  let len := planeWords x dim
  ((List.range (objPrimes x res).length).zip (objPrimes x res)).flatMap fun pl =>
    (List.range len).map fun i =>
      let body : Int := if i + 1 = len then k else 0
      ((ts.foldl (fun (a : Int) t => a + t.1 * (t.2.getD (pl.1 * len + i) 0 : Nat)) body) % (pl.2 : Int)).toNat

/-- The number modulo Q of residues (R320). -/
def crtOf (x : PSet) (rs : List Nat) : Nat :=
  ((x.primes.zip rs).foldl (fun a t =>
    let m := x.q / t.1
    a + t.2 % t.1 * m * powMod t.1 (m % t.1) (t.1 - 2) 32) 0) % x.q

/-- Column `i` of an object's planes. -/
def column (x : PSet) (dim : Nat) (ws : List Nat) (i : Nat) : List Nat :=
  (List.range x.r).map fun k => ws.getD (k * planeWords x dim + i) 0

/-- ⌊y · p0 / Q⌉ modulo p0. -/
def roundDown (x : PSet) (y : Nat) : Nat := (2 * y * p0 + x.q) / (2 * x.q) % p0

/-- Every word reduced to p0 (BCONV, `BMODE` 0). -/
def reduceWords (x : PSet) (dim : Nat) (ws : List Nat) : List Nat :=
  (List.range (planeWords x dim)).map fun i => roundDown x (crtOf x (column x dim ws i))

/-- Every word lifted (BCONV, `BMODE` 1). -/
def liftWords (x : PSet) (ws : List Nat) : List Nat := x.primes.flatMap fun p => ws.map fun y => y * x.cofactor % p

/-- Signed digits of a value of `l × b` bits, the least significant first. -/
def digits (b : Nat) : Nat → Nat → List Int
  | 0, _ => []
  | l + 1, t =>
    let v := t % 2 ^ b
    if 2 ^ (b - 1) ≤ v then ((v : Int) - 2 ^ b) :: digits b l (t / 2 ^ b + 1) else (v : Int) :: digits b l (t / 2 ^ b)

/-- Key switching of an extracted ciphertext's words with a KSK, given by the 4-byte word at each offset (R313, R320). -/
def kswWords (x : PSet) (ksk : Nat → Nat) (ws : List Nat) : List Nat :=
  let w := x.lks * x.bks
  let digs := (List.range x.big).map fun i =>
    let t := (2 * crtOf x (column x 1 ws i) * 2 ^ w + x.q) / (2 * x.q)
    (digits x.bks x.lks (t % 2 ^ w)).reverse
  let word (i j k c : Nat) : Nat := ksk ((i * x.lks + j) * (4 * x.r * (x.n + 1)) + 4 * (k * (x.n + 1) + c))
  let planes := ((List.range x.r).zip x.primes).flatMap fun pl =>
    (List.range (x.n + 1)).map fun c =>
      let body : Int := if c = x.n then (ws.getD (pl.1 * (x.big + 1) + x.big) 0 : Nat) else 0
      ((((List.range x.big).zip digs).foldl (fun (a : Int) d =>
        ((List.range x.lks).zip d.2).foldl (fun (a : Int) t => a - t.2 * (word d.1 t.1 pl.1 c : Nat)) a) body) % (pl.2 : Int)).toNat
  reduceWords x 0 planes

/-! Programmable bootstrapping (R311, R313, R320): the phase of the result is the one that the spec states, under the key that the
BSK encrypts, and an error; the key, the error and the mask are free (log entry 22). -/

/-- A word mod p0 switched to the modulus 2N. -/
def modSwitch (x : PSet) (c : Nat) : Nat := (4 * x.big * c + p0) / (2 * p0) % (2 * x.big)

/-- x̃ of an input's words, under the key bits. -/
def pbsPhase (x : PSet) (key : Nat → Bool) (c : List Nat) : Nat :=
  (((List.range x.n).foldl (fun (a : Int) i => if key i then a - (modSwitch x (c.getD i 0) : Nat) else a)
    (modSwitch x (c.getD x.n 0) : Nat)) % ((2 * x.big : Nat) : Int)).toNat

/-- F of a test polynomial's words. -/
def testPoly (x : PSet) (v : List Nat) (t : Nat) : Int :=
  if t < x.big then (v.getD t 0 : Nat) else -(v.getD (t - x.big) 0 : Nat)

/-- The words of the n-th bootstrapped ciphertext: free residues of every prime for its mask, and the body word that gives it the
phase F(x̃)·Q/p0 and its error. -/
def pbsWords (x : PSet) (bsk : List Byte) (n : Nat) (c v : List Nat) : List Nat :=
  let f := testPoly x v (pbsPhase x (Config.sealKey bsk) c) * (x.cofactor : Int) + Config.pbsError n
  ((List.range x.r).zip x.primes).flatMap fun pl =>
    let a (i : Nat) : Nat := (Config.pbsWord n (pl.1 * (x.big + 1) + i)).toNat % pl.2
    let b := (List.range x.big).foldl (fun (z : Int) i => z + (a i : Int) * Config.sealExt bsk i) f
    (List.range x.big).map a ++ [(b % (pl.2 : Int)).toNat]

/-- The test polynomial of a gate and of a refresh: every word Δ (R321, R338). -/
def flatPoly (x : PSet) : List Nat := List.replicate x.big sealDelta

end Sys2Proof.Machine
end

