-- ==== Sys2Proof/Machine/Seal.lean ====
section
/-! DEFINITION. The Seal unit (chapters 15 and 16). -/

namespace Sys2Proof.Machine

/-! ### Reading (R319, R324): the unit asks for what it looks at and goes on when it is back (log entry 70) -/

/-- The bytes of a range as the unit read them. -/
def sealGot (s : State) (ch a n : Nat) : List DByte := unitGot s ch 1 a n

/-- The code of what the unit read of a range: a failed read's, or that of a poisoned word (R326). -/
def sealBad (s : State) (ch a n : Nat) : Nat :=
  if unitCode s ch 1 false a n ≠ 0 then unitCode s ch 1 false a n
  else if anyPsn (sealGot s ch a n) then cEccUncorrected
  else 0

/-- A look at ranges: what to ask for where one is not back, else what follows. -/
def sealLook {α : Type} (s : State) (ch : Nat) (l : List (Nat × Nat)) (k : List (Nat × Nat) ⊕ α) : List (Nat × Nat) ⊕ α :=
  if unitBack s ch 1 false l then k else .inl l

/-- Words of 8 bytes of a range that was read. -/
def sealWords (s : State) (ch a n : Nat) : List Nat :=
  (List.range n).map fun i => dNat (((sealGot s ch a (8 * n)).drop (8 * i)).take 8)

/-- The header of an object. -/
def hdrAt (s : State) (ch a : Nat) : List Byte := (sealGot s ch a 32).map Prod.fst

/-- Bytes of an object after its header. -/
def bodyLen (s : State) (ch a : Nat) : Nat := hdrSize (hdrAt s ch a) - 32

def readObj (s : State) (ch a : Nat) : SealObj := objOf (hdrAt s ch a) (sealGot s ch (a + 32) (bodyLen s ch a))

/-! ### CHECK (R319, Tables 15-8 and 16-3) -/

/-- Check 4 for one range. -/
def sealRange (s : State) (ch : Nat) (fn : Option Nat) (write : Bool) (a n : Nat) : Nat :=
  if !isOwn s ch a || decide (2 ≤ tgaSpace a) then cUnitAbsent
  else
    let c := accessCode s ch fn write a n
    if c ≠ 0 then c
    else if !write && decide (tgaSpace a = 0) && rangeLost s ch (tgaOff a) n then cUnitAbsent
    else 0

def ctxState (s : State) (ch k : Nat) : Nat := s.fget Fld.SEAL_CTXn_STAT_STATE ch k
def ctxPset (s : State) (ch k : Nat) : Nat := s.fget Fld.SEAL_CTXn_STAT_PSET ch k

def ctxValid : Nat := 2

/-- The function may use the unit (R377). -/
def sealGranted (s : State) (ch : Nat) (fn : Option Nat) : Bool :=
  match fn with
  | none => true
  | some f => recSeal (s.fnrec ch f)

/-- The function that owns the cluster an entry came from (R315). -/
def sealOwner (s : State) (ch : Nat) (e : SealEnt) : Nat := (clFn s ch (e.w / 2)).getD 0

/-- The context is held by another function (R315). -/
def ctxOther (s : State) (ch k : Nat) (e : SealEnt) : Bool :=
  decide (ctxState s ch k ≠ 0) && decide (s.fget Fld.SEAL_CTXn_STAT_FUNC ch k ≠ sealOwner s ch e)

/-- The objects that a convoy reads: the test polynomial first. -/
def cvReads (d : List Nat) (ls : List (List Nat)) : List Nat :=
  (if cvOp d = opPbs then [cvTp d] else []) ++ ls.flatMap (cvOperands d)

/-- The ranges of a convoy in the order of check 4: whether written, address, bytes. -/
def cvRanges (s : State) (ch : Nat) (d : List Nat) (ls : List (List Nat)) (p : Nat) : List (Bool × Nat × Nat) :=
  let rd (a : Nat) : Bool × Nat × Nat := (false, a, hdrSize (hdrAt s ch a))
  (if cvOp d = opPbs then [rd (cvTp d)] else []) ++
    ls.flatMap fun l =>
      let f := cvOutForm d (hdrAt s ch (l.getD 0 0))
      (cvOperands d l).map rd ++ [(true, l.getD 3 0, objSize p f.1 f.2)]

/-- Check 5 for one list entry. -/
def cvEntryOk (s : State) (ch : Nat) (d l : List Nat) : Bool :=
  let a := hdrAt s ch (l.getD 0 0)
  (cvOperands d l).all (fun o => decide (o % 64 = 0) && hdrOk (hdrAt s ch o) && cvForm d (hdrAt s ch o) a) &&
    decide (l.getD 3 0 % 64 = 0) && (cvUnused d l).all fun o => decide (o = 0)

/-- Check 5 for the test polynomial. -/
def cvTpOk (s : State) (ch : Nat) (d : List Nat) : Bool :=
  decide (cvOp d ≠ opPbs) ||
    (decide (cvTp d % 64 = 0) && hdrOk (hdrAt s ch (cvTp d)) && decide (hdrDim (hdrAt s ch (cvTp d)) = 2))

/-- Check 6 for one object (R341). -/
def cvAgree (s : State) (ch k : Nat) (tp : Bool) (a : Nat) : Nat :=
  let h := hdrAt s ch a
  if hdrPset h ≠ ctxPset s ch k then cSealParamMismatch
  else if !tp && decide (fieldAt h 4 4 ≠ s.fget Fld.SEAL_CTXn_STAT_KEYSET ch k) then cSealKeyMissing
  else 0

/-- What a check answers: a code, its address for a report, the descriptor, the list. -/
abbrev CvRes := Nat × Nat × List Nat × List (List Nat)

/-- Checks 4 to 6 once the list stands: the headers are read, then the objects, each within the rights of its reader. -/
def cvObjects (s : State) (ch : Nat) (fn : Option Nat) (d : List Nat) (ls : List (List Nat)) : List (Nat × Nat) ⊕ CvRes :=
  let k := cvCtx d
  let may (a n : Nat) : Bool := decide (sealRange s ch fn false a n = 0)
  sealLook s ch (((cvReads d ls).filter fun a => may a 32).map fun a => (a, 32)) <|
    let rs := cvRanges s ch d ls (ctxPset s ch k)
    match rs.find? fun r => decide (sealRange s ch fn r.1 r.2.1 r.2.2 ≠ 0) with
    | some r => .inr (sealRange s ch fn r.1 r.2.1 r.2.2, r.2.1, d, [])
    | none =>
      sealLook s ch ((cvReads d ls).map fun a => (a + 32, bodyLen s ch a)) <|
        let bad := firstBad ((cvReads d ls).flatMap fun a => [sealBad s ch a 32, sealBad s ch (a + 32) (bodyLen s ch a)])
        if bad ≠ 0 then .inr (bad, 0, d, [])
        else if !(cvTpOk s ch d && ls.all (cvEntryOk s ch d)) then .inr (cCfgIgnored, 0, d, [])
        else
          let tp := if cvOp d = opPbs then cvAgree s ch k true (cvTp d) else 0
          let c := firstBad (ls.flatMap fun l => (cvOperands d l).map (cvAgree s ch k false) ++ [tp])
          .inr (if c ≠ 0 then (c, 0, d, []) else (0, 0, d, ls))

/-- Checks 1 to 6 (R319, R326, R377): what has still to be read, or the answer. -/
def cvCheck (s : State) (ch : Nat) (e : SealEnt) : List (Nat × Nat) ⊕ CvRes :=
  let fn := e.fn
  if !sealGranted s ch fn then .inr (cRptViolation, e.desc, [], [])
  else if e.desc % 64 ≠ 0 then .inr (cCfgIgnored, 0, [], [])
  else if sealRange s ch fn false e.desc 64 ≠ 0 then .inr (sealRange s ch fn false e.desc 64, e.desc, [], [])
  else sealLook s ch [(e.desc, 64)] <|
    if sealBad s ch e.desc 64 ≠ 0 then .inr (sealBad s ch e.desc 64, 0, [], [])
    else
      let d := sealWords s ch e.desc 8
      let k := cvCtx d
      let l := (cvList d, 32 * cvCount d)
      if !convoyOk d then .inr (cCfgIgnored, 0, d, [])
      else if ctxOther s ch k e then .inr (cRptViolation, e.desc, d, [])
      else if ctxState s ch k ≠ ctxValid then .inr (cSealKeyMissing, 0, d, [])
      else if sealRange s ch fn false l.1 l.2 ≠ 0 then .inr (sealRange s ch fn false l.1 l.2, l.1, d, [])
      else sealLook s ch [l] <|
        if sealBad s ch l.1 l.2 ≠ 0 then .inr (sealBad s ch l.1 l.2, 0, d, [])
        else
          let ws := sealWords s ch l.1 (4 * cvCount d)
          cvObjects s ch fn d ((List.range (cvCount d)).map fun i => (ws.drop (4 * i)).take 4)

/-- The phase that follows CHECK and REFRESH. -/
def passPhase (d : List Nat) : Nat :=
  if cvOp d = opPbs ∨ cvOp d = opGate then 3 else if cvOp d = opKsw then 4 else 5

def setRun (s : State) (ch : Nat) (f : SealRun → SealRun) : State := s.setSeal ch fun u => { u with run := u.run.map f }

/-- The unit's district is clocked. -/
def sealClocked (s : State) (ch : Nat) : Bool := !(s.dist ch 4).pllLost

/-- The convoy that runs, in a phase. -/
def runAt (s : State) (ch phase : Nat) : Option (SealRun × SealEnt) :=
  match (s.seal ch).run with
  | none => none
  | some r =>
    if r.phase = phase ∧ sealClocked s ch then (SMap.get? (s.seal ch).ents r.ent).map fun e => (r, e) else none

/-- The unit asks for ranges on behalf of an entry. -/
def sealAsk (s : State) (ch : Nat) (e : SealEnt) (l : List (Nat × Nat)) : State := unitAsk s ch 1 97 e.fn l

/-- `SEAL_ENTRY_BEGIN` (R315, R318, R343): the entry at the head begins, or is refused where a disable barred it. -/
def execSealEntryBegin (ch : Ch) (s : State) : Host.Outcome State Fault Refusal := .next <|
  let c := ch.val
  match (s.seal c).run, (s.seal c).order with
  | none, n :: _ =>
    match SMap.get? (s.seal c).ents n with
    | none => s
    | some e =>
      if !sealClocked s c then s
      else if e.barred then
        let s := match e.ctx with
          | some k => s.fset Fld.SEAL_CTXn_STAT_CODE c k cUnitAbsent
          | none => s
        sealComplete s c n cUnitAbsent
      else
        let s := wakeDistrict s c 4
        match e.ctx with
        | some k =>
          let s := if ctxOther s c k e || !sealGranted s c e.fn then s
            else (s.fset Fld.SEAL_CTXn_STAT_STATE c k 1).fset Fld.SEAL_CTXn_STAT_FUNC c k (sealOwner s c e)
          s.setSeal c fun u => { u with run := some { ent := n, phase := 7 } }
        | none => s.setSeal c fun u => { u with run := some { ent := n, phase := 1 } }
  | _, _ => s

/-! ### Context loads (R312 to R315) -/

/-- What a context load answers: a code, the context's new word, the addresses of the keys. -/
abbrev CtxRes := Nat × Nat × Nat × Nat

/-- Checks 2 to 4 of a load on the directory, for a descriptor's key set, parameter set and policy. -/
def dirCheck (s : State) (ch : Nat) (e : SealEnt) (hbm : Nat → Nat → Bool) (dir ks p pol : Nat) : CtxRes :=
  let b := (sealGot s ch dir 64).map Prod.fst
  let bo := dir + fieldAt b 16 8
  let ko := dir + fieldAt b 24 8
  if !hbm bo (fieldAt b 32 8) || !hbm ko (fieldAt b 40 8) then (cRptViolation, 0, 0, 0)
  else if fieldAt b 0 4 ≠ 0x594B4C53 ∨ fieldAt b 48 4 ≠ crc32c (b.take 48) ∨ fieldAt b 4 4 ≠ ks then (cSealKeyMissing, 0, 0, 0)
  else if fieldAt b 8 1 ≠ p ∨ fieldAt b 32 8 ≠ (psetOf p).bsk ∨ fieldAt b 40 8 ≠ (psetOf p).ksk then (cSealParamMismatch, 0, 0, 0)
  else (0, ctxValid + p * 2 ^ 2 + pol * 2 ^ 4 + sealOwner s ch e * 2 ^ 8 + ks * 2 ^ 32, bo, ko)

/-- Checks of a load or release (R315): what has still to be read, or the answer. -/
def ctxCheck (s : State) (ch : Nat) (e : SealEnt) : List (Nat × Nat) ⊕ CtxRes :=
  let hbm (a n : Nat) : Bool := decide (tgaSpace a = 0 ∧ sealRange s ch e.fn false a n = 0)
  if !hbm e.desc 32 then .inr (cRptViolation, 0, 0, 0)
  else sealLook s ch [(e.desc, 32)] <|
    if sealBad s ch e.desc 32 ≠ 0 then .inr (sealBad s ch e.desc 32, 0, 0, 0)
    else
      let d := sealWords s ch e.desc 4
      let dir := d.getD 0 0
      let ks := bits (d.getD 1 0) 0 32
      let p := bits (d.getD 1 0) 32 2
      let pol := bits (d.getD 1 0) 34 2
      if bits (d.getD 1 0) 36 28 ≠ 0 ∨ d.getD 2 0 ≠ 0 ∨ d.getD 3 0 ≠ 0 ∨ pol = 3 then .inr (cCfgIgnored, 0, 0, 0)
      else if p = 0 then .inr (0, 0, 0, 0)
      else if !hbm dir 64 then .inr (cRptViolation, 0, 0, 0)
      else sealLook s ch [(dir, 64)] <|
        if sealBad s ch dir 64 ≠ 0 then .inr (sealBad s ch dir 64, 0, 0, 0)
        else .inr (dirCheck s ch e hbm dir ks p pol)

/-- `SEAL_CONTEXT_LOAD_DONE` (R314, R315): a load refused for its function leaves the context unchanged. -/
def execSealContextLoadDone (ch : Ch) (s : State) : Host.Outcome State Fault Refusal := .next <|
  let c := ch.val
  match runAt s c 7 with
  | none => s
  | some (r, e) =>
    let k := e.ctx.getD 0
    if ctxState s c k ≠ 1 then
      sealComplete (refusedBy s c e.fn cRptViolation e.desc) c r.ent cRptViolation
    else
      match ctxCheck s c e with
      | .inl l => sealAsk s c e l
      | .inr (0, w, bo, ko) =>
        let s := s.setReg .SEAL_CTXn_STAT c k w
        let s := s.setSeal c fun u =>
          { u with keydir := if w = 0 then SMap.erase u.keydir k else SMap.put u.keydir k (bo, ko) }
        sealComplete s c r.ent 0
      | .inr (code, _, _, _) =>
        let s := (s.fset Fld.SEAL_CTXn_STAT_STATE c k 3).fset Fld.SEAL_CTXn_STAT_CODE c k code
        sealComplete (refusedBy s c e.fn code e.desc) c r.ent code

/-- A convoy ends at check 7 (R337, `SEAL_NOISEREC`). -/
def noiseEnd (s : State) (ch n list which value : Nat) : State :=
  let s := s.setReg .SEAL_NOISEREC ch 0 (n + list * 2 ^ 4 + which * 2 ^ 10 + value * 2 ^ 16)
  sealComplete (s.fadd Fld.SEAL_NOISESTAT_LIMITS ch 0 1) ch n cSealNoiseLimit

/-- `SEAL_CHECK_DONE` (R319, R337, R338, R341): the operands read stay with the unit. -/
def execSealCheckDone (ch : Ch) (s : State) : Host.Outcome State Fault Refusal := .next <|
  let c := ch.val
  match runAt s c 1 with
  | none => s
  | some (r, e) =>
    match cvCheck s c e with
    | .inl l => sealAsk s c e l
    | .inr (code, addr, d, ls) =>
      let t := setRun s c fun x => { x with d := d }
      if code ≠ 0 then sealComplete (refusedBy t c e.fn code addr) c r.ent code
      else
        let k := cvCtx d
        let p := ctxPset s c k
        let no (a : Nat) : Noise := noiseOf (fieldAt (hdrAt s c a) 2 2)
        let bitCt (a : Nat) : Bool := decide (hdrDim (hdrAt s c a) = 0) && !hdrRes (hdrAt s c a)
        match cvNoise p (s.fget Fld.SEAL_CTXn_STAT_POLICY c k) d no bitCt 0 ls [] with
        | .inl (i, which, value) => noiseEnd t c r.ent i which value
        | .inr (marks, fresh, hot) =>
          let objs := (ls.flatMap (cvOperands d)).foldl (fun m a =>
            if (SMap.get? m a).isSome then m else SMap.put m a (readObj s c a)) []
          let noises := (ls.zip fresh).map fun x =>
            noiseCode (entryNoise p d x.1 fun a => if x.2.contains a then some (nFreshb p) else no a).2
          let t := (dropKeyReads t c).fadd Fld.SEAL_NOISESTAT_TAINTED c 0 (hot.countP id)
          setRun t c fun x =>
            { x with phase := if marks.isEmpty then passPhase d else 2
                     lists := ls, tp := if cvOp d = opPbs then some (readObj s c (cvTp d)) else none
                     objs := objs, marks := marks, fresh := fresh, hot := hot, noises := noises, keyPos := 0, passes := 0 }

/-! ### Operands and results -/

/-- No object. -/
def noObj : SealObj := ⟨0, 0, false, false, 0, 0, 0, []⟩

/-- An operand as a list entry uses it: its refreshed copy where it has one. -/
def effective (r : SealRun) (i a : Nat) : SealObj :=
  if (r.fresh.getD i []).contains a then SMap.get (SMap.get noObj r.objs a) r.copies a else SMap.get noObj r.objs a

/-- The result of a list entry with its header (R323, R339). -/
def resultObj (s : State) (ch : Nat) (r : SealRun) (i dim : Nat) (res : Bool) (ws : List Nat) : SealObj :=
  let l := r.lists.getD i []
  let k := cvCtx r.d
  { pset := ctxPset s ch k, dim := dim, res := res
    taint := r.hot.getD i false || (cvOperands r.d l).any fun a => (effective r i a).taint
    noise := r.noises.getD i 0x8000, keyset := s.fget Fld.SEAL_CTXn_STAT_KEYSET ch k
    user := (effective r i (l.getD 0 0)).user, words := ws }

/-- Addresses of the BSK and the KSK of a convoy. -/
def cvKeys (s : State) (ch : Nat) (r : SealRun) : Nat × Nat := SMap.get (0, 0) (s.seal ch).keydir (cvCtx r.d)

/-- The bytes of a BSK, and the word of a KSK at an offset, as they stand (R313, log entry 71). -/
def bskBytes (s : State) (x : PSet) (a : Nat) : List Byte := (s.readMem (tgaMem a) x.bsk).map Prod.fst
def kskWord (s : State) (a o : Nat) : Nat := dNat (s.readMem (tgaMem a + o) 4)

/-- Accumulators bootstrapped: the input words and the test polynomial of each. -/
def bootstrap (s : State) (ch : Nat) (x : PSet) (bsk : Nat) (jobs : List (List Nat × List Nat)) : State × List (List Nat) :=
  let n := s.free
  let key := bskBytes s x bsk
  ({ s with free := n + jobs.length }.fadd Fld.SEAL_PBSCNT_PBS ch 0 jobs.length,
    (jobs.zip (List.range jobs.length)).map fun j => pbsWords x key (n + j.2) j.1.1 j.1.2)

/-- The linear combination that an accumulator of a PBS or GATE convoy bootstraps, and its test polynomial (R320, R321). -/
def pbsJob (x : PSet) (r : SealRun) (j : Nat) : List Nat × List Nat :=
  let mux := decide (cvOp r.d = opGate ∧ cvGate r.d = 5)
  let i := if mux then j / 2 else j
  let l := r.lists.getD i []
  let w (t : Nat × Int) : Int × List Nat := (t.2, (effective r i t.1).words)
  if cvOp r.d = opGate then
    let c := (gateCombs (cvGate r.d)).getD (if mux then j % 2 else 0) ([], 0)
    (linWords x 0 false ((terms l c.1).map w) ((c.2 * sealDelta) % (p0 : Int)).toNat, flatPoly x)
  else
    (linWords x 0 false ((terms l [cvWa r.d, if l.getD 1 0 = 0 then 0 else cvWb r.d, 0]).map w) (cvK r.d),
      ((r.tp.map SealObj.words).getD []))

/-! ### Key streaming (R313, R329) -/

/-- The keys that the present phase streams: address and length, in order. -/
def keyRuns (s : State) (ch : Nat) (r : SealRun) : List (Nat × Nat) :=
  let x := psetOf (ctxPset s ch (cvCtx r.d))
  let keys := cvKeys s ch r
  if r.phase = 2 then [(keys.1, x.bsk), (keys.2, x.ksk)]
  else if r.phase = 3 then [(keys.1, x.bsk)]
  else if r.phase = 4 then [(keys.2, x.ksk)]
  else []

/-- The next key bytes: address and how many, up to 512 and up to the end of the key. -/
def keyNext : List (Nat × Nat) → Nat → Option (Nat × Nat)
  | [], _ => none
  | (a, n) :: rest, pos => if pos < n then some (a + pos, min 512 (n - pos)) else keyNext rest (pos - n)

/-- Place of an address in a phase's stream. -/
def keyAt : List (Nat × Nat) → Nat → Nat
  | [], _ => 0
  | (b, n) :: rest, a => if b ≤ a ∧ a < b + n then a - b else n + keyAt rest a

/-- Key bytes of the phase that are back, up to the first that is not. -/
def keyDone (s : State) (ch : Nat) (r : SealRun) : Nat :=
  match (s.chan ch).reqs.find? fun q => decide (q.ret = .seal) with
  | some q => keyAt (keyRuns s ch r) q.tga
  | none => r.keyPos

/-- Bytes of the BSK in the phase's stream. -/
def keyBsk (s : State) (ch : Nat) (r : SealRun) : Nat :=
  if r.phase = 2 ∨ r.phase = 3 then (psetOf (ctxPset s ch (cvCtx r.d))).bsk else 0

/-- A read of the BSK stays within the GGSW entry that follows the one in use (R329): the key buffer holds two. -/
def keyAhead (s : State) (ch : Nat) (r : SealRun) : Bool :=
  let g := (psetOf (ctxPset s ch (cvCtx r.d))).ggsw
  decide (keyBsk s ch r ≤ r.keyPos) || decide (r.keyPos < (keyDone s ch r / g + 1) * g)

/-- `KEY_STREAM_READ` (R329): the next read is issued and waits for its entry. -/
def execKeyStreamRead (ch : Ch) (s : State) : Host.Outcome State Fault Refusal := .next <|
  let c := ch.val
  match (s.seal c).run with
  | none => s
  | some r =>
    match SMap.get? (s.seal c).ents r.ent, keyNext (keyRuns s c r) r.keyPos with
    | some e, some (a, n) =>
      if !sealClocked s c || !keyAhead s c r then s
      else
        setRun (pushReq s c { ret := .seal, fn := e.fn, epoch := epochOf s c, cl := 97, tga := a, op := .read n, cls := 0, place := .table })
          c fun x => { x with keyPos := x.keyPos + n }
    | _, _ => s

/-- What ends the present phase's stream: the code of a failed read (R326), or none once every key byte is back. -/
def streamEnd (s : State) (ch : Nat) (r : SealRun) : Option Nat :=
  if r.bad ≠ 0 then some r.bad
  else if keyDone s ch r = ((keyRuns s ch r).map Prod.snd).sum then some 0
  else none

/-! ### Phases (R319, R322, R338) -/

/-- A marked operand's refreshed copy. -/
def refreshed (s : State) (x : PSet) (p ksk : Nat) (o : SealObj) (ws : List Nat) : SealObj :=
  { o with noise := noiseCode (some (nFreshb p)), taint := o.taint || overLim p (noiseOf o.noise)
           words := kswWords x (kskWord s ksk) ws }

/-- `SEAL_REFRESH_DONE` (R338). -/
def execSealRefreshDone (ch : Ch) (s : State) : Host.Outcome State Fault Refusal := .next <|
  let c := ch.val
  match runAt s c 2 with
  | none => s
  | some (r, _) =>
    match streamEnd s c r with
    | none => s
    | some 0 =>
      let p := ctxPset s c (cvCtx r.d)
      let x := psetOf p
      let keys := cvKeys s c r
      let (t, accs) := bootstrap s c x keys.1 (r.marks.map fun a => ((SMap.get noObj r.objs a).words, flatPoly x))
      let t := (t.fadd Fld.SEAL_KSWCNT_KSW c 0 r.marks.length).fadd Fld.SEAL_NOISESTAT_REFRESHES c 0 r.marks.length
      let copies := (r.marks.zip accs).foldl (fun m a =>
        match SMap.get? r.objs a.1 with
        | none => m
        | some o => SMap.put m a.1 (refreshed s x p keys.2 o a.2)) []
      setRun t c fun y => { y with phase := passPhase r.d, copies := copies, keyPos := 0 }
    | some code => sealComplete s c r.ent code

/-- Accumulators of a convoy. -/
def accCount (r : SealRun) : Nat := if cvOp r.d = opGate ∧ cvGate r.d = 5 then 2 * r.lists.length else r.lists.length

/-- Accumulators of the present pass. -/
def passAccs (r : SealRun) : Nat := if r.phase = 2 then r.marks.length else min 64 (accCount r - 64 * r.passes)

/-- `SEAL_PBS_PASS_DONE` (R321, R322): after the last pass a PBS convoy has its results, a gate goes on to key switching. -/
def execSealPbsPassDone (ch : Ch) (s : State) : Host.Outcome State Fault Refusal := .next <|
  let c := ch.val
  match runAt s c 3 with
  | none => s
  | some (r, _) =>
    if !r.outs.isEmpty then s
    else match streamEnd s c r with
    | none => s
    | some 0 =>
      let p := ctxPset s c (cvCtx r.d)
      let x := psetOf p
      let (s, accs) := bootstrap s c x (cvKeys s c r).1 ((rangeFrom (64 * r.passes) (passAccs r)).map (pbsJob x r))
      let objs := accs.map fun ws => ({ noObj with pset := p, dim := 1, res := true, words := ws } : SealObj)
      let r' := { r with accs := r.accs ++ objs, passes := r.passes + 1, keyPos := 0 }
      let s := setRun s c fun _ => r'
      if r'.accs.length < accCount r then s
      else if cvOp r.d = opGate then setRun s c fun y => { y with phase := 4 }
      else
        let outs := (List.range r.lists.length).map fun i => resultObj s c r' i 1 true (r'.accs.getD i noObj).words
        setRun s c fun y => { y with outs := outs }
    | some code => sealComplete s c r.ent code

/-- The ciphertext that a list entry key-switches (R321, R322). -/
def kswInput (x : PSet) (r : SealRun) (i : Nat) : List Nat :=
  let acc (j : Nat) : List Nat := (r.accs.getD j noObj).words
  if cvOp r.d = opKsw then (effective r i ((r.lists.getD i []).getD 0 0)).words
  else if cvGate r.d = 5 then linWords x 1 true [(1, acc (2 * i)), (1, acc (2 * i + 1))] (sealDelta * x.cofactor)
  else acc i

/-- `SEAL_KSW_PASS_DONE` (R320, R322). -/
def execSealKswPassDone (ch : Ch) (s : State) : Host.Outcome State Fault Refusal := .next <|
  let c := ch.val
  match runAt s c 4 with
  | none => s
  | some (r, _) =>
    if !r.outs.isEmpty then s
    else match streamEnd s c r with
    | none => s
    | some 0 =>
      let x := psetOf (ctxPset s c (cvCtx r.d))
      let outs := (List.range r.lists.length).map fun i =>
        resultObj s c r i 0 false (kswWords x (kskWord s (cvKeys s c r).2) (kswInput x r i))
      setRun (s.fadd Fld.SEAL_KSWCNT_KSW c 0 r.lists.length) c fun y => { y with keyPos := 0, outs := outs }
    | some code => sealComplete s c r.ent code

/-- Result of a `BCONV` or `LIN` list entry. -/
def linearOut (s : State) (ch : Nat) (r : SealRun) (i : Nat) : SealObj :=
  let x := psetOf (ctxPset s ch (cvCtx r.d))
  let l := r.lists.getD i []
  let a := effective r i (l.getD 0 0)
  if cvOp r.d = opBconv then
    if cvLift r.d then resultObj s ch r i a.dim true (liftWords x a.words)
    else resultObj s ch r i a.dim false (reduceWords x a.dim a.words)
  else
    let ts := (cvWa r.d, a.words) :: (if l.getD 1 0 = 0 then [] else [(cvWb r.d, (effective r i (l.getD 1 0)).words)])
    resultObj s ch r i a.dim a.res (linWords x a.dim a.res ts (if a.res then cvK r.d * x.cofactor else cvK r.d))

/-- `SEAL_LINEAR_DONE` (R320). -/
def execSealLinearDone (ch : Ch) (s : State) : Host.Outcome State Fault Refusal := .next <|
  let c := ch.val
  match runAt s c 5 with
  | none => s
  | some (r, _) =>
    if !r.outs.isEmpty then s
    else setRun s c fun y => { y with outs := (List.range r.lists.length).map (linearOut s c r) }

/-! ### WRITE (R323 to R327) -/

/-- Outcome of an output whose target is gone (R327). -/
def outGone (s : State) (ch a n : Nat) : Nat :=
  if targetCode s a ≠ 0 then targetCode s a
  else if fencedTarget s a then cUnitAbsent
  else if tgaSpace a = 0 ∧ rangeLost s ch (tgaOff a) n then cUnitAbsent
  else 0

/-- The writes of one output issued. -/
def writeOut (ch : Nat) (fn : Option Nat) (acc : State × List (Nat × List Nat)) (t : Nat × SealObj) : State × List (Nat × List Nat) :=
  let s := acc.1
  let b := cleanBytes (objBytes t.2)
  let g := outGone s ch t.1 b.length
  if g ≠ 0 then (s, acc.2 ++ [(g, [])])
  else
    (unitPut s ch 1 97 fn t.1 b, acc.2 ++ [(0, rangeFrom (s.chan ch).nextNo (unitPieces t.1 b.length).length)])

/-- `SEAL_WRITE_BEGIN` (R324): every result stands and the submitting cluster's WRITES gate is open. -/
def execSealWriteBegin (ch : Ch) (s : State) : Host.Outcome State Fault Refusal := .next <|
  let c := ch.val
  match (s.seal c).run with
  | none => s
  | some r =>
    match SMap.get? (s.seal c).ents r.ent with
    | none => s
    | some e =>
      if r.phase = 6 ∨ r.outs.isEmpty ∨ ¬ gateWr s c (e.w / 2) ∨ ¬ sealClocked s c then s
      else
        let (s, ws) := ((r.lists.map fun l => l.getD 3 0).zip r.outs).foldl (writeOut c e.fn) (s, [])
        setRun s c fun x => { x with phase := 6, wouts := ws }

/-- The convoy that runs ends before its write point (R343). -/
def sealAbort (s : State) (ch code : Nat) : State :=
  match (s.seal ch).run with
  | some r => if r.phase = 7 then s else sealComplete s ch r.ent code
  | none => s

/-- The entries that wait are refused when they reach the head (R343). -/
def barQueue (s : State) (ch : Nat) : State :=
  s.setSeal ch fun u =>
    { u with ents := u.ents.map fun p =>
        if u.order.contains p.1 && !(u.run.any fun r => decide (r.ent = p.1)) then (p.1, { p.2 with barred := true }) else p }

/-- A disable takes effect (R343). -/
def disableNow (s : State) (ch : Nat) : State :=
  sealAbort (barQueue (s.fset Fld.SEAL_CTRL_DISABLED ch 0 1) ch) ch cUnitAbsent

/-- What waited for WRITE to end takes effect: a disable, then permanent faults of the unit (R344). -/
def endingNow (s : State) (ch : Nat) : State :=
  let late := (s.seal ch).late
  let off := (s.seal ch).ending.isSome
  let s := s.setSeal ch fun u => { u with ending := none, late := [] }
  late.foldl faultTake (if off then disableNow s ch else s)

/-- Every write of the convoy's outputs is performed or failed. -/
def writesDone (s : State) (ch : Nat) (r : SealRun) : Bool :=
  r.wouts.all fun w => w.2.all fun no => ((reqOf s ch no).map Req.place) = some .done

/-- The code of a convoy that wrote: of a store's error, then of the first output that was not written (R326, R327). -/
def writeCode (s : State) (ch : Nat) (r : SealRun) : Nat :=
  firstBad (r.bad :: r.wouts.flatMap fun w => w.1 :: w.2.map fun no => ((reqOf s ch no).map Req.code).getD 0)

/-- `SEAL_CONVOY_COMPLETE` (R323, R325, R327). -/
def execSealConvoyComplete (ch : Ch) (s : State) : Host.Outcome State Fault Refusal := .next <|
  let c := ch.val
  match runAt s c 6 with
  | none => s
  | some (r, _) =>
    if writesDone s c r then endingNow (sealComplete s c r.ent (writeCode s c r)) c else s

/-! ### Control (R343 to R345) -/

/-- A write of the unit's registers by one who may not (R345); otherwise its effect. -/
def sealWrite (s : State) (r : Requester) (ch : Nat) (f : State → State) : State :=
  if !maySup s r then s.record Fld.SEAL_ERR_CODE Fld.SEAL_ERR_COUNT ch cCfgIgnored
  else f s

/-- `SEAL_CTRL_DISABLE` (R343, R344). -/
def execSealCtrlDisable (r : Requester) (ch : Ch) (s : State) : Host.Outcome State Fault Refusal := .next <|
  rowGate s r (.seal ch) fun s =>
  sealWrite s r ch.val fun s =>
    let c := ch.val
    if sealInWrite s c then s.setSeal c fun u => { u with ending := some cUnitAbsent } else disableNow s c

/-- `SEAL_CTRL_ENABLE` (R343): a disable that still waits has had its effect on the entries queued. -/
def execSealCtrlEnable (r : Requester) (ch : Ch) (s : State) : Host.Outcome State Fault Refusal := .next <|
  rowGate s r (.seal ch) fun s =>
  sealWrite s r ch.val fun s =>
    let c := ch.val
    let s := if (s.seal c).ending.isSome then barQueue s c else s
    (s.fset Fld.SEAL_CTRL_DISABLED c 0 0).setSeal c fun u => { u with ending := none }

end Sys2Proof.Machine
end

