-- ==== Sys2Proof/Machine/Vf.lean ====
section
/-! DEFINITION. Virtual functions: enable, disable and scrub, the Region Permission Table's commit, epochs and fences
(chapter 18). -/

namespace Sys2Proof.Machine

/-! ### Provisioning (R373) -/

/-- Rings and vectors of a function: PF0 has 64 of each; a VF what its enable check accepted. -/
def fnRings (s : State) (f : Nat) : Nat :=
  if f = 0 then 64 else if s.fget Fld.HUB_VFSTATn_CODE 0 (f - 1) = 0 then s.fget Fld.HUB_VFCFGn_RINGS 0 (f - 1) else 0

def fnVectors (s : State) (f : Nat) : Nat :=
  if f = 0 then 64 else if s.fget Fld.HUB_VFSTATn_CODE 0 (f - 1) = 0 then s.fget Fld.HUB_VFCFGn_MSIX_CNT 0 (f - 1) else 0

/-- Package vectors of a VF as provisioned: first and count. -/
def vfVecs (s : State) (n : Nat) : Nat × Nat := (s.fget Fld.HUB_VFCFGn_MSIX_BASE 0 (n - 1), s.fget Fld.HUB_VFCFGn_MSIX_CNT 0 (n - 1))

/-- The enable check of VF `n`. -/
def vfCfgOk (s : State) (n : Nat) : Bool :=
  let (b, c) := vfVecs s n
  decide (s.fget Fld.HUB_VFCFGn_RINGS 0 (n - 1) ≤ 64) && (decide (c = 0) || decide (64 ≤ b ∧ b + c ≤ 2048)) &&
    (rangeFrom 1 (n - 1)).all fun m =>
      let (b', c') := vfVecs s m
      decide (c = 0 ∨ c' = 0 ∨ b + c ≤ b' ∨ b' + c' ≤ b)

/-- A configuration request: it is answered with Configuration Request Retry Status until the port is ready, and not at all while
`PERST_N` holds the port in reset (R367). -/
def configWrite (s : State) (f : State → State) : State :=
  if s.port.ready then f s else if s.port.perst && !s.port.timing then s else hostOut s .retry

/-- `VF_ENABLE` (R371, R373): VF Enable set with NumVFs `n`. -/
def execVfEnable (n : Fin 129) (s : State) : Host.Outcome State Fault Refusal := .next <|
  configWrite s fun s =>
  if s.port.vfEnable then s
  else
    let s := { s with port := { s.port with vfEnable := true, numVfs := n.val } }
    (rangeFrom 1 n.val).foldl (fun s k =>
      let s := s.fset Fld.HUB_VFSTATn_CODE 0 (k - 1) (if vfCfgOk s k then cNone else cCfgIgnored)
      if s.fget Fld.HUB_VFSTATn_STATE 0 (k - 1) = 0 then s.fset Fld.HUB_VFSTATn_STATE 0 (k - 1) 1 else s) s

/-! ### Disable (R387 to R390) -/

/-- A disable reaches the hub: doorbells and fetches stop, what is queued for the host is dropped, and the channels that grant
the function are told (R370, R387). -/
def hubDisable (s : State) (f : Nat) : State :=
  let chs := s.liveChs.filter fun c => granted s c f
  let s := if f = 0 then s else s.fset Fld.HUB_VFSTATn_STATE 0 (f - 1) 2
  let s := s.setFn f fun h =>
    { h with rings := h.rings.map fun p => (p.1, { p.2 with cmds := [], done := [], asked := 0 }), events := [], msi := [], busy := chs }
  if chs.isEmpty then fnFinish s f else s

/-- A VF that is enabled is disabled; one already on its way is left (R393). -/
def vfDisable (s : State) (f : Nat) : State := if fnOn s f then hubDisable s f else s

/-- VFs that may be enabled. -/
def vfList : List Nat := rangeFrom 1 128

/-- `VF_ENABLE_CLEAR` (R387). -/
def execVfEnableClear (s : State) : Host.Outcome State Fault Refusal := .next <|
  configWrite s fun s => vfList.foldl vfDisable { s with port := { s.port with vfEnable := false } }

/-- `VF_FLR` (R387). -/
def execVfFlr (f : FnId) (s : State) : Host.Outcome State Fault Refusal := .next <|
  if f.val = 0 then s else configWrite s fun s => vfDisable s f

/-- `PF0_FLR` (R347, R387). -/
def execPf0Flr (s : State) : Host.Outcome State Fault Refusal := .next <|
  configWrite s fun s =>
    let s := { s with port := { s.port with vfEnable := false } }
    (0 :: vfList).foldl (fun s f => if f = 0 ∧ ¬ (s.fn 0).busy.isEmpty then s else vfDisable s f) s

/-- The host port reset (R366): its own state goes, and every function is disabled. -/
def portReset (s : State) : State :=
  let fs := (0 :: vfList).filter fun f => decide (f = 0) || decide (s.fget Fld.HUB_VFSTATn_STATE 0 (f - 1) ≠ 0)
  let busy := fs.map fun f => (f, (s.fn f).busy)
  let s := portClear s
  let s := s.fadd Fld.HUB_PERSTCNT_RESETS 0 0 1
  busy.foldl (fun s p =>
    if p.2.isEmpty then hubDisable s p.1 else s.setFn p.1 fun h => { h with busy := p.2 }) s

/-! ### A channel's part (R388) -/

/-- A request that is no leg waits where it has not been accepted: an HBM controller or a depot bank accepts it with its first
part, a remote package with its frame (R385). -/
def Req.early (r : Req) : Bool :=
  match r.place with
  | .gate | .table | .mesh _ _ | .busy | .guard | .bank => true
  | .hbm | .depot _ => r.parts.isEmpty
  | .legs | .remote | .done => false

/-- Legs of a request. -/
def legsOf (s : State) (ch no : Nat) : List Req := (s.chan ch).reqs.filter fun q => decide (q.ret = .leg no)

/-- A request that an abort removes (R385): with all its legs, or none of them. -/
def abortable (s : State) (ch : Nat) (r : Req) : Bool :=
  match r.ret, r.place with
  | .leg _, _ => false
  | _, .legs => (legsOf s ch r.no).all Req.early
  | _, _ => r.early

/-- A request removed from where it waits, its legs and its place at the guard with it; it ends with a code. -/
def removeReq (s : State) (ch code : Nat) (r : Req) : State :=
  let legs := legsOf s ch r.no
  let s := legs.foldl (fun s q => dropReq (quitMesh s ch q) ch q.no) s
  let gone (w : HeldWrite) : Bool := match w with
    | .req no => decide (no = r.no) || legs.any fun q => decide (q.no = no)
    | .put _ _ _ => false
  let s := if (s.mon ch).held.any gone then s.setMon ch fun m => { m with held := m.held.filter fun w => !gone w } else s
  finish (quitMesh s ch r) ch r code []

/-- A request aborted with a code, which the registers of the table record (R385, R386). -/
def abortReq (s : State) (ch code : Nat) (r : Req) : State :=
  let s := match r.ret with
    | .egress _ _ | .signal _ _ _ => s
    | _ => rptErr s ch (r.fn.getD 0) code r.tga
  removeReq s ch code r

/-- Step 1 of R388 in the monitor that serves the function (R306). -/
def monitorDisable (s : State) (ch f : Nat) : State :=
  let m := s.mon ch
  if m.live.func = f then
    let s := s.setMon ch fun m => { m with live := { m.live with cfg := putBits m.live.cfg 0 1 0 }, pend := none }
    let s := settleHeld (s.fset Fld.CH_NFSTAT_GUARD ch 0 gOpen) ch cFlrAborted
    s.fset Fld.CH_NFVERDICT_CODE ch 0 cFlrAborted
  else s

/-- Step 1 in the Seal unit: queued context loads of the function leave, its contexts become INVALID (R315). -/
def sealDisable (s : State) (ch f : Nat) : State :=
  let drop := ((s.seal ch).ents.filter fun p => decide (p.2.fn = some f) && p.2.ctx.isSome).map Prod.fst
  let s := if (s.seal ch).run.any fun r => drop.contains r.ent then dropKeyReads s ch else s
  let s := s.setSeal ch fun u =>
    { u with order := u.order.filter fun n => !drop.contains n
             run := u.run.filter fun r => !drop.contains r.ent
             ents := u.ents.filter fun p => !drop.contains p.1 }
  (List.range 16).foldl (fun s k =>
    if ctxState s ch k ≠ 0 ∧ s.fget Fld.SEAL_CTXn_STAT_FUNC ch k = f then
      (s.setReg .SEAL_CTXn_STAT ch k 0).setSeal ch fun u => { u with keydir := SMap.erase u.keydir k }
    else s) s

/-- Step 1 in the collective engine: the collectives of the function go, without their completion (R388; log entry 77). -/
def collDisable (s : State) (ch f : Nat) : State :=
  let run := (s.ct ch).coll.any fun k => decide (k.req.func = f)
  (if run then unitDrop s ch 2 else s).setCt ch fun t =>
    { t with coll := if run then none else t.coll, collq := t.collq.filter fun c => c.func ≠ f }

/-- The function of a command that waits at the sequencer. -/
def LoadCmd.fn : LoadCmd → Nat
  | .load c _ _ | .unload c _ | .start c _ => c.f

/-- Steps 1 and 2 of R388. -/
def channelDisable (s : State) (ch f : Nat) : State :=
  let s := s.setLoad ch fun l => { l with waiting := l.waiting.filter fun w => w.fn ≠ f }
  let s := (loadEnd s ch f).1
  let mine := (s.load ch).sections.filter fun x => decide (x.fn = f)
  let s := mine.foldl (fun s x => endSection s ch x.cls) s
  let s := s.setLoad ch fun l => { l with sections := l.sections.filter fun x => x.fn ≠ f }
  let s := collDisable (monitorDisable (sealDisable s ch f) ch f) ch f
  let s := ((s.chan ch).reqs.filter fun r => decide (r.fn = some f) && (match r.ret with | .signal _ _ _ => true | _ => false)).foldl
    (fun s r => dropReq (quitMesh s ch r) ch r.no) s
  let s := s.setChan ch fun k =>
    { k with
      pred := k.pred.filter fun p => p.2.func ≠ f
      waiters := k.waiters.filter fun w => match w.who with | .ring g _ _ => decide (g ≠ f) | _ => true
      scrubs := SMap.put k.scrubs f (fnRec (s.rpt ch) f) }
  settle (s.fset Fld.CH_RPTSTAT_SCRUB ch 0 1) ch

/-- The channel is carrying out a disable of the function. -/
def scrubOf (s : State) (ch f : Nat) : Option Nat := SMap.get? (s.chan ch).scrubs f

/-- `CHANNEL_DISABLE` (R388). -/
def execChannelDisable (ch : Ch) (f : FnId) (s : State) : Host.Outcome State Fault Refusal := .next <|
  if (s.fn f).busy.contains ch.val ∧ scrubOf s ch f = none ∧ s.chLive ch then channelDisable s ch f else s

/-- `FLR_DRAIN_TIMEOUT` (R388 step 3). -/
def execFlrDrainTimeout (ch : Ch) (f : FnId) (s : State) : Host.Outcome State Fault Refusal := .next <|
  if scrubOf s ch f = none then s
  else ((s.chan ch).reqs.filter fun r => decide (r.fn = some f.val) && abortable s ch r).foldl (fun s r => abortReq s ch cFlrAborted r) s

/-- A cluster scrubbed (R389). -/
def scrubCluster (ch : Nat) (s : State) (c : Nat) : State :=
  let k := clLoc ch c
  let s := s.zeroMem (depotAt ch c 0) depotSize
  let s := mapTiles s ch c fun t => { ptr := t.ptr, rng := t.rng }
  let s := (List.range 64).foldl (fun s t =>
    let l := k * 64 + t
    let s := (s.setReg .TL_STATUS l 0 0).setReg .TL_FLAGS l 0 0
    (List.range 256).foldl (fun s i => s.setReg .TL_ROUTEn l i 0) s) s
  let s := (List.range 256).foldl (fun s i => (s.setReg .CL_EGn k i 0).setReg .CL_HTn k i 0) s
  let s := (List.range 32).foldl (fun s n => sbApply s ch c n 0 0) s
  s.setClu ch c fun x => { x with bufs := [] }

/-- A queue of the function scrubbed: number in the channel. -/
def scrubQueue (ch : Nat) (s : State) (n : Nat) : State :=
  let c := n / 16
  let q := n % 16
  setQueue ((s.setReg .CL_QCFGn (clLoc ch c) q 0).fset Fld.CL_QSTATn_POISONED (clLoc ch c) q 0) ch c q []

/-- The function's sync objects scrubbed: unbound, and their waiters ended. -/
def scrubObjs (s : State) (ch base n : Nat) : State :=
  let hit (o : Nat) : Bool := decide (base ≤ o ∧ o < base + n)
  let ws := (s.chan ch).waiters.filter fun w => hit w.obj
  let s := s.setChan ch fun k =>
    { k with objs := k.objs.filter fun p => !hit p.1, waiters := k.waiters.filter fun w => !hit w.obj }
  ws.foldl (fun s w => answer s ch w.who w.obj cFlrAborted 0) s

/-- The scrub of a record's resources (R389). -/
def scrub (s : State) (ch rec? : Nat) : State :=
  let cs := (List.range 96).filter fun c => (recClmask rec?).testBit c && !s.fbit Fld.CL_CAPS_FENCED (clLoc ch c)
  let s := cs.foldl (scrubCluster ch) s
  let s := (rangeFrom (recQBase rec?) (recQCnt rec?)).foldl (scrubQueue ch) s
  scrubObjs s ch (recSyncBase rec?) (recSyncCnt rec?)

/-- `DISABLE_SCRUB_DONE` (R389, R390): once the function's accesses have drained. -/
def execDisableScrubDone (ch : Ch) (f : FnId) (s : State) : Host.Outcome State Fault Refusal := .next <|
  match scrubOf s ch f with
  | none => s
  | some r =>
    if (s.chan ch).reqs.any fun q => decide (q.fn = some f.val ∧ q.place ≠ .remote ∧ q.place ≠ .done) then s
    else
      let s := flowsReopen (scrub s ch r) ch f
      let s := s.setChan ch fun k => { k with scrubs := SMap.erase k.scrubs f }
      let s := if (s.chan ch).scrubs.isEmpty then s.fset Fld.CH_RPTSTAT_SCRUB ch 0 0 else s
      chanDisabled s ch f

/-! ### The Region Permission Table (R376, R381 to R385) -/

/-- The shadow table. -/
def rptShadow (s : State) (ch : Nat) : SMap Word :=
  let recs := (List.range 516).filterMap fun i =>
    let v := s.regN .CH_FNRECf ch i
    if v = 0 ∨ i < 4 then none else some (i, BitVec.ofNat 64 v)
  let wins := (List.range 1024).filterMap fun i =>
    let v := s.regN .CH_RPTWINn ch i
    if v = 0 then none else some (516 + i, BitVec.ofNat 64 v)
  recs ++ wins

/-- A record in valid form (R376). -/
def fnRecOk (r : Nat) : Bool :=
  decide (bits r 98 30 = 0 ∧ bits r 161 31 = 0 ∧ bits r 203 5 = 0 ∧ bits r 219 37 = 0) && (recValid r || decide (r = 0)) &&
    decide (recSyncBase r + recSyncCnt r ≤ 65536 ∧ recQBase r + recQCnt r ≤ 1536) &&
    (rangeFrom (recQBase r) (recQCnt r)).all fun q => (recClmask r).testBit (q / 16)

/-- A window entry in valid form (R378). -/
def winOk (w : Nat) : Bool :=
  decide (bits w 3 5 = 0 ∧ bits w 18 14 = 0 ∧ bits w 50 14 = 0) &&
    (!bit w 0 || decide (bits w 96 32 ≠ 0 ∧ 1 ≤ bits w 8 8 ∧ bits w 8 8 ≤ 128 ∧ bits w 16 2 ≤ 1))

/-- Two ranges meet. -/
def rangesMeet (a n b m : Nat) : Bool := decide (a < b + m ∧ b < a + n)

/-- Two VFs' records share a resource. -/
def recsMeet (r q : Nat) : Bool :=
  decide (recClmask r &&& recClmask q ≠ 0) || rangesMeet (recSyncBase r) (recSyncCnt r) (recSyncBase q) (recSyncCnt q) ||
    rangesMeet (recQBase r) (recQCnt r) (recQBase q) (recQCnt q)

/-- A range gains a number that lies in another. -/
def rangeGains (a n oa on_ b m : Nat) : Bool :=
  let lo := max a b
  let hi := min (a + n) (b + m)
  decide (lo < hi) && !(decide (oa ≤ lo) && decide (hi ≤ oa + on_))

/-- A record gains a resource that a scrub is clearing. -/
def recGains (new old dirty : Nat) : Bool :=
  (List.range 96).any (fun c => (recClmask new).testBit c && !(recClmask old).testBit c && (recClmask dirty).testBit c) ||
    rangeGains (recSyncBase new) (recSyncCnt new) (recSyncBase old) (recSyncCnt old) (recSyncBase dirty) (recSyncCnt dirty) ||
    rangeGains (recQBase new) (recQCnt new) (recQBase old) (recQCnt old) (recQBase dirty) (recQCnt dirty)

/-- A commit that R376 accepts. -/
def rptOk (s : State) (ch : Nat) (t : SMap Word) : Bool :=
  let old := s.rpt ch
  let fs := vfList.filter fun f => fnRec t f ≠ 0
  vfList.all (fun f => fnRecOk (fnRec t f)) && (List.range 512).all (fun n => winOk (rptWin t n)) &&
    fs.all (fun f => fs.all fun g => decide (f = g) || !recsMeet (fnRec t f) (fnRec t g)) &&
    vfList.all (fun f => (List.range 96).all fun c =>
      !((recClmask (fnRec old f)).testBit c && !(recClmask (fnRec t f)).testBit c && s.fbit Fld.CL_GATE_OWNED (clLoc ch c))) &&
    (s.chan ch).scrubs.all fun p => fs.all fun f => !recGains (fnRec t f) (fnRec old f) p.2

/-- Epochs by which an access is older than epoch `e` (R384, R392). -/
def epochAge (e x : Nat) : Nat := (e + 65536 - x) % 65536

/-- Accesses checked under an epoch before `e` that have not been performed; a leg is its request's. -/
def olderReqs (s : State) (ch e : Nat) : List Req :=
  (s.chan ch).reqs.filter fun r => (match r.ret with | .leg _ => false | _ => true) &&
    decide (r.place ≠ .done ∧ 0 < epochAge e r.epoch ∧ epochAge e r.epoch < 32768)

/-- Descriptors started under an epoch before `e` that have not completed: cluster and slot. -/
def olderSlots (s : State) (ch e : Nat) : List (Nat × Nat) :=
  (List.range 96).flatMap fun c => ((s.clu ch c).slots.filter fun p =>
    p.2.started && p.2.live && decide (0 < epochAge e p.2.epoch ∧ epochAge e p.2.epoch < 32768)).map fun p => (c, p.1)

/-- A fence waits (`FENCE_BUSY`). -/
def fenceBusy (s : State) (ch : Nat) : Bool :=
  match (s.chan ch).fence with
  | none => false
  | some e => !(olderReqs s ch e).isEmpty || !(olderSlots s ch e).isEmpty

/-- A fence that has drained is over (R384). -/
def fenceDone (s : State) (ch : Nat) : State := if fenceBusy s ch then s else s.setChan ch fun k => { k with fence := none }

/-- `CH_RPTCTRL_COMMIT` (R376, R381, R392). -/
def execChRptctrlCommit (r : Requester) (ch : Ch) (s : State) : Host.Outcome State Fault Refusal := .next <|
  rowGate s r (.ch ch) fun s =>
  let c := ch.val
  let t := rptShadow s c
  let e := epochOf s c
  let ancient := (s.chan c).reqs.any (fun q => decide (q.place ≠ .done ∧ 32767 ≤ epochAge e q.epoch)) ||
    (List.range 96).any fun k => (s.clu c k).slots.any fun p => p.2.started && p.2.live && decide (32767 ≤ epochAge e p.2.epoch)
  if maySup s r && rptOk s c t && !ancient then
    let s := fenceDone s c
    { s with rpts := SMap.put s.rpts c t }.fset Fld.CH_RPTSTAT_EPOCH c 0 (e + 1)
  else (s.record Fld.CH_RPTERR_CODE Fld.CH_RPTERR_COUNT c cCfgIgnored).fset Fld.CH_RPTERR_FUNC c 0 (reqFunc r)

/-- `HUB_RPT_COPY_UPDATE` (R383). -/
def execHubRptCopyUpdate (ch : Ch) (s : State) : Host.Outcome State Fault Refusal := .next <|
  if s.chLive ch then
    { s with rptHub := SMap.put s.rptHub ch (s.rpt ch), rptHubEp := SMap.put s.rptHubEp ch (epochOf s ch) }
  else s

/-- A fence starts (R384, R391). -/
def startFence (s : State) (ch : Nat) : State := s.setChan ch fun k => { k with fence := some (epochOf s ch) }

/-- `CH_RPTCTRL_FENCE` (R384). -/
def execChRptctrlFence (r : Requester) (ch : Ch) (s : State) : Host.Outcome State Fault Refusal := .next <|
  rowGate s r (.ch ch) fun s =>
  if maySup s r then startFence s ch
  else (s.record Fld.CH_RPTERR_CODE Fld.CH_RPTERR_COUNT ch cCfgIgnored).fset Fld.CH_RPTERR_FUNC ch 0 (reqFunc r)

/-- `HUB_RPTFENCE_START` (R384). -/
def execHubRptfenceStart (r : Requester) (mask : Fin 16) (s : State) : Host.Outcome State Fault Refusal := .next <|
  hostGate s r fun s =>
  if mayHub r then (s.liveChs.filter fun c => mask.val.testBit c).foldl startFence s else s

/-- A descriptor stops with a code (Table 18-4), which the registers of the table record. -/
def abortSlot (ch code : Nat) (s : State) (x : Nat × Nat) : State :=
  let dst := ((SMap.get? (s.clu ch x.1).slots x.2).map DSlot.dst).getD 0
  setSlot (rptErr s ch ((clFn s ch x.1).getD 0) code dst) ch x.1 x.2 fun d => { d with code := d.code <|> some code, hold := [], lane := [] }

/-- A request of a dolly descriptor; the descriptor's one check makes it one access (R380). -/
def Req.byDescriptor (r : Req) : Bool := match r.ret with | .dolly _ _ _ _ => true | _ => false

/-- `FENCE_TIMEOUT` (R385). -/
def execFenceTimeout (ch : Ch) (s : State) : Host.Outcome State Fault Refusal := .next <|
  let c := ch.val
  match (s.chan c).fence with
  | none => s
  | some e =>
    if !fenceBusy s c then s
    else
      let rs := (olderReqs s c e).filter (abortable s c)
      let ds := olderSlots s c e
      let n := ds.length + (rs.filter fun r => !r.byDescriptor).length
      let s := ds.foldl (abortSlot c cRptStale) s
      let s := rs.foldl (fun s r => if r.byDescriptor then removeReq s c cRptStale r else abortReq s c cRptStale r) s
      let s := s.fadd Fld.CH_RPTSTAT_STALE c 0 n
      let s := if n = 0 then s else s.fset Fld.HUB_RPTFENCE_STALE 0 0 (putBits (s.fget Fld.HUB_RPTFENCE_STALE 0) c 1 1)
      s.setChan c fun k => { k with fence := none }

/-! ### A function's view of its grants -/

/-- Who may write a function's block: the function itself, the hub, the debugger. -/
def mayFn (f : Nat) : Requester → Bool
  | .fn g => decide (g.val = f)
  | .hub | .mgmt | .jtag => true
  | .stw _ => false

/-- `VF_GRANTSEL_WRITE` (R375): the function's record sampled. -/
def execVfGrantselWrite (r : Requester) (f : FnId) (v : Word) (s : State) : Host.Outcome State Fault Refusal := .next <|
  hostGate s r fun s =>
  if mayFn f r then
    let c := v.toNat % 4
    (s.setReg .VF_GRANTSEL f 0 c).setWords .VF_GRANTRECn f 0
      ((List.range 4).map fun i => if s.chLive c then bits (s.fnrec c f) (64 * i) 64 else 0)
  else s

/-- `VF_WINSEL_WRITE` (R378): the function's k-th window entry sampled. -/
def execVfWinselWrite (r : Requester) (f : FnId) (v : Word) (s : State) : Host.Outcome State Fault Refusal := .next <|
  hostGate s r fun s =>
  if mayFn f r then
    let c := v.toNat % 4
    let k := bits v.toNat 16 9
    let ws := ((List.range 512).map (rptWin (s.rpt c))).filter fun w => bit w 0 && decide (bits w 8 8 = f.val)
    let w := if s.chLive c then ws.getD k 0 else 0
    ((s.setReg .VF_WINSEL f 0 (c + k * 2 ^ 16)).setReg .VF_WINn f 0 (w % 2 ^ 64)).setReg .VF_WINn f 1 (w / 2 ^ 64)
  else s

end Sys2Proof.Machine
end

