-- ==== Sys2Proof/Machine/Host.lean ====
section
/-! DEFINITION. The host port (chapter 17): resets, rings, commands, completions, events, messages and apertures. -/

namespace Sys2Proof.Machine

/-! ### The link (R346, R347, R366, R367) -/

/-- `PERST_N_EDGE`: an assertion that the filter begins to time. -/
def execPerstNEdge (s : State) : Host.Outcome State Fault Refusal := .next <|
  if s.port.perst then s else { s with port := { s.port with perst := true, timing := true } }

/-- `PERST_N_FILTER_EXPIRY` (R366). -/
def execPerstNFilterExpiry (s : State) : Host.Outcome State Fault Refusal := .next <|
  if s.port.perst ∧ s.port.timing then portReset { s with port := { s.port with timing := false } } else s

/-- `PERST_N_DEASSERT` (R366, R367): an assertion still being timed is filtered. -/
def execPerstNDeassert (s : State) : Host.Outcome State Fault Refusal := .next <|
  if !s.port.perst then s
  else
    let s' := if s.port.timing then s.fadd Fld.HUB_PERSTCNT_FILTERED 0 0 1 else s
    { s' with port := { s'.port with perst := false, timing := false } }

/-- `PCIE_LINK_READY` (R346, R367): 64 GT/s runs in FLIT mode. -/
def execPcieLinkReady (rate : Nat) (width : Nat) (flit : Bool) (s : State) : Host.Outcome State Fault Refusal := .next <|
  if (s.port.perst ∧ ¬ s.port.timing) ∨ s.port.ready ∨ rate < 4 ∨ 6 < rate ∨ width ∉ [1, 2, 4, 8, 16] ∨ (rate = 6 ∧ ¬ flit) then s
  else
    let s := { s with port := { s.port with ready := true } }
    s.setReg .HUB_PORTSTAT 0 0 (rate + width * 2 ^ 3 + ofBit flit * 2 ^ 8)

/-- `PCIE_LINK_DOWN` (R366). -/
def execPcieLinkDown (s : State) : Host.Outcome State Fault Refusal := .next <| if s.port.ready then portReset s else s

/-- `POWER_STATE_WRITE` (R347). -/
def execPowerStateWrite (f : FnId) (d3 : Bool) (s : State) : Host.Outcome State Fault Refusal := .next <|
  configWrite s fun s => s.setFn f fun h => { h with d3 := d3 }

/-! ### Rings (R351 to R355) -/

def ringSize (s : State) (f n : Nat) : Nat := 2 ^ s.fget Fld.VF_RINGn_LIVECFG_LOGSIZE f n
def ringHead (s : State) (f n : Nat) : Nat := s.fget Fld.VF_RINGn_STAT_HEAD f n
def ringTail (s : State) (f n : Nat) : Nat := s.fget Fld.VF_RINGn_STAT_TAIL f n
def ringOn (s : State) (f n : Nat) : Bool := s.fbit Fld.VF_RINGn_STAT_EN f n
def ringOf (s : State) (f n : Nat) : Ring := fnRing (s.fn f) n
def ringCode (s : State) (f n code : Nat) : State := s.fset Fld.VF_RINGn_STAT_CODE f n code

/-- The hub takes doorbells (R28, R354): the mode is latched and a channel has left reset; no scrub of a returned package
runs (R523). -/
def doorbellsOpen (s : State) : Bool :=
  !s.nv.scrub && decide (s.fget Fld.HUB_OPMODE_MODE 0 ≠ 0) && (List.range 4).any fun c => s.hub.released.contains (c * 5 + 4)

/-- A doorbell write that R354 accepts; otherwise it is recorded. -/
def ringDoorbell (s : State) (f n v : Nat) (act : State → State) : State :=
  if !fnAnswers s f then barRefused s f
  else if v < ringSize s f n ∧ ringOn s f n ∧ doorbellsOpen s then act s
  else hostErr s cCfgIgnored f 0

/-- `SUBMISSION_DOORBELL` (R354). -/
def execSubmissionDoorbell (f : FnId) (ring : Fin 64) (v : Word) (s : State) : Host.Outcome State Fault Refusal := .next <|
  let s := dropHalf s (.fn f)
  let w := v.toNat % 2 ^ 16
  ringDoorbell s f ring w fun s => s.fset Fld.VF_RINGn_STAT_TAIL f ring w

/-- `COMPLETION_DOORBELL` (R354). -/
def execCompletionDoorbell (f : FnId) (ring : Fin 64) (v : Word) (s : State) : Host.Outcome State Fault Refusal := .next <|
  let s := dropHalf s (.fn f)
  let w := v.toNat % 2 ^ 16
  ringDoorbell s f ring w fun s =>
    let z := ringSize s f ring
    let t := s.fget Fld.VF_RINGn_STAT_CQTAIL f ring
    s.setRing f ring fun r => { r with used := (t + z - w) % z }

/-- `EVENT_QUEUE_DOORBELL` (R354, R361). -/
def execEventQueueDoorbell (f : FnId) (v : Word) (s : State) : Host.Outcome State Fault Refusal := .next <|
  let s := dropHalf s (.fn f)
  let w := v.toNat % 2 ^ 16
  let z := evqSize (s.fn f)
  if !fnAnswers s f then barRefused s f
  else if w < z ∧ s.fbit Fld.VF_EVQ_STAT_EN f ∧ doorbellsOpen s then
    let t := s.fget Fld.VF_EVQ_STAT_TAIL f
    s.setFn f fun h => { h with evUsed := (t + z - w) % z }
  else hostErr s cCfgIgnored f 0

/-- A configuration that R352 accepts. -/
def queueCfgOk (s : State) (f top sq cq cfg : Nat) : Bool :=
  decide (4 ≤ bits cfg 0 5 ∧ bits cfg 0 5 ≤ top ∧ sq % 4096 = 0 ∧ cq % 4096 = 0 ∧ bits cfg 16 11 < fnVectors s f)

/-- A ring's live copy replaced (R352). -/
def ringApply (s : State) (f n : Nat) (c : Nat × Nat × Nat) : State :=
  let s := ((s.setReg .VF_RINGn_LIVESQ f n c.1).setReg .VF_RINGn_LIVECQ f n c.2.1).setReg .VF_RINGn_LIVECFG f n c.2.2
  let w := putBits (putBits (s.regN .VF_RINGn_STAT f n) 0 48 0) 48 1 1
  let s := s.setReg .VF_RINGn_STAT f n w
  let s := s.fset Fld.VF_RINGn_STAT_PENDING f n 0
  s.setRing f n fun r => { r with pend := none, used := 0, fresh := true }

/-- A ring's registers are reached: the function is up, has the ring, and the requester may write its block. -/
def ringWrite (s : State) (r : Requester) (f n : Nat) (act : State → State) : State :=
  if mayFn f r && fnAnswers s f && decide (n < fnRings s f) then act s else s

/-- `VF_RING_CTRL_COMMIT` (R352, R368). -/
def execVfRingCtrlCommit (r : Requester) (f : FnId) (ring : Fin 64) (s : State) : Host.Outcome State Fault Refusal := .next <|
  hostGate s r fun s =>
  ringWrite s r f ring fun s =>
    let c := (s.regN .VF_RINGn_SQBASE f ring, s.regN .VF_RINGn_CQBASE f ring, s.regN .VF_RINGn_CFG f ring)
    if !queueCfgOk s f 16 c.1 c.2.1 c.2.2 then ringCode s f ring cCfgIgnored
    else if ringOn s f ring then
      (s.fset Fld.VF_RINGn_STAT_PENDING f ring 1).setRing f ring fun x => { x with pend := some c }
    else ringApply (s.fset Fld.VF_RINGn_STAT_ERROR f ring 0) f ring c

/-- `RING_CONFIG_APPLY` (R352): at the ring's safe point. -/
def execRingConfigApply (f : FnId) (ring : Fin 64) (s : State) : Host.Outcome State Fault Refusal := .next <|
  let x := ringOf s f ring
  match x.pend with
  | none => s
  | some c =>
    if ringHead s f ring = ringTail s f ring ∧ x.cmds = [] ∧ x.asked = 0 then
      (ringApply s f ring c).setRing f ring fun y => { y with fresh := x.fresh }
    else s

/-- `VF_RING_CTRL_ENABLE` (R353). -/
def execVfRingCtrlEnable (r : Requester) (f : FnId) (ring : Fin 64) (s : State) : Host.Outcome State Fault Refusal := .next <|
  hostGate s r fun s =>
  ringWrite s r f ring fun s =>
    let s := if (ringOf s f ring).fresh then
        (s.fset Fld.VF_RINGn_STAT_HEAD f ring 0).fset Fld.VF_RINGn_STAT_PHASE f ring 1
      else s
    (s.fset Fld.VF_RINGn_STAT_EN f ring 1).setRing f ring fun x => { x with fresh := false }

/-- `VF_RING_CTRL_DISABLE` (R353). -/
def execVfRingCtrlDisable (r : Requester) (f : FnId) (ring : Fin 64) (s : State) : Host.Outcome State Fault Refusal := .next <|
  hostGate s r fun s =>
  ringWrite s r f ring fun s => s.fset Fld.VF_RINGn_STAT_EN f ring 0

/-! ### The event queue (R352, R361, R362) -/

/-- The event queue's live copy replaced. -/
def evqApply (s : State) (f : Nat) (c : Nat × Nat) : State :=
  let s := (s.fset Fld.VF_EVQ_STAT_TAIL f 0 0).fset Fld.VF_EVQ_STAT_PHASE f 0 1
  s.setFn f fun h => { h with evLive := c, evPend := none, evUsed := 0, evFresh := true }

/-- `VF_EVQ_CTRL_COMMIT` (R352): on an enabled queue at its safe point, when no event waits to be written. -/
def execVfEvqCtrlCommit (r : Requester) (f : FnId) (s : State) : Host.Outcome State Fault Refusal := .next <|
  hostGate s r fun s =>
  if !(mayFn f r && fnAnswers s f) then s
  else
    let c := (s.regN .VF_EVQ_BASE f, s.regN .VF_EVQ_CFG f)
    if !queueCfgOk s f 12 c.1 0 c.2 then hostErr s cCfgIgnored f 0
    else if s.fbit Fld.VF_EVQ_STAT_EN f ∧ ¬ (s.fn f).events.isEmpty then s.setFn f fun h => { h with evPend := some c }
    else evqApply s f c

/-- `VF_EVQ_CTRL_ENABLE`. -/
def execVfEvqCtrlEnable (r : Requester) (f : FnId) (s : State) : Host.Outcome State Fault Refusal := .next <|
  hostGate s r fun s =>
  if !(mayFn f r && fnAnswers s f) then s
  else
    let s := if (s.fn f).evFresh then (s.fset Fld.VF_EVQ_STAT_TAIL f 0 0).fset Fld.VF_EVQ_STAT_PHASE f 0 1 else s
    (s.fset Fld.VF_EVQ_STAT_EN f 0 1).setFn f fun h => { h with evFresh := false }

/-- `VF_EVQ_CTRL_DISABLE`. -/
def execVfEvqCtrlDisable (r : Requester) (f : FnId) (s : State) : Host.Outcome State Fault Refusal := .next <|
  hostGate s r fun s =>
  if mayFn f r && fnAnswers s f then s.fset Fld.VF_EVQ_STAT_EN f 0 0 else s

/-! ### Fetching (R355, R361) -/

/-- A completion waits for a released slot. -/
def ringBlocked (s : State) (f n : Nat) : Bool :=
  let r := ringOf s f n
  !r.done.isEmpty && decide (ringSize s f n ≤ r.used)

/-- An aperture write of the function is on its way. -/
def aperWriting (s : State) (f : Nat) : Bool :=
  (List.range 4).any fun c => (s.chan c).reqs.any fun r => decide (r.ret = .aper f true)

/-- The hub may fetch from a ring; a fetch waits for the aperture writes that came before it (R364 item 2). -/
def mayFetch (s : State) (f n : Nat) : Bool :=
  !aperWriting s f &&
  fnAnswers s f && ringOn s f n && !s.fbit Fld.VF_RINGn_STAT_ERROR f n && decide (ringHead s f n ≠ ringTail s f n) &&
    decide ((ringOf s f n).asked = 0) && !ringBlocked s f n

/-- A command's access is on its way in a channel. -/
def cmdBusy (s : State) (ch f n no : Nat) : Bool := (s.chan ch).reqs.any fun q => decide (q.ret = .ring f n no)

/-- A copy waits for the host data of its piece. -/
def copyWaits (s : State) (f n : Nat) (x : HCmd) : Bool :=
  x.started && x.sent && x.out.isNone && decide (x.op = 5) && !cmdBusy s x.ch f n x.no

/-- Non-posted requests that the port has issued: fetches and copy reads (R346). -/
def portReads (s : State) : Nat :=
  (s.port.fns.map fun p => (p.2.rings.map fun q =>
    (if q.2.asked = 0 then 0 else 1) + q.2.cmds.countP (copyWaits s p.1 q.1)).sum).sum

/-- Non-posted requests that the port has accepted: aperture reads (R346). -/
def portHeld (s : State) : Nat :=
  ((List.range 4).map fun c => (s.chan c).reqs.countP fun r => match r.ret with | .aper _ wr => !wr | _ => false).sum

/-- Non-posted requests outstanding in either direction (R346). -/
def portMax : Nat := 1024

/-- `RING_FETCH` (R346, R355): up to 8 entries of the next ring in turn, up to the end of its queue. -/
def execRingFetch (s : State) : Host.Outcome State Fault Refusal := .next <|
  let all := 129 * 64
  if portMax ≤ portReads s then s
  else match ((List.range all).map fun i => (s.port.fetchPtr + i) % all).find? fun k => mayFetch s (k / 64) (k % 64) with
  | none => s
  | some k =>
    let f := k / 64
    let n := k % 64
    let z := ringSize s f n
    let h := ringHead s f n
    let m := min 8 (min ((ringTail s f n + z - h) % z) (z - h))
    let s := { s with port := { s.port with fetchPtr := (k + 1) % all } }
    hostOut (s.setRing f n fun r => { r with asked := m }) (.read (s.regN .VF_RINGn_LIVESQ f n + 64 * h) (64 * m))

/-! ### Commands (R356 to R358) -/

/-- Form of a command (R358 check 1): reserved bits, unused operand bytes, channel, copy length. -/
def HCmd.formOk (x : HCmd) : Bool :=
  let hi (i : Nat) : Bool := decide (bits (x.arg i) 32 32 = 0)
  let rest (k : Nat) : Bool := (rangeFrom k (7 - k)).all fun i => decide (x.arg i = 0)
  let ch (i : Nat) : Bool := decide (tgaCh (x.arg i) = x.ch)
  decide (bits (x.word 0) 10 6 = 0 ∧ bits (x.word 0) 34 30 = 0) &&
    (match x.op with
      | 0 | 4 => rest 0
      | 1 => hi 1 && rest 2 && ch 0
      | 2 | 3 => hi 0 && rest 1
      | 5 => hi 2 && rest 3 && ch 1 && decide (x.arg 2 ≠ 0)
      | 6 => hi 2 && rest 3 && ch 0 && decide (x.arg 2 ≠ 0)
      | 7 => hi 1 && rest 2 && ch 0
      | 8 => rest 2 && ch 0
      | 9 => true
      | _ => false)

/-- The record the hub holds of a function in a channel (R383). -/
def hubRec (s : State) (ch f : Nat) : Nat := fnRec (SMap.get [] s.rptHub ch) f

/-- Checks of a host command on a sync object (R174, R243). -/
def hostSyncCode (s : State) (f a : Nat) : Nat :=
  if tgaSpace a ≠ 2 then cCfgIgnored
  else if targetCode s a ≠ 0 then targetCode s a
  else if !offsetOk none a 0 then cUnitAbsent
  else
    let r := hubRec s (tgaCh a) f
    let i := bits a 3 16
    if f = 0 ∨ (recValid r ∧ recSyncBase r ≤ i ∧ i < recSyncBase r + recSyncCnt r) then 0 else cRptViolation

/-- The checks of R358: a code and the address it concerns. -/
def HCmd.startCode (s : State) (f : Nat) (x : HCmd) : Nat × Nat :=
  let n := bits (x.arg 2) 0 32
  if !x.formOk then (cCfgIgnored, 0)
  else if !s.chPresent x.ch then (cUnitAbsent, 0)
  else if s.retired x.ch || !s.chLive x.ch then (cChannelRetired, 0)
  else if !recValid (hubRec s x.ch f) then (cRptViolation, 0)
  else match x.op with
    | 1 => (hostCode s f false (x.arg 0) (bits (x.arg 1) 0 32), x.arg 0)
    | 5 => (hostCode s f true (x.arg 1) n, x.arg 1)
    | 6 => (hostCode s f false (x.arg 0) n, x.arg 0)
    | 7 | 8 => (hostSyncCode s f (x.arg 0), x.arg 0)
    | _ => (0, 0)

/-- A refusal in the hub of an access to channel `ch` (R386). -/
def hubRefused (s : State) (ch f code a : Nat) : State :=
  if code = cRptViolation then fnErr (hostErr s code f a) ch f code a else s

/-- Commands of a ring that can start do so, in ring order (R355, R358). -/
def startRing : Nat → State → Nat → Nat → State
  | 0, s, _, _ => s
  | k + 1, s, f, n =>
    let cmds := (ringOf s f n).cmds
    match cmds.find? fun x => !x.started with
    | none => s
    | some x =>
      if x.fence && decide (cmds.head?.map HCmd.no ≠ some x.no) then s
      else
        let c : CmdRef := ⟨f, n, x.no⟩
        let s := setCmd s c fun y => { y with started := true }
        match x.startCode s f with
        | (0, _) => startRing k s f n
        | (code, a) => startRing k (hostDone (hubRefused s x.ch f code a) c code 0 a) f n

/-- `RING_ENTRY_ARRIVE` (R355, R358): the entries asked for, as words of 64 bits. -/
def execRingEntryArrive (f : FnId) (ring : Fin 64) (entries : List Word) (s : State) : Host.Outcome State Fault Refusal := .next <|
  let r := ringOf s f ring
  if r.asked = 0 ∨ entries.length ≠ 8 * r.asked then s
  else
    let new := (List.range r.asked).map fun i =>
      ({ no := r.next + i, w := ((entries.drop (8 * i)).take 8).map BitVec.toNat } : HCmd)
    let s := s.setRing f ring fun x => { x with cmds := x.cmds ++ new, asked := 0, next := x.next + r.asked }
    let s := s.fset Fld.VF_RINGn_STAT_HEAD f ring ((ringHead s f ring + r.asked) % ringSize s f ring)
    startRing ((ringOf s f ring).cmds.length + 1) s f ring

/-- `FENCED_COMMAND_START` (R355). -/
def execFencedCommandStart (f : FnId) (ring : Fin 64) (s : State) : Host.Outcome State Fault Refusal := .next <|
  startRing ((ringOf s f ring).cmds.length + 1) s f ring

/-- A command has begun to act. -/
def HCmd.begun (x : HCmd) : Bool := x.sent || x.out.isSome || decide (x.prog ≠ 0)

/-- The oldest command of an opcode that has started and has something to do; the commands of a ring begin in ring order (R355). -/
def nextCmd (s : State) (f n op : Nat) : Option HCmd :=
  let l := (ringOf s f n).cmds
  (l.find? fun x => x.started && !x.sent && x.out.isNone && decide (x.op = op)).filter fun x =>
    (l.takeWhile fun y => decide (y.no ≠ x.no)).all HCmd.begun

/-- A command acts; in keeper mode none does (R27). -/
def onCmd (s : State) (f n op : Nat) (act : State → CmdRef → HCmd → State) : State :=
  match if s.hub.phase = .keeper then none else nextCmd s f n op with
  | none => s
  | some x => act (setCmd s ⟨f, n, x.no⟩ fun y => { y with sent := true }) ⟨f, n, x.no⟩ x

/-- `CMD_NOP` (R357). -/
def execCmdNop (f : FnId) (ring : Fin 64) (s : State) : Host.Outcome State Fault Refusal := .next <|
  onCmd s f ring 0 fun s c _ => hostDone s c cNone 0 0

/-- A command joins those that wait at its channel's sequencer, which takes what it can. -/
def toSequencer (s : State) (ch : Nat) (w : LoadCmd) : State :=
  settle (s.setLoad ch fun l => { l with waiting := l.waiting ++ [w] }) ch

/-- `CMD_LOAD` (R357, R358). -/
def execCmdLoad (f : FnId) (ring : Fin 64) (s : State) : Host.Outcome State Fault Refusal := .next <|
  onCmd s f ring 1 fun s c x =>
    if ldState s x.ch = ldFailed then hostDone s c cCfgIgnored 0 (x.arg 0)
    else toSequencer s x.ch (.load c (x.arg 0) (bits (x.arg 1) 0 32))

/-- `CMD_START` (R359). -/
def execCmdStart (f : FnId) (ring : Fin 64) (s : State) : Host.Outcome State Fault Refusal := .next <|
  onCmd s f ring 2 fun s c x => toSequencer s x.ch (.start c (bits (x.arg 0) 0 32))

/-- `CMD_UNLOAD` (R357, R164): one that names the armed section abandons it, any other waits for `IDLE`. -/
def execCmdUnload (f : FnId) (ring : Fin 64) (s : State) : Host.Outcome State Fault Refusal := .next <|
  onCmd s f ring 3 fun s c x =>
    let sec := bits (x.arg 0) 0 32
    if ldState s x.ch = ldArmed ∧ (s.load x.ch).sec = sec then
      settle (hostDone (cmtCode (abandonArmed s x.ch) x.ch cNone) c cNone 0 0) x.ch
    else toSequencer s x.ch (.unload c sec)

/-- `CMD_CLEAR` (R163, R358). -/
def execCmdClear (f : FnId) (ring : Fin 64) (s : State) : Host.Outcome State Fault Refusal := .next <|
  onCmd s f ring 4 fun s c x =>
    if ldState s x.ch ≠ ldFailed then hostDone (cmtCode s x.ch cCfgIgnored) c cCfgIgnored 0 (s.load x.ch).sec
    else if f.val ≠ 0 ∧ (s.load x.ch).fn ≠ f.val then hostDone s c cRptViolation 0 (s.load x.ch).sec
    else clearLoad (hostDone (cmtCode s x.ch cNone) c cNone 0 0) x.ch

/-! ### Requests of the hub in a channel -/

/-- Epoch of the hub's copy (R383). -/
def hubEpoch (s : State) (ch : Nat) : Nat := SMap.get 0 s.rptHubEp ch

/-- A host's request enters the channel of its TGA, or leaves by that channel's flow for another package. -/
def hostReq (s : State) (ret : RetTo) (f a : Nat) (op : ROp) (cls : Nat) : State :=
  let ch := tgaCh a
  let s := fenceDone s ch
  let r : Req := { ret := ret, fn := some f, epoch := hubEpoch s ch, cl := 96, tga := a, op := op, cls := cls, place := .remote }
  if isOwnPkg s a then hubReq s ch r
  else
    let no := (s.chan ch).nextNo
    ctIssue (pushReq s ch r) ch { r with no := no }

/-- Length of a copy's next piece: to the end of the granule of its TGA. -/
def pieceLen (a left : Nat) : Nat := min (64 - a % 64) left

/-- `COPY_IN` (R346, R360): the next piece is asked from the host. -/
def execCopyIn (f : FnId) (ring : Fin 64) (s : State) : Host.Outcome State Fault Refusal := .next <|
  if portMax ≤ portReads s then s
  else onCmd s f ring 5 fun s _ x =>
    hostOut s (.read (x.arg 0 + x.prog) (pieceLen (x.arg 1 + x.prog) (bits (x.arg 2) 0 32 - x.prog)))

/-- The copy that waits for host data. -/
def copyAsked (s : State) (f n : Nat) : Option HCmd := (ringOf s f n).cmds.find? (copyWaits s f n)

/-- `HOST_READ_COMPLETION` (R360): the bytes of the piece go towards their TGA; in control space they are of no register's
width and are discarded (R6). -/
def execHostReadCompletion (f : FnId) (ring : Fin 64) (data : List Byte) (s : State) : Host.Outcome State Fault Refusal := .next <|
  match if s.hub.phase = .keeper then none else copyAsked s f ring with
  | none => s
  | some x =>
    let a := x.arg 1 + x.prog
    if data.length ≠ pieceLen a (bits (x.arg 2) 0 32 - x.prog) then s
    else if tgaSpace a = 3 then copyMoved (ctlRefused s (.fn f) a) ⟨f, ring, x.no⟩ data.length
    else hostReq s (.ring f ring x.no) f a (.write (cleanBytes data)) 1

/-- `COPY_OUT` (R360): the next piece is read in its channel. -/
def execCopyOut (f : FnId) (ring : Fin 64) (s : State) : Host.Outcome State Fault Refusal := .next <|
  onCmd s f ring 6 fun s c x =>
    let a := x.arg 0 + x.prog
    let n := pieceLen a (bits (x.arg 2) 0 32 - x.prog)
    if tgaSpace a = 3 then copyMoved (hostOut (ctlRefused s (.fn f) a) (.write (x.arg 1 + x.prog) (List.replicate n 0#8))) c n
    else hostReq s (.ring f ring x.no) f a (.read n) 0

/-- `SIGNAL` (R357). -/
def execSignal (f : FnId) (ring : Fin 64) (s : State) : Host.Outcome State Fault Refusal := .next <|
  onCmd s f ring 7 fun s _ x => hostReq s (.ring f ring x.no) f (x.arg 0) (.sync .add (bits (x.arg 1) 0 32)) 1

/-- `SYNCWAIT` (R357). -/
def execSyncwait (f : FnId) (ring : Fin 64) (s : State) : Host.Outcome State Fault Refusal := .next <|
  onCmd s f ring 8 fun s _ x => hostReq s (.ring f ring x.no) f (x.arg 0) (.sync .wge (x.arg 1)) 0

/-- `FWCALL` (R357): bytes 8 to 63 reach the mailbox of the channel's firmware, whose answer is a free value (log entry 23). -/
def execFwcall (f : FnId) (ring : Fin 64) (s : State) : Host.Outcome State Fault Refusal := .next <|
  onCmd s f ring 9 fun s c x =>
    let mail := (List.range 7).map x.arg
    let s := s.setChan x.ch fun k => { k with mailbox := mail }
    let a := Config.firmware s.free mail
    hostDone s.took c (codeRow a.1) a.2.toNat 0

/-! ### Completions, events, messages (R361 to R363) -/

/-- The 32 bytes of an entry (Table 17-4). -/
def entryBytes (phase kind code id ring ch sqhead result detail : Nat) : List Byte :=
  leBytes 8 (phase + kind * 2 ^ 1 + code * 2 ^ 8 + id * 2 ^ 16 + ring * 2 ^ 32 + ch * 2 ^ 38) ++ leBytes 8 sqhead ++
    leBytes 8 result ++ leBytes 8 detail

/-- A vector's message is requested; requests of one vector merge. -/
def wantMsi (s : State) (f vec : Nat) : State := s.setFn f fun h => { h with msi := insertN vec h.msi }

/-- `COMPLETION_WRITE` (R361, R364): the oldest outcome enters a released slot. -/
def execCompletionWrite (f : FnId) (ring : Fin 64) (s : State) : Host.Outcome State Fault Refusal := .next <|
  let r := ringOf s f ring
  match r.done.head?.bind fun no => r.cmds.find? fun x => decide (x.no = no) with
  | none => s
  | some x =>
    let z := ringSize s f ring
    if !fnAnswers s f || decide (z ≤ r.used) then s
    else
      let (code, result, detail) := x.out.getD (0, 0, 0)
      let t := s.fget Fld.VF_RINGn_STAT_CQTAIL f ring
      let p := s.fget Fld.VF_RINGn_STAT_PHASE f ring
      let s := hostOut s (.write (s.regN .VF_RINGn_LIVECQ f ring + 32 * t)
        (entryBytes p 0 code x.cid ring x.ch (ringHead s f ring) result detail))
      let s := s.fset Fld.VF_RINGn_STAT_CQTAIL f ring ((t + 1) % z)
      let s := if t + 1 = z then s.fset Fld.VF_RINGn_STAT_PHASE f ring (1 - p) else s
      let s := s.setRing f ring fun r =>
        { r with used := r.used + 1, done := r.done.drop 1, cmds := r.cmds.filter fun y => y.no ≠ x.no }
      if x.irq then wantMsi s f (s.fget Fld.VF_RINGn_LIVECFG_VEC f ring) else s

/-- `EVENT_WRITE` (R362). -/
def execEventWrite (f : FnId) (s : State) : Host.Outcome State Fault Refusal := .next <|
  let h := s.fn f
  match h.events with
  | [] => s
  | e :: rest =>
    let z := evqSize h
    if !fnAnswers s f || !s.fbit Fld.VF_EVQ_STAT_EN f || decide (z ≤ h.evUsed) then s
    else
      let t := s.fget Fld.VF_EVQ_STAT_TAIL f
      let p := s.fget Fld.VF_EVQ_STAT_PHASE f
      let s := hostOut s (.write (h.evLive.1 + 32 * t) (entryBytes p 1 e.code e.id 0 e.ch 0 e.result e.detail))
      let s := s.fset Fld.VF_EVQ_STAT_TAIL f 0 ((t + 1) % z)
      let s := if t + 1 = z then s.fset Fld.VF_EVQ_STAT_PHASE f 0 (1 - p) else s
      let s := wantMsi (s.setFn f fun h => { h with events := rest, evUsed := h.evUsed + 1 }) f (bits h.evLive.2 16 11)
      match h.evPend with
      | some c => if rest.isEmpty then evqApply s f c else s
      | none => s

/-- A vector's entry of the MSI-X table; it is masked after reset. -/
def msixEntry (h : HostFn) (vec : Nat) : Nat × Nat × Nat := SMap.get (0, 0, 1) h.msix vec

/-- A vector is masked: by the Function Mask, or by bit 0 of its vector control. -/
def msixMasked (h : HostFn) (vec : Nat) : Bool := h.msixMask || bit (msixEntry h vec).2.2 0

/-- `MSIX_SEND` (R363): the message of a vector requested and not masked, once the function's MSI-X is enabled. -/
def execMsixSend (f : FnId) (vec : Nat) (s : State) : Host.Outcome State Fault Refusal := .next <|
  let h := s.fn f
  if fnAnswers s f && h.msixEn && h.msi.contains vec && !msixMasked h vec then
    hostOut (s.setFn f fun h => { h with msi := h.msi.filter (· ≠ vec) }) (.msix f vec (msixEntry h vec).1 (msixEntry h vec).2.1)
  else s

/-! ### Apertures (R348 to R350) -/

/-- TGA of an aperture access. -/
def aperTga (s : State) (f ap off : Nat) : Nat := s.regN .VF_APa_BASE f ap + off

/-- `APERTURE_WRITE` (R350). -/
def execApertureWrite (f : FnId) (ap : Fin 4) (off : Nat) (data : List Byte) (ep : Bool) (s : State) : Host.Outcome State Fault Refusal := .next <|
  if data.isEmpty || decide (2 ^ 34 < off + data.length) then s
  else if !fnAnswers s f then barRefused s f
  else
    let a := aperTga s f ap off
    let code := hostCode s f true a data.length
    if code ≠ 0 ∨ ¬ isOwnPkg s a then
      let c := if code = 0 then cUnitAbsent else code
      if c = cRptViolation then hubRefused s (tgaCh a) f c a else hostErr s c f a
    else hostReq s (.aper f true) f a (.write (data.map fun b => (b, ep))) 1

/-- `APERTURE_READ` (R350): Unsupported Request where the function's BARs do not answer. -/
def execApertureRead (f : FnId) (ap : Fin 4) (off : Nat) (len : Nat) (s : State) : Host.Outcome State Fault Refusal := .next <|
  if !s.port.ready || decide (len = 0 ∨ 2 ^ 34 < off + len) || decide (portMax ≤ portHeld s) then s
  else if !fnAnswers s f then hostOut (barRefused s f) .unsupported
  else
    let a := aperTga s f ap off
    let code := hostCode s f false a len
    if code ≠ 0 ∨ ¬ isOwnPkg s a then
      let c := if code = 0 then cUnitAbsent else code
      hostAbort (if c = cRptViolation then hubRefused s (tgaCh a) f c a else hostErr s c f a) f
    else hostReq s (.aper f false) f a (.read len) 0

/-- `VF_AP_BASE_WRITE` (R349). -/
def execVfApBaseWrite (r : Requester) (f : FnId) (ap : Fin 4) (v : Word) (s : State) : Host.Outcome State Fault Refusal := .next <|
  hostGate s r fun s =>
  let a := v.toNat
  if !(mayFn f r && fnAnswers s f) then s
  else if a % 2 ^ 34 ≠ 0 ∨ 2 ≤ tgaSpace a ∨ ¬ isOwnPkg s a then hostErr s cCfgIgnored f a
  else s.setReg .VF_APa_BASE f ap a

/-! ### Host reads that fail (R368) -/

/-- A failed read of host memory is reported through AER (R369); PCIe has no report for one that the host refuses. -/
def hostFailAer (s : State) (f : Nat) : HostFail → State
  | .timeout => aerSet s f .timeout
  | .poisoned => aerSet s f .poisoned
  | .refused => s

def hostFailCode : HostFail → Nat
  | .timeout => cLinkDown
  | .poisoned => cEccUncorrected
  | .refused => cCfgIgnored

/-- `HOST_READ_FAILURE` (R368): a fetch puts its ring in error, a copy ends. -/
def execHostReadFailure (f : FnId) (ring : Fin 64) (copy : Bool) (why : HostFail) (s : State) : Host.Outcome State Fault Refusal := .next <|
  let code := (hostFailCode why)
  if copy then
    match copyAsked s f ring with
    | none => s
    | some x =>
      let a := x.arg 0 + x.prog
      hostDone (hostErr (hostFailAer s f why) code f a) ⟨f, ring, x.no⟩ code x.prog a
  else if (ringOf s f ring).asked = 0 then s
  else
    let a := s.regN .VF_RINGn_LIVESQ f ring + 64 * ringHead s f ring
    let s := ringCode ((hostFailAer s f why).fset Fld.VF_RINGn_STAT_ERROR f ring 1) f ring code
    let s := hostErr (s.setRing f ring fun r => { r with asked := 0 }) code f a
    postEvent s f 6 0 code ring a

end Sys2Proof.Machine
end

