-- ==== Sys2Proof/Machine/Lc.lean ====
section
/-! DEFINITION. Link compression (R443 to R446): blocks of 32 elements, their bounds, and the certificate of a frame. -/

namespace Sys2Proof.Machine

/-- Formats of collectives (R437): 0 BF16, 1 FP16, 9 FP32, 0xB INT32. -/
def collFmt (f : Nat) : Fmt := if f = 0 then bf16 else if f = 1 then fp16 else fp32
def collSize (f : Nat) : Nat := if f ≤ 1 then 2 else 4

/-- An element of the vector as the engine computes with it: FP32 bits, or the integer (R439). -/
def toEngine (f n : Nat) : Nat :=
  if 2 ≤ f then n else (fp32.encode rneMode none ((collFmt f).value n)).1

/-- The element rounded to the format with RNE. -/
def ofEngine (f n : Nat) : Nat :=
  if 2 ≤ f then n else ((collFmt f).encode rneMode none (fp32.value n)).1

/-- Elements of bytes, and back. -/
def bytesElems (z : Nat) : Nat → List Byte → List Nat
  | 0, _ => []
  | n + 1, bs => leNat (bs.take z) :: bytesElems z n (bs.drop z)

def elemsBytes (z : Nat) (l : List Nat) : List Byte := (l.map fun x => leBytes z x).flatten

/-- Finite FP32 bits. -/
def f32Fin (n : Nat) : Bool := decide (bits n 23 8 ≠ 255)
def f32Mag (n : Nat) : Nat := n % 2 ^ 31

/-- Exponent of the leading bit of a non-zero FP32 magnitude. -/
def f32Log (n : Nat) : Int :=
  if bits n 23 8 = 0 then (Nat.log2 (bits n 0 23) : Int) - 149 else (bits n 23 8 : Int) - 127

/-- FP32 bits of 2^x. -/
def f32Pow (x : Int) : Nat :=
  if -126 ≤ x then (x + 127).toNat * 2 ^ 23 else 2 ^ (x + 149).toNat

/-- The element format, its largest exponent, the scaled maximum from which the scale is raised, its smallest exponent and
fraction bits, for LC8 (1) and LC4 (2). -/
def lcFmt (m : Nat) : Fmt := if m = 1 then fe4m3 else fe2m1
def lcEmax (m : Nat) : Int := if m = 1 then 8 else 2
def lcRaise (m : Nat) : Nat := if m = 1 then 464 else 7
def lcKmin (m : Nat) : Int := if m = 1 then -6 else 0
def lcDrop (m : Nat) : Int := if m = 1 then 4 else 2
def lcBits (m : Nat) : Nat := if m = 1 then 8 else 4
def lcBlock (m : Nat) : Nat := 1 + 4 * lcBits m

/-- The scale of a block whose largest magnitude is `m`, not 0 (R443). -/
def lcScale (mode m : Nat) : Nat :=
  let s := f32Log m - lcEmax mode + 127
  let v := FVal.scale (127 - s) (fp32.value m)
  let up := !FVal.numLt v (FVal.ofInt (lcRaise mode))
  (min 254 (max 0 (if up then s + 1 else s))).toNat

/-- Exponent of a block's bound (R444). -/
def lcBound (mode m s : Nat) : Int :=
  let k := f32Log m - ((s : Int) - 127)
  (s : Int) - 127 + max k (lcKmin mode) - lcDrop mode

/-- A block as sent: its bytes, its bound as FP32 bits, its elements as they decode, as FP32 bits. -/
structure LcBlk where
  bytes : List Byte
  bound : Nat
  dec : List Nat
  deriving DecidableEq, Repr

/-- Packing of narrow elements (R95). -/
def packElems (w : Nat) (l : List Nat) : List Byte :=
  leBytes (4 * w) ((l.zipIdx.map fun p => p.1 * 2 ^ (w * p.2)).sum)

/-- An escaped block: 32 elements in the collective's format. -/
def lcEscape (fmt : Nat) (xs : List Nat) : LcBlk :=
  let ys := xs.map (ofEngine fmt)
  { bytes := 0xFF#8 :: elemsBytes (collSize fmt) (ys ++ List.replicate (32 - ys.length) 0), bound := 0, dec := ys.map (toEngine fmt) }

/-- One element decoded. -/
def lcElem (mode s x : Nat) : Nat :=
  (fp32.encode rneMode none (FVal.scale ((s : Int) - 127) ((lcFmt mode).value x))).1

/-- A block of at most 32 values encoded (R443). -/
def lcEncode (mode fmt blim : Nat) (xs : List Nat) : LcBlk :=
  if !(xs.all f32Fin) then lcEscape fmt xs
  else
    let m := (xs.map f32Mag).foldl max 0
    let s := if m = 0 then 0 else lcScale mode m
    if m ≠ 0 ∧ (blim : Int) - 127 < lcBound mode m s then lcEscape fmt xs
    else
      let es := xs.map fun x =>
        if m = 0 then 0 else ((lcFmt mode).encode rneMode none (FVal.scale (127 - (s : Int)) (fp32.value x))).1
      { bytes := BitVec.ofNat 8 s :: packElems (lcBits mode) es,
        bound := if m = 0 then 0 else f32Pow (lcBound mode m s), dec := es.map (lcElem mode s) }

/-- Blocks of a list of values. -/
def lcBlocks (mode fmt blim : Nat) : Nat → List Nat → List (LcBlk × List Nat)
  | 0, _ => []
  | _, [] => []
  | n + 1, xs => (lcEncode mode fmt blim (xs.take 32), xs.take 32) :: lcBlocks mode fmt blim n (xs.drop 32)

/-- Blocks gathered in frames of at most `m` bytes with their certificates. -/
def lcFrames (m : Nat) (bs : List (LcBlk × List Nat)) : List (List (LcBlk × List Nat)) :=
  (bs.foldl (fun (acc : List (List (LcBlk × List Nat)) × Nat) b =>
    let z := b.1.bytes.length
    match acc.1 with
    | f :: rest => if acc.2 + z + 12 ≤ m then ((f ++ [b]) :: rest, acc.2 + z) else ([b] :: f :: rest, z)
    | [] => ([[b]], z)) ([], 0)).1.reverse

/-- Largest finite magnitude encoded, and largest bound (R445). -/
def lcMmax (bs : List (LcBlk × List Nat)) : Nat :=
  (bs.map fun b => ((b.2.filter f32Fin).map f32Mag).foldl max 0).foldl max 0
def lcBmax (bs : List (LcBlk × List Nat)) : Nat := (bs.map fun b => b.1.bound).foldl max 0

/-- Decoded elements of a frame's blocks; none where they are not whole. -/
def lcDecode (mode fmt : Nat) : Nat → List Byte → Option (List Nat)
  | _, [] => some []
  | 0, _ => none
  | n + 1, b :: bs =>
    let z := if b = 0xFF#8 then 32 * collSize fmt else lcBlock mode - 1
    if bs.length < z then none
    else
      let d := bs.take z
      let xs := if b = 0xFF#8 then (bytesElems (collSize fmt) 32 d).map (toEngine fmt)
        else
          let w := leNat d
          (List.range 32).map fun i => lcElem mode b.toNat (bits w (lcBits mode * i) (lcBits mode))
      (lcDecode mode fmt n (bs.drop z)).map (xs ++ ·)

/-- The certificate of a compressed payload: `MMAX`, `BMAX`, `CMAX`. -/
def lcCert (p : List Byte) : Nat × Nat × Nat :=
  let c := p.drop (p.length - 12)
  (leNat (c.take 4), leNat ((c.drop 4).take 4), leNat ((c.drop 8).take 4))

/-- The receiving engine's check of a compressed payload (R445). -/
def lcOk (mode fmt : Nat) (p : List Byte) : Bool :=
  if p.length < 12 then false
  else match lcDecode mode fmt p.length (p.take (p.length - 12)) with
    | none => false
    | some xs =>
      let (m, b, c) := lcCert p
      let lim := (sumExact 0 [fp32.value m, fp32.value b]).1
      decide (b ≤ c) && (xs.filter f32Fin).all fun x => !FVal.numLt lim (fp32.value (f32Mag x))

end Sys2Proof.Machine
end

