-- ==== Sys2Proof/Machine/Ct.lean ====
section
/-! DEFINITION. Caravan Transport (chapter 20): ports, frames, flows, reliability, and the operations that arrive. Collectives
stand in `Coll`. -/

namespace Sys2Proof.Machine

/-! ### The peer table (R425) -/

/-- The 32 bytes of an entry of the peer table. -/
def peerEntry (s : State) (ch pkg pch : Nat) : List Byte :=
  (tableRead s (s.regN .CT_PEERBASE ch + 32 * (4 * pkg + pch)) 32).map Prod.fst

def peerValid (e : List Byte) : Bool := bit ((e.getD 6 0#8).toNat) 0
def peerMac (e : List Byte) : Nat := beNat (e.take 6)
def peerIp (e : List Byte) : Nat := beNat ((e.drop 8).take 16)

/-- This channel's own entry: as read at the last OPEN, or now where none has come. -/
def ownEntry (s : State) (ch : Nat) : List Byte :=
  if (s.ct ch).own.isEmpty then peerEntry s ch (ownPkg s) ch else (s.ct ch).own

def macAt (e : List Byte) (site j : Nat) : Nat := (peerMac e + 8 * site + j) % 2 ^ 48
def ipAt (e : List Byte) (site : Nat) : Nat := (peerIp e + site) % 2 ^ 128

/-! ### Frames (R420, R422) -/

/-- The header of Table 20-2. -/
def ctHdr (p : CPkt) : List Byte :=
  let w0 := 1 + p.ty * 2 ^ 4 + p.flags * 2 ^ 8 + p.payload.length * 2 ^ 16 + p.srcPkg * 2 ^ 32 + p.dstPkg * 2 ^ 48
  let w1 := p.srcCh + p.dstCh * 4 + p.inc * 2 ^ 4 + p.code * 2 ^ 8 + p.flow * 2 ^ 16 + p.stream * 2 ^ 28 + p.seq * 2 ^ 32
  let w2 := p.opid + p.aux * 2 ^ 16 + p.dlv * 2 ^ 32
  leBytes 8 w0 ++ leBytes 8 w1 ++ leBytes 8 w2 ++ leBytes 8 p.addr

/-- A packet from its header and payload. -/
def ctPktOf (h payload : List Byte) : CPkt :=
  let w0 := leNat (h.take 8)
  let w1 := leNat ((h.drop 8).take 8)
  let w2 := leNat ((h.drop 16).take 8)
  { ty := bits w0 4 4, flags := bits w0 8 8, srcPkg := bits w0 32 16, dstPkg := bits w0 48 16, srcCh := bits w1 0 2,
    dstCh := bits w1 2 2, inc := bits w1 4 4, code := bits w1 8 8, flow := bits w1 16 12, stream := bits w1 28 3,
    seq := bits w1 32 32, opid := bits w2 0 16, aux := bits w2 16 16, dlv := bits w2 32 32, addr := leNat ((h.drop 24).take 8),
    payload := payload }

/-- The ones' complement checksum of bytes. -/
def inetSum : List Byte → Nat
  | a :: b :: rest => a.toNat * 256 + b.toNat + inetSum rest
  | [a] => a.toNat * 256
  | [] => 0

/-- Carries folded back into 16 bits. -/
def fold16 : Nat → Nat → Nat
  | 0, n => n
  | k + 1, n => if n < 65536 then n else fold16 k (n % 65536 + n / 65536)

/-- The UDP checksum over the pseudo-header and the datagram whose checksum field holds 0. -/
def udpSum (src dst : Nat) (dgram : List Byte) : Nat :=
  let x := fold16 8 (inetSum (beBytes 16 src ++ beBytes 16 dst ++ beBytes 4 dgram.length ++ beBytes 4 17 ++ dgram))
  if x = 65535 then 65535 else 65535 - x

/-- A frame as a port's MAC is given it, from its first byte to its last before the FCS: `n` the sender's flow entry, `e` the peer's
table entry, `dsite` its home site. -/
def ctFrame (s : State) (ch port n w0 : Nat) (e : List Byte) (dsite dj : Nat) (p : CPkt) : List Byte :=
  let site := port / 8
  let mode := portMode s ch site
  let body := ctHdr p ++ p.payload
  if mode = 3 then body
  else
    let own := ownEntry s ch
    let vid := bits w0 51 12
    let tag := if vid = 0 then [] else beBytes 2 0x8100 ++ beBytes 2 (bits w0 48 3 * 2 ^ 13 + vid)
    let src := beBytes 6 (macAt own site (port % 8))
    if portUdp s ch site then
      let sip := ipAt own site
      let dip := ipAt e dsite
      let dgram (sum : Nat) := beBytes 2 (0xC000 + (32 * n + port) % 16384) ++ beBytes 2 (s.fget Fld.CT_GLOBAL_UDPPORT ch) ++
        beBytes 2 (8 + body.length) ++ beBytes 2 sum ++ body
      let vtf := 6 * 2 ^ 28 + (Config.frameOpen 1 s.free % 64) * 2 ^ 22 + 2 * 2 ^ 20 + Config.frameOpen 2 s.free % 2 ^ 20
      beBytes 6 (Config.frameOpen 0 s.free) ++ src ++ tag ++ beBytes 2 0x86DD ++ beBytes 4 vtf ++ beBytes 2 (8 + body.length) ++
        beBytes 1 17 ++ beBytes 1 64 ++ beBytes 16 sip ++ beBytes 16 dip ++ dgram (udpSum sip dip (dgram 0))
    else beBytes 6 (macAt e dsite dj) ++ src ++ tag ++ beBytes 2 (s.fget Fld.CT_GLOBAL_ETHERTYPE ch) ++ body

/-- The port has link. -/
def portUp (s : State) (ch port : Nat) : Bool := (s.fget Fld.CT_PORTn_STAT_UP ch (port / 8)).testBit (port % 8)

/-- The port of a flow's spray set that is next in turn. -/
def sprayPort (s : State) (ch : Nat) (f : Flow) : Option Nat :=
  let l := (List.range 32).filter fun p => f.ports.testBit p && portUp s ch p
  (l.find? fun p => decide (f.spray ≤ p)) <|> l.head?

/-- A packet put on the wire by its flow; none where the flow has no port. -/
def ctSend (s : State) (ch n : Nat) (p : CPkt) : Option State :=
  let f := s.flow ch n
  (sprayPort s ch f).map fun port =>
    let m := sitePorts s ch (port / 8)
    let dsite := f.peerHome.getD (Config.frameOpen 3 s.free % 4)
    let b := ctFrame s ch port n f.w0.toNat f.peerAddr dsite (f.dst % max m 1) p
    let s := (setFlow s ch n fun f => { f with spray := port + 1, dst := f.dst + 1 }).took
    s.setCt ch fun t => { t with sent := t.sent ++ [(port, b)] }

/-- An unsequenced packet of a flow (R427); none where the flow has no port. -/
def ctCtl (s : State) (ch n : Nat) (p : CPkt) : Option State :=
  let f := s.flow ch n
  (ctSend s ch n { p with srcPkg := ownPkg s, srcCh := ch, dstPkg := f.pkg, dstCh := f.pch, flow := f.peer, stream := 7, seq := 0 }).map
    fun s => s.finc Fld.CT_TXPKT_SENT ch 0 1

/-! ### Streams (R427 to R431) -/

def cstream (f : Flow) (k : Nat) : CStream := SMap.get {} f.streams k

def setStream (s : State) (ch n k : Nat) (g : CStream → CStream) : State :=
  setFlow s ch n fun f => { f with streams := SMap.put f.streams k (g (cstream f k)) }

/-- Distance from one sequence number to another. -/
def seqGap (a b : Nat) : Nat := (b + 2 ^ 32 - a) % 2 ^ 32

/-- The packet with a sequence number has been received. -/
def rxHas (x : CStream) (q : Nat) : Bool := decide (2 ^ 31 ≤ seqGap x.dlv q) || x.rx.any fun p => decide (p.seq = q)

/-- The lowest sequence number not yet received. -/
def rxLowest (x : CStream) : Nat :=
  (((List.range (x.rx.length + 1)).map fun i => (x.dlv + i) % 2 ^ 32).find? fun q => !rxHas x q).getD x.dlv

/-- An ACK of a stream (R428, R431). -/
def sendAck (s : State) (ch n k : Nat) : State :=
  let f := s.flow ch n
  let x := cstream f k
  let l := rxLowest x
  let map := ((List.range 32).map fun i => ofBit (rxHas x ((l + 1 + i) % 2 ^ 32)) * 2 ^ i).sum
  match ctCtl s ch n { ty := tAck, flags := flFirst + flLast + (if x.ece then flEce else 0), inc := f.inc, aux := k, dlv := x.dlv,
                       addr := l + map * 2 ^ 32 } with
  | some s => setStream s ch n k fun x => { x with unacked := 0, ece := false }
  | none => s

/-- The effective window of a flow. -/
def flowWin (f : Flow) : Nat := if f.win = 0 then f.wins else min f.win f.wins

/-- Bytes the channel's retransmit store holds. -/
def storeUsed (s : State) (ch : Nat) : Nat :=
  ((s.ct ch).flows.map fun p => (p.2.streams.map fun x => (x.2.kept.map fun q => 32 + q.payload.length).sum).sum).sum

/-- `CT_PACKET_TRANSMIT` (R420, R425, R427, R430). -/
def execCtPacketTransmit (ch : Ch) (flow : Fin 4096) (stream : Fin 5) (s : State) : Host.Outcome State Fault Refusal := .next <|
  let f := s.flow ch flow
  let x := cstream f stream
  match x.waiting with
  | [] => s
  | p :: rest =>
    if f.st ≠ fUp ∨ flowWin f ≤ seqGap x.peerDlv p.seq ∨ 2 ^ 23 < storeUsed s ch + 32 + p.payload.length then s
    else match ctSend s ch flow p with
      | none => s
      | some s =>
        (setStream s ch flow stream fun x => { x with waiting := rest, kept := x.kept ++ [p] }).finc Fld.CT_TXPKT_SENT ch 0 1

/-- A kept packet sent again (R429). -/
def ctResend (s : State) (ch n : Nat) (p : CPkt) : State :=
  match ctSend s ch n { p with flags := putBits p.flags 4 1 1 } with
  | none => s
  | some s =>
    let s := s.finc Fld.CT_RETXPKT_RESENT ch 0 1
    pmCount (setFlow s ch n fun f => { f with retx := satAdd 32 f.retx 1 }) ch 0x0B 127 1

/-- `CT_RTO_EXPIRY` (R429). -/
def execCtRtoExpiry (ch : Ch) (flow : Fin 4096) (stream : Fin 5) (s : State) : Host.Outcome State Fault Refusal := .next <|
  let f := s.flow ch flow
  match (cstream f stream).kept with
  | [] => s
  | p :: _ =>
    if f.st ≠ fUp then s
    else
      let s := setFlow s ch flow fun f => { f with expiries := f.expiries + 1 }
      if f.retries ≤ f.expiries + 1 then flowDown s ch flow else ctResend s ch flow p

/-- `CT_ACK_TIMER` (R428). -/
def execCtAckTimer (ch : Ch) (flow : Fin 4096) (stream : Fin 5) (s : State) : Host.Outcome State Fault Refusal := .next <|
  let f := s.flow ch flow
  if f.st = fUp ∧ 0 < (cstream f stream).unacked then sendAck s ch flow stream else s

/-! ### Reception (R422, R428) -/

/-- The Caravan bytes of a frame that reaches a port, and whether it was marked CE; none for a frame the gate die does not take. -/
def ctPayload (s : State) (ch port : Nat) (b : List Byte) : Option (List Byte) :=
  let site := port / 8
  let mode := portMode s ch site
  if mode = 3 then some b
  else
    let own := ownEntry s ch
    let dst := beNat (b.take 6)
    let rest := b.drop 12
    let rest := if beNat (rest.take 2) = 0x8100 then rest.drop 4 else rest
    let ety := beNat (rest.take 2)
    let body := rest.drop 2
    if !((List.range 8).any fun j => decide (dst = macAt own site j)) then none
    else if portUdp s ch site then
      let u := body.drop 40
      let n := beNat ((u.drop 4).take 2)
      let sip := beNat ((body.drop 8).take 16)
      let dip := beNat ((body.drop 24).take 16)
      let zero := u.take 6 ++ [0#8, 0#8] ++ (u.take n).drop 8
      if ety = 0x86DD ∧ body.getD 6 0#8 = 17#8 ∧ dip = ipAt own site ∧ beNat ((u.drop 2).take 2) = s.fget Fld.CT_GLOBAL_UDPPORT ch ∧
          8 ≤ n ∧ n ≤ u.length ∧ beNat ((u.drop 6).take 2) = udpSum sip dip zero then some ((u.take n).drop 8)
      else none
    else if ety = s.fget Fld.CT_GLOBAL_ETHERTYPE ch then some body else none

/-- The payload length fits: whole, or padded to the least Ethernet frame. -/
def lenFits (len have_ total : Nat) : Bool := decide (have_ = len) || (decide (total ≤ 64) && decide (len ≤ have_))

/-- A sequenced packet reaches its flow's home die (R428, R431, R445). -/
def ctTake (s : State) (ch n : Nat) (ce : Bool) (p : CPkt) : State :=
  let f := s.flow ch n
  let k := p.stream
  let s := if ce then setStream s ch n k fun x => { x with ece := true } else s
  let x := cstream (s.flow ch n) k
  if 2 ^ 31 ≤ seqGap x.dlv p.seq ∨ (x.rx.any fun q => decide (q.seq = p.seq)) then
    setStream s ch n k fun x => { x with unacked := max x.unacked 1 }
  else if f.wins < seqGap x.dlv p.seq then s
  else if p.ty = tColl ∧ bit p.flags 2 ∧ ¬ lcOk (bits p.aux 0 2) (bits p.aux 2 4) p.payload then
    ctErr s ch cEccUncorrected n p.addr
  else
    let gap := decide (rxLowest x ≠ p.seq)
    let s := setStream s ch n k fun x => { x with rx := x.rx ++ [p], unacked := x.unacked + 1 }
    if gap ∨ 16 ≤ x.unacked + 1 then sendAck s ch n k else s

/-- A frame that reaches the channel by a port (R424 to R426, R428). -/
def ctReceive (ch : Ch) (port : Fin 32) (frame : List Byte) (ce : Bool) (s : State) : State :=
  let site := port.val / 8
  if !portUp s ch port || !s.up ch then s
  else match ctPayload s ch port frame with
    | none => s
    | some b =>
      let p := ctPktOf (b.take 32) ((b.drop 32).take (bits (leNat (b.take 8)) 16 16))
      let len := bits (leNat (b.take 8)) 16 16
      if b.length < 32 ∨ bits (leNat (b.take 1)) 0 4 ≠ 1 ∨ p.ty = 0 ∨ tNotice < p.ty ∨ 4096 < len ∨
          ¬ lenFits len (b.length - 32) frame.length ∨ p.dstPkg ≠ ownPkg s ∨ p.dstCh ≠ ch.val then
        ctErr s ch (openCode 6) p.flow p.addr
      else
        let f := s.flow ch p.flow
        if !f.valid ∨ p.srcPkg ≠ f.pkg ∨ p.srcCh ≠ f.pch then s
        else if tAck ≤ p.ty then s.setCt ch fun t => { t with ctl := t.ctl ++ [p] }
        else if f.st ≠ fUp ∨ p.inc ≠ f.inc ∨ f.home ≠ site ∨ p.stream ≠ streamOf p.ty then s
        else ctTake s ch p.flow (ce && portUdp s ch site) p

/-- `CT_FRAME_RECEIVE` (R419 to R422, R426, R428). -/
def execCtFrameReceive (ch : Ch) (port : Fin 32) (frame : List Byte) (ce : Bool) (s : State) : Host.Outcome State Fault Refusal := .next <|
  ctReceive ch port frame ce s

/-! ### Control packets -/

/-- The oldest control packet of a type and flow, taken. -/
def takeCtl (s : State) (ch n ty : Nat) : Option (CPkt × State) :=
  ((s.ct ch).ctl.find? fun p => decide (p.ty = ty ∧ p.flow = n)).map fun p =>
    (p, s.setCt ch fun t => { t with ctl := t.ctl.erase p })

/-- The window after an ACK (R431). -/
def ackWindow (f : Flow) (ece : Bool) (freed : Nat) : Flow :=
  let w := flowWin f
  if ece then { f with win := max 8 (w / 2), grown := 0 }
  else if w ≤ f.grown + freed ∧ w < f.wins then { f with win := w + 1, grown := f.grown + freed - w }
  else { f with grown := if w < f.wins then f.grown + freed else 0 }

/-- `CT_ACK` (R428 to R431). -/
def execCtAck (ch : Ch) (flow : Fin 4096) (s : State) : Host.Outcome State Fault Refusal := .next <|
  match takeCtl s ch flow tAck with
  | none => s
  | some (p, s) =>
    let f := s.flow ch flow
    let k := bits p.aux 0 3
    if f.st ≠ fUp ∨ p.inc ≠ f.inc ∨ 5 ≤ k then s
    else
      let x := cstream f k
      let low := bits p.addr 0 32
      let got (q : Nat) : Bool := let d := seqGap low q
        decide (2 ^ 31 ≤ d) || (decide (1 ≤ d ∧ d ≤ 32) && bit p.addr (32 + d - 1))
      let left := x.kept.filter fun q => !got q.seq
      let freed := x.kept.length - left.length
      let late (q : Nat) : Bool := (List.range 32).any fun i =>
        bit p.addr (32 + i) && decide (0 < seqGap q ((low + 1 + i) % 2 ^ 32) ∧ seqGap q ((low + 1 + i) % 2 ^ 32) < 2 ^ 31)
      let s := setStream s ch flow k fun x =>
        { x with kept := left, peerDlv := if seqGap x.peerDlv p.dlv < 2 ^ 31 then p.dlv else x.peerDlv }
      let s := setFlow s ch flow fun f =>
        ackWindow { f with expiries := if freed = 0 then f.expiries else 0 } (bit p.flags 5) freed
      (left.filter fun q => late q.seq).foldl (fun s q => ctResend s ch flow q) s

/-! OPEN frames (R426): `AUX`[1:0] `HOME`, [5:2] `INC`, [8] an answer; `ADDR`[7:0] the entry's `FUNC`. -/

/-- The peer table read for an OPEN (R425, R449). -/
def readPeers (s : State) (ch n : Nat) : State :=
  let f := s.flow ch n
  let own := peerEntry s ch (ownPkg s) ch
  let e := peerEntry s ch f.pkg f.pch
  let code := if peerValid e then 0 else cCfgIgnored
  (setFlow s ch n fun f => { f with peerAddr := e, code := code }).setCt ch fun t => { t with own := own }

/-- An OPEN sent, unless the peer's entry is invalid (R449). -/
def sendOpen (s : State) (ch n inc : Nat) (answer_ : Bool) : State :=
  let s := readPeers s ch n
  let f := s.flow ch n
  if !peerValid f.peerAddr then s
  else (ctCtl s ch n { ty := tOpen, flags := flFirst + flLast, inc := inc, aux := f.home + inc * 4 + ofBit answer_ * 2 ^ 8,
                       addr := f.func }).getD s

/-- What the flow's earlier incarnation has brought answers nobody (R426, R435). -/
def flowInDrop (s : State) (ch n : Nat) : State :=
  s.setChan ch fun k =>
    { k with
      reqs := k.reqs.map fun r => match r.ret with
        | .flow m _ _ => if m = n then { r with ret := .drop } else r
        | _ => r
      waiters := k.waiters.filter fun w => match w.who with | .flow m _ _ => decide (m ≠ n) | _ => true }

/-- A flow comes `UP` with an incarnation: every stream restarts (R426); what was still outstanding ends. -/
def flowUp (s : State) (ch n inc home : Nat) : State :=
  let s := flowInDrop (flowOpsEnd s ch n cLinkDown) ch n
  let s := setFlow (setFlowSt s ch n fUp) ch n fun f =>
    { f with inc := inc, code := 0, streams := [], ins := [], expiries := 0, win := 0, grown := 0, peerHome := some home }
  s

/-- `CT_OPEN` (R426, R448). -/
def execCtOpen (ch : Ch) (flow : Fin 4096) (s : State) : Host.Outcome State Fault Refusal := .next <|
  match takeCtl s ch flow tOpen with
  | none => s
  | some (p, s) =>
    let f := s.flow ch flow
    let i := bits p.aux 2 4
    let ans := bit p.aux 8
    if f.st = fRetired ∨ bits p.addr 0 8 ≠ f.func then s
    else if f.st = fUp ∧ i = f.inc then (if ans then s else sendOpen s ch flow i true)
    else if ans ∧ f.st ≠ fOpening ∧ f.st ≠ fDown then s
    else
      let mine := (f.inc + 1) % 16
      let inc := if f.st = fOpening ∨ f.st = fDown then max i mine else i
      let s := flowUp s ch flow inc (bits p.aux 0 2)
      if ans then s else sendOpen s ch flow inc true

/-- `CT_OPEN_RETRY` (R426). -/
def execCtOpenRetry (ch : Ch) (flow : Fin 4096) (s : State) : Host.Outcome State Fault Refusal := .next <|
  let f := s.flow ch flow
  if f.st = fOpening ∨ f.st = fDown then sendOpen s ch flow ((f.inc + 1) % 16) false else s

/-- `CT_NOTICE` (R447). -/
def execCtNotice (ch : Ch) (flow : Fin 4096) (s : State) : Host.Outcome State Fault Refusal := .next <|
  match takeCtl s ch flow tNotice with
  | some (_, s) => if (s.flow ch flow).st = fRetired then s else flowLost s ch flow cChannelRetired fRetired
  | none => s

/-- `CT_NOTICE_RESEND` (R447): every notice still to be sent, by the lowest port that has link. -/
def execCtNoticeResend (ch : Ch) (s : State) : Host.Outcome State Fault Refusal := .next <|
  match (List.range 32).find? fun p => portUp s ch p with
  | none => s
  | some port =>
    let ns := (s.ct ch).notices
    let s := ns.foldl (fun s x =>
      let (pkg, pch, flow, v) := x
      let e := peerEntry s ch pkg pch
      let p : CPkt := { ty := tNotice, flags := flFirst + flLast, code := cChannelRetired, srcPkg := ownPkg s, srcCh := v % 4,
                        dstPkg := pkg, dstCh := pch, flow := flow }
      if !peerValid e then s
      else
        let b := ctFrame s ch port 0 0 e (Config.frameOpen 3 s.free % 4) 0 p
        (s.took.setCt ch fun t => { t with sent := t.sent ++ [(port, b)] }).finc Fld.CT_TXPKT_SENT ch 0 1) s
    let left := (s.ct ch).notices.filterMap fun x =>
      if 8 ≤ x.2.2.2 then some (x.1, x.2.1, x.2.2.1, x.2.2.2 - 4) else none
    s.setCt ch fun t => { t with notices := left }

/-! ### Operations that arrive (R424, R432, R433) -/

/-- The packet that is next in a stream, where everything before it has taken effect. -/
def arriving (s : State) (ch n ty : Nat) : Option CPkt :=
  let f := s.flow ch n
  let k := streamOf ty
  let x := cstream f k
  if f.st ≠ fUp ∨ ((s.chan ch).reqs.any fun r => match r.ret with
      | .flow m j _ => decide (m = n ∧ j = k)
      | _ => false) then none
  else x.rx.find? fun p => decide (p.seq = x.dlv ∧ p.ty = ty)

/-- The packet delivered. -/
def deliverPkt (s : State) (ch n : Nat) (p : CPkt) : State :=
  (setStream s ch n p.stream fun x => { x with dlv := (x.dlv + 1) % 2 ^ 32, rx := x.rx.erase p }).finc Fld.CT_RXPKT_DELIVERED ch 0 1

/-- A packet delivered and its operation issued as the flow's function, or refused with a code. -/
def arriveReq (s : State) (ch n : Nat) (p : CPkt) (op : ROp) (cls : Nat) (code : State → Nat → Nat) : State :=
  let f := s.flow ch n
  let s := deliverPkt s ch n p
  let r : Req := { ret := .flow n p.stream p.opid, fn := some f.func, epoch := epochOf s ch, cl := 96, tga := p.addr, op := op,
                   cls := cls, place := .remote }
  let c := if (scrubOf s ch f.func).isSome then cFlrAborted else code s f.func
  if c ≠ 0 then flowReply (refusedBy s ch (some f.func) c p.addr) ch n p.opid r c []
  else siteReq s ch f.home r

/-- The checks of a memory access that comes in by a site link or a flow (R411, R424). -/
def siteCode (s : State) (ch f : Nat) (write : Bool) (a len : Nat) : Nat :=
  if !isOwn s ch a ∨ 2 ≤ tgaSpace a then cUnitAbsent else accessCode s ch (some f) write a len

/-- The checks of a message that comes in by a site link or a flow: its form; the rest at its queue. -/
def siteMsgCode (s : State) (ch f a : Nat) (body : List DByte) : Nat :=
  if qaddrBad a (body.length / 8) then cCfgIgnored
  else if !isOwn s ch a ∨ 96 ≤ tgaCl a then cUnitAbsent
  else sendCode s ch (some f) a body

/-- The checks of a sync operation that comes in by a site link or a flow. -/
def siteSyncCode (s : State) (ch f a : Nat) : Nat :=
  if !isOwn s ch a ∨ tgaSpace a ≠ 2 then cUnitAbsent else syncCode s ch (some f) a

/-- `CT_WRITE`. -/
def execCtWrite (ch : Ch) (flow : Fin 4096) (s : State) : Host.Outcome State Fault Refusal := .next <|
  match arriving s ch flow tWrite with
  | none => s
  | some p =>
    let d : List DByte := p.payload.map fun b => (b, bit p.flags 3)
    let s := setFlow s ch flow fun f =>
      { f with ins := if f.ins.any fun i => decide (i.opid = p.opid) then
                        f.ins.map fun i => if i.opid = p.opid then { i with last := i.last || bit p.flags 1 } else i
                      else f.ins ++ [{ opid := p.opid, last := bit p.flags 1 }] }
    arriveReq s ch flow p (.write d) 2 fun s f => if d.isEmpty then cCfgIgnored else siteCode s ch f true p.addr d.length

/-- `CT_READ`. -/
def execCtRead (ch : Ch) (flow : Fin 4096) (s : State) : Host.Outcome State Fault Refusal := .next <|
  match arriving s ch flow tRead with
  | none => s
  | some p =>
    arriveReq s ch flow p (.read p.aux) 2 fun s f =>
      if p.aux = 0 ∨ 4096 < p.aux then cCfgIgnored else siteCode s ch f false p.addr p.aux

/-- `CT_QMSG`: the header travels in the first 8 bytes. -/
def execCtQmsg (ch : Ch) (flow : Fin 4096) (s : State) : Host.Outcome State Fault Refusal := .next <|
  match arriving s ch flow tQmsg with
  | none => s
  | some p =>
    let body : List DByte := (p.payload.drop 8).map fun b => (b, bit p.flags 3)
    arriveReq s ch flow p (.msg (leNat (p.payload.take 8)) body) 2 fun s f =>
      if body.length % 8 ≠ 0 ∨ body.isEmpty ∨ 64 < body.length then cCfgIgnored else siteMsgCode s ch f p.addr body

/-- `CT_SYNC`. -/
def execCtSync (ch : Ch) (flow : Fin 4096) (s : State) : Host.Outcome State Fault Refusal := .next <|
  match arriving s ch flow tSync with
  | none => s
  | some p =>
    match sopOf p.aux with
    | some op =>
      let s' := arriveReq s ch flow p (.sync op (leNat (p.payload.take 8))) 2 fun s f => siteSyncCode s ch f p.addr
      if bit p.flags 3 then
        let mark (r : Req) : Req := if r.ret = .flow flow p.stream p.opid then { r with parts := [1] } else r
        s'.setChan ch fun k => { k with reqs := k.reqs.map mark }
      else s'
    | none => sendResp (deliverPkt s ch flow p) ch flow p.opid cCfgIgnored 0 0

/-- `CT_BAR` (R441). -/
def execCtBar (ch : Ch) (flow : Fin 4096) (s : State) : Host.Outcome State Fault Refusal := .next <|
  match arriving s ch flow tBar with
  | none => s
  | some p =>
    let f := s.flow ch flow
    let s := deliverPkt s ch flow p
    let gid := bits p.addr 0 32
    match (s.ct ch).groups.find? fun q => q.2.valid && decide (q.2.gid = gid ∧ q.2.func = f.func) with
    | none => ctErr s ch cCfgIgnored flow p.addr
    | some (n, g) =>
      let nf := bit p.aux 0
      if bit p.aux 1 then ctErr (poisonObj s ch g.bobj) ch cSyncPoison flow p.addr
      else if bit p.aux 8 then
        let s := g.children.foldl (fun s r => sendBar s ch g r nf false true) (setGroup s ch n clearInst)
        releaseArmed s ch g.bobj nf
      else
        let kids := g.children.filter fun r => decide (member s g r = (f.pkg, f.pch))
        barRun (groupTry (setGroup s ch n fun g => { g with kids := g.kids ++ kids, nf := g.nf || nf }) ch n) ch g.bobj

/-- `CT_RESP` (R432): `AUX`[0] tells of a busy registration, which is repeated (R253). -/
def execCtResp (ch : Ch) (flow : Fin 4096) (s : State) : Host.Outcome State Fault Refusal := .next <|
  match arriving s ch flow tResp with
  | none => s
  | some p =>
    let s := deliverPkt s ch flow p
    if bit p.aux 0 then
      match (s.flow ch flow).ops.find? fun o => decide (o.opid = p.opid) with
      | some o =>
        let s := setFlow s ch flow fun f => { f with ops := f.ops.filter fun o => !decide (o.opid = p.opid) }
        match o.req with
        | some no => setReq s ch no fun r => { r with place := .busy }
        | none => s
      | none => s
    else ctOpEnd s ch flow p.opid (wireCode p.code) (dBytes 8 p.addr)

/-- `CT_RDATA` (R432, R434). -/
def execCtRdata (ch : Ch) (flow : Fin 4096) (s : State) : Host.Outcome State Fault Refusal := .next <|
  match arriving s ch flow tRdata with
  | none => s
  | some p =>
    let s := deliverPkt s ch flow p
    let d : List DByte := p.payload.map fun b => (b, bit p.flags 3)
    let s := setFlow s ch flow fun f =>
      { f with ops := f.ops.map fun o => if o.opid = p.opid then { o with data := o.data ++ d } else o }
    if bit p.flags 1 then
      match (s.flow ch flow).ops.find? fun o => decide (o.opid = p.opid) with
      | some o => ctOpEnd s ch flow p.opid (wireCode p.code) o.data
      | none => s
    else s

/-! ### Registers -/

/-- A command of the `CT_` block, or its discard (chapter 20, *Registers*). -/
def ctGuard (r : Requester) (ch : Nat) (s : State) (f : State → State) : State :=
  if maySup s r then f s else ctErr s ch cCfgIgnored 0 0

/-- A `CFG_IGNORED` of a discarded commit. -/
def ctIgnore (s : State) (ch n : Nat) : State := ctErr s ch cCfgIgnored n 0

/-- A flow entry that may be committed (Table 20-3, R423, R17). -/
def flowOk (s : State) (ch n : Nat) (w0 w1 : Word) : Bool :=
  let f : Flow := { w0 := w0, w1 := w1 }
  let b := w1.toNat
  (podMode s || decide (f.pkg = 0)) &&
  (!f.valid || (decide (f.func ≤ 128 ∧ 16 ≤ f.wins ∧ f.wins ≤ 1024 ∧ 5 ≤ bits b 16 10 ∧ bits b 16 10 ≤ 1000 ∧ 1 ≤ f.retries) &&
      !((s.ct ch).flows.any fun p => decide (p.1 ≠ n) && p.2.valid && decide (p.2.func = f.func ∧ p.2.pkg = f.pkg ∧ p.2.pch = f.pch))))

/-- `CT_FLOWCTRL_COMMIT` (R423). -/
def execCtFlowctrlCommit (r : Requester) (ch : Ch) (s : State) : Host.Outcome State Fault Refusal := .next <|
  rowGate s r (.ct ch) fun s =>
  ctGuard r ch s fun s =>
    let n := s.fget Fld.CT_FLOWSEL_INDEX ch
    let f := s.flow ch n
    if (f.valid ∧ f.st ≠ fIdle) ∨ ¬ flowOk s ch n f.sh0 f.sh1 then ctIgnore s ch n
    else setFlow (setFlowSt s ch n fIdle) ch n fun f => { sh0 := f.sh0, sh1 := f.sh1, w0 := f.sh0, w1 := f.sh1 }

/-- `CT_FLOWCTRL_OPEN` (R426). -/
def execCtFlowctrlOpen (r : Requester) (ch : Ch) (s : State) : Host.Outcome State Fault Refusal := .next <|
  rowGate s r (.ct ch) fun s =>
  ctGuard r ch s fun s =>
    let n := s.fget Fld.CT_FLOWSEL_INDEX ch
    let f := s.flow ch n
    if f.valid ∧ f.st = fIdle then sendOpen (setFlowSt s ch n fOpening) ch n ((f.inc + 1) % 16) false else s

/-- `CT_FLOWCTRL_CLOSE` (R426, R435). -/
def execCtFlowctrlClose (r : Requester) (ch : Ch) (s : State) : Host.Outcome State Fault Refusal := .next <|
  rowGate s r (.ct ch) fun s =>
  ctGuard r ch s fun s =>
    let n := s.fget Fld.CT_FLOWSEL_INDEX ch
    if (s.flow ch n).st = fIdle then s else flowLost s ch n cLinkDown fIdle

/-- `CT_FLOWSTAT` of an entry. -/
def flowStat (f : Flow) : Nat := f.st + f.inc * 2 ^ 3 + f.code * 2 ^ 8 + flowWin f * 2 ^ 16 + f.retx * 2 ^ 32

/-- `CT_FLOWSEL_WRITE` (R423): the entry sampled. -/
def execCtFlowselWrite (r : Requester) (ch : Ch) (v : Word) (s : State) : Host.Outcome State Fault Refusal := .next <|
  rowGate s r (.ct ch) fun s =>
  ctGuard r ch s fun s =>
    let n := v.toNat % 4096
    let f := s.flow ch n
    let s := ((s.setReg .CT_FLOWSEL ch 0 n).setReg .CT_FLOWCFGw ch 0 f.sh0.toNat).setReg .CT_FLOWCFGw ch 1 f.sh1.toNat
    s.setReg .CT_FLOWSTAT ch 0 (flowStat f)

/-- A shadow word without its reserved bits, whose writes are ignored (R10): of a flow entry (Table 20-3), of a group entry
(Table 20-8). -/
def flowWord (i : Nat) (v : Word) : Word :=
  BitVec.ofNat 64 (if i = 0 then putBits (putBits v.toNat 1 7 0) 63 1 0 else putBits (putBits v.toNat 11 5 0) 30 2 0)
def groupWord (i : Nat) (v : Word) : Word :=
  if i = 0 then BitVec.ofNat 64 (putBits v.toNat 45 3 0)
  else if i = 1 then BitVec.ofNat 64 (putBits (putBits v.toNat 17 15 0) 49 15 0)
  else v

/-- A write of a shadow word of the selected flow entry. -/
def flowShadow (s : State) (ch i : Nat) (v : Word) : State :=
  let n := s.fget Fld.CT_FLOWSEL_INDEX ch
  let v := flowWord i v
  (setFlow s ch n fun f => if i = 0 then { f with sh0 := v } else { f with sh1 := v }).setReg .CT_FLOWCFGw ch i v.toNat

/-- A write of a shadow word of the selected group entry. -/
def groupShadow (s : State) (ch i : Nat) (v : Word) : State :=
  let n := s.fget Fld.CT_GRPSEL_INDEX ch
  let v := groupWord i v
  (setGroup s ch n fun g => { g with sh := g.sh.set i v }).setReg .CT_GRPCFGw ch i v.toNat

/-- Nothing uses a group: no barrier instance, no collective. -/
def groupIdle (s : State) (ch n : Nat) : Bool :=
  let g := s.group ch n
  !g.own && g.kids.isEmpty && !(s.obj ch g.bobj).armed && !((s.ct ch).coll.any fun k => decide (k.group = n))

/-- `CT_GRPCTRL_COMMIT` (R438, Table 20-8). -/
def execCtGrpctrlCommit (r : Requester) (ch : Ch) (s : State) : Host.Outcome State Fault Refusal := .next <|
  rowGate s r (.ct ch) fun s =>
  ctGuard r ch s fun s =>
    let n := s.fget Fld.CT_GRPSEL_INDEX ch
    let g := s.group ch n
    let x : Group := { g with w := g.sh, number := 0, own := false, kids := [], nf := false, psn := false }
    let ok := !x.valid || (decide (x.func ≤ 128 ∧ x.fan ≠ 1 ∧ 1 ≤ x.size ∧ x.size ≤ 131072) && decide (x.rank < x.size))
    if (g.valid ∧ ¬ groupIdle s ch n) ∨ ¬ ok then ctIgnore s ch 0 else setGroup s ch n fun _ => x

/-- `CT_GRPSEL_WRITE` (R438). -/
def execCtGrpselWrite (r : Requester) (ch : Ch) (v : Word) (s : State) : Host.Outcome State Fault Refusal := .next <|
  rowGate s r (.ct ch) fun s =>
  ctGuard r ch s fun s =>
    let n := v.toNat % 1024
    let g := s.group ch n
    [0, 1, 2].foldl (fun s i => s.setReg .CT_GRPCFGw ch i (g.sh.getD i 0#64).toNat) (s.setReg .CT_GRPSEL ch 0 n)

/-- `CT_LCCFG_COMMIT` (R442, Table 2-2). -/
def execCtLccfgCommit (r : Requester) (ch : Ch) (s : State) : Host.Outcome State Fault Refusal := .next <|
  rowGate s r (.ct ch) fun s =>
  ctGuard r ch s fun s =>
    let m := s.fget Fld.CT_LCCFG_MODE ch
    if m = 3 then ctIgnore s ch 0
    else if m ≠ 0 ∧ ¬ s.fbit Fld.CH_CAPS_LC_LIVE ch then
      (s.record Fld.CH_UNITERR_CODE Fld.CH_UNITERR_COUNT ch cUnitAbsent).fset Fld.CH_UNITERR_UNIT ch 0 1
    else (s.fset Fld.CT_LCLIVE_MODE ch 0 m).fset Fld.CT_LCLIVE_BLIM ch 0 (s.fget Fld.CT_LCCFG_BLIM ch)

/-- The gate die of a site is fitted and in service. -/
def dieLive (s : State) (ch site : Nat) : Bool :=
  (s.fget Fld.CH_CAPS_SITE_GATE ch &&& s.fget Fld.CH_CAPS_SITE_LIVE ch).testBit site

/-- `CT_PORT_CFG_COMMIT` (R421). -/
def execCtPortCfgCommit (r : Requester) (ch : Ch) (site : Fin 4) (s : State) : Host.Outcome State Fault Refusal := .next <|
  rowGate s r (.ct ch) fun s =>
  ctGuard r ch s fun s =>
    let m := s.fget Fld.CT_PORTn_CFG_MODE ch site
    let u := s.fbit Fld.CT_PORTn_CFG_UDP ch site
    let y := s.fget Fld.CT_PORTn_CFG_MAXPAY ch site
    if y = 3 ∨ (u ∧ m = 3) ∨ (m ≠ 0 ∧ ¬ dieLive s ch site) then ctIgnore s ch 0
    else
      let again := decide (portMode s ch site ≠ m) || (portUdp s ch site != u)
      let s := s.setCt ch fun t => { t with live := t.live.set site (m + ofBit u * 4 + y * 8) }
      if again then s.fset Fld.CT_PORTn_STAT_UP ch site 0 else s

/-- `PORT_LINK_DOWN` (R447). -/
def execPortLinkDown (ch : Ch) (port : Fin 32) (s : State) : Host.Outcome State Fault Refusal := .next <| portLost s ch port

/-- `PORT_LINK_UP` (R419, R421). -/
def execPortLinkUp (ch : Ch) (port : Fin 32) (s : State) : Host.Outcome State Fault Refusal := .next <|
  let site := port.val / 8
  if port.val % 8 < sitePorts s ch site ∧ dieLive s ch site ∧ ¬ portGone s ch port then
    s.fset Fld.CT_PORTn_STAT_UP ch site (putBits (s.fget Fld.CT_PORTn_STAT_UP ch site) (port.val % 8) 1 1)
  else s

end Sys2Proof.Machine
end

