-- ==== Sys2Proof/Machine/Coll.lean ====
section
/-! DEFINITION. The collective engine (R436 to R446): submission, checks, and the ring. -/

namespace Sys2Proof.Machine

/-! ### The port (R436) -/

/-- The message at the head of a gateway input, where it has come to the collective port: its request and body. -/
def collArrived (s : State) (ch c inp : Nat) : Option (Req × List DByte) :=
  match meshQueue s ch c inp with
  | [] => none
  | r :: _ =>
    match r.op with
    | .msg _ b =>
      if !remoteReq s ch r && collPort r.tga && (r.units.isEmpty || listed s ch r) && clocked s ch c &&
          (decide (inp ≠ 8) || decide (r.cl ≠ c) || gateOut s ch c) then some (r, b) else none
    | _ => none

/-- The first gateway input, in order of clusters and inputs, whose head has come to the collective port. -/
def collNext (s : State) (ch : Nat) : Option (Nat × Nat × Req × List DByte) :=
  ((s.chan ch).reqs.filterMap fun r => match r.place with | .mesh c inp => some (c, inp) | _ => none).findSome? fun p =>
    (collArrived s ch p.1 p.2).map fun x => (p.1, p.2, x)

/-- `COLLECTIVE_SUBMIT` (R436): a DESC message joins the port's queue of 64, or waits. -/
def execCollectiveSubmit (ch : Ch) (s : State) : Host.Outcome State Fault Refusal := .next <|
  match collNext s ch with
  | none => s
  | some (c, inp, r, b) =>
    if gwBad s ch c inp r then sidingOut s ch c cEccUncorrected
    else if 64 ≤ (s.ct ch).collq.length then s
    else
      let b := match (readBack s ch c r).op with
        | .msg _ b => b
        | _ => b
      let code := if anyPsn b then cEccUncorrected
        else if dNat ((b.drop 8).take 4) ≠ 64 then cCfgIgnored else 0
      let s := leaveMesh s ch r c inp
      let s := if code ≠ 0 then s
        else s.setCt ch fun t => { t with collq := t.collq ++ [⟨dNat (b.take 8), r.fn.getD 255, r.cl⟩] }
      finish s ch r code []

/-! ### A descriptor (Table 20-6) -/

def Coll.w (k : Coll) (i : Nat) : Nat := k.d.getD i 0
def Coll.cop (k : Coll) : Nat := bits (k.w 0) 0 4
def Coll.rop (k : Coll) : Nat := bits (k.w 0) 4 2
def Coll.fmt (k : Coll) : Nat := bits (k.w 0) 6 4
def Coll.src (k : Coll) : Nat := k.w 1
def Coll.dst (k : Coll) : Nat := k.w 2
def Coll.count (k : Coll) : Nat := bits (k.w 3) 0 32
def Coll.root (k : Coll) : Nat := bits (k.w 3) 32 32
def Coll.size (k : Coll) : Nat := collSize k.fmt

def cReduce : Nat := 1
def cAllreduce : Nat := 2
def cAllgather : Nat := 3
def cBroadcast : Nat := 4

/-- Check 1 of R437; `p` is the group's size where it has one. -/
def collFieldsOk (k : Coll) (p : Nat) : Bool :=
  let w := k.w 0
  let red := decide (k.cop = cReduce ∨ k.cop = cAllreduce)
  let clip := k.w 4
  decide (1 ≤ k.cop ∧ k.cop ≤ 4) && (if red then decide (k.rop ≤ 2) else decide (k.rop = 0)) &&
    decide (k.fmt = 0 ∨ k.fmt = 1 ∨ k.fmt = 9 ∨ k.fmt = 11) && decide (bits w 10 2 ≤ 2) &&
    (decide (k.fmt ≠ 11) || decide (bits w 10 2 = 0)) && decide (bits w 13 3 = 0 ∧ bits w 16 16 < 1024) && decide (1 ≤ k.count) &&
    (if k.cop = cReduce ∨ k.cop = cBroadcast then decide (p = 0 ∨ k.root < p) else decide (k.root = 0)) &&
    (decide (clip = 0) || (red && decide (k.rop = 0 ∧ k.fmt ≠ 11))) && decide (k.w 5 = 0 ∧ bits (k.w 6) 0 64 = 0)

/-- A clip record (Table 14-2, R302). -/
def clipOk (k : Coll) (r : List Nat) : Bool :=
  let w := r.getD 0 0
  let c := bits w 0 32
  decide (k.w 4 % 32 = 0 ∧ bits w 37 27 = 0 ∧ r.getD 2 0 = 0 ∧ r.getD 3 0 = 0) && decide (bits w 32 4 = k.fmt) && !bit c 31 &&
    decide (c ≤ 0x7F800000) && (if bit w 36 then decide (r.getD 1 0 % 16 = 0) else decide (r.getD 1 0 = 0))

/-- The words of bytes. -/
def byteWords (b : List DByte) : List Nat := (List.range (b.length / 8)).map fun i => dNat ((b.drop (8 * i)).take 8)

/-! ### Chunks and steps (R439) -/

/-- Elements per chunk, and a chunk's first element and length. -/
def collC (k : Coll) (p : Nat) : Nat :=
  if k.cop = cAllreduce then (k.count + p - 1) / p else k.count
def collChunk (k : Coll) (p i : Nat) : Nat × Nat :=
  let c := collC k p
  if k.cop = cAllgather then (i * c, c)
  else (min (i * c) k.count, min ((i + 1) * c) k.count - min (i * c) k.count)

/-- A reception: chunk, whether this member adds its input, whether it finalises, whether it sends on. -/
structure Recv where
  chunk : Nat
  adds : Bool
  final : Bool
  sends : Bool
  deriving DecidableEq, Repr

/-- Receptions of a member. -/
def collRecvs (k : Coll) (g : Group) : Nat :=
  let p := g.size
  if p = 1 then 0
  else if k.cop = cAllreduce then 2 * (p - 1)
  else if k.cop = cAllgather then p - 1
  else if k.cop = cReduce then (if g.rank = (k.root + 1) % p then 0 else 1)
  else if g.rank = k.root then 0 else 1

/-- The reception numbered `t`. -/
def collRecv (k : Coll) (g : Group) (t : Nat) : Recv :=
  let p := g.size
  let r := g.rank
  if k.cop = cAllreduce then
    if t < p - 1 then ⟨(r + 2 * p - 1 - t) % p, true, decide (t = p - 2), true⟩
    else ⟨(r + p - (t - (p - 1))) % p, false, false, decide (t < 2 * (p - 1) - 1)⟩
  else if k.cop = cAllgather then ⟨(r + 2 * p - 1 - t) % p, false, false, decide (t < p - 2)⟩
  else if k.cop = cReduce then ⟨0, true, decide (r = k.root), decide (r ≠ k.root)⟩
  else ⟨0, false, false, decide ((r + 1) % p ≠ k.root)⟩

/-! ### Arithmetic -/

/-- One step of a reduction: the received partial first (R439). -/
def reduceOp (k : Coll) (x y : Nat) : Nat :=
  if k.fmt = 11 then
    let a := sint 32 x
    let b := sint 32 y
    uint 32 (if k.rop = 0 then a + b else if k.rop = 1 then max a b else min a b)
  else
    let vs := [fp32.value x, fp32.value y]
    let v := if k.rop = 0 then (sumExact 0 vs).1 else if k.rop = 1 then pickMax vs else pickMin vs
    (fp32.encode rneMode none v).1

/-- The range of this member's input that elements take. -/
def inputRange (k : Coll) (lo n : Nat) : Nat × Nat := (k.src + lo * k.size, n * k.size)

/-- Elements of this member's input, which the engine has read, and whether a byte of them is poisoned. -/
def collInput (s : State) (ch : Nat) (k : Coll) (lo n : Nat) : List Nat × Bool :=
  let r := inputRange k lo n
  let bs := unitGot s ch 2 r.1 r.2
  ((bytesElems k.size n (bs.map Prod.fst)).map (toEngine k.fmt), anyPsn bs)

/-- What the engine needs of memory: it goes on with a test of what came back once everything is back, and asks until then (R193). A
read that fails ends the collective with its code. -/
def collNeed (s : State) (ch f : Nat) (l : List (Nat × Nat)) (go : State → State) : State :=
  if unitBack s ch 2 false l then
    let code := (l.map fun t => unitCode s ch 2 false t.1 t.2).foldl firstCode 0
    if code ≠ 0 then collEnd s ch code else go s
  else unitAsk s ch 2 96 (some f) l

/-- One element clamped (R303): its bits in the format, and whether it was clamped, whether it is non-finite. -/
def clipElem (k : Coll) (x : Nat) : Nat × Bool × Bool :=
  let f := collFmt k.fmt
  let c := bits k.clip 0 32
  let v := f.value x
  match v with
  | .fin neg _ _ =>
    if c ≠ 0 ∧ c ≠ 0x7F800000 ∧ FVal.numLt (fp32.value c) v.abs then
      let cv := fp32.value c
      ((f.encode { rneMode with rnd := 1 } none (if neg then cv.neg else cv)).1, true, false)
    else (x, false, false)
  | _ => (x, false, true)

/-- One more written value in the sum of squares (R303). -/
def sumsqAdd (k : Coll) (acc y : Nat) : Nat :=
  let v := fp32.value (toEngine k.fmt y)
  let q := (fp32.encode rneMode none (FVal.mul v v).1).1
  (fp32.encode rneMode none (sumExact 0 [fp32.value acc, fp32.value q]).1).1

/-! ### Sending -/

/-- A COLL packet: payload, compressed or not, poison, compressions so far. `AUX`[1:0] the compression mode, [5:2] the format. -/
structure Seg where
  payload : List Byte
  lc : Nat
  psn : Bool
  ncomp : Nat
  deriving DecidableEq, Repr

/-- Segments put on the flow to the ring successor. -/
def sendSegs (s : State) (ch : Nat) (l : List Seg) : State :=
  match (s.ct ch).coll with
  | none => s
  | some k =>
    let g := s.group ch k.group
    let (n, code) := flowTo s ch g (ringNext g)
    if code ≠ 0 then collEnd s ch cLinkDown
    else
      let s := l.zipIdx.foldl (fun s x =>
        let (q, i) := x
        ctPush s ch n sC
          { ty := tColl, flags := flFirst + flLast + (if q.lc = 0 then 0 else flLc) + (if q.psn then flPoison else 0),
            aux := q.lc + k.fmt * 4, dlv := q.ncomp, payload := q.payload,
            addr := g.gid + k.number * 2 ^ 32 + (k.segs + i) % 2 ^ 16 * 2 ^ 48 }) s
      s.setCt ch fun t => { t with coll := t.coll.map fun k => { k with segs := k.segs + l.length } }

/-- Pieces of at most `m` elements. -/
def pieces (m : Nat) : Nat → List Nat → List (List Nat)
  | 0, _ => []
  | _, [] => []
  | n + 1, l => l.take m :: pieces m n (l.drop m)

/-- Elements made into segments: the segments, the elements as receivers decode them, in the format's bits, the compressions
they have then been through, and the largest `CMAX`. -/
def makeSegs (s : State) (ch : Nat) (k : Coll) (els : List Nat) (psn : Bool) (ncomp cmax : Nat) : List Seg × List Nat × Nat × Nat :=
  let g := s.group ch k.group
  let m := flowMaxpay s ch (s.flow ch (flowTo s ch g (ringNext g)).1)
  if k.lcused = 0 then
    let xs := els.map (ofEngine k.fmt)
    ((pieces (m / k.size) els.length xs).map fun x => ⟨elemsBytes k.size x, 0, psn, ncomp⟩, xs, ncomp, cmax)
  else
    let bl := lcBlocks k.lcused k.fmt (s.fget Fld.CT_LCLIVE_BLIM ch) els.length els
    let fs := lcFrames m bl
    let seg (f : List (LcBlk × List Nat)) : Seg :=
      let cert := leBytes 4 (lcMmax f) ++ leBytes 4 (lcBmax f) ++ leBytes 4 (max cmax (lcBmax f))
      ⟨(f.map fun b => b.1.bytes).flatten ++ cert, k.lcused, psn, ncomp + 1⟩
    (fs.map seg, (bl.map fun b => b.1.dec.map (ofEngine k.fmt)).flatten, ncomp + 1, max cmax (lcBmax bl))

/-! ### Writing -/

/-- Elements written at their place of `DST` (R197, R299). -/
def collWrite (s : State) (ch : Nat) (k : Coll) (lo : Nat) (xs : List Nat) (psn : Bool) : State :=
  unitPut s ch 2 96 (some k.req.func) (k.dst + lo * k.size) ((elemsBytes k.size xs).map fun b => (b, psn))

/-- What reached the result. -/
def collSeen (s : State) (ch ncomp cmax : Nat) : State :=
  setColl s ch fun k => { k with ncomp := max k.ncomp ncomp, ebmax := max k.ebmax cmax }

/-- Sums finalised (R439, R303): rounded, clipped, written, and sent where the chunk goes on. -/
def finalise (s : State) (ch : Nat) (k : Coll) (lo : Nat) (els : List Nat) (psn : Bool) (ncomp cmax : Nat) (sends : Bool) :
    State :=
  let cl := els.map fun x => if k.w 4 = 0 then (ofEngine k.fmt x, false, false) else clipElem k (ofEngine k.fmt x)
  let ys := cl.map fun c => c.1
  let (segs, dec, nc, cm) := if sends then makeSegs s ch k (ys.map (toEngine k.fmt)) psn ncomp cmax else ([], ys, ncomp, cmax)
  let s := collSeen (collWrite s ch k lo dec psn) ch nc cm
  let s := setColl s ch fun k =>
    { k with sumsq := if k.w 4 = 0 then 0 else dec.foldl (sumsqAdd k) k.sumsq,
             clamped := k.clamped + cl.countP (fun c => c.2.1), nonfin := k.nonfin + cl.countP (fun c => c.2.2) }
  if sends then sendSegs s ch segs else s

/-! ### Completion -/

/-- The collective ends for this member (R440, R303): its result record is written; its status follows once everything is performed. -/
def collDone (s : State) (ch : Nat) : State :=
  match (s.ct ch).coll with
  | none => s
  | some k =>
    let s := if k.w 4 ≠ 0 ∧ bit k.clip 36 then
        unitPut s ch 2 96 (some k.req.func) k.result
          (dBytes 8 (k.sumsq % 2 ^ 32 + k.clamped % 2 ^ 32 * 2 ^ 32) ++ dBytes 8 (k.nonfin % 2 ^ 32))
      else s
    collEnd s ch 0

/-- Receptions of empty chunks are passed over; the collective ends after the last. -/
def collAdvance : Nat → State → Nat → State
  | 0, s, _ => s
  | n + 1, s, ch =>
    match (s.ct ch).coll with
    | none => s
    | some k =>
      let g := s.group ch k.group
      if k.ended.isSome then s
      else if collRecvs k g ≤ k.step then collDone s ch
      else if (collChunk k g.size (collRecv k g k.step).chunk).2 ≤ k.pos then
        collAdvance n (setColl s ch fun k => { k with step := k.step + 1, pos := 0 }) ch
      else s

/-- Enough rounds for every reception of the running collective. -/
def collGo (s : State) (ch : Nat) : State :=
  match (s.ct ch).coll with
  | none => s
  | some k => collAdvance (2 * (s.group ch k.group).size + 2) s ch

/-! ### Beginning (R437) -/

/-- The access checks of R437 check 3 for one range, and a path to it (R15, R22 to R25). -/
def collRange (s : State) (ch f : Nat) (write : Bool) (a len : Nat) : Nat :=
  firstCode (memoryCode s ch (some f) write a len) (if isOwn s ch a then 0 else (routeOf s ch (some f) a).2)

/-- The first failing code of a list. -/
def firstFail (l : List Nat) : Nat := (l.find? fun c => decide (c ≠ 0)).getD 0

/-- What this member reads and writes: the codes of its ranges in order. -/
def collRanges (s : State) (ch f : Nat) (k : Coll) (g : Group) : List Nat :=
  let z := k.size
  let n := k.count * z
  let src := if k.cop = cBroadcast ∧ g.rank ≠ k.root then [] else [collRange s ch f false k.src n]
  let dst := if k.cop = cReduce ∧ g.rank ≠ k.root then []
    else [collRange s ch f true k.dst (if k.cop = cAllgather then n * g.size else n)]
  let clip := if k.w 4 = 0 then [] else [collRange s ch f false (k.w 4) 32]
  src ++ dst ++ clip

/-- The elements of its input that a member uses before its first reception: first and number. -/
def firstInput (k : Coll) (g : Group) : Nat × Nat :=
  if k.cop = cAllreduce then (if g.size = 1 then (0, k.count) else collChunk k g.size g.rank)
  else if k.cop = cReduce then (if g.size = 1 ∨ g.rank = (k.root + 1) % g.size then (0, k.count) else (0, 0))
  else if k.cop = cBroadcast ∧ g.rank ≠ k.root then (0, 0)
  else (0, k.count)

/-- What a member does at once: its first sends and what is complete without a reception. -/
def collStart (s : State) (ch : Nat) (k : Coll) (g : Group) : State :=
  let p := g.size
  let t := firstInput k g
  let (xs, q) := collInput s ch k t.1 t.2
  if k.cop = cAllreduce ∨ k.cop = cReduce then
    if p = 1 then finalise s ch k 0 xs q 0 0 false
    else if k.cop = cAllreduce ∨ g.rank = (k.root + 1) % p then sendSegs s ch (makeSegs s ch k xs q 0 0).1
    else s
  else if k.cop = cBroadcast ∧ g.rank ≠ k.root then s
  else
    let lo := if k.cop = cAllgather then (collChunk k p g.rank).1 else 0
    let (segs, dec, nc, cm) := if p = 1 then ([], xs.map (ofEngine k.fmt), 0, 0) else makeSegs s ch k xs q 0 0
    let s := collSeen (collWrite s ch k lo dec q) ch nc cm
    if p = 1 then s else sendSegs s ch segs

/-- The collective's first input is there: it goes. -/
def collGoes (s : State) (ch : Nat) (k : Coll) (g : Group) : State :=
  let s := collStart s ch k g
  collGo (setColl (unitForget s ch 2) ch fun k => { k with going := true }) ch

/-- The checks are passed but for the flows (R439): the first input is asked for. -/
def collFeed (s : State) (ch : Nat) (k : Coll) (g : Group) : State :=
  if 1 < g.size ∧ ((flowTo s ch g (ringNext g)).2 ≠ 0 ∨ (flowTo s ch g (ringPrev g)).2 ≠ 0) then collEnd s ch cLinkDown
  else
    let t := firstInput k g
    collNeed s ch k.req.func (if t.2 = 0 then [] else [inputRange k t.1 t.2]) fun s => collGoes s ch k g

/-- Check 4 of R437: the clip record, read and judged (R302), and its result record. -/
def collClip (s : State) (ch : Nat) (k : Coll) (g : Group) : State :=
  if k.w 4 = 0 then collFeed s ch k g
  else collNeed s ch k.req.func [(k.w 4, 32)] fun s =>
    let b := unitGot s ch 2 (k.w 4) 32
    let r := byteWords b
    let k := { k with clip := r.getD 0 0, result := r.getD 1 0 }
    let res := if bit k.clip 36 then collRange s ch k.req.func true k.result 16 else 0
    let s := setColl s ch fun x => { x with clip := k.clip, result := k.result }
    if anyPsn b then collEnd s ch cEccUncorrected
    else if !clipOk k r then collEnd s ch cCfgIgnored
    else if res ≠ 0 then collEnd s ch res
    else collFeed s ch k g

/-- A descriptor that has been read, checked up to its clip record (R437): a collective of a valid group takes its number there. -/
def collRead (s : State) (ch : Nat) (c : CollReq) : State :=
  let b := unitGot s ch 2 c.desc 64
  let d := byteWords b
  let n := bits (d.getD 0 0) 16 16 % 1024
  let g := s.group ch n
  let k : Coll := { req := c, d := d, group := n, number := g.number }
  let k := { k with lcused := if s.fbit Fld.CH_CAPS_LC_LIVE ch ∧ k.fmt ≠ 11 then
                      min (bits (k.w 0) 10 2) (s.fget Fld.CT_LCLIVE_MODE ch) else 0 }
  if anyPsn b then collEnd s ch cEccUncorrected
  else if !collFieldsOk k (if g.valid then g.size else 0) then
    collEnd (s.setCt ch fun t => { t with coll := some { k with lcused := 0 } }) ch cCfgIgnored
  else if !g.valid || decide (g.func ≠ c.func) then
    collEnd (s.setCt ch fun t => { t with coll := some { k with lcused := 0 } }) ch cRptViolation
  else
    let s := (setGroup s ch n fun g => { g with number := (g.number + 1) % 65536 }).setCt ch fun t => { t with coll := some k }
    let bad := firstFail (collRanges s ch c.func k g)
    if bad ≠ 0 then collEnd s ch bad else collClip s ch k g

/-- `COLLECTIVE_BEGIN` (R437, R442): the collective at the head of the port becomes the running one; repeated while what it has to read
is on the way, it goes on as far as it can (log entry 73). -/
def execCollectiveBegin (ch : Ch) (s : State) : Host.Outcome State Fault Refusal := .next <|
  let t := s.ct ch
  match t.coll, t.collq with
  | some k, _ =>
    if k.going || k.ended.isSome then s
    else if k.d.isEmpty then collNeed s ch k.req.func [(k.req.desc, 64)] fun s => collRead s ch k.req
    else collClip s ch k (s.group ch k.group)
  | none, c :: rest =>
    let s := s.setCt ch fun t => { t with collq := rest, coll := some { req := c, d := [], group := 0, number := 0 } }
    let code := collRange s ch c.func false c.desc 64
    if code ≠ 0 then collEnd s ch code else unitAsk s ch 2 96 (some c.func) [(c.desc, 64)]
  | none, [] => s

/-! ### Receptions -/

/-- Elements of a COLL packet. -/
def segElems (k : Coll) (p : CPkt) : List Nat :=
  let m := bits p.aux 0 2
  if bit p.flags 2 then
    ((lcDecode m k.fmt p.payload.length (p.payload.take (p.payload.length - 12))).getD [])
  else (bytesElems k.size (p.payload.length / k.size) p.payload).map (toEngine k.fmt)

/-- The elements a segment carries for the reception in progress: first element, elements. -/
def segPart (k : Coll) (g : Group) (p : CPkt) : Nat × List Nat :=
  let (lo, n) := collChunk k g.size (collRecv k g k.step).chunk
  (lo + k.pos, (segElems k p).take (n - k.pos))

/-- A segment of the reception in progress. -/
def collSegment (s : State) (ch : Nat) (k : Coll) (g : Group) (p : CPkt) : State :=
  let r := collRecv k g k.step
  let (at_, xs) := segPart k g p
  let q := bit p.flags 3
  let cmax := if bit p.flags 2 then (lcCert p.payload).2.2 else 0
  let s := setColl s ch fun k => { k with pos := k.pos + xs.length }
  if r.adds then
    let (ys, q2) := collInput s ch k at_ xs.length
    let zs := (xs.zip ys).map fun z => reduceOp k z.1 z.2
    if r.final then finalise s ch k at_ zs (q || q2) p.dlv cmax (decide (k.cop = cAllreduce))
    else sendSegs s ch (makeSegs s ch k zs (q || q2) p.dlv cmax).1
  else
    let s := collSeen (collWrite s ch k at_ (xs.map (ofEngine k.fmt)) q) ch p.dlv cmax
    if r.sends then
      sendSegs s ch [⟨p.payload, if bit p.flags 2 then bits p.aux 0 2 else 0, q, p.dlv⟩]
    else s

/-- `CT_COLL` (R438, R439): the next segment of the running collective, taken once the input it is combined with is there; one of a
collective not yet submitted waits. -/
def execCtColl (ch : Ch) (flow : Fin 4096) (s : State) : Host.Outcome State Fault Refusal := .next <|
  match arriving s ch flow tColl, (s.ct ch).coll with
  | some p, some k =>
    let g := s.group ch k.group
    let f := s.flow ch flow
    if k.going ∧ k.ended.isNone ∧ bits p.addr 0 32 = g.gid ∧ bits p.addr 32 16 = k.number ∧ f.func = g.func ∧
        member s g (ringPrev g) = (f.pkg, f.pch) then
      let t := segPart k g p
      let need := if (collRecv k g k.step).adds && !t.2.isEmpty then [inputRange k t.1 t.2.length] else []
      collNeed s ch k.req.func need fun s => collGo (unitForget (collSegment (deliverPkt s ch flow p) ch k g p) ch 2) ch
    else s
  | _, _ => s

/-- `COLLECTIVE_TIMEOUT` (R440). -/
def execCollectiveTimeout (ch : Ch) (s : State) : Host.Outcome State Fault Refusal := .next <| collEnd s ch cLinkDown

end Sys2Proof.Machine
end

