-- ==== Sys2Proof/Machine/Hub.lean ====
section
/-! DEFINITION. The hub's mirror of capabilities (R32), the notice of a retirement (R26, R485), loss of the PCIe reference clock
(R556), and control of stewards (R142). -/

namespace Sys2Proof.Machine

/-- `HUB_CAPS_MIRROR_UPDATE` (R32): the oldest change that waits is mirrored, and then reported. -/
def execHubCapsMirrorUpdate (ch : Ch) (s : State) : Host.Outcome State Fault Refusal := .next <|
  if s.hub.capsWait.any fun p => decide (p.1 = ch.val) then
    reportCap (s.setReg .HUB_CHCAPSn 0 ch (s.regN .CH_CAPS ch)) ch
  else s

/-- Everything a surviving channel has aimed at the retired one ends (R26, R484 item 3, R485). -/
def noticeTaken (s : State) (ch gone : Nat) : State :=
  let s := (s.ct ch).flows.foldl (fun s p =>
    if p.2.valid ∧ p.2.pkg = ownPkg s ∧ p.2.pch = gone ∧ p.2.st ≠ fRetired then flowLost s ch p.1 cChannelRetired fRetired else s) s
  let s := (s.chan ch).objs.foldl (fun s p => if p.2.pch.testBit gone then poisonObj s ch p.1 else s) s
  let aimed := (s.chan ch).reqs.filter fun r =>
    decide (r.place ≠ .done ∧ r.place ≠ .remote) && isOwnPkg s r.tga && decide (tgaCh r.tga = gone)
  aimed.foldl (fun s r => finish (quitMesh s ch r) ch r cChannelRetired []) s

/-- `RETIREMENT_NOTICE` (R26, R484, R485). -/
def execRetirementNotice (ch gone : Ch) (s : State) : Host.Outcome State Fault Refusal := .next <|
  if s.hub.notices.contains (ch.val, gone.val) then
    noticeTaken { s with hub := { s.hub with notices := s.hub.notices.erase (ch.val, gone.val) } } ch gone
  else s

/-- `PCIE_REFCLK_LOSS` (R366, R556): the link goes down. -/
def execPcieRefclkLoss (s : State) : Host.Outcome State Fault Refusal := .next <| if s.port.ready then portReset s else s

/-! ### Control of stewards (R142) -/

/-- Guards a write to a steward's control register. -/
def stwWrite (s : State) (r : Requester) (w : StwId) (f : State → State) : State :=
  if mayCl s r w.c.ch w.c.cl then f s else s

/-- `CL_STW_CTRL_HALT` (R142): the request is pending until the steward halts. -/
def execClStwCtrlHalt (r : Requester) (w : StwId) (s : State) : Host.Outcome State Fault Refusal := .next <|
  rowGate s r (.cl w.c) fun s =>
  stwWrite s r w fun s => s.fset Fld.CL_STWn_CTRL_HALT (clLoc w.c.ch w.c.cl) w.w 1

/-- Stalls that a halt abandons (R142); the others complete first. -/
def Wait.haltable : Wait → Bool
  | .qrcv _ | .qsnd | .syncWge | .barrier | .dolly | .seal => true
  | .none | .reply | .load | .take => false

/-- `STEWARD_HALT_EFFECT` (R142). -/
def execStewardHaltEffect (w : StwId) (s : State) : Host.Outcome State Fault Refusal := .next <|
  let ch := w.c.ch.val
  let c := w.c.cl.val
  let x := s.stw ch c w.w
  if s.fbit Fld.CL_STWn_CTRL_HALT (clLoc ch c) w.w && clocked s ch c &&
      (decide (x.st = wRun) || (decide (x.st = wStalled) && x.wait.haltable)) then
    let s := if x.st = wStalled then stwAbandon s ch c w.w else s
    setStw (s.fset Fld.CL_STWn_CTRL_HALT (clLoc ch c) w.w 0) ch c w.w fun x => { x with st := wHalted, stepping := false }
  else s

/-- `CL_STW_CTRL_RESUME` (R142). -/
def execClStwCtrlResume (r : Requester) (w : StwId) (s : State) : Host.Outcome State Fault Refusal := .next <|
  rowGate s r (.cl w.c) fun s =>
  stwWrite s r w fun s =>
    setStw s w.c.ch w.c.cl w.w fun x => if x.st = wHalted then { x with st := wRun } else x

/-- `CL_STW_CTRL_STEP` (R142): one instruction, then halted again. -/
def execClStwCtrlStep (r : Requester) (w : StwId) (s : State) : Host.Outcome State Fault Refusal := .next <|
  rowGate s r (.cl w.c) fun s =>
  stwWrite s r w fun s =>
    setStw s w.c.ch w.c.cl w.w fun x => if x.st = wHalted then { x with st := wRun, stepping := true } else x

end Sys2Proof.Machine
end

