-- ==== Sys2Proof/Machine/Boot.lean ====
section
/-! DEFINITION. Resets, boot, the nonvolatile store and the life cycle (chapter 23). -/

namespace Sys2Proof.Machine

/-! ### The flash -/

def fByte (s : State) (a : Nat) : Byte := SMap.get 0xFF#8 s.nv.flash a
def fRead (s : State) (a n : Nat) : List Byte := (List.range n).map fun i => fByte s (a + i)
def fNat (s : State) (a n : Nat) : Nat := leNat (fRead s a n)

def setFlash (s : State) (m : SMap Byte) : State := { s with nv := { s.nv with flash := m } }

/-- Bytes programmed: a program clears bits and sets none (NOR flash, R501). -/
def fProg (s : State) (a : Nat) : List Byte → State
  | [] => s
  | b :: bs => fProg (setFlash s (SMap.set 0xFF#8 s.nv.flash a (fByte s a &&& b))) (a + 1) bs

/-- A range erased to 0xFF. -/
def fErase (s : State) (a n : Nat) : State :=
  setFlash s (SMap.keep (fun k => !decide (a ≤ k ∧ k < a + n)) s.nv.flash)

/-- A range reads entirely 0xFF. -/
def fBlank (s : State) (a n : Nat) : Bool :=
  s.nv.flash.all fun c => !decide (a ≤ c.1 ∧ c.1 < a + n) || decide (c.2 = 0xFF#8)

/-- Table 23-1. -/
def bankAt (b : Nat) : Nat := b * 0x10000
def halfAt (h : Nat) : Nat := 0x20000 + h * 0x10000
def slotAt (n : Nat) : Nat := if n = 0 then 0x100000 else 0x2000000
def slotSize : Nat := 31 * 2 ^ 20
def dumpAt : Nat := 0x3F00000
def dumpSize : Nat := 0x100000

/-! ### Generations -/

/-- Fields of a body (Table 23-5). -/
structure GenBody where
  lc : Nat
  penddec : Nat
  mode : Nat
  slot : Nat
  pkg : Nat
  minsvn : Nat
  epoch : Nat
  dieid : Nat
  recs : List (List Byte)
  deriving DecidableEq, Repr

/-- The BLANK configuration of Table 23-7. -/
def blankBody : GenBody := ⟨0, 0, 1, 0, 0, 0, 0, 0, []⟩

def bodyBytes (g : GenBody) : List Byte :=
  leBytes 1 g.lc ++ leBytes 1 g.penddec ++ leBytes 1 g.mode ++ leBytes 1 g.slot ++ leBytes 2 g.pkg ++ leBytes 2 0 ++
    leBytes 4 g.minsvn ++ leBytes 4 g.epoch ++ leBytes 8 g.dieid ++ leBytes 4 g.recs.length ++
    List.replicate 100 0#8 ++ g.recs.flatten

def readBody (s : State) (b : Nat) : GenBody :=
  let a := bankAt b + 0x100
  let n := fNat s (a + 0x18) 4
  ⟨fNat s a 1, fNat s (a + 1) 1, fNat s (a + 2) 1, fNat s (a + 3) 1, fNat s (a + 4) 2, fNat s (a + 8) 4,
    fNat s (a + 12) 4, fNat s (a + 16) 8, (List.range (min n 1020)).map fun i => fRead s (a + 0x80 + 32 * i) 32⟩

/-- A 64-byte record whose CRC passes (Table 23-4). -/
def recOk (s : State) (a : Nat) : Bool := decide (crc32c (fRead s a 60) = fNat s (a + 60) 4)

def intentOk (s : State) (b : Nat) : Bool := recOk s (bankAt b)
def intentSeq (s : State) (b : Nat) : Nat := fNat s (bankAt b + 8) 8

/-- A valid bank (R509). -/
def bankValid (s : State) (b : Nat) : Bool :=
  let a := bankAt b
  let len := fNat s (a + 0xFF04) 4
  intentOk s b && recOk s (a + 0xFF00) && decide (intentSeq s b = fNat s (a + 0xFF08) 8) &&
    decide (len ≤ 0x8000) && decide (crc32c (fRead s (a + 0x100) len) = fNat s (a + 0xFF10) 4) &&
    decide (fNat s (a + 0xFFF8) 8 = 0) && decide (fNat s (a + 0x110) 8 = s.regN .NV_DIEID)

/-- Intent-only (R509). -/
def bankIntentOnly (s : State) (b : Nat) : Bool := intentOk s b && !bankValid s b

/-- The generation in force: the current bank's body, or the BLANK configuration. -/
def curBody (s : State) : GenBody :=
  match s.nv.cur with
  | some b => readBody s b
  | none => { blankBody with dieid := s.regN .NV_DIEID }

/-- 64 bytes with their CRC. -/
def withCrc (l : List Byte) : List Byte :=
  let l := (l ++ List.replicate 60 0#8).take 60
  l ++ leBytes 4 (crc32c l)

def intentBytes (j : NvJob) : List Byte :=
  withCrc (leBytes 4 0x564E5449 ++ leBytes 1 j.kind ++ leBytes 1 j.fromLc ++ leBytes 1 j.toLc ++ leBytes 1 0 ++
    leBytes 8 j.seq)

def sealBytes (j : NvJob) : List Byte :=
  withCrc (leBytes 4 0x4C414553 ++ leBytes 4 j.body.length ++ leBytes 8 j.seq ++ leBytes 4 (crc32c j.body))

def setBusy (s : State) (b : Nat) : State := s.fset Fld.NV_STAT_BUSY 0 0 b
def nvCode (s : State) (c : Nat) : State := s.fset Fld.NV_STAT_CODE 0 0 c

/-- What `BUSY` reads when no generation is being written. -/
def idleBusy (s : State) : State :=
  setBusy s (if !s.nv.erases.isEmpty then 1 else if !s.nv.appends.isEmpty ∧ s.nv.cur.isSome then 3 else 0)

/-- A generation write begun (R511): target bank, sequence number, intent, body. -/
def nvStart (s : State) (kind toLc : Nat) (g : GenBody) : State :=
  let t := match s.nv.cur with
    | some b => 1 - b
    | none => 0
  let seqs := [0, 1].map fun b => if intentOk s b then intentSeq s b else 0
  let j : NvJob := ⟨t, kind, (curBody s).lc, toLc, 1 + seqs.foldl max 0, bodyBytes g⟩
  setBusy { s with nv := { s.nv with job := some j } } 2

/-- The bytes of a generation programmed, up to a point: 1 the intent, 2 body and seal, 3 the commit word. -/
def nvProgram (s : State) (j : NvJob) (upto : Nat) : State :=
  let a := bankAt j.bank
  let s := if fBlank s a 0x10000 then s else fErase s a 0x10000
  let s := if 1 ≤ upto then fProg s a (intentBytes j) else s
  let s := if 2 ≤ upto then fProg (fProg s (a + 0x100) j.body) (a + 0xFF00) (sealBytes j) else s
  if 3 ≤ upto then fProg s (a + 0xFFF8) (leBytes 8 0) else s

/-- The store registers show the current generation (Table 23-11). -/
def showStore (s : State) : State :=
  let g := curBody s
  let s := s.setReg .NV_CFGLIVE 0 0 (g.mode + g.slot * 2 ^ 2 + g.pkg * 2 ^ 16 + g.minsvn * 2 ^ 32)
  let s := (s.fset Fld.NV_LC_STORED 0 0 g.lc).fset Fld.NV_LC_PENDDEC 0 0 g.penddec
  let s := match s.nv.cur with
    | some b => (s.fset Fld.NV_STAT_BANK 0 0 b).fset Fld.NV_STAT_SEQ 0 0 (intentSeq s b)
    | none => s
  (s.fset Fld.NV_FLOGSTAT_HALF 0 0 (g.epoch % 2)).fset Fld.NV_FLOGSTAT_FLOG_EPOCH 0 0 g.epoch

/-! ### The fault log -/

/-- Slots of a half before the first that reads entirely 0xFF (R514). -/
def logSlots (s : State) (h : Nat) : Nat :=
  (findIdx? (fun i => fBlank s (halfAt h + 32 * i) 32) (List.range 2048)).getD 2048

/-- A log slot counts: its CRC passes and its epoch is the current one (R514). -/
def slotCounts (s : State) (epoch a : Nat) : Bool :=
  decide (crc32c (fRead s a 28) = fNat s (a + 28) 4) && decide (fNat s a 4 = epoch)

/-- Addresses of the slots of the active half that count. -/
def logCounted (s : State) : List Nat :=
  let g := curBody s
  let h := g.epoch % 2
  ((List.range (logSlots s h)).map fun i => halfAt h + 32 * i).filter (slotCounts s g.epoch)

/-- The records that count: those of the body, then those of the active half. -/
def countedRecs (s : State) : List (List Byte) := (curBody s).recs ++ (logCounted s).map fun a => fRead s a 32

/-- `NV_FLOGSTAT` shows how many records of the active half count; an empty store has none. -/
def showRecords (s : State) : State := s.fset Fld.NV_FLOGSTAT_RECORDS 0 0 (if s.nv.cur.isSome then (logCounted s).length else 0)

/-- Fields of a stored record (Table 23-6). -/
def recField (r : List Byte) (i n : Nat) : Nat := leNat ((r.drop i).take n)
def recAct (r : List Byte) : Nat := recField r 4 1
def recCh (r : List Byte) : Nat := recField r 6 1
def recCl (r : List Byte) : Nat := recField r 7 1
def recUnit (r : List Byte) : Nat := recField r 8 4

/-- The unit a record names, for finding duplicates: action, channel, cluster, unit. -/
def recKey (r : List Byte) : List Nat := [recAct r, recCh r, recCl r, recUnit r]

/-- Records kept by a compaction (R514): neither subsumed nor a duplicate of an earlier one. -/
def compactRecs (rs : List (List Byte)) : List (List Byte) :=
  let subsumed := fun r => rs.any fun q =>
    (decide (recAct q = 11 ∧ recCh q = recCh r ∧ recAct r ≠ 11)) ||
      decide (recAct q = 6 ∧ recAct r = 5 ∧ recCh q = recCh r ∧ recCl q = recCl r)
  (rs.filter fun r => !subsumed r).foldl
    (fun acc r => if acc.any fun q => decide (recKey q = recKey r) then acc else acc ++ [r]) []

/-- `NV_FAULT_APPEND` (R514, R516): the oldest waiting record is appended, or a full half is compacted first. A blank store
has no generation and so no epoch: its records wait. -/
def execNvFaultAppend (s : State) : Host.Outcome State Fault Refusal := .next <|
  match s.nv.appends, s.nv.cur with
  | r :: rest, some b =>
    if s.nv.job.isSome || !s.nv.erases.isEmpty then s
    else
      let g := curBody s
      let h := g.epoch % 2
      let n := logSlots s h
      if 1536 ≤ n then
        nvStart s 3 g.lc { g with epoch := g.epoch + 1, recs := compactRecs (countedRecs s) }
      else
        let r := leBytes 4 g.epoch ++ (r.drop 4).take 20 ++ leBytes 4 (intentSeq s b)
        let s := fProg s (halfAt h + 32 * n) (r ++ leBytes 4 (crc32c r))
        idleBusy (showRecords { s with nv := { s.nv with appends := rest } })
  | _, _ => s

/-! ### Store commands -/

/-- Keeper mode at boot for a decommissioned package (R520, Table 23-7). -/
def decommission (s : State) : State := keeperEnter s 3 cKeeperEntered 13 false

/-- `NV_GENERATION_DONE` (R511): the commit word reads 0 and the target becomes current, or the write ends. -/
def execNvGenerationDone (ok : Bool) (s : State) : Host.Outcome State Fault Refusal := .next <|
  match s.nv.job with
  | none => s
  | some j =>
    let s := { s with nv := { s.nv with job := none } }
    if ok then
      let old := s.nv.cur
      let oldHalf := (curBody s).epoch % 2
      let s := nvProgram s j 3
      let er := (old.toList.map NvErase.bank) ++ (if j.kind = 3 then [NvErase.half oldHalf] else [])
      let s := { s with nv := { s.nv with cur := some j.bank, erases := s.nv.erases ++ er } }
      let s := nvCode (showStore s) cNone
      let s := showRecords s
      let s := if j.kind = 1 then mgmtEvent (s.fset Fld.NV_LC_DBGLEVEL 0 0 0) evLife j.toLc else s
      let s := idleBusy s
      if s.hub.phase = .fw ∧ j.kind = 1 ∧ j.toLc = 4 ∧ (curBody s).lc = 4 then decommission s else s
    else
      idleBusy (nvCode (fErase s (bankAt j.bank) 0x10000) cNvStore)

/-- `NV_ERASE_DONE` (R511, R514): the oldest background erase completes. -/
def execNvEraseDone (s : State) : Host.Outcome State Fault Refusal := .next <|
  match s.nv.erases with
  | [] => s
  | e :: rest =>
    let s := { s with nv := { s.nv with erases := rest } }
    idleBusy (match e with
      | .bank b => fErase s (bankAt b) 0x10000
      | .half h => fErase s (halfAt h) 0x10000
      | .dump => fErase s dumpAt dumpSize)

/-- A store request written while the store is busy is discarded (R516). -/
def nvGuard (r : Requester) (s : State) (f : State → State) : State :=
  if !mayHub r then s
  else if s.fget Fld.NV_STAT_BUSY ≠ 0 then nvCode s cCfgIgnored
  else f s

/-- The `NV_CFG` shadow may be committed (R517). -/
def cfgOk (s : State) : Bool :=
  let m := s.fget Fld.NV_CFG_MODE
  let p := s.fget Fld.NV_CFG_PKG_NUM
  let v := s.fget Fld.NV_CFG_MINSVN
  decide (m = 1 ∨ m = 2) && decide ((m = 1 ∧ p = 0) ∨ (m = 2 ∧ p ≤ 32767)) &&
    decide (s.fget Fld.NV_CFGLIVE_MINSVN ≤ v ∧ v ≤ s.fget Fld.NV_BOOTSTAT_SVN)

/-- A body with the shadow's fields. -/
def withCfg (s : State) (g : GenBody) : GenBody :=
  { g with mode := s.fget Fld.NV_CFG_MODE, slot := s.fget Fld.NV_CFG_SLOT, pkg := s.fget Fld.NV_CFG_PKG_NUM,
           minsvn := s.fget Fld.NV_CFG_MINSVN }

/-- A generation that keeps the life-cycle state. In BLANK the rules give it none: that byte is free (log entry 14). -/
def nvKeep (s : State) (kind : Nat) (g : GenBody) : State :=
  if s.nv.cur.isSome then nvStart s kind g.lc g
  else
    let lc := (Config.blankLc s.free).toNat
    nvStart s.took kind lc { g with lc := lc }

/-- `NV_CTRL_COMMIT` (R517). -/
def execNvCtrlCommit (r : Requester) (s : State) : Host.Outcome State Fault Refusal := .next <|
  hostGate s r fun s =>
  nvGuard r s fun s =>
    if cfgOk s then nvKeep s 2 (withCfg s (curBody s)) else nvCode s cCfgIgnored

/-- The transitions of Table 23-9: whether one needs a signed record. -/
def lcAllowed (a b : Nat) : Option Bool :=
  if b = 4 ∧ a ≤ 3 then some false
  else if (a = 0 ∧ b = 1) ∨ (a = 1 ∧ b = 2) ∨ ((a = 1 ∨ a = 2) ∧ b = 3) then some false
  else if (a = 2 ∧ b = 1) ∨ (a = 3 ∧ b = 1) then some true
  else none

/-- `NV_CTRL_LCREQ` (R519, R520). -/
def execNvCtrlLcreq (r : Requester) (s : State) : Host.Outcome State Fault Refusal := .next <|
  hostGate s r fun s =>
  nvGuard r s fun s =>
    let g := curBody s
    let tgt := s.fget Fld.NV_CTRL_LCTGT
    match lcAllowed g.lc tgt with
    | none => nvCode s cCfgIgnored
    | some signed =>
      if signed ∧ s.nv.permit ≠ some tgt then nvCode s cRptViolation
      else
        let s := if signed then { s with nv := { s.nv with permit := none } } else s
        if tgt = 4 then nvStart s 1 4 { g with penddec := 1 }
        else if g.lc = 0 then
          if cfgOk s then nvStart s 1 1 (withCfg s { g with lc := 1, dieid := s.regN .NV_DIEID })
          else nvCode s cCfgIgnored
        else nvStart s 1 tgt { g with lc := tgt }

/-- `NV_CTRL_LCCANCEL` (R520): a pending decommission is withdrawn. -/
def execNvCtrlLccancel (r : Requester) (s : State) : Host.Outcome State Fault Refusal := .next <|
  hostGate s r fun s =>
  nvGuard r s fun s =>
    let g := curBody s
    if g.penddec = 1 then nvStart s 1 g.lc { g with penddec := 0 } else nvCode s cCfgIgnored

/-- `NV_CTRL_FCLEAR` (R515). -/
def execNvCtrlFclear (r : Requester) (s : State) : Host.Outcome State Fault Refusal := .next <|
  hostGate s r fun s =>
  nvGuard r s fun s =>
    let g := curBody s
    nvKeep s 4 { g with recs := [], epoch := g.epoch + 1 }

/-- The authorisation record as written (Table 23-10). -/
def authBytes (s : State) : List Byte := ((List.range 30).map fun i => leBytes 8 (s.regN .NV_AUTHn 0 i)).flatten

/-- A key index and public key pass check 3 of Table 23-3. -/
def keyOk (s : State) (idx : Nat) (pub : List Byte) : Bool :=
  decide (idx < 4) && !(s.regN .NV_KEYREV).testBit idx && decide (sha384 pub = s.nv.keyHash.getD idx 0)

/-- A new random challenge (R521): a free value. -/
def newChallenge (s : State) : State :=
  let c := (Config.challenge s.free).toNat
  (s.setWords .NV_CHALn 0 0 ((List.range 4).map fun i => bits c (64 * i) 64)).took

/-- Highest debug level of a life-cycle state (Table 23-7). -/
def dbgMax (lc : Nat) : Nat := if lc = 2 then 1 else if lc = 4 then 0 else 2

/-- `NV_CTRL_AUTHGO` (R521). -/
def execNvCtrlAuthgo (r : Requester) (s : State) : Host.Outcome State Fault Refusal := .next <|
  hostGate s r fun s =>
  nvGuard r s fun s =>
    let a := authBytes s
    let f := fun i n => (a.drop i).take n
    let chal := ((List.range 4).map fun i => leBytes 8 (s.regN .NV_CHALn 0 i)).flatten
    let purpose := leNat (f 0x28 1)
    let arg := leNat (f 0x29 1)
    let keeper2 := decide (s.hub.phase = .keeper ∧ s.fget Fld.NV_BOOTSTAT_KCAUSE = 2)
    let ok := decide (leNat (f 0 8) = s.regN .NV_DIEID) && decide (f 8 32 = chal) &&
      keyOk s (leNat (f 0x2A 1)) (f 0x30 96) && ecdsaVerify (f 0x30 96) (f 0x90 96) (sha384 (a.take 0x90)) &&
      (if purpose = 3 then keeper2 && decide (r = .mgmt) && decide (arg = 1 ∨ arg = 3)
       else decide (purpose = 1 ∨ purpose = 2))
    let s := newChallenge s
    if !ok then nvCode s cRptViolation
    else
      let s := nvCode s cNone
      if purpose = 1 then s.fset Fld.NV_LC_DBGLEVEL 0 0 (min arg (dbgMax (s.fget Fld.NV_LC_STATE)))
      else if purpose = 2 then { s with nv := { s.nv with permit := some arg } }
      else nvStart s 5 arg { blankBody with lc := arg, dieid := s.regN .NV_DIEID }

/-! ### Resets -/

/-- A TGA with `PKG` 0 lies in HBM (Table 8-1). -/
def isHbm (a : Nat) : Bool := decide (bits a 44 2 = 0)

/-- Registers that a hub reset does not touch: fuses, and what R505 and `HUB_THERMSTAT` say a warm reset keeps. -/
def keptRegs (s : State) (cold : Bool) : SMap Word :=
  let keep := [Reg.NV_KEYREV.place 0 0, Reg.NV_DIEID.place 0 0] ++
    (if cold then [] else [Reg.NV_BOOTSTAT.place 0 0, Reg.HUB_THERMSTAT.place 0 0])
  s.regs.filter fun c => keep.contains c.1

/-- A hub reset (R498 to R500, R568): every die and register at its reset value; flash and fuses stay; HBM contents survive
a warm one only. -/
def hubReset (s : State) (cold : Bool) : State :=
  { pending := s.pending, part := s.part, free := s.free, regs := keptRegs s cold,
    mem := if cold then [] else s.mem.filter fun c => isHbm c.1,
    psn := if cold then [] else s.psn.filter isHbm,
    laid := if cold then [] else s.laid,
    nv := { flash := s.nv.flash, keyHash := s.nv.keyHash } }

/-- `PWRGD_FALL` (R499). -/
def execPwrgdFall (s : State) : Host.Outcome State Fault Refusal := .next <| { s with hub := { s.hub with pwrgdLow := true } }

/-- What a power failure leaves of a generation being written (Table 23-8). -/
def cutStore (s : State) (cut : NvCut) : State :=
  match s.nv.job with
  | none =>
    match s.nv.erases with
    | .bank b :: _ => fErase s (bankAt b) 0x10000
    | .half h :: _ => fErase s (halfAt h) 0x10000
    | _ => s
  | some j =>
    match cut with
    | .erase | .intent => fErase s (bankAt j.bank) 0x10000
    | .body => nvProgram s j 1
    | .commit true => nvProgram s j 3
    | .commit false => fProg (nvProgram s j 2) (bankAt j.bank + 0xFFF8) [0#8]

/-- `PWRGD_LOW_ACCEPT` (R499, R512): a cold reset. -/
def execPwrgdLowAccept (cut : NvCut) (s : State) : Host.Outcome State Fault Refusal := .next <|
  let s := hubReset (cutStore s cut) true
  { s with hub := { s.hub with phase := .held, pwrgdLow := true } }

/-- `PWRGD_HIGH_STABLE` (R499): boot begins. -/
def execPwrgdHighStable (s : State) : Host.Outcome State Fault Refusal := .next <|
  if s.hub.phase = .held then { s with hub := { s.hub with phase := .rom, pwrgdLow := false } }
  else { s with hub := { s.hub with pwrgdLow := false } }

/-- `HUB_RSTCTRL_WRITE` (R498, R500). -/
def execHubRstctrlWrite (r : Requester) (v : Word) (s : State) : Host.Outcome State Fault Refusal := .next <|
  hostGate s r fun s =>
  if mayHub r ∧ v.toNat % 2 ^ 16 = 0xB007 then { s with hub := { s.hub with warmReq := true } }
  else hostErr s cCfgIgnored (reqFunc r) 0

/-- `WARM_RESET` (R500): a requested warm reset taken once the store is idle. -/
def execWarmReset (s : State) : Host.Outcome State Fault Refusal := .next <|
  if s.hub.warmReq ∧ s.fget Fld.NV_STAT_BUSY = 0 ∧ !s.hub.thermtripN then hubReset (portClear s) false else s

/-! ### Boot -/

/-- The ROM's selection (R510): the bank, whether both were equal; none when no bank is valid. -/
def selectBank (s : State) : Option Nat × Bool :=
  match bankValid s 0, bankValid s 1 with
  | true, true =>
    if intentSeq s 0 < intentSeq s 1 then (some 1, false)
    else (some 0, decide (intentSeq s 0 = intentSeq s 1))
  | true, false => (some 0, false)
  | false, true => (some 1, false)
  | false, false => (none, false)

/-- Fields of a slot's manifest (Table 23-2). -/
def manifest (s : State) (slot : Nat) : List Byte := fRead s (slotAt slot) 1024
def mf (m : List Byte) (i n : Nat) : Nat := leNat ((m.drop i).take n)

def allZero (m : List Byte) (i n : Nat) : Bool := ((m.drop i).take n).all fun b => decide (b = 0#8)

/-- Largest image of a type (R503). -/
def imageMax (ty : Nat) : Nat := if ty = 1 then 4 * 2 ^ 20 else if ty = 2 then 2 * 2 ^ 20 else 2 ^ 20

/-- An image entry as R503 asks: type, offset, length. -/
def entryOk (m : List Byte) (e : Nat) : Bool :=
  let a := 0x20 + 64 * e
  let ty := mf m a 1
  let off := mf m (a + 4) 4
  let len := mf m (a + 8) 4
  decide (1 ≤ ty ∧ ty ≤ 3) && allZero m (a + 1) 3 && allZero m (a + 12) 4 &&
    decide (off % 4096 = 0 ∧ 0x1000 ≤ off ∧ len ≤ imageMax ty ∧ off + len ≤ slotSize)

/-- Two image entries name different types and do not overlap. -/
def entriesApart (m : List Byte) (e f : Nat) : Bool :=
  let a := 0x20 + 64 * e
  let b := 0x20 + 64 * f
  let oa := mf m (a + 4) 4
  let ob := mf m (b + 4) 4
  decide (mf m a 1 ≠ mf m b 1) && decide (oa + mf m (a + 8) 4 ≤ ob ∨ ob + mf m (b + 8) 4 ≤ oa)

/-- The entry of an image type. -/
def imageOf (m : List Byte) (ty : Nat) : Option (Nat × Nat × Nat) :=
  ((List.range 3).find? fun e => decide (mf m (0x20 + 64 * e) 1 = ty)).map fun e =>
    (mf m (0x24 + 64 * e) 4, mf m (0x28 + 64 * e) 4, beNat ((m.drop (0x30 + 64 * e)).take 48))

/-- An image's digest matches its entry (check 6). -/
def imageOk (s : State) (slot : Nat) (m : List Byte) (ty : Nat) : Bool :=
  match imageOf m ty with
  | some (off, len, dig) => decide (sha384 (fRead s (slotAt slot + off) len) = dig)
  | none => false

/-- Checks 2 to 5 of Table 23-3 on a manifest: the first failing result, or 1. -/
def manifestCheck (s : State) (m : List Byte) (minsvn : Nat) : Nat :=
  let form := decide (mf m 0 4 = 0x4E414D47 ∧ mf m 4 2 = 1) && decide (mf m 6 1 ≤ 3) &&
    decide (mf m 7 1 < 2 ^ mf m 6 1) && allZero m 0x10 16 && allZero m 0xE0 0x140 && allZero m 0x280 0x120 &&
    (List.range 3).all (entryOk m) && entriesApart m 0 1 && entriesApart m 0 2 && entriesApart m 1 2
  let pub := (m.drop 0x220).take 96
  if !form then 2
  else if !keyOk s (mf m 6 1) pub then 3
  else if !ecdsaVerify pub ((m.drop 0x3A0).take 96) (sha384 (m.take 0x3A0)) then 4
  else if mf m 8 4 < minsvn then 5
  else 1

/-- One slot's attempt by the ROM (R504): its result. -/
def slotResult (s : State) (slot minsvn : Nat) (readFails : Bool) : Nat :=
  if readFails then 7
  else
    let m := manifest s slot
    let r := manifestCheck s m minsvn
    if r ≠ 1 then r else if imageOk s slot m 1 then 1 else 6

def setResult (s : State) (slot r : Nat) : State :=
  if slot = 0 then s.fset Fld.NV_BOOTSTAT_RESULTA 0 0 r else s.fset Fld.NV_BOOTSTAT_RESULTB 0 0 r

/-- The ROM tries slots in order (R504): the slot that boots. -/
def trySlots (minsvn : Nat) (failA failB : Bool) : List Nat → State → State × Option Nat
  | [], s => (s, none)
  | n :: rest, s =>
    if (s.fget Fld.NV_BOOTSTAT_SKIP).testBit n then trySlots minsvn failA failB rest s
    else
      let r := slotResult s n minsvn (if n = 0 then failA else failB)
      let s := setResult s n r
      if r = 1 then (s, some n) else trySlots minsvn failA failB rest s

/-- The ROM's first steps: a new challenge, and what stands in the dump area (R504, R539). -/
def romPrepare (s : State) : State :=
  let s := newChallenge s
  let dump := !fBlank s dumpAt dumpSize
  (s.fset Fld.HUB_DUMPSTAT_ERASED 0 0 (ofBit !dump)).fset Fld.HUB_DUMPSTAT_VALID 0 0
    (ofBit (decide (fNat s dumpAt 4 = 0x504D5544)))

/-- The selected store generation shown in its registers (R509, R512). -/
def romLatch (s : State) (sel : Option Nat) (tie : Bool) : State :=
  let s := { s with nv := { s.nv with cur := sel } }
  let other := match sel with
    | some b => 1 - b
    | none => 1
  let intr := match sel with
    | some b => bankIntentOnly s other && decide (intentSeq s b < intentSeq s other)
    | none => false
  let s := (s.fset Fld.NV_STAT_CONFLICT 0 0 (ofBit tie)).fset Fld.NV_STAT_INTERRUPTED 0 0 (ofBit intr)
  let s := showStore s
  let g := curBody s
  let s := s.setReg .NV_CFG 0 0 (s.regN .NV_CFGLIVE)
  let s := (s.fset Fld.NV_LC_STATE 0 0 g.lc).fset Fld.NV_LC_DBGMAX 0 0 (dbgMax g.lc)
  let s := s.fset Fld.NV_LC_DBGLEVEL 0 0 (if g.lc = 0 then 2 else 0)
  showRecords s

/-- The hub image of a slot starts (R504, R507). -/
def romStart (s : State) (slot n : Nat) : State :=
  let s := (s.fset Fld.NV_BOOTSTAT_SLOT 0 0 n).fset Fld.NV_BOOTSTAT_FALLBACK 0 0 (ofBit (decide (n ≠ slot)))
  let s := s.fset Fld.NV_BOOTSTAT_SVN 0 0 (mf (manifest s n) 8 4)
  { s with hub := { s.hub with phase := .fw } }

/-- `ROM_BOOT` (R504 to R506, R510, R518): `failA` and `failB` say whether a flash read of that slot fails. -/
def execRomBoot (failA failB : Bool) (s : State) : Host.Outcome State Fault Refusal := .next <|
  if s.hub.phase ≠ .rom then s
  else
    let s := romPrepare s
    let (sel, tie) := selectBank s
    if sel.isNone ∧ !(fBlank s 0 0x40000) then keeperEnter (nvCode s cNvStore) 2 cKeeperEntered 13 false
    else
      let s := romLatch s sel tie
      let g := curBody s
      let (s, booted) := trySlots g.minsvn failA failB [g.slot % 2, 1 - g.slot % 2] s
      match booted with
      | none => keeperEnter s 1 cKeeperEntered 13 false
      | some n => romStart s g.slot n

/-- A stored fault record applied at boot (R486). DESIGN CHOICE (log entry 67): what it changes in `CH_CAPS`, `CH_CLFENCE0`, `CH_CLFENCE1` and
`CL_CAPS` does not count in `CAPS_GEN`; R31 does not say. -/
def applyRec (s : State) (r : List Byte) : State :=
  let ch := recCh r
  let cl := recCl r
  let u := recUnit r
  let l := clLoc ch cl
  match recAct r with
  | 5 => (setRemap s ch cl u).fset Fld.CL_CAPS_REMAP_PENDING l 0 1
  | 6 =>
    let s := s.setReg .CL_CAPS l 0 1
    let s := if cl < 64 then s.setReg .CH_CLFENCE0 ch 0 (putBits (s.regN .CH_CLFENCE0 ch) cl 1 1)
      else s.setReg .CH_CLFENCE1 ch 0 (putBits (s.regN .CH_CLFENCE1 ch) (cl - 64) 1 1)
    s.fset Fld.CH_CAPS_CL_LIVE ch 0 (s.fget Fld.CH_CAPS_CL_LIVE ch - 1)
  | 7 =>
    let s := s.fadd Fld.CH_CAPS_PC_RETIRED ch 0 1
    let lanes := s.fget Fld.CH_HBMMAP_LANES ch - 1
    let s := { s with absentLanes := SMap.put s.absentLanes ch (SMap.get [] s.absentLanes ch ++ [u]) }
    let s := (s.fset Fld.CH_HBMMAP_LANES ch 0 lanes).setReg .CH_HBMSIZE ch 0 (lanes * 1125000000)
    if 32 ≤ ((SMap.get [] s.absentLanes ch).filter fun x => decide (x % 4 = u % 4)).length then
      s.fset Fld.CH_CAPS_SITE_LIVE ch 0 (putBits (s.fget Fld.CH_CAPS_SITE_LIVE ch) (u % 4) 1 0)
    else s
  | 8 =>
    let lanes := s.fget Fld.CH_CAPS_LANES_LIVE ch - portLanes s ch u
    ({ s with goneports := SMap.put s.goneports ch (SMap.get [] s.goneports ch ++ [u]) } : State).fset
      Fld.CH_CAPS_LANES_LIVE ch 0 lanes
  | 9 => s.fset (if u = 0 then Fld.CH_CAPS_SEAL_LIVE else if u = 1 then Fld.CH_CAPS_EGC_LIVE else Fld.CH_CAPS_LC_LIVE) ch 0 0
  | 10 =>
    if !(s.fget Fld.CH_CAPS_SITE_LIVE ch).testBit u then s
    else
      let s := s.fset Fld.CH_CAPS_SITE_LIVE ch 0 (putBits (s.fget Fld.CH_CAPS_SITE_LIVE ch) u 1 0)
      s.fset Fld.CH_CAPS_LANES_LIVE ch 0 (s.fget Fld.CH_CAPS_LANES_LIVE ch - siteLanes s ch u)
  | 11 =>
    let s := s.fset Fld.HUB_CAPS_CH_LIVE 0 0 (putBits (s.fget Fld.HUB_CAPS_CH_LIVE) ch 1 0)
    s.fset Fld.CH_CAPS_RETIRED ch 0 1
  | _ => s

/-- The hub's mirrors of the capability registers. -/
def showMirrors (s : State) : State :=
  (List.range (partChannels s.part)).foldl (fun s c => s.setReg .HUB_CHCAPSn 0 c (s.regN .CH_CAPS c)) s

/-- The mode latched for this boot (R507 item 1, Table 23-7). -/
def latchMode (s : State) : State :=
  let g := curBody s
  let own := decide (g.lc = 1 ∨ g.lc = 2)
  let m := if own then g.mode else 1
  let p := if own then g.pkg else 0
  let s := (s.fset Fld.HUB_OPMODE_MODE 0 0 m).fset Fld.HUB_OPMODE_PKG_NUM 0 0 p
  (List.range 4).foldl (fun s c => (s.fset Fld.CH_SELF_MODE c 0 m).fset Fld.CH_SELF_PKG_NUM c 0 p) s

/-- `FIRMWARE_BRINGUP` (R505, R507, R518, R520, R523). -/
def execFirmwareBringup (s : State) : Host.Outcome State Fault Refusal := .next <|
  if s.hub.phase ≠ .fw ∨ s.nv.job.isSome then s
  else
    let s := latchMode s
    let g := curBody s
    let n := s.fget Fld.NV_BOOTSTAT_SLOT
    let m := manifest s n
    if !(imageOk s n m 2 && imageOk s n m 3) then
      let s := setResult s n 6
      let s := s.fset Fld.NV_BOOTSTAT_SKIP 0 0 (s.fget Fld.NV_BOOTSTAT_SKIP ||| 2 ^ n)
      { s with hub := { s.hub with warmReq := true } }
    else
      let s := s.setReg .NV_KEYREV 0 0 ((s.regN .NV_KEYREV) ||| mf m 7 1)
      if g.lc = 4 then decommission s
      else if g.penddec = 1 then nvStart s 1 4 { g with lc := 4, penddec := 0 }
      else
        let s := if s.nv.cur.isSome then (countedRecs s).foldl applyRec s else s
        let s := showMirrors ((List.range 4).foldl relayout s)
        { s with hub := { s.hub with phase := .run }, nv := { s.nv with scrub := decide (g.lc = 3) } }

/-- `FIELD_READY_TIMEOUT` (R507, R415): a field die that does not report ready is held in reset and shown absent; not
stored. -/
def execFieldReadyTimeout (ch : Ch) (s : State) : Host.Outcome State Fault Refusal := .next <|
  if s.hub.phase = .run ∧ s.chLive ch.val ∧ ch.val ∉ s.hub.ready then
    let s := dropChannel s ch.val
    let s := s.fset Fld.HUB_CAPS_CH_LIVE 0 0 (putBits (s.fget Fld.HUB_CAPS_CH_LIVE) ch.val 1 0)
    let s := { s with hub := { s.hub with released := s.hub.released.filter fun x => !decide (x / 5 = ch.val) } }
    report3 s 4 cUnitAbsent 0 127 0 0 0
  else s

/-- `RETURNED_SCRUB_DONE` (R523): HBM, depots and poison marks are clear, and the debug level rises. -/
def execReturnedScrubDone (s : State) : Host.Outcome State Fault Refusal := .next <|
  if s.nv.scrub then
    let s := scrubMem s
    ({ s with nv := { s.nv with scrub := false } } : State).fset Fld.NV_LC_DBGLEVEL 0 0 2
  else s

end Sys2Proof.Machine
end

