-- ==== Sys2Proof/Machine/Mgmt.lean ====
section
/-! DEFINITION. Management, telemetry and the debug port (chapter 24), but for register access through them. -/

namespace Sys2Proof.Machine

/-- A response sent. -/
def respond (s : State) (code : Nat) (data : List Byte) : State :=
  { s with mgmt := { s.mgmt with resp := some ⟨code, data⟩ } }

/-- Completion code of a vendor request that is refused (R529). -/
def ccInvalid : Nat := 0x02

/-! ### MCTP control (R525); response layouts PRESUMED from DSP0236, log entry 16 -/

/-- `SET_ENDPOINT_ID`. -/
def execSetEndpointId (eid : Nat) (s : State) : Host.Outcome State Fault Refusal := .next <|
  if eid = 0 ∨ 0xFF ≤ eid then respond s ccInvalid []
  else respond (s.fset Fld.HUB_MGMTSTAT_EID 0 0 eid) 0 [0#8, BitVec.ofNat 8 eid, 0#8]

/-- `GET_ENDPOINT_ID`. -/
def execGetEndpointId (s : State) : Host.Outcome State Fault Refusal := .next <|
  respond s 0 [BitVec.ofNat 8 (s.fget Fld.HUB_MGMTSTAT_EID), 0#8, 0#8]

/-- `GET_ENDPOINT_UUID`. -/
def execGetEndpointUuid (s : State) : Host.Outcome State Fault Refusal := .next <| respond s 0 (leBytes 16 (Config.identity 0).toNat)

/-- `GET_MCTP_VERSION_SUPPORT`: version 1.3. -/
def execGetMctpVersionSupport (s : State) : Host.Outcome State Fault Refusal := .next <| respond s 0 [1#8, 0xF1#8, 0xF3#8, 0xFF#8, 0#8]

/-- `GET_MESSAGE_TYPE_SUPPORT`. -/
def execGetMessageTypeSupport (s : State) : Host.Outcome State Fault Refusal := .next <| respond s 0 [3#8, 0x00#8, 0x01#8, 0x7E#8]

/-- `GET_VENDOR_MESSAGE_SUPPORT`: the Vendor ID that PF0's configuration space reports. -/
def execGetVendorMessageSupport (s : State) : Host.Outcome State Fault Refusal := .next <|
  respond s 0 ([0xFF#8, 0#8] ++ beBytes 2 (bits (Config.identity 1).toNat 0 16) ++ [0#8, 0#8])

/-- `SMBUS_ARP` (R526). -/
def execSmbusArp (addr : Nat) (s : State) : Host.Outcome State Fault Refusal := .next <|
  if s.fbit Fld.HUB_MGMTCFG_ARP then { s with mgmt := { s.mgmt with addr := addr % 128 } } else s

/-- `SMBUS_LINE_TIMEOUT` (R527). -/
def execSmbusLineTimeout (s : State) : Host.Outcome State Fault Refusal := .next <|
  ({ s with mgmt := { s.mgmt with partialMsg := [] } } : State).fadd Fld.HUB_MGMTSTAT_TIMEOUTS 0 0 1

/-! ### Vendor commands (R529) -/

/-- `DUMP_INFO`: the header's fields (Table 24-5). -/
def execDumpInfo (s : State) : Host.Outcome State Fault Refusal := .next <| respond s 0 (fRead s dumpAt 32)

/-- `DUMP_READ`. -/
def execDumpRead (off len : Nat) (s : State) : Host.Outcome State Fault Refusal := .next <|
  if len ≤ 4032 ∧ off + len ≤ dumpSize then respond s 0 (fRead s (dumpAt + off) len) else respond s ccInvalid []

/-- `DUMP_CLEAR` (R539). -/
def execDumpClear (s : State) : Host.Outcome State Fault Refusal := .next <|
  respond (({ s with mgmt := { s.mgmt with erasing := true } } : State).fset Fld.HUB_DUMPSTAT_ERASED 0 0 0) 0 []

/-- `DUMP_ERASE_DONE` (R539). -/
def execDumpEraseDone (s : State) : Host.Outcome State Fault Refusal := .next <|
  if s.mgmt.erasing then
    let s := fErase { s with mgmt := { s.mgmt with erasing := false } } dumpAt dumpSize
    (s.fset Fld.HUB_DUMPSTAT_ERASED 0 0 1).fset Fld.HUB_DUMPSTAT_VALID 0 0 0
  else s

/-- The bytes of a dailies record. -/
def recBytes (r : List Word) : List Byte := (r.map fun w => leBytes 8 w.toNat).flatten

/-- Record `i` of the hub's tail, oldest first; zeros past its end (R538). -/
def tailRec (s : State) (ch i : Nat) : List Word := (s.dly ch).tail.getD i [0, 0, 0, 0]

/-- Record `i` of a channel's dailies. -/
def dlyRec (s : State) (ch i : Nat) : List Word := SMap.get [0, 0, 0, 0] (s.dly ch).recs i

/-- Records `DLY_READ` and `DLY_RD` return: the channel's, or the hub tail's in keeper mode. -/
def dlyRecords (s : State) (ch first count : Nat) : Option (List Byte) :=
  let keeper := decide (s.hub.phase = .keeper)
  let size := if keeper then 2048 else dlySize
  if s.chPresent ch ∧ count ≤ 126 ∧ first + count ≤ size then
    some (((List.range count).map fun i =>
      recBytes (if keeper then tailRec s ch (first + i) else dlyRec s ch (first + i))).flatten)
  else none

/-- `DLY_READ`. -/
def execDlyRead (chn first count : Nat) (s : State) : Host.Outcome State Fault Refusal := .next <|
  match dlyRecords s chn first count with
  | some d => respond s 0 d
  | none => respond s ccInvalid []

/-! ### PLDM (R531 to R534); response layouts PRESUMED from DSP0240 and DSP0248, log entry 16 -/

/-- `PLDM_BASE_REQUEST`: GetPLDMTypes gives types 0, 2 and 5. -/
def execPldmBaseRequest (cmd : Nat) (s : State) : Host.Outcome State Fault Refusal := .next <|
  if cmd = 0x04 then respond s 0 (leBytes 8 0x25)
  else if 1 ≤ cmd ∧ cmd ≤ 5 then respond s 0 (leBytes 4 (bits (Config.identity (2 + cmd)).toNat 0 32))
  else respond s 0x05 []

/-- A sensor's thresholds: warning, critical, fatal, where the sensor has them (Table 24-2). Temperatures in °C, power in W. -/
def thresholds (s : State) (id : Nat) : List Nat :=
  let c := (id % 256) / 8
  let d := id % 8
  if 0x100 ≤ id ∧ id < 0x120 then [s.fget Fld.DST_THERMCFG_THROT_C (dstLoc c d), 105, 115]
  else if 0x200 ≤ id ∧ id < 0x210 then [85, 95, 105]
  else if (0x280 ≤ id ∧ id < 0x290) ∨ id = 0x300 then [95, 105, 115]
  else if 0x400 ≤ id ∧ id < 0x404 then
    let g := s.fget Fld.CH_PWRSTAT_GRANT (id - 0x400)
    [g / 8, g * 105 / 800]
  else if id = 0x410 then [s.fget Fld.HUB_PWRLIVE_BUDGET, s.fget Fld.HUB_CAPS_MAX_POWER_W]
  else []

/-- A sensor exists and its channel, site or unit is in service (R531, Table 24-8). -/
def sensorUp (s : State) (id : Nat) : Bool :=
  let up := fun c => s.chLive c && !decide (s.hub.phase = .keeper)
  let site := fun c k => up c && (s.fget Fld.CH_CAPS_SITE_LIVE c).testBit k
  if 0x100 ≤ id ∧ id < 0x120 ∨ 0x500 ≤ id ∧ id < 0x520 ∨ 0x600 ≤ id ∧ id < 0x620 then
    decide (id % 8 < 6) && up (id % 256 / 8)
  else if 0x200 ≤ id ∧ id < 0x210 then
    site ((id - 0x200) / 4) (id % 4) && (s.fget Fld.CH_CAPS_SITE_STACK ((id - 0x200) / 4)).testBit (id % 4)
  else if 0x280 ≤ id ∧ id < 0x290 then
    site ((id - 0x280) / 4) (id % 4) && (s.fget Fld.CH_CAPS_SITE_GATE ((id - 0x280) / 4)).testBit (id % 4)
  else if 0x400 ≤ id ∧ id < 0x404 then up (id - 0x400)
  else decide (id = 0x300 ∨ id = 0x410)

/-- A sensor's threshold level after a reading, with 2 °C or 2 % hysteresis (R531). -/
def levelAfter (id old reading : Nat) (ths : List Nat) : Nat :=
  ((ths.zipIdx).map fun p =>
    let k := p.2 + 1
    let hyst := if id < 0x400 then 2 else p.1 / 50
    if k ≤ old then (if reading + hyst ≤ p.1 then 0 else k) else (if p.1 ≤ reading then k else 0)).foldl max 0

/-- One sensor's reading (R531): an event for every threshold it crosses, which carries the level it leads to (R532). -/
def sensorStep (s : State) (p : Nat × Nat) : State :=
  let (id, v) := p
  if sensorUp s id then
    let old := SMap.get 0 s.mgmt.level id
    let lv := levelAfter id old v (thresholds s id)
    let s := { s with mgmt := { s.mgmt with level := SMap.put s.mgmt.level id lv,
                                            reading := SMap.put s.mgmt.reading id v } }
    let crossed := if old ≤ lv then rangeFrom (old + 1) (lv - old) else (rangeFrom lv (old - lv)).reverse
    crossed.foldl (fun s k => mgmtEvent s evThreshold (id * 4 + k)) s
  else s

/-- `SENSOR_SAMPLE` (R531): sensor identifiers with the values read. -/
def execSensorSample (readings : List (Nat × Nat)) (s : State) : Host.Outcome State Fault Refusal := .next <| readings.foldl sensorStep s

/-- `PLDM_SENSOR_REQUEST` (R531): operational state, level, reading. -/
def execPldmSensorRequest (id : Nat) (s : State) : Host.Outcome State Fault Refusal := .next <|
  if sensorUp s id then
    respond s 0 ([0#8, BitVec.ofNat 8 (SMap.get 0 s.mgmt.level id)] ++ leBytes 4 (SMap.get 0 s.mgmt.reading id))
  else respond s 0 [2#8]

/-- A firmware update of a slot is refused (R534, R543). -/
def updateRefused (s : State) (slot : Nat) : Bool :=
  let keeper := decide (s.hub.phase = .keeper)
  (!keeper && decide (slot = s.fget Fld.NV_BOOTSTAT_SLOT)) || s.hub.warmReq ||
    decide (s.fget Fld.NV_LC_STATE = 4) || (keeper && decide (s.fget Fld.NV_BOOTSTAT_KCAUSE ≠ 1)) || decide (1 < slot)

/-- The ROM runs the update, and writes no flash byte before the images have passed (R535). -/
def romUpdate (s : State) : Bool := decide (s.hub.phase = .keeper)

/-- `REQUEST_UPDATE` (R534, R535). -/
def execRequestUpdate (slot : Nat) (s : State) : Host.Outcome State Fault Refusal := .next <|
  if updateRefused s slot then respond s 0x81 []
  else
    let s := if romUpdate s then s else fErase s (slotAt slot) slotSize
    respond { s with mgmt := { s.mgmt with update := some { slot := slot, written := 0, verified := false } } } 0 []

/-- `FIRMWARE_DATA_TRANSFER` (R534): programming pauses while the store is busy. -/
def execFirmwareDataTransfer (off : Nat) (data : List Byte) (s : State) : Host.Outcome State Fault Refusal := .next <|
  match s.mgmt.update with
  | none => respond s ccInvalid []
  | some u =>
    if s.fget Fld.NV_STAT_BUSY ≠ 0 then s
    else if off + data.length ≤ slotSize then
      let u := { u with written := u.written + data.length, verified := false }
      if romUpdate s then
        respond { s with mgmt := { s.mgmt with update := some { u with sram := u.sram ++ [(off, data)] } } } 0 []
      else
        let s := fProg s (slotAt u.slot + off) data
        respond { s with mgmt := { s.mgmt with update := some u } } 0 []
    else respond s ccInvalid []

/-- Checks 2 to 6 of Table 23-3 on a written slot: 1, or the first failing result (R534). -/
def verifySlot (s : State) (slot : Nat) : Nat :=
  let m := manifest s slot
  let r := manifestCheck s m (curBody s).minsvn
  if r ≠ 1 then r else if imageOk s slot m 1 && imageOk s slot m 2 && imageOk s slot m 3 then 1 else 6

/-- The slot with the images held in hub SRAM programmed into it (R535). -/
def withSram (s : State) (u : FwUpdate) : State :=
  if u.sram.isEmpty then s
  else u.sram.foldl (fun s p => fProg s (slotAt u.slot + p.1) p.2) (fErase s (slotAt u.slot) slotSize)

/-- `VERIFY_COMPLETE` (R534); in keeper mode the images go to the slot only once they have passed (R535). -/
def execVerifyComplete (s : State) : Host.Outcome State Fault Refusal := .next <|
  match s.mgmt.update with
  | none => respond s ccInvalid []
  | some u =>
    let r := verifySlot (withSram s u) u.slot
    if r = 1 then
      let s := withSram s u
      let u := { u with sram := [] }
      let s := s.fset Fld.NV_BOOTSTAT_SKIP 0 0 (putBits (s.fget Fld.NV_BOOTSTAT_SKIP) u.slot 1 0)
      respond { s with mgmt := { s.mgmt with update := some { u with verified := true } } } 0 [1#8]
    else respond s 0 [BitVec.ofNat 8 r]

/-- `ACTIVATE_FIRMWARE` (R534): a generation that changes only `SLOT`. -/
def execActivateFirmware (s : State) : Host.Outcome State Fault Refusal := .next <|
  match s.mgmt.update with
  | some u =>
    if u.verified ∧ s.fget Fld.NV_STAT_BUSY = 0 then
      let g := curBody s
      respond (nvStart { s with mgmt := { s.mgmt with update := none } } 2 g.lc { g with slot := u.slot }) 0 []
    else respond s ccInvalid []
  | none => respond s ccInvalid []

/-- `ALERT_RESPONSE_READ` (R533): the address is returned, `SMB_ALERT_N` is released, and the bus owner takes the oldest
event. -/
def execAlertResponseRead (s : State) : Host.Outcome State Fault Refusal := .next <|
  if s.mgmt.alert then
    match s.mgmt.events with
    | e :: rest =>
      let s := { s with mgmt := { s.mgmt with events := rest, alert := false, holdoff := true } }
      respond (queuedField s) 0 ([BitVec.ofNat 8 s.mgmt.addr, BitVec.ofNat 8 e.1] ++ leBytes 8 e.2)
    | [] => { s with mgmt := { s.mgmt with alert := false, holdoff := true } }
  else s

/-- `ALERT_HOLDOFF_END` (R533). -/
def execAlertHoldoffEnd (s : State) : Host.Outcome State Fault Refusal := .next <| alertPin { s with mgmt := { s.mgmt with holdoff := false } } false

/-! ### Dailies and counters (R536 to R540) -/

/-- A dailies or counter command discarded for its writer. -/
def dlyGuard (r : Requester) (ch : Nat) (s : State) (f : State → State) : State :=
  if maySup s r then f s else s.fset Fld.CH_FSTAT_CODE ch 0 cCfgIgnored

/-- `CH_DLYCTRL_TRIGARM` (R537). -/
def execChDlyctrlTrigarm (r : Requester) (ch : Ch) (s : State) : Host.Outcome State Fault Refusal := .next <|
  rowGate s r (.ch ch) fun s =>
  dlyGuard r ch s fun s =>
    ((s.setDly ch fun d => { d with armed := true, left := none }).fset Fld.CH_DLYCTRL_TRIGARM ch 0 1).fset
      Fld.CH_DLYSTAT_TRIGGERED ch 0 0

/-- `CH_DLYCTRL_CLEAR` (R537): `SEQ` continues. -/
def execChDlyctrlClear (r : Requester) (ch : Ch) (s : State) : Host.Outcome State Fault Refusal := .next <|
  rowGate s r (.ch ch) fun s =>
  dlyGuard r ch s fun s =>
    ((s.setDly ch fun d => { d with recs := [], full := 0 }).setReg .CH_DLYSTAT ch 0
      (putBits (putBits (putBits (s.regN .CH_DLYSTAT ch) 0 17 0) 18 1 0) 32 32 0))

/-- `CH_DLYMARK_WRITE` (R536). -/
def execChDlymarkWrite (r : Requester) (ch : Ch) (v : Word) (s : State) : Host.Outcome State Fault Refusal := .next <|
  rowGate s r (.ch ch) fun s =>
  dlyGuard r ch s fun s => dlyRecord s ch 10 0 127 (v.toNat % 2 ^ 32) 0

/-- `HUB_DLYFREEZE` (R537). -/
def execHubDlyfreeze (r : Requester) (s : State) : Host.Outcome State Fault Refusal := .next <|
  hostGate s r fun s =>
  if maySup s r then s.liveChs.foldl (fun s c => s.setDly c fun d => { d with frozen := true }) s
  else match r with
    | .stw w => s.fset Fld.CH_FSTAT_CODE w.c.ch 0 cCfgIgnored
    | _ => s

/-- A counter command on one channel, or on every live one for `src` 4 (R540). -/
def pmOn (r : Requester) (src : Fin 5) (s : State) (f : State → Nat → State) : State :=
  if src.val < 4 then dlyGuard r src.val s fun s => f s src.val
  else if mayHub r then s.liveChs.foldl f s else s

/-- The block of a set of performance counters: a channel's, or the hub's. -/
def pmBlk (src : Fin 5) : BlockRef := if src.val = 4 then .hub else .ch (Fin.ofNat 4 src.val)

/-- `PMCTRL_START`. -/
def execPmctrlStart (r : Requester) (src : Fin 5) (s : State) : Host.Outcome State Fault Refusal := .next <|
  rowGate s r (pmBlk src) fun s =>
  pmOn r src s fun s c => s.setDly c fun d => { d with counting := true }

/-- `PMCTRL_STOP`. -/
def execPmctrlStop (r : Requester) (src : Fin 5) (s : State) : Host.Outcome State Fault Refusal := .next <|
  rowGate s r (pmBlk src) fun s =>
  pmOn r src s fun s c => s.setDly c fun d => { d with counting := false }

/-- `PMCTRL_SNAP`. -/
def execPmctrlSnap (r : Requester) (src : Fin 5) (s : State) : Host.Outcome State Fault Refusal := .next <|
  rowGate s r (pmBlk src) fun s =>
  pmOn r src s fun s c =>
    (List.range 16).foldl (fun s i => s.setReg .CH_PMSNAPn c i (s.regN .CH_PMCn c i)) s

/-! ### The keeper dump (R539) -/

/-- The dump's words, header first; bad words of the log or the tails are written as 0 and counted. -/
def dumpBytes (s : State) (bad : List Nat) : List Byte :=
  let log := (List.range 4096).map fun i => s.regN .HUB_FLOGn 0 i
  let tails := ((List.range 4).map fun c =>
    let t := (s.dly c).tail
    let ws := (t.map fun r => r.map BitVec.toNat).flatten
    ws ++ List.replicate (8192 - ws.length) 0).flatten
  let ws := (log ++ tails).zipIdx.map fun p => if bad.contains p.2 then 0 else p.1
  let head := leBytes 4 0x504D5544 ++ leBytes 1 (s.fget Fld.NV_BOOTSTAT_KCAUSE) ++ leBytes 1 cKeeperEntered ++
    leBytes 2 bad.length ++ leBytes 8 s.now ++ leBytes 8 (s.regN .NV_DIEID) ++
    leBytes 4 (s.fget Fld.HUB_FLOGPTR_TOTAL)
  head ++ List.replicate (4096 - 28) 0#8 ++ (ws.map fun w => leBytes 8 w).flatten

/-- `KEEPER_DUMP_DONE` (R539): `bad` lists the words that failed SECDED. -/
def execKeeperDumpDone (bad : List Nat) (s : State) : Host.Outcome State Fault Refusal := .next <|
  if s.mgmt.dumping then
    let s := (fProg { s with mgmt := { s.mgmt with dumping := false } } dumpAt (dumpBytes s bad)).took
    (s.fset Fld.HUB_DUMPSTAT_ERASED 0 0 0).fset Fld.HUB_DUMPSTAT_VALID 0 0 1
  else s

/-! ### JTAG (R541) -/

/-- An instruction selected, if the debug level allows it; keeper mode leaves levels 0 and 1 (Table 24-8). -/
def jtag (s : State) (level ir : Nat) (f : State → State) : State :=
  if s.fget Fld.NV_LC_DBGLEVEL < level ∨ (level = 2 ∧ s.hub.phase = .keeper) then
    { s with mgmt := { s.mgmt with ir := 0xFF, deny := true, tdo := [] } }
  else f { s with mgmt := { s.mgmt with ir := ir, deny := false } }

def setTdo (s : State) (l : List Nat) : State := { s with mgmt := { s.mgmt with tdo := l } }

/-- `BYPASS`. -/
def execBypass (s : State) : Host.Outcome State Fault Refusal := .next <| jtag s 0 0xFF id

/-- `EXTEST`: the boundary outputs driven. -/
def execExtest (v : Word) (s : State) : Host.Outcome State Fault Refusal := .next <|
  jtag s 0 0x00 fun s => { s with mgmt := { s.mgmt with boundary := (List.range 64).map v.toNat.testBit } }

/-- `SAMPLE_PRELOAD`: the boundary register sampled or preloaded. -/
def execSamplePreload (v : Word) (s : State) : Host.Outcome State Fault Refusal := .next <|
  jtag s 0 0x01 fun s => { s with mgmt := { s.mgmt with boundary := (List.range 64).map v.toNat.testBit } }

/-- `IDCODE`. -/
def execIdcode (s : State) : Host.Outcome State Fault Refusal := .next <|
  jtag s 0 0x02 fun s => setTdo s [if s.part = 5 then 0x1A7A2001 else 0x1A7A1001]

/-- `CLAMP`. -/
def execClamp (s : State) : Host.Outcome State Fault Refusal := .next <| jtag s 0 0x03 id

/-- `HIGHZ`. -/
def execHighz (s : State) : Host.Outcome State Fault Refusal := .next <| jtag s 0 0x04 id

/-- `DLY_RD`. -/
def execDlyRd (chn first count : Nat) (s : State) : Host.Outcome State Fault Refusal := .next <|
  jtag s 1 0x21 fun s =>
    match dlyRecords s chn first count with
    | some d => setTdo s (d.map BitVec.toNat)
    | none => setTdo s []

/-- `TRST_N_LOW`: Test-Logic-Reset selects `IDCODE`, as IEEE 1149.1 has it. -/
def execTrstNLow (s : State) : Host.Outcome State Fault Refusal := .next <| { s with mgmt := { s.mgmt with ir := 0x02, deny := false, tdo := [] } }

end Sys2Proof.Machine
end

