-- ==== Sys2Proof/Machine/Access.lean ====
section
/-! DEFINITION. Register access (R3 to R10, R564): where a register lies (Table 8-3, chapter 17), who reaches it, how it reads, what
a write of it does, and the commands of hosts, management and debug that access registers and memory. -/

namespace Sys2Proof.Machine

/-! ### Places -/

/-- Location number of a block's copy. -/
def blkLoc : BlockRef → Nat
  | .hub => 0
  | .ch c | .seal c | .ct c => c
  | .dst d => dstLoc d.ch d.d
  | .cl c => clLoc c.ch c.cl
  | .tl t => tlLoc t.c.ch t.c.cl t.t
  | .fdl l => lkLoc l
  | .fn f => f

/-- Its kind. -/
def blkKind : BlockRef → Block
  | .hub => .hub
  | .ch _ => .ch
  | .seal _ => .seal
  | .ct _ => .ct
  | .dst _ => .dst
  | .cl _ => .cl
  | .tl _ => .tl
  | .fdl _ => .fdl
  | .fn _ => .fn

/-- Copy and byte within it that an offset of the block names. -/
def Reg.copyAt (g : Reg) (off : Nat) : Option (Nat × Nat) :=
  let d := g.desc
  let z := if d.stride = 0 then 2 ^ 32 else d.stride
  let k := off - d.off
  if d.off ≤ off ∧ k / z < d.count ∧ k % z < d.width / 8 then some (k / z, k % z) else none

/-- The register at an offset, its copy, and the byte within it. -/
def Block.findReg (b : Block) (off : Nat) : Option (Reg × Nat × Nat) :=
  b.regs.findSome? fun g => (g.copyAt off).map fun p => (g, p.1, p.2)

/-- What part of a register an access names. -/
inductive Part
  | full
  | lower
  | upper
  deriving DecidableEq, Repr

/-- A well-formed access of `n` bytes (R6): 32 or 64 bits wide, naturally aligned, and no wider than its register. -/
def accessPart (b : Block) (off n : Nat) : Option (Reg × Nat × Part) :=
  if (n ≠ 4 ∧ n ≠ 8) ∨ off % n ≠ 0 then none
  else match b.findReg off with
    | none => none
    | some (g, i, o) =>
      if g.desc.width = 32 then (if n = 8 then none else some (g, i, .full))
      else if n = 8 then some (g, i, .full)
      else some (g, i, if o = 0 then .lower else .upper)

/-- The same for an offset of the hub's register space (chapter 19: `FDL_HLc` at 0x4000 + 0x400 × c). -/
def hubAddr (o : Nat) : RegAddr :=
  if 0x4000 ≤ o ∧ o < 0x5000 then ⟨.fdl ⟨Fin.ofNat 4 ((o - 0x4000) / 0x400), 4, true⟩, o % 0x400⟩ else ⟨.hub, o⟩

/-! ### Reading -/

/-- Bits of a steward's half of `CL_SYNCW` (Table 11-3). -/
def syncwHalf (x : Stw) : Nat :=
  match x.swait with
  | none => 0
  | some q => 1 + 2 * ofBit q.bar + 4 * ofBit q.parked + 8 * ofBit q.remote + q.obj % 2 ^ 16 * 2 ^ 4 + q.ch % 4 * 2 ^ 20

/-- `CL_STWn_STATUS.WAIT`. -/
def Wait.code : Wait → Nat
  | .none | .reply => 0
  | .qrcv _ => 1
  | .qsnd => 2
  | .syncWge => 3
  | .barrier => 4
  | .dolly => 5
  | .load => 6
  | .take | .seal => 7

def stwStatus (x : Stw) : Nat :=
  x.st + ofBit x.prv * 2 ^ 3 + (match x.take with | some k => 2 ^ 4 + k.val * 2 ^ 5 | none => 0) + x.pc % 2 ^ 22 * 2 ^ 8 +
    bits x.fcause 0 16 * 2 ^ 32 + (if x.st = wStalled then x.wait.code else 0) * 2 ^ 48

/-- An arrival waits for a full queue (R230): at a gateway input, or, from the own cluster's tiles, at an array port. -/
def holb (s : State) (ch c q : Nat) : Bool :=
  (decide (32 ≤ (queue s ch c q).length) && arrayWants s ch c q) || (s.chan ch).reqs.any fun r =>
    !r.parts.isEmpty && decide (reqQueue r = q) && (match r.op, r.place with
      | .msg _ _, .mesh k _ => decide (k = c ∧ tgaCl r.tga = c)
      | _, _ => false)

/-- `CL_QSTATn`: the stored counts with what is sampled now. -/
def qStat (s : State) (ch c q : Nat) : Nat :=
  let v := s.regN .CL_QSTATn (clLoc ch c) q
  let low := (queue s ch c q).length + qMode s ch c q * 2 ^ 6 + ofBit (qPsn s ch c q) * 2 ^ 8 +
    ofBit (inHandler s ch c q) * 2 ^ 9 + ofBit ([0, 1].any (qWaits s ch c q)) * 2 ^ 10 + ofBit (holb s ch c q) * 2 ^ 11
  putBits v 0 16 low

/-- The buffer that the flit at the head of a depot interface port is for (R209). -/
def flitFor (s : State) (ch c port : Nat) : Option Nat :=
  if (specHead s ch c (16 + port)).isSome then none
  else (portFlits s ch c (16 + port)).head?.bind fun f => portBuffer s ch c port f.route.toNat

/-- A FLIT record waits at a port for an entry of the holding pen (R279). -/
def penWaits (s : State) (ch c : Nat) : Bool :=
  penFull s ch c && (List.range 32).any fun p => (specHead s ch c p).any fun f => !f.gone && takeOpen s ch c f.take.toNat

/-- `CL_SBn_STAT` with its two waits. -/
def sbStat (s : State) (ch c n : Nat) : Nat :=
  let a := sbA s ch c n
  let on := decide (sbMode a ≠ mOff)
  let feeds := sbNamed s ch c n || (decide (sbProd a = 1) && (flitFor s ch c (sbPport a) == some n))
  let v := s.regN .CL_SBn_STAT (clLoc ch c) n
  putBits (putBits v 58 1 (ofBit (on && !sbRoom s ch c n && feeds))) 59 1
    (ofBit (on && decide (sbCmask a ≠ 0) && !sbHead s ch c n))

/-- `CL_TAKESTAT` and `CL_TAKEk`. -/
def takeStat (s : State) (ch c : Nat) : Nat :=
  let k := s.clu ch c
  let v := s.regN .CL_TAKESTAT (clLoc ch c)
  let f (p : TakeSlot → Bool) : Nat := ((List.range 4).map fun i => ofBit (p (takeSlot s ch c i)) * 2 ^ i).sum
  putBits v 0 16 (f TakeSlot.isOpen + f (fun t => t.rec?.isSome) * 2 ^ 4 + ofBit k.act.isSome * 2 ^ 8)

def takeView (s : State) (ch c i : Nat) : Nat :=
  let t := takeSlot s ch c i
  let n := (s.clu ch c).pen.countP fun p => decide (p.1.val = i)
  n + ofBit t.isOpen * 2 ^ 14 + (match t.rec? with
    | some d => 2 ^ 15 + d.code % 256 * 2 ^ 16 + d.kind % 256 * 2 ^ 24 + d.pc % 2 ^ 22 * 2 ^ 32
    | none => 0)

/-- Occupancies of five queues, four bits each. -/
def occ5 (q : SMap (List Flit)) : Nat := ((List.range 5).map fun p => (lst q p).length % 16 * 2 ^ (4 * p)).sum

/-- `SEAL_STAT`. -/
def sealStat (s : State) (ch : Nat) : Nat :=
  let u := s.seal ch
  let n := u.ents.length
  match u.run with
  | none => n * 2 ^ 3
  | some r =>
    let got := keyDone s ch r
    let pbs := decide (r.phase = 3) || (decide (r.phase = 2) && decide (got < keyBsk s ch r))
    let g := (psetOf (ctxPset s ch (cvCtx r.d))).ggsw
    r.phase + n * 2 ^ 3 + r.ent * 2 ^ 8 + (if pbs then (got / g - 1) % 2 ^ 11 * 2 ^ 16 else 0) +
      (if r.phase = 2 ∨ r.phase = 3 then passAccs r * 2 ^ 27 else 0)

/-- Transaction table entries held (R191). -/
def ttInUse (s : State) (ch : Nat) : Nat := (s.chan ch).reqs.countP fun r => r.entry

/-- What a register of a cluster shows. -/
def clView (s : State) (ch c : Nat) (g : Reg) (i : Nat) : Nat :=
  let l := clLoc ch c
  let k := s.clu ch c
  let v := s.regN g l i
  match g with
  | .CL_SYNCW => syncwHalf (k.stw 0) + syncwHalf (k.stw 1) * 2 ^ 32
  | .CL_SIDSTAT => putBits (putBits v 0 15 (unitsUsed s ch c)) 16 15 (16 * k.siding)
  | .CL_STALLAGE => if k.watched then s.now % 2 ^ 25 else 0
  | .CL_GWSPILL =>
    let held := ((s.chan ch).reqs.filter fun r => match r.place with | .mesh c' n => decide (c' = c ∧ n < 8) | _ => false).map fun r => r.units.length
    (k.gwSpilled.filter (· < 8)).foldl (fun a n => putBits a n 1 1) 0 + held.sum * 2 ^ 16
  | .CL_TAKESTAT => takeStat s ch c
  | .CL_PENSTAT => putBits (putBits v 0 14 k.pen.length) 32 1 (ofBit (penWaits s ch c))
  | .CL_TAKEk => takeView s ch c i
  | .CL_STWn_STATUS => stwStatus (k.stw i)
  | .CL_STWn_EPC => (k.stw i).epc
  | .CL_STWn_FDETAIL => (k.stw i).fdetail
  | .CL_QSTATn => qStat s ch c i
  | .CL_QHDRn => ((queue s ch c i).head?.map Msg.hdr).getD 0
  | .CL_QBODYn_w => ((queue s ch c (i / 8)).head?.map fun m => dNat ((m.body.drop (8 * (i % 8))).take 8)).getD 0
  | .CL_QDISP =>
    let f (w : Nat) : Nat := match (k.stw w).inh with | some (q, h) => 1 + q % 16 * 2 + h % 256 * 2 ^ 5 | none => 0
    f 0 + f 1 * 2 ^ 16
  | .CL_SBn_STAT => sbStat s ch c i
  | _ => v

/-- What a register of a channel shows. -/
def chView (s : State) (ch : Nat) (g : Reg) (i : Nat) : Nat :=
  let v := s.regN g ch i
  match g with
  | .CH_BWLIVE => putBits v 31 1 (ofBit (!(s.chan ch).splitWait.isEmpty))
  | .CH_TTSTAT => putBits v 0 13 (ttInUse s ch)
  | .CH_SYNCCNT =>
    let parked := (s.cls.filter fun p => decide (p.1 / 96 = ch)).map fun p => (p.2.stws.filter fun w => w.2.swait.any SyncWait.parked).length
    putBits v 32 16 parked.sum
  | .CH_RPTSTAT => putBits v 16 1 (ofBit (fenceBusy s ch))
  | .CH_FNRECLf => bits (s.fnrec ch (i / 4)) (64 * (i % 4)) 64
  | .CH_RPTWINLn => rptWord (s.rpt ch) (516 + i)
  | .CH_FNRECf => if i < 4 then bits (s.fnrec ch 0) (64 * i) 64 else v
  | .CH_DLYRECn => ((dlyRec s ch (s.regN .CH_DLYSEL ch)).getD i 0#64).toNat
  | _ => v

/-- What a register of the hub shows. -/
def hubView (s : State) (g : Reg) (i : Nat) : Nat :=
  let v := s.regN g 0 i
  match g with
  | .HUB_PODTIME => (s.now + s.hub.podOff) % 2 ^ 64
  | .HUB_RPTFENCE => putBits v 4 4 ((List.range 4).map fun c => ofBit (fenceBusy s c) * 2 ^ c).sum
  | .HUB_TAILRECn =>
    let t := s.regN .HUB_TAILSEL
    ((tailRec s (bits t 0 2) (bits t 2 11)).getD i 0#64).toNat
  | _ => v

/-- What a register of a function shows. -/
def fnView (s : State) (f : Nat) (g : Reg) (i : Nat) : Nat :=
  let v := s.regN g f i
  match g with
  | .VF_SELF =>
    f + s.fget Fld.HUB_OPMODE_MODE * 2 ^ 8 + ownPkg s * 2 ^ 16 + fnRings s f * 2 ^ 32 + fnVectors s f * 2 ^ 40
  | .VF_CHGRANT => ((List.range 4).map fun c => ofBit (s.chLive c && granted s c f) * 2 ^ c).sum
  | _ => v

/-- The value of a register before its write-only fields are masked. -/
def rawView (s : State) (a : BlockRef) (g : Reg) (i : Nat) : Nat :=
  match a with
  | .hub => hubView s g i
  | .ch c => chView s c g i
  | .cl c => clView s c.ch c.cl g i
  | .tl t =>
    let x := s.tl t.c.ch t.c.cl t.t
    match g with
    | .TL_QOCC => occ5 x.rq + occ5 x.tq * 2 ^ 20
    | .TL_SPILL => x.spilled.foldl (fun a n => putBits a n 1 1) 0 + ((x.siding.map fun p => p.2.length).sum) * 2 ^ 16
    | _ => s.regN g (blkLoc a) i
  | .seal c => if g = .SEAL_STAT then sealStat s c else s.regN g c i
  | .fdl l => if g = .FDL_LINKn_CREDIT then lkCredit s l else s.regN g (lkLoc l) i
  | .ct c => if g = .CT_COLLSTAT then (s.ct c).collq.length % 128 + ofBit (s.ct c).coll.isSome * 2 ^ 7 else s.regN g c i
  | .dst _ => s.regN g (blkLoc a) i
  | .fn f => fnView s f g i

/-- The value a register reads as: write-only fields read 0 (R3). -/
def regView (s : State) (a : BlockRef) (g : Reg) (i : Nat) : Nat :=
  g.desc.fields.foldl (fun v f => if f.acc = .wo then putBits v f.lo f.w 0 else v) (rawView s a g i)

/-- The RC fields from bit `lo` up cleared (R3, R564). -/
def clearRc (s : State) (a : BlockRef) (g : Reg) (i lo : Nat) : State :=
  let l := blkLoc a
  let hit := g.desc.fields.filter fun f => decide (f.acc = .rc ∧ lo ≤ f.lo)
  if hit.isEmpty then s
  else
    let s := s.setReg g l i (hit.foldl (fun v f => putBits v f.lo f.w 0) (s.regN g l i))
    if g = .CT_FLOWSTAT then setFlow s l (s.fget Fld.CT_FLOWSEL_INDEX l) fun f => { f with retx := 0 } else s

/-- The half held or captured for a requester (R9). -/
def halfOf (s : State) (r : Requester) : Option HalfHold := s.half.find? fun h => decide (h.who = r)

/-- Reads of management and JTAG clear nothing (R530, R564). -/
def readClears : Requester → Bool
  | .mgmt | .jtag => false
  | _ => true

/-- A register whose value is a free value. -/
def Reg.timed (g : Reg) : Bool := decide (g = .HUB_PODTIME ∨ g = .CL_STALLAGE)

/-- A read of an entry of a function's MSI-X table or of its pending bits; layouts PRESUMED from PCIe (log entry 26). -/
def msixRead (s : State) (f off n : Nat) : Option Nat :=
  let w := 8 * n
  if (n ≠ 4 ∧ n ≠ 8) ∨ off % n ≠ 0 then none
  else if 0x4000 ≤ off ∧ (off - 0x4000) / 16 < fnVectors s f then
    let e := SMap.get (0, 0, 1) (s.fn f).msix ((off - 0x4000) / 16)
    some (bits (e.1 + e.2.1 * 2 ^ 64 + e.2.2 * 2 ^ 96) (8 * (off % 16)) w)
  else if off = 0xC000 ∨ off = 0xC004 then
    some (bits (((s.fn f).msi.filter (msixMasked (s.fn f))).foldl (fun a n => putBits a n 1 1) 0) (8 * (off - 0xC000)) w)
  else none

/-- A register read: the state after it and the value returned. -/
def regRead (r : Requester) (a : RegAddr) (n : Nat) (s : State) : State × Nat :=
  let h := halfOf s r
  let s := dropHalf s r
  if !reaches s r a.blk then (s, 0)
  else if blkShut s a.blk then (shutAccess s r a.blk, 0)
  else match blkAbsent s a.blk with
  | some c => (unitErr s c 0, 0)
  | none => match accessPart (blkKind a.blk) a.off n with
    | none =>
      match a.blk with
      | .fn f => match msixRead s f a.off n with
        | some v => (s, v)
        | none => (badAccess s r a, 0)
      | _ => (badAccess s r a, 0)
    | some (g, i, p) =>
      let v := regView s a.blk g i
      let t := if g.timed then s.took else s
      match p with
      | .full => (if readClears r then clearRc t a.blk g i 0 else t, v)
      | .lower =>
        let t := if readClears r then clearRc t a.blk g i 0 else t
        ({ t with half := ⟨r, g.place (blkLoc a.blk) i, false, v / 2 ^ 32⟩ :: t.half }, v % 2 ^ 32)
      | .upper =>
        match h with
        | some x => if x.place = g.place (blkLoc a.blk) i ∧ ¬ x.wr then (s, x.val)
                    else (if readClears r then clearRc t a.blk g i 32 else t, v / 2 ^ 32)
        | none => (if readClears r then clearRc t a.blk g i 32 else t, v / 2 ^ 32)

/-! ### Writing -/

/-- The next state of a command that another row names. -/
def after (o : Host.Outcome State Fault Refusal) (s : State) : State :=
  match o with
  | .next t => t
  | _ => s

/-- The command of a control bit, where the write sets the bit. -/
def onBit (v k : Nat) (f : State → Host.Outcome State Fault Refusal) (s : State) : State := if bit v k then after (f s) s else s

/-- A register's RW fields taken from a value (R3, R10). -/
def putRw (s : State) (g : Reg) (l i v : Nat) : State :=
  s.setReg g l i ((g.desc.fields.filter fun f => decide (f.acc = .rw)).foldl (fun o f => putBits o f.lo f.w (bits v f.lo f.w)) (s.regN g l i))

/-- The W1C bits that a value names cleared. -/
def putW1c (s : State) (g : Reg) (l i v : Nat) : State :=
  let old := s.regN g l i
  s.setReg g l i ((g.desc.fields.filter fun f => decide (f.acc = .w1c)).foldl (fun o f =>
    putBits o f.lo f.w (bits old f.lo f.w - (bits old f.lo f.w &&& bits v f.lo f.w))) old)

/-- Both. -/
def putReg (s : State) (g : Reg) (l i v : Nat) : State := putW1c (putRw s g l i v) g l i v

/-- Every field of a classification register lies in its range (chapter 22). -/
def fclsOk (v : Nat) : Bool := decide (bits v 0 8 ≠ 0 ∧ bits v 8 8 ≠ 0 ∧ bits v 16 16 ≠ 0)

/-- A write of a hub register. -/
def hubPut (r : Requester) (g : Reg) (i v : Nat) (s : State) : State :=
  if !mayHub r then s
  else match g with
  | .HUB_PWRBUDGET => onBit v 63 (execHubPwrbudgetCommit r) (putRw s g 0 i v)
  | .HUB_SYNCCTRL => onBit v 0 (execHubSyncctrlArmload r) s
  | .HUB_FAULTPEND | .HUB_FAULTMASK => faultPin (putReg s g 0 i v)
  | .HUB_FCLS => if fclsOk v then putRw s g 0 i v else s
  | .HUB_RSTCTRL => after (execHubRstctrlWrite r (BitVec.ofNat 64 v) s) s
  | .HUB_MGMTCFG =>
    let old := s.fget Fld.HUB_MGMTCFG_ADDR
    let s := putRw s g 0 i v
    if s.mgmt.addr = old then { s with mgmt := { s.mgmt with addr := s.fget Fld.HUB_MGMTCFG_ADDR } } else s
  | .HUB_DLYFREEZE => onBit v 0 (execHubDlyfreeze r) s
  | .HUB_PMCTRL => onBit v 2 (execPmctrlSnap r 4) (onBit v 1 (execPmctrlStop r 4) (onBit v 0 (execPmctrlStart r 4) s))
  | .HUB_VFCFGn => if s.port.vfEnable then hostErr s cCfgIgnored (reqFunc r) (0x1008 + 8 * i) else putRw s g 0 i v
  | .HUB_RPTFENCE =>
    let s := putW1c s g 0 i v
    if v % 16 = 0 then s else after (execHubRptfenceStart r (Fin.ofNat 16 v) s) s
  | .NV_CTRL =>
    onBit v 4 (execNvCtrlAuthgo r) (onBit v 3 (execNvCtrlFclear r) (onBit v 2 (execNvCtrlLccancel r)
      (onBit v 1 (execNvCtrlLcreq r) (onBit v 0 (execNvCtrlCommit r) (putRw s g 0 i v)))))
  | .NV_AUTHn => s.setReg g 0 i v
  | _ => putReg s g 0 i v

/-- A write of a channel register. -/
def chPut (r : Requester) (c : Ch) (g : Reg) (i v : Nat) (s : State) : State :=
  let w := BitVec.ofNat 64 v
  match g with
  | .CH_LDCTRL =>
    onBit v 4 (execChLdctrlCommit r c) (onBit v 3 (execChLdctrlUnload r c) (onBit v 2 (execChLdctrlClear r c)
      (onBit v 1 (execChLdctrlStart r c) (onBit v 0 (execChLdctrlGo r c) s))))
  | .CH_LDSRC | .CH_LDREQ | .CH_LDORDER | .CH_LDUNLOAD => if mayHub r then putRw s g c i v else s
  | .CH_BWSPLIT => if maySup s r then onBit v 31 (execChBwsplitCommit r c) (putRw s g c i v) else memErr s c cCfgIgnored (mkTga (ownPkg s) c 3 0x300)
  | .CH_TTCFG =>
    let n := v % 2 ^ 13
    if maySup s r ∧ 1 ≤ n ∧ n ≤ 4096 then putRw s g c i v else memErr s c cCfgIgnored (mkTga (ownPkg s) c 3 0x320)
  | .CH_SYNCSEL => after (execChSyncselWrite r c w s) s
  | .CH_SYNCCTRL => onBit v 1 (execChSyncctrlUnpoison r c) (onBit v 0 (execChSyncctrlPoison r c) s)
  | .CH_PREDCTRL => if maySup s r then onBit v 1 (execChPredctrlClear r c) (putRw s g c i v) else onBit v 1 (execChPredctrlClear r c) s
  | .CH_NFCTRL => nfGuard r c s fun s => onBit v 1 (execChNfctrlAbort r c) (onBit v 0 (execChNfctrlArm r c) s)
  | .CH_NFCFG => nfGuard r c s fun s => onBit v 63 (execChNfcfgCommit r c) (putRw s g c i v)
  | .CH_LSCALE | .CH_NFWINn_BASE | .CH_NFWINn_CFG => nfGuard r c s fun s => putRw s g c i v
  | .CH_RPTCTRL => onBit v 1 (execChRptctrlFence r c) (onBit v 0 (execChRptctrlCommit r c) s)
  | .CH_RPTWINn => if maySup s r then putRw s g c i v
                   else (s.record Fld.CH_RPTERR_CODE Fld.CH_RPTERR_COUNT c cCfgIgnored).fset Fld.CH_RPTERR_FUNC c 0 (reqFunc r)
  | .CH_FNRECf => if i < 4 then s
                  else if maySup s r then putRw s g c i v
                  else (s.record Fld.CH_RPTERR_CODE Fld.CH_RPTERR_COUNT c cCfgIgnored).fset Fld.CH_RPTERR_FUNC c 0 (reqFunc r)
  | .CH_PWRCFG => after (execChPwrcfgWrite r c w s) s
  | .CH_FCLSn => dlyGuard r c s fun s => if fclsOk v then putRw s g c i v else s
  | .CH_FINJ => dlyGuard r c s fun s => onBit v 13 (execChFinjArm r c) (putRw s g c i v)
  | .CH_DLYCTRL =>
    dlyGuard r c s fun s =>
      let s := putRw s g c i v
      let s := if bit v 2 then s.setDly c fun d => { d with frozen := false } else s
      onBit v 1 (execChDlyctrlClear r c) (onBit v 0 (execChDlyctrlTrigarm r c) s)
  | .CH_DLYMARK => after (execChDlymarkWrite r c w s) s
  | .CH_PMCTRL =>
    let n : Fin 5 := Fin.ofNat 5 c.val
    onBit v 2 (execPmctrlSnap r n) (onBit v 1 (execPmctrlStop r n) (onBit v 0 (execPmctrlStart r n) s))
  | .CH_DLYCFG | .CH_DLYSEL | .CH_PMSELn => dlyGuard r c s fun s => putRw s g c i v
  | _ => putReg s g c i v

/-- A write of a district register. -/
def dstPut (r : Requester) (d : DistId) (g : Reg) (i v : Nat) (s : State) : State :=
  let l := dstLoc d.ch d.d
  match g with
  | .DST_STALLCFG => after (execDstStallcfgWrite r d (BitVec.ofNat 64 v) s) s
  | .DST_VFTGT =>
    if maySup s r then onBit v 31 (execDstVftgtCommit r d) (putRw s g l i v) else s.fset Fld.DST_STALLSTAT_CODE l 0 cCfgIgnored
  | .DST_THERMCFG =>
    if maySup s r ∧ 85 ≤ v % 128 ∧ v % 128 ≤ 104 then putRw s g l i v else s.fset Fld.DST_STALLSTAT_CODE l 0 cCfgIgnored
  | _ => putReg s g l i v

/-- Every tile of the cluster stands in `RESET` or `HALTED` (R57). -/
def tilesStill (s : State) (ch c : Nat) : Bool :=
  (List.range 64).all fun t =>
    let x := s.fget Fld.TL_STATUS_STATE (tlLoc ch c t)
    decide (x = tReset ∨ x = tHalted)

/-- A write of a cluster register; a fenced cluster takes none (R33). -/
def clPut (r : Requester) (c : Cl) (g : Reg) (i v : Nat) (s : State) : State :=
  let l := clLoc c.ch c.cl
  let w := BitVec.ofNat 64 v
  let n : Fin 32 := Fin.ofNat 32 i
  let q : Fin 16 := Fin.ofNat 16 i
  let h : StwId := ⟨c, Fin.ofNat 2 i⟩
  if clFenced s c.ch c.cl then qErr s c.ch c.cl 0 0 cUnitAbsent
  else match g with
  | .CL_STWn_CTRL => onBit v 2 (execClStwCtrlStep r h) (onBit v 1 (execClStwCtrlResume r h) (onBit v 0 (execClStwCtrlHalt r h) s))
  | .CL_QCFGn => after (execClQcfgWrite r c q w s) s
  | .CL_QCTRLn => onBit v 1 (execClQctrlUnpoison r c q) (onBit v 0 (execClQctrlPoison r c q) s)
  | .CL_SBn_CTRL =>
    onBit v 4 (execClSbCtrlFlush r c n) (onBit v 2 (execClSbCtrlPub r c n) (onBit v 3 (execClSbCtrlRel r c n)
      (onBit v 1 (execClSbCtrlSwap r c n) (onBit v 0 (execClSbCtrlCommit r c n) s))))
  | .CL_SBn_LIVEA | .CL_SBn_LIVEB => sbErr s c.ch c.cl i cCfgIgnored
  | .CL_HTn => after (execClHtWrite r c (Fin.ofNat 256 i) w s) s
  | .CL_EGn => if tilesStill s c.ch c.cl then putRw s g l i v else qErr s c.ch c.cl 0 i cCfgIgnored
  | _ => putReg s g l i v

/-- Heads of a tile's router inputs that follow a route entry keep it as it stands before a write of it (R57). -/
def latchHeads (s : State) (t : TileId) (i : Nat) : State :=
  let e := s.regN .TL_ROUTEn (tlLoc t.c.ch t.c.cl t.t) i
  (List.range 5).foldl (fun s p =>
    match rqHead s t.c.ch t.c.cl t.t p with
    | some f =>
      if f.route.toNat = i then s.setTl t.c.ch t.c.cl t.t fun x =>
        { x with latched := if (SMap.get? x.latched p).isSome then x.latched else SMap.put x.latched p e }
      else s
    | none => s) s

/-- A write of a tile register (R55). -/
def tlPut (r : Requester) (t : TileId) (g : Reg) (i v : Nat) (s : State) : State :=
  let l := tlLoc t.c.ch t.c.cl t.t
  if clFenced s t.c.ch t.c.cl then s
  else match g with
  | .TL_CTRL => onBit v 2 (execTlCtrlStep r t) (onBit v 1 (execTlCtrlResume r t) (onBit v 0 (execTlCtrlHalt r t) s))
  | .TL_RNGSEED => after (execTlRngseedWrite r t (BitVec.ofNat 64 v) s) s
  | .TL_MODE | .TL_ROUTEn | .TL_IMEMn =>
    if tileSt s t = tReset ∨ tileSt s t = tHalted then putRw (if g = .TL_ROUTEn then latchHeads s t i else s) g l i v
    else s.fset Fld.TL_STATUS_CODE l 0 cCfgIgnored
  | _ => putReg s g l i v

/-- A write of a Seal register. -/
def sealPut (r : Requester) (c : Ch) (g : Reg) (i v : Nat) (s : State) : State :=
  match g with
  | .SEAL_CTRL => sealWrite s r c fun s => onBit v 1 (execSealCtrlEnable r c) (onBit v 0 (execSealCtrlDisable r c) s)
  | .SEAL_CFG =>
    sealWrite s r c fun s =>
      let n := v % 2 ^ 13
      if 256 ≤ n ∧ n ≤ 4096 then putRw s g c i v else s.record Fld.SEAL_ERR_CODE Fld.SEAL_ERR_COUNT c cCfgIgnored
  | _ => s

/-- A write of a link end's register. -/
def fdlPut (r : Requester) (k : LinkId) (g : Reg) (i v : Nat) (s : State) : State :=
  match g with
  | .FDL_LINKn_CFG => lkGuard r k s fun s => onBit v 31 (execFdlLinkCfgCommit r k) (putRw s g (lkLoc k) i v)
  | .FDL_LINKn_CTRL =>
    let s := onBit v 1 (execFdlLinkCtrlRetrain r k) (onBit v 0 (execFdlLinkCtrlReneg r k) s)
    if s.fbit Fld.FDL_LINKn_CTRL_TEST (lkLoc k) = bit v 2 then s else after (execFdlLinkCtrlTest r k (bit v 2) s) s
  | _ => s

/-- A write of a Caravan register. -/
def ctPut (r : Requester) (c : Ch) (g : Reg) (i v : Nat) (s : State) : State :=
  let w := BitVec.ofNat 64 v
  match g with
  | .CT_LCCFG => ctGuard r c s fun s => onBit v 31 (execCtLccfgCommit r c) (putRw s g c i v)
  | .CT_PORTn_CFG => ctGuard r c s fun s => onBit v 31 (execCtPortCfgCommit r c (Fin.ofNat 4 i)) (putRw s g c i v)
  | .CT_FLOWSEL => after (execCtFlowselWrite r c w s) s
  | .CT_FLOWCFGw => ctGuard r c s fun s => flowShadow s c i w
  | .CT_FLOWCTRL =>
    onBit v 2 (execCtFlowctrlClose r c) (onBit v 1 (execCtFlowctrlOpen r c) (onBit v 0 (execCtFlowctrlCommit r c) s))
  | .CT_GRPSEL => after (execCtGrpselWrite r c w s) s
  | .CT_GRPCFGw => ctGuard r c s fun s => groupShadow s c i w
  | .CT_GRPCTRL => onBit v 0 (execCtGrpctrlCommit r c) s
  | _ => ctGuard r c s fun s => putRw s g c i v

/-- A write of a function's register. -/
def fnPut (r : Requester) (f : FnId) (g : Reg) (i v : Nat) (s : State) : State :=
  let w := BitVec.ofNat 64 v
  let n : Fin 64 := Fin.ofNat 64 i
  if !mayFn f r then s
  else match g with
  | .VF_GRANTSEL => after (execVfGrantselWrite r f w s) s
  | .VF_WINSEL => after (execVfWinselWrite r f w s) s
  | .VF_RINGn_SQBASE | .VF_RINGn_CQBASE | .VF_RINGn_CFG => if i < fnRings s f then putRw s g f i v else s
  | .VF_RINGn_LIVESQ | .VF_RINGn_LIVECQ | .VF_RINGn_LIVECFG => if i < fnRings s f then ringCode s f i cCfgIgnored else s
  | .VF_RINGn_CTRL =>
    onBit v 2 (execVfRingCtrlDisable r f n) (onBit v 1 (execVfRingCtrlEnable r f n) (onBit v 0 (execVfRingCtrlCommit r f n) s))
  | .VF_EVQ_CTRL =>
    onBit v 2 (execVfEvqCtrlDisable r f) (onBit v 1 (execVfEvqCtrlEnable r f) (onBit v 0 (execVfEvqCtrlCommit r f) s))
  | .VF_SQDB => after (execSubmissionDoorbell f n w s) s
  | .VF_CQDB => after (execCompletionDoorbell f n w s) s
  | .VF_EVQDB => after (execEventQueueDoorbell f w s) s
  | .VF_APa_BASE => after (execVfApBaseWrite r f (Fin.ofNat 4 i) w s) s
  | _ => putReg s g f i v

/-- A register write arms the table entries of the locations it has written clean (R475). -/
def armReg (a : BlockRef) (off : Nat) (g : Reg) (i v : Nat) (s : State) : State :=
  let go (ch : Ch) : State :=
    match SMap.get? s.fcs ch with
    | none => s
    | some fc =>
      if fc.locs.isEmpty ∨ s.regN g (blkLoc a) i ≠ v then s
      else
        let hit (e : LocEnt) : Bool := decide (tgaSpace e.loc = 3) &&
          (ctlAddr ch (tgaOff e.loc)).any fun x => decide (x.blk = a ∧ x.off / 8 = off / 8)
        { s with fcs := SMap.put s.fcs ch { fc with locs := fc.locs.map fun e => if hit e then { e with armed := true } else e } }
  match a with
  | .cl c => go c.ch
  | .tl t => go t.c.ch
  | _ => s

/-- A register written with a whole value: its fields take the value by their access codes, and its own rows act. -/
def regPut (r : Requester) (a : BlockRef) (g : Reg) (i v : Nat) (s : State) : State :=
  match a with
  | .hub => hubPut r g i v s
  | .ch c => chPut r c g i v s
  | .dst d => dstPut r d g i v s
  | .cl c => clPut r c g i v s
  | .tl t => tlPut r t g i v s
  | .seal c => sealPut r c g i v s
  | .fdl l => fdlPut r l g i v s
  | .ct c => ctPut r c g i v s
  | .fn f => fnPut r f g i v s

/-- The lower half that a write of the upper half alone keeps (R9): what its RW fields and record bytes hold, and no bit that
acts. -/
def keptLow (s : State) (g : Reg) (l i : Nat) : Nat :=
  (g.desc.fields.filter fun f => decide (f.acc = .rw ∨ g = .NV_AUTHn)).foldl (fun o f => putBits o f.lo f.w (bits (s.regN g l i) f.lo f.w)) 0 % 2 ^ 32

/-- A write of an entry of a function's MSI-X table. -/
def msixWrite (s : State) (r : Requester) (f off n : Nat) (v : Nat) : Option State :=
  let k := (off - 0x4000) / 16
  if (n ≠ 4 ∧ n ≠ 8) ∨ off % n ≠ 0 ∨ off < 0x4000 ∨ fnVectors s f ≤ k then none
  else if !mayFn f r then some s
  else
    let e := SMap.get (0, 0, 1) (s.fn f).msix k
    let x := putBits (e.1 + e.2.1 * 2 ^ 64 + e.2.2 * 2 ^ 96) (8 * (off % 16)) (8 * n) v
    some (s.setFn f fun h => { h with msix := SMap.put h.msix k (bits x 0 64, bits x 64 32, bits x 96 32) })

/-- A write of the monitor's registers by a writer that has no path to them: it is discarded too (R292). -/
def nfTurned (s : State) (a : RegAddr) (n : Nat) : State :=
  match a.blk with
  | .ch c =>
    match accessPart .ch a.off n with
    | some (g, _, p) =>
      if s.up c ∧ p ≠ .lower ∧ [Reg.CH_NFCFG, .CH_NFCTRL, .CH_LSCALE, .CH_NFWINn_BASE, .CH_NFWINn_CFG].contains g then
        nfCode s c cCfgIgnored
      else s
    | none => s
  | _ => s

/-- A register write (R3, R6, R9). -/
def regWrite (r : Requester) (a : RegAddr) (n v : Nat) (s : State) : State :=
  let h := halfOf s r
  let s := dropHalf s r
  if !reaches s r a.blk then nfTurned s a n
  else if blkShut s a.blk then shutAccess s r a.blk
  else match blkAbsent s a.blk with
  | some c => unitErr s c 0
  | none => match accessPart (blkKind a.blk) a.off n with
    | none =>
      match a.blk with
      | .fn f => (msixWrite s r f a.off n v).getD (badAccess s r a)
      | _ => badAccess s r a
    | some (g, i, p) =>
      match p with
      | .full => armReg a.blk a.off g i (v % 2 ^ g.desc.width) (regPut r a.blk g i (v % 2 ^ g.desc.width) s)
      | .lower => { s with half := ⟨r, g.place (blkLoc a.blk) i, true, v % 2 ^ 32⟩ :: s.half }
      | .upper =>
        let low := match h with
          | some x => if x.place = g.place (blkLoc a.blk) i ∧ x.wr then x.val else keptLow s g (blkLoc a.blk) i
          | none => keptLow s g (blkLoc a.blk) i
        armReg a.blk a.off g i (low + v % 2 ^ 32 * 2 ^ 32) (regPut r a.blk g i (low + v % 2 ^ 32 * 2 ^ 32) s)

/-! ### The commands -/

/-- The block and offset that an offset of a function's BAR0 names (Table 17-1, R372); none where nothing is mapped. The MSI-X
table and pending bits of PF0 stand at the offsets that a VF's have in its block. -/
def barAddr (f : FnId) (o : Nat) : Option RegAddr :=
  if f.val = 0 then
    if o < 0x10000 then some (hubAddr o)
    else if o < 0x14000 then some ⟨.fn f, o - 0x10000⟩
    else if 0x20000 ≤ o ∧ o < 0x20400 then some ⟨.fn f, 0x4000 + (o - 0x20000)⟩
    else if 0x28000 ≤ o ∧ o < 0x28008 then some ⟨.fn f, 0xC000 + (o - 0x28000)⟩
    else if 0x10000000 ≤ o ∧ o < 0x20000000 then
      ctlAddr (Fin.ofNat 4 ((o - 0x10000000) / 0x4000000)) (o % 0x4000000)
    else none
  else if o < 0x10000 then some ⟨.fn f, o⟩
  else none

/-- The block and offset that a register access names; only a function has a BAR0. -/
def placeAddr (r : Requester) (p : RegPlace) : Option RegAddr :=
  match p, r with
  | .blk a, _ => some a
  | .bar0 o, .fn f => barAddr f o
  | .bar0 _, _ | .cfg _, _ => none

/-- An access to a part of BAR0 that maps nothing (R348, R372): in control space it is the channel's, else the hub's. -/
def barMiss (s : State) (r : Requester) (p : RegPlace) : State :=
  let s := dropHalf s r
  match p, r with
  | .bar0 o, .fn f =>
    let c := (o - 0x10000000) / 0x4000000
    if !fnAnswers s f then s
    else if f.val = 0 ∧ 0x10000000 ≤ o ∧ o < 0x20000000 ∧ s.chLive c then
      memErr s c cCfgIgnored (mkTga (ownPkg s) c 3 (o % 0x4000000))
    else hostErr s cCfgIgnored f o
  | _, _ => s

/-! Configuration space (R347, R363, R367, R369, R371) -/

/-- The function has a configuration space: PF0, and the VFs up to NumVFs while VF Enable is set. -/
def cfgExists (s : State) (f : Nat) : Bool := decide (f = 0) || (s.port.vfEnable && decide (f ≤ s.port.numVfs))

/-- Bit of an error in the AER uncorrectable status register; PRESUMED from PCIe (log entry 26). -/
def AerErr.bit : AerErr → Nat
  | .poisoned => 12
  | .timeout => 14
  | .completerAbort => 15
  | .unsupported => 20
  | .internal => 22

/-- The vendor-specific status word (Table 17-6). -/
def vendorStatus (s : State) : Nat :=
  let keeper := decide (s.hub.phase = .keeper)
  s.fget Fld.HUB_OPMODE_MODE + ofBit keeper * 2 ^ 2 +
    (if keeper then cKeeperEntered else s.fget Fld.HUB_HOSTERR_CODE) * 2 ^ 8 + s.fget Fld.HUB_OPMODE_PKG_NUM * 2 ^ 16

/-- What a register of a function's configuration space shows; the SR-IOV and vendor-specific capabilities are PF0's. -/
def cfgView (s : State) (f : Nat) : CfgReg → Nat
  | .classCode => 0x120000
  | .pmControl => if (s.fn f).d3 then 3 else 0
  | .msixControl => (fnVectors s f - 1) % 2 ^ 11 + ofBit (s.fn f).msixMask * 2 ^ 14 + ofBit (s.fn f).msixEn * 2 ^ 15
  | .aerStatus => (s.fn f).aer.foldl (fun a e => putBits a e.bit 1 1) 0
  | .sriovControl => if f = 0 then ofBit s.port.vfEnable else 0
  | .sriovNumVfs => if f = 0 then s.port.numVfs else 0
  | .vendorStatus => if f = 0 then vendorStatus s else 0

/-- A write of a register of a function's configuration space; VF Enable has rows of its own. -/
def cfgPut (s : State) (f : Nat) (v : Nat) : CfgReg → State
  | .pmControl => if bits v 0 2 = 0 ∨ bits v 0 2 = 3 then s.setFn f fun h => { h with d3 := decide (bits v 0 2 = 3) } else s
  | .msixControl => s.setFn f fun h => { h with msixMask := bit v 14, msixEn := bit v 15 }
  | .aerStatus => s.setFn f fun h => { h with aer := h.aer.filter fun e => !bit v e.bit }
  | .classCode | .sriovControl | .sriovNumVfs | .vendorStatus => s

/-- A configuration request of a function: answered once the port is ready (R367), in keeper mode too (R369). -/
def cfgRequest (s : State) (f : Nat) (act : State → State) : State :=
  if s.port.perst then s
  else if !s.port.ready then hostOut s .retry
  else if !cfgExists s f then hostOut s .unsupported
  else act s

/-- `REGISTER_WRITE` (R3, R6, R9, R10, R348) of `n` bytes. -/
def execRegisterWrite (r : Requester) (a : RegPlace) (n : Nat) (v : Word) (s : State) : Host.Outcome State Fault Refusal := .next <|
  match a, r with
  | .cfg c, .fn f => cfgRequest s f fun s => cfgPut s f v.toNat c
  | _, .fn f =>
    if !fnAnswers s f then barRefused (dropHalf s r) f
    else match placeAddr r a with
      | some x => regWrite r x n v.toNat s
      | none => barMiss s r a
  | _, _ => match placeAddr r a with
    | some x => regWrite r x n v.toNat s
    | none => barMiss s r a

/-- `REGISTER_READ` (R3, R6, R9, R348, R564) of `n` bytes: a host's read is answered on its link. -/
def execRegisterRead (r : Requester) (a : RegPlace) (n : Nat) (s : State) : Host.Outcome State Fault Refusal := .next <|
  match a, r with
  | .cfg c, .fn f => cfgRequest s f fun s => hostOut s (.reply (leBytes n (cfgView s f c)) false)
  | _, _ =>
    let (t, v) := match placeAddr r a with
      | some x => regRead r x n s
      | none => (barMiss s r a, 0)
    match r with
    | .fn f =>
      if fnAnswers s f then hostOut t (.reply (leBytes n v) false)
      else if s.port.ready then hostOut (barRefused t f) .unsupported else t
    | _ => t

/-- The register that an address of `REG_READ` names (Table 24-1). -/
def vendorAddr (s : State) (a : Nat) : Option RegAddr :=
  if bit a 63 then some (hubAddr (a % 2 ^ 63))
  else if isOwnPkg s a ∧ tgaSpace a = 3 ∧ s.chPresent (tgaCh a) then ctlAddr (Fin.ofNat 4 (tgaCh a)) (tgaOff a)
  else none

/-- The address names a control-space TGA of this package, or the hub. -/
def vendorOk (s : State) (a width : Nat) : Bool :=
  decide (width = 4 ∨ width = 8) && (bit a 63 || (isOwnPkg s a && decide (tgaSpace a = 3)))

/-- A read for management or debug; an offset that Table 8-3 does not map reads 0 (R172). -/
def vendorRead (s : State) (r : Requester) (a width : Nat) : State × Nat :=
  match vendorAddr s a with
  | some x => regRead r x width s
  | none => (if s.up (tgaCh a) then memErr (dropHalf s r) (tgaCh a) cCfgIgnored a else dropHalf s r, 0)

/-- A write for management or debug. -/
def vendorWrite (s : State) (r : Requester) (a width v : Nat) : State :=
  match vendorAddr s a with
  | some x => regWrite r x width v s
  | none => if s.up (tgaCh a) then memErr (dropHalf s r) (tgaCh a) cCfgIgnored a else dropHalf s r

/-- Registers of a channel that `REG_WRITE` may write (R530). -/
def mgmtMay (a : RegAddr) (n : Nat) : Bool :=
  match a.blk with
  | .hub => true
  | .ch _ => match accessPart .ch a.off n with
    | some (g, _, _) =>
      [Reg.CH_FCLSn, .CH_FINJ, .CH_DLYCFG, .CH_DLYCTRL, .CH_DLYSTAT, .CH_DLYMARK, .CH_DLYSEL, .CH_DLYRECn, .CH_PMCTRL, .CH_PMSELn,
        .CH_PMCn, .CH_PMSNAPn].contains g
    | none => false
  | _ => false

/-- `REG_READ` (R529, R530). -/
def execRegRead (a : Word) (width : Nat) (s : State) : Host.Outcome State Fault Refusal := .next <|
  if vendorOk s a.toNat width then
    let (t, v) := vendorRead s .mgmt a.toNat width
    respond t 0 (leBytes width v)
  else respond s ccInvalid []

/-- `REG_WRITE` (R529, R530, R565). -/
def execRegWrite (a : Word) (width : Nat) (v : Word) (s : State) : Host.Outcome State Fault Refusal := .next <|
  if !vendorOk s a.toNat width then respond s ccInvalid []
  else if (vendorAddr s a.toNat).any fun x => mgmtMay x width then
    respond (vendorWrite s .mgmt a.toNat width v.toNat) 0 []
  else respond (hostErr s cCfgIgnored 0xFF a.toNat) 0 [BitVec.ofNat 8 cCfgIgnored]

/-- `DBGREG_RD` (R541). -/
def execDbgregRd (a : Word) (width : Nat) (s : State) : Host.Outcome State Fault Refusal := .next <|
  jtag s 1 0x20 fun s =>
    if vendorOk s a.toNat width then
      let (t, v) := vendorRead s .jtag a.toNat width
      setTdo t [v]
    else setTdo s []

/-- `DBGREG_WR` (R541, R565). -/
def execDbgregWr (a : Word) (width : Nat) (v : Word) (s : State) : Host.Outcome State Fault Refusal := .next <|
  jtag s 2 0x30 fun s => if vendorOk s a.toNat width then vendorWrite s .jtag a.toNat width v.toNat else s

/-- A word of HBM or of a depot that the debugger may reach. -/
def dbgReach (s : State) (a : Nat) : Bool :=
  decide (a % 8 = 0 ∧ tgaSpace a ≤ 1) && isOwnPkg s a && s.chLive (tgaCh a) && decide (s.hub.phase ≠ .keeper) &&
    offsetOk (some (s.fget Fld.CH_HBMSIZE_SIZE (tgaCh a))) a 8 && !fencedTarget s a &&
    (decide (tgaSpace a = 1) || !(SMap.get [] s.lostLanes (tgaCh a)).contains (granuleLane s (tgaCh a) (tgaOff a / 64)))

/-- A TGA of the Seal unit's block (Table 8-3). -/
def sealTga (a : Nat) : Bool := decide (tgaSpace a = 3 ∧ a % 8 = 0 ∧ 0x20000 ≤ tgaOff a ∧ tgaOff a < 0x30000)

/-- `DBGMEM` (R541): 8 bytes of a depot or of HBM, or of the Seal unit as its block of control space shows it (log entry 79). -/
def execDbgmem (a : Word) (write : Bool) (v : Word) (s : State) : Host.Outcome State Fault Refusal := .next <|
  jtag s 2 0x31 fun s =>
    if sealTga a.toNat ∧ vendorOk s a.toNat 8 then
      if write then vendorWrite s .jtag a.toNat 8 v.toNat
      else
        let (t, x) := vendorRead s .jtag a.toNat 8
        setTdo t [x]
    else if !dbgReach s a.toNat then setTdo s []
    else if write then guardPut s (tgaMem a.toNat) (dBytes 8 v.toNat)
    else setTdo s [dNat (s.readMem (tgaMem a.toNat) 8)]

/-- `DBGHALT` (R541): `HALT` or `RESUME` of a tile or a steward. -/
def execDbghalt (t : HaltTarget) (resume : Bool) (s : State) : Host.Outcome State Fault Refusal := .next <|
  jtag s 2 0x32 fun s =>
    match t with
    | .tile t => after (if resume then execTlCtrlResume .jtag t s else execTlCtrlHalt .jtag t s) s
    | .stw w => after (if resume then execClStwCtrlResume .jtag w s else execClStwCtrlHalt .jtag w s) s

end Sys2Proof.Machine
end

