-- ==== Sys2Proof/Machine/LinkPackets.lean ====
section
/-! DEFINITION. Requests and frames that a Fyast Die Link brings (R402, R411, R412). -/

namespace Sys2Proof.Machine

/-- This end takes requests of a die at a gate site: the field die's end of a site link. -/
def siteEnd (l : LinkId) : Bool := !l.far && decide (l.n.val < 4)

/-- This end takes requests of the hub: the field die's end of its hub link. -/
def hubEnd (l : LinkId) : Bool := !l.far && decide (l.n.val = 4)

/-- The function of a request (R411): a role-3 die's is the one configured, any other's is the packet's. -/
def pktFn (s : State) (l : LinkId) (p : FPkt) : Nat :=
  let e := s.lk l
  if recRole (e.peer.getD 0) = 3 then e.func else p.func

/-- A refusal of the table, recorded for functions that there are. -/
def linkRefused (s : State) (ch f code a : Nat) : State :=
  if code ≠ cRptViolation then s
  else if f ≤ 128 then rptErr s ch f code a
  else ((s.record Fld.CH_RPTERR_CODE Fld.CH_RPTERR_COUNT ch code).fset Fld.CH_RPTERR_FUNC ch 0 f).fset Fld.CH_RPTERRADDR_TGA ch 0 a

/-- A request taken in: refused with its response, or issued in the channel (R411; the remote class of R193). `code` judges a
site's request; the hub's have been judged by the hub. -/
def linkReq (s : State) (l : LinkId) (p : FPkt) (op : ROp) (code : Nat → Nat) : State :=
  let ch := l.ch.val
  let f := pktFn s l p
  let r : Req := { ret := .fdl l.n p.tag, fn := some f, epoch := epochOf s ch, cl := 96, tga := p.addr, op := op, cls := 2,
                   place := .remote }
  let c :=
    if siteEnd l then (if (scrubOf s ch f).isSome then cFlrAborted else code f)
    else if hubEnd l then (if isOwn s ch p.addr then 0 else cUnitAbsent)
    else cUnitAbsent
  if c = 0 then (if siteEnd l then siteReq s ch l.n r else hubReq s ch r)
  else
    let s := if siteEnd l then linkRefused s ch f c p.addr else s
    let s := if holdsSlots p.ptype then freeSlots s l p else s
    match op with
    | .read _ => sendRdataFail s l p.tag c p.addr
    | _ => sendCmpl s l p.tag c 0 false

/-- `MRD` (R402, R411). -/
def execMrd (l : LinkId) (s : State) : Host.Outcome State Fault Refusal := .next <|
  match takePkt s l pMrd with
  | none => s
  | some (p, s) => linkReq s l p (.read p.len) fun f => siteCode s l.ch f false p.addr p.len

/-- `MWR` (R402, R411). -/
def execMwr (l : LinkId) (s : State) : Host.Outcome State Fault Refusal := .next <|
  match takePkt s l pMwr with
  | none => s
  | some (p, s) => linkReq s l p (.write (cleanBytes (pktBytes p))) fun f => siteCode s l.ch f true p.addr p.len

/-- `FDL_QMSG` (R411): the message gets its header here. -/
def execFdlQmsg (l : LinkId) (s : State) : Host.Outcome State Fault Refusal := .next <|
  match takePkt s l pQmsg with
  | none => s
  | some (p, s) =>
    let body := cleanBytes (((p.slots.map fun x => leBytes 16 x).flatten).take p.len)
    if p.len % 8 ≠ 0 then sendCmpl (freeSlots s l p) l p.tag cCfgIgnored 0 false
    else
      let n := (s.lk l).msgs
      let h := mkHdr (qaKind p.addr) (qaHandler p.addr) (p.len / 8) false false 0 (120 + l.n) l.ch (ownPkg s) n
      let s := s.setLk l fun e => { e with msgs := n + 1 }
      linkReq s l p (.msg h body) fun f => siteMsgCode s l.ch f p.addr body

/-- `FDL_SYNC` (R402, R253): an operation, a read or a wait. -/
def execFdlSync (l : LinkId) (s : State) : Host.Outcome State Fault Refusal := .next <|
  match takePkt s l pSync with
  | none => s
  | some (p, s) =>
    match if p.op ≤ 5 then sopOf p.op else none with
    | none => sendCmpl s l p.tag cCfgIgnored 0 false
    | some op => linkReq s l p (.sync op (p.slots.headD 0 % 2 ^ 64)) fun f => siteSyncCode s l.ch f p.addr

/-- `FRAME` (R402): fragments are put together; a whole frame goes to the port at a gate die, and to Caravan Transport at a
field die. -/
def execFdlFrame (l : LinkId) (s : State) : Host.Outcome State Fault Refusal := .next <|
  match takePkt s l pFrame with
  | none => s
  | some (p, s) =>
    let b := (if bit p.op 0 then [] else (s.lk l).frame) ++ pktBytes p
    if !bit p.op 1 then s.setLk l fun e => { e with frame := b }
    else
      let s := s.setLk l fun e => { e with frame := [] }
      let port := 8 * l.n.val + p.addr % 8
      if 4 ≤ l.n.val then s
      else if l.far then s.setCt l.ch fun t => { t with sent := t.sent ++ [(port, b)] }
      else ctReceive l.ch (Fin.ofNat 32 port) b false s

/-- A register access by the master of a hub link, at the field die (R412): value and code. -/
def regAnswer (s : State) (l : LinkId) (p : FPkt) : State × Nat × Nat :=
  let n := if 2 ≤ p.op then 8 else 4
  match ctlAddr l.ch p.addr with
  | none => (memErr s l.ch cCfgIgnored (mkTga (ownPkg s) l.ch 3 p.addr), 0, cCfgIgnored)
  | some a =>
    let code := if (accessPart (blkKind a.blk) a.off n).isSome then 0 else cCfgIgnored
    if p.op = 1 ∨ p.op = 2 then (regWrite .hub a n (p.slots.headD 0 % 2 ^ 64) s, 0, code)
    else
      let (t, v) := regRead .hub a n s
      (t, v, code)

/-- `REG` (R412): the field die answers the hub; a die at a gate site decodes no offset here; a partner never sends one. -/
def execFdlReg (l : LinkId) (s : State) : Host.Outcome State Fault Refusal := .next <|
  match takePkt s l pReg with
  | none => s
  | some (p, s) =>
    if hubEnd l then
      let (t, v, code) := regAnswer s l p
      sendCmpl t l p.tag code v false
    else sendCmpl s l p.tag (if l.far && decide (l.n.val < 4) then cCfgIgnored else cUnitAbsent) 0 false

end Sys2Proof.Machine
end

