-- ==== Sys2Proof/Machine/StwIsa.lean ====
section
/-! DEFINITION. Craong-S instructions: their words (R120, R121, Tables 6-1 to 6-12a), fetch from the depot (R123, R136), and when
a steward issues. -/

namespace Sys2Proof.Machine

/-- The instructions by mnemonic. -/
inductive SMn
  | illegal
  | alu | addi | andi | ori | xori | shi | slti
  | beq | bne | blt | bge | bltu | bgeu | jal | jalr
  | csr | sysc | rett | hret | halt | fenceL | fenceG | fenceI
  | li | lih
  | ldl | stl | ldg | stg
  | dlyIssue | dlyWait | dlyPoll
  | qsnd | qrcv
  | syncRd | syncAdd | syncSet | syncWge | barArv | barWait | barArw
  | takeOpen | takeCommit | takeSquash | takeEnter | takeLeave | takeStat
  | predQ | predU
  | sealConvoy | sealWait | sealPoll | sealCtx | sealHdr
  deriving DecidableEq, Repr

/-- An instruction: its fields, length in bytes and first 32 bits. -/
structure SIns where
  mn : SMn
  rd : Nat
  ra : Nat
  rb : Nat
  fn : Nat
  /-- bytes that a load or store moves -/
  width : Nat
  imm : Int
  len : Nat
  raw : Nat
  deriving DecidableEq, Repr

/-- 32-bit opcodes. -/
def sMn32 (w : Nat) : SMn :=
  let op := bits w 1 6
  let rd := bits w 7 5
  let ra := bits w 12 5
  let rb := bits w 17 5
  let fn := bits w 22 10
  let pick (l : List SMn) : SMn := l.getD fn .illegal
  if op = 0x01 then (if fn ≤ 15 then .alu else .illegal)
  else if 0x02 ≤ op ∧ op ≤ 0x05 then [SMn.addi, .andi, .ori, .xori].getD (op - 2) .illegal
  else if op = 0x06 then (if bits w 25 7 = 0 ∧ bits w 23 2 ≠ 3 then .shi else .illegal)
  else if op = 0x07 then .slti
  else if 0x08 ≤ op ∧ op ≤ 0x17 then [SMn.ldl, .stl, .ldg, .stg].getD ((op - 8) / 4) .illegal
  else if 0x18 ≤ op ∧ op ≤ 0x1D then [SMn.beq, .bne, .blt, .bge, .bltu, .bgeu].getD (op - 0x18) .illegal
  else if op = 0x1E then .jal
  else if op = 0x1F then .jalr
  else if op = 0x20 then (if rb = 0 then .csr else .illegal)
  else if op = 0x21 then
    (if rd = 0 ∧ rb = 0 then pick [.sysc, .rett, .hret, .halt, .fenceL, .fenceG, .fenceI] else .illegal)
  else if op = 0x22 then (if fn < 32 ∧ fn % 16 ≤ 7 then .qsnd else .illegal)
  else if op = 0x23 then (if fn < 32 ∧ ra = 0 then .qrcv else .illegal)
  else if op = 0x24 then pick [.syncRd, .syncAdd, .syncSet, .syncWge, .barArv, .barWait, .barArw]
  else if op = 0x25 then (if fn = 8 then .dlyIssue else pick [.dlyIssue, .dlyWait, .dlyPoll])
  else if op = 0x26 then pick [.takeOpen, .takeCommit, .takeSquash, .takeEnter, .takeLeave, .takeStat]
  else if op = 0x27 then pick [.predQ, .predU]
  else .illegal

/-- 48-bit opcodes. -/
def sMn48 (w : Nat) : SMn :=
  let op := bits w 1 6
  if op = 0x01 then (if bits w 12 4 = 0 then .li else .illegal)
  else if op = 0x02 then (if bits w 12 4 = 0 then .lih else .illegal)
  else if op = 0x30 then
    let sub := bits w 27 5
    let imm := bits w 32 16
    if bits w 22 5 ≠ 0 ∨ (imm ≠ 0 ∧ ¬ (sub = 3 ∧ imm < 16)) then .illegal
    else [SMn.sealConvoy, .sealWait, .sealPoll, .sealCtx, .sealHdr].getD sub .illegal
  else .illegal

/-- The immediate of a 32-bit instruction by its format (Table 6-1). -/
def sImm (w : Nat) : Int :=
  let op := bits w 1 6
  let store := decide (0x0C ≤ op ∧ op ≤ 0x0F) || decide (0x14 ≤ op ∧ op ≤ 0x1D)
  if op = 0x1E then sint 20 (bits w 12 20)
  else if store then sint 15 (bits w 7 5 + bits w 22 10 * 2 ^ 5)
  else sint 15 (bits w 17 15)

/-- The instruction that the 48 bits from its address begin with. -/
def sDecode (w : Nat) : SIns :=
  let short := decide (w % 2 = 0)
  { mn := if short then sMn32 w else sMn48 w
    rd := bits w 7 5
    ra := bits w 12 5
    rb := bits w 17 5
    fn := bits w 22 10
    width := 2 ^ bits w 1 2
    imm := if short then sImm w else if bits w 1 6 = 0x30 then (bits w 32 16 : Nat) else sint 32 (bits w 16 32)
    len := if short then 4 else 6
    raw := bits w 0 32 }

/-! ### Fetch -/

/-- TGA of an offset of the own depot. -/
def localTga (s : State) (ch c a : Nat) : Nat := mkTga (ownPkg s) ch 1 (c * 2 ^ 22 + a)

/-- Bytes of code as the steward's instruction cache shows them (R136), and whether one of them lies in a poisoned word. -/
def codeBytes (s : State) (ch c : Nat) (x : Stw) (n : Nat) : List DByte :=
  (List.range n).map fun i =>
    match SMap.get? x.oldCode (x.pc + i) with
    | some b => (b, false)
    | none => s.dbyteAt (depotAt ch c (x.pc + i))

/-- What a fetch gives: an instruction, or the trap it takes: kind, code, detail. -/
abbrev SFetch := (Nat × Nat × Nat) ⊕ SIns

/-- The instruction at the pc (R120, R123): a fetch outside the depot traps with `RANGE`, a poisoned word as a load does. -/
def stwFetch (s : State) (ch c : Nat) (x : Stw) : SFetch :=
  if depotSize ≤ x.pc then .inl (kRange, cNone, x.pc)
  else
    let i := sDecode (dNat (codeBytes s ch c x 6))
    if depotSize < x.pc + i.len then .inl (kRange, cNone, x.pc)
    else if anyPsn (codeBytes s ch c x i.len) then .inl (kAccess, cEccUncorrected, localTga s ch c x.pc)
    else .inr i

/-! ### Issue -/

/-- Stalls in which a steward tries its instruction again; the others end by what they wait for. -/
def Wait.again : Wait → Bool
  | .none | .qrcv _ | .qsnd | .dolly | .seal => true
  | .syncWge | .reply | .barrier | .load | .take => false

/-- A dispatch comes before the next instruction (R232). -/
def dispatchFirst (s : State) (ch c w : Nat) : Bool :=
  mayDispatch (s.stw ch c w) && (List.range 16).any (dispatchDue s ch c w)

/-- The steward may issue its next instruction, or try a stalled one again: it is clocked, and no halt (R142) or dispatch comes
first. -/
def stwMay (s : State) (ch c w : Nat) : Bool :=
  let x := s.stw ch c w
  let run := decide (x.st = wRun)
  clocked s ch c && (run || (decide (x.st = wStalled) && x.wait.again)) && !dispatchFirst s ch c w &&
    !(s.fbit Fld.CL_STWn_CTRL_HALT (clLoc ch c) w && (run || x.wait.haltable))

/-- Who issues, and what: channel, cluster, steward, the steward's state, the instruction. -/
structure Iss where
  ch : Nat
  c : Nat
  w : Nat
  x : Stw
  i : SIns

/-- One row of the steward's instructions: the steward issues, and the instruction at its pc is the row's. -/
def stwRow (w : StwId) (s : State) (m : SMn) (f : Iss → State → State) : State :=
  let ch := w.c.ch.val
  let c := w.c.cl.val
  let k := w.w.val
  let x := s.stw ch c k
  if !stwMay s ch c k then s
  else
    let t := if x.st = wRun then wakeDistrict s ch (clDistrict c) else s
    match stwFetch s ch c x with
    | .inl (kind, code, detail) => stwExc (setStw t ch c k fun y => { y with ilen := 4 }) ch c k 0 kind code detail
    | .inr i => if i.mn = m then f ⟨ch, c, k, x, i⟩ (setStw t ch c k fun y => { y with ilen := i.len }) else s

/-! What an instruction may do. -/

/-- Operands. -/
def Iss.a (u : Iss) : Nat := u.x.get u.i.ra
def Iss.b (u : Iss) : Nat := u.x.get u.i.rb

/-- It completes, with a result for `RD`. -/
def Iss.done (u : Iss) (s : State) (v : Nat) : State := stwFinish s u.ch u.c u.w u.i.rd v

/-- It completes and writes no register. -/
def Iss.quiet (u : Iss) (s : State) : State := stwFinish s u.ch u.c u.w 0 0

/-- It takes an exception, or is deferred (R134): an instruction that writes `RD` then writes 0. -/
def Iss.exc (u : Iss) (s : State) (rd kind code detail : Nat) : State := stwExc s u.ch u.c u.w rd kind code detail

/-- It stalls. -/
def Iss.stall (u : Iss) (s : State) (why : Wait) : State := stwStall s u.ch u.c u.w why

/-- Under a take it is deferred (Table 6-11). -/
def Iss.held (u : Iss) (s : State) (rd : Nat) (f : State → State) : State :=
  match u.x.take with
  | some k => stwDefer s u.ch u.c u.w k rd kAccess cTakeDeferred
  | none => f s

/-- The steward as a requester. -/
def Iss.id (u : Iss) : StwId := ⟨⟨Fin.ofNat 4 u.ch, Fin.ofNat 96 u.c⟩, Fin.ofNat 2 u.w⟩

/-- Function of a steward's accesses: its cluster's, none for supervisor code (R374). -/
def stwFn (s : State) (ch c w : Nat) : Option Nat := if (s.stw ch c w).prv then none else clFn s ch c

end Sys2Proof.Machine
end

