-- ==== Sys2Proof/Machine/StwInt.lean ====
section
/-! DEFINITION. Craong-S integer, control, special-register and system instructions (R121 to R123, R127, R128, R136, R138,
R140). -/

namespace Sys2Proof.Machine

/-- An illegal instruction traps, under a take as well (R121). -/
def stwIllegal (u : Iss) (s : State) : State := stwTrap s u.ch u.c u.w kIllegal cUnitAbsent u.i.raw

/-- `ILLEGAL_INSTRUCTION` (R121). -/
def execIllegalInstruction (w : StwId) (s : State) : Host.Outcome State Fault Refusal := .next <| stwRow w s .illegal stwIllegal

/-! ### Integer (Table 6-2) -/

/-- Comparisons and shifts of 64-bit values. -/
def lt64 (a b : Nat) : Bool := decide (sint 64 a < sint 64 b)
def sra64 (a n : Nat) : Nat := uint 64 (sint 64 a / (2 ^ n : Nat))

/-- `ALU` by `FN`; the result is taken modulo 2^64. -/
def aluOp (fn a b : Nat) : Nat :=
  match fn with
  | 0 => a + b
  | 1 => a + 2 ^ 64 - b
  | 2 => a &&& b
  | 3 => a ||| b
  | 4 => a ^^^ b
  | 5 => a <<< (b % 64)
  | 6 => a >>> (b % 64)
  | 7 => sra64 a (b % 64)
  | 8 => ofBit (lt64 a b)
  | 9 => ofBit (decide (a < b))
  | 10 => a * b
  | 11 => a * b / 2 ^ 64
  | 12 => if lt64 a b then a else b
  | 13 => if lt64 a b then b else a
  | 14 => min a b
  | _ => max a b

/-- An immediate as a 64-bit value. -/
def Iss.imm (u : Iss) : Nat := uint 64 u.i.imm

/-- `ALU`. -/
def execSAlu (w : StwId) (s : State) : Host.Outcome State Fault Refusal := .next <| stwRow w s .alu fun u s => u.done s (aluOp u.i.fn u.a u.b)

/-- `ADDI`. -/
def execSAddi (w : StwId) (s : State) : Host.Outcome State Fault Refusal := .next <| stwRow w s .addi fun u s => u.done s (u.a + u.imm)

/-- `ANDI`. -/
def execSAndi (w : StwId) (s : State) : Host.Outcome State Fault Refusal := .next <| stwRow w s .andi fun u s => u.done s (u.a &&& u.imm)

/-- `ORI`. -/
def execSOri (w : StwId) (s : State) : Host.Outcome State Fault Refusal := .next <| stwRow w s .ori fun u s => u.done s (u.a ||| u.imm)

/-- `XORI`. -/
def execSXori (w : StwId) (s : State) : Host.Outcome State Fault Refusal := .next <| stwRow w s .xori fun u s => u.done s (u.a ^^^ u.imm)

/-- `SHI`: `IMM`[5:0] the amount, `IMM`[7:6] the kind. -/
def shiOp (raw a : Nat) : Nat :=
  let n := bits raw 17 6
  match bits raw 23 2 with
  | 0 => a <<< n
  | 1 => a >>> n
  | _ => sra64 a n

/-- `SHI`. -/
def execSShi (w : StwId) (s : State) : Host.Outcome State Fault Refusal := .next <| stwRow w s .shi fun u s => u.done s (shiOp u.i.raw u.a)

/-- `SLTI`. -/
def execSSlti (w : StwId) (s : State) : Host.Outcome State Fault Refusal := .next <| stwRow w s .slti fun u s => u.done s (ofBit (decide (sint 64 u.a < u.i.imm)))

/-- `LI`. -/
def execSLi (w : StwId) (s : State) : Host.Outcome State Fault Refusal := .next <| stwRow w s .li fun u s => u.done s u.imm

/-- `LIH`. -/
def execSLih (w : StwId) (s : State) : Host.Outcome State Fault Refusal := .next <|
  stwRow w s .lih fun u s => u.done s (u.x.get u.i.rd % 2 ^ 32 + uint 32 u.i.imm * 2 ^ 32)

/-! ### Branches and jumps -/

/-- pc + 2 × `IMM`. -/
def Iss.target (u : Iss) : Nat := uint 22 ((u.x.pc : Int) + 2 * u.i.imm)

/-- A branch on a condition. -/
def branchOn (u : Iss) (s : State) (p : Bool) : State :=
  if p then stwJump s u.ch u.c u.w 0 0 u.target else u.quiet s

/-- `BEQ`. -/
def execSBeq (w : StwId) (s : State) : Host.Outcome State Fault Refusal := .next <| stwRow w s .beq fun u s => branchOn u s (decide (u.a = u.b))

/-- `BNE`. -/
def execSBne (w : StwId) (s : State) : Host.Outcome State Fault Refusal := .next <| stwRow w s .bne fun u s => branchOn u s (decide (u.a ≠ u.b))

/-- `BLT`. -/
def execSBlt (w : StwId) (s : State) : Host.Outcome State Fault Refusal := .next <| stwRow w s .blt fun u s => branchOn u s (lt64 u.a u.b)

/-- `BGE`. -/
def execSBge (w : StwId) (s : State) : Host.Outcome State Fault Refusal := .next <| stwRow w s .bge fun u s => branchOn u s (!lt64 u.a u.b)

/-- `BLTU`. -/
def execSBltu (w : StwId) (s : State) : Host.Outcome State Fault Refusal := .next <| stwRow w s .bltu fun u s => branchOn u s (decide (u.a < u.b))

/-- `BGEU`. -/
def execSBgeu (w : StwId) (s : State) : Host.Outcome State Fault Refusal := .next <| stwRow w s .bgeu fun u s => branchOn u s (decide (u.b ≤ u.a))

/-- `JAL`. -/
def execSJal (w : StwId) (s : State) : Host.Outcome State Fault Refusal := .next <| stwRow w s .jal fun u s => stwJump s u.ch u.c u.w u.i.rd (u.x.pc + 4) u.target

/-- `JALR`: bit 0 of the target is cleared. -/
def execSJalr (w : StwId) (s : State) : Host.Outcome State Fault Refusal := .next <|
  stwRow w s .jalr fun u s => stwJump s u.ch u.c u.w u.i.rd (u.x.pc + 4) ((u.a + u.imm) / 2 * 2)

/-! ### Special registers (Table 6-12) -/

/-- A register's number. -/
def csrPc : Nat := 0x00
def csrTake : Nat := 0x01
def csrFcause : Nat := 0x02
def csrFdetail : Nat := 0x03
def csrEpc : Nat := 0x04
def csrTvec : Nat := 0x05
def csrPriv : Nat := 0x06
def csrSerr : Nat := 0x07
def csrCycle : Nat := 0x08
def csrInstret : Nat := 0x09
def csrHepc : Nat := 0x0A
def csrSid : Nat := 0x0B
def csrDlyerr : Nat := 0x0C
def csrSscratch : Nat := 0x0D

/-- Registers that only the channel supervisor reads; that it alone writes; that nobody writes. -/
def csrReadS (n : Nat) : Bool := decide (n = csrEpc ∨ n = csrTvec ∨ n = csrSscratch)
def csrWriteS (n : Nat) : Bool :=
  decide (n = csrFcause ∨ n = csrFdetail ∨ n = csrEpc ∨ n = csrTvec ∨ n = csrPriv ∨ n = csrHepc ∨ n = csrSscratch)
def csrFixed (n : Nat) : Bool := decide (n = csrPc ∨ n = csrTake ∨ n = csrCycle ∨ n = csrInstret ∨ n = csrSid)

/-- `take`: register, slot, and the slot's first deferred exception. -/
def csrTakeView (s : State) (ch c : Nat) (x : Stw) : Nat :=
  match x.take with
  | none => 0
  | some k => 1 + k.val * 2 + (match (takeSlot s ch c k).rec? with
    | some r => 2 ^ 3 + r.code % 2 ^ 8 * 2 ^ 4 + r.kind % 2 ^ 8 * 2 ^ 12
    | none => 0)

/-- What a special register reads as. The district's cycles are a free value: the model has no clock (log entry 11). -/
def csrGet (u : Iss) (s : State) (n : Nat) : Nat :=
  let x := u.x
  if n = csrPc then x.pc
  else if n = csrTake then csrTakeView s u.ch u.c x
  else if n = csrFcause then x.fcause
  else if n = csrFdetail then x.fdetail
  else if n = csrEpc then x.epc
  else if n = csrTvec then x.tvec
  else if n = csrPriv then ofBit x.prv + ofBit x.pprv * 2 + ofBit x.intrap * 4 + ofBit x.arvDone * 8
  else if n = csrSerr then x.serr.1 + x.serr.2 * 2 ^ 8
  else if n = csrCycle then s.now
  else if n = csrInstret then x.instret % 2 ^ 64
  else if n = csrHepc then x.hepc
  else if n = csrSid then u.w + u.c * 2 + u.ch * 2 ^ 8 + ownPkg s * 2 ^ 16
  else if n = csrDlyerr then x.dlyerr.1 + x.dlyerr.2 * 2 ^ 8
  else x.sscratch.toNat

/-- A special register written: the width Table 6-12 gives it. -/
def csrPut (x : Stw) (n v : Nat) : Stw :=
  if n = csrFcause then { x with fcause := v % 2 ^ 16 }
  else if n = csrFdetail then { x with fdetail := v % 2 ^ 64 }
  else if n = csrEpc then { x with epc := v % 2 ^ 22 }
  else if n = csrTvec then { x with tvec := v % 2 ^ 22 / 2 * 2 }
  else if n = csrPriv then { x with prv := bit v 0, pprv := bit v 1, intrap := bit v 2, arvDone := bit v 3 }
  else if n = csrSerr then { x with serr := (0, 0) }
  else if n = csrHepc then { x with hepc := v % 2 ^ 22 }
  else if n = csrDlyerr then { x with dlyerr := (0, 0) }
  else if n = csrSscratch then { x with sscratch := BitVec.ofNat 64 v }
  else x

/-- The value a `CSR` writes: write, set, clear. -/
def csrNew (op old a : Nat) : Nat := if op = 1 then a else if op = 2 then old ||| a else old &&& (2 ^ 64 - 1 - a)

/-- A `CSR` that is allowed. -/
def csrAct (u : Iss) (s : State) (op n : Nat) : State :=
  let v := csrGet u s n
  let s := if n = csrCycle then s.took else s
  let s := if op = 0 then s else setStw s u.ch u.c u.w fun x => csrPut x n (csrNew op v u.a)
  u.done s v

/-- `CSR` (R127, R140): an absent number traps with `PRIVILEGE` from user code, and is illegal from supervisor code, which finds
the number nowhere listed (R121). -/
def execSCsr (w : StwId) (s : State) : Host.Outcome State Fault Refusal := .next <|
  stwRow w s .csr fun u s =>
    let op := u.i.fn % 4
    let n := u.i.fn / 4
    let user := !u.x.prv
    if csrSscratch < n ∧ ¬ user then stwIllegal u s
    else if csrSscratch < n ∨ (op = 0 ∧ user ∧ csrReadS n) ∨ (op ≠ 0 ∧ (csrFixed n ∨ (user ∧ csrWriteS n))) then
      u.exc s u.i.rd kPrivilege cNone u.i.raw
    else if op = 0 then csrAct u s op n
    else u.held s u.i.rd fun s => csrAct u s op n

/-! ### System -/

/-- `SYSC`. -/
def execSSysc (w : StwId) (s : State) : Host.Outcome State Fault Refusal := .next <| stwRow w s .sysc fun u s => u.exc s 0 kSyscall cNone u.a

/-- `RETT` (R127, R128). -/
def execSRett (w : StwId) (s : State) : Host.Outcome State Fault Refusal := .next <|
  stwRow w s .rett fun u s =>
    if u.x.prv then
      u.held s 0 fun s => stwJump (setStw s u.ch u.c u.w fun x => { x with prv := x.pprv, intrap := false }) u.ch u.c u.w 0 0 u.x.epc
    else u.exc s 0 kPrivilege cNone u.i.raw

/-- `HRET` (R136, R234): the message that caused the dispatch goes, if it is still queued; a poisoned queue keeps it (R240). -/
def execSHret (w : StwId) (s : State) : Host.Outcome State Fault Refusal := .next <|
  stwRow w s .hret fun u s =>
    match u.x.inh with
    | none => stwIllegal u s
    | some (q, _) =>
      u.held s 0 fun s =>
        let s := if u.x.inMsg && !qPsn s u.ch u.c q then dequeue s u.ch u.c q else s
        stwJump (setStw s u.ch u.c u.w fun x => { x with inh := none, inMsg := false }) u.ch u.c u.w 0 0 u.x.hepc

/-- `HALT`: a request that is pending is answered with it. -/
def execSHalt (w : StwId) (s : State) : Host.Outcome State Fault Refusal := .next <|
  stwRow w s .halt fun u s =>
    u.held s 0 fun s =>
      let s := (u.quiet s).fset Fld.CL_STWn_CTRL_HALT (clLoc u.ch u.c) u.w 0
      setStw s u.ch u.c u.w fun x => { x with st := wHalted }

/-- `FENCE.L` (R138): a local store is visible when it completes. -/
def execSFenceL (w : StwId) (s : State) : Host.Outcome State Fault Refusal := .next <| stwRow w s .fenceL fun u s => u.quiet s

/-- `FENCE.G` (R138): stores and sends held in the pen are not awaited. -/
def execSFenceG (w : StwId) (s : State) : Host.Outcome State Fault Refusal := .next <|
  stwRow w s .fenceG fun u s =>
    if u.x.posted ≠ 0 then u.stall s .none
    else if u.x.serr.2 ≠ 0 then u.exc s 0 kPosted u.x.serr.1 u.x.serr.2
    else u.quiet s

/-- `FENCE.I` (R136). -/
def execSFenceI (w : StwId) (s : State) : Host.Outcome State Fault Refusal := .next <|
  stwRow w s .fenceI fun u s => u.quiet (setStw s u.ch u.c u.w fun x => { x with oldCode := [] })

end Sys2Proof.Machine
end

