-- ==== Sys2Proof/Machine/StwMem.lean ====
section
/-! DEFINITION. Craong-S loads, stores and messages (R124 to R126, R131, R134, R137, R175, R196, R226, R231, R276, R279, R280). -/

namespace Sys2Proof.Machine

/-! ### The own depot -/

/-- Address of a local access (R124). -/
def Iss.local_ (u : Iss) (r : Nat) : Nat := uint 22 ((r : Int) + u.i.imm)

/-- A store of this steward to its own depot by TGA is still on its way to a 64-byte granule of the range (R137, R196). -/
def ownStoreDue (s : State) (u : Iss) (a n : Nat) : Bool :=
  (s.chan u.ch).reqs.any fun r =>
    decide (r.ret = .posted (stwNo u.c u.w) ∧ r.place ≠ .done) && r.isWrite && ownDepot s u.ch r &&
      decide (tgaOff r.tga % 2 ^ 22 / 64 ≤ (a + n - 1) / 64 ∧ a / 64 ≤ (tgaOff r.tga % 2 ^ 22 + r.len - 1) / 64)

/-- A local address checked (R124): it may be used, or the instruction traps. -/
def localCheck (u : Iss) (s : State) (rd a n align : Nat) (f : State → State) : State :=
  if a % align ≠ 0 then u.exc s rd kMisaligned cNone a
  else if depotSize < a + n then u.exc s rd kRange cNone a
  else f s

/-- The key of a steward's local store at the write guard. -/
def Iss.key (u : Iss) : Nat × Nat × Nat := (0, u.c, u.w)

/-- A local store that the steward has asked for has not been answered yet. -/
def Iss.storing (u : Iss) (s : State) : Bool := askedStore s u.ch u.key

/-- A store of the steward into its own depot has to wait: for the WRITES gate (R159), or for an earlier store (R196). -/
def localWaits (s : State) (u : Iss) (a n : Nat) : Bool := !gateWr s u.ch u.c || ownStoreDue s u a n

/-- A store of the steward into its own depot, and what follows it, once it is performed; the steward waits while the write guard
holds it (R299). `go` is told the number of its bytes. -/
def localStore (s : State) (u : Iss) (a : Nat) (bs : List DByte) (go : State → Nat → State) : State :=
  if depotCopies s u.ch u.c a bs.length then u.stall s .none
  else match guardStore (if u.storing s then s else keepCode s u.ch u.c u.w a bs.length) u.key (depotAt u.ch u.c a) bs with
  | (t, none) => u.stall t .none
  | (t, some (_, n)) => go t n

/-- `LDL`. -/
def execSLdl (w : StwId) (s : State) : Host.Outcome State Fault Refusal := .next <|
  stwRow w s .ldl fun u s =>
    let a := u.local_ u.a
    localCheck u s u.i.rd a u.i.width u.i.width fun s =>
      if ownStoreDue s u a u.i.width || depotCopies s u.ch u.c a u.i.width then u.stall s .none
      else
        let bs := s.readMem (depotAt u.ch u.c a) u.i.width
        if anyPsn bs then u.exc s u.i.rd kAccess cEccUncorrected (localTga s u.ch u.c a) else u.done s (dNat bs)

/-- A pen record of a steward under slot `k` (R276, R279): under a closed slot, or with no entry free, the instruction is
deferred. -/
def penRec (u : Iss) (s : State) (k : Fin 4) (rd : Nat) (r : PenRec) (f : State → State) : State :=
  if !takeOpen s u.ch u.c k || penFull s u.ch u.c then stwDefer s u.ch u.c u.w k rd kAccess cTakeDeferred
  else f (penPut s u.ch u.c k r)

/-- `STL`; under a take the bytes it overwrites are logged for undo (Table 13-1). -/
def execSStl (w : StwId) (s : State) : Host.Outcome State Fault Refusal := .next <|
  stwRow w s .stl fun u s =>
    let a := u.local_ u.a
    let n := u.i.width
    localCheck u s 0 a n n fun s =>
      let store (s : State) : State := localStore s u a (dBytes n u.b) fun s _ => u.quiet s
      if u.storing s then store s
      else if localWaits s u a n then u.stall s .none
      else match u.x.take with
        | none => store s
        | some k => penRec u s k 0 (.undo a (s.readMem (depotAt u.ch u.c a) n)) store

/-! ### Control space of the own channel (R6) -/

def ctlWidth (n : Nat) : Bool := decide (n = 4 ∨ n = 8)

/-- An access of a steward that names no register: recorded. -/
def ctlBad (s : State) (r : StwId) (a : Nat) : State := ctlRefused (dropHalf s (.stw r)) (.stw r) a

def ctlStore (s : State) (r : StwId) (ch a : Nat) (bs : List DByte) : State :=
  match ctlAddr (Fin.ofNat 4 ch) (tgaOff a) with
  | some x => if ctlWidth bs.length then regWrite (.stw r) x bs.length (dNat bs) s else ctlBad s r a
  | none => ctlBad s r a

def ctlLoad (s : State) (r : StwId) (ch a n : Nat) : State × Nat :=
  match ctlAddr (Fin.ofNat 4 ch) (tgaOff a) with
  | some x => if ctlWidth n then regRead (.stw r) x n s else (ctlBad s r a, 0)
  | none => (ctlBad s r a, 0)

def ownCtl (s : State) (ch a : Nat) : Bool := decide (tgaSpace a = 3) && isOwn s ch a

/-! ### Global loads (R125) -/

/-- Address of a global access. -/
def Iss.tga (u : Iss) : Nat := uint 64 ((u.a : Int) + u.i.imm)

/-- The bytes overlap a store that the steward holds in the pen under the slot (R280). -/
def penOverlap (s : State) (u : Iss) (k : Fin 4) (a n : Nat) : Bool :=
  (s.clu u.ch u.c).pen.any fun p => decide (p.1 = k) && (match p.2 with
    | .store w t d => decide (w = u.w ∧ t < a + n ∧ a < t + d.length)
    | _ => false)

/-- A global load of `n` bytes at a TGA; it stalls until `GLOBAL_LOAD_RETURN`. -/
def globalLoad (u : Iss) (s : State) (a n : Nat) : State :=
  let fn := stwFn s u.ch u.c u.w
  let code := accessCode s u.ch fn false a n
  if a % n ≠ 0 then u.exc s u.i.rd kMisaligned cNone a
  else if u.x.take.any fun k => penOverlap s u k a n then u.exc s u.i.rd kAccess cTakeDeferred a
  else if code ≠ 0 then u.exc (refusedBy s u.ch fn code a) u.i.rd kAccess code a
  else if ownCtl s u.ch a then
    let (s, v) := ctlLoad s u.id u.ch a n
    u.done s v
  else
    u.stall (issueReq s u.ch
      { ret := .load (stwNo u.c u.w) u.i.rd, fn := fn, epoch := epochOf s u.ch, cl := u.c, tga := a, op := .read n,
        cls := if isOwn s u.ch a then 0 else 2, place := .table }) .load

/-- `LDG`. -/
def execSLdg (w : StwId) (s : State) : Host.Outcome State Fault Refusal := .next <| stwRow w s .ldg fun u s => globalLoad u s u.tga u.i.width

/-- A request of a steward whose outcome is back. -/
def stwBack (s : State) (ch : Nat) (p : RetTo → Bool) : Option Req :=
  (s.chan ch).reqs.find? fun r => decide (r.place = .done) && p r.ret

/-- `GLOBAL_LOAD_RETURN` (R125, Table 8-4). -/
def execGlobalLoadReturn (w : StwId) (s : State) : Host.Outcome State Fault Refusal := .next <|
  let ch := w.c.ch.val
  let c := w.c.cl.val
  let k := w.w.val
  match stwBack s ch fun t => match t with | .load n _ => decide (n = stwNo c k) | _ => false with
  | none => s
  | some r =>
    if !clocked s ch c then s
    else
      let rd := match r.ret with | .load _ rd => rd | _ => 0
      let s := dropReq s ch r.no
      if !codeOk r.code then stwExc s ch c k rd kAccess r.code r.tga
      else if anyPsn r.data then stwExc s ch c k rd kAccess cEccUncorrected r.tga
      else stwFinish s ch c k rd (dNat r.data)

/-! ### Posted operations (R126) -/

/-- Stores and sends of a steward that may be unacknowledged. -/
def postedMax : Nat := 32

def postedFull (s : State) (ch c w : Nat) : Bool := decide (postedMax ≤ (s.stw ch c w).posted)

/-- A request of a steward that is posted and counted. -/
def postReq (s : State) (ch c w : Nat) (fn : Option Nat) (a : Nat) (op : ROp) : State :=
  issueReq (setStw s ch c w fun x => { x with posted := x.posted + 1 }) ch
    { ret := .posted (stwNo c w), fn := fn, epoch := epochOf s ch, cl := c, tga := a, op := op,
      cls := if isOwn s ch a then 1 else 2, place := .table }

/-- A posted operation that fails at issue. -/
def postFail (s : State) (ch c w : Nat) (fn : Option Nat) (code a : Nat) : State := stwPostErr (refusedBy s ch fn code a) ch c w code

/-- A global store issued. -/
def postStore (s : State) (ch c w a : Nat) (bs : List DByte) : State :=
  let fn := stwFn s ch c w
  let code := accessCode s ch fn true a bs.length
  if code ≠ 0 then postFail s ch c w fn code a
  else if ownCtl s ch a then ctlStore s ⟨⟨Fin.ofNat 4 ch, Fin.ofNat 96 c⟩, Fin.ofNat 2 w⟩ ch a bs
  else postReq s ch c w fn a (.write bs)

/-- A global store has to wait: for an acknowledgement (R126), or, to a register, for the steward's earlier stores (R210). -/
def storeWaits (s : State) (ch c w a : Nat) : Bool :=
  postedFull s ch c w || (ownCtl s ch a && storesLeft s ch (stwNo c w))

/-- `STG`. -/
def execSStg (w : StwId) (s : State) : Host.Outcome State Fault Refusal := .next <|
  stwRow w s .stg fun u s =>
    let a := u.tga
    let bs := dBytes u.i.width u.b
    if a % u.i.width ≠ 0 then u.exc s 0 kMisaligned cNone a
    else match u.x.take with
      | some k => penRec u s k 0 (.store u.w a bs) fun s => u.quiet s
      | none => if storeWaits s u.ch u.c u.w a then u.stall s .none else postStore (u.quiet s) u.ch u.c u.w a bs

/-- Send buffers of a steward that hold a message: it has not left the gateway (R226). -/
def sendBufs (s : State) (ch c w : Nat) : Nat :=
  (s.chan ch).reqs.countP fun r =>
    decide (r.ret = .posted (stwNo c w)) && (match r.op with | .msg _ _ => true | _ => false) &&
      decide (r.place = .gate ∨ r.place = .table ∨ r.place = .mesh c 8)

/-- A message of a steward issued (R221, R226): a body with a poisoned word is sent as read. -/
def postSend (s : State) (ch c w dst : Nat) (body : List DByte) : State :=
  let fn := stwFn s ch c w
  let code := sendCode s ch fn dst body
  if code ≠ 0 then postFail s ch c w fn code dst
  else
    let n := cnt (s.clu ch c).seqs w
    let s := s.setClu ch c fun k => { k with seqs := setCnt k.seqs w ((n + 1) % 2 ^ 16) }
    let h := mkHdr (qaKind dst) (qaHandler dst) (body.length / 8) (anyPsn body) false w c ch (ownPkg s) n
    postReq s ch c w fn dst (.msg h body)

def sendWaits (s : State) (ch c w : Nat) : Bool := postedFull s ch c w || decide (4 ≤ sendBufs s ch c w)

/-- `QSND` (R131, R226): with `NB` it answers 1 in place of stalling. -/
def execSQsnd (w : StwId) (s : State) : Host.Outcome State Fault Refusal := .next <|
  stwRow w s .qsnd fun u s =>
    let n := 8 * (u.i.fn % 16 + 1)
    let la := u.b % 2 ^ 22
    localCheck u s u.i.rd la n 8 fun s =>
      if ownStoreDue s u la n then u.stall s .qsnd
      else
        let body := s.readMem (depotAt u.ch u.c la) n
        match u.x.take with
        | some k => penRec u s k u.i.rd (.send u.w u.a (n / 8) body) fun s => u.done s 0
        | none =>
          if sendWaits s u.ch u.c u.w then (if bit u.i.fn 4 then u.done s 1 else u.stall s .qsnd)
          else postSend (u.done s 0) u.ch u.c u.w u.a body

/-- `POSTED_ACK_RETURN` (R126, R247): posted sync operations are not counted. -/
def execPostedAckReturn (w : StwId) (s : State) : Host.Outcome State Fault Refusal := .next <|
  let ch := w.c.ch.val
  let c := w.c.cl.val
  let k := w.w.val
  match stwBack s ch fun t => decide (t = .posted (stwNo c k)) with
  | none => s
  | some r =>
    if !clocked s ch c then s
    else
      let s := dropReq s ch r.no
      let s := sbDueRun s ch c k
      let s := match r.op with
        | .sync _ _ => s
        | _ => setStw s ch c k fun x => { x with posted := x.posted - 1 }
      if codeOk r.code then s else stwPostErr s ch c k r.code

/-! ### Receiving (R231) -/

/-- The other steward has waited longer in `QRCV` for the queue. -/
def qrcvBehind (s : State) (u : Iss) (q : Nat) : Bool :=
  qWaits s u.ch u.c q (1 - u.w) &&
    (!qWaits s u.ch u.c q u.w || decide ((s.stw u.ch u.c (1 - u.w)).waitNo < (s.stw u.ch u.c u.w).waitNo))

/-- The steward begins to wait, or waits on. -/
def qrcvStall (u : Iss) (s : State) (q : Nat) : State :=
  if qWaits s u.ch u.c q u.w then s
  else
    let n := (s.clu u.ch u.c).waits
    let s := s.setClu u.ch u.c fun k => { k with waits := n + 1 }
    setStw (u.stall s (.qrcv q)) u.ch u.c u.w fun x => { x with waitNo := n }

/-- `QRCV` outside a take: the message leaves the queue with the store of its body, for which the guard may make the steward wait. -/
def qrcv (u : Iss) (s : State) : State :=
  if u.storing s then localStore s u 0 [] u.done else
  let q := u.i.fn % 16
  let la := u.b % 2 ^ 22
  let m := qMode s u.ch u.c q
  let mine := decide (u.x.inh.map Prod.fst = some q)
  if la % 8 ≠ 0 then u.exc s u.i.rd kMisaligned cNone la
  else if m = qOff ∨ (m = qDispatch ∧ ¬ mine) then u.exc s u.i.rd kAccess cCfgIgnored q
  else if qPsn s u.ch u.c q then u.exc s u.i.rd kAccess cQueuePoison q
  else match queue s u.ch u.c q with
    | [] => if bit u.i.fn 4 then u.done s 0 else qrcvStall u s q
    | e :: _ =>
      if depotSize < la + e.body.length then u.exc s u.i.rd kRange cNone la
      else if qrcvBehind s u q then (if bit u.i.fn 4 then u.done s 0 else qrcvStall u s q)
      else if localWaits s u la e.body.length then qrcvStall u s q
      else
        let s := dequeue s u.ch u.c q
        let s := setStw s u.ch u.c u.w fun x => if mine then { x with inMsg := false } else x
        localStore s u la e.body u.done

/-- `QRCV` (R131, R231). -/
def execSQrcv (w : StwId) (s : State) : Host.Outcome State Fault Refusal := .next <| stwRow w s .qrcv fun u s => u.held s u.i.rd (qrcv u)

end Sys2Proof.Machine
end

