-- ==== Sys2Proof/Machine/StwTake.lean ====
section
/-! DEFINITION. Craong-S take and predictor instructions, and commits and squashes in progress (R133, R134, R145, R275 to R285,
R289). -/

namespace Sys2Proof.Machine

/-! ### Commit (R281, R282) -/

/-- A record of the committed slot `k` leaves the pen; none where it has to wait at its target. One whose metadata is lost is not released
(R291). -/
def releaseRec (s : State) (ch c k : Nat) (r : PenRec) : Option State :=
  match r with
  | .flit p f =>
    if 8 ≤ (lst (s.clu ch c).relq p).length then none
    else some (s.setClu ch c fun k => { k with relq := setLst k.relq p (lst k.relq p ++ [{ f with spec := false, take := 0 }]) })
  | .store w a bs => if storeWaits s ch c w a then none else some (postStore s ch c w a bs)
  | .send w dst _ body => if sendWaits s ch c w then none else some (postSend s ch c w dst body)
  | .undo _ _ | .lost (some _) => some s
  | .lost none => some (deferRec s.took ch c k ⟨cEccUncorrected, kAccess, (Config.penPc s.free).toNat⟩)

/-- Records of the slot that the action commits leave in their order, as far as they may. -/
def releaseRecs : Nat → State → Nat → Nat → State
  | 0, s, _, _ => s
  | n + 1, s, ch, c =>
    match (s.clu ch c).act with
    | none => s
    | some a =>
      match (s.clu ch c).pen.find? fun p => decide (p.1.val = a.slot) with
      | none => s
      | some (_, r) =>
        match releaseRec s ch c a.slot r with
        | none => s
        | some s =>
          let out := match r with | .undo _ _ | .lost _ => 0 | _ => 1
          releaseRecs n (s.setClu ch c fun k =>
            { k with pen := k.pen.eraseP fun p => decide (p.1.val = a.slot), act := k.act.map fun x => { x with n := x.n + out } }) ch c

/-- Steps 5 to 7 of a commit, once no record is left; a recorded exception then traps the steward at the next instruction (R133,
R128). -/
def commitEnd (s : State) (ch c : Nat) (a : TakeAct) : State :=
  let slot : Fin 4 := Fin.ofNat 4 a.slot
  let rec? := (takeSlot s ch c slot).rec?
  let s := s.setClu ch c fun k =>
    { k with slots := k.slots.map fun p => (p.1, if p.2.take = some slot then { p.2 with take := none } else p.2),
             act := none, shut := false }
  let s := (List.range 32).foldl (sbCommit ch c slot) s
  let s := (setTake s ch c slot fun _ => {}).fadd Fld.CL_TAKESTAT_COMMITS (clLoc ch c) 0 1
  let s := dlyRecord s ch 4 0 c slot.val a.n
  match rec? with
  | none => stwFinish s ch c a.w a.rd 0
  | some r =>
    let s := setStw s ch c a.w fun x => { x.put a.rd 0 with instret := x.instret + 1 }
    stwTrap s ch c a.w kDeferred cTakeDeferred (r.code % 2 ^ 8 + r.kind % 2 ^ 8 * 2 ^ 8 + r.pc % 2 ^ 22 * 2 ^ 16 + slot.val * 2 ^ 38)

/-- A commit in progress goes on. -/
def commitGo (s : State) (ch c : Nat) : State :=
  let s := releaseRecs ((s.clu ch c).pen.length + 1) s ch c
  match (s.clu ch c).act with
  | none => s
  | some a => if (s.clu ch c).pen.any fun p => decide (p.1.val = a.slot) then s else commitEnd s ch c a

/-- A commit begins: steps 2 and 3. -/
def commitBegin (s : State) (ch c : Nat) (a : TakeAct) : State :=
  let slot : Fin 4 := Fin.ofNat 4 a.slot
  let s := mapTiles s ch c (tileCommit slot)
  let s := (List.range 32).foldl (sbCommit ch c slot) s
  commitGo (s.setClu ch c fun k => { k with act := some a, shut := true }) ch c

/-- The steward leaves the slot that its take register names (R133, R145). -/
def leaveSlot (s : State) (ch c w k : Nat) : State :=
  setStw s ch c w fun x => if x.take.map Fin.val = some k then { x with take := none } else x

/-- An action begins where its slot is open, and the issuing steward leaves the slot first; a squash is complete at once (R144,
R283). -/
def takeBegin (s : State) (ch c : Nat) (a : TakeAct) : State :=
  if !takeOpen s ch c a.slot then stwFinish s ch c a.w a.rd 1
  else
    let s := leaveSlot s ch c a.w a.slot
    if a.commit then commitBegin s ch c a
    else stwFinish (squashSlot s ch c (Fin.ofNat 4 a.slot)) ch c a.w a.rd 0

/-- Actions that waited begin, in the order they were issued (R277). -/
def takeNext : Nat → State → Nat → Nat → State
  | 0, s, _, _ => s
  | n + 1, s, ch, c =>
    match (s.clu ch c).act, (s.clu ch c).actq with
    | none, a :: l => takeNext n (takeBegin (s.setClu ch c fun k => { k with actq := l }) ch c a) ch c
    | _, _ => s

/-- A commit or squash is issued: the steward stalls until the actions before it and its own are complete (R133, R277). -/
def takeIssue (u : Iss) (s : State) (commit : Bool) : State :=
  let k := u.a % 4
  let s := u.stall s .take
  let a : TakeAct := { w := u.w, slot := k, commit := commit, rd := u.i.rd }
  takeNext ((s.clu u.ch u.c).actq.length + 1) (s.setClu u.ch u.c fun y => { y with actq := y.actq ++ [a] }) u.ch u.c

/-- `TAKE.COMMIT`. -/
def execSTakeCommit (w : StwId) (s : State) : Host.Outcome State Fault Refusal := .next <| stwRow w s .takeCommit fun u s => takeIssue u s true

/-- `TAKE.SQUASH`. -/
def execSTakeSquash (w : StwId) (s : State) : Host.Outcome State Fault Refusal := .next <| stwRow w s .takeSquash fun u s => takeIssue u s false

/-- `TAKE_ACTION_RESUME` (R277): the action in progress goes on where what held its records has room again, and then the next
begins. -/
def execTakeActionResume (c : Cl) (s : State) : Host.Outcome State Fault Refusal := .next <|
  let ch := c.ch.val
  let n := c.cl.val
  if !clocked s ch n then s
  else
    let s := if (s.clu ch n).act.isSome then commitGo s ch n else s
    takeNext ((s.clu ch n).actq.length + 1) s ch n

/-! ### Slots and the take register -/

/-- A steward's take register names the slot. -/
def slotNamed (s : State) (ch c k : Nat) : Bool := [0, 1].any fun w => decide ((s.stw ch c w).take.map Fin.val = some k)

/-- `TAKE.OPEN` (R275). -/
def execSTakeOpen (w : StwId) (s : State) : Host.Outcome State Fault Refusal := .next <|
  stwRow w s .takeOpen fun u s =>
    u.held s u.i.rd fun s =>
      match (List.range 4).find? fun k => !takeOpen s u.ch u.c k && !slotNamed s u.ch u.c k with
      | none => u.done s 4
      | some k => u.done (setTake s u.ch u.c k fun _ => { isOpen := true }) k

/-- `TAKE.ENTER`. -/
def execSTakeEnter (w : StwId) (s : State) : Host.Outcome State Fault Refusal := .next <|
  stwRow w s .takeEnter fun u s =>
    u.held s 0 fun s => u.quiet (setStw s u.ch u.c u.w fun x => { x with take := some (Fin.ofNat 4 u.a) })

/-- `TAKE.LEAVE`. -/
def execSTakeLeave (w : StwId) (s : State) : Host.Outcome State Fault Refusal := .next <|
  stwRow w s .takeLeave fun u s => u.quiet (setStw s u.ch u.c u.w fun x => { x with take := none })

/-- Slots that pass a test, as a mask. -/
def slotMask (p : Nat → Bool) : Nat := ((List.range 4).map fun k => ofBit (p k) * 2 ^ k).sum

/-- `TAKE.STAT`. -/
def execSTakeStat (w : StwId) (s : State) : Host.Outcome State Fault Refusal := .next <|
  stwRow w s .takeStat fun u s =>
    u.done s (slotMask (takeOpen s u.ch u.c) + slotMask (fun k => (takeSlot s u.ch u.c k).rec?.isSome) * 2 ^ 4)

/-! ### The predictor -/

/-- `PRED.Q`. -/
def execSPredQ (w : StwId) (s : State) : Host.Outcome State Fault Refusal := .next <|
  stwRow w s .predQ fun u s =>
    let (s, v) := predQuery s u.ch ((clFn s u.ch u.c).getD 0) u.a
    u.done s v

/-- `PRED.U`. -/
def execSPredU (w : StwId) (s : State) : Host.Outcome State Fault Refusal := .next <|
  stwRow w s .predU fun u s => u.held s 0 fun s => u.quiet (predUpdate s u.ch ((clFn s u.ch u.c).getD 0) u.a u.b)

end Sys2Proof.Machine
end

