-- ==== Sys2Proof/Machine/StwUnit.lean ====
section
/-! DEFINITION. Craong-S dolly, sync and Seal instructions (R129, R130, R132, R135, R142, R250, R253, R314, R317, R328). -/

namespace Sys2Proof.Machine

/-! ### Dolly descriptors (R130) -/

/-- Slots of a cluster that are free. -/
def dollyFree (s : State) (ch c : Nat) : List Nat :=
  (List.range 64).filter fun n => (SMap.get? (s.clu ch c).slots n).isNone

/-- The other steward stalls in `DLY.ISSUE`. -/
def otherIssues (s : State) (u : Iss) : Bool :=
  let y := s.stw u.ch u.c (1 - u.w)
  decide (y.st = wStalled ∧ y.wait = .dolly) && (match stwFetch s u.ch u.c y with
    | .inr i => decide (i.mn = .dlyIssue)
    | .inl _ => false)

/-- One slot is free and both stewards ask for it: it goes to the one that did not win the last tie. -/
def tieLost (s : State) (u : Iss) : Bool :=
  decide ((dollyFree s u.ch u.c).length = 1 ∧ (s.clu u.ch u.c).tie = u.w) && otherIssues s u

/-- The descriptor of four words at a local address enters slot `n`. -/
def slotNew (s : State) (u : Iss) (a n : Nat) : State :=
  let bs := s.readMem (depotAt u.ch u.c a) 32
  let tie := decide ((dollyFree s u.ch u.c).length = 1) && otherIssues s u
  s.setClu u.ch u.c fun k =>
    { k with
      slots := SMap.put k.slots n
        { w := u.w, count := k.issues % 2 ^ 16, collect := bit u.i.fn 3, take := u.x.take, order := k.issues,
          desc := (List.range 4).map fun i => dNat ((bs.drop (8 * i)).take 8),
          code := if anyPsn bs then some cEccUncorrected else none }
      issues := k.issues + 1
      tie := if tie then u.w else k.tie }

/-- `DLY.ISSUE` (R129, R130). -/
def execSDlyIssue (w : StwId) (s : State) : Host.Outcome State Fault Refusal := .next <|
  stwRow w s .dlyIssue fun u s =>
    let a := u.a % 2 ^ 22
    localCheck u s u.i.rd a 32 32 fun s =>
      if tieLost s u then u.stall s .dolly
      else match dollyFree s u.ch u.c with
        | [] => u.stall s .dolly
        | n :: _ => u.done (slotNew s u a n) (n + (s.clu u.ch u.c).issues % 2 ^ 16 * 2 ^ 16)

/-- The descriptor that a ticket names, if it is held for collection. -/
def ticketSlot (s : State) (ch c t : Nat) : Option DSlot :=
  if bits t 6 10 ≠ 0 ∨ t / 2 ^ 32 ≠ 0 then none
  else (SMap.get? (s.clu ch c).slots (t % 64)).filter fun d => d.collect && decide (d.w ≠ 2 ∧ d.count = bits t 16 16)

/-- A ticket presented: the descriptor's code where it is complete, whose slot then frees. -/
def ticketGive (u : Iss) (s : State) (late : State → State) : State :=
  match ticketSlot s u.ch u.c u.a with
  | none => u.exc s u.i.rd kTicket cNone u.a
  | some d =>
    if d.complete then
      u.done (s.setClu u.ch u.c fun k => { k with slots := SMap.erase k.slots (u.a % 64) }) (d.code.getD cNone)
    else late s

/-- `DLY.WAIT`. -/
def execSDlyWait (w : StwId) (s : State) : Host.Outcome State Fault Refusal := .next <| stwRow w s .dlyWait fun u s => ticketGive u s fun s => u.stall s .dolly

/-- `DLY.POLL`. -/
def execSDlyPoll (w : StwId) (s : State) : Host.Outcome State Fault Refusal := .next <| stwRow w s .dlyPoll fun u s => ticketGive u s fun s => u.done s 0x100

/-! ### Sync objects (R132) -/

/-- The request of a sync instruction. -/
def syncReq (s : State) (u : Iss) (ret : RetTo) (op : SOp) (n : Nat) : Req :=
  { ret := ret, fn := stwFn s u.ch u.c u.w, epoch := epochOf s u.ch, cl := u.c, tga := u.a, op := .sync op n,
    cls := if isOwn s u.ch u.a then 1 else 2, place := .bank }

/-- The instruction names a sync object that the steward may reach, or traps; a posted one records its refusal. -/
def syncCheck (u : Iss) (s : State) (rd : Nat) (posted : Bool) (f : State → State) : State :=
  u.held s rd fun s =>
    let fn := stwFn s u.ch u.c u.w
    let code := syncCode s u.ch fn u.a
    if tgaSpace u.a ≠ 2 then u.exc s rd kRange cNone u.a
    else if code = 0 then f s
    else if posted then u.quiet (postFail s u.ch u.c u.w fn code u.a)
    else u.exc (refusedBy s u.ch fn code u.a) rd kAccess code u.a

/-- A posted operation (R126, R246). -/
def syncPosted (u : Iss) (s : State) (op : SOp) (n : Nat) : State :=
  syncCheck u s 0 true fun s => u.quiet (issueReq s u.ch (syncReq s u (.posted (stwNo u.c u.w)) op n))

/-- An operation that the steward waits for. -/
def syncWait (u : Iss) (s : State) (rd : Nat) (op : SOp) (n : Nat) (why : Wait) (q : SyncWait) : State :=
  syncCheck u s rd false fun s =>
    let q := { q with obj := bits u.a 3 16, ch := tgaCh u.a, remote := !isOwn s u.ch u.a, rd := rd, tga := u.a }
    let s := issueReq s u.ch (syncReq s u (.sync (stwNo u.c u.w)) op n)
    setStw (u.stall s why) u.ch u.c u.w fun x => { x with swait := some q, arvDone := x.arvDone && !q.reg }

/-- A wait still to be filled in. -/
def freshWait (bar arw reg : Bool) : SyncWait := { obj := 0, ch := 0, remote := false, bar := bar, arw := arw, reg := reg }

/-- `SYNC.RD`. -/
def execSSyncRd (w : StwId) (s : State) : Host.Outcome State Fault Refusal := .next <|
  stwRow w s .syncRd fun u s => syncWait u s u.i.rd .rd 0 .reply (freshWait false false false)

/-- `SYNC.ADD`. -/
def execSSyncAdd (w : StwId) (s : State) : Host.Outcome State Fault Refusal := .next <| stwRow w s .syncAdd fun u s => syncPosted u s .add (u.b % 2 ^ 32)

/-- `SYNC.SET`. -/
def execSSyncSet (w : StwId) (s : State) : Host.Outcome State Fault Refusal := .next <| stwRow w s .syncSet fun u s => syncPosted u s .set (u.b % 2 ^ 32)

/-- `SYNC.WGE` (R253). -/
def execSSyncWge (w : StwId) (s : State) : Host.Outcome State Fault Refusal := .next <|
  stwRow w s .syncWge fun u s => syncWait u s u.i.rd .wge u.b .syncWge (freshWait false false false)

/-- `BAR.ARV`. -/
def execSBarArv (w : StwId) (s : State) : Host.Outcome State Fault Refusal := .next <| stwRow w s .barArv fun u s => syncPosted u s .arv 1

/-- `BAR.WAIT` (R250). -/
def execSBarWait (w : StwId) (s : State) : Host.Outcome State Fault Refusal := .next <|
  stwRow w s .barWait fun u s => syncWait u s 0 .wait 0 .barrier (freshWait true false false)

/-- `BAR.ARW` (R250); with `ARV_DONE` its arrival is already counted, and only the registration is sent (R142). -/
def execSBarArw (w : StwId) (s : State) : Host.Outcome State Fault Refusal := .next <|
  stwRow w s .barArw fun u s =>
    if u.x.arvDone then syncWait u s 0 .wait 0 .barrier (freshWait true true true)
    else syncWait u s 0 .arw 1 .barrier (freshWait true true false)

/-! ### The Seal unit (R135) -/

/-- The channel has a Seal unit in service, or the instruction traps; under a take it is deferred. -/
def sealRow (w : StwId) (s : State) (m : SMn) (rd : Bool) (f : Iss → State → State) : State :=
  stwRow w s m fun u s =>
    let d := if rd then u.i.rd else 0
    if !s.fbit Fld.CH_CAPS_SEAL_LIVE u.ch then u.exc s d kAccess cUnitAbsent u.a else u.held s d (f u)

/-- A free entry of the submission queue. -/
def sealFree (s : State) (ch : Nat) : Option Nat := (List.range 16).find? fun n => (SMap.get? (s.seal ch).ents n).isNone

/-- An entry submitted (R317, R318). -/
def sealSubmit (s : State) (u : Iss) (n : Nat) (ctx : Option Nat) (collect : Bool) : State :=
  let fn := if ctx.isSome then clFn s u.ch u.c else stwFn s u.ch u.c u.w
  let ep := epochOf s u.ch
  let off := s.fbit Fld.SEAL_CTRL_DISABLED u.ch
  s.setSeal u.ch fun y =>
    { y with
      ents := SMap.put y.ents n
        { ctx := ctx, fn := fn, epoch := ep, w := stwNo u.c u.w, cnt := y.subs % 2 ^ 16, desc := u.a, collect := collect, barred := off }
      order := y.order ++ [n]
      subs := y.subs + 1 }

/-- An access of the steward that it issued earlier has not taken effect (R139 item 2). -/
def accessLeft (s : State) (ch w : Nat) : Bool :=
  (s.chan ch).reqs.any fun r => decide (r.place ≠ .done) && (match r.ret with
    | .posted v | .load v _ => decide (v = w)
    | _ => false)

/-- `COLLECT` of the descriptor at a TGA of the channel's memory. -/
def collectAt (s : State) (ch a : Nat) : Bool :=
  isOwn s ch a && decide (tgaSpace a ≤ 1) && bit (dNat (s.readMem (tgaMem a) 8)) 7

/-- `SEAL.CONVOY` (R317). -/
def execSSealConvoy (w : StwId) (s : State) : Host.Outcome State Fault Refusal := .next <|
  sealRow w s .sealConvoy true fun u s =>
    if accessLeft s u.ch (stwNo u.c u.w) then u.stall s .seal
    else match sealFree s u.ch with
      | none => u.stall s .seal
      | some n => u.done (sealSubmit s u n none (collectAt s u.ch u.a)) (n + (s.seal u.ch).subs % 2 ^ 16 * 2 ^ 16)

/-- `SEAL.CTX` (R314). -/
def execSSealCtx (w : StwId) (s : State) : Host.Outcome State Fault Refusal := .next <|
  sealRow w s .sealCtx false fun u s =>
    match sealFree s u.ch with
    | none => u.stall s .seal
    | some n => u.quiet (sealSubmit s u n (some (u.i.imm.toNat % 16)) false)

/-- The entry that a Seal ticket names (R317). -/
def sealHeld (s : State) (u : Iss) : Option SealEnt :=
  let t := u.a
  if bits t 4 12 ≠ 0 ∨ t / 2 ^ 32 ≠ 0 then none
  else (SMap.get? (s.seal u.ch).ents (t % 16)).filter fun e =>
    e.collect && decide (e.ctx = none ∧ e.cnt = bits t 16 16 ∧ e.fn = stwFn s u.ch u.c u.w)

/-- A Seal ticket presented: the code of its convoy where it is complete, whose entry then frees. -/
def sealGive (u : Iss) (s : State) (late : State → State) : State :=
  match sealHeld s u with
  | none => u.exc s u.i.rd kTicket cNone u.a
  | some e =>
    if e.done then u.done (s.setSeal u.ch fun y => { y with ents := SMap.erase y.ents (u.a % 16) }) e.code else late s

/-- `SEAL.WAIT`. -/
def execSSealWait (w : StwId) (s : State) : Host.Outcome State Fault Refusal := .next <| sealRow w s .sealWait true fun u s => sealGive u s fun s => u.stall s .seal

/-- `SEAL.POLL`. -/
def execSSealPoll (w : StwId) (s : State) : Host.Outcome State Fault Refusal := .next <| sealRow w s .sealPoll true fun u s => sealGive u s fun s => u.done s 0x100

/-- `SEAL.HDR` (R328): a global load of 8 bytes. -/
def execSSealHdr (w : StwId) (s : State) : Host.Outcome State Fault Refusal := .next <| sealRow w s .sealHdr true fun u s => globalLoad u s u.a 8

end Sys2Proof.Machine
end

