-- ==== Sys2Proof/Machine/Dispatch.lean ====
section
/-! DEFINITION. One arm per command: its meaning, or a refusal by name while it has none. -/

namespace Sys2Proof.Machine

def exec (i : Instr) (s : State) : Host.Outcome State Fault Refusal :=
  match i with
  | .registerWrite r a n v => Sys2Proof.Machine.execRegisterWrite r a n v s
  | .hubCapsMirrorUpdate ch => Sys2Proof.Machine.execHubCapsMirrorUpdate ch s
  | .flitRoute t => Sys2Proof.Machine.execFlitRoute t s
  | .creditReturn q => Sys2Proof.Machine.execCreditReturn q s
  | .egressToken c port => Sys2Proof.Machine.execEgressToken c port s
  | .gatewayMeshHop c inp => Sys2Proof.Machine.execGatewayMeshHop c inp s
  | .tlCtrlHalt r t => Sys2Proof.Machine.execTlCtrlHalt r t s
  | .tileHaltEffect t => Sys2Proof.Machine.execTileHaltEffect t s
  | .tlCtrlResume r t => Sys2Proof.Machine.execTlCtrlResume r t s
  | .tlCtrlStep r t => Sys2Proof.Machine.execTlCtrlStep r t s
  | .tlRngseedWrite r t v => Sys2Proof.Machine.execTlRngseedWrite r t v s
  | .tileReservedEncoding t => Sys2Proof.Machine.execTileReservedEncoding t s
  | .tNop t => Sys2Proof.Machine.execTNop t s
  | .tEnd t => Sys2Proof.Machine.execTEnd t s
  | .tJmp t => Sys2Proof.Machine.execTJmp t s
  | .tBr t => Sys2Proof.Machine.execTBr t s
  | .tLoop t => Sys2Proof.Machine.execTLoop t s
  | .tDrop t => Sys2Proof.Machine.execTDrop t s
  | .tMac t => Sys2Proof.Machine.execTMac t s
  | .tMacb t => Sys2Proof.Machine.execTMacb t s
  | .tMul t => Sys2Proof.Machine.execTMul t s
  | .tAdd t => Sys2Proof.Machine.execTAdd t s
  | .tSub t => Sys2Proof.Machine.execTSub t s
  | .tMax t => Sys2Proof.Machine.execTMax t s
  | .tMin t => Sys2Proof.Machine.execTMin t s
  | .tMmac t => Sys2Proof.Machine.execTMmac t s
  | .tImac t => Sys2Proof.Machine.execTImac t s
  | .tIadd t => Sys2Proof.Machine.execTIadd t s
  | .tIsub t => Sys2Proof.Machine.execTIsub t s
  | .tIand t => Sys2Proof.Machine.execTIand t s
  | .tIor t => Sys2Proof.Machine.execTIor t s
  | .tIxor t => Sys2Proof.Machine.execTIxor t s
  | .tIshl t => Sys2Proof.Machine.execTIshl t s
  | .tIshr t => Sys2Proof.Machine.execTIshr t s
  | .tFma t => Sys2Proof.Machine.execTFma t s
  | .tFadd t => Sys2Proof.Machine.execTFadd t s
  | .tFsub t => Sys2Proof.Machine.execTFsub t s
  | .tFmul t => Sys2Proof.Machine.execTFmul t s
  | .tFmax t => Sys2Proof.Machine.execTFmax t s
  | .tFmin t => Sys2Proof.Machine.execTFmin t s
  | .tFn t => Sys2Proof.Machine.execTFn t s
  | .tCvt t => Sys2Proof.Machine.execTCvt t s
  | .tMov t => Sys2Proof.Machine.execTMov t s
  | .tPerm t => Sys2Proof.Machine.execTPerm t s
  | .tRot t => Sys2Proof.Machine.execTRot t s
  | .tBcst t => Sys2Proof.Machine.execTBcst t s
  | .tSel t => Sys2Proof.Machine.execTSel t s
  | .tRsum t => Sys2Proof.Machine.execTRsum t s
  | .tRmax t => Sys2Proof.Machine.execTRmax t s
  | .tRmin t => Sys2Proof.Machine.execTRmin t s
  | .tRamax t => Sys2Proof.Machine.execTRamax t s
  | .tRbexp t => Sys2Proof.Machine.execTRbexp t s
  | .tFwd t => Sys2Proof.Machine.execTFwd t s
  | .tFwdh t => Sys2Proof.Machine.execTFwdh t s
  | .tPcmp t => Sys2Proof.Machine.execTPcmp t s
  | .tPlog t => Sys2Proof.Machine.execTPlog t s
  | .tPset t => Sys2Proof.Machine.execTPset t s
  | .tPcls t => Sys2Proof.Machine.execTPcls t s
  | .tLd t => Sys2Proof.Machine.execTLd t s
  | .tLdh t => Sys2Proof.Machine.execTLdh t s
  | .tLde t => Sys2Proof.Machine.execTLde t s
  | .tSt t => Sys2Proof.Machine.execTSt t s
  | .tSth t => Sys2Proof.Machine.execTSth t s
  | .tTkent t => Sys2Proof.Machine.execTTkent t s
  | .tTklv t => Sys2Proof.Machine.execTTklv t s
  | .tSig t => Sys2Proof.Machine.execTSig t s
  | .illegalInstruction w => Sys2Proof.Machine.execIllegalInstruction w s
  | .sAlu w => Sys2Proof.Machine.execSAlu w s
  | .sAddi w => Sys2Proof.Machine.execSAddi w s
  | .sAndi w => Sys2Proof.Machine.execSAndi w s
  | .sOri w => Sys2Proof.Machine.execSOri w s
  | .sXori w => Sys2Proof.Machine.execSXori w s
  | .sShi w => Sys2Proof.Machine.execSShi w s
  | .sSlti w => Sys2Proof.Machine.execSSlti w s
  | .sBeq w => Sys2Proof.Machine.execSBeq w s
  | .sBne w => Sys2Proof.Machine.execSBne w s
  | .sBlt w => Sys2Proof.Machine.execSBlt w s
  | .sBge w => Sys2Proof.Machine.execSBge w s
  | .sBltu w => Sys2Proof.Machine.execSBltu w s
  | .sBgeu w => Sys2Proof.Machine.execSBgeu w s
  | .sJal w => Sys2Proof.Machine.execSJal w s
  | .sJalr w => Sys2Proof.Machine.execSJalr w s
  | .sCsr w => Sys2Proof.Machine.execSCsr w s
  | .sSysc w => Sys2Proof.Machine.execSSysc w s
  | .sRett w => Sys2Proof.Machine.execSRett w s
  | .sHret w => Sys2Proof.Machine.execSHret w s
  | .sHalt w => Sys2Proof.Machine.execSHalt w s
  | .sFenceL w => Sys2Proof.Machine.execSFenceL w s
  | .sFenceG w => Sys2Proof.Machine.execSFenceG w s
  | .sFenceI w => Sys2Proof.Machine.execSFenceI w s
  | .sLi w => Sys2Proof.Machine.execSLi w s
  | .sLih w => Sys2Proof.Machine.execSLih w s
  | .sLdl w => Sys2Proof.Machine.execSLdl w s
  | .sStl w => Sys2Proof.Machine.execSStl w s
  | .sLdg w => Sys2Proof.Machine.execSLdg w s
  | .sStg w => Sys2Proof.Machine.execSStg w s
  | .globalLoadReturn w => Sys2Proof.Machine.execGlobalLoadReturn w s
  | .postedAckReturn w => Sys2Proof.Machine.execPostedAckReturn w s
  | .sDlyIssue w => Sys2Proof.Machine.execSDlyIssue w s
  | .sDlyWait w => Sys2Proof.Machine.execSDlyWait w s
  | .sDlyPoll w => Sys2Proof.Machine.execSDlyPoll w s
  | .dollyRequestIssue c slot => Sys2Proof.Machine.execDollyRequestIssue c slot s
  | .dollyDataReturn c slot => Sys2Proof.Machine.execDollyDataReturn c slot s
  | .descriptorComplete c slot => Sys2Proof.Machine.execDescriptorComplete c slot s
  | .sQsnd w => Sys2Proof.Machine.execSQsnd w s
  | .sQrcv w => Sys2Proof.Machine.execSQrcv w s
  | .sSyncRd w => Sys2Proof.Machine.execSSyncRd w s
  | .sSyncAdd w => Sys2Proof.Machine.execSSyncAdd w s
  | .sSyncSet w => Sys2Proof.Machine.execSSyncSet w s
  | .sSyncWge w => Sys2Proof.Machine.execSSyncWge w s
  | .sBarArv w => Sys2Proof.Machine.execSBarArv w s
  | .sBarWait w => Sys2Proof.Machine.execSBarWait w s
  | .sBarArw w => Sys2Proof.Machine.execSBarArw w s
  | .sTakeOpen w => Sys2Proof.Machine.execSTakeOpen w s
  | .sTakeCommit w => Sys2Proof.Machine.execSTakeCommit w s
  | .sTakeSquash w => Sys2Proof.Machine.execSTakeSquash w s
  | .takeActionResume c => Sys2Proof.Machine.execTakeActionResume c s
  | .sTakeEnter w => Sys2Proof.Machine.execSTakeEnter w s
  | .sTakeLeave w => Sys2Proof.Machine.execSTakeLeave w s
  | .sTakeStat w => Sys2Proof.Machine.execSTakeStat w s
  | .sPredQ w => Sys2Proof.Machine.execSPredQ w s
  | .sPredU w => Sys2Proof.Machine.execSPredU w s
  | .sSealConvoy w => Sys2Proof.Machine.execSSealConvoy w s
  | .sSealWait w => Sys2Proof.Machine.execSSealWait w s
  | .sSealPoll w => Sys2Proof.Machine.execSSealPoll w s
  | .sSealCtx w => Sys2Proof.Machine.execSSealCtx w s
  | .sSealHdr w => Sys2Proof.Machine.execSSealHdr w s
  | .clStwCtrlHalt r w => Sys2Proof.Machine.execClStwCtrlHalt r w s
  | .stewardHaltEffect w => Sys2Proof.Machine.execStewardHaltEffect w s
  | .clStwCtrlResume r w => Sys2Proof.Machine.execClStwCtrlResume r w s
  | .clStwCtrlStep r w => Sys2Proof.Machine.execClStwCtrlStep r w s
  | .chLdctrlGo r ch => Sys2Proof.Machine.execChLdctrlGo r ch s
  | .loadFetchDone ch => Sys2Proof.Machine.execLoadFetchDone ch s
  | .loadCheckDone ch => Sys2Proof.Machine.execLoadCheckDone ch s
  | .loadWriteDone ch => Sys2Proof.Machine.execLoadWriteDone ch s
  | .preloadDone ch => Sys2Proof.Machine.execPreloadDone ch s
  | .chLdctrlStart r ch => Sys2Proof.Machine.execChLdctrlStart r ch s
  | .chLdctrlClear r ch => Sys2Proof.Machine.execChLdctrlClear r ch s
  | .chLdctrlUnload r ch => Sys2Proof.Machine.execChLdctrlUnload r ch s
  | .chLdctrlCommit r ch => Sys2Proof.Machine.execChLdctrlCommit r ch s
  | .startupStepIssue ch => Sys2Proof.Machine.execStartupStepIssue ch s
  | .startupStepComplete ch => Sys2Proof.Machine.execStartupStepComplete ch s
  | .startupStepTimeout d => Sys2Proof.Machine.execStartupStepTimeout d s
  | .unloadDone ch => Sys2Proof.Machine.execUnloadDone ch s
  | .depotBankGrant c bank => Sys2Proof.Machine.execDepotBankGrant c bank s
  | .stackSlotGrant ch site => Sys2Proof.Machine.execStackSlotGrant ch site s
  | .ttEntryAssign ch => Sys2Proof.Machine.execTtEntryAssign ch s
  | .chBwsplitCommit r ch => Sys2Proof.Machine.execChBwsplitCommit r ch s
  | .bwsplitFrameBoundary ch site => Sys2Proof.Machine.execBwsplitFrameBoundary ch site s
  | .clSbCtrlCommit r c n => Sys2Proof.Machine.execClSbCtrlCommit r c n s
  | .sbConfigApply c n => Sys2Proof.Machine.execSbConfigApply c n s
  | .clSbCtrlSwap r c n => Sys2Proof.Machine.execClSbCtrlSwap r c n s
  | .sbSwap c n => Sys2Proof.Machine.execSbSwap c n s
  | .clSbCtrlPub r c n => Sys2Proof.Machine.execClSbCtrlPub r c n s
  | .clSbCtrlRel r c n => Sys2Proof.Machine.execClSbCtrlRel r c n s
  | .clSbCtrlFlush r c n => Sys2Proof.Machine.execClSbCtrlFlush r c n s
  | .depotInterfaceFlit c port => Sys2Proof.Machine.execDepotInterfaceFlit c port s
  | .depotPortEmit c port n => Sys2Proof.Machine.execDepotPortEmit c port n s
  | .queueArrival c inp => Sys2Proof.Machine.execQueueArrival c inp s
  | .messageEnqueueAfterWait c inp => Sys2Proof.Machine.execMessageEnqueueAfterWait c inp s
  | .handlerDispatch w => Sys2Proof.Machine.execHandlerDispatch w s
  | .clQctrlPoison r c q => Sys2Proof.Machine.execClQctrlPoison r c q s
  | .clQctrlUnpoison r c q => Sys2Proof.Machine.execClQctrlUnpoison r c q s
  | .clQcfgWrite r c q v => Sys2Proof.Machine.execClQcfgWrite r c q v s
  | .clHtWrite r c n v => Sys2Proof.Machine.execClHtWrite r c n v s
  | .syncOperation ch bank => Sys2Proof.Machine.execSyncOperation ch bank s
  | .waitRegistration ch bank => Sys2Proof.Machine.execWaitRegistration ch bank s
  | .remoteWaitRetry ch => Sys2Proof.Machine.execRemoteWaitRetry ch s
  | .stewardPark w => Sys2Proof.Machine.execStewardPark w s
  | .syncOutPulse => Sys2Proof.Machine.execSyncOutPulse s
  | .syncOutEnd => Sys2Proof.Machine.execSyncOutEnd s
  | .chSyncselWrite r ch v => Sys2Proof.Machine.execChSyncselWrite r ch v s
  | .chSyncctrlPoison r ch => Sys2Proof.Machine.execChSyncctrlPoison r ch s
  | .chSyncctrlUnpoison r ch => Sys2Proof.Machine.execChSyncctrlUnpoison r ch s
  | .stallWindowExpiry c young => Sys2Proof.Machine.execStallWindowExpiry c young s
  | .dstStallcfgWrite r d v => Sys2Proof.Machine.execDstStallcfgWrite r d v s
  | .sidingEngineCycle c => Sys2Proof.Machine.execSidingEngineCycle c s
  | .chPredctrlClear r ch => Sys2Proof.Machine.execChPredctrlClear r ch s
  | .chNfctrlArm r ch => Sys2Proof.Machine.execChNfctrlArm r ch s
  | .chNfctrlAbort r ch => Sys2Proof.Machine.execChNfctrlAbort r ch s
  | .chNfcfgCommit r ch => Sys2Proof.Machine.execChNfcfgCommit r ch s
  | .nfConfigApply ch => Sys2Proof.Machine.execNfConfigApply ch s
  | .sealEntryBegin ch => Sys2Proof.Machine.execSealEntryBegin ch s
  | .sealContextLoadDone ch => Sys2Proof.Machine.execSealContextLoadDone ch s
  | .sealCheckDone ch => Sys2Proof.Machine.execSealCheckDone ch s
  | .sealRefreshDone ch => Sys2Proof.Machine.execSealRefreshDone ch s
  | .sealPbsPassDone ch => Sys2Proof.Machine.execSealPbsPassDone ch s
  | .sealKswPassDone ch => Sys2Proof.Machine.execSealKswPassDone ch s
  | .sealLinearDone ch => Sys2Proof.Machine.execSealLinearDone ch s
  | .keyStreamRead ch => Sys2Proof.Machine.execKeyStreamRead ch s
  | .sealWriteBegin ch => Sys2Proof.Machine.execSealWriteBegin ch s
  | .sealConvoyComplete ch => Sys2Proof.Machine.execSealConvoyComplete ch s
  | .sealCtrlDisable r ch => Sys2Proof.Machine.execSealCtrlDisable r ch s
  | .sealCtrlEnable r ch => Sys2Proof.Machine.execSealCtrlEnable r ch s
  | .perstNEdge => Sys2Proof.Machine.execPerstNEdge s
  | .perstNFilterExpiry => Sys2Proof.Machine.execPerstNFilterExpiry s
  | .perstNDeassert => Sys2Proof.Machine.execPerstNDeassert s
  | .pcieLinkReady rate width flit => Sys2Proof.Machine.execPcieLinkReady rate width flit s
  | .pcieLinkDown => Sys2Proof.Machine.execPcieLinkDown s
  | .powerStateWrite f d3 => Sys2Proof.Machine.execPowerStateWrite f d3 s
  | .submissionDoorbell f ring v => Sys2Proof.Machine.execSubmissionDoorbell f ring v s
  | .completionDoorbell f ring v => Sys2Proof.Machine.execCompletionDoorbell f ring v s
  | .eventQueueDoorbell f v => Sys2Proof.Machine.execEventQueueDoorbell f v s
  | .vfRingCtrlCommit r f ring => Sys2Proof.Machine.execVfRingCtrlCommit r f ring s
  | .ringConfigApply f ring => Sys2Proof.Machine.execRingConfigApply f ring s
  | .vfRingCtrlEnable r f ring => Sys2Proof.Machine.execVfRingCtrlEnable r f ring s
  | .vfRingCtrlDisable r f ring => Sys2Proof.Machine.execVfRingCtrlDisable r f ring s
  | .vfEvqCtrlCommit r f => Sys2Proof.Machine.execVfEvqCtrlCommit r f s
  | .vfEvqCtrlEnable r f => Sys2Proof.Machine.execVfEvqCtrlEnable r f s
  | .vfEvqCtrlDisable r f => Sys2Proof.Machine.execVfEvqCtrlDisable r f s
  | .ringFetch => Sys2Proof.Machine.execRingFetch s
  | .ringEntryArrive f ring entries => Sys2Proof.Machine.execRingEntryArrive f ring entries s
  | .fencedCommandStart f ring => Sys2Proof.Machine.execFencedCommandStart f ring s
  | .cmdNop f ring => Sys2Proof.Machine.execCmdNop f ring s
  | .cmdLoad f ring => Sys2Proof.Machine.execCmdLoad f ring s
  | .cmdStart f ring => Sys2Proof.Machine.execCmdStart f ring s
  | .cmdUnload f ring => Sys2Proof.Machine.execCmdUnload f ring s
  | .cmdClear f ring => Sys2Proof.Machine.execCmdClear f ring s
  | .copyIn f ring => Sys2Proof.Machine.execCopyIn f ring s
  | .copyOut f ring => Sys2Proof.Machine.execCopyOut f ring s
  | .signal f ring => Sys2Proof.Machine.execSignal f ring s
  | .syncwait f ring => Sys2Proof.Machine.execSyncwait f ring s
  | .fwcall f ring => Sys2Proof.Machine.execFwcall f ring s
  | .completionWrite f ring => Sys2Proof.Machine.execCompletionWrite f ring s
  | .eventWrite f => Sys2Proof.Machine.execEventWrite f s
  | .msixSend f vec => Sys2Proof.Machine.execMsixSend f vec s
  | .apertureWrite f ap off data ep => Sys2Proof.Machine.execApertureWrite f ap off data ep s
  | .apertureRead f ap off len => Sys2Proof.Machine.execApertureRead f ap off len s
  | .vfApBaseWrite r f ap v => Sys2Proof.Machine.execVfApBaseWrite r f ap v s
  | .hostReadFailure f ring copy why => Sys2Proof.Machine.execHostReadFailure f ring copy why s
  | .vfEnable n => Sys2Proof.Machine.execVfEnable n s
  | .vfEnableClear => Sys2Proof.Machine.execVfEnableClear s
  | .vfFlr f => Sys2Proof.Machine.execVfFlr f s
  | .pf0Flr => Sys2Proof.Machine.execPf0Flr s
  | .channelDisable ch f => Sys2Proof.Machine.execChannelDisable ch f s
  | .flrDrainTimeout ch f => Sys2Proof.Machine.execFlrDrainTimeout ch f s
  | .disableScrubDone ch f => Sys2Proof.Machine.execDisableScrubDone ch f s
  | .chRptctrlCommit r ch => Sys2Proof.Machine.execChRptctrlCommit r ch s
  | .chRptctrlFence r ch => Sys2Proof.Machine.execChRptctrlFence r ch s
  | .hubRptfenceStart r mask => Sys2Proof.Machine.execHubRptfenceStart r mask s
  | .fenceTimeout ch => Sys2Proof.Machine.execFenceTimeout ch s
  | .hubRptCopyUpdate ch => Sys2Proof.Machine.execHubRptCopyUpdate ch s
  | .vfGrantselWrite r f v => Sys2Proof.Machine.execVfGrantselWrite r f v s
  | .vfWinselWrite r f v => Sys2Proof.Machine.execVfWinselWrite r f v s
  | .drstNDeassert l => Sys2Proof.Machine.execDrstNDeassert l s
  | .ucieTrained l mods x8 => Sys2Proof.Machine.execUcieTrained l mods x8 s
  | .capx l => Sys2Proof.Machine.execCapx l s
  | .capxRepeat l => Sys2Proof.Machine.execCapxRepeat l s
  | .agree l => Sys2Proof.Machine.execAgree l s
  | .uprateDone l ok => Sys2Proof.Machine.execUprateDone l ok s
  | .fdlStageTimeout l => Sys2Proof.Machine.execFdlStageTimeout l s
  | .flitTransmit l => Sys2Proof.Machine.execFlitTransmit l s
  | .flitReceive l flit => Sys2Proof.Machine.execFlitReceive l flit s
  | .fdlRetry l => Sys2Proof.Machine.execFdlRetry l s
  | .ackTimeout l => Sys2Proof.Machine.execAckTimeout l s
  | .retrainDone l => Sys2Proof.Machine.execRetrainDone l s
  | .retrainTimeout l => Sys2Proof.Machine.execRetrainTimeout l s
  | .l1IdleExpiry l => Sys2Proof.Machine.execL1IdleExpiry l s
  | .pmreq l => Sys2Proof.Machine.execPmreq l s
  | .pmack l => Sys2Proof.Machine.execPmack l s
  | .pmnak l => Sys2Proof.Machine.execPmnak l s
  | .l1Exit l ok => Sys2Proof.Machine.execL1Exit l ok s
  | .testreq l => Sys2Proof.Machine.execTestreq l s
  | .fdlAbort l => Sys2Proof.Machine.execFdlAbort l s
  | .mrd l => Sys2Proof.Machine.execMrd l s
  | .mwr l => Sys2Proof.Machine.execMwr l s
  | .fdlRdata l => Sys2Proof.Machine.execFdlRdata l s
  | .fdlCmpl l => Sys2Proof.Machine.execFdlCmpl l s
  | .fdlQmsg l => Sys2Proof.Machine.execFdlQmsg l s
  | .fdlFrame l => Sys2Proof.Machine.execFdlFrame l s
  | .fdlSync l => Sys2Proof.Machine.execFdlSync l s
  | .fdlReg l => Sys2Proof.Machine.execFdlReg l s
  | .fdlNote l => Sys2Proof.Machine.execFdlNote l s
  | .boot l => Sys2Proof.Machine.execBoot l s
  | .fdlRequestTimeout l tag => Sys2Proof.Machine.execFdlRequestTimeout l tag s
  | .fdlLinkCtrlReneg r l => Sys2Proof.Machine.execFdlLinkCtrlReneg r l s
  | .fdlLinkCtrlRetrain r l => Sys2Proof.Machine.execFdlLinkCtrlRetrain r l s
  | .fdlLinkCtrlTest r l on => Sys2Proof.Machine.execFdlLinkCtrlTest r l on s
  | .fdlLinkCfgCommit r l => Sys2Proof.Machine.execFdlLinkCfgCommit r l s
  | .fdlRegWindowAccess r l off write n v => Sys2Proof.Machine.execFdlRegWindowAccess r l off write n v s
  | .ctFrameReceive ch port frame ce => Sys2Proof.Machine.execCtFrameReceive ch port frame ce s
  | .ctWrite ch flow => Sys2Proof.Machine.execCtWrite ch flow s
  | .ctRead ch flow => Sys2Proof.Machine.execCtRead ch flow s
  | .ctQmsg ch flow => Sys2Proof.Machine.execCtQmsg ch flow s
  | .ctSync ch flow => Sys2Proof.Machine.execCtSync ch flow s
  | .ctBar ch flow => Sys2Proof.Machine.execCtBar ch flow s
  | .ctColl ch flow => Sys2Proof.Machine.execCtColl ch flow s
  | .ctResp ch flow => Sys2Proof.Machine.execCtResp ch flow s
  | .ctRdata ch flow => Sys2Proof.Machine.execCtRdata ch flow s
  | .ctAck ch flow => Sys2Proof.Machine.execCtAck ch flow s
  | .ctOpen ch flow => Sys2Proof.Machine.execCtOpen ch flow s
  | .ctNotice ch flow => Sys2Proof.Machine.execCtNotice ch flow s
  | .ctPacketTransmit ch flow stream => Sys2Proof.Machine.execCtPacketTransmit ch flow stream s
  | .ctRtoExpiry ch flow stream => Sys2Proof.Machine.execCtRtoExpiry ch flow stream s
  | .ctAckTimer ch flow stream => Sys2Proof.Machine.execCtAckTimer ch flow stream s
  | .ctOpenRetry ch flow => Sys2Proof.Machine.execCtOpenRetry ch flow s
  | .ctNoticeResend ch => Sys2Proof.Machine.execCtNoticeResend ch s
  | .ctFlowctrlCommit r ch => Sys2Proof.Machine.execCtFlowctrlCommit r ch s
  | .ctFlowctrlOpen r ch => Sys2Proof.Machine.execCtFlowctrlOpen r ch s
  | .ctFlowctrlClose r ch => Sys2Proof.Machine.execCtFlowctrlClose r ch s
  | .ctFlowselWrite r ch v => Sys2Proof.Machine.execCtFlowselWrite r ch v s
  | .ctGrpctrlCommit r ch => Sys2Proof.Machine.execCtGrpctrlCommit r ch s
  | .ctGrpselWrite r ch v => Sys2Proof.Machine.execCtGrpselWrite r ch v s
  | .ctLccfgCommit r ch => Sys2Proof.Machine.execCtLccfgCommit r ch s
  | .ctPortCfgCommit r ch site => Sys2Proof.Machine.execCtPortCfgCommit r ch site s
  | .portLinkDown ch port => Sys2Proof.Machine.execPortLinkDown ch port s
  | .portLinkUp ch port => Sys2Proof.Machine.execPortLinkUp ch port s
  | .collectiveSubmit ch => Sys2Proof.Machine.execCollectiveSubmit ch s
  | .collectiveBegin ch => Sys2Proof.Machine.execCollectiveBegin ch s
  | .collectiveTimeout ch => Sys2Proof.Machine.execCollectiveTimeout ch s
  | .powerEpoch ch draws uncore vnext => Sys2Proof.Machine.execPowerEpoch ch draws uncore vnext s
  | .grantBoundary => Sys2Proof.Machine.execGrantBoundary s
  | .avfsEvaluation d v pass => Sys2Proof.Machine.execAvfsEvaluation d v pass s
  | .droop d => Sys2Proof.Machine.execDroop d s
  | .dstVftgtCommit r d => Sys2Proof.Machine.execDstVftgtCommit r d s
  | .hubPwrbudgetCommit r => Sys2Proof.Machine.execHubPwrbudgetCommit r s
  | .chPwrcfgWrite r ch v => Sys2Proof.Machine.execChPwrcfgWrite r ch v s
  | .thermalSample d temp => Sys2Proof.Machine.execThermalSample d temp s
  | .throttleNEdge low => Sys2Proof.Machine.execThrottleNEdge low s
  | .throttleFilterExpiry => Sys2Proof.Machine.execThrottleFilterExpiry s
  | .syncInPulse time => Sys2Proof.Machine.execSyncInPulse time s
  | .syncInNotice ch => Sys2Proof.Machine.execSyncInNotice ch s
  | .hubSyncctrlArmload r => Sys2Proof.Machine.execHubSyncctrlArmload r s
  | .sysclkLoss => Sys2Proof.Machine.execSysclkLoss s
  | .pllLockLoss d => Sys2Proof.Machine.execPllLockLoss d s
  | .pllRelockTimeout d => Sys2Proof.Machine.execPllRelockTimeout d s
  | .faultEvent e => Sys2Proof.Machine.execFaultEvent e s
  | .bucketLeak src ty cluster unit => Sys2Proof.Machine.execBucketLeak src ty cluster unit s
  | .stormWindow src => Sys2Proof.Machine.execStormWindow src s
  | .repairCopyDone ch => Sys2Proof.Machine.execRepairCopyDone ch s
  | .heartbeat ch => Sys2Proof.Machine.execHeartbeat ch s
  | .heartbeatTimeout ch => Sys2Proof.Machine.execHeartbeatTimeout ch s
  | .retirementNotice ch gone => Sys2Proof.Machine.execRetirementNotice ch gone s
  | .hubCriticalFault => Sys2Proof.Machine.execHubCriticalFault s
  | .hubWatchdogExpiry => Sys2Proof.Machine.execHubWatchdogExpiry s
  | .faultNHoldEnd => Sys2Proof.Machine.execFaultNHoldEnd s
  | .chFinjArm r ch => Sys2Proof.Machine.execChFinjArm r ch s
  | .pwrgdFall => Sys2Proof.Machine.execPwrgdFall s
  | .pwrgdLowAccept cut => Sys2Proof.Machine.execPwrgdLowAccept cut s
  | .pwrgdHighStable => Sys2Proof.Machine.execPwrgdHighStable s
  | .hubRstctrlWrite r v => Sys2Proof.Machine.execHubRstctrlWrite r v s
  | .warmReset => Sys2Proof.Machine.execWarmReset s
  | .romBoot failA failB => Sys2Proof.Machine.execRomBoot failA failB s
  | .firmwareBringup => Sys2Proof.Machine.execFirmwareBringup s
  | .fieldReadyTimeout ch => Sys2Proof.Machine.execFieldReadyTimeout ch s
  | .returnedScrubDone => Sys2Proof.Machine.execReturnedScrubDone s
  | .nvCtrlCommit r => Sys2Proof.Machine.execNvCtrlCommit r s
  | .nvCtrlLcreq r => Sys2Proof.Machine.execNvCtrlLcreq r s
  | .nvCtrlLccancel r => Sys2Proof.Machine.execNvCtrlLccancel r s
  | .nvCtrlFclear r => Sys2Proof.Machine.execNvCtrlFclear r s
  | .nvCtrlAuthgo r => Sys2Proof.Machine.execNvCtrlAuthgo r s
  | .nvGenerationDone ok => Sys2Proof.Machine.execNvGenerationDone ok s
  | .nvEraseDone => Sys2Proof.Machine.execNvEraseDone s
  | .nvFaultAppend => Sys2Proof.Machine.execNvFaultAppend s
  | .setEndpointId eid => Sys2Proof.Machine.execSetEndpointId eid s
  | .getEndpointId => Sys2Proof.Machine.execGetEndpointId s
  | .getEndpointUuid => Sys2Proof.Machine.execGetEndpointUuid s
  | .getMctpVersionSupport => Sys2Proof.Machine.execGetMctpVersionSupport s
  | .getMessageTypeSupport => Sys2Proof.Machine.execGetMessageTypeSupport s
  | .getVendorMessageSupport => Sys2Proof.Machine.execGetVendorMessageSupport s
  | .smbusArp addr => Sys2Proof.Machine.execSmbusArp addr s
  | .smbusLineTimeout => Sys2Proof.Machine.execSmbusLineTimeout s
  | .regRead a width => Sys2Proof.Machine.execRegRead a width s
  | .regWrite a width v => Sys2Proof.Machine.execRegWrite a width v s
  | .dumpInfo => Sys2Proof.Machine.execDumpInfo s
  | .dumpRead off len => Sys2Proof.Machine.execDumpRead off len s
  | .dumpClear => Sys2Proof.Machine.execDumpClear s
  | .dumpEraseDone => Sys2Proof.Machine.execDumpEraseDone s
  | .dlyRead chn first count => Sys2Proof.Machine.execDlyRead chn first count s
  | .pldmBaseRequest cmd => Sys2Proof.Machine.execPldmBaseRequest cmd s
  | .pldmSensorRequest id => Sys2Proof.Machine.execPldmSensorRequest id s
  | .requestUpdate slot => Sys2Proof.Machine.execRequestUpdate slot s
  | .firmwareDataTransfer off data => Sys2Proof.Machine.execFirmwareDataTransfer off data s
  | .verifyComplete => Sys2Proof.Machine.execVerifyComplete s
  | .activateFirmware => Sys2Proof.Machine.execActivateFirmware s
  | .sensorSample readings => Sys2Proof.Machine.execSensorSample readings s
  | .alertResponseRead => Sys2Proof.Machine.execAlertResponseRead s
  | .alertHoldoffEnd => Sys2Proof.Machine.execAlertHoldoffEnd s
  | .chDlyctrlTrigarm r ch => Sys2Proof.Machine.execChDlyctrlTrigarm r ch s
  | .chDlyctrlClear r ch => Sys2Proof.Machine.execChDlyctrlClear r ch s
  | .chDlymarkWrite r ch v => Sys2Proof.Machine.execChDlymarkWrite r ch v s
  | .hubDlyfreeze r => Sys2Proof.Machine.execHubDlyfreeze r s
  | .pmctrlStart r src => Sys2Proof.Machine.execPmctrlStart r src s
  | .pmctrlStop r src => Sys2Proof.Machine.execPmctrlStop r src s
  | .pmctrlSnap r src => Sys2Proof.Machine.execPmctrlSnap r src s
  | .keeperDumpDone bad => Sys2Proof.Machine.execKeeperDumpDone bad s
  | .bypass => Sys2Proof.Machine.execBypass s
  | .extest v => Sys2Proof.Machine.execExtest v s
  | .samplePreload v => Sys2Proof.Machine.execSamplePreload v s
  | .idcode => Sys2Proof.Machine.execIdcode s
  | .clamp => Sys2Proof.Machine.execClamp s
  | .highz => Sys2Proof.Machine.execHighz s
  | .dbgregRd a width => Sys2Proof.Machine.execDbgregRd a width s
  | .dlyRd chn first count => Sys2Proof.Machine.execDlyRd chn first count s
  | .dbgregWr a width v => Sys2Proof.Machine.execDbgregWr a width v s
  | .dbgmem a write v => Sys2Proof.Machine.execDbgmem a write v s
  | .dbghalt t resume => Sys2Proof.Machine.execDbghalt t resume s
  | .trstNLow => Sys2Proof.Machine.execTrstNLow s
  | .thermalTrip src ch unit => Sys2Proof.Machine.execThermalTrip src ch unit s
  | .supplySample inrange uv ov => Sys2Proof.Machine.execSupplySample inrange uv ov s
  | .xtalLoss => Sys2Proof.Machine.execXtalLoss s
  | .pcieRefclkLoss => Sys2Proof.Machine.execPcieRefclkLoss s
  | .registerRead r a n => Sys2Proof.Machine.execRegisterRead r a n s
  | .pllRelock d => Sys2Proof.Machine.execPllRelock d s
  | .hostReadCompletion f ring data => Sys2Proof.Machine.execHostReadCompletion f ring data s

end Sys2Proof.Machine
end

