-- ==== Sys2Proof/Certificates/Slice0/Obligations.lean ====
section
/-! DEFINITION. Statements of slice 0 for the provers: each family of commands completes with the effect its rules give, what
commands leave alone, and what every step keeps. -/

open Sys2Proof Sys2Proof.Machine

/-! ### Register access and debug (chapters 0 and 24) -/

/-- A register access of `n` bytes by requester `r` at `a` names register `g`, copy `i`, in the part `p`, of a block that `r` reaches,
that answers, and that is not an absent unit (R6, R33, R36). -/
def Slice0.Hits (s : State) (r : Requester) (a : RegAddr) (n : Nat) (g : Reg) (i : Nat) (p : Part) : Prop :=
  reaches (dropHalf s r) r a.blk = true ∧ blkShut (dropHalf s r) a.blk = false ∧ blkAbsent (dropHalf s r) a.blk = none ∧
    accessPart (blkKind a.blk) a.off n = some (g, i, p)

/-- A control bit of the hub or of a function block passes: where a host writes it, its BARs answer (R347, R369, R387). -/
def Slice0.HostOpen (s : State) (r : Requester) : Prop := ∀ g, r = .fn g → fnAnswers (dropHalf s r) g = true

/-- A control bit of a block passes: its writer reaches the block (Tables 17-1, 18-3); its channel is in service, its unit present, its
cluster not fenced (R29, R33, R36). -/
def Slice0.Open (s : State) (r : Requester) (b : BlockRef) : Prop :=
  Slice0.HostOpen s r ∧ ownSide r b = true ∧
    blkShut (dropHalf s r) b = false ∧ blkAbsent (dropHalf s r) b = none ∧ fencedWrite (dropHalf s r) b = none

/-- The place `p`, used by requester `r`, names address `a`; a host's BARs answer (R347, R348). -/
def Slice0.Names (s : State) (r : Requester) (p : RegPlace) (a : RegAddr) : Prop :=
  placeAddr r p = some a ∧ ∀ f, r = .fn f → fnAnswers s f = true

/-- JTAG may use an instruction of a debug level outside keeper mode, and inside it where the level is 1 (R541). -/
def Slice0.Jtag (s : State) (level : Nat) : Prop :=
  level ≤ s.fget Fld.NV_LC_DBGLEVEL ∧ ¬ (level = 2 ∧ s.hub.phase = .keeper)

/-- The state in which JTAG has shifted an instruction in. -/
def Slice0.jtagIr (s : State) (ir : Nat) : State := { s with mgmt := { s.mgmt with ir := ir, deny := false } }

/-- Register accesses complete (R3, R6, R9, R529, R541): a whole-register write gives its value to the register; a write
of the lower half is held; the upper half then writes both; an access of a width or at an offset that names no register changes
nothing but the error record; a read changes only the requester's captured half and the RC fields, and a read by management or
debug changes no register; a write that takes effect also arms the fault controller's entries of what it wrote (R475); the vendor and
JTAG commands answer with the value. Commands: registerWrite, registerRead, regRead, regWrite, dbgregRd, dbgregWr, dbgmem, dbghalt. -/
def Obligations.RegisterAccessesComplete : Prop :=
  (∀ s r q a n (v : Word) g i, Slice0.Names s r q a → Slice0.Hits s r a n g i .full →
    exec (.registerWrite r q n v) s = .next (armReg a.blk a.off g i (v.toNat % 2 ^ g.desc.width)
      (regPut r a.blk g i (v.toNat % 2 ^ g.desc.width) (dropHalf s r)))) ∧
  (∀ s r q a (v : Word) g i, Slice0.Names s r q a → Slice0.Hits s r a 4 g i .lower →
    exec (.registerWrite r q 4 v) s =
      .next { dropHalf s r with half := ⟨r, g.place (blkLoc a.blk) i, true, v.toNat % 2 ^ 32⟩ :: (dropHalf s r).half }) ∧
  (∀ s r q a (v : Word) g i x, Slice0.Names s r q a → Slice0.Hits s r a 4 g i .upper → halfOf s r = some x → x.wr = true →
    x.place = g.place (blkLoc a.blk) i →
    exec (.registerWrite r q 4 v) s = .next (armReg a.blk a.off g i (x.val + v.toNat % 2 ^ 32 * 2 ^ 32)
      (regPut r a.blk g i (x.val + v.toNat % 2 ^ 32 * 2 ^ 32) (dropHalf s r)))) ∧
  (∀ s r q a n (v : Word), Slice0.Names s r q a → reaches (dropHalf s r) r a.blk = true → blkShut (dropHalf s r) a.blk = false →
    blkAbsent (dropHalf s r) a.blk = none → (∀ f, a.blk ≠ .fn f) → accessPart (blkKind a.blk) a.off n = none →
    exec (.registerWrite r q n v) s = .next (badAccess (dropHalf s r) r a)) ∧
  (∀ s r q a n g i, (∀ f : FnId, r ≠ .fn f) → Slice0.Names s r q a → g.timed = false → Slice0.Hits s r a n g i .full →
    exec (.registerRead r q n) s =
      .next (if readClears r then clearRc (dropHalf s r) a.blk g i 0 else dropHalf s r)) ∧
  (∀ s (f : FnId) q a n g i, Slice0.Names s (.fn f) q a → g.timed = false → Slice0.Hits s (.fn f) a n g i .full →
    exec (.registerRead (.fn f) q n) s =
      .next (hostOut (clearRc (dropHalf s (.fn f)) a.blk g i 0)
        (.reply (leBytes n (regView (dropHalf s (.fn f)) a.blk g i)) false))) ∧
  (∀ s (f : FnId) c n, s.port.perst = false → s.port.ready = true → cfgExists s f = true →
    exec (.registerRead (.fn f) (.cfg c) n) s = .next (hostOut s (.reply (leBytes n (cfgView s f c)) false))) ∧
  (∀ s (a : Word) x g i, vendorAddr s a.toNat = some x → vendorOk s a.toNat 8 = true → g.timed = false →
    Slice0.Hits s .mgmt x 8 g i .full →
    exec (.regRead a 8) s = .next (respond (dropHalf s .mgmt) 0 (leBytes 8 (regView (dropHalf s .mgmt) x.blk g i)))) ∧
  (∀ s (a v : Word) x g i, vendorAddr s a.toNat = some x → vendorOk s a.toNat 8 = true → mgmtMay x 8 = true →
    Slice0.Hits s .mgmt x 8 g i .full →
    exec (.regWrite a 8 v) s =
      .next (respond (armReg x.blk x.off g i (v.toNat % 2 ^ g.desc.width)
        (regPut .mgmt x.blk g i (v.toNat % 2 ^ g.desc.width) (dropHalf s .mgmt))) 0 [])) ∧
  (∀ s (a : Word) x g i, Slice0.Jtag s 1 → vendorAddr (Slice0.jtagIr s 0x20) a.toNat = some x →
    vendorOk (Slice0.jtagIr s 0x20) a.toNat 8 = true → g.timed = false →
    Slice0.Hits (Slice0.jtagIr s 0x20) .jtag x 8 g i .full →
    exec (.dbgregRd a 8) s =
      .next (setTdo (dropHalf (Slice0.jtagIr s 0x20) .jtag) [regView (dropHalf (Slice0.jtagIr s 0x20) .jtag) x.blk g i])) ∧
  (∀ s (a v : Word) x g i, Slice0.Jtag s 2 → vendorAddr (Slice0.jtagIr s 0x30) a.toNat = some x →
    vendorOk (Slice0.jtagIr s 0x30) a.toNat 8 = true → Slice0.Hits (Slice0.jtagIr s 0x30) .jtag x 8 g i .full →
    exec (.dbgregWr a 8 v) s =
      .next (armReg x.blk x.off g i (v.toNat % 2 ^ g.desc.width)
        (regPut .jtag x.blk g i (v.toNat % 2 ^ g.desc.width) (dropHalf (Slice0.jtagIr s 0x30) .jtag)))) ∧
  (∀ s (a v : Word), Slice0.Jtag s 2 → dbgReach (Slice0.jtagIr s 0x31) a.toNat = true →
    exec (.dbgmem a true v) s = .next (guardPut (Slice0.jtagIr s 0x31) (tgaMem a.toNat) (dBytes 8 v.toNat)) ∧
    exec (.dbgmem a false v) s =
      .next (setTdo (Slice0.jtagIr s 0x31) [dNat ((Slice0.jtagIr s 0x31).readMem (tgaMem a.toNat) 8)])) ∧
  (∀ s (t : TileId), let u := dropHalf (Slice0.jtagIr s 0x32) .jtag
    let l := tlLoc t.c.ch t.c.cl t.t
    Slice0.Jtag s 2 → Slice0.Open (Slice0.jtagIr s 0x32) .jtag (.tl t) →
    exec (.dbghalt (.tile t) false) s = .next (u.fset Fld.TL_CTRL_HALT l 0 1) ∧
    (tileSt u t = tHalted → (u.tl t.c.ch t.c.cl t.t).stepping = false → (u.tl t.c.ch t.c.cl t.t).ended = false →
      exec (.dbghalt (.tile t) true) s =
        .next ((u.fset Fld.TL_STATUS_STATE l 0 tRun).setTl t.c.ch t.c.cl t.t fun x => { x with ended := false }))) ∧
  (∀ s (w : StwId), let u := dropHalf (Slice0.jtagIr s 0x32) .jtag
    Slice0.Jtag s 2 → Slice0.Open (Slice0.jtagIr s 0x32) .jtag (.cl w.c) →
    exec (.dbghalt (.stw w) false) s = .next (u.fset Fld.CL_STWn_CTRL_HALT (clLoc w.c.ch w.c.cl) w.w 1) ∧
    ((u.stw w.c.ch w.c.cl w.w).st = wHalted → exec (.dbghalt (.stw w) true) s =
      .next (setStw u w.c.ch w.c.cl w.w fun x => { x with st := wRun })))

/-! ### Craong-T tiles (chapters 3 and 4) -/

/-- The numbers of a tile's channel, cluster and tile, and its register location. -/
def Slice0.loc (id : TileId) : Nat := tlLoc id.c.ch id.c.cl id.t

/-- Source operand `k` of the instruction as the tile reads it. -/
def Slice0.src (s : State) (id : TileId) (o : TOp) (ins : TInstr) (k : Nat) : Opd :=
  (sourcesOf o ins (s.tl id.c.ch id.c.cl id.t)).getD k {}

/-- The conditions of R46 hold: the tile is live, its slot decodes to `o` with `ins`, every token it names waits, and the
local input queue has room for what it emits; and the instruction fires under no take (R72). -/
def Slice0.TileReady (s : State) (id : TileId) (o : TOp) (ins : TInstr) : Prop :=
  let t := s.tl id.c.ch id.c.cl id.t
  tileLive s id.c.ch id.c.cl id.t = true ∧ tileDecode (tileWord s id.c.ch id.c.cl id.t) = some (o, ins) ∧
    missingPort o ins t = none ∧ flitsOf o ins none ≤ room8 t.rq t.retR 4 ∧ firesUnder o ins t = []

/-- The command of each tile instruction. -/
def Slice0.tileCommand : TOp → TileId → Instr
  | .nop => .tNop | .end_ => .tEnd | .jmp => .tJmp | .br => .tBr | .loop => .tLoop | .drop => .tDrop
  | .mac => .tMac | .macb => .tMacb | .mul => .tMul | .add => .tAdd | .sub => .tSub | .max => .tMax | .min => .tMin
  | .mmac => .tMmac | .imac => .tImac | .iadd => .tIadd | .isub => .tIsub | .iand => .tIand | .ior => .tIor
  | .ixor => .tIxor | .ishl => .tIshl | .ishr => .tIshr
  | .fma => .tFma | .fadd => .tFadd | .fsub => .tFsub | .fmul => .tFmul | .fmax => .tFmax | .fmin => .tFmin | .fn => .tFn
  | .cvt => .tCvt | .mov => .tMov | .perm => .tPerm | .rot => .tRot | .bcst => .tBcst | .sel => .tSel
  | .rsum => .tRsum | .rmax => .tRmax | .rmin => .tRmin | .ramax => .tRamax | .rbexp => .tRbexp
  | .fwd => .tFwd | .fwdh => .tFwdh
  | .pcmp => .tPcmp | .plog => .tPlog | .pset => .tPset | .pcls => .tPcls
  | .ld => .tLd | .ldh => .tLdh | .lde => .tLde | .st => .tSt | .sth => .tSth
  | .tkent => .tTkent | .tklv => .tTklv | .sig => .tSig

/-- Every Craong-T instruction fires when the conditions of R46 hold (R46, R47): the tile runs on, or halts after `END` or a
step; the firing is counted; and the program counter moves to the next slot unless the instruction steers it. The
instructions are NOP, END, JMP, BR, LOOP, DROP, MAC, MACB, MUL, ADD, SUB, MAX, MIN, MMAC, IMAC, IADD, ISUB, IAND, IOR, IXOR,
ISHL, ISHR, FMA, FADD, FSUB, FMUL, FMAX, FMIN, FN, CVT, MOV, PERM, ROT, BCST, SEL, RSUM, RMAX, RMIN, RAMAX, RBEXP, FWD, FWDH,
PCMP, PLOG, PSET, PCLS, LD, LDH, LDE, ST, STH, TKENT, TKLV and SIG. -/
def Obligations.TileInstructionsFire : Prop :=
  ∀ (o : TOp) s id ins, Slice0.TileReady s id o ins →
    ∃ u, exec (Slice0.tileCommand o id) s = .next u ∧
      u.fget Fld.TL_STATUS_STATE (Slice0.loc id) =
        (if o = .end_ ∨ (s.tl id.c.ch id.c.cl id.t).stepping = true then tHalted else tRun) ∧
      (u.tl id.c.ch id.c.cl id.t).stepping = false ∧
      u.fget Fld.TL_FIRECNT_FIRED (Slice0.loc id) = min (s.fget Fld.TL_FIRECNT_FIRED (Slice0.loc id) + 1) (2 ^ 64 - 1) ∧
      (o ≠ .end_ → o ≠ .jmp → o ≠ .br → o ≠ .loop →
        u.fget Fld.TL_STATUS_PC (Slice0.loc id) = (s.fget Fld.TL_STATUS_PC (Slice0.loc id) + 1) % 256)

/-- What a tile instruction leaves unchanged when it fires under no take: memory, the clusters, the channels, every other
tile, the vector registers other than its destination register or pair, the predicate registers other than its
destination, and the scratch rows other than the one a store writes. -/
def Obligations.TileInstructionFrame : Prop :=
  ∀ (o : TOp) s id ins u, Slice0.TileReady s id o ins → exec (Slice0.tileCommand o id) s = .next u →
    (∀ a, s.byteAt a = u.byteAt a) ∧ u.cls = s.cls ∧ u.chans = s.chans ∧
    (∀ k, k ≠ Slice0.loc id → SMap.get? u.tiles k = SMap.get? s.tiles k) ∧
    (∀ r, (ins.wr = true → (o.shape ins).d = .vec → r ≠ ins.dst) →
      (ins.wr = true → (o.shape ins).d = .pair → r ≠ ins.dst ∧ r ≠ ins.dst + 1) →
      vreg (u.tl id.c.ch id.c.cl id.t) r = vreg (s.tl id.c.ch id.c.cl id.t) r) ∧
    (∀ r, (ins.wr = true → (o.shape ins).d = .pred → r ≠ ins.dst) →
      preg (u.tl id.c.ch id.c.cl id.t) r = preg (s.tl id.c.ch id.c.cl id.t) r) ∧
    (∀ r, (isStore o = true → r ≠ rowOf ins (Slice0.src s id o ins 0)) →
      srow (u.tl id.c.ch id.c.cl id.t) r = srow (s.tl id.c.ch id.c.cl id.t) r)

/-- One lane of an integer or moving instruction: `a` and `b` are the lanes of the sources, `i` the lane (Tables 4-6, 4-9). -/
def Slice0.tileLane (o : TOp) (ins : TInstr) (a b : List Nat) (p i : Nat) : Nat :=
  let x := a.getD i 0
  let y := b.getD i 0
  match o with
  | .iadd => if ins.mod2 % 2 = 1 then uint 16 (max (-32768) (min 32767 (sint 16 x + sint 16 y))) else (x + y) % 2 ^ 16
  | .isub => if ins.mod2 % 2 = 1 then uint 16 (max (-32768) (min 32767 (sint 16 x - sint 16 y))) else (x + 2 ^ 16 - y) % 2 ^ 16
  | .iand => x &&& y
  | .ior => x ||| y
  | .ixor => x ^^^ y
  | .ishl => x * 2 ^ (y % 16) % 2 ^ 16
  | .ishr => if ins.mod2 % 2 = 1 then x / 2 ^ (y % 16) else uint 16 (sint 16 x / (2 ^ (y % 16) : Nat))
  | .mov => x
  | .perm => a.getD (y % 32) 0
  | .rot => a.getD ((i + ins.imm) % 32) 0
  | .bcst => a.getD ins.imm 0
  | .sel => if p.testBit i then x else y
  | _ => 0

/-- The integer and moving instructions write their lanes (R66, R76, R79): an active lane of the destination takes the result, an
inactive lane keeps its value. They are IADD, ISUB, IAND, IOR, IXOR, ISHL, ISHR, MOV, PERM, ROT, BCST and SEL. -/
def Obligations.TileLaneResults : Prop :=
  ∀ (o : TOp) s id ins, o ∈ [TOp.iadd, .isub, .iand, .ior, .ixor, .ishl, .ishr, .mov, .perm, .rot, .bcst, .sel] →
    Slice0.TileReady s id o ins → ins.wr = true →
    ∃ u, exec (Slice0.tileCommand o id) s = .next u ∧ ∀ i, i < 32 →
      laneOf (vreg (u.tl id.c.ch id.c.cl id.t) ins.dst).val i =
        if ins.pen = false ∨ (preg (s.tl id.c.ch id.c.cl id.t) ins.preg).val.toNat.testBit i ≠ ins.pneg then
          Slice0.tileLane o ins (Slice0.src s id o ins 0).lanes (Slice0.src s id o ins 1).lanes
            (preg (s.tl id.c.ch id.c.cl id.t) ins.c).val.toNat i
        else laneOf (vreg (s.tl id.c.ch id.c.cl id.t) ins.dst).val i

/-- The flow control instructions steer the program counter (R74): END leaves it, JMP takes its target, BR takes it where
the predicate meets its condition, LOOP counts lane 0 of its register down and takes it unless the count is now 0. -/
def Obligations.TileFlowControl : Prop :=
  ∀ s id ins,
    let l := Slice0.loc id
    let pc := s.fget Fld.TL_STATUS_PC l
    let p := (preg (s.tl id.c.ch id.c.cl id.t) ins.a).val.toNat
    let n := laneOf (vreg (s.tl id.c.ch id.c.cl id.t) ins.dst).val 0
    (Slice0.TileReady s id .end_ ins → ∃ u, exec (.tEnd id) s = .next u ∧ u.fget Fld.TL_STATUS_PC l = pc ∧
      u.fget Fld.TL_STATUS_STATE l = tHalted) ∧
    (Slice0.TileReady s id .jmp ins → ∃ u, exec (.tJmp id) s = .next u ∧ u.fget Fld.TL_STATUS_PC l = ins.imm) ∧
    (Slice0.TileReady s id .br ins → ∃ u, exec (.tBr id) s = .next u ∧
      u.fget Fld.TL_STATUS_PC l =
        if (ins.mod2 = 0 ∧ p ≠ 0) ∨ (ins.mod2 = 1 ∧ p = 0) ∨ (ins.mod2 = 2 ∧ p = 2 ^ 32 - 1) ∨ (ins.mod2 = 3 ∧ p ≠ 2 ^ 32 - 1)
        then ins.imm else (pc + 1) % 256) ∧
    (Slice0.TileReady s id .loop ins → ∃ u, exec (.tLoop id) s = .next u ∧
      laneOf (vreg (u.tl id.c.ch id.c.cl id.t) ins.dst).val 0 = (n + 65535) % 65536 ∧
      u.fget Fld.TL_STATUS_PC l = if n = 1 then (pc + 1) % 256 else ins.imm)

/-- Writers of a tile's block (Table 18-3) change it in the states that allow it (R55, R69, R111): HALT asks for a halt, which takes
effect between instructions; RESUME and STEP act on a halted tile, past the slot of an END; a seed written in RESET or HALTED
seeds every lane; a reserved encoding faults the tile. Commands: tlCtrlHalt, tileHaltEffect, tlCtrlResume, tlCtrlStep,
tlRngseedWrite, tileReservedEncoding. -/
def Obligations.TileControlCompletes : Prop :=
  (∀ s r id, Slice0.Open s r (.tl id) → mayCl (dropHalf s r) r id.c.ch id.c.cl = true →
    exec (.tlCtrlHalt r id) s = .next ((dropHalf s r).fset Fld.TL_CTRL_HALT (Slice0.loc id) 0 1)) ∧
  (∀ s id, s.fbit Fld.TL_CTRL_HALT (Slice0.loc id) = true → (tileSt s id = tReady ∨ tileSt s id = tRun) →
    arrayClock s id.c.ch id.c.cl = true → ∃ u, exec (.tileHaltEffect id) s = .next u ∧
      tileSt u id = tHalted ∧ u.fbit Fld.TL_CTRL_HALT (Slice0.loc id) = false ∧
      u.fget Fld.TL_STATUS_PC (Slice0.loc id) = s.fget Fld.TL_STATUS_PC (Slice0.loc id) ∧ u.mem = s.mem) ∧
  (∀ s r id, Slice0.Open s r (.tl id) → mayCl (dropHalf s r) r id.c.ch id.c.cl = true → tileSt s id = tHalted →
    (s.tl id.c.ch id.c.cl id.t).stepping = false → ∃ u, exec (.tlCtrlResume r id) s = .next u ∧ tileSt u id = tRun ∧
      u.fget Fld.TL_STATUS_PC (Slice0.loc id) =
        (if (s.tl id.c.ch id.c.cl id.t).ended = true then (s.fget Fld.TL_STATUS_PC (Slice0.loc id) + 1) % 256
         else s.fget Fld.TL_STATUS_PC (Slice0.loc id)) ∧ u.mem = s.mem) ∧
  (∀ s r id, Slice0.Open s r (.tl id) → mayCl (dropHalf s r) r id.c.ch id.c.cl = true → tileSt s id = tHalted →
    (s.tl id.c.ch id.c.cl id.t).stepping = false → ∃ u, exec (.tlCtrlStep r id) s = .next u ∧ tileSt u id = tHalted ∧
      (u.tl id.c.ch id.c.cl id.t).stepping = true ∧ u.mem = s.mem) ∧
  (∀ s r id (v : Word), Slice0.Open s r (.tl id) → mayCl (dropHalf s r) r id.c.ch id.c.cl = true →
    (tileSt s id = tReset ∨ tileSt s id = tHalted) →
    exec (.tlRngseedWrite r id v) s =
      .next (((dropHalf s r).setReg .TL_RNGSEED (Slice0.loc id) 0 (v.toNat % 2 ^ 32)).setTl id.c.ch id.c.cl id.t
        fun x => seedTile x (v.toNat % 2 ^ 32))) ∧
  (∀ s id, tileLive s id.c.ch id.c.cl id.t = true → tileReserved (tileWord s id.c.ch id.c.cl id.t) = true →
    exec (.tileReservedEncoding id) s =
      .next (abortCluster (((s.setTl id.c.ch id.c.cl id.t fun x => { x with stepping := false }).fset
        Fld.TL_STATUS_STATE (Slice0.loc id) 0 tFaulted).fset Fld.TL_STATUS_CODE (Slice0.loc id) 0 cUnitAbsent)
        id.c.ch id.c.cl cUnitAbsent))

/-! ### The hub and control of stewards -/

/-- The hub's commands: an oldest change that waits is mirrored and then reported (R32); a survivor that has a notice of
retirement to take ends what it has aimed at the retired channel (R26, R485); loss of the PCIe reference clock takes the
link down (R556). Commands: hubCapsMirrorUpdate, retirementNotice, pcieRefclkLoss. -/
def Obligations.HubCommandsComplete : Prop :=
  (∀ s (ch : Ch) p, s.hub.capsWait.find? (fun p => decide (p.1 = ch.val)) = some p →
    exec (.hubCapsMirrorUpdate ch) s =
      .next (postGranted (({ s with hub := { s.hub with capsWait := s.hub.capsWait.erase p } } : State).setReg
        .HUB_CHCAPSn 0 ch (s.regN .CH_CAPS ch)) ch 3 p.2 (s.fget Fld.CH_CAPS_CAPS_GEN ch))) ∧
  (∀ s (ch gone : Ch), (ch.val, gone.val) ∈ s.hub.notices →
    exec (.retirementNotice ch gone) s =
      .next (noticeTaken { s with hub := { s.hub with notices := s.hub.notices.erase (ch.val, gone.val) } } ch gone)) ∧
  (∀ s, s.port.ready = true → exec .pcieRefclkLoss s = .next (portReset s))

/-- Control of a steward by a writer of its cluster (R142, Table 18-3): HALT leaves a request; it takes effect between
instructions, or ends a wait that it may abandon; RESUME and STEP act on a halted steward. Commands: clStwCtrlHalt,
stewardHaltEffect, clStwCtrlResume, clStwCtrlStep. -/
def Obligations.StewardControlCompletes : Prop :=
  ∀ s (w : StwId),
    let ch := w.c.ch.val
    let c := w.c.cl.val
    (∀ r, Slice0.Open s r (.cl w.c) → mayCl (dropHalf s r) r ch c = true →
      exec (.clStwCtrlHalt r w) s = .next ((dropHalf s r).fset Fld.CL_STWn_CTRL_HALT (clLoc ch c) w.w 1)) ∧
    (s.fbit Fld.CL_STWn_CTRL_HALT (clLoc ch c) w.w = true → clocked s ch c = true → (s.stw ch c w.w).st = wRun →
      ∃ u, exec (.stewardHaltEffect w) s = .next u ∧ (u.stw ch c w.w).st = wHalted ∧
        u.fbit Fld.CL_STWn_CTRL_HALT (clLoc ch c) w.w = false ∧ (u.stw ch c w.w).pc = (s.stw ch c w.w).pc ∧
        (u.stw ch c w.w).x = (s.stw ch c w.w).x ∧ u.mem = s.mem) ∧
    (s.fbit Fld.CL_STWn_CTRL_HALT (clLoc ch c) w.w = true → clocked s ch c = true → (s.stw ch c w.w).st = wStalled →
      (s.stw ch c w.w).wait.haltable = true →
      exec (.stewardHaltEffect w) s =
        .next (setStw ((stwAbandon s ch c w.w).fset Fld.CL_STWn_CTRL_HALT (clLoc ch c) w.w 0) ch c w.w
          fun x => { x with st := wHalted, stepping := false })) ∧
    (∀ r, Slice0.Open s r (.cl w.c) → mayCl (dropHalf s r) r ch c = true → (s.stw ch c w.w).st = wHalted →
      exec (.clStwCtrlResume r w) s = .next (setStw (dropHalf s r) ch c w.w fun x => { x with st := wRun }) ∧
      exec (.clStwCtrlStep r w) s = .next (setStw (dropHalf s r) ch c w.w fun x => { x with st := wRun, stepping := true }))

/-! ### The array's edge, the mesh and memory (chapters 3, 8, 9 and 13) -/

/-- It is the turn of an array port at the gateway of a clocked cluster (R43). -/
def Slice0.PortTurn (s : State) (c : Cl) (p : Fin 16) : Prop := arrayClock s c.ch c.cl = true ∧ arrayTurn s c.ch c.cl p = true

/-- The gateway's turn passes on from an array port it has served (R43). -/
def Slice0.served (u : State) (c : Cl) (p : Fin 16) : State := u.setClu c.ch c.cl fun k => { k with arrPtr := (p.val + 1) % 16 }

/-- The network's commands. A router in a clocked array serves its links, its local path and then its finished inputs
(R42 to R44); a credit comes back to its sender (R44); an array port in its turn has its first flit dropped where the egress entry is
not usable, its speculative flit taken to the pen or discarded, and its token sent as its entry says where it can leave (R43, R60,
R238); a flit at a depot interface port goes to the buffer it names (R209); a port emits the next flit of the buffer it serves (R211).
Commands: flitRoute, creditReturn, egressToken, depotInterfaceFlit, depotPortEmit. -/
def Obligations.ArrayCommandsComplete : Prop :=
  (∀ s (t : TileId), arrayClock s t.c.ch t.c.cl = true →
    exec (.flitRoute t) s =
      .next ((routerHeads s t.c.ch t.c.cl t.t).foldl (routeDone t.c.ch t.c.cl t.t)
        ((routerHeads s t.c.ch t.c.cl t.t).foldl (routeLocal t.c.ch t.c.cl t.t)
          ((List.range 4).foldl (routeLink t.c.ch t.c.cl t.t (routerHeads s t.c.ch t.c.cl t.t)) s)))) ∧
  (∀ s (t : TileId) p, ∃ u, exec (.creditReturn (.router t p)) s = .next u ∧
    cnt (u.tl t.c.ch t.c.cl t.t).retR p = cnt (s.tl t.c.ch t.c.cl t.t).retR p - 1 ∧ u.cls = s.cls ∧ u.mem = s.mem) ∧
  (∀ s (c : Cl) p, ∃ u, exec (.creditReturn (.array c p)) s = .next u ∧
    cnt (u.clu c.ch c.cl).retA p = cnt (s.clu c.ch c.cl).retA p - 1 ∧ u.tiles = s.tiles ∧ u.mem = s.mem) ∧
  (∀ s (c : Cl) (p : Fin 16) f l, Slice0.PortTurn s c p → specHead s c.ch c.cl p = none → portFlits s c.ch c.cl p = f :: l →
    egValid (s.regN .CL_EGn (clLoc c.ch c.cl) f.route.toNat) = false →
    exec (.egressToken c p) s = .next (Slice0.served (egressDrop s c.ch c.cl p 1 0 f.route.toNat cCfgIgnored) c p)) ∧
  (∀ s (c : Cl) (p : Fin 16) f u, Slice0.PortTurn s c p → specHead s c.ch c.cl p = some f → penFlit s c.ch c.cl p f = some u →
    exec (.egressToken c p) s = .next (Slice0.served u c p)) ∧
  (∀ s (c : Cl) (p : Fin 16) f l t u, Slice0.PortTurn s c p → specHead s c.ch c.cl p = none → portFlits s c.ch c.cl p = f :: l →
    f.kind = 0#2 → gateOut s c.ch c.cl = true →
    egValid (s.regN .CL_EGn (clLoc c.ch c.cl) f.route.toNat) = true → firstToken (f :: l) = some t →
    (egType (s.regN .CL_EGn (clLoc c.ch c.cl) f.route.toNat) = egQueueTy →
      egressMsg s c.ch c.cl p f.route.toNat (s.regN .CL_EGn (clLoc c.ch c.cl) f.route.toNat) t = some u →
      exec (.egressToken c p) s = .next (Slice0.served u c p)) ∧
    (egType (s.regN .CL_EGn (clLoc c.ch c.cl) f.route.toNat) = egWriteTy →
      egressWrite s c.ch c.cl p f.route.toNat (s.regN .CL_EGn (clLoc c.ch c.cl) f.route.toNat) t = some u →
      exec (.egressToken c p) s = .next (Slice0.served u c p)) ∧
    (egType (s.regN .CL_EGn (clLoc c.ch c.cl) f.route.toNat) = egBufferTy →
      egressBuffer s c.ch c.cl p f.route.toNat (s.regN .CL_EGn (clLoc c.ch c.cl) f.route.toNat) f = some u →
      exec (.egressToken c p) s = .next (Slice0.served u c p))) ∧
  (∀ s (c : Cl) (p : Fin 16) f l u, Slice0.PortTurn s c p → specHead s c.ch c.cl p = none → portFlits s c.ch c.cl p = f :: l →
    f.kind = 1#2 → gateOut s c.ch c.cl = true →
    egValid (s.regN .CL_EGn (clLoc c.ch c.cl) f.route.toNat) = true →
    egType (s.regN .CL_EGn (clLoc c.ch c.cl) f.route.toNat) = egSyncTy →
    egressSync s c.ch c.cl p f.route.toNat (s.regN .CL_EGn (clLoc c.ch c.cl) f.route.toNat) f = some u →
    exec (.egressToken c p) s = .next (Slice0.served u c p)) ∧
  (∀ s (c : Cl) (p : Fin 16) f b u code n, arrayClock s c.ch c.cl = true → flitDue s c.ch c.cl p = some (f, b) →
    let bank := bankOf (fillAt s c.ch c.cl b)
    let t := bankTook s c.ch c.cl bank p
    bankTurn s c.ch c.cl bank p = true →
    guardStore t (1, c.cl.val, p.val) (fillAt t c.ch c.cl b) (tokenBytes [f]) = (u, some (code, n)) →
    exec (.depotInterfaceFlit c p) s =
      .next (progress (sbAdvance (portTake 1 u c.ch c.cl (16 + p)) c.ch c.cl b n) c.ch c.cl)) ∧
  (∀ s (c : Cl) (p : Fin 16) (n : Fin 32), emitDue s c.ch c.cl p = some n.val →
    bankTurn s c.ch c.cl (bankOf (emitAt s c.ch c.cl p n)) p = true → ∃ u, exec (.depotPortEmit c p n) s = .next u ∧
      u.mem = s.mem ∧
      ∃ f, lst (u.tl c.ch c.cl (portInput p).1).rq (portInput p).2 = lst (s.tl c.ch c.cl (portInput p).1).rq (portInput p).2 ++ [f])

/-- What a part of a depot request that has been performed leaves behind. -/
def Slice0.bankDone (u : State) (ch c : Nat) (r : Req) (b : Nat) : State :=
  performEnd (setReq (if (r.isWrite && !r.byDolly c) = true then progress u ch c else u) ch r.no fun x =>
    { x with parts := b :: x.parts })
    ch r.no (fun b' => b' = b || r.parts.contains b') (depotBlocks r)

/-- The commands of the mesh and the memory system. A head that has a next hop with room moves to it, and one that has come to its
cluster arrives (R51); a depot bank grants a steward's waiting access first, then the burst requester whose turn it is (R177); a
stack's slot grants a granule of the class the split picks (R192 to R194); a waiting request takes a transaction table entry in
turn (R191); a bandwidth split whose shares are at least 1 and add up to 64 is committed, and takes effect at each stack's frame
boundary (R192). Commands: gatewayMeshHop, depotBankGrant, stackSlotGrant, ttEntryAssign, chBwsplitCommit, bwsplitFrameBoundary. -/
def Obligations.FabricCommandsComplete : Prop :=
  (∀ s (c : Cl) (inp : Fin 9) r l, clocked s c.ch c.cl = true → meshQueue s c.ch c.cl inp = r :: l → r.units = [] →
    (inp.val = 8 → gateOut s c.ch c.cl = true) → gwBad s c.ch c.cl inp r = false → readBack s c.ch c.cl r = r →
    (∀ k i, stepToward c.cl r.dest = some (k, i) → beats s c.ch r ≤ meshRoom s c.ch k i →
      exec (.gatewayMeshHop c inp) s = .next (moveReq (leaveMesh s c.ch r c.cl inp) c.ch r.no (.mesh k i))) ∧
    (stepToward c.cl r.dest = none → remoteReq s c.ch r = false →
      exec (.gatewayMeshHop c inp) s = .next (meshArrive s c.ch c.cl inp r))) ∧
  (∀ s (c : Cl) (bank : Fin 32) r b u, depotCopying s c.ch c.cl bank = false → bankStw s c.ch c.cl bank = some (r, b) →
    s.fbit Fld.CL_CAPS_FENCED (clLoc c.ch c.cl) = false →
    let lo := (inBlock 128 (tgaMem r.tga) r.len b).1
    let n := (inBlock 128 (tgaMem r.tga) r.len b).2
    performPart (keepOwn s c.ch c.cl r lo n) c.ch r lo n = (u, true) →
    exec (.depotBankGrant c bank) s = .next (Slice0.bankDone u c.ch c.cl r b)) ∧
  (∀ s (c : Cl) (bank : Fin 32) src r b u, depotCopying s c.ch c.cl bank = false → bankStw s c.ch c.cl bank = none →
    burstTurn s c.ch c.cl bank = some src → src = 16 ∨ src = 17 →
    let t := bankTook s c.ch c.cl bank src
    bankReq t c.ch c.cl bank (fun r => (r.bySteward c.cl).isNone && (r.byDolly c.cl == decide (src = 16))) = some (r, b) →
    t.fbit Fld.CL_CAPS_FENCED (clLoc c.ch c.cl) = false →
    let lo := (inBlock 128 (tgaMem r.tga) r.len b).1
    let n := (inBlock 128 (tgaMem r.tga) r.len b).2
    performPart (keepOwn t c.ch c.cl r lo n) c.ch r lo n = (u, true) →
    exec (.depotBankGrant c bank) s = .next (Slice0.bankDone u c.ch c.cl r b)) ∧
  (∀ s (ch : Ch) (site : Fin 4) credit k q r g,
    let s' := s.setChan ch fun c => { c with credit := SMap.put c.credit site credit }
    let p := cnt (s'.chan ch).portPtr (3 * site + k)
    let t := pmCount (s'.setChan ch fun c => { c with portPtr := setCnt c.portPtr (3 * site + k) ((q + 1) % 4) }) ch (4 + k)
      (if r.cl < 96 then r.cl else 127) 1
    slotPick (siteSplit s ch site) (fun k => !(classWaiting s ch site k).isEmpty) (siteCredit s ch site) = (credit, some k) →
    (((List.range 4).map fun i => (p + i) % 4).findSome? fun q =>
      ((classWaiting s' ch site k).find? fun r => decide (r.port = q)).map fun r => (q, r)) = some (q, r) →
    granuleLeft t ch site r = some g → exec (.stackSlotGrant ch site) s = .next (grantGranule t ch r g)) ∧
  (∀ s (ch : Ch) i r, i < 99 → let q := ((s.chan ch).ttPtr + i) % 99
    (∀ j, j < i → ttFree s ch (((s.chan ch).ttPtr + j) % 99) = true → ttWaiting s ch (((s.chan ch).ttPtr + j) % 99) = none) →
    ttFree s ch q = true → ttWaiting s ch q = some r →
    exec (.ttEntryAssign ch) s = .next (leaveTable (s.setChan ch fun k => { k with ttPtr := (q + 1) % 99 }) ch r)) ∧
  (∀ s r (ch : Ch), let w := s.regN .CH_BWSPLIT ch % 2 ^ 31
    Slice0.Open s r (.ch ch) → maySup (dropHalf s r) r = true → 0 < share w 0 → 0 < share w 1 → 0 < share w 2 →
      share w 0 + share w 1 + share w 2 = 64 →
    ∃ u, exec (.chBwsplitCommit r ch) s = .next u ∧ u.regN .CH_BWLIVE ch = w ∧ (u.chan ch).splitWait = stackSites s ch) ∧
  (∀ s (ch : Ch) (site : Fin 4), site.val ∈ (s.chan ch).splitWait → ∃ u, exec (.bwsplitFrameBoundary ch site) s = .next u ∧
    SMap.get? (u.chan ch).split site = some (s.regN .CH_BWLIVE ch % 2 ^ 25) ∧ site.val ∉ (u.chan ch).splitWait)

/-! ### Queues and stream buffers (chapters 9 and 10) -/

/-- The commands of the 16 queues. A message that may be delivered enters its queue, at once or when an earlier wait ends
(R227, R230); a handler starts at its table entry (R233); POISON and UNPOISON mark and empty a queue (R236); a
configuration is written only while the queue is empty and no handler of it runs (R225); the handler table is written by
writers of the cluster. Commands: queueArrival, messageEnqueueAfterWait, handlerDispatch, clQctrlPoison, clQctrlUnpoison, clQcfgWrite,
clHtWrite. -/
def Obligations.QueueCommandsComplete : Prop :=
  (∀ s (c : Cl) (inp : Fin 9) r h b held, let q := qaQueue r.tga
    arrived s c.ch c.cl inp held = some (r, h, b) → deliverCode s c.ch r.fn r.tga = 0 → (queue s c.ch c.cl q).length < 32 →
    queueTurn s c.ch c.cl q inp (fun i => if i = 9 then arrayWants s c.ch c.cl q else inputWants s c.ch c.cl q i) = true →
    gwBad s c.ch c.cl inp r = false → readBack s c.ch c.cl r = r → r.op = .msg h b → anyPsn b = false →
    exec (if held then .messageEnqueueAfterWait c inp else .queueArrival c inp) s =
      .next (queueTook (finish (enqueue (leaveMesh s c.ch r c.cl inp) c.ch c.cl q h b) c.ch r 0 []) c.ch c.cl q inp)) ∧
  (∀ s (w : StwId) q,
    let h := ((queue s w.c.ch w.c.cl q).head?.map Msg.hdr).getD 0
    let n := if bits h 0 2 = 1 then bits h 2 8 else qDefh s w.c.ch w.c.cl q
    let e := s.regN .CL_HTn (clLoc w.c.ch w.c.cl) n
    mayDispatch (s.stw w.c.ch w.c.cl w.w) = true → (s.stw w.c.ch w.c.cl w.w).st ≠ wStalled → clocked s w.c.ch w.c.cl = true →
    (List.range 16).find? (dispatchDue s w.c.ch w.c.cl w.w) = some q → qPsn s w.c.ch w.c.cl q = false → bit e 22 = true →
    exec (.handlerDispatch w) s = .next (setStw (wakeDistrict s w.c.ch (clDistrict w.c.cl)) w.c.ch w.c.cl w.w fun x =>
      { x with hepc := x.pc, pc := bits e 0 22, inh := some (q, n), inMsg := true })) ∧
  (∀ s r (c : Cl) (q : Fin 16), Slice0.Open s r (.cl c) → maySup (dropHalf s r) r = true →
    exec (.clQctrlPoison r c q) s = .next (poisonQueue (dropHalf s r) c.ch c.cl q)) ∧
  (∀ s r (c : Cl) (q : Fin 16), Slice0.Open s r (.cl c) → maySup (dropHalf s r) r = true →
    ∃ u, exec (.clQctrlUnpoison r c q) s = .next u ∧
    queue u c.ch c.cl q = [] ∧ qPsn u c.ch c.cl q = false ∧ u.mem = s.mem) ∧
  (∀ s r (c : Cl) (q : Fin 16) (v : Word), Slice0.Open s r (.cl c) → mayCl (dropHalf s r) r c.ch c.cl = true →
    queue s c.ch c.cl q = [] → inHandler s c.ch c.cl q = false → bits v.toNat 0 2 ≠ 3 →
    exec (.clQcfgWrite r c q v) s =
      .next ((dropHalf s r).setReg .CL_QCFGn (clLoc c.ch c.cl) q (putBits (v.toNat % 2 ^ 32) 12 4 0))) ∧
  (∀ s r (c : Cl) (n : Fin 256) (v : Word), Slice0.Open s r (.cl c) → mayCl (dropHalf s r) r c.ch c.cl = true →
    exec (.clHtWrite r c n v) s = .next ((dropHalf s r).setReg .CL_HTn (clLoc c.ch c.cl) n (v.toNat % 2 ^ 23)))

/-- The commands of the stream buffers by a writer of the cluster (R202 to R209, R214 to R216): COMMIT takes a valid
configuration, which is applied when the buffer is idle; SWAP asks for a swap that is made when a half is filled and the
other is free; PUB publishes a slot of a buffer its stewards fill; REL releases the head slot of a buffer they drain;
FLUSH publishes a part-filled slot. Commands: clSbCtrlCommit, sbConfigApply, clSbCtrlSwap, sbSwap, clSbCtrlPub, clSbCtrlRel,
clSbCtrlFlush. -/
def Obligations.StreamBufferCommandsComplete : Prop :=
  ∀ s r (c : Cl) (n : Fin 32),
    let t := dropHalf s r
    let l := clLoc c.ch c.cl
    (Slice0.Open s r (.cl c) → mayCl t r c.ch c.cl = true →
      sbWordsOk (s.regN .CL_SBn_CFGA l n) (s.regN .CL_SBn_CFGB l n) = true →
      sbClashes t c.ch c.cl n (s.regN .CL_SBn_CFGA l n) (s.regN .CL_SBn_CFGB l n) = false →
      sbSyncOk t c.ch (clFn s c.ch c.cl) (s.regN .CL_SBn_CFGA l n) (s.regN .CL_SBn_CFGB l n) = true →
      exec (.clSbCtrlCommit r c n) s =
        .next (setSbuf (t.fset Fld.CL_SBn_STAT_PENDING l n 1) c.ch c.cl n fun x =>
          { x with pend := some (s.regN .CL_SBn_CFGA l n, s.regN .CL_SBn_CFGB l n) })) ∧
    (∀ a b, (sbuf s c.ch c.cl n).pend = some (a, b) → sbIdle s c.ch c.cl n = true → clocked s c.ch c.cl = true →
      exec (.sbConfigApply c n) s = .next (sbApply s c.ch c.cl n a b)) ∧
    (Slice0.Open s r (.cl c) → mayCl t r c.ch c.cl = true → sbMode (sbA s c.ch c.cl n) = mHalves →
      exec (.clSbCtrlSwap r c n) s = .next (t.fset Fld.CL_SBn_STAT_SWAPREQ l n 1)) ∧
    (sbMode (sbA s c.ch c.cl n) = mHalves → s.fbit Fld.CL_SBn_STAT_SWAPREQ l n = true → (sbuf s c.ch c.cl n).filled = true →
      (sbuf s c.ch c.cl n).full = false → clocked s c.ch c.cl = true →
      exec (.sbSwap c n) s = .next (sbSwapNow s c.ch c.cl n)) ∧
    (Slice0.Open s r (.cl c) → mayCl t r c.ch c.cl = true → sbBehind t c.ch r = none →
      sbMode (sbA t c.ch c.cl n) ≠ mOff → sbProd (sbA t c.ch c.cl n) = 2 → sbRoom t c.ch c.cl n = true →
      sbMarked t c.ch c.cl n = false → exec (.clSbCtrlPub r c n) s = .next (sbPublish t c.ch c.cl n)) ∧
    (Slice0.Open s r (.cl c) → mayCl t r c.ch c.cl = true → sbBehind t c.ch r = none → sbHead t c.ch c.cl n = true →
      sbCmask (sbA t c.ch c.cl n) = 0 → exec (.clSbCtrlRel r c n) s = .next (sbRelease t c.ch c.cl n)) ∧
    (Slice0.Open s r (.cl c) → mayCl t r c.ch c.cl = true → sbProd (sbA t c.ch c.cl n) ≠ 2 → sbNamed t c.ch c.cl n = false →
      sbFill t c.ch c.cl n ≠ 0 → sbRoom t c.ch c.cl n = true →
      exec (.clSbCtrlFlush r c n) s = .next (sbPublish t c.ch c.cl n))

/-! ### Synchronization, sidings, the non-finite monitor and the dolly (chapters 9, 11, 12 and 13) -/

/-- The commands of the synchronization unit. The head operation of a bank is performed and answered (R246, R248); a wait
whose condition holds is answered with the value, and one whose condition does not hold is registered (R250); a remote
wait turned away is issued again (R251); a waiting steward parks once the object lends (R254); a requested output pulse is
driven and then ends (R252); the object window, POISON and UNPOISON act on the selected object (R257, R258); a notice of an
input pulse releases the armed global barriers (R468). Commands: syncOperation, waitRegistration, remoteWaitRetry, stewardPark,
syncOutPulse, syncOutEnd, chSyncselWrite, chSyncctrlPoison, chSyncctrlUnpoison, syncInNotice. -/
def Obligations.SyncCommandsComplete : Prop :=
  (∀ s (ch : Ch) (bank : Fin 4) r n, s.up ch = true → bankHead s ch bank false = some (r, .rd, n) → r.parts = [] →
    (s.obj ch r.obj).psn = false → (s.obj ch r.obj).kind ≠ okUnbound →
    exec (.syncOperation ch bank) s = .next (finish s ch r 0 (dBytes 8 (s.obj ch r.obj).val))) ∧
  (∀ s (ch : Ch) (bank : Fin 4) r n op, s.up ch = true → bankHead s ch bank false = some (r, op, n) → r.parts = [] → op ≠ .rd →
    exec (.syncOperation ch bank) s =
      .next (finish (syncPost s ch r.obj op n).1 ch r (syncPost s ch r.obj op n).2 [])) ∧
  (∀ s (ch : Ch) (bank : Fin 4) r n, s.up ch = true → bankHead s ch bank true = some (r, .wge, n) →
    (s.obj ch r.obj).psn = false →
    (s.obj ch r.obj).kind ≠ okUnbound →
    (n ≤ (s.obj ch r.obj).val →
      exec (.waitRegistration ch bank) s = .next (finish s ch r 0 (dBytes 8 (s.obj ch r.obj).val))) ∧
    ((s.obj ch r.obj).val < n → r.ret.local_ = true →
      exec (.waitRegistration ch bank) s = .next (addWaiter s ch r false n))) ∧
  (∀ s (ch : Ch) r, s.up ch = true → (s.chan ch).reqs.find? (fun r => decide (r.place = .busy)) = some r →
    remoteReq s ch r = true →
    exec (.remoteWaitRetry ch) s = .next (ctIssue s ch r)) ∧
  (∀ s (w : StwId) q, (s.stw w.c.ch w.c.cl w.w).swait = some q → (s.stw w.c.ch w.c.cl w.w).st = wStalled →
    mayPark s w.c.ch w.c.cl w.w q = true → q.parked = false →
    exec (.stewardPark w) s = .next (setStw s w.c.ch w.c.cl w.w fun x => { x with swait := some { q with parked := true } })) ∧
  (∀ s, s.hub.outPend = true → s.hub.outPin = false →
    exec .syncOutPulse s = .next { s with hub := { s.hub with outPend := false, outPin := true } }) ∧
  (∀ s, exec .syncOutEnd s = .next { s with hub := { s.hub with outPin := false } }) ∧
  (∀ s r (ch : Ch) (v : Word), let o := v.toNat % 2 ^ 16
    Slice0.Open s r (.ch ch) → mayChan (dropHalf s r) r = true → ∃ u, exec (.chSyncselWrite r ch v) s = .next u ∧
      u.regN .CH_SYNCSEL ch = o ∧
      u.reg .CH_SYNCCFG ch = (s.obj ch o).bind ∧ u.chans = s.chans ∧ u.mem = s.mem) ∧
  (∀ s r (ch : Ch), let o := s.regN .CH_SYNCSEL ch
    Slice0.Open s r (.ch ch) → maySup (dropHalf s r) r = true →
    exec (.chSyncctrlPoison r ch) s = .next (poisonObj (dropHalf s r) ch o) ∧
    exec (.chSyncctrlUnpoison r ch) s = .next (setObj (dropHalf s r) ch o fun x =>
      { x with psn := false, cnt := 0, armed := false, val := if x.kind = okCounter then 0 else x.val })) ∧
  (∀ s (ch : Ch), s.up ch = true → ch.val ∈ s.hub.syncNotices → ∃ u, exec (.syncInNotice ch) s = .next u ∧
    (ldState s ch ≠ ldArmed → (∀ p ∈ (s.chan ch).objs, ¬ (p.2.kind = okBarrier ∧ p.2.scope = 2)) →
      u = { s with hub := { s.hub with syncNotices := s.hub.syncNotices.filter (· ≠ ch.val) } }))

/-- The commands of the watchdogs of a district, of prediction and of the non-finite monitor. A stall window that ends
with no stuck queue counts a round (R262, R264); the window is configured by supervisors (R263); the siding engine serves
the next queue with work (R266); the predictor is cleared (R289); the monitor's guard is armed and forced, and its configuration
is committed and applied (R298, R299). Commands: stallWindowExpiry, dstStallcfgWrite, sidingEngineCycle, chPredctrlClear, chNfctrlArm,
chNfctrlAbort, chNfcfgCommit, nfConfigApply. -/
def Obligations.MonitorCommandsComplete : Prop :=
  (∀ s (c : Cl) young, let d := dstLoc c.ch (clDistrict c.cl)
    let t := (s.fadd Fld.DST_STALLSTAT_ROUNDS d 0 1).fset Fld.DST_STALLSTAT_LASTCL d 0 c.cl
    (s.clu c.ch c.cl).watched = true → s.fbit Fld.DST_STALLCFG_EN d = true → clocked s c.ch c.cl = true →
    spillQueues.filter (stuckQueue s c.ch c.cl young) = [] →
    exec (.stallWindowExpiry c young) s = .next (dlyRecord t c.ch 5 0 c.cl 0 (unitsUsed t c.ch c.cl))) ∧
  (∀ s r (d : DistId) (v : Word), let l := dstLoc d.ch d.d
    Slice0.Open s r (.dst d) → maySup (dropHalf s r) r = true → 12 ≤ bits v.toNat 0 5 → bits v.toNat 0 5 ≤ 24 →
    ∃ u, exec (.dstStallcfgWrite r d v) s = .next u ∧ u.fget Fld.DST_STALLCFG_WLOG l = bits v.toNat 0 5 ∧
      u.fget Fld.DST_STALLCFG_EN l = bits v.toNat 8 1) ∧
  (∀ s (c : Cl) q, engineNext s c.ch c.cl = some q → bankTurn s c.ch c.cl (engineBank s c.ch c.cl q) 18 = true →
    exec (.sidingEngineCycle c) s = .next (engineCycle (bankTook s c.ch c.cl (engineBank s c.ch c.cl q) 18) c.ch c.cl)) ∧
  (∀ s r (ch : Ch), Slice0.Open s r (.ch ch) → maySup (dropHalf s r) r = true →
    exec (.chPredctrlClear r ch) s = .next ((dropHalf s r).setChan ch fun c => { c with pred := [] }) ∧
    exec (.chNfctrlArm r ch) s = .next ((dropHalf s r).fset Fld.CH_NFSTAT_GUARD ch 0 gPending) ∧
    exec (.chNfctrlAbort r ch) s = .next ((dropHalf s r).fset Fld.CH_NFSTAT_FORCE ch 0 1) ∧
    (nfCommitCode (dropHalf s r) ch (nfShadow (dropHalf s r) ch) = 0 →
      exec (.chNfcfgCommit r ch) s =
        .next ((dropHalf s r).setMon ch fun m => { m with pend := some (nfShadow (dropHalf s r) ch) }))) ∧
  (∀ s (ch : Ch) c, (s.mon ch).pend = some c → guardOf s ch ≠ gPending → (s.mon ch).held = [] →
    exec (.nfConfigApply ch) s = .next (s.setMon ch fun m => { m with live := c, pend := none }))

/-- The commands of a cluster's dolly: a descriptor that may start is started and issues its first request (R189, R190, R200);
data that returns in order is taken in; a descriptor that has ended leaves its slot, or holds its code for the wait
that collects it (R166, R167). Commands: dollyRequestIssue, dollyDataReturn, descriptorComplete. -/
def Obligations.DollyCommandsComplete : Prop :=
  (∀ s (c : Cl) (slot : Fin 64) d, dSlot? s c.ch c.cl slot = some d → d.complete = false → d.cancelled = false →
    clocked s c.ch c.cl = true →
    (d.started = true → exec (.dollyRequestIssue c slot) s = .next (dollyNext s c.ch c.cl slot d)) ∧
    (d.started = false → d.code = none → startWaits s c.ch c.cl d = false → startCode s c.ch c.cl d = 0 →
      exec (.dollyRequestIssue c slot) s =
        .next (dollyNext (setSlot s c.ch c.cl slot fun _ => { d with started := true, epoch := epochOf s c.ch }) c.ch c.cl slot
          { d with started := true, epoch := epochOf s c.ch }))) ∧
  (∀ s (c : Cl) (slot : Fin 64) d r, dSlot? s c.ch c.cl slot = some d → d.cancelled = false → d.code = none →
    clocked s c.ch c.cl = true →
    (slotReqs s c.ch c.cl slot).find? (fun r => decide (r.place = .done) && (false || decide (r.off = d.taken))) = some r →
    codeOk r.code = true →
    exec (.dollyDataReturn c slot) s = .next (takeData (dropReq s c.ch r.no) c.ch c.cl slot d r.data)) ∧
  (∀ s (c : Cl) (slot : Fin 64) d, dSlot? s c.ch c.cl slot = some d → slotDone s c.ch c.cl slot d = true →
    clocked s c.ch c.cl = true → d.sig = false → d.w ≠ 2 →
    (d.collect = true → exec (.descriptorComplete c slot) s =
      .next (setSlot s c.ch c.cl slot fun d' => { d' with complete := true, code := some (slotCode d) })) ∧
    (d.collect = false → codeOk (slotCode d) = true → exec (.descriptorComplete c slot) s =
      .next (s.setClu c.ch c.cl fun y => { y with slots := SMap.erase y.slots slot })))

/-! ### Section loads (chapter 14) and the Seal unit (chapter 15) -/

/-- A section load goes through its states (R307 to R322): GO begins the fetch of an IDLE channel; the fetched reel is checked;
the checked reel's clusters are taken and written; the written clusters are preloaded; the preloaded section is
armed, and started at once, on command or on a pulse; its start-up steps are issued and completed in turn; CLEAR, UNLOAD and
COMMIT act in the states that allow them, and an unload ends by giving the clusters back. Commands: chLdctrlGo, loadFetchDone,
loadCheckDone, loadWriteDone, preloadDone, chLdctrlStart, chLdctrlClear, chLdctrlUnload, chLdctrlCommit, startupStepIssue,
startupStepComplete, startupStepTimeout, unloadDone. -/
def Obligations.LoadCommandsComplete : Prop :=
  (∀ s r (ch : Ch), let t := dropHalf s r
    Slice0.Open s r (.ch ch) → mayHub r = true → ldState t ch = ldIdle →
    exec (.chLdctrlGo r ch) s = .next (cmtCode (beginFetch t ch (t.regN .CH_LDSRC ch) (t.fget Fld.CH_LDREQ_LENGTH ch)
      (t.fget Fld.CH_LDREQ_FUNC ch) none) ch cNone)) ∧
  (∀ s (ch : Ch) b rs, ldState s ch = ldFetch → reelCode s ch (s.load ch) = 0 → reelBack s ch = true →
    fetchPass s ch = (cNone, b, rs) → b ≠ [] →
    exec (.loadFetchDone ch) s = .next (setLdState (reelDrop (s.setLoad ch fun l =>
      { l with reel := b, sec := rlSection b, cls := rlClusters b, start := rlStart b, needs := reelNeeds b rs }) ch) ch ldCheck)) ∧
  (∀ s (ch : Ch) rs, let l := s.load ch
    let t := (s.fset Fld.CH_LDORDER_LIVE_SEQ ch 0 (rlSeq l.reel)).fset Fld.CH_LDORDER_LIVE_GAP ch 0 (rlGap l.reel)
    ldState s ch = ldCheck → parseReel l.reel = .ok rs → l.cls.any (fun k => s.fbit Fld.CL_GATE_OWNED (clLoc ch k)) = false →
    checkCode s ch l rs = cNone →
    exec (.loadCheckDone ch) s =
      .next (reelAsk (setLdState ((l.cls.foldl (takeCluster ch l) t).setLoad ch fun l =>
        { l with owned := true }) ch ldWrite) ch)) ∧
  (∀ s (ch : Ch) rs, let l := s.load ch
    let b := (reelRead s ch).map Prod.fst
    let t := (stewardPuts rs).foldl (stewardPut ch) s
    ldState s ch = ldWrite → reelCode s ch l = 0 → reelBack s ch = true → firstPsn (reelRead s ch) = none →
      parseReel b = .ok rs →
    rlClmap b = rlClmap l.reel → (∀ p ∈ stewardPuts rs, (t.load ch).puts.contains p.1 = true) → reelSame l.reel b = true →
    exec (.loadWriteDone ch) s = .next (l.cls.foldl (startPreload ch)
      (setLdState ((reelDrop (applyReel t ch l.fn b rs) ch).setLoad ch fun l => { l with reel := b }) ch ldPreload))) ∧
  (∀ s (ch : Ch), ldState s ch = ldPreload → (s.load ch).cls.any (preloadsLeft s ch) = false → (s.load ch).start ≠ 0 →
    exec (.preloadDone ch) s =
      .next (settle (setLdState (s.setLoad ch fun l => { l with pulse := false, issued := false }) ch ldArmed) ch)) ∧
  (∀ s r (ch : Ch), let t := dropHalf s r
    Slice0.Open s r (.ch ch) → mayHub r = true →
    (ldState t ch = ldArmed → (t.load ch).start = 1 →
      exec (.chLdctrlStart r ch) s = .next (settle (cmtCode (beginStart t ch) ch cNone) ch)) ∧
    (ldState t ch = ldFailed → exec (.chLdctrlClear r ch) s = .next (clearLoad (cmtCode t ch cNone) ch)) ∧
    (ldState t ch = ldIdle →
      exec (.chLdctrlUnload r ch) s = .next (settle (beginUnload t ch (t.fget Fld.CH_LDUNLOAD_SECTION ch) none) ch)) ∧
    (ldState t ch = ldArmed → orderOk (t.fget Fld.CH_LDORDER_SEQ ch) = true →
      exec (.chLdctrlCommit r ch) s =
        .next (cmtCode ((t.fset Fld.CH_LDORDER_LIVE_SEQ ch 0 (t.fget Fld.CH_LDORDER_SEQ ch)).fset Fld.CH_LDORDER_LIVE_GAP ch 0
          (t.fget Fld.CH_LDORDER_GAP ch)) ch cNone))) ∧
  (∀ s (ch : Ch), ldState s ch = ldStarting → (s.load ch).issued = false →
    exec (.startupStepIssue ch) s = .next (applySteps (s.setLoad ch fun l => { l with issued := true }) ch (stepCode s ch))) ∧
  (∀ s (ch : Ch), let t := applySteps s ch (stepCode s ch)
    ldState s ch = ldStarting → (s.load ch).issued = true → stepLeft t ch (stepCode t ch) = [] →
    (t.fget Fld.CH_LDSTAT_STEP ch = 3 → exec (.startupStepComplete ch) s = .next (loadDone t ch)) ∧
    (t.fget Fld.CH_LDSTAT_STEP ch ≠ 3 → exec (.startupStepComplete ch) s =
      .next ((t.fset Fld.CH_LDSTAT_STEP ch 0 (t.fget Fld.CH_LDSTAT_STEP ch + 1)).setLoad ch fun l =>
        { l with issued := false }))) ∧
  (∀ s (d : DistId), ldState s d.ch = ldStarting → (s.load d.ch).issued = true →
    (stepLeft s d.ch (stepCode s d.ch)).any (fun k => decide (clDistrict k = d.d.val)) = true →
    exec (.startupStepTimeout d) s = .next (loadFailAt s d.ch cUnitAbsent d.d)) ∧
  (∀ s (ch : Ch), let l := s.load ch
    let t := hostDone? (l.cls.foldl (disown ch) (l.cls.foldl (closeOut l.cls ch) s)) l.unloadCmd cNone 0 0
    ldState s ch = ldUnloading → (∀ r ∈ (s.chan ch).reqs, Req.posted l.cls r = false) → exec (.unloadDone ch) s =
      .next (settle (setLdState (t.setLoad ch fun l => { l with unloadCmd := none, cls := [], owned := false }) ch ldIdle) ch))

/-- Results of a key switch pass (R320, R322). -/
def Slice0.switched (s : State) (ch : Nat) (r : SealRun) : List SealObj :=
  let x := psetOf (ctxPset s ch (cvCtx r.d))
  (List.range r.lists.length).map fun i =>
    resultObj s ch r i 0 false (kswWords x (kskWord s (cvKeys s ch r).2) (kswInput x r i))

/-- A read of the key stream (R329). -/
def Slice0.keyRead (s : State) (ch : Nat) (e : SealEnt) (a n : Nat) : Req :=
  { ret := .seal, fn := e.fn, epoch := epochOf s ch, cl := 97, tga := a, op := .read n, cls := 0, place := .table }

/-- The Seal unit takes the oldest entry and brings it through its phases (R317 to R327, R338): a context load, or
the checks, a refresh, the bootstrap and key switch passes or the linear operation, and the write of the results; keys are
read ahead (R329); an entry queued at a disable is refused at the head, DISABLE ends what the unit holds, after a write that runs, and
ENABLE lets it go on (R343). Commands: sealEntryBegin, sealContextLoadDone, sealCheckDone, sealRefreshDone, sealPbsPassDone,
sealKswPassDone, sealLinearDone, keyStreamRead, sealWriteBegin, sealConvoyComplete, sealCtrlDisable, sealCtrlEnable. -/
def Obligations.SealCommandsComplete : Prop :=
  (∀ s (ch : Ch) n l e, (s.seal ch).run = none → (s.seal ch).order = n :: l → SMap.get? (s.seal ch).ents n = some e →
    sealClocked s ch = true → e.ctx = none →
    (e.barred = false → exec (.sealEntryBegin ch) s =
      .next ((wakeDistrict s ch 4).setSeal ch fun u => { u with run := some { ent := n, phase := 1 } })) ∧
    (e.barred = true → exec (.sealEntryBegin ch) s = .next (sealComplete s ch n cUnitAbsent))) ∧
  (∀ s (ch : Ch) r e k w bo ko, runAt s ch 7 = some (r, e) → e.ctx = some k → ctxState s ch k = 1 →
    ctxCheck s ch e = .inr (0, w, bo, ko) → w ≠ 0 →
    exec (.sealContextLoadDone ch) s = .next (sealComplete ((s.setReg .SEAL_CTXn_STAT ch k w).setSeal ch fun u =>
      { u with keydir := SMap.put u.keydir k (bo, ko) }) ch r.ent 0)) ∧
  (∀ s (ch : Ch) r e l, runAt s ch 1 = some (r, e) → cvCheck s ch e = .inl l →
    exec (.sealCheckDone ch) s = .next (sealAsk s ch e l)) ∧
  (∀ s (ch : Ch) r e code addr d ls, runAt s ch 1 = some (r, e) → cvCheck s ch e = .inr (code, addr, d, ls) → code ≠ 0 →
    exec (.sealCheckDone ch) s =
      .next (sealComplete (refusedBy (setRun s ch fun x => { x with d := d }) ch e.fn code addr) ch r.ent code)) ∧
  (∀ s (ch : Ch) r e addr d ls marks fresh hot,
    runAt s ch 1 = some (r, e) → cvCheck s ch e = .inr (0, addr, d, ls) →
    cvNoise (ctxPset s ch (cvCtx d)) (s.fget Fld.SEAL_CTXn_STAT_POLICY ch (cvCtx d)) d (fun a =>
      noiseOf (fieldAt (hdrAt s ch a) 2 2))
      (fun a => decide (hdrDim (hdrAt s ch a) = 0) && !hdrRes (hdrAt s ch a)) 0 ls [] = .inr (marks, fresh, hot) →
    ∃ u y, exec (.sealCheckDone ch) s = .next u ∧ u.mem = s.mem ∧ (u.seal ch).run = some y ∧ y.lists = ls ∧ y.marks = marks ∧
      y.phase = if marks = [] then passPhase d else 2) ∧
  (∀ s (ch : Ch) r e, runAt s ch 2 = some (r, e) →
    (∀ code, streamEnd s ch r = some code → code ≠ 0 →
      exec (.sealRefreshDone ch) s = .next (sealComplete s ch r.ent code)) ∧
    (streamEnd s ch r = some 0 → ∃ u y, exec (.sealRefreshDone ch) s = .next u ∧ u.mem = s.mem ∧ (u.seal ch).run = some y ∧
      y.phase = passPhase r.d ∧ y.keyPos = 0)) ∧
  (∀ s (ch : Ch) r e, runAt s ch 3 = some (r, e) → r.outs = [] → streamEnd s ch r = some 0 →
    accCount r ≤ r.accs.length + passAccs r → ∃ u y, exec (.sealPbsPassDone ch) s = .next u ∧ u.mem = s.mem ∧
      (u.seal ch).run = some y ∧ (cvOp r.d = opGate → y.phase = 4) ∧
      (cvOp r.d ≠ opGate → y.phase = 3 ∧ y.outs.length = r.lists.length)) ∧
  (∀ s (ch : Ch) r e, runAt s ch 4 = some (r, e) → r.outs = [] → streamEnd s ch r = some 0 →
    exec (.sealKswPassDone ch) s = .next (setRun (s.fadd Fld.SEAL_KSWCNT_KSW ch 0 r.lists.length) ch
      fun y => { y with keyPos := 0, outs := Slice0.switched s ch r })) ∧
  (∀ s (ch : Ch) r e, runAt s ch 5 = some (r, e) → r.outs = [] →
    exec (.sealLinearDone ch) s =
      .next (setRun s ch fun y => { y with outs := (List.range r.lists.length).map (linearOut s ch r) })) ∧
  (∀ s (ch : Ch) r e a n, (s.seal ch).run = some r → SMap.get? (s.seal ch).ents r.ent = some e →
    keyNext (keyRuns s ch r) r.keyPos = some (a, n) → sealClocked s ch = true → keyAhead s ch r = true →
    exec (.keyStreamRead ch) s =
      .next (setRun (pushReq s ch (Slice0.keyRead s ch e a n)) ch fun x => { x with keyPos := x.keyPos + n })) ∧
  (∀ s (ch : Ch) r e, let t := ((r.lists.map fun l => l.getD 3 0).zip r.outs).foldl (writeOut ch e.fn) (s, [])
    (s.seal ch).run = some r → SMap.get? (s.seal ch).ents r.ent = some e → r.phase ≠ 6 → r.outs ≠ [] →
    gateWr s ch (e.w / 2) = true → sealClocked s ch = true →
    exec (.sealWriteBegin ch) s = .next (setRun t.1 ch fun x => { x with phase := 6, wouts := t.2 })) ∧
  (∀ s (ch : Ch) r e, runAt s ch 6 = some (r, e) → writesDone s ch r = true →
    exec (.sealConvoyComplete ch) s = .next (endingNow (sealComplete s ch r.ent (writeCode s ch r)) ch)) ∧
  (∀ s r (ch : Ch), Slice0.Open s r (.seal ch) → maySup (dropHalf s r) r = true →
    (sealInWrite (dropHalf s r) ch = false → exec (.sealCtrlDisable r ch) s = .next (disableNow (dropHalf s r) ch)) ∧
    (sealInWrite (dropHalf s r) ch = true → exec (.sealCtrlDisable r ch) s =
      .next ((dropHalf s r).setSeal ch fun u => { u with ending := some cUnitAbsent })) ∧
    ((s.seal ch).ending = none → exec (.sealCtrlEnable r ch) s =
      .next (((dropHalf s r).fset Fld.SEAL_CTRL_DISABLED ch 0 0).setSeal ch fun u => { u with ending := none })))

/-! ### The host port: link, rings, events (chapter 17) -/

/-- The host link and its resets (R366, R367, R371): a PERST_N low is timed, takes the port down when the filter expires and is
counted as filtered when it rises sooner; a trained link is ready with what it reports; Link Down resets the port; a
function is put in D3 and brought back. Commands: perstNEdge, perstNFilterExpiry, perstNDeassert, pcieLinkReady, pcieLinkDown,
powerStateWrite. -/
def Obligations.HostLinkCompletes : Prop :=
  (∀ s, s.port.perst = false → exec .perstNEdge s = .next { s with port := { s.port with perst := true, timing := true } }) ∧
  (∀ s, s.port.perst = true → s.port.timing = true →
    exec .perstNFilterExpiry s = .next (portReset { s with port := { s.port with timing := false } })) ∧
  (∀ s, s.port.perst = true → s.port.timing = true → ∃ u, exec .perstNDeassert s = .next u ∧ u.port.perst = false ∧
    u.port.ready = s.port.ready ∧
    u.fget Fld.HUB_PERSTCNT_FILTERED = satAdd Fld.HUB_PERSTCNT_FILTERED.w (s.fget Fld.HUB_PERSTCNT_FILTERED) 1) ∧
  (∀ s rate width flit, s.port.perst = false → s.port.ready = false → 4 ≤ rate → rate ≤ 6 → width ∈ [1, 2, 4, 8, 16] →
    (rate = 6 → flit = true) →
    exec (.pcieLinkReady rate width flit) s =
      .next (({ s with port := { s.port with ready := true } } : State).setReg .HUB_PORTSTAT 0 0
        (rate + width * 2 ^ 3 + ofBit flit * 2 ^ 8))) ∧
  (∀ s, s.port.ready = true → exec .pcieLinkDown s = .next (portReset s)) ∧
  (∀ s f d3, s.port.ready = true → exec (.powerStateWrite f d3) s = .next (s.setFn f fun h => { h with d3 := d3 }))

/-- The command rings and the event queue of a function that answers (R350 to R356, R364, R365, R368): doorbells move the
tail and give back completion slots; COMMIT, ENABLE and DISABLE act; the hub fetches up to 8 entries of the next ring in
turn; a completion and an event are written at the queue's tail with its phase and ask for their vector; a vector that is
not masked is sent. Commands: submissionDoorbell, completionDoorbell, eventQueueDoorbell, vfRingCtrlCommit, vfRingCtrlEnable,
vfRingCtrlDisable, ringConfigApply, vfEvqCtrlCommit, vfEvqCtrlEnable, vfEvqCtrlDisable, ringFetch, ringEntryArrive,
fencedCommandStart, completionWrite, eventWrite, msixSend. -/
def Obligations.HostQueuesComplete : Prop :=
  (∀ s (f : FnId) (n : Fin 64) (v : Word), let t := dropHalf s (.fn f)
    let w := v.toNat % 2 ^ 16
    fnAnswers t f = true → w < ringSize t f n → ringOn t f n = true → doorbellsOpen t = true →
    exec (.submissionDoorbell f n v) s = .next (t.fset Fld.VF_RINGn_STAT_TAIL f n w) ∧
    exec (.completionDoorbell f n v) s = .next (t.setRing f n fun r =>
      { r with used := (t.fget Fld.VF_RINGn_STAT_CQTAIL f n + ringSize t f n - w) % ringSize t f n })) ∧
  (∀ s (f : FnId) (v : Word), let t := dropHalf s (.fn f)
    let w := v.toNat % 2 ^ 16
    let z := evqSize (t.fn f)
    fnAnswers t f = true → w < z → t.fbit Fld.VF_EVQ_STAT_EN f = true → doorbellsOpen t = true →
    exec (.eventQueueDoorbell f v) s =
      .next (t.setFn f fun h => { h with evUsed := (t.fget Fld.VF_EVQ_STAT_TAIL f + z - w) % z })) ∧
  (∀ s r (f : FnId) (n : Fin 64), let t := dropHalf s r
    let c := (t.regN .VF_RINGn_SQBASE f n, t.regN .VF_RINGn_CQBASE f n, t.regN .VF_RINGn_CFG f n)
    mayFn f r = true → fnAnswers t f = true → n < fnRings t f →
    (queueCfgOk t f 16 c.1 c.2.1 c.2.2 = true → ringOn t f n = false →
      exec (.vfRingCtrlCommit r f n) s = .next (ringApply (t.fset Fld.VF_RINGn_STAT_ERROR f n 0) f n c)) ∧
    (queueCfgOk t f 16 c.1 c.2.1 c.2.2 = true → ringOn t f n = true →
      exec (.vfRingCtrlCommit r f n) s =
        .next ((t.fset Fld.VF_RINGn_STAT_PENDING f n 1).setRing f n fun x => { x with pend := some c })) ∧
    ((ringOf t f n).fresh = false → exec (.vfRingCtrlEnable r f n) s =
      .next ((t.fset Fld.VF_RINGn_STAT_EN f n 1).setRing f n fun x => { x with fresh := false })) ∧
    exec (.vfRingCtrlDisable r f n) s = .next (t.fset Fld.VF_RINGn_STAT_EN f n 0)) ∧
  (∀ s (f : FnId) (n : Fin 64) c, (ringOf s f n).pend = some c → ringHead s f n = ringTail s f n → (ringOf s f n).cmds = [] →
    (ringOf s f n).asked = 0 → exec (.ringConfigApply f n) s =
      .next ((ringApply s f n c).setRing f n fun y => { y with fresh := (ringOf s f n).fresh })) ∧
  (∀ s r (f : FnId), let t := dropHalf s r
    let c := (t.regN .VF_EVQ_BASE f, t.regN .VF_EVQ_CFG f)
    mayFn f r = true → fnAnswers t f = true →
    (queueCfgOk t f 12 c.1 0 c.2 = true → t.fbit Fld.VF_EVQ_STAT_EN f = false →
      exec (.vfEvqCtrlCommit r f) s = .next (evqApply t f c)) ∧
    ((t.fn f).evFresh = false → exec (.vfEvqCtrlEnable r f) s =
      .next ((t.fset Fld.VF_EVQ_STAT_EN f 0 1).setFn f fun h => { h with evFresh := false })) ∧
    exec (.vfEvqCtrlDisable r f) s = .next (t.fset Fld.VF_EVQ_STAT_EN f 0 0)) ∧
  (∀ s k, ((List.range (129 * 64)).map fun i => (s.port.fetchPtr + i) % (129 * 64)).find?
      (fun k => mayFetch s (k / 64) (k % 64)) = some k → portReads s < portMax →
    let z := ringSize s (k / 64) (k % 64)
    let h := ringHead s (k / 64) (k % 64)
    let m := min 8 (min ((ringTail s (k / 64) (k % 64) + z - h) % z) (z - h))
    exec .ringFetch s = .next (hostOut (({ s with port := { s.port with fetchPtr := (k + 1) % (129 * 64) } } : State).setRing
      (k / 64) (k % 64) fun r =>
        { r with asked := m }) (.read (s.regN .VF_RINGn_LIVESQ (k / 64) (k % 64) + 64 * h) (64 * m)))) ∧
  (∀ s (f : FnId) (n : Fin 64) l, (ringOf s f n).asked ≠ 0 → l.length = 8 * (ringOf s f n).asked → ∃ u,
    exec (.ringEntryArrive f n l) s = .next (startRing ((ringOf u f n).cmds.length + 1) u f n) ∧
    (ringOf u f n).asked = 0 ∧ (ringOf u f n).cmds.length = (ringOf s f n).cmds.length + (ringOf s f n).asked ∧
    u.mem = s.mem) ∧
  (∀ s (f : FnId) (n : Fin 64), exec (.fencedCommandStart f n) s =
    .next (startRing ((ringOf s f n).cmds.length + 1) s f n)) ∧
  (∀ s (f : FnId) (n : Fin 64) x, let t := s.fget Fld.VF_RINGn_STAT_CQTAIL f n
    ((ringOf s f n).done.head?.bind fun no => (ringOf s f n).cmds.find? fun x => decide (x.no = no)) = some x →
    fnAnswers s f = true → (ringOf s f n).used < ringSize s f n → x.irq = false → t + 1 < ringSize s f n →
    ringSize s f n ≤ 2 ^ 16 →
    ∃ u, exec (.completionWrite f n) s = .next u ∧ u.fget Fld.VF_RINGn_STAT_CQTAIL f n = t + 1 ∧
      (ringOf u f n).used = (ringOf s f n).used + 1 ∧ (ringOf u f n).done = (ringOf s f n).done.drop 1 ∧ u.mem = s.mem) ∧
  (∀ s (f : FnId) e l, let t := s.fget Fld.VF_EVQ_STAT_TAIL f
    (s.fn f).events = e :: l → fnAnswers s f = true → s.fbit Fld.VF_EVQ_STAT_EN f = true →
    (s.fn f).evUsed < evqSize (s.fn f) → t + 1 < evqSize (s.fn f) → (s.fn f).evPend = none →
    exec (.eventWrite f) s = .next (wantMsi (((hostOut s (.write ((s.fn f).evLive.1 + 32 * t)
      (entryBytes (s.fget Fld.VF_EVQ_STAT_PHASE f) 1 e.code e.id 0 e.ch 0 e.result e.detail))).fset
        Fld.VF_EVQ_STAT_TAIL f 0 ((t + 1) % evqSize (s.fn f))).setFn f fun h =>
          { h with events := l, evUsed := h.evUsed + 1 }) f (bits (s.fn f).evLive.2 16 11))) ∧
  (∀ s (f : FnId) vec, fnAnswers s f = true → (s.fn f).msixEn = true → vec ∈ (s.fn f).msi → msixMasked (s.fn f) vec = false →
    exec (.msixSend f vec) s =
      .next (hostOut (s.setFn f fun h => { h with msi := h.msi.filter (· ≠ vec) })
        (.msix f vec (msixEntry (s.fn f) vec).1 (msixEntry (s.fn f) vec).2.1)))

/-! ### Ring commands, apertures, virtual functions and permissions (chapters 17 and 18) -/

/-- A command of a ring as its engine sends it. -/
def Slice0.sent (s : State) (f : FnId) (n : Fin 64) (x : HCmd) : State :=
  setCmd s ⟨f, n, x.no⟩ fun y => { y with sent := true }

/-- A started command of each operation is carried out (Tables 17-9 and 17-10, R357 to R364): NOP and FWCALL answer, LOAD, START and
UNLOAD go to the channel's sequencer, CLEAR clears a failed load, COPY_IN and COPY_OUT move their next piece, SIGNAL and
SYNCWAIT go to their synchronization object. Commands: cmdNop, cmdLoad, cmdStart, cmdUnload, cmdClear, copyIn, copyOut, signal,
syncwait, fwcall, hostReadCompletion, hostReadFailure. -/
def Obligations.RingCommandsComplete : Prop :=
  ∀ s (f : FnId) (n : Fin 64) x,
    let t := Slice0.sent s f n x
    let c : CmdRef := ⟨f, n, x.no⟩
    let mail := (List.range 7).map x.arg
    let m := t.setChan x.ch fun k => { k with mailbox := mail }
    s.hub.phase ≠ .keeper →
    (nextCmd s f n 0 = some x → exec (.cmdNop f n) s = .next (hostDone t c cNone 0 0)) ∧
    (nextCmd s f n 1 = some x → ldState t x.ch ≠ ldFailed →
      exec (.cmdLoad f n) s = .next (toSequencer t x.ch (.load c (x.arg 0) (bits (x.arg 1) 0 32)))) ∧
    (nextCmd s f n 2 = some x →
      exec (.cmdStart f n) s = .next (toSequencer t x.ch (.start c (bits (x.arg 0) 0 32)))) ∧
    (nextCmd s f n 3 = some x → ldState t x.ch ≠ ldArmed →
      exec (.cmdUnload f n) s = .next (toSequencer t x.ch (.unload c (bits (x.arg 0) 0 32)))) ∧
    (nextCmd s f n 4 = some x → ldState t x.ch = ldFailed → (f.val = 0 ∨ (t.load x.ch).fn = f.val) →
      exec (.cmdClear f n) s = .next (clearLoad (hostDone (cmtCode t x.ch cNone) c cNone 0 0) x.ch)) ∧
    (nextCmd s f n 5 = some x → portReads s < portMax → exec (.copyIn f n) s =
      .next (hostOut t (.read (x.arg 0 + x.prog) (pieceLen (x.arg 1 + x.prog) (bits (x.arg 2) 0 32 - x.prog))))) ∧
    (nextCmd s f n 6 = some x → tgaSpace (x.arg 0 + x.prog) ≠ 3 → exec (.copyOut f n) s =
      .next (hostReq t (.ring f n x.no) f (x.arg 0 + x.prog)
        (.read (pieceLen (x.arg 0 + x.prog) (bits (x.arg 2) 0 32 - x.prog))) 0)) ∧
    (nextCmd s f n 7 = some x → exec (.signal f n) s =
      .next (hostReq t (.ring f n x.no) f (x.arg 0) (.sync .add (bits (x.arg 1) 0 32)) 1)) ∧
    (nextCmd s f n 8 = some x → exec (.syncwait f n) s =
      .next (hostReq t (.ring f n x.no) f (x.arg 0) (.sync .wge (x.arg 1)) 0)) ∧
    (nextCmd s f n 9 = some x → exec (.fwcall f n) s =
      .next (hostDone m.took c (codeRow (Config.firmware m.free mail).1) (Config.firmware m.free mail).2.toNat 0)) ∧
    (∀ data, copyAsked s f n = some x → data.length = pieceLen (x.arg 1 + x.prog) (bits (x.arg 2) 0 32 - x.prog) →
      tgaSpace (x.arg 1 + x.prog) ≠ 3 → exec (.hostReadCompletion f n data) s =
        .next (hostReq s (.ring f n x.no) f (x.arg 1 + x.prog) (.write (cleanBytes data)) 1)) ∧
    (∀ why, copyAsked s f n = some x → exec (.hostReadFailure f n true why) s =
      .next (hostDone (hostErr (hostFailAer s f why) (hostFailCode why) f (x.arg 0 + x.prog)) c (hostFailCode why) x.prog
        (x.arg 0 + x.prog)))

/-- Accesses through an aperture that the permissions allow become requests to their address, and a base is set to an aligned
region of this package (R369, R370, R371). Commands: apertureWrite, apertureRead, vfApBaseWrite. -/
def Obligations.AperturesComplete : Prop :=
  (∀ s (f : FnId) (ap : Fin 4) off data ep, let a := aperTga s f ap off
    fnAnswers s f = true → data ≠ [] → off + data.length ≤ 2 ^ 34 → hostCode s f true a data.length = 0 → isOwnPkg s a = true →
    exec (.apertureWrite f ap off data ep) s =
      .next (hostReq s (.aper f true) f a (.write (data.map fun b => (b, ep))) 1)) ∧
  (∀ s (f : FnId) (ap : Fin 4) off len, let a := aperTga s f ap off
    fnAnswers s f = true → portHeld s < portMax → len ≠ 0 → off + len ≤ 2 ^ 34 → hostCode s f false a len = 0 →
    isOwnPkg s a = true →
    exec (.apertureRead f ap off len) s = .next (hostReq s (.aper f false) f a (.read len) 0)) ∧
  (∀ s r (f : FnId) ap (v : Word), mayFn f r = true → fnAnswers (dropHalf s r) f = true → v.toNat % 2 ^ 34 = 0 →
    tgaSpace v.toNat < 2 → isOwnPkg (dropHalf s r) v.toNat = true →
    exec (.vfApBaseWrite r f ap v) s = .next ((dropHalf s r).setReg .VF_APa_BASE f ap v.toNat))

/-- Functions are enabled and disabled, and each channel does its part (R372 to R374, R388 to R390): VF Enable counts the functions
in, its clearing and a function-level reset disable them, a channel stops, drains and scrubs for a function. Commands: vfEnable,
vfEnableClear, vfFlr, pf0Flr, channelDisable, flrDrainTimeout, disableScrubDone. -/
def Obligations.FunctionLifeCompletes : Prop :=
  (∀ s (n : Fin 129), s.port.ready = true → s.port.vfEnable = false →
    exec (.vfEnable n) s = .next ((rangeFrom 1 n.val).foldl (fun s k =>
      let s := s.fset Fld.HUB_VFSTATn_CODE 0 (k - 1) (if vfCfgOk s k then cNone else cCfgIgnored)
      if s.fget Fld.HUB_VFSTATn_STATE 0 (k - 1) = 0 then s.fset Fld.HUB_VFSTATn_STATE 0 (k - 1) 1 else s)
      { s with port := { s.port with vfEnable := true, numVfs := n.val } })) ∧
  (∀ s, s.port.ready = true →
    exec .vfEnableClear s = .next (vfList.foldl vfDisable { s with port := { s.port with vfEnable := false } })) ∧
  (∀ s (f : FnId), f.val ≠ 0 → s.port.ready = true → exec (.vfFlr f) s = .next (vfDisable s f)) ∧
  (∀ s, s.port.ready = true → (s.fn 0).busy = [] → ∃ u, exec .pf0Flr s = .next u ∧
    u = (0 :: vfList).foldl (fun s f => if f = 0 ∧ ¬ (s.fn 0).busy.isEmpty then s else vfDisable s f)
      { s with port := { s.port with vfEnable := false } }) ∧
  (∀ s (ch : Ch) (f : FnId), ch.val ∈ (s.fn f).busy → scrubOf s ch f = none → s.chLive ch = true →
    exec (.channelDisable ch f) s = .next (channelDisable s ch f)) ∧
  (∀ s (ch : Ch) (f : FnId) r, scrubOf s ch f = some r → exec (.flrDrainTimeout ch f) s =
    .next (((s.chan ch).reqs.filter fun r => decide (r.fn = some f.val) && abortable s ch r).foldl
      (fun s r => abortReq s ch cFlrAborted r) s)) ∧
  (∀ s (ch : Ch) (f : FnId) r, let t := (flowsReopen (scrub s ch r) ch f).setChan ch fun k =>
      { k with scrubs := SMap.erase k.scrubs f }
    scrubOf s ch f = some r → (∀ q ∈ (s.chan ch).reqs, q.fn ≠ some f.val) → (t.chan ch).scrubs ≠ [] →
    exec (.disableScrubDone ch f) s = .next (chanDisabled t ch f))

/-- The permission tables and their views (R380 to R387): a valid table is committed as the next epoch and copied to the hub; a
fence starts at a channel and aborts what is left when its time ends; the hub starts fences; a function selects the record
and the window it reads. Commands: chRptctrlCommit, hubRptCopyUpdate, chRptctrlFence, hubRptfenceStart, fenceTimeout,
vfGrantselWrite, vfWinselWrite. -/
def Obligations.PermissionCommandsComplete : Prop :=
  (∀ s r (ch : Ch), let t := dropHalf s r
    let u := if fenceBusy t ch then t else t.setChan ch fun k => { k with fence := none }
    Slice0.Open s r (.ch ch) → maySup t r = true → rptOk t ch (rptShadow t ch) = true →
      (∀ q ∈ (t.chan ch).reqs, epochAge (epochOf t ch) q.epoch < 32767) →
    (∀ k < 96, ∀ p ∈ (t.clu ch k).slots, epochAge (epochOf t ch) p.2.epoch < 32767) →
    exec (.chRptctrlCommit r ch) s = .next (({ u with rpts := SMap.put u.rpts ch (rptShadow t ch) } : State).fset
      Fld.CH_RPTSTAT_EPOCH ch 0 (epochOf t ch + 1))) ∧
  (∀ s (ch : Ch), s.chLive ch = true → exec (.hubRptCopyUpdate ch) s =
    .next { s with rptHub := SMap.put s.rptHub ch (s.rpt ch), rptHubEp := SMap.put s.rptHubEp ch (epochOf s ch) }) ∧
  (∀ s r (ch : Ch), Slice0.Open s r (.ch ch) → maySup (dropHalf s r) r = true →
    exec (.chRptctrlFence r ch) s = .next (startFence (dropHalf s r) ch)) ∧
  (∀ s r (mask : Fin 16), Slice0.HostOpen s r → mayHub r = true → exec (.hubRptfenceStart r mask) s =
    .next (((dropHalf s r).liveChs.filter fun c => mask.val.testBit c).foldl startFence (dropHalf s r))) ∧
  (∀ s (ch : Ch) e, let n := (olderSlots s ch e).length
    let t := ((olderSlots s ch e).foldl (abortSlot ch cRptStale) s).fadd Fld.CH_RPTSTAT_STALE ch 0 n
    let u := if n = 0 then t else t.fset Fld.HUB_RPTFENCE_STALE 0 0 (putBits (t.fget Fld.HUB_RPTFENCE_STALE 0) ch 1 1)
    (s.chan ch).fence = some e → fenceBusy s ch = true → (olderReqs s ch e).filter (abortable s ch) = [] →
    exec (.fenceTimeout ch) s = .next (u.setChan ch fun k => { k with fence := none })) ∧
  (∀ s r (f : FnId) (v : Word), let c := v.toNat % 4
    Slice0.HostOpen s r → mayFn f r = true → (dropHalf s r).chLive c = true → exec (.vfGrantselWrite r f v) s =
      .next (((dropHalf s r).setReg .VF_GRANTSEL f 0 c).setWords .VF_GRANTRECn f 0
        ((List.range 4).map fun i => bits (s.fnrec c f) (64 * i) 64))) ∧
  (∀ s r (f : FnId) (v : Word), let c := v.toNat % 4
    let k := bits v.toNat 16 9
    let ws := ((List.range 512).map (rptWin (s.rpt c))).filter fun w => bit w 0 && decide (bits w 8 8 = f.val)
    Slice0.HostOpen s r → mayFn f r = true → (dropHalf s r).chLive c = true → exec (.vfWinselWrite r f v) s =
      .next ((((dropHalf s r).setReg .VF_WINSEL f 0 (c + k * 2 ^ 16)).setReg .VF_WINn f 0 (ws.getD k 0 % 2 ^ 64)).setReg
        .VF_WINn f 1 (ws.getD k 0 / 2 ^ 64)))

/-! ### Links between dies (chapter 19) -/

/-- Bring-up and states of a link end (R395 to R408): a released reset trains both ends; a trained end sends its record; the
peer's record and the agreement are taken; rates are raised; a stage that times out is tried again; flits are sent and
received, retried and acknowledged; an end retrains, enters and leaves L1, tests itself, and is started anew on ABORT. Commands:
drstNDeassert, ucieTrained, capx, capxRepeat, agree, uprateDone, fdlStageTimeout, flitTransmit, flitReceive, fdlRetry,
ackTimeout, retrainDone, retrainTimeout, l1IdleExpiry, pmreq, pmack, pmnak, l1Exit, testreq, fdlAbort. -/
def Obligations.LinkStatesComplete : Prop :=
  (∀ s (l : LinkId), s.hub.phase = .run → s.nv.scrub = false → l.n.val = 4 → s.chLive l.ch = true → lkDie l ∉ s.hub.released →
    exec (.drstNDeassert l) s = .next (trainBoth { s with hub := { s.hub with released := s.hub.released ++ [lkDie l] } } l)) ∧
  (∀ s (l : LinkId) mods x8, s.hub.phase ≠ .keeper → lkState s l = lTrain → modsOk l mods = true →
    ∃ u, exec (.ucieTrained l mods x8) s = .next (setLkState u l lCapx) ∧
    u = ((s.fset Fld.FDL_LINKn_STAT_MODS (lkLoc l) 0 mods).fset Fld.FDL_LINKn_STAT_X8 (lkLoc l) 0 (ofBit x8)).setLk l
      fun e => { e with ctrlOut := e.ctrlOut ++
        [(1, offered ((s.fset Fld.FDL_LINKn_STAT_MODS (lkLoc l) 0 mods).fset Fld.FDL_LINKn_STAT_X8 (lkLoc l) 0 (ofBit x8)) l)] }) ∧
  (∀ s (l : LinkId) w t, s.hub.phase ≠ .keeper → lkState s l = lAgree → takeCtrl s l 2 = some (w, t) → lkMaster l = false →
    exec (.agree l) s = .next (agreed (sendCtrl t l 2 w) l (w % 2 ^ 32))) ∧
  (∀ s (l : LinkId) r t, s.hub.phase ≠ .keeper → takeCtrl s l 1 = some (r, t) → ∃ u, exec (.capx l) s = .next u ∧
    (u.lk l).peer = some r ∧
    u.mem = t.mem) ∧
  (∀ s (l : LinkId), s.hub.phase ≠ .keeper → lkState s l = lCapx → (s.lk l).peer = none →
    exec (.capxRepeat l) s = .next (sendCtrl s l 1 (offered s l))) ∧
  (∀ s (l : LinkId), s.hub.phase ≠ .keeper → lkState s l = lUprate →
    exec (.uprateDone l true) s = .next (setLkState s l lActive)) ∧
  (∀ s (l : LinkId), s.hub.phase ≠ .keeper → lkState s l = lTrain → 3 ≤ s.fget Fld.FDL_LINKn_STAT_ATTEMPT (lkLoc l) →
    exec (.fdlStageTimeout l) s = .next (linkFailed (lkErr s l cFdlNegotiate) l cFdlNegotiate (!(s.lk l).up))) ∧
  (∀ s (l : LinkId) c rest, s.hub.phase ≠ .keeper → lkState s l = lActive → (s.lk l).ctrlOut = c :: rest →
    exec (.flitTransmit l) s =
    .next (onWire (s.setLk l fun e => { e with ctrlOut := rest }) l (withAck (s.lk l)
      { ftype := 3, sub := c.1, slots := (List.range 4).map fun i => bits c.2 (128 * i) 128 }))) ∧
  (∀ s (l : LinkId) (b : BitVec 2048), s.hub.phase ≠ .keeper → lkState s l = lActive → flitCrcOk (framing s l) b.toNat = true →
    (flitOf b.toNat).ackv = false → (flitOf b.toNat).ftype = 1 →
    exec (.flitReceive l b) s = .next (dataFlit s l (flitOf b.toNat))) ∧
  (∀ s (l : LinkId) (b : BitVec 2048), s.hub.phase ≠ .keeper → lkState s l = lActive →
    flitCrcOk (framing s l) b.toNat = false → lkVer s l = 2 →
    exec (.flitReceive l b) s = .next (sendRetry (s.fadd Fld.FDL_LINKn_ERR_CRCERR (lkLoc l) 0 1) l)) ∧
  (∀ s (l : LinkId) v t, s.hub.phase ≠ .keeper → takeCtrl s l 3 = some (v, t) →
    exec (.fdlRetry l) s = .next (t.setLk l fun e => { e with resend := some (v % 4096) })) ∧
  (∀ s (l : LinkId), s.hub.phase ≠ .keeper → lkState s l = lActive → lkVer s l = 2 → (s.lk l).kept ≠ [] →
    exec (.ackTimeout l) s = .next (toRetrain s l)) ∧
  (∀ s (l : LinkId), s.hub.phase ≠ .keeper → lkState s l = lRetrain →
    exec (.retrainTimeout l) s = .next (linkFailed (lkErr s l cLinkDown) l cLinkDown false)) ∧
  (∀ s (l : LinkId), let t := setLkState (s.setLk l fun e => { e with dead := [], retries := 0, retryPend := false }) l lActive
    s.hub.phase ≠ .keeper → lkState s l = lRetrain → lkVer t l = 2 →
    exec (.retrainDone l) s = .next (t.setLk l fun e => { e with resend := e.kept.head?.map (·.seq) })) ∧
  (∀ s (l : LinkId), s.hub.phase ≠ .keeper → lkState s l = lActive → (lkFeat s l).testBit ftPwr = true →
    (s.lk l).l1idle ≠ 0 → lkIdle (s.lk l) = true →
    (s.lk l).pmWait = false → exec (.l1IdleExpiry l) s = .next ((sendCtrl s l 4 0).setLk l fun e =>
      { e with pmWait := true })) ∧
  (∀ s (l : LinkId) v t, s.hub.phase ≠ .keeper → takeCtrl s l 4 = some (v, t) → lkState t l = lActive →
    (lkFeat t l).testBit ftPwr = true → (t.lk l).l1idle ≠ 0 → (t.lk l).kept = [] → lkIdle (t.lk l) = true →
    (t.lk l).resend = none → (t.lk l).retryPend = false →
    exec (.pmreq l) s = .next (setLkState (sendCtrl t l 5 0) l lL1)) ∧
  (∀ s (l : LinkId) v t, s.hub.phase ≠ .keeper → takeCtrl s l 5 = some (v, t) → (t.lk l).pmWait = true → lkState t l = lActive →
    exec (.pmack l) s = .next (setLkState (t.setLk l fun e => { e with pmWait := false }) l lL1)) ∧
  (∀ s (l : LinkId) v t, s.hub.phase ≠ .keeper → takeCtrl s l 6 = some (v, t) →
    exec (.pmnak l) s = .next (t.setLk l fun e => { e with pmWait := false })) ∧
  (∀ s (l : LinkId), s.hub.phase ≠ .keeper → lkState s l = lL1 → exec (.l1Exit l true) s = .next (setLkState s l lActive)) ∧
  (∀ s (l : LinkId) v t, s.hub.phase ≠ .keeper → takeCtrl s l 7 = some (v, t) → lkState t l = lActive →
    (lkFeat t l).testBit ftTest = true →
    exec (.testreq l) s = .next (setLkState t l lTest)) ∧
  (∀ s (l : LinkId) v t, s.hub.phase ≠ .keeper → takeCtrl s l 8 = some (v, t) →
    (lkMaster l = true → l.n.val < 4 → exec (.fdlAbort l) s = .next (bringAgain freshEnd t l)) ∧
    (lkMaster l = false → exec (.fdlAbort l) s = .next t))

/-- Control of a link by the writers that may (R409, R412): renegotiation, retraining, test, the configuration that a commit
takes, and an access to the register window of the die at the far end. Commands: fdlLinkCtrlReneg, fdlLinkCtrlRetrain,
fdlLinkCtrlTest, fdlLinkCfgCommit, fdlRegWindowAccess. -/
def Obligations.LinkControlCompletes : Prop :=
  ∀ s r (l : LinkId), let t := dropHalf s r
    Slice0.Open s r (.fdl l) → maySup t r = true →
    exec (.fdlLinkCtrlReneg r l) s = .next (bringAgain freshEnd t l) ∧
    (lkState t l = lActive → exec (.fdlLinkCtrlRetrain r l) s = .next (toRetrain t l)) ∧
    (let u := t.fset Fld.FDL_LINKn_CTRL_TEST (lkLoc l) 0 1;
      lkState u l = lActive → testDue u l = true →
      exec (.fdlLinkCtrlTest r l true) s = .next (setLkState (sendCtrl u l 7 0) l lTest)) ∧
    exec (.fdlLinkCfgCommit r l) s = .next (t.setLk l fun e =>
      { e with func := s.fget Fld.FDL_LINKn_CFG_FUNC (lkLoc l), l1idle := s.fget Fld.FDL_LINKn_CFG_L1IDLE (lkLoc l) }) ∧
    (let u := t.fset Fld.FDL_LINKn_CTRL_TEST (lkLoc l) 0 0;
      lkState u l = lTest → exec (.fdlLinkCtrlTest r l false) s =
        .next (bringAgain (fun e => { freshEnd e with txq := e.txq, rxq := e.rxq }) u l)) ∧
    (∀ off n (v : Word) write, reaches s r (.fdl l) = true → l.n.val < 4 → n = 4 ∨ n = 8 → off % n = 0 → off < 0x1000 →
      lActive ≤ lkState t l → lkState t l ≤ lTest → (lkFeat t l).testBit ftReg = true →
      exec (.fdlRegWindowAccess r l off write n v) s = .next (regAsk t l off write n v.toNat
        (match r with | .fn _ => if write then none else some n | _ => none)))

/-- Packets that a link end has received are served (Table 19-7, R401, R402, R410, R411): reads, writes, messages, synchronization and
frames go on, a register access is answered, data and completions close the requests that wait, a notice and an image are
taken, and a request whose answer does not come ends. Commands: mrd, mwr, fdlQmsg, fdlSync, fdlFrame, fdlReg, fdlCmpl, fdlRdata,
fdlRequestTimeout, fdlNote, boot. -/
def Obligations.LinkPacketsComplete : Prop :=
  ∀ s (l : LinkId) p t,
    (takePkt s l pMrd = some (p, t) → exec (.mrd l) s =
      .next (linkReq t l p (.read p.len) fun f => siteCode t l.ch f false p.addr p.len)) ∧
    (takePkt s l pMwr = some (p, t) → exec (.mwr l) s =
      .next (linkReq t l p (.write (cleanBytes (pktBytes p))) fun f => siteCode t l.ch f true p.addr p.len)) ∧
    (takePkt s l pQmsg = some (p, t) → p.len % 8 = 0 →
      let body := cleanBytes (((p.slots.map fun x => leBytes 16 x).flatten).take p.len)
      let h := mkHdr (qaKind p.addr) (qaHandler p.addr) (p.len / 8) false false 0 (120 + l.n) l.ch (ownPkg t) (t.lk l).msgs
      let u := t.setLk l fun e => { e with msgs := (t.lk l).msgs + 1 }
      exec (.fdlQmsg l) s = .next (linkReq u l p (.msg h body) fun f => siteMsgCode u l.ch f p.addr body)) ∧
    (∀ op, takePkt s l pSync = some (p, t) → p.op ≤ 5 → sopOf p.op = some op → exec (.fdlSync l) s =
      .next (linkReq t l p (.sync op (p.slots.headD 0 % 2 ^ 64)) fun f => siteSyncCode t l.ch f p.addr)) ∧
    (takePkt s l pFrame = some (p, t) → bit p.op 0 = true → bit p.op 1 = true → l.n.val < 4 → l.far = false →
      exec (.fdlFrame l) s = .next (ctReceive l.ch (Fin.ofNat 32 (8 * l.n.val + p.addr % 8)) (pktBytes p) false
        (t.setLk l fun e => { e with frame := [] }))) ∧
    (takePkt s l pReg = some (p, t) → hubEnd l = true → exec (.fdlReg l) s =
      .next (sendCmpl (regAnswer t l p).1 l p.tag (regAnswer t l p).2.2 (regAnswer t l p).2.1 false)) ∧
    (∀ o, takePkt s l pCmpl = some (p, t) → (t.lk l).outst.find? (fun o => decide (o.tag = p.tag)) = some o → o.ptype ≠ pReg →
      exec (.fdlCmpl l) s =
        .next (t.setLk l fun e => { e with outst := e.outst.filter fun x => !decide (x.tag = p.tag) })) ∧
    (∀ o, takePkt s l pCmpl = some (p, t) → (t.lk l).outst.find? (fun o => decide (o.tag = p.tag)) = some o → o.ptype = pReg →
      exec (.fdlCmpl l) s =
        .next (regEnd (t.setLk l fun e => { e with outst := e.outst.filter fun x => !decide (x.tag = p.tag) }) l o.host
          (wireCode p.code) (if o.read then p.addr else 0))) ∧
    (∀ o, takePkt s l pRdata = some (p, t) → (t.lk l).outst.find? (fun o => decide (o.tag = p.tag ∧ o.ptype = pMrd)) = some o →
      p.last = true → exec (.fdlRdata l) s =
        .next (t.setLk l fun e => { e with outst := e.outst.filter fun x => !decide (x.tag = p.tag) })) ∧
    (∀ tag o, s.hub.phase ≠ .keeper → (s.lk l).outst.find? (fun o => decide (o.tag = tag)) = some o →
      exec (.fdlRequestTimeout l tag) s =
        .next (regEnd (s.setLk l fun e =>
          { e with outst := e.outst.filter (fun x => !decide (x.tag = tag)), dead := e.dead ++ [tag] }) l o.host cLinkDown 0)) ∧
    (takePkt s l pNote = some (p, t) → l.far = false →
      exec (.fdlNote l) s = .next (t.setLk l fun e => { e with notes := e.notes ++ [p.addr] })) ∧
    (takePkt s l pBoot = some (p, t) → exec (.boot l) s =
      .next (sendCmpl (t.setLk l fun e => { e with image := e.image ++ (p.slots.map fun x => leBytes 16 x).flatten })
        l p.tag cNone 0 false))

/-! ### Caravan (chapter 20) -/

/-- Flow transport (R420 to R433): a frame is received; a waiting packet is sent and kept; a kept one is sent again when its timer
expires; what was received is acknowledged; an acknowledgement frees what it covers and sends again what it shows missing;
OPEN brings a flow up and is repeated until answered; a notice of retirement ends a flow and is repeated. Commands:
ctFrameReceive, ctPacketTransmit, ctRtoExpiry, ctAckTimer, ctAck, ctOpen, ctOpenRetry, ctNotice, ctNoticeResend. -/
def Obligations.FlowTransportCompletes : Prop :=
  (∀ s (ch : Ch) port frame ce, exec (.ctFrameReceive ch port frame ce) s = .next (ctReceive ch port frame ce s)) ∧
  (∀ s (ch : Ch) (n : Fin 4096) (k : Fin 5) p rest u, let f := s.flow ch n
    (cstream f k).waiting = p :: rest → f.st = fUp → seqGap (cstream f k).peerDlv p.seq < flowWin f →
    storeUsed s ch + 32 + p.payload.length ≤ 2 ^ 23 → ctSend s ch n p = some u →
    exec (.ctPacketTransmit ch n k) s =
      .next ((setStream u ch n k fun x => { x with waiting := rest, kept := x.kept ++ [p] }).finc Fld.CT_TXPKT_SENT ch 0 1)) ∧
  (∀ s (ch : Ch) (n : Fin 4096) (k : Fin 5) p rest, let f := s.flow ch n
    (cstream f k).kept = p :: rest → f.st = fUp → f.expiries + 1 < f.retries →
    exec (.ctRtoExpiry ch n k) s =
      .next (ctResend (setFlow s ch n fun f => { f with expiries := f.expiries + 1 }) ch n p)) ∧
  (∀ s (ch : Ch) (n : Fin 4096) (k : Fin 5), (s.flow ch n).st = fUp → 0 < (cstream (s.flow ch n) k).unacked →
    exec (.ctAckTimer ch n k) s = .next (sendAck s ch n k)) ∧
  (∀ s (ch : Ch) (n : Fin 4096) p t, takeCtl s ch n tAck = some (p, t) → (t.flow ch n).st = fUp → p.inc = (t.flow ch n).inc →
    bits p.aux 0 3 < 5 → p.addr = bits p.addr 0 32 → ∃ u, exec (.ctAck ch n) s = .next u ∧ u.mem = t.mem) ∧
  (∀ s (ch : Ch) (n : Fin 4096) p t, takeCtl s ch n tOpen = some (p, t) → (t.flow ch n).st = fIdle →
    bits p.addr 0 8 = (t.flow ch n).func → bit p.aux 8 = false →
    exec (.ctOpen ch n) s = .next (sendOpen (flowUp t ch n (bits p.aux 2 4) (bits p.aux 0 2)) ch n (bits p.aux 2 4) true)) ∧
  (∀ s (ch : Ch) (n : Fin 4096), (s.flow ch n).st = fOpening →
    exec (.ctOpenRetry ch n) s = .next (sendOpen s ch n (((s.flow ch n).inc + 1) % 16) false)) ∧
  (∀ s (ch : Ch) (n : Fin 4096) p t, takeCtl s ch n tNotice = some (p, t) → (t.flow ch n).st ≠ fRetired →
    exec (.ctNotice ch n) s = .next (flowLost t ch n cChannelRetired fRetired)) ∧
  (∀ s (ch : Ch) port, (List.range 32).find? (fun p => portUp s ch p) = some port → ∃ u, exec (.ctNoticeResend ch) s = .next u ∧
    (u.ct ch).notices = (s.ct ch).notices.filterMap fun x =>
      if 8 ≤ x.2.2.2 then some (x.1, x.2.1, x.2.2.1, x.2.2.2 - 4) else none)

/-- Operations that arrive on a flow are served (R411, R424, R434 to R437): writes, reads, messages and synchronization become
requests, a barrier is counted, responses and data end the operations they answer. Commands: ctWrite, ctRead, ctQmsg, ctSync,
ctBar, ctResp, ctRdata. -/
def Obligations.FlowOperationsComplete : Prop :=
  ∀ s (ch : Ch) (n : Fin 4096) p,
    let d : List DByte := p.payload.map fun b => (b, bit p.flags 3)
    let body : List DByte := (p.payload.drop 8).map fun b => (b, bit p.flags 3)
    let t := deliverPkt s ch n p
    (arriving s ch n tWrite = some p → (s.flow ch n).ins = [] → exec (.ctWrite ch n) s =
      .next (arriveReq (setFlow s ch n fun f => { f with ins := f.ins ++ [{ opid := p.opid, last := bit p.flags 1 }] })
        ch n p (.write d) 2 fun s f => if d.isEmpty then cCfgIgnored else siteCode s ch f true p.addr d.length)) ∧
    (arriving s ch n tRead = some p → exec (.ctRead ch n) s =
      .next (arriveReq s ch n p (.read p.aux) 2 fun s f =>
        if p.aux = 0 ∨ 4096 < p.aux then cCfgIgnored else siteCode s ch f false p.addr p.aux)) ∧
    (arriving s ch n tQmsg = some p → exec (.ctQmsg ch n) s =
      .next (arriveReq s ch n p (.msg (leNat (p.payload.take 8)) body) 2 fun s f =>
        if body.length % 8 ≠ 0 ∨ body.isEmpty ∨ 64 < body.length then cCfgIgnored else siteMsgCode s ch f p.addr body)) ∧
    (∀ op, arriving s ch n tSync = some p → sopOf p.aux = some op → bit p.flags 3 = false → exec (.ctSync ch n) s =
      .next (arriveReq s ch n p (.sync op (leNat (p.payload.take 8))) 2 fun s f => siteSyncCode s ch f p.addr)) ∧
    (∀ k g, arriving s ch n tBar = some p →
      (t.ct ch).groups.find? (fun q => q.2.valid && decide (q.2.gid = bits p.addr 0 32 ∧
        q.2.func = (s.flow ch n).func)) = some (k, g) →
      bit p.aux 1 = false → bit p.aux 8 = false → exec (.ctBar ch n) s =
      .next (barRun (groupTry (setGroup t ch k fun h => { h with
        kids := h.kids ++ g.children.filter fun r => decide (member t g r = ((s.flow ch n).pkg, (s.flow ch n).pch)),
        nf := h.nf || bit p.aux 0 }) ch k) ch g.bobj)) ∧
    (arriving s ch n tResp = some p → bit p.aux 0 = false → exec (.ctResp ch n) s =
      .next (ctOpEnd t ch n p.opid (wireCode p.code) (dBytes 8 p.addr))) ∧
    (arriving s ch n tRdata = some p → bit p.flags 1 = false → exec (.ctRdata ch n) s =
      .next (setFlow t ch n fun f =>
        { f with ops := f.ops.map fun o => if o.opid = p.opid then { o with data := o.data ++ d } else o }))

/-- Configuration of flows, groups, compression and ports by the writers that may (R422, R438, R441, R445, R447), and the
loss and return of a port. Commands: ctFlowctrlCommit, ctFlowctrlOpen, ctFlowctrlClose, ctFlowselWrite, ctGrpctrlCommit,
ctGrpselWrite, ctLccfgCommit, ctPortCfgCommit, portLinkDown, portLinkUp. -/
def Obligations.CaravanConfigCompletes : Prop :=
  (∀ s r (ch : Ch), let t := dropHalf s r
    let n := t.fget Fld.CT_FLOWSEL_INDEX ch
    let f := t.flow ch n
    Slice0.Open s r (.ct ch) → maySup t r = true →
    (f.valid = false → flowOk t ch n f.sh0 f.sh1 = true → exec (.ctFlowctrlCommit r ch) s =
      .next (setFlow (setFlowSt t ch n fIdle) ch n fun f => { sh0 := f.sh0, sh1 := f.sh1, w0 := f.sh0, w1 := f.sh1 })) ∧
    (f.valid = true → f.st = fIdle → exec (.ctFlowctrlOpen r ch) s =
      .next (sendOpen (setFlowSt t ch n fOpening) ch n ((f.inc + 1) % 16) false)) ∧
    (f.st ≠ fIdle → exec (.ctFlowctrlClose r ch) s = .next (flowLost t ch n cLinkDown fIdle))) ∧
  (∀ s r (ch : Ch) (v : Word), let t := dropHalf s r
    let n := v.toNat % 4096
    Slice0.Open s r (.ct ch) → maySup t r = true → exec (.ctFlowselWrite r ch v) s =
      .next ((((t.setReg .CT_FLOWSEL ch 0 n).setReg .CT_FLOWCFGw ch 0 (t.flow ch n).sh0.toNat).setReg .CT_FLOWCFGw ch 1
        (t.flow ch n).sh1.toNat).setReg .CT_FLOWSTAT ch 0 (flowStat (t.flow ch n)))) ∧
  (∀ s r (ch : Ch), let t := dropHalf s r
    let n := t.fget Fld.CT_GRPSEL_INDEX ch
    let x : Group := { t.group ch n with w := (t.group ch n).sh, number := 0, own := false, kids := [], nf := false, psn := false }
    Slice0.Open s r (.ct ch) → maySup t r = true → (t.group ch n).valid = false → x.valid = false →
    exec (.ctGrpctrlCommit r ch) s = .next (setGroup t ch n fun _ => x)) ∧
  (∀ s r (ch : Ch) (v : Word), let t := dropHalf s r
    let n := v.toNat % 1024
    Slice0.Open s r (.ct ch) → maySup t r = true → exec (.ctGrpselWrite r ch v) s =
      .next ([0, 1, 2].foldl (fun s i => s.setReg .CT_GRPCFGw ch i ((t.group ch n).sh.getD i 0#64).toNat)
        (t.setReg .CT_GRPSEL ch 0 n))) ∧
  (∀ s r (ch : Ch), let t := dropHalf s r
    let m := t.fget Fld.CT_LCCFG_MODE ch
    Slice0.Open s r (.ct ch) → maySup t r = true → m < 3 → (m ≠ 0 → t.fbit Fld.CH_CAPS_LC_LIVE ch = true) →
      exec (.ctLccfgCommit r ch) s =
      .next ((t.fset Fld.CT_LCLIVE_MODE ch 0 m).fset Fld.CT_LCLIVE_BLIM ch 0 (t.fget Fld.CT_LCCFG_BLIM ch))) ∧
  (∀ s r (ch : Ch) (site : Fin 4), let t := dropHalf s r
    Slice0.Open s r (.ct ch) → maySup t r = true → t.fget Fld.CT_PORTn_CFG_MAXPAY ch site ≠ 3 →
      t.fget Fld.CT_PORTn_CFG_MODE ch site = portMode t ch site →
    t.fbit Fld.CT_PORTn_CFG_UDP ch site = false → portUdp t ch site = false → dieLive t ch site = true →
    exec (.ctPortCfgCommit r ch site) s = .next (t.setCt ch fun c => { c with
      live := c.live.set site (t.fget Fld.CT_PORTn_CFG_MODE ch site + ofBit false * 4 + t.fget Fld.CT_PORTn_CFG_MAXPAY ch site * 8) })) ∧
  (∀ s (ch : Ch) (port : Fin 32), exec (.portLinkDown ch port) s = .next (portLost s ch port)) ∧
  (∀ s (ch : Ch) (port : Fin 32), let site := port.val / 8
    port.val % 8 < sitePorts s ch site → dieLive s ch site = true → portGone s ch port = false →
    exec (.portLinkUp ch port) s =
      .next (s.fset Fld.CT_PORTn_STAT_UP ch site (putBits (s.fget Fld.CT_PORTn_STAT_UP ch site) (port.val % 8) 1 1)))

/-- Collectives (R441 to R446): a submission enters the queue of 64; the oldest begins; a segment of the ring goes on; the timeout
ends the running one. Commands: collectiveSubmit, collectiveBegin, ctColl, collectiveTimeout. -/
def Obligations.CollectiveCommandsComplete : Prop :=
  (∀ s (ch : Ch) c inp r b, let m := (match (readBack s ch c r).op with | .msg _ b => b | _ => b)
    collNext s ch = some (c, inp, r, b) → gwBad s ch c inp r = false → (s.ct ch).collq.length < 64 → anyPsn m = false →
    dNat ((m.drop 8).take 4) = 64 → exec (.collectiveSubmit ch) s =
      .next (finish ((leaveMesh s ch r c inp).setCt ch fun t => { t with
        collq := t.collq ++ [⟨dNat (m.take 8), r.fn.getD 255, r.cl⟩] }) ch r 0 [])) ∧
  (∀ s (ch : Ch) c rest, let t := s.setCt ch fun t =>
      { t with collq := rest, coll := some { req := c, d := [], group := 0, number := 0 } }
    (s.ct ch).coll = none → (s.ct ch).collq = c :: rest →
    exec (.collectiveBegin ch) s = .next (if collRange t ch c.func false c.desc 64 = 0 then unitAsk t ch 2 96 (some c.func) [(c.desc, 64)]
      else collEnd t ch (collRange t ch c.func false c.desc 64))) ∧
  (∀ s (ch : Ch) k, (s.ct ch).coll = some k → k.going = false → k.ended = none →
    (k.d = [] → unitBack s ch 2 false [(k.req.desc, 64)] = true → unitCode s ch 2 false k.req.desc 64 = 0 →
      exec (.collectiveBegin ch) s = .next (collRead s ch k.req)) ∧
    (let g := s.group ch k.group
      let l := if (firstInput k g).2 = 0 then [] else [inputRange k (firstInput k g).1 (firstInput k g).2]
      k.d ≠ [] → k.w 4 = 0 → (1 < g.size → (flowTo s ch g (ringNext g)).2 = 0 ∧ (flowTo s ch g (ringPrev g)).2 = 0) →
      unitBack s ch 2 false l = true → (∀ x ∈ l, unitCode s ch 2 false x.1 x.2 = 0) →
      exec (.collectiveBegin ch) s = .next (collGoes s ch k g))) ∧
  (∀ s (ch : Ch) (n : Fin 4096) p k, let g := s.group ch k.group
    let f := s.flow ch n
    let x := segPart k g p
    let l := if (collRecv k g k.step).adds && !x.2.isEmpty then [inputRange k x.1 x.2.length] else []
    arriving s ch n tColl = some p → (s.ct ch).coll = some k → k.going = true → k.ended = none → bits p.addr 0 32 = g.gid →
    bits p.addr 32 16 = k.number → f.func = g.func → member s g (ringPrev g) = (f.pkg, f.pch) →
    unitBack s ch 2 false l = true → (∀ x ∈ l, unitCode s ch 2 false x.1 x.2 = 0) →
    exec (.ctColl ch n) s = .next (collGo (unitForget (collSegment (deliverPkt s ch n p) ch k g p) ch 2) ch)) ∧
  (∀ s (ch : Ch), (s.ct ch).coll ≠ none → exec (.collectiveTimeout ch) s = .next (collEnd s ch cLinkDown))

/-! ### Power, clocks and faults (chapters 21 and 22) -/

/-- Commands of the power manager (R449 to R471): budgets and points are committed when they are in range; the grants are sent
at a boundary; evaluation ends a step of the operating point; temperature, throttle, droop, pulse and clock events are taken
as the rules say. Commands: powerEpoch, grantBoundary, avfsEvaluation, droop, dstVftgtCommit, hubPwrbudgetCommit, chPwrcfgWrite,
thermalSample, throttleNEdge, throttleFilterExpiry, syncInPulse, hubSyncctrlArmload, pllLockLoss, pllRelock. -/
def Obligations.PowerCommandsComplete : Prop :=
  (∀ s (ch : Ch) draws u v, s.up ch = true → ∃ t, exec (.powerEpoch ch draws u v) s = .next t ∧ t.mem = s.mem ∧
    t.tiles = s.tiles) ∧
  (∀ s b r ws, s.hub.budgetPend = some (b, r, ws) → exec .grantBoundary s = .next (sendGrants
    ((({ s with hub := { s.hub with budgetPend := none, weights := ws } } : State).fset
      Fld.HUB_PWRLIVE_BUDGET 0 0 b).fset Fld.HUB_PWRLIVE_RESERVE 0 0 r))) ∧
  (∀ s (d : DistId) v, let l := dstLoc d.ch d.d
    s.up d.ch = true → liveAvfs s d.ch d.d = true → ∃ u, exec (.avfsEvaluation d v true) s = .next u ∧
      u.fget Fld.DST_VFLIVE_F_NOW l = s.fget Fld.DST_VFLIVE_F_CAP l ∧ u.fget Fld.DST_VFLIVE_V_NOW l = max 10 (min 70 v) ∧
      u.fget Fld.DST_VFLIVE_SLEW l = 0) ∧
  (∀ s (d : DistId), s.up d.ch = true → exec (.droop d) s = .next (s.fadd Fld.DST_PWRSTAT_DROOPS (dstLoc d.ch d.d) 0 1)) ∧
  (∀ s r (d : DistId), let t := dropHalf s r
    let l := dstLoc d.ch d.d
    Slice0.Open s r (.dst d) → maySup t r = true → 36 ≤ t.fget Fld.DST_VFTGT_F_TGT l → t.fget Fld.DST_VFTGT_F_TGT l ≤ 84 →
      t.fget Fld.DST_VFTGT_WEIGHT l ≠ 0 →
    (t.fbit Fld.DST_VFTGT_AVFS l = true ∨ (10 ≤ t.fget Fld.DST_VFTGT_V_FIX l ∧ t.fget Fld.DST_VFTGT_V_FIX l ≤ 70)) →
    exec (.dstVftgtCommit r d) s = .next ((t.setDist d.ch d.d fun x =>
      { x with pend := some (bits (t.regN .DST_VFTGT l) 0 24) }).fset
      Fld.DST_VFLIVE_PENDING l 0 1)) ∧
  (∀ s r, let t := dropHalf s r
    let b := t.fget Fld.HUB_PWRBUDGET_BUDGET
    let rs := t.fget Fld.HUB_PWRBUDGET_RESERVE
    let ws := (List.range 4).map fun i => bits (t.regN .HUB_PWRSHAREn 0 i) 0 8
    Slice0.HostOpen s r → mayHub r = true → b ≤ t.fget Fld.HUB_CAPS_MAX_POWER_W → 20 ≤ rs → rs ≤ 100 →
      (∀ c ∈ t.liveChs, ws.getD c 0 ≠ 0) →
    rs + 100 * t.liveChs.length ≤ b →
    exec (.hubPwrbudgetCommit r) s = .next { t with hub := { t.hub with budgetPend := some (b, rs, ws) } }) ∧
  (∀ s r (ch : Ch) (v : Word), Slice0.Open s r (.ch ch) → maySup (dropHalf s r) r = true → v.toNat % 2 = 1 →
    exec (.chPwrcfgWrite r ch v) s = .next ((dropHalf s r).fset Fld.CH_PWRCFG_LEND ch 0 1)) ∧
  (∀ s (d : DistId) temp, let l := dstLoc d.ch d.d
    let t := s.fset Fld.DST_PWRSTAT_TEMP l 0 temp
    s.up d.ch = true → temp < 840 → exec (.thermalSample d temp) s = .next (t.fset Fld.HUB_THERMSTAT_HOTTEST 0 0 (hottest t))) ∧
  (∀ s, s.fbit Fld.HUB_THROTTLE_PIN = false → exec (.throttleNEdge true) s = .next (s.fset Fld.HUB_THROTTLE_PIN 0 0 1)) ∧
  (∀ s, s.fbit Fld.HUB_THROTTLE_PIN = true → s.fbit Fld.HUB_THROTTLE_ACTIVE = false → exec .throttleFilterExpiry s =
    .next (applyAll ((s.fset Fld.HUB_THROTTLE_ACTIVE 0 0 1).fadd Fld.HUB_THROTTLE_ACCEPTED 0 0 1))) ∧
  (∀ s (time : Word), s.hub.lastPulse = none → s.fbit Fld.HUB_SYNCCTRL_ARMLOAD = false → ∃ u,
    exec (.syncInPulse time) s = .next u ∧ u.fget Fld.HUB_SYNCSTAMP_STAMP = (time.toNat + s.hub.podOff) % 2 ^ 64 ∧
      u.hub.lastPulse = some time.toNat ∧ u.hub.syncNotices = s.liveChs ∧ u.mem = s.mem) ∧
  (∀ s (time : Word) p, s.hub.lastPulse = some p → time.toNat < p + 10000 →
    exec (.syncInPulse time) s = .next (s.fadd Fld.HUB_SYNCIN_SYNC_OVERRUN 0 0 1)) ∧
  (∀ s r, Slice0.HostOpen s r → mayHub r = true →
    exec (.hubSyncctrlArmload r) s = .next ((dropHalf s r).fset Fld.HUB_SYNCCTRL_ARMLOAD 0 0 1)) ∧
  (∀ s (d : DistId), s.up d.ch = true → ∃ u, exec (.pllLockLoss d) s = .next u ∧ (u.dist d.ch d.d).pllLost = true ∧
    u.mem = s.mem) ∧
  (∀ s (d : DistId), s.up d.ch = true → (s.dist d.ch d.d).pllLost = true → exec (.pllRelock d) s =
    .next ((s.setDist d.ch d.d fun x => { x with pllLost := false }).fset Fld.DST_VFLIVE_LOCK (dstLoc d.ch d.d) 0
      (ofBit (!s.fbit Fld.DST_VFLIVE_SLEW (dstLoc d.ch d.d)))))

/-- Commands of the fault controllers and the hub's monitors (R472 to R491, R548, R556): a fault event adds its points and is
recorded; buckets leak and storms are judged; a repair ends; a lost heartbeat and a clock that does not come back retire the
channel; a hub critical fault enters keeper mode; trips and supplies show in their registers. Commands: faultEvent, bucketLeak,
stormWindow, repairCopyDone, heartbeat, heartbeatTimeout, pllRelockTimeout, hubCriticalFault, sysclkLoss, hubWatchdogExpiry,
faultNHoldEnd, chFinjArm, thermalTrip, supplySample, xtalLoss. -/
def Obligations.FaultCommandsComplete : Prop :=
  (∀ s (e : FaultEv), let t := (injDone (granuleFix (depotErr s e) e) e.src e.ty e.cluster).setFc e.src fun f =>
    { f with count := SMap.put f.count e.ty (SMap.get 0 f.count e.ty + 1) }
    let p := bucketAdd t e.src e.ty e.cluster e.unit (evPoints e.kind)
    let q := locEvent p.1 e.src e.ty e.loc.toNat e.time.toNat e.kind
    (e.src.val < 4 → s.chLive e.src = true) → s.hub.phase ≠ .keeper → p.2.1 = false → q.2 = false → e.kind ≠ .persistent →
    evAction e.kind < 4 →
    exec (.faultEvent e) s = .next (faultRecord q.1 e.src e.time.toNat (evCode e.kind) e.ty clsTransient (evAction e.kind) e.cluster
      e.unit e.loc.toNat p.2.2 (if e.src.val < 4 ∧ e.cluster.val < 96 then clSection s e.src e.cluster else 0))) ∧
  (∀ s (src : Fin 5) (ty : Fin 16) (cluster : Fin 128) unit, exec (.bucketLeak src ty cluster unit) s =
    .next (s.setFc src fun f =>
      { f with bucket := SMap.put f.bucket (bucketKey ty cluster unit) (SMap.get 0 f.bucket (bucketKey ty cluster unit) - 1) })) ∧
  (∀ s (src : Fin 5), exec (.stormWindow src) s = .next ((List.range 16).foldl (fun s ty => stormStep s src ty) s)) ∧
  (∀ s (ch : Ch) r rest, s.up ch = true → (s.fc ch).repairs = r :: rest → ∃ u, exec (.repairCopyDone ch) s = .next u ∧
    (u.fc ch).repairs = rest ∧ (u.fc ch).repaired = (s.fc ch).repaired ++ [r.loc] ∧ u.mem = s.mem) ∧
  (∀ s ch, exec (.heartbeat ch) s = .next s) ∧
  (∀ s (ch : Ch), s.up ch = true → exec (.heartbeatTimeout ch) s = .next (retireChannel s ch cChannelRetired)) ∧
  (∀ s (d : DistId), (s.dist d.ch d.d).pllLost = true → s.up d.ch = true → exec (.pllRelockTimeout d) s =
    .next (retireChannel ((faultRecord s d.ch s.now (openCode 1) 14 clsUnit 11 127 d.d 0 0 0).took)
      d.ch cChannelRetired)) ∧
  (∀ s, exec .hubCriticalFault s = .next (criticalFault s)) ∧
  (∀ s, exec .sysclkLoss s = .next (criticalFault s)) ∧
  (∀ s, s.hub.watchdog = 0 → exec .hubWatchdogExpiry s = .next { s with hub := { s.hub with watchdog := 1 } }) ∧
  (∀ s, exec .faultNHoldEnd s = .next (faultPin { s with hub := { s.hub with faultHold := false } })) ∧
  (∀ s r (ch : Ch), Slice0.Open s r (.ch ch) → maySup (dropHalf s r) r = true → s.fget Fld.CH_FINJ_TYPE ch = 7 →
    exec (.chFinjArm r ch) s = .next ((dropHalf s r).fset Fld.CH_FINJ_ARM ch 0 1)) ∧
  (∀ s src (ch : Ch) unit, s.hub.thermtripN = false → s.hub.phase ≠ .keeper →
    exec (.thermalTrip src ch unit) s = .next (let t := ((((s.fset Fld.HUB_THERMSTAT_TRIP 0 0 1).fset
      Fld.HUB_THERMSTAT_SRC 0 0 src).fset Fld.HUB_THERMSTAT_CH 0 0 ch).fset Fld.HUB_THERMSTAT_UNIT 0 0 unit)
    keeperEnter { t with hub := { t.hub with thermtripN := true } } (t.fget Fld.NV_BOOTSTAT_KCAUSE) cThermal 13 false)) ∧
  (∀ s i uv ov, ∃ u, exec (.supplySample i uv ov) s = .next u ∧
    u.fget Fld.HUB_SUPPLYSTAT_UV = s.fget Fld.HUB_SUPPLYSTAT_UV ||| uv % 2 ^ 11 ∧
    u.fget Fld.HUB_SUPPLYSTAT_OV = s.fget Fld.HUB_SUPPLYSTAT_OV ||| ov % 2 ^ 11) ∧
  (∀ s, exec .xtalLoss s = .next (s.fset Fld.HUB_SUPPLYSTAT_XTALLOST 0 0 1))

/-! ### Boot, life cycle and the nonvolatile store (chapter 23) -/

/-- Resets and boot (R498 to R507): power good low is timed, accepted and ended; the warm reset waits for the store; the ROM
selects a store generation and boots a slot; the firmware brings the package up; a channel that stays silent is dropped; a
returned package is scrubbed. Commands: pwrgdFall, pwrgdLowAccept, pwrgdHighStable, hubRstctrlWrite, warmReset, romBoot,
firmwareBringup, fieldReadyTimeout, returnedScrubDone. -/
def Obligations.BootCommandsComplete : Prop :=
  (∀ s, exec .pwrgdFall s = .next { s with hub := { s.hub with pwrgdLow := true } }) ∧
  (∀ s cut, exec (.pwrgdLowAccept cut) s = .next { hubReset (cutStore s cut) true with
    hub := { (hubReset (cutStore s cut) true).hub with phase := .held, pwrgdLow := true } }) ∧
  (∀ s, s.hub.phase = .held → exec .pwrgdHighStable s =
    .next { s with hub := { s.hub with phase := .rom, pwrgdLow := false } }) ∧
  (∀ s r (v : Word), Slice0.HostOpen s r → mayHub r = true → v.toNat % 2 ^ 16 = 0xB007 → exec (.hubRstctrlWrite r v) s =
    .next { dropHalf s r with hub := { (dropHalf s r).hub with warmReq := true } }) ∧
  (∀ s, s.hub.warmReq = true → s.fget Fld.NV_STAT_BUSY = 0 → s.hub.thermtripN = false →
    exec .warmReset s = .next (hubReset (portClear s) false)) ∧
  (∀ s fa fb b tie u n, let t := romLatch (romPrepare s) (some b) tie
    s.hub.phase = .rom → selectBank (romPrepare s) = (some b, tie) →
    trySlots (curBody t).minsvn fa fb [(curBody t).slot % 2, 1 - (curBody t).slot % 2] t = (u, some n) →
    exec (.romBoot fa fb) s = .next (romStart u (curBody t).slot n)) ∧
  (∀ s, let t := latchMode s
    let n := t.fget Fld.NV_BOOTSTAT_SLOT
    s.hub.phase = .fw → s.nv.job = none → imageOk t n (manifest t n) 2 = true → imageOk t n (manifest t n) 3 = true →
    (curBody t).lc ≠ 4 → (curBody t).penddec ≠ 1 → ∃ u, exec .firmwareBringup s = .next u ∧ u.hub.phase = .run ∧
      u.nv.scrub = decide ((curBody t).lc = 3)) ∧
  (∀ s (ch : Ch), let t := dropChannel s ch
    let u := t.fset Fld.HUB_CAPS_CH_LIVE 0 0 (putBits (t.fget Fld.HUB_CAPS_CH_LIVE) ch.val 1 0)
    s.hub.phase = .run → s.chLive ch = true → ch.val ∉ s.hub.ready → exec (.fieldReadyTimeout ch) s =
      .next (report3 { u with hub := { u.hub with released := u.hub.released.filter fun x => !decide (x / 5 = ch.val) } }
        4 cUnitAbsent 0 127 0 0 0)) ∧
  (∀ s, s.nv.scrub = true → ∃ u, exec .returnedScrubDone s = .next u ∧ u.nv.scrub = false ∧ u.fget Fld.NV_LC_DBGLEVEL = 2)

/-- The nonvolatile store (R508 to R523): while it is not busy, a writer of hub registers commits a configuration, requests and
cancels a life-cycle change, clears the fault record and presents an authorisation; a generation, an erase and an append
end. Commands: nvCtrlCommit, nvCtrlLcreq, nvCtrlLccancel, nvCtrlFclear, nvCtrlAuthgo, nvGenerationDone, nvEraseDone,
nvFaultAppend. -/
def Obligations.StoreCommandsComplete : Prop :=
  (∀ s r, let t := dropHalf s r
    let g := curBody t
    Slice0.HostOpen s r → mayHub r = true → t.fget Fld.NV_STAT_BUSY = 0 →
    (cfgOk t = true → exec (.nvCtrlCommit r) s = .next (nvKeep t 2 (withCfg t g)) ∧
      (t.nv.cur ≠ none → exec (.nvCtrlCommit r) s = .next (nvStart t 2 g.lc (withCfg t g)))) ∧
    (lcAllowed g.lc (t.fget Fld.NV_CTRL_LCTGT) = some false → t.fget Fld.NV_CTRL_LCTGT ≠ 4 → g.lc ≠ 0 →
      exec (.nvCtrlLcreq r) s = .next (nvStart t 1 (t.fget Fld.NV_CTRL_LCTGT) { g with lc := t.fget Fld.NV_CTRL_LCTGT })) ∧
    (g.penddec = 1 → exec (.nvCtrlLccancel r) s = .next (nvStart t 1 g.lc { g with penddec := 0 })) ∧
    exec (.nvCtrlFclear r) s = .next (nvKeep t 4 { g with recs := [], epoch := g.epoch + 1 }) ∧
    (leNat ((authBytes t).take 8) ≠ t.regN .NV_DIEID →
      exec (.nvCtrlAuthgo r) s = .next (nvCode (newChallenge t) cRptViolation))) ∧
  (∀ s j, s.nv.job = some j → exec (.nvGenerationDone false) s = .next (idleBusy (nvCode
    (fErase { s with nv := { s.nv with job := none } } (bankAt j.bank) 0x10000) cNvStore))) ∧
  (∀ s j, s.nv.job = some j → s.hub.phase = .run → ∃ u, exec (.nvGenerationDone true) s = .next u ∧ u.nv.cur = some j.bank ∧
    u.nv.job = none) ∧
  (∀ s b rest, s.nv.erases = .bank b :: rest → exec .nvEraseDone s =
    .next (idleBusy (fErase { s with nv := { s.nv with erases := rest } } (bankAt b) 0x10000))) ∧
  (∀ s r rest b, s.nv.appends = r :: rest → s.nv.cur = some b → s.nv.job = none → s.nv.erases = [] →
    logSlots s ((curBody s).epoch % 2) < 1536 → ∃ u, exec .nvFaultAppend s = .next u ∧ u.nv.appends = rest ∧ u.mem = s.mem)

/-! ### Management, telemetry and debug (chapter 24) -/

/-- Requests of the management bus are answered (R525 to R533, R544 to R547): the control and base messages, the dump area, the dailies,
the sensors and the firmware update; the bus address, a held line, the alert and its hold-off. Commands: setEndpointId,
getEndpointId, getEndpointUuid, getMctpVersionSupport, getMessageTypeSupport, getVendorMessageSupport, smbusArp,
smbusLineTimeout, dumpInfo, dumpRead, dumpClear, dumpEraseDone, dlyRead, pldmBaseRequest, sensorSample, pldmSensorRequest,
requestUpdate, firmwareDataTransfer, verifyComplete, activateFirmware, alertResponseRead, alertHoldoffEnd. -/
def Obligations.ManagementRequestsComplete : Prop :=
  (∀ s eid, 0 < eid → eid < 0xFF → exec (.setEndpointId eid) s =
    .next (respond (s.fset Fld.HUB_MGMTSTAT_EID 0 0 eid) 0 [0#8, BitVec.ofNat 8 eid, 0#8])) ∧
  (∀ s, exec .getEndpointId s = .next (respond s 0 [BitVec.ofNat 8 (s.fget Fld.HUB_MGMTSTAT_EID), 0#8, 0#8])) ∧
  (∀ s, exec .getEndpointUuid s = .next (respond s 0 (leBytes 16 (Config.identity 0).toNat))) ∧
  (∀ s, exec .getMctpVersionSupport s = .next (respond s 0 [1#8, 0xF1#8, 0xF3#8, 0xFF#8, 0#8])) ∧
  (∀ s, exec .getMessageTypeSupport s = .next (respond s 0 [3#8, 0x00#8, 0x01#8, 0x7E#8])) ∧
  (∀ s, ∃ l, l.length = 6 ∧ exec .getVendorMessageSupport s = .next (respond s 0 l)) ∧
  (∀ s addr, s.fbit Fld.HUB_MGMTCFG_ARP = true →
    exec (.smbusArp addr) s = .next { s with mgmt := { s.mgmt with addr := addr % 128 } }) ∧
  (∀ s, exec .smbusLineTimeout s =
    .next (({ s with mgmt := { s.mgmt with partialMsg := [] } } : State).fadd Fld.HUB_MGMTSTAT_TIMEOUTS 0 0 1)) ∧
  (∀ s, exec .dumpInfo s = .next (respond s 0 (fRead s dumpAt 32))) ∧
  (∀ s off len, len ≤ 4032 → off + len ≤ dumpSize →
    exec (.dumpRead off len) s = .next (respond s 0 (fRead s (dumpAt + off) len))) ∧
  (∀ s, exec .dumpClear s =
    .next (respond (({ s with mgmt := { s.mgmt with erasing := true } } : State).fset Fld.HUB_DUMPSTAT_ERASED 0 0 0) 0 [])) ∧
  (∀ s, let t := fErase { s with mgmt := { s.mgmt with erasing := false } } dumpAt dumpSize
    s.mgmt.erasing = true → exec .dumpEraseDone s =
      .next ((t.fset Fld.HUB_DUMPSTAT_ERASED 0 0 1).fset Fld.HUB_DUMPSTAT_VALID 0 0 0)) ∧
  (∀ s ch first count d, dlyRecords s ch first count = some d → exec (.dlyRead ch first count) s = .next (respond s 0 d)) ∧
  (∀ s, exec (.pldmBaseRequest 4) s = .next (respond s 0 (leBytes 8 0x25))) ∧
  (∀ s rs, exec (.sensorSample rs) s = .next (rs.foldl sensorStep s)) ∧
  (∀ s id, sensorUp s id = true → exec (.pldmSensorRequest id) s =
    .next (respond s 0 ([0#8, BitVec.ofNat 8 (SMap.get 0 s.mgmt.level id)] ++ leBytes 4 (SMap.get 0 s.mgmt.reading id)))) ∧
  (∀ s slot, let t := if romUpdate s then s else fErase s (slotAt slot) slotSize
    updateRefused s slot = false → exec (.requestUpdate slot) s =
      .next (respond { t with mgmt := { t.mgmt with update := some { slot := slot, written := 0, verified := false } } } 0 [])) ∧
  (∀ s off data u, let t := fProg s (slotAt u.slot + off) data
    romUpdate s = false → s.mgmt.update = some u → s.fget Fld.NV_STAT_BUSY = 0 → off + data.length ≤ slotSize →
    exec (.firmwareDataTransfer off data) s = .next (respond { t with mgmt := { t.mgmt with
      update := some { u with written := u.written + data.length, verified := false } } } 0 [])) ∧
  (∀ s off data u, let v : FwUpdate := { u with written := u.written + data.length, verified := false, sram := u.sram ++ [(off, data)] }
    romUpdate s = true → s.mgmt.update = some u → s.fget Fld.NV_STAT_BUSY = 0 → off + data.length ≤ slotSize →
    exec (.firmwareDataTransfer off data) s = .next (respond { s with mgmt := { s.mgmt with update := some v } } 0 [])) ∧
  (∀ s u, let v := withSram s u
    let t := v.fset Fld.NV_BOOTSTAT_SKIP 0 0 (putBits (v.fget Fld.NV_BOOTSTAT_SKIP) u.slot 1 0)
    s.mgmt.update = some u → verifySlot v u.slot = 1 → exec .verifyComplete s =
      .next (respond { t with mgmt := { t.mgmt with update := some { u with sram := [], verified := true } } } 0 [1#8])) ∧
  (∀ s u, s.mgmt.update = some u → u.verified = true → s.fget Fld.NV_STAT_BUSY = 0 → exec .activateFirmware s =
    .next (respond (nvStart { s with mgmt := { s.mgmt with update := none } } 2 (curBody s).lc
      { curBody s with slot := u.slot }) 0 [])) ∧
  (∀ s e rest, s.mgmt.alert = true → s.mgmt.events = e :: rest → exec .alertResponseRead s = .next (respond (queuedField
    { s with mgmt := { s.mgmt with events := rest, alert := false, holdoff := true } }) 0
      ([BitVec.ofNat 8 s.mgmt.addr, BitVec.ofNat 8 e.1] ++ leBytes 8 e.2))) ∧
  (∀ s, exec .alertHoldoffEnd s = .next (alertPin { s with mgmt := { s.mgmt with holdoff := false } } false))

/-- Dailies, performance counters, the keeper's dump and JTAG (R536 to R543): control of the dailies by the writers that may, and the
JTAG instructions of the level in force. Commands: chDlyctrlTrigarm, chDlyctrlClear, chDlymarkWrite, hubDlyfreeze, pmctrlStart,
pmctrlStop, pmctrlSnap, keeperDumpDone, bypass, extest, samplePreload, idcode, clamp, highz, dlyRd, trstNLow. -/
def Obligations.DebugCommandsComplete : Prop :=
  (∀ s r (ch : Ch), let t := dropHalf s r
    Slice0.Open s r (.ch ch) → maySup t r = true →
    exec (.chDlyctrlTrigarm r ch) s = .next (((t.setDly ch fun d => { d with armed := true, left := none }).fset
      Fld.CH_DLYCTRL_TRIGARM ch 0 1).fset Fld.CH_DLYSTAT_TRIGGERED ch 0 0) ∧
    (∃ u, exec (.chDlyctrlClear r ch) s = .next u ∧ (u.dly ch).recs = [] ∧ (u.dly ch).full = 0 ∧ u.mem = s.mem) ∧
    (∀ v : Word, exec (.chDlymarkWrite r ch v) s = .next (dlyRecord t ch 10 0 127 (v.toNat % 2 ^ 32) 0))) ∧
  (∀ s r, Slice0.HostOpen s r → maySup (dropHalf s r) r = true → exec (.hubDlyfreeze r) s =
    .next ((dropHalf s r).liveChs.foldl (fun s c => s.setDly c fun d => { d with frozen := true }) (dropHalf s r))) ∧
  (∀ s r (src : Fin 5), let t := dropHalf s r
    Slice0.Open s r (pmBlk src) → src.val < 4 → maySup t r = true →
    exec (.pmctrlStart r src) s = .next (t.setDly src fun d => { d with counting := true }) ∧
    exec (.pmctrlStop r src) s = .next (t.setDly src fun d => { d with counting := false }) ∧
    exec (.pmctrlSnap r src) s =
      .next ((List.range 16).foldl (fun s i => s.setReg .CH_PMSNAPn src i (s.regN .CH_PMCn src i)) t)) ∧
  (∀ s r, let t := dropHalf s r
    Slice0.Open s r .hub → mayHub r = true →
    exec (.pmctrlStart r 4) s = .next (t.liveChs.foldl (fun s c => s.setDly c fun d => { d with counting := true }) t) ∧
    exec (.pmctrlStop r 4) s = .next (t.liveChs.foldl (fun s c => s.setDly c fun d => { d with counting := false }) t)) ∧
  (∀ s bad, let t := (fProg { s with mgmt := { s.mgmt with dumping := false } } dumpAt (dumpBytes s bad)).took
    s.mgmt.dumping = true → exec (.keeperDumpDone bad) s =
      .next ((t.fset Fld.HUB_DUMPSTAT_ERASED 0 0 0).fset Fld.HUB_DUMPSTAT_VALID 0 0 1)) ∧
  (∀ s, exec .bypass s = .next (Slice0.jtagIr s 0xFF) ∧ exec .clamp s = .next (Slice0.jtagIr s 0x03) ∧
    exec .highz s = .next (Slice0.jtagIr s 0x04)) ∧
  (∀ s (v : Word), ∃ u w, exec (.extest v) s = .next u ∧ u.mgmt.ir = 0x00 ∧
    u.mgmt.boundary = (List.range 64).map v.toNat.testBit ∧
    exec (.samplePreload v) s = .next w ∧ w.mgmt.ir = 0x01 ∧ w.mgmt.boundary = (List.range 64).map v.toNat.testBit) ∧
  (∀ s, exec .idcode s = .next (setTdo (Slice0.jtagIr s 0x02) [if s.part = 5 then 0x1A7A2001 else 0x1A7A1001])) ∧
  (∀ s ch first count d, Slice0.Jtag s 1 → dlyRecords (Slice0.jtagIr s 0x21) ch first count = some d →
    exec (.dlyRd ch first count) s = .next (setTdo (Slice0.jtagIr s 0x21) (d.map BitVec.toNat))) ∧
  (∀ s, exec .trstNLow s = .next { s with mgmt := { s.mgmt with ir := 0x02, deny := false, tdo := [] } })

/-! ### Stewards (chapter 6) -/

/-- A steward. -/
def Slice0.stwOf (s : State) (w : StwId) : Stw := s.stw w.c.ch w.c.cl w.w

/-- A scalar register as a 64-bit value. -/
def Slice0.xreg (s : State) (w : StwId) (r : Nat) : Word := BitVec.ofNat 64 ((Slice0.stwOf s w).get r)

/-- The steward may issue, and the instruction at its pc is `i`. -/
def Slice0.Issues (s : State) (w : StwId) (i : SIns) : Prop :=
  stwMay s w.c.ch w.c.cl w.w = true ∧ stwFetch s w.c.ch w.c.cl (Slice0.stwOf s w) = .inr i

/-- The state in which the instruction acts: its length is noted, and the district of a running steward does not lend. -/
def Slice0.issued (s : State) (w : StwId) (i : SIns) : State :=
  setStw (if (Slice0.stwOf s w).st = wRun then wakeDistrict s w.c.ch (clDistrict w.c.cl) else s) w.c.ch w.c.cl w.w
    fun x => { x with ilen := i.len }

/-- Who issues. -/
def Slice0.iss (s : State) (w : StwId) (i : SIns) : Iss := ⟨w.c.ch, w.c.cl, w.w, Slice0.stwOf s w, i⟩

/-- The command of each steward instruction. -/
def Slice0.stwCommand : SMn → StwId → Instr
  | .illegal => .illegalInstruction
  | .alu => .sAlu | .addi => .sAddi | .andi => .sAndi | .ori => .sOri | .xori => .sXori | .shi => .sShi | .slti => .sSlti
  | .beq => .sBeq | .bne => .sBne | .blt => .sBlt | .bge => .sBge | .bltu => .sBltu | .bgeu => .sBgeu
  | .jal => .sJal | .jalr => .sJalr
  | .csr => .sCsr | .sysc => .sSysc | .rett => .sRett | .hret => .sHret | .halt => .sHalt
  | .fenceL => .sFenceL | .fenceG => .sFenceG | .fenceI => .sFenceI | .li => .sLi | .lih => .sLih
  | .ldl => .sLdl | .stl => .sStl | .ldg => .sLdg | .stg => .sStg
  | .dlyIssue => .sDlyIssue | .dlyWait => .sDlyWait | .dlyPoll => .sDlyPoll | .qsnd => .sQsnd | .qrcv => .sQrcv
  | .syncRd => .sSyncRd | .syncAdd => .sSyncAdd | .syncSet => .sSyncSet | .syncWge => .sSyncWge
  | .barArv => .sBarArv | .barWait => .sBarWait | .barArw => .sBarArw
  | .takeOpen => .sTakeOpen | .takeCommit => .sTakeCommit | .takeSquash => .sTakeSquash
  | .takeEnter => .sTakeEnter | .takeLeave => .sTakeLeave | .takeStat => .sTakeStat
  | .predQ => .sPredQ | .predU => .sPredU
  | .sealConvoy => .sSealConvoy | .sealWait => .sSealWait | .sealPoll => .sSealPoll | .sealCtx => .sSealCtx
  | .sealHdr => .sSealHdr

/-- The steward's own registers after an instruction: register `rd` takes `v` unless it is `s0`, the other scalar registers
and the special registers keep their values, the pc is `pc`, one more instruction is counted, and the steward runs on, or
halts after a step. -/
def Slice0.Retired (s u : State) (w : StwId) (rd : Nat) (v : Word) (pc : Nat) : Prop :=
  let x := Slice0.stwOf s w
  let y := Slice0.stwOf u w
  (∀ r, Slice0.xreg u w r = if r = rd ∧ r ≠ 0 then v else Slice0.xreg s w r) ∧ y.pc = pc ∧ y.instret = x.instret + 1 ∧
  y.st = (if x.stepping then wHalted else wRun) ∧
  (y.take, y.fcause, y.fdetail, y.epc, y.tvec) = (x.take, x.fcause, x.fdetail, x.epc, x.tvec) ∧
  (y.prv, y.pprv, y.intrap, y.arvDone, y.serr) = (x.prv, x.pprv, x.intrap, x.arvDone, x.serr) ∧
  (y.dlyerr, y.hepc, y.sscratch, y.posted) = (x.dlyerr, x.hepc, x.sscratch, x.posted)

/-- What an instruction that acts on registers alone leaves unchanged: every byte of memory and its poison, every tile, every
unit of the channels, and everything of the clusters but the steward. -/
def Slice0.RegsOnly (s u : State) (w : StwId) : Prop :=
  (∀ a, u.byteAt a = s.byteAt a) ∧ u.psn = s.psn ∧ u.tiles = s.tiles ∧ u.chans = s.chans ∧ u.seals = s.seals ∧
  (∀ v : StwId, v ≠ w → Slice0.stwOf u v = Slice0.stwOf s v) ∧
  (∀ c : Cl, { u.clu c.ch c.cl with stws := [] } = { s.clu c.ch c.cl with stws := [] })

/-- The next instruction's address. -/
def Slice0.after (s : State) (w : StwId) (i : SIns) : Nat := ((Slice0.stwOf s w).pc + i.len) % 2 ^ 22

/-- Result of an integer instruction on 64-bit values: `a` and `b` from `RA` and `RB`, `d` the old `RD` (Tables 6-2, 6-3). -/
def Slice0.intValue (i : SIns) (a b d : Word) : Word :=
  let m : Word := BitVec.ofInt 64 i.imm
  let flag (p : Bool) : Word := if p then 1 else 0
  match i.mn with
  | .addi => a + m
  | .andi => a &&& m
  | .ori => a ||| m
  | .xori => a ^^^ m
  | .shi =>
    if bits i.raw 23 2 = 0 then a <<< bits i.raw 17 6
    else if bits i.raw 23 2 = 1 then a >>> bits i.raw 17 6
    else a.sshiftRight (bits i.raw 17 6)
  | .slti => flag (decide (a.toInt < i.imm))
  | .li => m
  | .lih => (d &&& 0xFFFFFFFF#64) ||| (m <<< 32)
  | _ =>
    match i.fn with
    | 0 => a + b
    | 1 => a - b
    | 2 => a &&& b
    | 3 => a ||| b
    | 4 => a ^^^ b
    | 5 => a <<< (b.toNat % 64)
    | 6 => a >>> (b.toNat % 64)
    | 7 => a.sshiftRight (b.toNat % 64)
    | 8 => flag (a.slt b)
    | 9 => flag (a.ult b)
    | 10 => a * b
    | 11 => BitVec.ofNat 64 (a.toNat * b.toNat / 2 ^ 64)
    | 12 => if a.slt b then a else b
    | 13 => if a.slt b then b else a
    | 14 => if a.ult b then a else b
    | _ => if a.ult b then b else a

/-- The integer instructions ALU, ADDI, ANDI, ORI, XORI, SHI, SLTI, LI and LIH write their value on 64 bits to `RD` (R123),
which a destination of `s0` discards (R122), go on to the next instruction, and change nothing else. Commands: sAlu, sAddi,
sAndi, sOri, sXori, sShi, sSlti, sLi, sLih. -/
def Obligations.StewardIntegerResults : Prop :=
  ∀ s w i, Slice0.Issues s w i → i.mn ∈ [SMn.alu, .addi, .andi, .ori, .xori, .shi, .slti, .li, .lih] →
    ∃ u, exec (Slice0.stwCommand i.mn w) s = .next u ∧
      Slice0.Retired s u w i.rd
        (Slice0.intValue i (Slice0.xreg s w i.ra) (Slice0.xreg s w i.rb) (Slice0.xreg s w i.rd)) (Slice0.after s w i) ∧
      Slice0.RegsOnly s u w

/-- Whether a branch is taken. -/
def Slice0.branches (m : SMn) (a b : Word) : Bool :=
  match m with
  | .beq => decide (a = b)
  | .bne => decide (a ≠ b)
  | .blt => a.slt b
  | .bge => !a.slt b
  | .bltu => a.ult b
  | _ => !a.ult b

/-- BEQ, BNE, BLT, BGE, BLTU and BGEU go to pc + 2 × `IMM` where their registers compare as named, else to the next
instruction; JAL goes to pc + 2 × `IMM` and JALR to `RA` + `IMM` with bit 0 cleared, both with pc + 4 in `RD` (R123). They
change nothing else. Commands: sBeq, sBne, sBlt, sBge, sBltu, sBgeu, sJal, sJalr. -/
def Obligations.StewardBranches : Prop :=
  ∀ s w i, Slice0.Issues s w i →
    let pc := (Slice0.stwOf s w).pc
    let near := BitVec.ofInt 22 ((pc : Int) + 2 * i.imm)
    (i.mn ∈ [SMn.beq, .bne, .blt, .bge, .bltu, .bgeu] → ∃ u, exec (Slice0.stwCommand i.mn w) s = .next u ∧
      Slice0.Retired s u w 0 0
        (if Slice0.branches i.mn (Slice0.xreg s w i.ra) (Slice0.xreg s w i.rb) then near.toNat else Slice0.after s w i) ∧
      Slice0.RegsOnly s u w) ∧
    (i.mn = .jal → ∃ u, exec (.sJal w) s = .next u ∧
      Slice0.Retired s u w i.rd (BitVec.ofNat 64 (pc + 4)) near.toNat ∧ Slice0.RegsOnly s u w) ∧
    (i.mn = .jalr → ∃ u, exec (.sJalr w) s = .next u ∧
      Slice0.Retired s u w i.rd (BitVec.ofNat 64 (pc + 4))
        (((Slice0.xreg s w i.ra + BitVec.ofInt 64 i.imm) &&& ~~~(1#64)).toNat % 2 ^ 22) ∧ Slice0.RegsOnly s u w)

/-- A trap of R128: the saved pc, cause and detail; the old privilege saved; supervisor level and the trap mark; the pc at
the vector; every scalar register and the other special registers as before. -/
def Slice0.Trapped (s u : State) (w : StwId) (epc kind code detail : Nat) : Prop :=
  let x := Slice0.stwOf s w
  let y := Slice0.stwOf u w
  y.epc = epc ∧ y.fcause = kind * 2 ^ 8 + code ∧ y.fdetail = detail ∧ y.pprv = x.prv ∧ y.prv = true ∧ y.intrap = true ∧
  y.pc = x.tvec ∧ y.st = (if x.stepping then wHalted else wRun) ∧ (∀ r, Slice0.xreg u w r = Slice0.xreg s w r) ∧
  (y.take, y.tvec, y.serr, y.dlyerr, y.hepc, y.sscratch) = (x.take, x.tvec, x.serr, x.dlyerr, x.hepc, x.sscratch) ∧
  Slice0.RegsOnly s u w

/-- Traps of a steward that is under no take and in no trap (R121, R123, R124, R127, R128): SYSC with the next
instruction's address, an illegal instruction, a misaligned or out-of-range LDL or STL, RETT from user code, and a fetch
outside the depot, which every command of the steward meets. A trap taken while
`intrap` is set faults the steward and tells the fault controller, which ends its section; shown for SYSC and for an illegal
instruction of a running steward. Commands: sSysc, illegalInstruction. -/
def Obligations.StewardTraps : Prop :=
  (∀ s w, (Slice0.stwOf s w).intrap = false → (Slice0.stwOf s w).take = none →
    let pc := (Slice0.stwOf s w).pc
    (∀ i, Slice0.Issues s w i → i.mn = .sysc → ∃ u, exec (.sSysc w) s = .next u ∧
      Slice0.Trapped s u w (Slice0.after s w i) 0x05 0x00 ((Slice0.stwOf s w).get i.ra)) ∧
    (∀ i, Slice0.Issues s w i → i.mn = .illegal → ∃ u, exec (.illegalInstruction w) s = .next u ∧
      Slice0.Trapped s u w pc 0x01 cUnitAbsent i.raw) ∧
    (∀ i, Slice0.Issues s w i → i.mn = .ldl ∨ i.mn = .stl →
      let a := ((Slice0.xreg s w i.ra).setWidth 22 + BitVec.ofInt 22 i.imm).toNat
      (a % i.width ≠ 0 → ∃ u, exec (Slice0.stwCommand i.mn w) s = .next u ∧ Slice0.Trapped s u w pc 0x03 0x00 a) ∧
      (a % i.width = 0 → 3670016 < a + i.width → ∃ u, exec (Slice0.stwCommand i.mn w) s = .next u ∧
        Slice0.Trapped s u w pc 0x04 0x00 a)) ∧
    (∀ i, Slice0.Issues s w i → i.mn = .rett → (Slice0.stwOf s w).prv = false → ∃ u, exec (.sRett w) s = .next u ∧
      Slice0.Trapped s u w pc 0x02 0x00 i.raw) ∧
    (stwMay s w.c.ch w.c.cl w.w = true → 3670016 ≤ pc → ∀ m, ∃ u, exec (Slice0.stwCommand m w) s = .next u ∧
      Slice0.Trapped s u w pc 0x04 0x00 pc)) ∧
  (∀ s w i, Slice0.Issues s w i → (Slice0.stwOf s w).intrap = true → (Slice0.stwOf s w).st = wRun →
    let t := setStw (Slice0.issued s w i) w.c.ch w.c.cl w.w fun x => { x.go with st := wFaulted }
    (i.mn = .sysc → (Slice0.stwOf s w).take = none → exec (.sSysc w) s = .next (abortCluster t w.c.ch w.c.cl 0x00)) ∧
    (i.mn = .illegal → exec (.illegalInstruction w) s = .next (abortCluster t w.c.ch w.c.cl cUnitAbsent)) ∧
    (Slice0.stwOf t w).st = wFaulted ∧ ∀ a, t.byteAt a = s.byteAt a)

/-- The value that a CSR instruction writes. -/
def Slice0.csrValue (op : Nat) (old a : Word) : Word := if op = 1 then a else if op = 2 then old ||| a else old &&& ~~~a

/-- A CSR instruction that the privilege rules allow (R127, R140): `RD` takes the old value and the register the new one,
in the width Table 6-12 gives it; no other special register changes. Commands: sCsr. -/
def Obligations.StewardSpecialRegisters : Prop :=
  ∀ s w i, Slice0.Issues s w i → i.mn = .csr →
    let op := i.fn % 4
    let n := i.fn / 4
    let x := Slice0.stwOf s w
    let t := Slice0.issued s w i
    let old : Word := BitVec.ofNat 64 (csrGet (Slice0.iss s w i) t n)
    let v := Slice0.csrValue op old (Slice0.xreg s w i.ra)
    n ≤ 0x0D →
    (op = 0 → (x.prv = true ∨ csrReadS n = false) → ∃ u, exec (.sCsr w) s = .next u ∧
      Slice0.Retired s u w i.rd old (Slice0.after s w i) ∧ Slice0.RegsOnly s u w) ∧
    (op ≠ 0 → x.take = none → csrFixed n = false → (x.prv = true ∨ csrWriteS n = false) →
      ∃ u, exec (.sCsr w) s = .next u ∧ Slice0.RegsOnly s u w ∧
        let y := Slice0.stwOf u w
        (∀ r, Slice0.xreg u w r = if r = i.rd ∧ r ≠ 0 then old else Slice0.xreg s w r) ∧
        y.pc = Slice0.after s w i ∧ y.take = x.take ∧
        y.fcause = (if n = 0x02 then v.toNat % 2 ^ 16 else x.fcause) ∧
        y.fdetail = (if n = 0x03 then v.toNat else x.fdetail) ∧
        y.epc = (if n = 0x04 then v.toNat % 2 ^ 22 else x.epc) ∧
        y.tvec = (if n = 0x05 then v.toNat % 2 ^ 22 / 2 * 2 else x.tvec) ∧
        (y.prv, y.pprv, y.intrap, y.arvDone) =
          (if n = 0x06 then (v.getLsbD 0, v.getLsbD 1, v.getLsbD 2, v.getLsbD 3) else (x.prv, x.pprv, x.intrap, x.arvDone)) ∧
        y.serr = (if n = 0x07 then (0, 0) else x.serr) ∧
        y.hepc = (if n = 0x0A then v.toNat % 2 ^ 22 else x.hepc) ∧
        y.dlyerr = (if n = 0x0C then (0, 0) else x.dlyerr) ∧
        y.sscratch = (if n = 0x0D then v else x.sscratch)) ∧
    (x.intrap = false → x.take = none → x.prv = false → (op = 0 ∧ csrReadS n = true ∨ op ≠ 0 ∧ csrWriteS n = true) →
      ∃ u, exec (.sCsr w) s = .next u ∧ Slice0.Trapped s u w x.pc 0x02 0x00 i.raw)

/-- The system instructions under no take: RETT returns to `epc` at the saved level (R128); HRET returns to `hepc` and removes
the message that started the handler, if it is still queued and its queue not poisoned (R136, R234, R240); HALT stops with the pc past it (R123); the fences
go on where nothing is outstanding, FENCE.G traps for what failed and waits for what is outstanding, and FENCE.I lets stores
reach execution (R136, R138). Commands: sRett, sHret, sHalt, sFenceL, sFenceG, sFenceI. -/
def Obligations.StewardSystemInstructions : Prop :=
  ∀ s w i, Slice0.Issues s w i → (Slice0.stwOf s w).take = none →
    let ch := w.c.ch.val
    let c := w.c.cl.val
    let x := Slice0.stwOf s w
    let t := Slice0.issued s w i
    (i.mn = .rett → x.prv = true → ∃ u, exec (.sRett w) s = .next u ∧ (Slice0.stwOf u w).pc = x.epc % 2 ^ 22 ∧
      (Slice0.stwOf u w).prv = x.pprv ∧ (Slice0.stwOf u w).intrap = false ∧
      (∀ r, Slice0.xreg u w r = Slice0.xreg s w r) ∧ Slice0.RegsOnly s u w) ∧
    (∀ q h, i.mn = .hret → x.inh = some (q, h) → ∃ u, exec (.sHret w) s = .next u ∧
      (Slice0.stwOf u w).pc = x.hepc % 2 ^ 22 ∧ (Slice0.stwOf u w).inh = none ∧
      queue u ch c q = (if x.inMsg ∧ qPsn s ch c q = false then (queue s ch c q).tail else queue s ch c q) ∧
      (∀ r, Slice0.xreg u w r = Slice0.xreg s w r) ∧ ∀ a, u.byteAt a = s.byteAt a) ∧
    (i.mn = .halt → ∃ u, exec (.sHalt w) s = .next u ∧ (Slice0.stwOf u w).st = wHalted ∧
      (Slice0.stwOf u w).pc = Slice0.after s w i ∧ u.fbit Fld.CL_STWn_CTRL_HALT (clLoc ch c) w.w = false ∧
      (∀ r, Slice0.xreg u w r = Slice0.xreg s w r) ∧ Slice0.RegsOnly s u w) ∧
    (i.mn = .fenceL → ∃ u, exec (.sFenceL w) s = .next u ∧
      Slice0.Retired s u w 0 0 (Slice0.after s w i) ∧ Slice0.RegsOnly s u w) ∧
    (i.mn = .fenceG →
      (x.posted = 0 → x.serr.2 = 0 → ∃ u, exec (.sFenceG w) s = .next u ∧
        Slice0.Retired s u w 0 0 (Slice0.after s w i) ∧ Slice0.RegsOnly s u w) ∧
      (x.posted = 0 → x.serr.2 ≠ 0 → x.intrap = false → ∃ u, exec (.sFenceG w) s = .next u ∧
        Slice0.Trapped s u w x.pc 0x09 x.serr.1 x.serr.2) ∧
      (x.posted ≠ 0 → exec (.sFenceG w) s = .next (stwStall t ch c w.w .none))) ∧
    (i.mn = .fenceI → ∃ u, exec (.sFenceI w) s = .next u ∧ (Slice0.stwOf u w).oldCode = [] ∧
      Slice0.Retired s u w 0 0 (Slice0.after s w i) ∧ Slice0.RegsOnly s u w)

/-- LDL and STL in the own depot (R124, R134): an aligned access inside it reads, or writes, the bytes of its width at
(s[`RA`] + `IMM`) mod 2^22, low byte first. LDL zero-extends, and under a take does the same. STL changes no other byte;
under an open take slot it logs the bytes it overwrites. Commands: sLdl, sStl. -/
def Obligations.StewardLocalMemory : Prop :=
  ∀ s w i, Slice0.Issues s w i →
    let ch := w.c.ch.val
    let c := w.c.cl.val
    let x := Slice0.stwOf s w
    let t := Slice0.issued s w i
    let a := ((Slice0.xreg s w i.ra).setWidth 22 + BitVec.ofInt 22 i.imm).toNat
    let p := depotAt ch c a
    let stored (u : State) : Prop :=
      (∀ j, j < i.width → u.byteAt (p + j) = (Slice0.xreg s w i.rb >>> (8 * j)).setWidth 8) ∧
      (∀ b, (b < p ∨ p + i.width ≤ b) → u.byteAt b = s.byteAt b)
    a % i.width = 0 → a + i.width ≤ 3670016 → ownStoreDue t (Slice0.iss s w i) a i.width = false →
    depotCopies t ch c a i.width = false →
    (i.mn = .ldl → anyPsn (s.readMem p i.width) = false → ∃ u, exec (.sLdl w) s = .next u ∧
      Slice0.Retired s u w i.rd
        (BitVec.ofNat 64 ((List.range i.width).foldr (fun j v => (s.byteAt (p + j)).toNat * 2 ^ (8 * j) + v) 0))
        (Slice0.after s w i) ∧
      Slice0.RegsOnly s u w) ∧
    (i.mn = .stl → x.take = none → (Slice0.iss s w i).storing t = false → gateWr t ch c = true → guardAct t p i.width = 0 →
      ∃ u, exec (.sStl w) s = .next u ∧
      Slice0.Retired s u w 0 0 (Slice0.after s w i) ∧ stored u) ∧
    (∀ k, i.mn = .stl → x.take = some k → (Slice0.iss s w i).storing t = false → takeOpen s ch c k = true →
      penFull s ch c = false → gateWr t ch c = true → guardAct t p i.width = 0 → ∃ u, exec (.sStl w) s = .next u ∧
        Slice0.Retired s u w 0 0 (Slice0.after s w i) ∧ stored u ∧
        (u.clu ch c).pen = (s.clu ch c).pen ++ [(k, .undo a (s.readMem p i.width))])

/-- LDG and STG (R125, R126, R134): an aligned load that its checks allow becomes a request and the steward waits for it,
GLOBAL_LOAD_RETURN gives it the value, zero-extended; a store is posted, held in the pen under an open take slot, and
POSTED_ACK_RETURN takes its acknowledgement. Commands: sLdg, sStg, globalLoadReturn, postedAckReturn. -/
def Obligations.StewardGlobalMemory : Prop :=
  ∀ s (w : StwId),
    let ch := w.c.ch.val
    let c := w.c.cl.val
    let x := Slice0.stwOf s w
    (∀ i, Slice0.Issues s w i →
      let t := Slice0.issued s w i
      let a := (Slice0.xreg s w i.ra + BitVec.ofInt 64 i.imm).toNat
      a % i.width = 0 →
      (i.mn = .ldg → x.take = none → accessCode t ch (stwFn t ch c w.w) false a i.width = 0 → ownCtl t ch a = false →
        exec (.sLdg w) s = .next (stwStall (issueReq t ch
          { ret := .load (stwNo c w.w) i.rd, fn := stwFn t ch c w.w, epoch := epochOf t ch, cl := c, tga := a,
            op := .read i.width, cls := if isOwn t ch a then 0 else 2, place := .table }) ch c w.w .load)) ∧
      (i.mn = .ldg → x.take = none → accessCode t ch (stwFn t ch c w.w) false a i.width = 0 → ownCtl t ch a = true →
        exec (.sLdg w) s = .next (stwFinish (ctlLoad t w ch a i.width).1 ch c w.w i.rd (ctlLoad t w ch a i.width).2)) ∧
      (i.mn = .stg → x.take = none → storeWaits t ch c w.w a = false →
        exec (.sStg w) s = .next (postStore (stwFinish t ch c w.w 0 0) ch c w.w a (dBytes i.width (x.get i.rb)))) ∧
      (∀ k, i.mn = .stg → x.take = some k → takeOpen s ch c k = true → penFull s ch c = false →
        ∃ u, exec (.sStg w) s = .next u ∧ Slice0.Retired s u w 0 0 (Slice0.after s w i) ∧
          (u.clu ch c).pen = (s.clu ch c).pen ++ [(k, .store w.w a (dBytes i.width (x.get i.rb)))] ∧
          ∀ b, u.byteAt b = s.byteAt b)) ∧
    (∀ r rd, stwBack s ch (fun t => match t with | .load n _ => decide (n = stwNo c w.w) | _ => false) = some r →
      r.ret = .load (stwNo c w.w) rd → clocked s ch c = true → codeOk r.code = true → anyPsn r.data = false →
      exec (.globalLoadReturn w) s = .next (stwFinish (dropReq s ch r.no) ch c w.w rd (dNat r.data))) ∧
    (∀ r bs, stwBack s ch (fun t => decide (t = .posted (stwNo c w.w))) = some r → clocked s ch c = true →
      r.op = .write bs → (s.clu ch c).sbDue = [] → ∃ u, exec (.postedAckReturn w) s = .next u ∧
        (Slice0.stwOf u w).posted = x.posted - 1 ∧
        (Slice0.stwOf u w).serr = (if codeOk r.code then x.serr else recErr x.serr r.code) ∧
        (u.chan ch).reqs = (s.chan ch).reqs.filter (fun q => !decide (q.no = r.no)) ∧ u.mem = s.mem)

/-- QSND and QRCV (R131, R226, R231): a send that may go copies its body from the depot, answers 0 and is posted; with `NB`
it answers 1 where it would stall; under an open take slot it is held in the pen. A receive stores the body of the head
message, removes it and answers its length; with `NB` it answers 0 at an empty queue, where without it the steward waits.
Commands: sQsnd, sQrcv. -/
def Obligations.StewardMessages : Prop :=
  ∀ s w i, Slice0.Issues s w i →
    let ch := w.c.ch.val
    let c := w.c.cl.val
    let x := Slice0.stwOf s w
    let t := Slice0.issued s w i
    let la := x.get i.rb % 2 ^ 22
    let n := 8 * (i.fn % 16 + 1)
    let q := i.fn % 16
    la % 8 = 0 →
    (i.mn = .qsnd → la + n ≤ 3670016 → ownStoreDue t (Slice0.iss s w i) la n = false →
      (x.take = none → sendWaits t ch c w.w = false → exec (.sQsnd w) s =
        .next (postSend (stwFinish t ch c w.w i.rd 0) ch c w.w (x.get i.ra) (s.readMem (depotAt ch c la) n))) ∧
      (x.take = none → sendWaits t ch c w.w = true → bit i.fn 4 = true →
        exec (.sQsnd w) s = .next (stwFinish t ch c w.w i.rd 1)) ∧
      (x.take = none → sendWaits t ch c w.w = true → bit i.fn 4 = false →
        exec (.sQsnd w) s = .next (stwStall t ch c w.w .qsnd)) ∧
      (∀ k, x.take = some k → takeOpen s ch c k = true → penFull s ch c = false → ∃ u, exec (.sQsnd w) s = .next u ∧
        Slice0.Retired s u w i.rd 0 (Slice0.after s w i) ∧
        (u.clu ch c).pen = (s.clu ch c).pen ++ [(k, .send w.w (x.get i.ra) (n / 8) (s.readMem (depotAt ch c la) n))])) ∧
    (i.mn = .qrcv → x.take = none → qMode t ch c q ≠ qOff → (qMode t ch c q = qDispatch → x.inh.map Prod.fst = some q) →
      qPsn t ch c q = false → (Slice0.iss s w i).storing t = false →
      (∀ e l, queue s ch c q = e :: l → la + e.body.length ≤ 3670016 → qrcvBehind t (Slice0.iss s w i) q = false →
        depotCopies t ch c la e.body.length = false → gateWr t ch c = true →
          ownStoreDue t (Slice0.iss s w i) la e.body.length = false →
        guardAct t (depotAt ch c la) e.body.length = 0 → ∃ u, exec (.sQrcv w) s = .next u ∧
          Slice0.Retired s u w i.rd (BitVec.ofNat 64 e.body.length) (Slice0.after s w i) ∧ queue u ch c q = l ∧
          (∀ j, (h : j < e.body.length) → u.byteAt (depotAt ch c la + j) = e.body[j].1) ∧
          (∀ b, (b < depotAt ch c la ∨ depotAt ch c la + e.body.length ≤ b) → u.byteAt b = s.byteAt b)) ∧
      (queue s ch c q = [] → bit i.fn 4 = true → exec (.sQrcv w) s = .next (stwFinish t ch c w.w i.rd 0)) ∧
      (queue s ch c q = [] → bit i.fn 4 = false → exec (.sQrcv w) s = .next (qrcvStall (Slice0.iss s w i) t q)))

/-- The dolly instructions (R129, R130): DLY.ISSUE takes the lowest free slot and answers its ticket, `SLOT` and `COUNT`;
DLY.WAIT and DLY.POLL of a complete descriptor answer its code and free the slot; before that, DLY.WAIT stalls and DLY.POLL
answers 0x100; a ticket that names nothing traps with kind TICKET. Commands: sDlyIssue, sDlyWait, sDlyPoll. -/
def Obligations.StewardDollyInstructions : Prop :=
  ∀ s w i, Slice0.Issues s w i →
    let ch := w.c.ch.val
    let c := w.c.cl.val
    let x := Slice0.stwOf s w
    let t := Slice0.issued s w i
    let u := Slice0.iss s w i
    let free := (List.range 64).filter fun n => (SMap.get? (s.clu ch c).slots n).isNone
    let a := x.get i.ra
    (∀ n l, i.mn = .dlyIssue → a % 2 ^ 22 % 32 = 0 → a % 2 ^ 22 + 32 ≤ 3670016 → free = n :: l → tieLost t u = false →
      exec (.sDlyIssue w) s =
        .next (stwFinish (slotNew t u (a % 2 ^ 22) n) ch c w.w i.rd (n + (s.clu ch c).issues % 2 ^ 16 * 2 ^ 16))) ∧
    (i.mn = .dlyIssue → a % 2 ^ 22 % 32 = 0 → a % 2 ^ 22 + 32 ≤ 3670016 → free = [] →
      exec (.sDlyIssue w) s = .next (stwStall t ch c w.w .dolly)) ∧
    (∀ d, i.mn = .dlyWait ∨ i.mn = .dlyPoll → ticketSlot s ch c a = some d → d.complete = true →
      exec (Slice0.stwCommand i.mn w) s =
        .next (stwFinish (t.setClu ch c fun k =>
          { k with slots := SMap.erase k.slots (a % 64) }) ch c w.w i.rd (d.code.getD 0))) ∧
    (∀ d, ticketSlot s ch c a = some d → d.complete = false →
      (i.mn = .dlyWait → exec (.sDlyWait w) s = .next (stwStall t ch c w.w .dolly)) ∧
      (i.mn = .dlyPoll → exec (.sDlyPoll w) s = .next (stwFinish t ch c w.w i.rd 0x100))) ∧
    (i.mn = .dlyWait ∨ i.mn = .dlyPoll → ticketSlot s ch c a = none → x.take = none → x.intrap = false →
      ∃ v, exec (Slice0.stwCommand i.mn w) s = .next v ∧ Slice0.Trapped s v w x.pc 0x08 0x00 a)

/-- Sync operations by instruction: the operation, its value, and whether the steward goes on without an answer. -/
def Slice0.syncOp (m : SMn) (b : Nat) : SOp × Nat × Bool :=
  match m with
  | .syncRd => (.rd, 0, false)
  | .syncAdd => (.add, b % 2 ^ 32, true)
  | .syncSet => (.set, b % 2 ^ 32, true)
  | .syncWge => (.wge, b, false)
  | .barArv => (.arv, 1, true)
  | .barWait => (.wait, 0, false)
  | _ => (.arw, 1, false)

/-- The sync instructions on an object the steward may name (R132, R246, R250): the operation goes to the object's bank; after
SYNC.ADD, SYNC.SET and BAR.ARV the steward goes on, after SYNC.RD, SYNC.WGE, BAR.WAIT and BAR.ARW it stalls until the
operation ends. Any other space of TGA traps with kind RANGE. Commands: sSyncRd, sSyncAdd, sSyncSet, sSyncWge, sBarArv,
sBarWait, sBarArw. -/
def Obligations.StewardSyncInstructions : Prop :=
  ∀ s w i, Slice0.Issues s w i → (Slice0.stwOf s w).take = none →
    i.mn ∈ [SMn.syncRd, .syncAdd, .syncSet, .syncWge, .barArv, .barWait, .barArw] →
    let ch := w.c.ch.val
    let c := w.c.cl.val
    let x := Slice0.stwOf s w
    let t := Slice0.issued s w i
    let u := Slice0.iss s w i
    let o := Slice0.syncOp i.mn (x.get i.rb)
    (tgaSpace (x.get i.ra) = 2 → syncCode t ch (stwFn t ch c w.w) (x.get i.ra) = 0 →
      (o.2.2 = true → exec (Slice0.stwCommand i.mn w) s =
        .next (stwFinish (issueReq t ch (syncReq t u (.posted (stwNo c w.w)) o.1 o.2.1)) ch c w.w 0 0)) ∧
      (o.2.2 = false → (i.mn = .barArw → x.arvDone = false) →
        ∃ v, exec (Slice0.stwCommand i.mn w) s = .next v ∧
          v.chans = (issueReq t ch (syncReq t u (.sync (stwNo c w.w)) o.1 o.2.1)).chans ∧
          (Slice0.stwOf v w).st = wStalled ∧ (Slice0.stwOf v w).pc = x.pc ∧
          (∀ r, Slice0.xreg v w r = Slice0.xreg s w r) ∧ v.mem = s.mem) ∧
      (i.mn = .barArw → x.arvDone = true → ∃ v, exec (.sBarArw w) s = .next v ∧
        v.chans = (issueReq t ch (syncReq t u (.sync (stwNo c w.w)) .wait 0)).chans ∧
        (Slice0.stwOf v w).st = wStalled ∧ (Slice0.stwOf v w).arvDone = false ∧ v.mem = s.mem)) ∧
    (tgaSpace (x.get i.ra) ≠ 2 → x.intrap = false → ∃ v, exec (Slice0.stwCommand i.mn w) s = .next v ∧
      Slice0.Trapped s v w x.pc 0x04 0x00 (x.get i.ra))

/-- The Seal instructions with a Seal unit in service, under no take (R135, R314, R317, R328): SEAL.CONVOY and SEAL.CTX take the
lowest free entry of the submission queue, SEAL.CONVOY answering its ticket; SEAL.WAIT and SEAL.POLL of a complete convoy
answer its code and free the entry, and before that stall and answer 0x100; SEAL.HDR is a global load of 8 bytes. Commands:
sSealConvoy, sSealCtx, sSealWait, sSealPoll, sSealHdr. -/
def Obligations.StewardSealInstructions : Prop :=
  ∀ s w i, Slice0.Issues s w i → (Slice0.stwOf s w).take = none →
    let ch := w.c.ch.val
    let c := w.c.cl.val
    let x := Slice0.stwOf s w
    let t := Slice0.issued s w i
    let u := Slice0.iss s w i
    let a := x.get i.ra
    t.fbit Fld.CH_CAPS_SEAL_LIVE ch = true →
    (∀ n, sealFree s ch = some n → i.mn = .sealConvoy → accessLeft s ch (stwNo c w.w) = false →
      exec (.sSealConvoy w) s = .next (stwFinish (sealSubmit t u n none (collectAt t ch a)) ch c w.w i.rd
        (n + (s.seal ch).subs % 2 ^ 16 * 2 ^ 16))) ∧
    (∀ n, sealFree s ch = some n → i.mn = .sealCtx →
      exec (.sSealCtx w) s = .next (stwFinish (sealSubmit t u n (some (i.imm.toNat % 16)) false) ch c w.w 0 0)) ∧
    (∀ e, sealHeld t u = some e → e.done = true → i.mn = .sealWait ∨ i.mn = .sealPoll →
      exec (Slice0.stwCommand i.mn w) s =
        .next (stwFinish (t.setSeal ch fun y => { y with ents := SMap.erase y.ents (a % 16) }) ch c w.w i.rd e.code)) ∧
    (∀ e, sealHeld t u = some e → e.done = false →
      (i.mn = .sealWait → exec (.sSealWait w) s = .next (stwStall t ch c w.w .seal)) ∧
      (i.mn = .sealPoll → exec (.sSealPoll w) s = .next (stwFinish t ch c w.w i.rd 0x100))) ∧
    (i.mn = .sealHdr → a % 8 = 0 → accessCode t ch (stwFn t ch c w.w) false a 8 = 0 → ownCtl t ch a = false →
      exec (.sSealHdr w) s = .next (stwStall (issueReq t ch
        { ret := .load (stwNo c w.w) i.rd, fn := stwFn t ch c w.w, epoch := epochOf t ch, cl := c, tga := a,
          op := .read 8, cls := if isOwn t ch a then 0 else 2, place := .table }) ch c w.w .load))

/-- The take instructions (R133, R275, R277): TAKE.OPEN opens the lowest slot that is closed and in no take register, or
answers 4; TAKE.ENTER and TAKE.LEAVE write the take register; TAKE.STAT answers the open slots and those with a deferred
exception; TAKE.COMMIT and TAKE.SQUASH of a closed slot answer 1, and of an open one, with no other action in progress,
leave the slot and begin the action; TAKE_ACTION_RESUME lets a waiting commit go on. The predictor's instructions (R289):
PRED.Q answers the experts of the entry that matches, or 0xFFFF four times; PRED.U trains the table. Commands: sTakeOpen,
sTakeEnter, sTakeLeave, sTakeStat, sTakeCommit, sTakeSquash, takeActionResume, sPredQ, sPredU. -/
def Obligations.StewardTakeInstructions : Prop :=
  ∀ s (w : StwId),
    let ch := w.c.ch.val
    let c := w.c.cl.val
    let x := Slice0.stwOf s w
    (∀ i, Slice0.Issues s w i →
      let t := Slice0.issued s w i
      let k := x.get i.ra % 4
      let left := leaveSlot ((stwStall t ch c w.w .take).setClu ch c fun y => { y with actq := [] }) ch c w.w k
      (∀ n, i.mn = .takeOpen → x.take = none → n < 4 → takeOpen s ch c n = false → slotNamed s ch c n = false →
        (∀ m, m < n → takeOpen s ch c m = true ∨ slotNamed s ch c m = true) → ∃ u, exec (.sTakeOpen w) s = .next u ∧
          Slice0.Retired s u w i.rd (BitVec.ofNat 64 n) (Slice0.after s w i) ∧ takeOpen u ch c n = true ∧
          (∀ m, m ≠ n → takeSlot u ch c m = takeSlot s ch c m) ∧ u.mem = s.mem) ∧
      (i.mn = .takeOpen → x.take = none → (∀ m, m < 4 → takeOpen s ch c m = true ∨ slotNamed s ch c m = true) →
        ∃ u, exec (.sTakeOpen w) s = .next u ∧ Slice0.Retired s u w i.rd 4 (Slice0.after s w i) ∧ Slice0.RegsOnly s u w) ∧
      (i.mn = .takeEnter → x.take = none → ∃ u, exec (.sTakeEnter w) s = .next u ∧
        (Slice0.stwOf u w).take.map Fin.val = some k ∧ (Slice0.stwOf u w).pc = Slice0.after s w i ∧
        (∀ r, Slice0.xreg u w r = Slice0.xreg s w r) ∧ Slice0.RegsOnly s u w) ∧
      (i.mn = .takeLeave → ∃ u, exec (.sTakeLeave w) s = .next u ∧
        (Slice0.stwOf u w).take = none ∧ (Slice0.stwOf u w).pc = Slice0.after s w i ∧
        (∀ r, Slice0.xreg u w r = Slice0.xreg s w r) ∧ Slice0.RegsOnly s u w) ∧
      (i.mn = .takeStat → ∃ u, exec (.sTakeStat w) s = .next u ∧ Slice0.RegsOnly s u w ∧
        (i.rd ≠ 0 → ∀ m, m < 4 → (Slice0.xreg u w i.rd).getLsbD m = takeOpen s ch c m ∧
          (Slice0.xreg u w i.rd).getLsbD (m + 4) = (takeSlot s ch c m).rec?.isSome) ∧
        (∀ r, r ≠ i.rd → Slice0.xreg u w r = Slice0.xreg s w r) ∧ (Slice0.stwOf u w).pc = Slice0.after s w i) ∧
      (i.mn = .takeCommit ∨ i.mn = .takeSquash → takeOpen s ch c k = false → (s.clu ch c).act = none →
        (s.clu ch c).actq = [] → ∃ u,
        exec (Slice0.stwCommand i.mn w) s = .next u ∧
        Slice0.Retired s u w i.rd 1 (Slice0.after s w i) ∧ Slice0.RegsOnly s u w) ∧
      (i.mn = .takeSquash → takeOpen s ch c k = true → (s.clu ch c).act = none → (s.clu ch c).actq = [] →
        exec (.sTakeSquash w) s =
          .next (stwFinish (squashSlot left ch c (Fin.ofNat 4 k)) ch c w.w i.rd 0)) ∧
      (i.mn = .takeCommit → takeOpen s ch c k = true → (s.clu ch c).act = none → (s.clu ch c).actq = [] →
        exec (.sTakeCommit w) s =
          .next (commitBegin left ch c
            { w := w.w, slot := k, commit := true, rd := i.rd }))) ∧
    (∀ a, clocked s ch c = true → (s.clu ch c).act = some a → (s.clu ch c).pen.all (fun p => decide (p.1.val ≠ a.slot)) = true →
      (s.clu ch c).actq = [] → (takeSlot s ch c (Fin.ofNat 4 a.slot)).rec? = none →
      exec (.takeActionResume w.c) s = .next (commitEnd s ch c a)) ∧
    (∀ a, clocked s ch c = true → (s.clu ch c).act = none → (s.clu ch c).actq = [a] → takeOpen s ch c a.slot = true →
      a.commit = false → exec (.takeActionResume w.c) s = .next (takeNext 1 (stwFinish
        (squashSlot (leaveSlot (s.setClu ch c fun k =>
          { k with actq := [] }) ch c a.w a.slot) ch c (Fin.ofNat 4 a.slot)) ch c a.w a.rd 0) ch c)) ∧
    (∀ i, Slice0.Issues s w i →
      let t := Slice0.issued s w i
      let f := (clFn t ch c).getD 0
      let a := x.get i.ra
      (∀ e, i.mn = .predQ → t.fbit Fld.CH_PREDCTRL_EN ch = true → predHit t ch f a = some e →
        ∃ u, exec (.sPredQ w) s = .next u ∧
          Slice0.Retired s u w i.rd (BitVec.ofNat 64 (packExperts (predExperts e))) (Slice0.after s w i) ∧
            Slice0.RegsOnly s u w) ∧
      (i.mn = .predQ → (t.fbit Fld.CH_PREDCTRL_EN ch = false ∨ predHit t ch f a = none) → ∃ u, exec (.sPredQ w) s = .next u ∧
        Slice0.Retired s u w i.rd 0xFFFFFFFFFFFFFFFF#64 (Slice0.after s w i) ∧ Slice0.RegsOnly s u w) ∧
      (i.mn = .predU → x.take = none → exec (.sPredU w) s =
        .next (stwFinish (predUpdate t ch f a (x.get i.rb)) ch c w.w 0 0)))

/-- A store of the steward into the code it runs is not seen by its fetches before FENCE.I, and is seen after (R136). No poisoned
byte lies in memory; an STL that traps does so with no trap open, as a trap inside a trap ends the section. -/
def Obligations.OwnCodeStores : Prop :=
  ∀ s w i u, Slice0.Issues s w i → i.mn = .stl → s.psn = [] → (Slice0.stwOf s w).take = none →
    (Slice0.stwOf s w).intrap = false →
    exec (.sStl w) s = .next u → ∀ p,
      stwFetch u w.c.ch w.c.cl { Slice0.stwOf u w with pc := p } = stwFetch s w.c.ch w.c.cl { Slice0.stwOf s w with pc := p } ∧
      (p + 6 ≤ 3670016 → stwFetch u w.c.ch w.c.cl { Slice0.stwOf u w with pc := p, oldCode := [] } =
        .inr (sDecode (dNat (u.readMem (depotAt w.c.ch w.c.cl p) 6))))

/-- A write to `s0` is discarded, and the instruction performs its other effects (R122): with `RD` `s0`, the integer
instructions and LDL leave every scalar register as it was and go on, LDG makes its request, QRCV consumes the message, and a
misaligned LDL traps. -/
def Obligations.StewardZeroRegister : Prop :=
  ∀ s w i, Slice0.Issues s w i → i.rd = 0 → (Slice0.stwOf s w).take = none →
    let ch := w.c.ch.val
    let c := w.c.cl.val
    let x := Slice0.stwOf s w
    let t := Slice0.issued s w i
    let a := ((Slice0.xreg s w i.ra).setWidth 22 + BitVec.ofInt 22 i.imm).toNat
    let g := (Slice0.xreg s w i.ra + BitVec.ofInt 64 i.imm).toNat
    let la := x.get i.rb % 2 ^ 22
    let q := i.fn % 16
    (i.mn ∈ [SMn.alu, .addi, .andi, .ori, .xori, .shi, .slti, .li, .lih] → ∃ u, exec (Slice0.stwCommand i.mn w) s = .next u ∧
      (∀ r, Slice0.xreg u w r = Slice0.xreg s w r) ∧ (Slice0.stwOf u w).pc = Slice0.after s w i) ∧
    (i.mn = .ldl → a % i.width = 0 → a + i.width ≤ 3670016 → ownStoreDue t (Slice0.iss s w i) a i.width = false →
      depotCopies t ch c a i.width = false → anyPsn (s.readMem (depotAt ch c a) i.width) = false →
        ∃ u, exec (.sLdl w) s = .next u ∧
      (∀ r, Slice0.xreg u w r = Slice0.xreg s w r) ∧ (Slice0.stwOf u w).pc = Slice0.after s w i) ∧
    (i.mn = .ldl → a % i.width ≠ 0 → x.intrap = false → ∃ u, exec (.sLdl w) s = .next u ∧
      Slice0.Trapped s u w x.pc 0x03 0x00 a) ∧
    (i.mn = .ldg → g % i.width = 0 → accessCode t ch (stwFn t ch c w.w) false g i.width = 0 → ownCtl t ch g = false →
      ∃ u, exec (.sLdg w) s = .next u ∧ (u.chan ch).reqs.length = (s.chan ch).reqs.length + 1) ∧
    (∀ e l, i.mn = .qrcv → la % 8 = 0 → qMode t ch c q = qRecv → qPsn t ch c q = false → queue s ch c q = e :: l →
      (Slice0.iss s w i).storing t = false → depotCopies t ch c la e.body.length = false → la + e.body.length ≤ 3670016 →
        qrcvBehind t (Slice0.iss s w i) q = false → gateWr t ch c = true →
      ownStoreDue t (Slice0.iss s w i) la e.body.length = false → guardAct t (depotAt ch c la) e.body.length = 0 →
      ∃ u, exec (.sQrcv w) s = .next u ∧ queue u ch c q = l ∧ ∀ r, Slice0.xreg u w r = Slice0.xreg s w r)

/-- Deferral against slot `k` (R134): the instruction has no effect but 0 in `RD`, the next one follows, and the first deferred
exception of an open slot is recorded. -/
def Slice0.Deferred (s u : State) (w : StwId) (i : SIns) (k : Fin 4) (rd kind code : Nat) : Prop :=
  Slice0.Retired s u w rd 0 (Slice0.after s w i) ∧ u.mem = s.mem ∧ u.chans = s.chans ∧ u.tiles = s.tiles ∧
  (takeSlot u w.c.ch w.c.cl k).rec? =
    (if takeOpen s w.c.ch w.c.cl k = true ∧ (takeSlot s w.c.ch w.c.cl k).rec? = none
     then some { code := code, kind := kind, pc := (Slice0.stwOf s w).pc } else (takeSlot s w.c.ch w.c.cl k).rec?)

/-- Under a take an instruction that may not run ahead, and an exception, are deferred (R134, Table 6-11): HALT, QRCV, the sync
instructions, TAKE.OPEN, TAKE.ENTER, PRED.U and RETT of supervisor code with TAKE_DEFERRED_EXCEPTION; SYSC; a misaligned LDL; a
DLY.WAIT or DLY.POLL whose ticket names nothing. -/
def Obligations.ExceptionsAreDeferred : Prop :=
  ∀ s w i (k : Fin 4), Slice0.Issues s w i → (Slice0.stwOf s w).take = some k →
    let x := Slice0.stwOf s w
    let a := ((Slice0.xreg s w i.ra).setWidth 22 + BitVec.ofInt 22 i.imm).toNat
    (i.mn ∈ [SMn.halt, .syncAdd, .syncSet, .barArv, .barWait, .barArw, .takeEnter, .predU] ∨ (i.mn = .rett ∧ x.prv = true) →
      ∃ u, exec (Slice0.stwCommand i.mn w) s = .next u ∧ Slice0.Deferred s u w i k 0 0x06 0x21) ∧
    (i.mn ∈ [SMn.qrcv, .syncRd, .syncWge, .takeOpen] →
      ∃ u, exec (Slice0.stwCommand i.mn w) s = .next u ∧ Slice0.Deferred s u w i k i.rd 0x06 0x21) ∧
    (i.mn = .sysc → ∃ u, exec (.sSysc w) s = .next u ∧ Slice0.Deferred s u w i k 0 0x05 0x00) ∧
    (i.mn = .ldl → a % i.width ≠ 0 → ∃ u, exec (.sLdl w) s = .next u ∧ Slice0.Deferred s u w i k i.rd 0x03 0x00) ∧
    (i.mn = .dlyWait ∨ i.mn = .dlyPoll → ticketSlot s w.c.ch w.c.cl (x.get i.ra) = none →
      ∃ u, exec (Slice0.stwCommand i.mn w) s = .next u ∧ Slice0.Deferred s u w i k i.rd 0x08 0x00)

/-! ### Writers of control registers -/

/-- `CH_PWRCFG` of a channel in service takes the writes that reach it from the hub, PF0 and channel supervisor code only; others are
discarded (R465). -/
def Obligations.PowerConfigWriters : Prop :=
  ∀ s (ch : Ch) (v : Word),
    (∀ r, Slice0.Open s r (.ch ch) → (r = .hub ∨ (∃ f : FnId, r = .fn f ∧ f.val = 0) ∨ (∃ w : StwId, r = .stw w ∧
      (Slice0.stwOf s w).prv = true)) →
      ∃ u, exec (.chPwrcfgWrite r ch v) s = .next u ∧ u.fget Fld.CH_PWRCFG_LEND ch = v.toNat % 2) ∧
    (∀ r, Slice0.Open s r (.ch ch) → ((∃ f : FnId, r = .fn f ∧ f.val ≠ 0) ∨ (∃ w : StwId, r = .stw w ∧
      (Slice0.stwOf s w).prv = false)) →
      exec (.chPwrcfgWrite r ch v) s = .next (dropHalf s r))

/-- A write of 1 to `CH_NFCTRL.ABORT` sets `FORCE`, so the next sample is 1; a write of 1 to `CH_NFCTRL.ARM` sets the guard to
PENDING at once; neither has another effect, and each may be repeated (R298). -/
def Obligations.MonitorControlWrites : Prop :=
  ∀ s r (ch : Ch), Slice0.Open s r (.ch ch) → maySup (dropHalf s r) r = true →
    let t := (dropHalf s r).fset Fld.CH_NFSTAT_FORCE ch 0 1
    let u := (dropHalf s r).fset Fld.CH_NFSTAT_GUARD ch 0 1
    exec (.chNfctrlAbort r ch) s = .next t ∧ ((nfSample t ch).mon ch).sample = some true ∧
    exec (.chNfctrlAbort r ch) t = .next t ∧
    exec (.chNfctrlArm r ch) s = .next u ∧ u.fget Fld.CH_NFSTAT_GUARD ch = 1 ∧ exec (.chNfctrlArm r ch) u = .next u

/-! ### The block as a whole -/

/-- A step performs the command at the front of the queue on the rest of the state. The queue is the model's own (log entry 3). -/
def Obligations.StepPerformsFront : Prop :=
  ∀ (c : Instr) (q : List Instr) (s : State), step { s with pending := c :: q } = exec c { s with pending := q }

/-- Every command is answered with a next state, in every state: a command that the spec refuses, records or ignores is so by
its effect, and none stops the block. That an event whose condition does not hold has no effect is the model's choice (log
entry 7). -/
def Obligations.EveryCommandAnswers : Prop :=
  ∀ c s, ∃ t, exec c s = .next t

/-- A step takes one command from the front of the queue and leaves the others in their order. -/
def Obligations.StepTakesOneCommand : Prop :=
  ∀ s t c q, s.pending = c :: q → step s = .next t → t.pending = q

/-- After reset nothing waits, memory lists nothing and reads 0, no steward, tile or unit has left its reset state, and these
registers read their reset values (R5 and the register tables). The part, the 0 of state whose reset the spec does not give and
the 0 of HBM are the model's choices (log entries 1, 4 and 20). -/
def Obligations.ResetValues : Prop :=
  let s := State.reset
  s.pending = [] ∧ (∀ a, s.byteAt a = 0) ∧ s.psn = [] ∧ s.hub.phase = .rom ∧
  (∀ ch c w, s.stw ch c w = {}) ∧ (∀ ch c t, s.tl ch c t = {}) ∧ (∀ ch c q, queue s ch c q = []) ∧
    (∀ ch, (s.chan ch).reqs = []) ∧
  s.fget Fld.HUB_OPMODE_MODE 0 = 0 ∧ s.fget Fld.HUB_MGMTCFG_ADDR 0 = 0x4C ∧ s.fget Fld.HUB_PWRBUDGET_RESERVE 0 = 30 ∧
  (∀ ch : Ch, s.fget Fld.CH_TTCFG_CL_MAX ch = 256 ∧ s.fget Fld.CH_PWRCFG_LEND ch = 1 ∧ s.fget Fld.CH_LSCALE_EXP ch = 127 ∧
    s.regN .CH_BWSPLIT ch = 40 + 16 * 2 ^ 8 + 8 * 2 ^ 16 ∧ s.regN .CH_LDORDER ch = 228 + 228 * 2 ^ 16) ∧
  (∀ (ch : Ch) c w, c < 96 → w < 2 → s.fget Fld.CL_STWn_CTRL_HALT (clLoc ch c) w = 0)

/-- Memory lists nothing after reset, which is its canonical form. That HBM reads 0 then is the model's choice (log entry 20). -/
def Obligations.ResetMemoryCanonical : Prop := Memory.wf State.reset.mem = true

/-- Every step keeps memory in canonical form: addresses strictly rising, no byte listed that equals what an unlisted address
reads as. -/
def Obligations.StepKeepsMemoryCanonical : Prop :=
  ∀ s t, Memory.wf s.mem = true → step s = .next t → Memory.wf t.mem = true

/-- The commands that may write, clear or restore bytes of a depot or of HBM, at once or through a section's or take's end. -/
def Slice0.mayStore : Instr → Bool
  | .agree _ | .apertureRead _ _ _ _ | .apertureWrite _ _ _ _ _ | .chLdctrlClear _ _ | .chLdctrlStart _ _ | .chLdctrlUnload _ _
  | .chSyncctrlPoison _ _ | .channelDisable _ _ | .clQctrlPoison _ _ _ | .cmdClear _ _ | .cmdLoad _ _ | .cmdStart _ _
  | .cmdUnload _ _ | .collectiveSubmit _ | .copyOut _ _ | .ctBar _ _ | .ctFlowctrlClose _ _ | .ctNotice _ _ | .ctOpen _ _
  | .ctQmsg _ _ | .ctRdata _ _ | .ctRead _ _ | .ctResp _ _ | .ctRtoExpiry _ _ _ | .ctSync _ _ | .ctWrite _ _ | .dbgmem _ _ _
  | .dbgregWr _ _ _ | .depotBankGrant _ _ | .depotInterfaceFlit _ _ | .descriptorComplete _ _ | .disableScrubDone _ _
  | .dollyDataReturn _ _ | .dollyRequestIssue _ _ | .egressToken _ _ | .faultEvent _ | .fdlCmpl _ | .fdlQmsg _ | .fdlRdata _
  | .fdlReg _ | .fdlStageTimeout _ | .fdlSync _ | .fenceTimeout _ | .firmwareBringup | .flitReceive _ _ | .flitRoute _
  | .flrDrainTimeout _ _ | .gatewayMeshHop _ _ | .globalLoadReturn _ | .handlerDispatch _ | .heartbeatTimeout _
  | .hostReadCompletion _ _ _ | .illegalInstruction _ | .loadCheckDone _ | .loadFetchDone _ | .loadWriteDone _
  | .messageEnqueueAfterWait _ _ | .mrd _ | .mwr _ | .pllRelockTimeout _ | .preloadDone _ | .pwrgdLowAccept _
  | .queueArrival _ _ | .regWrite _ _ _ | .registerWrite _ _ _ _ | .remoteWaitRetry _ | .retirementNotice _ _
  | .retrainTimeout _ | .returnedScrubDone | .sAddi _ | .sAlu _ | .sAndi _ | .sBarArv _ | .sBarArw _ | .sBarWait _ | .sBeq _
  | .sBge _ | .sBgeu _ | .sBlt _ | .sBltu _ | .sBne _ | .sCsr _ | .sDlyIssue _ | .sDlyPoll _ | .sDlyWait _ | .sFenceG _
  | .sFenceI _ | .sFenceL _ | .sHalt _ | .sHret _ | .sJal _ | .sJalr _ | .sLdg _ | .sLdl _ | .sLi _ | .sLih _ | .sOri _
  | .sPredQ _ | .sPredU _ | .sQrcv _ | .sQsnd _ | .sRett _ | .sSealConvoy _ | .sSealCtx _ | .sSealHdr _ | .sSealPoll _
  | .sSealWait _ | .sShi _ | .sSlti _ | .sStg _ | .sStl _ | .sSyncAdd _ | .sSyncRd _ | .sSyncSet _ | .sSyncWge _ | .sSysc _
  | .sTakeCommit _ | .sTakeEnter _ | .sTakeLeave _ | .sTakeOpen _ | .sTakeSquash _ | .sTakeStat _ | .sXori _
  | .sealConvoyComplete _ | .sidingEngineCycle _ | .signal _ _ | .stackSlotGrant _ _ | .startupStepComplete _
  | .startupStepIssue _ | .startupStepTimeout _ | .syncInNotice _ | .syncOperation _ _ | .syncwait _ _ | .takeActionResume _
  | .tileReservedEncoding _ | .ttEntryAssign _ | .unloadDone _ | .waitRegistration _ _ | .warmReset => true
  | _ => false

/-- Every other command leaves every byte of memory as it was. -/
def Obligations.OtherCommandsKeepMemory : Prop :=
  ∀ c s t, Slice0.mayStore c = false → exec c s = .next t → ∀ a, t.byteAt a = s.byteAt a
end

