-- ==== Sys2Proof/Laws/Tables.lean ====
section
/-! SUPPORT. The laws of sparse tables: what a read finds after a write, and that writes keep the canonical form. -/

namespace Sys2Proof.SMap

variable {α : Type}

/-- A write is found under its key. -/
@[simp] theorem get?_put_same (m : SMap α) (a : Nat) (x : α) : get? (put m a x) a = some x := by
  induction m with
  | nil => simp [put, get?]
  | cons h r ih =>
    obtain ⟨k, v⟩ := h
    simp only [put]
    split
    · simp [get?]
    · split
      · simp [get?]
      · simp [get?, *]

/-- A write leaves every other key as it was. -/
theorem get?_put_other (m : SMap α) (a b : Nat) (x : α) (h : b ≠ a) : get? (put m a x) b = get? m b := by
  induction m with
  | nil => simp [put, get?, h]
  | cons e r ih =>
    obtain ⟨k, v⟩ := e
    simp only [put]
    split
    · simp [get?, h]
    · split
      · next h1 h2 => subst h2; simp [get?, h]
      · simp only [get?]; split <;> simp_all

/-- An erased key is absent. -/
@[simp] theorem get?_erase_same (m : SMap α) (a : Nat) : get? (erase m a) a = none := by
  induction m with
  | nil => simp [erase, get?]
  | cons e r ih =>
    obtain ⟨k, v⟩ := e
    simp only [erase]
    split
    · exact ih
    · simp [get?, *]

/-- Erasing a key leaves every other key as it was. -/
theorem get?_erase_other (m : SMap α) (a b : Nat) (h : b ≠ a) : get? (erase m a) b = get? m b := by
  induction m with
  | nil => simp [erase]
  | cons e r ih =>
    obtain ⟨k, v⟩ := e
    simp only [erase]
    split
    · next h2 => subst h2; simp [get?, h, ih]
    · simp only [get?]; split <;> simp_all

@[simp] theorem get_put_same (d : α) (m : SMap α) (a : Nat) (x : α) : get d (put m a x) a = x := by simp [get]

theorem get_put_other (d : α) (m : SMap α) (a b : Nat) (x : α) (h : b ≠ a) : get d (put m a x) b = get d m b := by
  simp [get, get?_put_other m a b x h]

@[simp] theorem get_set_same [DecidableEq α] (d : α) (m : SMap α) (a : Nat) (x : α) : get d (set d m a x) a = x := by
  simp only [set]; split <;> simp_all [get]

theorem get_set_other [DecidableEq α] (d : α) (m : SMap α) (a b : Nat) (x : α) (h : b ≠ a) :
    get d (set d m a x) b = get d m b := by
  simp only [set]; split
  · simp [get, get?_erase_other m a b h]
  · exact get_put_other d m a b x h

/-! ### The canonical form -/

/-- A bound below every key. -/
def above (n : Nat) (m : SMap α) : Prop := ∀ c ∈ m, n < c.1

theorem sorted_cons (k : Nat) (v : α) (m : SMap α) : sorted ((k, v) :: m) = true ↔ (above k m ∧ sorted m = true) := by
  induction m generalizing k v with
  | nil => simp [sorted, above]
  | cons e r ih =>
    obtain ⟨j, u⟩ := e
    rw [sorted]
    simp only [Bool.and_eq_true, decide_eq_true_eq]
    constructor
    · rintro ⟨h1, h2⟩
      refine ⟨?_, h2⟩
      intro c hc
      rcases List.mem_cons.1 hc with rfl | hc
      · exact h1
      · exact lt_trans h1 (((ih j u).1 h2).1 c hc)
    · rintro ⟨h1, h2⟩
      exact ⟨h1 _ List.mem_cons_self, h2⟩

theorem above_put (n : Nat) (m : SMap α) (a : Nat) (x : α) (h : above n m) (ha : n < a) : above n (put m a x) := by
  induction m with
  | nil => intro c hc; simp [put] at hc; subst hc; exact ha
  | cons e r ih =>
    obtain ⟨k, v⟩ := e
    intro c hc
    simp only [put] at hc
    have hr : above n r := fun c hc => h c (List.mem_cons_of_mem _ hc)
    have hk : n < k := h (k, v) List.mem_cons_self
    split at hc
    · rcases List.mem_cons.1 hc with rfl | hc
      · exact ha
      · exact h c hc
    · split at hc
      · rcases List.mem_cons.1 hc with rfl | hc
        · exact ha
        · exact hr c hc
      · rcases List.mem_cons.1 hc with rfl | hc
        · exact hk
        · exact ih hr c hc

theorem sorted_put (m : SMap α) (a : Nat) (x : α) (h : sorted m = true) : sorted (put m a x) = true := by
  induction m with
  | nil => simp [put, sorted]
  | cons e r ih =>
    obtain ⟨k, v⟩ := e
    have hs := (sorted_cons k v r).1 h
    simp only [put]
    split
    · next hlt =>
      rw [sorted_cons]
      refine ⟨?_, h⟩
      intro c hc
      rcases List.mem_cons.1 hc with rfl | hc
      · exact hlt
      · exact lt_trans hlt (hs.1 c hc)
    · split
      · next h1 h2 => subst h2; exact (sorted_cons a x r).2 hs
      · next h1 h2 => exact (sorted_cons k v _).2 ⟨above_put k r a x hs.1 (by omega), ih hs.2⟩

theorem sorted_filter (p : Nat × α → Bool) (m : SMap α) (h : sorted m = true) : sorted (m.filter p) = true := by
  induction m with
  | nil => simp [sorted]
  | cons e r ih =>
    obtain ⟨k, v⟩ := e
    have hs := (sorted_cons k v r).1 h
    simp only [List.filter_cons]
    split
    · exact (sorted_cons k v _).2 ⟨fun c hc => hs.1 c (List.mem_of_mem_filter hc), ih hs.2⟩
    · exact ih hs.2

theorem erase_eq_filter (m : SMap α) (a : Nat) : erase m a = m.filter fun c => decide (c.1 ≠ a) := by
  induction m with
  | nil => simp [erase]
  | cons e r ih =>
    obtain ⟨k, v⟩ := e
    simp only [erase, List.filter_cons, ih]
    by_cases h : a = k
    · simp [h]
    · have : k ≠ a := fun x => h x.symm
      simp [h, this]

theorem mem_put (m : SMap α) (a : Nat) (x : α) : ∀ c ∈ put m a x, c = (a, x) ∨ c ∈ m := by
  induction m with
  | nil => intro c hc; simp [put] at hc; exact .inl hc
  | cons e r ih =>
    obtain ⟨k, v⟩ := e
    intro c hc
    simp only [put] at hc
    split at hc
    · rcases List.mem_cons.1 hc with rfl | hc
      · exact .inl rfl
      · exact .inr hc
    · split at hc
      · rcases List.mem_cons.1 hc with rfl | hc
        · exact .inl rfl
        · exact .inr (List.mem_cons_of_mem _ hc)
      · rcases List.mem_cons.1 hc with rfl | hc
        · exact .inr List.mem_cons_self
        · rcases ih c hc with h | h
          · exact .inl h
          · exact .inr (List.mem_cons_of_mem _ h)

variable [DecidableEq α]

/-- The canonical form read as a proposition. -/
theorem wf_iff (d : α) (m : SMap α) : wf d m = true ↔ (sorted m = true ∧ ∀ c ∈ m, c.2 ≠ d) := by
  simp [wf]

theorem wf_nil (d : α) : wf d ([] : SMap α) = true := by simp [wf, sorted]

/-- Leaving entries out keeps the canonical form. -/
theorem wf_filter (d : α) (p : Nat × α → Bool) (m : SMap α) (h : wf d m = true) : wf d (m.filter p) = true := by
  rw [wf_iff] at h ⊢
  exact ⟨sorted_filter p m h.1, fun c hc => h.2 c (List.mem_of_mem_filter hc)⟩

theorem wf_erase (d : α) (m : SMap α) (a : Nat) (h : wf d m = true) : wf d (erase m a) = true := by
  rw [erase_eq_filter]; exact wf_filter d _ m h

/-- A canonical write keeps the canonical form. -/
theorem wf_set (d : α) (m : SMap α) (a : Nat) (x : α) (h : wf d m = true) : wf d (set d m a x) = true := by
  simp only [set]
  split
  · exact wf_erase d m a h
  · next hx =>
    rw [wf_iff] at h ⊢
    refine ⟨sorted_put m a x h.1, fun c hc => ?_⟩
    rcases mem_put m a x c hc with rfl | hc
    · exact hx
    · exact h.2 c hc

end Sys2Proof.SMap
end

