-- ==== Sys2Proof/Laws/State.lean ====
section
/-! SUPPORT. What each update of the state leaves alone: one lemma per field per update, and the same for the views through
which the meanings read the state. -/

namespace Sys2Proof.Machine

/-! `setReg`. -/

@[simp] theorem setReg_pending (s : State) (r : Reg) (l i v : Nat) : (s.setReg r l i v).pending = s.pending := rfl
@[simp] theorem setReg_part (s : State) (r : Reg) (l i v : Nat) : (s.setReg r l i v).part = s.part := rfl
@[simp] theorem setReg_half (s : State) (r : Reg) (l i v : Nat) : (s.setReg r l i v).half = s.half := rfl
@[simp] theorem setReg_mem (s : State) (r : Reg) (l i v : Nat) : (s.setReg r l i v).mem = s.mem := rfl
@[simp] theorem setReg_psn (s : State) (r : Reg) (l i v : Nat) : (s.setReg r l i v).psn = s.psn := rfl
@[simp] theorem setReg_tiles (s : State) (r : Reg) (l i v : Nat) : (s.setReg r l i v).tiles = s.tiles := rfl
@[simp] theorem setReg_cls (s : State) (r : Reg) (l i v : Nat) : (s.setReg r l i v).cls = s.cls := rfl
@[simp] theorem setReg_chans (s : State) (r : Reg) (l i v : Nat) : (s.setReg r l i v).chans = s.chans := rfl
@[simp] theorem setReg_rpts (s : State) (r : Reg) (l i v : Nat) : (s.setReg r l i v).rpts = s.rpts := rfl
@[simp] theorem setReg_rptHub (s : State) (r : Reg) (l i v : Nat) : (s.setReg r l i v).rptHub = s.rptHub := rfl
@[simp] theorem setReg_rptHubEp (s : State) (r : Reg) (l i v : Nat) : (s.setReg r l i v).rptHubEp = s.rptHubEp := rfl
@[simp] theorem setReg_loads (s : State) (r : Reg) (l i v : Nat) : (s.setReg r l i v).loads = s.loads := rfl
@[simp] theorem setReg_mons (s : State) (r : Reg) (l i v : Nat) : (s.setReg r l i v).mons = s.mons := rfl
@[simp] theorem setReg_seals (s : State) (r : Reg) (l i v : Nat) : (s.setReg r l i v).seals = s.seals := rfl
@[simp] theorem setReg_port (s : State) (r : Reg) (l i v : Nat) : (s.setReg r l i v).port = s.port := rfl
@[simp] theorem setReg_links (s : State) (r : Reg) (l i v : Nat) : (s.setReg r l i v).links = s.links := rfl
@[simp] theorem setReg_cts (s : State) (r : Reg) (l i v : Nat) : (s.setReg r l i v).cts = s.cts := rfl
@[simp] theorem setReg_dists (s : State) (r : Reg) (l i v : Nat) : (s.setReg r l i v).dists = s.dists := rfl
@[simp] theorem setReg_fcs (s : State) (r : Reg) (l i v : Nat) : (s.setReg r l i v).fcs = s.fcs := rfl
@[simp] theorem setReg_dailies (s : State) (r : Reg) (l i v : Nat) : (s.setReg r l i v).dailies = s.dailies := rfl
@[simp] theorem setReg_nv (s : State) (r : Reg) (l i v : Nat) : (s.setReg r l i v).nv = s.nv := rfl
@[simp] theorem setReg_mgmt (s : State) (r : Reg) (l i v : Nat) : (s.setReg r l i v).mgmt = s.mgmt := rfl
@[simp] theorem setReg_hub (s : State) (r : Reg) (l i v : Nat) : (s.setReg r l i v).hub = s.hub := rfl
@[simp] theorem setReg_lostLanes (s : State) (r : Reg) (l i v : Nat) : (s.setReg r l i v).lostLanes = s.lostLanes := rfl
@[simp] theorem setReg_absentLanes (s : State) (r : Reg) (l i v : Nat) : (s.setReg r l i v).absentLanes = s.absentLanes := rfl
@[simp] theorem setReg_goneports (s : State) (r : Reg) (l i v : Nat) : (s.setReg r l i v).goneports = s.goneports := rfl
@[simp] theorem setReg_laid (s : State) (r : Reg) (l i v : Nat) : (s.setReg r l i v).laid = s.laid := rfl
@[simp] theorem setReg_free (s : State) (r : Reg) (l i v : Nat) : (s.setReg r l i v).free = s.free := rfl

/-! `fset`. -/

@[simp] theorem fset_pending (s : State) (f : Fld) (l i v : Nat) : (s.fset f l i v).pending = s.pending := rfl
@[simp] theorem fset_part (s : State) (f : Fld) (l i v : Nat) : (s.fset f l i v).part = s.part := rfl
@[simp] theorem fset_half (s : State) (f : Fld) (l i v : Nat) : (s.fset f l i v).half = s.half := rfl
@[simp] theorem fset_mem (s : State) (f : Fld) (l i v : Nat) : (s.fset f l i v).mem = s.mem := rfl
@[simp] theorem fset_psn (s : State) (f : Fld) (l i v : Nat) : (s.fset f l i v).psn = s.psn := rfl
@[simp] theorem fset_tiles (s : State) (f : Fld) (l i v : Nat) : (s.fset f l i v).tiles = s.tiles := rfl
@[simp] theorem fset_cls (s : State) (f : Fld) (l i v : Nat) : (s.fset f l i v).cls = s.cls := rfl
@[simp] theorem fset_chans (s : State) (f : Fld) (l i v : Nat) : (s.fset f l i v).chans = s.chans := rfl
@[simp] theorem fset_rpts (s : State) (f : Fld) (l i v : Nat) : (s.fset f l i v).rpts = s.rpts := rfl
@[simp] theorem fset_rptHub (s : State) (f : Fld) (l i v : Nat) : (s.fset f l i v).rptHub = s.rptHub := rfl
@[simp] theorem fset_rptHubEp (s : State) (f : Fld) (l i v : Nat) : (s.fset f l i v).rptHubEp = s.rptHubEp := rfl
@[simp] theorem fset_loads (s : State) (f : Fld) (l i v : Nat) : (s.fset f l i v).loads = s.loads := rfl
@[simp] theorem fset_mons (s : State) (f : Fld) (l i v : Nat) : (s.fset f l i v).mons = s.mons := rfl
@[simp] theorem fset_seals (s : State) (f : Fld) (l i v : Nat) : (s.fset f l i v).seals = s.seals := rfl
@[simp] theorem fset_port (s : State) (f : Fld) (l i v : Nat) : (s.fset f l i v).port = s.port := rfl
@[simp] theorem fset_links (s : State) (f : Fld) (l i v : Nat) : (s.fset f l i v).links = s.links := rfl
@[simp] theorem fset_cts (s : State) (f : Fld) (l i v : Nat) : (s.fset f l i v).cts = s.cts := rfl
@[simp] theorem fset_dists (s : State) (f : Fld) (l i v : Nat) : (s.fset f l i v).dists = s.dists := rfl
@[simp] theorem fset_fcs (s : State) (f : Fld) (l i v : Nat) : (s.fset f l i v).fcs = s.fcs := rfl
@[simp] theorem fset_dailies (s : State) (f : Fld) (l i v : Nat) : (s.fset f l i v).dailies = s.dailies := rfl
@[simp] theorem fset_nv (s : State) (f : Fld) (l i v : Nat) : (s.fset f l i v).nv = s.nv := rfl
@[simp] theorem fset_mgmt (s : State) (f : Fld) (l i v : Nat) : (s.fset f l i v).mgmt = s.mgmt := rfl
@[simp] theorem fset_hub (s : State) (f : Fld) (l i v : Nat) : (s.fset f l i v).hub = s.hub := rfl
@[simp] theorem fset_lostLanes (s : State) (f : Fld) (l i v : Nat) : (s.fset f l i v).lostLanes = s.lostLanes := rfl
@[simp] theorem fset_absentLanes (s : State) (f : Fld) (l i v : Nat) : (s.fset f l i v).absentLanes = s.absentLanes := rfl
@[simp] theorem fset_goneports (s : State) (f : Fld) (l i v : Nat) : (s.fset f l i v).goneports = s.goneports := rfl
@[simp] theorem fset_laid (s : State) (f : Fld) (l i v : Nat) : (s.fset f l i v).laid = s.laid := rfl
@[simp] theorem fset_free (s : State) (f : Fld) (l i v : Nat) : (s.fset f l i v).free = s.free := rfl

/-! `fadd`. -/

@[simp] theorem fadd_pending (s : State) (f : Fld) (l i v : Nat) : (s.fadd f l i v).pending = s.pending := rfl
@[simp] theorem fadd_part (s : State) (f : Fld) (l i v : Nat) : (s.fadd f l i v).part = s.part := rfl
@[simp] theorem fadd_half (s : State) (f : Fld) (l i v : Nat) : (s.fadd f l i v).half = s.half := rfl
@[simp] theorem fadd_mem (s : State) (f : Fld) (l i v : Nat) : (s.fadd f l i v).mem = s.mem := rfl
@[simp] theorem fadd_psn (s : State) (f : Fld) (l i v : Nat) : (s.fadd f l i v).psn = s.psn := rfl
@[simp] theorem fadd_tiles (s : State) (f : Fld) (l i v : Nat) : (s.fadd f l i v).tiles = s.tiles := rfl
@[simp] theorem fadd_cls (s : State) (f : Fld) (l i v : Nat) : (s.fadd f l i v).cls = s.cls := rfl
@[simp] theorem fadd_chans (s : State) (f : Fld) (l i v : Nat) : (s.fadd f l i v).chans = s.chans := rfl
@[simp] theorem fadd_rpts (s : State) (f : Fld) (l i v : Nat) : (s.fadd f l i v).rpts = s.rpts := rfl
@[simp] theorem fadd_rptHub (s : State) (f : Fld) (l i v : Nat) : (s.fadd f l i v).rptHub = s.rptHub := rfl
@[simp] theorem fadd_rptHubEp (s : State) (f : Fld) (l i v : Nat) : (s.fadd f l i v).rptHubEp = s.rptHubEp := rfl
@[simp] theorem fadd_loads (s : State) (f : Fld) (l i v : Nat) : (s.fadd f l i v).loads = s.loads := rfl
@[simp] theorem fadd_mons (s : State) (f : Fld) (l i v : Nat) : (s.fadd f l i v).mons = s.mons := rfl
@[simp] theorem fadd_seals (s : State) (f : Fld) (l i v : Nat) : (s.fadd f l i v).seals = s.seals := rfl
@[simp] theorem fadd_port (s : State) (f : Fld) (l i v : Nat) : (s.fadd f l i v).port = s.port := rfl
@[simp] theorem fadd_links (s : State) (f : Fld) (l i v : Nat) : (s.fadd f l i v).links = s.links := rfl
@[simp] theorem fadd_cts (s : State) (f : Fld) (l i v : Nat) : (s.fadd f l i v).cts = s.cts := rfl
@[simp] theorem fadd_dists (s : State) (f : Fld) (l i v : Nat) : (s.fadd f l i v).dists = s.dists := rfl
@[simp] theorem fadd_fcs (s : State) (f : Fld) (l i v : Nat) : (s.fadd f l i v).fcs = s.fcs := rfl
@[simp] theorem fadd_dailies (s : State) (f : Fld) (l i v : Nat) : (s.fadd f l i v).dailies = s.dailies := rfl
@[simp] theorem fadd_nv (s : State) (f : Fld) (l i v : Nat) : (s.fadd f l i v).nv = s.nv := rfl
@[simp] theorem fadd_mgmt (s : State) (f : Fld) (l i v : Nat) : (s.fadd f l i v).mgmt = s.mgmt := rfl
@[simp] theorem fadd_hub (s : State) (f : Fld) (l i v : Nat) : (s.fadd f l i v).hub = s.hub := rfl
@[simp] theorem fadd_lostLanes (s : State) (f : Fld) (l i v : Nat) : (s.fadd f l i v).lostLanes = s.lostLanes := rfl
@[simp] theorem fadd_absentLanes (s : State) (f : Fld) (l i v : Nat) : (s.fadd f l i v).absentLanes = s.absentLanes := rfl
@[simp] theorem fadd_goneports (s : State) (f : Fld) (l i v : Nat) : (s.fadd f l i v).goneports = s.goneports := rfl
@[simp] theorem fadd_laid (s : State) (f : Fld) (l i v : Nat) : (s.fadd f l i v).laid = s.laid := rfl
@[simp] theorem fadd_free (s : State) (f : Fld) (l i v : Nat) : (s.fadd f l i v).free = s.free := rfl

/-! `finc`. -/

@[simp] theorem finc_pending (s : State) (f : Fld) (l i v : Nat) : (s.finc f l i v).pending = s.pending := rfl
@[simp] theorem finc_part (s : State) (f : Fld) (l i v : Nat) : (s.finc f l i v).part = s.part := rfl
@[simp] theorem finc_half (s : State) (f : Fld) (l i v : Nat) : (s.finc f l i v).half = s.half := rfl
@[simp] theorem finc_mem (s : State) (f : Fld) (l i v : Nat) : (s.finc f l i v).mem = s.mem := rfl
@[simp] theorem finc_psn (s : State) (f : Fld) (l i v : Nat) : (s.finc f l i v).psn = s.psn := rfl
@[simp] theorem finc_tiles (s : State) (f : Fld) (l i v : Nat) : (s.finc f l i v).tiles = s.tiles := rfl
@[simp] theorem finc_cls (s : State) (f : Fld) (l i v : Nat) : (s.finc f l i v).cls = s.cls := rfl
@[simp] theorem finc_chans (s : State) (f : Fld) (l i v : Nat) : (s.finc f l i v).chans = s.chans := rfl
@[simp] theorem finc_rpts (s : State) (f : Fld) (l i v : Nat) : (s.finc f l i v).rpts = s.rpts := rfl
@[simp] theorem finc_rptHub (s : State) (f : Fld) (l i v : Nat) : (s.finc f l i v).rptHub = s.rptHub := rfl
@[simp] theorem finc_rptHubEp (s : State) (f : Fld) (l i v : Nat) : (s.finc f l i v).rptHubEp = s.rptHubEp := rfl
@[simp] theorem finc_loads (s : State) (f : Fld) (l i v : Nat) : (s.finc f l i v).loads = s.loads := rfl
@[simp] theorem finc_mons (s : State) (f : Fld) (l i v : Nat) : (s.finc f l i v).mons = s.mons := rfl
@[simp] theorem finc_seals (s : State) (f : Fld) (l i v : Nat) : (s.finc f l i v).seals = s.seals := rfl
@[simp] theorem finc_port (s : State) (f : Fld) (l i v : Nat) : (s.finc f l i v).port = s.port := rfl
@[simp] theorem finc_links (s : State) (f : Fld) (l i v : Nat) : (s.finc f l i v).links = s.links := rfl
@[simp] theorem finc_cts (s : State) (f : Fld) (l i v : Nat) : (s.finc f l i v).cts = s.cts := rfl
@[simp] theorem finc_dists (s : State) (f : Fld) (l i v : Nat) : (s.finc f l i v).dists = s.dists := rfl
@[simp] theorem finc_fcs (s : State) (f : Fld) (l i v : Nat) : (s.finc f l i v).fcs = s.fcs := rfl
@[simp] theorem finc_dailies (s : State) (f : Fld) (l i v : Nat) : (s.finc f l i v).dailies = s.dailies := rfl
@[simp] theorem finc_nv (s : State) (f : Fld) (l i v : Nat) : (s.finc f l i v).nv = s.nv := rfl
@[simp] theorem finc_mgmt (s : State) (f : Fld) (l i v : Nat) : (s.finc f l i v).mgmt = s.mgmt := rfl
@[simp] theorem finc_hub (s : State) (f : Fld) (l i v : Nat) : (s.finc f l i v).hub = s.hub := rfl
@[simp] theorem finc_lostLanes (s : State) (f : Fld) (l i v : Nat) : (s.finc f l i v).lostLanes = s.lostLanes := rfl
@[simp] theorem finc_absentLanes (s : State) (f : Fld) (l i v : Nat) : (s.finc f l i v).absentLanes = s.absentLanes := rfl
@[simp] theorem finc_goneports (s : State) (f : Fld) (l i v : Nat) : (s.finc f l i v).goneports = s.goneports := rfl
@[simp] theorem finc_laid (s : State) (f : Fld) (l i v : Nat) : (s.finc f l i v).laid = s.laid := rfl
@[simp] theorem finc_free (s : State) (f : Fld) (l i v : Nat) : (s.finc f l i v).free = s.free := rfl

/-! `record`. -/

@[simp] theorem record_pending (s : State) (f g : Fld) (l c : Nat) : (s.record f g l c).pending = s.pending := rfl
@[simp] theorem record_part (s : State) (f g : Fld) (l c : Nat) : (s.record f g l c).part = s.part := rfl
@[simp] theorem record_half (s : State) (f g : Fld) (l c : Nat) : (s.record f g l c).half = s.half := rfl
@[simp] theorem record_mem (s : State) (f g : Fld) (l c : Nat) : (s.record f g l c).mem = s.mem := rfl
@[simp] theorem record_psn (s : State) (f g : Fld) (l c : Nat) : (s.record f g l c).psn = s.psn := rfl
@[simp] theorem record_tiles (s : State) (f g : Fld) (l c : Nat) : (s.record f g l c).tiles = s.tiles := rfl
@[simp] theorem record_cls (s : State) (f g : Fld) (l c : Nat) : (s.record f g l c).cls = s.cls := rfl
@[simp] theorem record_chans (s : State) (f g : Fld) (l c : Nat) : (s.record f g l c).chans = s.chans := rfl
@[simp] theorem record_rpts (s : State) (f g : Fld) (l c : Nat) : (s.record f g l c).rpts = s.rpts := rfl
@[simp] theorem record_rptHub (s : State) (f g : Fld) (l c : Nat) : (s.record f g l c).rptHub = s.rptHub := rfl
@[simp] theorem record_rptHubEp (s : State) (f g : Fld) (l c : Nat) : (s.record f g l c).rptHubEp = s.rptHubEp := rfl
@[simp] theorem record_loads (s : State) (f g : Fld) (l c : Nat) : (s.record f g l c).loads = s.loads := rfl
@[simp] theorem record_mons (s : State) (f g : Fld) (l c : Nat) : (s.record f g l c).mons = s.mons := rfl
@[simp] theorem record_seals (s : State) (f g : Fld) (l c : Nat) : (s.record f g l c).seals = s.seals := rfl
@[simp] theorem record_port (s : State) (f g : Fld) (l c : Nat) : (s.record f g l c).port = s.port := rfl
@[simp] theorem record_links (s : State) (f g : Fld) (l c : Nat) : (s.record f g l c).links = s.links := rfl
@[simp] theorem record_cts (s : State) (f g : Fld) (l c : Nat) : (s.record f g l c).cts = s.cts := rfl
@[simp] theorem record_dists (s : State) (f g : Fld) (l c : Nat) : (s.record f g l c).dists = s.dists := rfl
@[simp] theorem record_fcs (s : State) (f g : Fld) (l c : Nat) : (s.record f g l c).fcs = s.fcs := rfl
@[simp] theorem record_dailies (s : State) (f g : Fld) (l c : Nat) : (s.record f g l c).dailies = s.dailies := rfl
@[simp] theorem record_nv (s : State) (f g : Fld) (l c : Nat) : (s.record f g l c).nv = s.nv := rfl
@[simp] theorem record_mgmt (s : State) (f g : Fld) (l c : Nat) : (s.record f g l c).mgmt = s.mgmt := rfl
@[simp] theorem record_hub (s : State) (f g : Fld) (l c : Nat) : (s.record f g l c).hub = s.hub := rfl
@[simp] theorem record_lostLanes (s : State) (f g : Fld) (l c : Nat) : (s.record f g l c).lostLanes = s.lostLanes := rfl
@[simp] theorem record_absentLanes (s : State) (f g : Fld) (l c : Nat) : (s.record f g l c).absentLanes = s.absentLanes := rfl
@[simp] theorem record_goneports (s : State) (f g : Fld) (l c : Nat) : (s.record f g l c).goneports = s.goneports := rfl
@[simp] theorem record_laid (s : State) (f g : Fld) (l c : Nat) : (s.record f g l c).laid = s.laid := rfl
@[simp] theorem record_free (s : State) (f g : Fld) (l c : Nat) : (s.record f g l c).free = s.free := rfl

/-! `took`. -/

@[simp] theorem took_pending (s : State) : (s.took).pending = s.pending := rfl
@[simp] theorem took_part (s : State) : (s.took).part = s.part := rfl
@[simp] theorem took_regs (s : State) : (s.took).regs = s.regs := rfl
@[simp] theorem took_half (s : State) : (s.took).half = s.half := rfl
@[simp] theorem took_mem (s : State) : (s.took).mem = s.mem := rfl
@[simp] theorem took_psn (s : State) : (s.took).psn = s.psn := rfl
@[simp] theorem took_tiles (s : State) : (s.took).tiles = s.tiles := rfl
@[simp] theorem took_cls (s : State) : (s.took).cls = s.cls := rfl
@[simp] theorem took_chans (s : State) : (s.took).chans = s.chans := rfl
@[simp] theorem took_rpts (s : State) : (s.took).rpts = s.rpts := rfl
@[simp] theorem took_rptHub (s : State) : (s.took).rptHub = s.rptHub := rfl
@[simp] theorem took_rptHubEp (s : State) : (s.took).rptHubEp = s.rptHubEp := rfl
@[simp] theorem took_loads (s : State) : (s.took).loads = s.loads := rfl
@[simp] theorem took_mons (s : State) : (s.took).mons = s.mons := rfl
@[simp] theorem took_seals (s : State) : (s.took).seals = s.seals := rfl
@[simp] theorem took_port (s : State) : (s.took).port = s.port := rfl
@[simp] theorem took_links (s : State) : (s.took).links = s.links := rfl
@[simp] theorem took_cts (s : State) : (s.took).cts = s.cts := rfl
@[simp] theorem took_dists (s : State) : (s.took).dists = s.dists := rfl
@[simp] theorem took_fcs (s : State) : (s.took).fcs = s.fcs := rfl
@[simp] theorem took_dailies (s : State) : (s.took).dailies = s.dailies := rfl
@[simp] theorem took_nv (s : State) : (s.took).nv = s.nv := rfl
@[simp] theorem took_mgmt (s : State) : (s.took).mgmt = s.mgmt := rfl
@[simp] theorem took_hub (s : State) : (s.took).hub = s.hub := rfl
@[simp] theorem took_lostLanes (s : State) : (s.took).lostLanes = s.lostLanes := rfl
@[simp] theorem took_absentLanes (s : State) : (s.took).absentLanes = s.absentLanes := rfl
@[simp] theorem took_goneports (s : State) : (s.took).goneports = s.goneports := rfl
@[simp] theorem took_laid (s : State) : (s.took).laid = s.laid := rfl

/-! `dropHalf`. -/

@[simp] theorem dropHalf_pending (s : State) (r : Requester) : (dropHalf s r).pending = s.pending := rfl
@[simp] theorem dropHalf_part (s : State) (r : Requester) : (dropHalf s r).part = s.part := rfl
@[simp] theorem dropHalf_regs (s : State) (r : Requester) : (dropHalf s r).regs = s.regs := rfl
@[simp] theorem dropHalf_mem (s : State) (r : Requester) : (dropHalf s r).mem = s.mem := rfl
@[simp] theorem dropHalf_psn (s : State) (r : Requester) : (dropHalf s r).psn = s.psn := rfl
@[simp] theorem dropHalf_tiles (s : State) (r : Requester) : (dropHalf s r).tiles = s.tiles := rfl
@[simp] theorem dropHalf_cls (s : State) (r : Requester) : (dropHalf s r).cls = s.cls := rfl
@[simp] theorem dropHalf_chans (s : State) (r : Requester) : (dropHalf s r).chans = s.chans := rfl
@[simp] theorem dropHalf_rpts (s : State) (r : Requester) : (dropHalf s r).rpts = s.rpts := rfl
@[simp] theorem dropHalf_rptHub (s : State) (r : Requester) : (dropHalf s r).rptHub = s.rptHub := rfl
@[simp] theorem dropHalf_rptHubEp (s : State) (r : Requester) : (dropHalf s r).rptHubEp = s.rptHubEp := rfl
@[simp] theorem dropHalf_loads (s : State) (r : Requester) : (dropHalf s r).loads = s.loads := rfl
@[simp] theorem dropHalf_mons (s : State) (r : Requester) : (dropHalf s r).mons = s.mons := rfl
@[simp] theorem dropHalf_seals (s : State) (r : Requester) : (dropHalf s r).seals = s.seals := rfl
@[simp] theorem dropHalf_port (s : State) (r : Requester) : (dropHalf s r).port = s.port := rfl
@[simp] theorem dropHalf_links (s : State) (r : Requester) : (dropHalf s r).links = s.links := rfl
@[simp] theorem dropHalf_cts (s : State) (r : Requester) : (dropHalf s r).cts = s.cts := rfl
@[simp] theorem dropHalf_dists (s : State) (r : Requester) : (dropHalf s r).dists = s.dists := rfl
@[simp] theorem dropHalf_fcs (s : State) (r : Requester) : (dropHalf s r).fcs = s.fcs := rfl
@[simp] theorem dropHalf_dailies (s : State) (r : Requester) : (dropHalf s r).dailies = s.dailies := rfl
@[simp] theorem dropHalf_nv (s : State) (r : Requester) : (dropHalf s r).nv = s.nv := rfl
@[simp] theorem dropHalf_mgmt (s : State) (r : Requester) : (dropHalf s r).mgmt = s.mgmt := rfl
@[simp] theorem dropHalf_hub (s : State) (r : Requester) : (dropHalf s r).hub = s.hub := rfl
@[simp] theorem dropHalf_lostLanes (s : State) (r : Requester) : (dropHalf s r).lostLanes = s.lostLanes := rfl
@[simp] theorem dropHalf_absentLanes (s : State) (r : Requester) : (dropHalf s r).absentLanes = s.absentLanes := rfl
@[simp] theorem dropHalf_goneports (s : State) (r : Requester) : (dropHalf s r).goneports = s.goneports := rfl
@[simp] theorem dropHalf_laid (s : State) (r : Requester) : (dropHalf s r).laid = s.laid := rfl
@[simp] theorem dropHalf_free (s : State) (r : Requester) : (dropHalf s r).free = s.free := rfl

/-! `setClu`. -/

@[simp] theorem setClu_pending (s : State) (ch c : Nat) (f : Cluster → Cluster) : (s.setClu ch c f).pending = s.pending := rfl
@[simp] theorem setClu_part (s : State) (ch c : Nat) (f : Cluster → Cluster) : (s.setClu ch c f).part = s.part := rfl
@[simp] theorem setClu_regs (s : State) (ch c : Nat) (f : Cluster → Cluster) : (s.setClu ch c f).regs = s.regs := rfl
@[simp] theorem setClu_half (s : State) (ch c : Nat) (f : Cluster → Cluster) : (s.setClu ch c f).half = s.half := rfl
@[simp] theorem setClu_mem (s : State) (ch c : Nat) (f : Cluster → Cluster) : (s.setClu ch c f).mem = s.mem := rfl
@[simp] theorem setClu_psn (s : State) (ch c : Nat) (f : Cluster → Cluster) : (s.setClu ch c f).psn = s.psn := rfl
@[simp] theorem setClu_tiles (s : State) (ch c : Nat) (f : Cluster → Cluster) : (s.setClu ch c f).tiles = s.tiles := rfl
@[simp] theorem setClu_chans (s : State) (ch c : Nat) (f : Cluster → Cluster) : (s.setClu ch c f).chans = s.chans := rfl
@[simp] theorem setClu_rpts (s : State) (ch c : Nat) (f : Cluster → Cluster) : (s.setClu ch c f).rpts = s.rpts := rfl
@[simp] theorem setClu_rptHub (s : State) (ch c : Nat) (f : Cluster → Cluster) : (s.setClu ch c f).rptHub = s.rptHub := rfl
@[simp] theorem setClu_rptHubEp (s : State) (ch c : Nat) (f : Cluster → Cluster) : (s.setClu ch c f).rptHubEp = s.rptHubEp := rfl
@[simp] theorem setClu_loads (s : State) (ch c : Nat) (f : Cluster → Cluster) : (s.setClu ch c f).loads = s.loads := rfl
@[simp] theorem setClu_mons (s : State) (ch c : Nat) (f : Cluster → Cluster) : (s.setClu ch c f).mons = s.mons := rfl
@[simp] theorem setClu_seals (s : State) (ch c : Nat) (f : Cluster → Cluster) : (s.setClu ch c f).seals = s.seals := rfl
@[simp] theorem setClu_port (s : State) (ch c : Nat) (f : Cluster → Cluster) : (s.setClu ch c f).port = s.port := rfl
@[simp] theorem setClu_links (s : State) (ch c : Nat) (f : Cluster → Cluster) : (s.setClu ch c f).links = s.links := rfl
@[simp] theorem setClu_cts (s : State) (ch c : Nat) (f : Cluster → Cluster) : (s.setClu ch c f).cts = s.cts := rfl
@[simp] theorem setClu_dists (s : State) (ch c : Nat) (f : Cluster → Cluster) : (s.setClu ch c f).dists = s.dists := rfl
@[simp] theorem setClu_fcs (s : State) (ch c : Nat) (f : Cluster → Cluster) : (s.setClu ch c f).fcs = s.fcs := rfl
@[simp] theorem setClu_dailies (s : State) (ch c : Nat) (f : Cluster → Cluster) : (s.setClu ch c f).dailies = s.dailies := rfl
@[simp] theorem setClu_nv (s : State) (ch c : Nat) (f : Cluster → Cluster) : (s.setClu ch c f).nv = s.nv := rfl
@[simp] theorem setClu_mgmt (s : State) (ch c : Nat) (f : Cluster → Cluster) : (s.setClu ch c f).mgmt = s.mgmt := rfl
@[simp] theorem setClu_hub (s : State) (ch c : Nat) (f : Cluster → Cluster) : (s.setClu ch c f).hub = s.hub := rfl
@[simp] theorem setClu_lostLanes (s : State) (ch c : Nat) (f : Cluster → Cluster) : (s.setClu ch c f).lostLanes = s.lostLanes := rfl
@[simp] theorem setClu_absentLanes (s : State) (ch c : Nat) (f : Cluster → Cluster) : (s.setClu ch c f).absentLanes = s.absentLanes := rfl
@[simp] theorem setClu_goneports (s : State) (ch c : Nat) (f : Cluster → Cluster) : (s.setClu ch c f).goneports = s.goneports := rfl
@[simp] theorem setClu_laid (s : State) (ch c : Nat) (f : Cluster → Cluster) : (s.setClu ch c f).laid = s.laid := rfl
@[simp] theorem setClu_free (s : State) (ch c : Nat) (f : Cluster → Cluster) : (s.setClu ch c f).free = s.free := rfl

/-! `setStw`. -/

@[simp] theorem setStw_pending (s : State) (ch c w : Nat) (f : Stw → Stw) : (setStw s ch c w f).pending = s.pending := rfl
@[simp] theorem setStw_part (s : State) (ch c w : Nat) (f : Stw → Stw) : (setStw s ch c w f).part = s.part := rfl
@[simp] theorem setStw_regs (s : State) (ch c w : Nat) (f : Stw → Stw) : (setStw s ch c w f).regs = s.regs := rfl
@[simp] theorem setStw_half (s : State) (ch c w : Nat) (f : Stw → Stw) : (setStw s ch c w f).half = s.half := rfl
@[simp] theorem setStw_mem (s : State) (ch c w : Nat) (f : Stw → Stw) : (setStw s ch c w f).mem = s.mem := rfl
@[simp] theorem setStw_psn (s : State) (ch c w : Nat) (f : Stw → Stw) : (setStw s ch c w f).psn = s.psn := rfl
@[simp] theorem setStw_tiles (s : State) (ch c w : Nat) (f : Stw → Stw) : (setStw s ch c w f).tiles = s.tiles := rfl
@[simp] theorem setStw_chans (s : State) (ch c w : Nat) (f : Stw → Stw) : (setStw s ch c w f).chans = s.chans := rfl
@[simp] theorem setStw_rpts (s : State) (ch c w : Nat) (f : Stw → Stw) : (setStw s ch c w f).rpts = s.rpts := rfl
@[simp] theorem setStw_rptHub (s : State) (ch c w : Nat) (f : Stw → Stw) : (setStw s ch c w f).rptHub = s.rptHub := rfl
@[simp] theorem setStw_rptHubEp (s : State) (ch c w : Nat) (f : Stw → Stw) : (setStw s ch c w f).rptHubEp = s.rptHubEp := rfl
@[simp] theorem setStw_loads (s : State) (ch c w : Nat) (f : Stw → Stw) : (setStw s ch c w f).loads = s.loads := rfl
@[simp] theorem setStw_mons (s : State) (ch c w : Nat) (f : Stw → Stw) : (setStw s ch c w f).mons = s.mons := rfl
@[simp] theorem setStw_seals (s : State) (ch c w : Nat) (f : Stw → Stw) : (setStw s ch c w f).seals = s.seals := rfl
@[simp] theorem setStw_port (s : State) (ch c w : Nat) (f : Stw → Stw) : (setStw s ch c w f).port = s.port := rfl
@[simp] theorem setStw_links (s : State) (ch c w : Nat) (f : Stw → Stw) : (setStw s ch c w f).links = s.links := rfl
@[simp] theorem setStw_cts (s : State) (ch c w : Nat) (f : Stw → Stw) : (setStw s ch c w f).cts = s.cts := rfl
@[simp] theorem setStw_dists (s : State) (ch c w : Nat) (f : Stw → Stw) : (setStw s ch c w f).dists = s.dists := rfl
@[simp] theorem setStw_fcs (s : State) (ch c w : Nat) (f : Stw → Stw) : (setStw s ch c w f).fcs = s.fcs := rfl
@[simp] theorem setStw_dailies (s : State) (ch c w : Nat) (f : Stw → Stw) : (setStw s ch c w f).dailies = s.dailies := rfl
@[simp] theorem setStw_nv (s : State) (ch c w : Nat) (f : Stw → Stw) : (setStw s ch c w f).nv = s.nv := rfl
@[simp] theorem setStw_mgmt (s : State) (ch c w : Nat) (f : Stw → Stw) : (setStw s ch c w f).mgmt = s.mgmt := rfl
@[simp] theorem setStw_hub (s : State) (ch c w : Nat) (f : Stw → Stw) : (setStw s ch c w f).hub = s.hub := rfl
@[simp] theorem setStw_lostLanes (s : State) (ch c w : Nat) (f : Stw → Stw) : (setStw s ch c w f).lostLanes = s.lostLanes := rfl
@[simp] theorem setStw_absentLanes (s : State) (ch c w : Nat) (f : Stw → Stw) : (setStw s ch c w f).absentLanes = s.absentLanes := rfl
@[simp] theorem setStw_goneports (s : State) (ch c w : Nat) (f : Stw → Stw) : (setStw s ch c w f).goneports = s.goneports := rfl
@[simp] theorem setStw_laid (s : State) (ch c w : Nat) (f : Stw → Stw) : (setStw s ch c w f).laid = s.laid := rfl
@[simp] theorem setStw_free (s : State) (ch c w : Nat) (f : Stw → Stw) : (setStw s ch c w f).free = s.free := rfl

/-! `setQueue`. -/

@[simp] theorem setQueue_pending (s : State) (ch c q : Nat) (m : List Msg) : (setQueue s ch c q m).pending = s.pending := rfl
@[simp] theorem setQueue_part (s : State) (ch c q : Nat) (m : List Msg) : (setQueue s ch c q m).part = s.part := rfl
@[simp] theorem setQueue_regs (s : State) (ch c q : Nat) (m : List Msg) : (setQueue s ch c q m).regs = s.regs := rfl
@[simp] theorem setQueue_half (s : State) (ch c q : Nat) (m : List Msg) : (setQueue s ch c q m).half = s.half := rfl
@[simp] theorem setQueue_mem (s : State) (ch c q : Nat) (m : List Msg) : (setQueue s ch c q m).mem = s.mem := rfl
@[simp] theorem setQueue_psn (s : State) (ch c q : Nat) (m : List Msg) : (setQueue s ch c q m).psn = s.psn := rfl
@[simp] theorem setQueue_tiles (s : State) (ch c q : Nat) (m : List Msg) : (setQueue s ch c q m).tiles = s.tiles := rfl
@[simp] theorem setQueue_chans (s : State) (ch c q : Nat) (m : List Msg) : (setQueue s ch c q m).chans = s.chans := rfl
@[simp] theorem setQueue_rpts (s : State) (ch c q : Nat) (m : List Msg) : (setQueue s ch c q m).rpts = s.rpts := rfl
@[simp] theorem setQueue_rptHub (s : State) (ch c q : Nat) (m : List Msg) : (setQueue s ch c q m).rptHub = s.rptHub := rfl
@[simp] theorem setQueue_rptHubEp (s : State) (ch c q : Nat) (m : List Msg) : (setQueue s ch c q m).rptHubEp = s.rptHubEp := rfl
@[simp] theorem setQueue_loads (s : State) (ch c q : Nat) (m : List Msg) : (setQueue s ch c q m).loads = s.loads := rfl
@[simp] theorem setQueue_mons (s : State) (ch c q : Nat) (m : List Msg) : (setQueue s ch c q m).mons = s.mons := rfl
@[simp] theorem setQueue_seals (s : State) (ch c q : Nat) (m : List Msg) : (setQueue s ch c q m).seals = s.seals := rfl
@[simp] theorem setQueue_port (s : State) (ch c q : Nat) (m : List Msg) : (setQueue s ch c q m).port = s.port := rfl
@[simp] theorem setQueue_links (s : State) (ch c q : Nat) (m : List Msg) : (setQueue s ch c q m).links = s.links := rfl
@[simp] theorem setQueue_cts (s : State) (ch c q : Nat) (m : List Msg) : (setQueue s ch c q m).cts = s.cts := rfl
@[simp] theorem setQueue_dists (s : State) (ch c q : Nat) (m : List Msg) : (setQueue s ch c q m).dists = s.dists := rfl
@[simp] theorem setQueue_fcs (s : State) (ch c q : Nat) (m : List Msg) : (setQueue s ch c q m).fcs = s.fcs := rfl
@[simp] theorem setQueue_dailies (s : State) (ch c q : Nat) (m : List Msg) : (setQueue s ch c q m).dailies = s.dailies := rfl
@[simp] theorem setQueue_nv (s : State) (ch c q : Nat) (m : List Msg) : (setQueue s ch c q m).nv = s.nv := rfl
@[simp] theorem setQueue_mgmt (s : State) (ch c q : Nat) (m : List Msg) : (setQueue s ch c q m).mgmt = s.mgmt := rfl
@[simp] theorem setQueue_hub (s : State) (ch c q : Nat) (m : List Msg) : (setQueue s ch c q m).hub = s.hub := rfl
@[simp] theorem setQueue_lostLanes (s : State) (ch c q : Nat) (m : List Msg) : (setQueue s ch c q m).lostLanes = s.lostLanes := rfl
@[simp] theorem setQueue_absentLanes (s : State) (ch c q : Nat) (m : List Msg) : (setQueue s ch c q m).absentLanes = s.absentLanes := rfl
@[simp] theorem setQueue_goneports (s : State) (ch c q : Nat) (m : List Msg) : (setQueue s ch c q m).goneports = s.goneports := rfl
@[simp] theorem setQueue_laid (s : State) (ch c q : Nat) (m : List Msg) : (setQueue s ch c q m).laid = s.laid := rfl
@[simp] theorem setQueue_free (s : State) (ch c q : Nat) (m : List Msg) : (setQueue s ch c q m).free = s.free := rfl

/-! `setSbuf`. -/

@[simp] theorem setSbuf_pending (s : State) (ch c n : Nat) (f : SBuf → SBuf) : (setSbuf s ch c n f).pending = s.pending := rfl
@[simp] theorem setSbuf_part (s : State) (ch c n : Nat) (f : SBuf → SBuf) : (setSbuf s ch c n f).part = s.part := rfl
@[simp] theorem setSbuf_regs (s : State) (ch c n : Nat) (f : SBuf → SBuf) : (setSbuf s ch c n f).regs = s.regs := rfl
@[simp] theorem setSbuf_half (s : State) (ch c n : Nat) (f : SBuf → SBuf) : (setSbuf s ch c n f).half = s.half := rfl
@[simp] theorem setSbuf_mem (s : State) (ch c n : Nat) (f : SBuf → SBuf) : (setSbuf s ch c n f).mem = s.mem := rfl
@[simp] theorem setSbuf_psn (s : State) (ch c n : Nat) (f : SBuf → SBuf) : (setSbuf s ch c n f).psn = s.psn := rfl
@[simp] theorem setSbuf_tiles (s : State) (ch c n : Nat) (f : SBuf → SBuf) : (setSbuf s ch c n f).tiles = s.tiles := rfl
@[simp] theorem setSbuf_chans (s : State) (ch c n : Nat) (f : SBuf → SBuf) : (setSbuf s ch c n f).chans = s.chans := rfl
@[simp] theorem setSbuf_rpts (s : State) (ch c n : Nat) (f : SBuf → SBuf) : (setSbuf s ch c n f).rpts = s.rpts := rfl
@[simp] theorem setSbuf_rptHub (s : State) (ch c n : Nat) (f : SBuf → SBuf) : (setSbuf s ch c n f).rptHub = s.rptHub := rfl
@[simp] theorem setSbuf_rptHubEp (s : State) (ch c n : Nat) (f : SBuf → SBuf) : (setSbuf s ch c n f).rptHubEp = s.rptHubEp := rfl
@[simp] theorem setSbuf_loads (s : State) (ch c n : Nat) (f : SBuf → SBuf) : (setSbuf s ch c n f).loads = s.loads := rfl
@[simp] theorem setSbuf_mons (s : State) (ch c n : Nat) (f : SBuf → SBuf) : (setSbuf s ch c n f).mons = s.mons := rfl
@[simp] theorem setSbuf_seals (s : State) (ch c n : Nat) (f : SBuf → SBuf) : (setSbuf s ch c n f).seals = s.seals := rfl
@[simp] theorem setSbuf_port (s : State) (ch c n : Nat) (f : SBuf → SBuf) : (setSbuf s ch c n f).port = s.port := rfl
@[simp] theorem setSbuf_links (s : State) (ch c n : Nat) (f : SBuf → SBuf) : (setSbuf s ch c n f).links = s.links := rfl
@[simp] theorem setSbuf_cts (s : State) (ch c n : Nat) (f : SBuf → SBuf) : (setSbuf s ch c n f).cts = s.cts := rfl
@[simp] theorem setSbuf_dists (s : State) (ch c n : Nat) (f : SBuf → SBuf) : (setSbuf s ch c n f).dists = s.dists := rfl
@[simp] theorem setSbuf_fcs (s : State) (ch c n : Nat) (f : SBuf → SBuf) : (setSbuf s ch c n f).fcs = s.fcs := rfl
@[simp] theorem setSbuf_dailies (s : State) (ch c n : Nat) (f : SBuf → SBuf) : (setSbuf s ch c n f).dailies = s.dailies := rfl
@[simp] theorem setSbuf_nv (s : State) (ch c n : Nat) (f : SBuf → SBuf) : (setSbuf s ch c n f).nv = s.nv := rfl
@[simp] theorem setSbuf_mgmt (s : State) (ch c n : Nat) (f : SBuf → SBuf) : (setSbuf s ch c n f).mgmt = s.mgmt := rfl
@[simp] theorem setSbuf_hub (s : State) (ch c n : Nat) (f : SBuf → SBuf) : (setSbuf s ch c n f).hub = s.hub := rfl
@[simp] theorem setSbuf_lostLanes (s : State) (ch c n : Nat) (f : SBuf → SBuf) : (setSbuf s ch c n f).lostLanes = s.lostLanes := rfl
@[simp] theorem setSbuf_absentLanes (s : State) (ch c n : Nat) (f : SBuf → SBuf) : (setSbuf s ch c n f).absentLanes = s.absentLanes := rfl
@[simp] theorem setSbuf_goneports (s : State) (ch c n : Nat) (f : SBuf → SBuf) : (setSbuf s ch c n f).goneports = s.goneports := rfl
@[simp] theorem setSbuf_laid (s : State) (ch c n : Nat) (f : SBuf → SBuf) : (setSbuf s ch c n f).laid = s.laid := rfl
@[simp] theorem setSbuf_free (s : State) (ch c n : Nat) (f : SBuf → SBuf) : (setSbuf s ch c n f).free = s.free := rfl

/-! `setSlot`. -/

@[simp] theorem setSlot_pending (s : State) (ch c n : Nat) (f : DSlot → DSlot) : (setSlot s ch c n f).pending = s.pending := rfl
@[simp] theorem setSlot_part (s : State) (ch c n : Nat) (f : DSlot → DSlot) : (setSlot s ch c n f).part = s.part := rfl
@[simp] theorem setSlot_regs (s : State) (ch c n : Nat) (f : DSlot → DSlot) : (setSlot s ch c n f).regs = s.regs := rfl
@[simp] theorem setSlot_half (s : State) (ch c n : Nat) (f : DSlot → DSlot) : (setSlot s ch c n f).half = s.half := rfl
@[simp] theorem setSlot_mem (s : State) (ch c n : Nat) (f : DSlot → DSlot) : (setSlot s ch c n f).mem = s.mem := rfl
@[simp] theorem setSlot_psn (s : State) (ch c n : Nat) (f : DSlot → DSlot) : (setSlot s ch c n f).psn = s.psn := rfl
@[simp] theorem setSlot_tiles (s : State) (ch c n : Nat) (f : DSlot → DSlot) : (setSlot s ch c n f).tiles = s.tiles := rfl
@[simp] theorem setSlot_chans (s : State) (ch c n : Nat) (f : DSlot → DSlot) : (setSlot s ch c n f).chans = s.chans := rfl
@[simp] theorem setSlot_rpts (s : State) (ch c n : Nat) (f : DSlot → DSlot) : (setSlot s ch c n f).rpts = s.rpts := rfl
@[simp] theorem setSlot_rptHub (s : State) (ch c n : Nat) (f : DSlot → DSlot) : (setSlot s ch c n f).rptHub = s.rptHub := rfl
@[simp] theorem setSlot_rptHubEp (s : State) (ch c n : Nat) (f : DSlot → DSlot) : (setSlot s ch c n f).rptHubEp = s.rptHubEp := rfl
@[simp] theorem setSlot_loads (s : State) (ch c n : Nat) (f : DSlot → DSlot) : (setSlot s ch c n f).loads = s.loads := rfl
@[simp] theorem setSlot_mons (s : State) (ch c n : Nat) (f : DSlot → DSlot) : (setSlot s ch c n f).mons = s.mons := rfl
@[simp] theorem setSlot_seals (s : State) (ch c n : Nat) (f : DSlot → DSlot) : (setSlot s ch c n f).seals = s.seals := rfl
@[simp] theorem setSlot_port (s : State) (ch c n : Nat) (f : DSlot → DSlot) : (setSlot s ch c n f).port = s.port := rfl
@[simp] theorem setSlot_links (s : State) (ch c n : Nat) (f : DSlot → DSlot) : (setSlot s ch c n f).links = s.links := rfl
@[simp] theorem setSlot_cts (s : State) (ch c n : Nat) (f : DSlot → DSlot) : (setSlot s ch c n f).cts = s.cts := rfl
@[simp] theorem setSlot_dists (s : State) (ch c n : Nat) (f : DSlot → DSlot) : (setSlot s ch c n f).dists = s.dists := rfl
@[simp] theorem setSlot_fcs (s : State) (ch c n : Nat) (f : DSlot → DSlot) : (setSlot s ch c n f).fcs = s.fcs := rfl
@[simp] theorem setSlot_dailies (s : State) (ch c n : Nat) (f : DSlot → DSlot) : (setSlot s ch c n f).dailies = s.dailies := rfl
@[simp] theorem setSlot_nv (s : State) (ch c n : Nat) (f : DSlot → DSlot) : (setSlot s ch c n f).nv = s.nv := rfl
@[simp] theorem setSlot_mgmt (s : State) (ch c n : Nat) (f : DSlot → DSlot) : (setSlot s ch c n f).mgmt = s.mgmt := rfl
@[simp] theorem setSlot_hub (s : State) (ch c n : Nat) (f : DSlot → DSlot) : (setSlot s ch c n f).hub = s.hub := rfl
@[simp] theorem setSlot_lostLanes (s : State) (ch c n : Nat) (f : DSlot → DSlot) : (setSlot s ch c n f).lostLanes = s.lostLanes := rfl
@[simp] theorem setSlot_absentLanes (s : State) (ch c n : Nat) (f : DSlot → DSlot) : (setSlot s ch c n f).absentLanes = s.absentLanes := rfl
@[simp] theorem setSlot_goneports (s : State) (ch c n : Nat) (f : DSlot → DSlot) : (setSlot s ch c n f).goneports = s.goneports := rfl
@[simp] theorem setSlot_laid (s : State) (ch c n : Nat) (f : DSlot → DSlot) : (setSlot s ch c n f).laid = s.laid := rfl
@[simp] theorem setSlot_free (s : State) (ch c n : Nat) (f : DSlot → DSlot) : (setSlot s ch c n f).free = s.free := rfl

/-! `setTake`. -/

@[simp] theorem setTake_pending (s : State) (ch c k : Nat) (f : TakeSlot → TakeSlot) : (setTake s ch c k f).pending = s.pending := rfl
@[simp] theorem setTake_part (s : State) (ch c k : Nat) (f : TakeSlot → TakeSlot) : (setTake s ch c k f).part = s.part := rfl
@[simp] theorem setTake_regs (s : State) (ch c k : Nat) (f : TakeSlot → TakeSlot) : (setTake s ch c k f).regs = s.regs := rfl
@[simp] theorem setTake_half (s : State) (ch c k : Nat) (f : TakeSlot → TakeSlot) : (setTake s ch c k f).half = s.half := rfl
@[simp] theorem setTake_mem (s : State) (ch c k : Nat) (f : TakeSlot → TakeSlot) : (setTake s ch c k f).mem = s.mem := rfl
@[simp] theorem setTake_psn (s : State) (ch c k : Nat) (f : TakeSlot → TakeSlot) : (setTake s ch c k f).psn = s.psn := rfl
@[simp] theorem setTake_tiles (s : State) (ch c k : Nat) (f : TakeSlot → TakeSlot) : (setTake s ch c k f).tiles = s.tiles := rfl
@[simp] theorem setTake_chans (s : State) (ch c k : Nat) (f : TakeSlot → TakeSlot) : (setTake s ch c k f).chans = s.chans := rfl
@[simp] theorem setTake_rpts (s : State) (ch c k : Nat) (f : TakeSlot → TakeSlot) : (setTake s ch c k f).rpts = s.rpts := rfl
@[simp] theorem setTake_rptHub (s : State) (ch c k : Nat) (f : TakeSlot → TakeSlot) : (setTake s ch c k f).rptHub = s.rptHub := rfl
@[simp] theorem setTake_rptHubEp (s : State) (ch c k : Nat) (f : TakeSlot → TakeSlot) : (setTake s ch c k f).rptHubEp = s.rptHubEp := rfl
@[simp] theorem setTake_loads (s : State) (ch c k : Nat) (f : TakeSlot → TakeSlot) : (setTake s ch c k f).loads = s.loads := rfl
@[simp] theorem setTake_mons (s : State) (ch c k : Nat) (f : TakeSlot → TakeSlot) : (setTake s ch c k f).mons = s.mons := rfl
@[simp] theorem setTake_seals (s : State) (ch c k : Nat) (f : TakeSlot → TakeSlot) : (setTake s ch c k f).seals = s.seals := rfl
@[simp] theorem setTake_port (s : State) (ch c k : Nat) (f : TakeSlot → TakeSlot) : (setTake s ch c k f).port = s.port := rfl
@[simp] theorem setTake_links (s : State) (ch c k : Nat) (f : TakeSlot → TakeSlot) : (setTake s ch c k f).links = s.links := rfl
@[simp] theorem setTake_cts (s : State) (ch c k : Nat) (f : TakeSlot → TakeSlot) : (setTake s ch c k f).cts = s.cts := rfl
@[simp] theorem setTake_dists (s : State) (ch c k : Nat) (f : TakeSlot → TakeSlot) : (setTake s ch c k f).dists = s.dists := rfl
@[simp] theorem setTake_fcs (s : State) (ch c k : Nat) (f : TakeSlot → TakeSlot) : (setTake s ch c k f).fcs = s.fcs := rfl
@[simp] theorem setTake_dailies (s : State) (ch c k : Nat) (f : TakeSlot → TakeSlot) : (setTake s ch c k f).dailies = s.dailies := rfl
@[simp] theorem setTake_nv (s : State) (ch c k : Nat) (f : TakeSlot → TakeSlot) : (setTake s ch c k f).nv = s.nv := rfl
@[simp] theorem setTake_mgmt (s : State) (ch c k : Nat) (f : TakeSlot → TakeSlot) : (setTake s ch c k f).mgmt = s.mgmt := rfl
@[simp] theorem setTake_hub (s : State) (ch c k : Nat) (f : TakeSlot → TakeSlot) : (setTake s ch c k f).hub = s.hub := rfl
@[simp] theorem setTake_lostLanes (s : State) (ch c k : Nat) (f : TakeSlot → TakeSlot) : (setTake s ch c k f).lostLanes = s.lostLanes := rfl
@[simp] theorem setTake_absentLanes (s : State) (ch c k : Nat) (f : TakeSlot → TakeSlot) : (setTake s ch c k f).absentLanes = s.absentLanes := rfl
@[simp] theorem setTake_goneports (s : State) (ch c k : Nat) (f : TakeSlot → TakeSlot) : (setTake s ch c k f).goneports = s.goneports := rfl
@[simp] theorem setTake_laid (s : State) (ch c k : Nat) (f : TakeSlot → TakeSlot) : (setTake s ch c k f).laid = s.laid := rfl
@[simp] theorem setTake_free (s : State) (ch c k : Nat) (f : TakeSlot → TakeSlot) : (setTake s ch c k f).free = s.free := rfl

/-! `setTl`. -/

@[simp] theorem setTl_pending (s : State) (ch c t : Nat) (f : Tile → Tile) : (s.setTl ch c t f).pending = s.pending := rfl
@[simp] theorem setTl_part (s : State) (ch c t : Nat) (f : Tile → Tile) : (s.setTl ch c t f).part = s.part := rfl
@[simp] theorem setTl_regs (s : State) (ch c t : Nat) (f : Tile → Tile) : (s.setTl ch c t f).regs = s.regs := rfl
@[simp] theorem setTl_half (s : State) (ch c t : Nat) (f : Tile → Tile) : (s.setTl ch c t f).half = s.half := rfl
@[simp] theorem setTl_mem (s : State) (ch c t : Nat) (f : Tile → Tile) : (s.setTl ch c t f).mem = s.mem := rfl
@[simp] theorem setTl_psn (s : State) (ch c t : Nat) (f : Tile → Tile) : (s.setTl ch c t f).psn = s.psn := rfl
@[simp] theorem setTl_cls (s : State) (ch c t : Nat) (f : Tile → Tile) : (s.setTl ch c t f).cls = s.cls := rfl
@[simp] theorem setTl_chans (s : State) (ch c t : Nat) (f : Tile → Tile) : (s.setTl ch c t f).chans = s.chans := rfl
@[simp] theorem setTl_rpts (s : State) (ch c t : Nat) (f : Tile → Tile) : (s.setTl ch c t f).rpts = s.rpts := rfl
@[simp] theorem setTl_rptHub (s : State) (ch c t : Nat) (f : Tile → Tile) : (s.setTl ch c t f).rptHub = s.rptHub := rfl
@[simp] theorem setTl_rptHubEp (s : State) (ch c t : Nat) (f : Tile → Tile) : (s.setTl ch c t f).rptHubEp = s.rptHubEp := rfl
@[simp] theorem setTl_loads (s : State) (ch c t : Nat) (f : Tile → Tile) : (s.setTl ch c t f).loads = s.loads := rfl
@[simp] theorem setTl_mons (s : State) (ch c t : Nat) (f : Tile → Tile) : (s.setTl ch c t f).mons = s.mons := rfl
@[simp] theorem setTl_seals (s : State) (ch c t : Nat) (f : Tile → Tile) : (s.setTl ch c t f).seals = s.seals := rfl
@[simp] theorem setTl_port (s : State) (ch c t : Nat) (f : Tile → Tile) : (s.setTl ch c t f).port = s.port := rfl
@[simp] theorem setTl_links (s : State) (ch c t : Nat) (f : Tile → Tile) : (s.setTl ch c t f).links = s.links := rfl
@[simp] theorem setTl_cts (s : State) (ch c t : Nat) (f : Tile → Tile) : (s.setTl ch c t f).cts = s.cts := rfl
@[simp] theorem setTl_dists (s : State) (ch c t : Nat) (f : Tile → Tile) : (s.setTl ch c t f).dists = s.dists := rfl
@[simp] theorem setTl_fcs (s : State) (ch c t : Nat) (f : Tile → Tile) : (s.setTl ch c t f).fcs = s.fcs := rfl
@[simp] theorem setTl_dailies (s : State) (ch c t : Nat) (f : Tile → Tile) : (s.setTl ch c t f).dailies = s.dailies := rfl
@[simp] theorem setTl_nv (s : State) (ch c t : Nat) (f : Tile → Tile) : (s.setTl ch c t f).nv = s.nv := rfl
@[simp] theorem setTl_mgmt (s : State) (ch c t : Nat) (f : Tile → Tile) : (s.setTl ch c t f).mgmt = s.mgmt := rfl
@[simp] theorem setTl_hub (s : State) (ch c t : Nat) (f : Tile → Tile) : (s.setTl ch c t f).hub = s.hub := rfl
@[simp] theorem setTl_lostLanes (s : State) (ch c t : Nat) (f : Tile → Tile) : (s.setTl ch c t f).lostLanes = s.lostLanes := rfl
@[simp] theorem setTl_absentLanes (s : State) (ch c t : Nat) (f : Tile → Tile) : (s.setTl ch c t f).absentLanes = s.absentLanes := rfl
@[simp] theorem setTl_goneports (s : State) (ch c t : Nat) (f : Tile → Tile) : (s.setTl ch c t f).goneports = s.goneports := rfl
@[simp] theorem setTl_laid (s : State) (ch c t : Nat) (f : Tile → Tile) : (s.setTl ch c t f).laid = s.laid := rfl
@[simp] theorem setTl_free (s : State) (ch c t : Nat) (f : Tile → Tile) : (s.setTl ch c t f).free = s.free := rfl

/-! `mapTiles`. -/

@[simp] theorem mapTiles_pending (s : State) (ch c : Nat) (f : Tile → Tile) : (mapTiles s ch c f).pending = s.pending := rfl
@[simp] theorem mapTiles_part (s : State) (ch c : Nat) (f : Tile → Tile) : (mapTiles s ch c f).part = s.part := rfl
@[simp] theorem mapTiles_regs (s : State) (ch c : Nat) (f : Tile → Tile) : (mapTiles s ch c f).regs = s.regs := rfl
@[simp] theorem mapTiles_half (s : State) (ch c : Nat) (f : Tile → Tile) : (mapTiles s ch c f).half = s.half := rfl
@[simp] theorem mapTiles_mem (s : State) (ch c : Nat) (f : Tile → Tile) : (mapTiles s ch c f).mem = s.mem := rfl
@[simp] theorem mapTiles_psn (s : State) (ch c : Nat) (f : Tile → Tile) : (mapTiles s ch c f).psn = s.psn := rfl
@[simp] theorem mapTiles_cls (s : State) (ch c : Nat) (f : Tile → Tile) : (mapTiles s ch c f).cls = s.cls := rfl
@[simp] theorem mapTiles_chans (s : State) (ch c : Nat) (f : Tile → Tile) : (mapTiles s ch c f).chans = s.chans := rfl
@[simp] theorem mapTiles_rpts (s : State) (ch c : Nat) (f : Tile → Tile) : (mapTiles s ch c f).rpts = s.rpts := rfl
@[simp] theorem mapTiles_rptHub (s : State) (ch c : Nat) (f : Tile → Tile) : (mapTiles s ch c f).rptHub = s.rptHub := rfl
@[simp] theorem mapTiles_rptHubEp (s : State) (ch c : Nat) (f : Tile → Tile) : (mapTiles s ch c f).rptHubEp = s.rptHubEp := rfl
@[simp] theorem mapTiles_loads (s : State) (ch c : Nat) (f : Tile → Tile) : (mapTiles s ch c f).loads = s.loads := rfl
@[simp] theorem mapTiles_mons (s : State) (ch c : Nat) (f : Tile → Tile) : (mapTiles s ch c f).mons = s.mons := rfl
@[simp] theorem mapTiles_seals (s : State) (ch c : Nat) (f : Tile → Tile) : (mapTiles s ch c f).seals = s.seals := rfl
@[simp] theorem mapTiles_port (s : State) (ch c : Nat) (f : Tile → Tile) : (mapTiles s ch c f).port = s.port := rfl
@[simp] theorem mapTiles_links (s : State) (ch c : Nat) (f : Tile → Tile) : (mapTiles s ch c f).links = s.links := rfl
@[simp] theorem mapTiles_cts (s : State) (ch c : Nat) (f : Tile → Tile) : (mapTiles s ch c f).cts = s.cts := rfl
@[simp] theorem mapTiles_dists (s : State) (ch c : Nat) (f : Tile → Tile) : (mapTiles s ch c f).dists = s.dists := rfl
@[simp] theorem mapTiles_fcs (s : State) (ch c : Nat) (f : Tile → Tile) : (mapTiles s ch c f).fcs = s.fcs := rfl
@[simp] theorem mapTiles_dailies (s : State) (ch c : Nat) (f : Tile → Tile) : (mapTiles s ch c f).dailies = s.dailies := rfl
@[simp] theorem mapTiles_nv (s : State) (ch c : Nat) (f : Tile → Tile) : (mapTiles s ch c f).nv = s.nv := rfl
@[simp] theorem mapTiles_mgmt (s : State) (ch c : Nat) (f : Tile → Tile) : (mapTiles s ch c f).mgmt = s.mgmt := rfl
@[simp] theorem mapTiles_hub (s : State) (ch c : Nat) (f : Tile → Tile) : (mapTiles s ch c f).hub = s.hub := rfl
@[simp] theorem mapTiles_lostLanes (s : State) (ch c : Nat) (f : Tile → Tile) : (mapTiles s ch c f).lostLanes = s.lostLanes := rfl
@[simp] theorem mapTiles_absentLanes (s : State) (ch c : Nat) (f : Tile → Tile) : (mapTiles s ch c f).absentLanes = s.absentLanes := rfl
@[simp] theorem mapTiles_goneports (s : State) (ch c : Nat) (f : Tile → Tile) : (mapTiles s ch c f).goneports = s.goneports := rfl
@[simp] theorem mapTiles_laid (s : State) (ch c : Nat) (f : Tile → Tile) : (mapTiles s ch c f).laid = s.laid := rfl
@[simp] theorem mapTiles_free (s : State) (ch c : Nat) (f : Tile → Tile) : (mapTiles s ch c f).free = s.free := rfl

/-! `setChan`. -/

@[simp] theorem setChan_pending (s : State) (ch : Nat) (f : Chan → Chan) : (s.setChan ch f).pending = s.pending := rfl
@[simp] theorem setChan_part (s : State) (ch : Nat) (f : Chan → Chan) : (s.setChan ch f).part = s.part := rfl
@[simp] theorem setChan_regs (s : State) (ch : Nat) (f : Chan → Chan) : (s.setChan ch f).regs = s.regs := rfl
@[simp] theorem setChan_half (s : State) (ch : Nat) (f : Chan → Chan) : (s.setChan ch f).half = s.half := rfl
@[simp] theorem setChan_mem (s : State) (ch : Nat) (f : Chan → Chan) : (s.setChan ch f).mem = s.mem := rfl
@[simp] theorem setChan_psn (s : State) (ch : Nat) (f : Chan → Chan) : (s.setChan ch f).psn = s.psn := rfl
@[simp] theorem setChan_tiles (s : State) (ch : Nat) (f : Chan → Chan) : (s.setChan ch f).tiles = s.tiles := rfl
@[simp] theorem setChan_cls (s : State) (ch : Nat) (f : Chan → Chan) : (s.setChan ch f).cls = s.cls := rfl
@[simp] theorem setChan_rpts (s : State) (ch : Nat) (f : Chan → Chan) : (s.setChan ch f).rpts = s.rpts := rfl
@[simp] theorem setChan_rptHub (s : State) (ch : Nat) (f : Chan → Chan) : (s.setChan ch f).rptHub = s.rptHub := rfl
@[simp] theorem setChan_rptHubEp (s : State) (ch : Nat) (f : Chan → Chan) : (s.setChan ch f).rptHubEp = s.rptHubEp := rfl
@[simp] theorem setChan_loads (s : State) (ch : Nat) (f : Chan → Chan) : (s.setChan ch f).loads = s.loads := rfl
@[simp] theorem setChan_mons (s : State) (ch : Nat) (f : Chan → Chan) : (s.setChan ch f).mons = s.mons := rfl
@[simp] theorem setChan_seals (s : State) (ch : Nat) (f : Chan → Chan) : (s.setChan ch f).seals = s.seals := rfl
@[simp] theorem setChan_port (s : State) (ch : Nat) (f : Chan → Chan) : (s.setChan ch f).port = s.port := rfl
@[simp] theorem setChan_links (s : State) (ch : Nat) (f : Chan → Chan) : (s.setChan ch f).links = s.links := rfl
@[simp] theorem setChan_cts (s : State) (ch : Nat) (f : Chan → Chan) : (s.setChan ch f).cts = s.cts := rfl
@[simp] theorem setChan_dists (s : State) (ch : Nat) (f : Chan → Chan) : (s.setChan ch f).dists = s.dists := rfl
@[simp] theorem setChan_fcs (s : State) (ch : Nat) (f : Chan → Chan) : (s.setChan ch f).fcs = s.fcs := rfl
@[simp] theorem setChan_dailies (s : State) (ch : Nat) (f : Chan → Chan) : (s.setChan ch f).dailies = s.dailies := rfl
@[simp] theorem setChan_nv (s : State) (ch : Nat) (f : Chan → Chan) : (s.setChan ch f).nv = s.nv := rfl
@[simp] theorem setChan_mgmt (s : State) (ch : Nat) (f : Chan → Chan) : (s.setChan ch f).mgmt = s.mgmt := rfl
@[simp] theorem setChan_hub (s : State) (ch : Nat) (f : Chan → Chan) : (s.setChan ch f).hub = s.hub := rfl
@[simp] theorem setChan_lostLanes (s : State) (ch : Nat) (f : Chan → Chan) : (s.setChan ch f).lostLanes = s.lostLanes := rfl
@[simp] theorem setChan_absentLanes (s : State) (ch : Nat) (f : Chan → Chan) : (s.setChan ch f).absentLanes = s.absentLanes := rfl
@[simp] theorem setChan_goneports (s : State) (ch : Nat) (f : Chan → Chan) : (s.setChan ch f).goneports = s.goneports := rfl
@[simp] theorem setChan_laid (s : State) (ch : Nat) (f : Chan → Chan) : (s.setChan ch f).laid = s.laid := rfl
@[simp] theorem setChan_free (s : State) (ch : Nat) (f : Chan → Chan) : (s.setChan ch f).free = s.free := rfl

/-! `setReq`. -/

@[simp] theorem setReq_pending (s : State) (ch n : Nat) (f : Req → Req) : (setReq s ch n f).pending = s.pending := rfl
@[simp] theorem setReq_part (s : State) (ch n : Nat) (f : Req → Req) : (setReq s ch n f).part = s.part := rfl
@[simp] theorem setReq_regs (s : State) (ch n : Nat) (f : Req → Req) : (setReq s ch n f).regs = s.regs := rfl
@[simp] theorem setReq_half (s : State) (ch n : Nat) (f : Req → Req) : (setReq s ch n f).half = s.half := rfl
@[simp] theorem setReq_mem (s : State) (ch n : Nat) (f : Req → Req) : (setReq s ch n f).mem = s.mem := rfl
@[simp] theorem setReq_psn (s : State) (ch n : Nat) (f : Req → Req) : (setReq s ch n f).psn = s.psn := rfl
@[simp] theorem setReq_tiles (s : State) (ch n : Nat) (f : Req → Req) : (setReq s ch n f).tiles = s.tiles := rfl
@[simp] theorem setReq_cls (s : State) (ch n : Nat) (f : Req → Req) : (setReq s ch n f).cls = s.cls := rfl
@[simp] theorem setReq_rpts (s : State) (ch n : Nat) (f : Req → Req) : (setReq s ch n f).rpts = s.rpts := rfl
@[simp] theorem setReq_rptHub (s : State) (ch n : Nat) (f : Req → Req) : (setReq s ch n f).rptHub = s.rptHub := rfl
@[simp] theorem setReq_rptHubEp (s : State) (ch n : Nat) (f : Req → Req) : (setReq s ch n f).rptHubEp = s.rptHubEp := rfl
@[simp] theorem setReq_loads (s : State) (ch n : Nat) (f : Req → Req) : (setReq s ch n f).loads = s.loads := rfl
@[simp] theorem setReq_mons (s : State) (ch n : Nat) (f : Req → Req) : (setReq s ch n f).mons = s.mons := rfl
@[simp] theorem setReq_seals (s : State) (ch n : Nat) (f : Req → Req) : (setReq s ch n f).seals = s.seals := rfl
@[simp] theorem setReq_port (s : State) (ch n : Nat) (f : Req → Req) : (setReq s ch n f).port = s.port := rfl
@[simp] theorem setReq_links (s : State) (ch n : Nat) (f : Req → Req) : (setReq s ch n f).links = s.links := rfl
@[simp] theorem setReq_cts (s : State) (ch n : Nat) (f : Req → Req) : (setReq s ch n f).cts = s.cts := rfl
@[simp] theorem setReq_dists (s : State) (ch n : Nat) (f : Req → Req) : (setReq s ch n f).dists = s.dists := rfl
@[simp] theorem setReq_fcs (s : State) (ch n : Nat) (f : Req → Req) : (setReq s ch n f).fcs = s.fcs := rfl
@[simp] theorem setReq_dailies (s : State) (ch n : Nat) (f : Req → Req) : (setReq s ch n f).dailies = s.dailies := rfl
@[simp] theorem setReq_nv (s : State) (ch n : Nat) (f : Req → Req) : (setReq s ch n f).nv = s.nv := rfl
@[simp] theorem setReq_mgmt (s : State) (ch n : Nat) (f : Req → Req) : (setReq s ch n f).mgmt = s.mgmt := rfl
@[simp] theorem setReq_hub (s : State) (ch n : Nat) (f : Req → Req) : (setReq s ch n f).hub = s.hub := rfl
@[simp] theorem setReq_lostLanes (s : State) (ch n : Nat) (f : Req → Req) : (setReq s ch n f).lostLanes = s.lostLanes := rfl
@[simp] theorem setReq_absentLanes (s : State) (ch n : Nat) (f : Req → Req) : (setReq s ch n f).absentLanes = s.absentLanes := rfl
@[simp] theorem setReq_goneports (s : State) (ch n : Nat) (f : Req → Req) : (setReq s ch n f).goneports = s.goneports := rfl
@[simp] theorem setReq_laid (s : State) (ch n : Nat) (f : Req → Req) : (setReq s ch n f).laid = s.laid := rfl
@[simp] theorem setReq_free (s : State) (ch n : Nat) (f : Req → Req) : (setReq s ch n f).free = s.free := rfl

/-! `dropReq`. -/

@[simp] theorem dropReq_pending (s : State) (ch n : Nat) : (dropReq s ch n).pending = s.pending := rfl
@[simp] theorem dropReq_part (s : State) (ch n : Nat) : (dropReq s ch n).part = s.part := rfl
@[simp] theorem dropReq_regs (s : State) (ch n : Nat) : (dropReq s ch n).regs = s.regs := rfl
@[simp] theorem dropReq_half (s : State) (ch n : Nat) : (dropReq s ch n).half = s.half := rfl
@[simp] theorem dropReq_mem (s : State) (ch n : Nat) : (dropReq s ch n).mem = s.mem := rfl
@[simp] theorem dropReq_psn (s : State) (ch n : Nat) : (dropReq s ch n).psn = s.psn := rfl
@[simp] theorem dropReq_tiles (s : State) (ch n : Nat) : (dropReq s ch n).tiles = s.tiles := rfl
@[simp] theorem dropReq_cls (s : State) (ch n : Nat) : (dropReq s ch n).cls = s.cls := rfl
@[simp] theorem dropReq_rpts (s : State) (ch n : Nat) : (dropReq s ch n).rpts = s.rpts := rfl
@[simp] theorem dropReq_rptHub (s : State) (ch n : Nat) : (dropReq s ch n).rptHub = s.rptHub := rfl
@[simp] theorem dropReq_rptHubEp (s : State) (ch n : Nat) : (dropReq s ch n).rptHubEp = s.rptHubEp := rfl
@[simp] theorem dropReq_loads (s : State) (ch n : Nat) : (dropReq s ch n).loads = s.loads := rfl
@[simp] theorem dropReq_mons (s : State) (ch n : Nat) : (dropReq s ch n).mons = s.mons := rfl
@[simp] theorem dropReq_seals (s : State) (ch n : Nat) : (dropReq s ch n).seals = s.seals := rfl
@[simp] theorem dropReq_port (s : State) (ch n : Nat) : (dropReq s ch n).port = s.port := rfl
@[simp] theorem dropReq_links (s : State) (ch n : Nat) : (dropReq s ch n).links = s.links := rfl
@[simp] theorem dropReq_cts (s : State) (ch n : Nat) : (dropReq s ch n).cts = s.cts := rfl
@[simp] theorem dropReq_dists (s : State) (ch n : Nat) : (dropReq s ch n).dists = s.dists := rfl
@[simp] theorem dropReq_fcs (s : State) (ch n : Nat) : (dropReq s ch n).fcs = s.fcs := rfl
@[simp] theorem dropReq_dailies (s : State) (ch n : Nat) : (dropReq s ch n).dailies = s.dailies := rfl
@[simp] theorem dropReq_nv (s : State) (ch n : Nat) : (dropReq s ch n).nv = s.nv := rfl
@[simp] theorem dropReq_mgmt (s : State) (ch n : Nat) : (dropReq s ch n).mgmt = s.mgmt := rfl
@[simp] theorem dropReq_hub (s : State) (ch n : Nat) : (dropReq s ch n).hub = s.hub := rfl
@[simp] theorem dropReq_lostLanes (s : State) (ch n : Nat) : (dropReq s ch n).lostLanes = s.lostLanes := rfl
@[simp] theorem dropReq_absentLanes (s : State) (ch n : Nat) : (dropReq s ch n).absentLanes = s.absentLanes := rfl
@[simp] theorem dropReq_goneports (s : State) (ch n : Nat) : (dropReq s ch n).goneports = s.goneports := rfl
@[simp] theorem dropReq_laid (s : State) (ch n : Nat) : (dropReq s ch n).laid = s.laid := rfl
@[simp] theorem dropReq_free (s : State) (ch n : Nat) : (dropReq s ch n).free = s.free := rfl

/-! `pushReq`. -/

@[simp] theorem pushReq_pending (s : State) (ch : Nat) (r : Req) : (pushReq s ch r).pending = s.pending := rfl
@[simp] theorem pushReq_part (s : State) (ch : Nat) (r : Req) : (pushReq s ch r).part = s.part := rfl
@[simp] theorem pushReq_regs (s : State) (ch : Nat) (r : Req) : (pushReq s ch r).regs = s.regs := rfl
@[simp] theorem pushReq_half (s : State) (ch : Nat) (r : Req) : (pushReq s ch r).half = s.half := rfl
@[simp] theorem pushReq_mem (s : State) (ch : Nat) (r : Req) : (pushReq s ch r).mem = s.mem := rfl
@[simp] theorem pushReq_psn (s : State) (ch : Nat) (r : Req) : (pushReq s ch r).psn = s.psn := rfl
@[simp] theorem pushReq_tiles (s : State) (ch : Nat) (r : Req) : (pushReq s ch r).tiles = s.tiles := rfl
@[simp] theorem pushReq_cls (s : State) (ch : Nat) (r : Req) : (pushReq s ch r).cls = s.cls := rfl
@[simp] theorem pushReq_rpts (s : State) (ch : Nat) (r : Req) : (pushReq s ch r).rpts = s.rpts := rfl
@[simp] theorem pushReq_rptHub (s : State) (ch : Nat) (r : Req) : (pushReq s ch r).rptHub = s.rptHub := rfl
@[simp] theorem pushReq_rptHubEp (s : State) (ch : Nat) (r : Req) : (pushReq s ch r).rptHubEp = s.rptHubEp := rfl
@[simp] theorem pushReq_loads (s : State) (ch : Nat) (r : Req) : (pushReq s ch r).loads = s.loads := rfl
@[simp] theorem pushReq_mons (s : State) (ch : Nat) (r : Req) : (pushReq s ch r).mons = s.mons := rfl
@[simp] theorem pushReq_seals (s : State) (ch : Nat) (r : Req) : (pushReq s ch r).seals = s.seals := rfl
@[simp] theorem pushReq_port (s : State) (ch : Nat) (r : Req) : (pushReq s ch r).port = s.port := rfl
@[simp] theorem pushReq_links (s : State) (ch : Nat) (r : Req) : (pushReq s ch r).links = s.links := rfl
@[simp] theorem pushReq_cts (s : State) (ch : Nat) (r : Req) : (pushReq s ch r).cts = s.cts := rfl
@[simp] theorem pushReq_dists (s : State) (ch : Nat) (r : Req) : (pushReq s ch r).dists = s.dists := rfl
@[simp] theorem pushReq_fcs (s : State) (ch : Nat) (r : Req) : (pushReq s ch r).fcs = s.fcs := rfl
@[simp] theorem pushReq_dailies (s : State) (ch : Nat) (r : Req) : (pushReq s ch r).dailies = s.dailies := rfl
@[simp] theorem pushReq_nv (s : State) (ch : Nat) (r : Req) : (pushReq s ch r).nv = s.nv := rfl
@[simp] theorem pushReq_mgmt (s : State) (ch : Nat) (r : Req) : (pushReq s ch r).mgmt = s.mgmt := rfl
@[simp] theorem pushReq_hub (s : State) (ch : Nat) (r : Req) : (pushReq s ch r).hub = s.hub := rfl
@[simp] theorem pushReq_lostLanes (s : State) (ch : Nat) (r : Req) : (pushReq s ch r).lostLanes = s.lostLanes := rfl
@[simp] theorem pushReq_absentLanes (s : State) (ch : Nat) (r : Req) : (pushReq s ch r).absentLanes = s.absentLanes := rfl
@[simp] theorem pushReq_goneports (s : State) (ch : Nat) (r : Req) : (pushReq s ch r).goneports = s.goneports := rfl
@[simp] theorem pushReq_laid (s : State) (ch : Nat) (r : Req) : (pushReq s ch r).laid = s.laid := rfl
@[simp] theorem pushReq_free (s : State) (ch : Nat) (r : Req) : (pushReq s ch r).free = s.free := rfl

/-! `setObj`. -/

@[simp] theorem setObj_pending (s : State) (ch o : Nat) (f : SObj → SObj) : (setObj s ch o f).pending = s.pending := rfl
@[simp] theorem setObj_part (s : State) (ch o : Nat) (f : SObj → SObj) : (setObj s ch o f).part = s.part := rfl
@[simp] theorem setObj_regs (s : State) (ch o : Nat) (f : SObj → SObj) : (setObj s ch o f).regs = s.regs := rfl
@[simp] theorem setObj_half (s : State) (ch o : Nat) (f : SObj → SObj) : (setObj s ch o f).half = s.half := rfl
@[simp] theorem setObj_mem (s : State) (ch o : Nat) (f : SObj → SObj) : (setObj s ch o f).mem = s.mem := rfl
@[simp] theorem setObj_psn (s : State) (ch o : Nat) (f : SObj → SObj) : (setObj s ch o f).psn = s.psn := rfl
@[simp] theorem setObj_tiles (s : State) (ch o : Nat) (f : SObj → SObj) : (setObj s ch o f).tiles = s.tiles := rfl
@[simp] theorem setObj_cls (s : State) (ch o : Nat) (f : SObj → SObj) : (setObj s ch o f).cls = s.cls := rfl
@[simp] theorem setObj_rpts (s : State) (ch o : Nat) (f : SObj → SObj) : (setObj s ch o f).rpts = s.rpts := rfl
@[simp] theorem setObj_rptHub (s : State) (ch o : Nat) (f : SObj → SObj) : (setObj s ch o f).rptHub = s.rptHub := rfl
@[simp] theorem setObj_rptHubEp (s : State) (ch o : Nat) (f : SObj → SObj) : (setObj s ch o f).rptHubEp = s.rptHubEp := rfl
@[simp] theorem setObj_loads (s : State) (ch o : Nat) (f : SObj → SObj) : (setObj s ch o f).loads = s.loads := rfl
@[simp] theorem setObj_mons (s : State) (ch o : Nat) (f : SObj → SObj) : (setObj s ch o f).mons = s.mons := rfl
@[simp] theorem setObj_seals (s : State) (ch o : Nat) (f : SObj → SObj) : (setObj s ch o f).seals = s.seals := rfl
@[simp] theorem setObj_port (s : State) (ch o : Nat) (f : SObj → SObj) : (setObj s ch o f).port = s.port := rfl
@[simp] theorem setObj_links (s : State) (ch o : Nat) (f : SObj → SObj) : (setObj s ch o f).links = s.links := rfl
@[simp] theorem setObj_cts (s : State) (ch o : Nat) (f : SObj → SObj) : (setObj s ch o f).cts = s.cts := rfl
@[simp] theorem setObj_dists (s : State) (ch o : Nat) (f : SObj → SObj) : (setObj s ch o f).dists = s.dists := rfl
@[simp] theorem setObj_fcs (s : State) (ch o : Nat) (f : SObj → SObj) : (setObj s ch o f).fcs = s.fcs := rfl
@[simp] theorem setObj_dailies (s : State) (ch o : Nat) (f : SObj → SObj) : (setObj s ch o f).dailies = s.dailies := rfl
@[simp] theorem setObj_nv (s : State) (ch o : Nat) (f : SObj → SObj) : (setObj s ch o f).nv = s.nv := rfl
@[simp] theorem setObj_mgmt (s : State) (ch o : Nat) (f : SObj → SObj) : (setObj s ch o f).mgmt = s.mgmt := rfl
@[simp] theorem setObj_hub (s : State) (ch o : Nat) (f : SObj → SObj) : (setObj s ch o f).hub = s.hub := rfl
@[simp] theorem setObj_lostLanes (s : State) (ch o : Nat) (f : SObj → SObj) : (setObj s ch o f).lostLanes = s.lostLanes := rfl
@[simp] theorem setObj_absentLanes (s : State) (ch o : Nat) (f : SObj → SObj) : (setObj s ch o f).absentLanes = s.absentLanes := rfl
@[simp] theorem setObj_goneports (s : State) (ch o : Nat) (f : SObj → SObj) : (setObj s ch o f).goneports = s.goneports := rfl
@[simp] theorem setObj_laid (s : State) (ch o : Nat) (f : SObj → SObj) : (setObj s ch o f).laid = s.laid := rfl
@[simp] theorem setObj_free (s : State) (ch o : Nat) (f : SObj → SObj) : (setObj s ch o f).free = s.free := rfl

/-! `setDist`. -/

@[simp] theorem setDist_pending (s : State) (ch d : Nat) (f : District → District) : (s.setDist ch d f).pending = s.pending := rfl
@[simp] theorem setDist_part (s : State) (ch d : Nat) (f : District → District) : (s.setDist ch d f).part = s.part := rfl
@[simp] theorem setDist_regs (s : State) (ch d : Nat) (f : District → District) : (s.setDist ch d f).regs = s.regs := rfl
@[simp] theorem setDist_half (s : State) (ch d : Nat) (f : District → District) : (s.setDist ch d f).half = s.half := rfl
@[simp] theorem setDist_mem (s : State) (ch d : Nat) (f : District → District) : (s.setDist ch d f).mem = s.mem := rfl
@[simp] theorem setDist_psn (s : State) (ch d : Nat) (f : District → District) : (s.setDist ch d f).psn = s.psn := rfl
@[simp] theorem setDist_tiles (s : State) (ch d : Nat) (f : District → District) : (s.setDist ch d f).tiles = s.tiles := rfl
@[simp] theorem setDist_cls (s : State) (ch d : Nat) (f : District → District) : (s.setDist ch d f).cls = s.cls := rfl
@[simp] theorem setDist_chans (s : State) (ch d : Nat) (f : District → District) : (s.setDist ch d f).chans = s.chans := rfl
@[simp] theorem setDist_rpts (s : State) (ch d : Nat) (f : District → District) : (s.setDist ch d f).rpts = s.rpts := rfl
@[simp] theorem setDist_rptHub (s : State) (ch d : Nat) (f : District → District) : (s.setDist ch d f).rptHub = s.rptHub := rfl
@[simp] theorem setDist_rptHubEp (s : State) (ch d : Nat) (f : District → District) : (s.setDist ch d f).rptHubEp = s.rptHubEp := rfl
@[simp] theorem setDist_loads (s : State) (ch d : Nat) (f : District → District) : (s.setDist ch d f).loads = s.loads := rfl
@[simp] theorem setDist_mons (s : State) (ch d : Nat) (f : District → District) : (s.setDist ch d f).mons = s.mons := rfl
@[simp] theorem setDist_seals (s : State) (ch d : Nat) (f : District → District) : (s.setDist ch d f).seals = s.seals := rfl
@[simp] theorem setDist_port (s : State) (ch d : Nat) (f : District → District) : (s.setDist ch d f).port = s.port := rfl
@[simp] theorem setDist_links (s : State) (ch d : Nat) (f : District → District) : (s.setDist ch d f).links = s.links := rfl
@[simp] theorem setDist_cts (s : State) (ch d : Nat) (f : District → District) : (s.setDist ch d f).cts = s.cts := rfl
@[simp] theorem setDist_fcs (s : State) (ch d : Nat) (f : District → District) : (s.setDist ch d f).fcs = s.fcs := rfl
@[simp] theorem setDist_dailies (s : State) (ch d : Nat) (f : District → District) : (s.setDist ch d f).dailies = s.dailies := rfl
@[simp] theorem setDist_nv (s : State) (ch d : Nat) (f : District → District) : (s.setDist ch d f).nv = s.nv := rfl
@[simp] theorem setDist_mgmt (s : State) (ch d : Nat) (f : District → District) : (s.setDist ch d f).mgmt = s.mgmt := rfl
@[simp] theorem setDist_hub (s : State) (ch d : Nat) (f : District → District) : (s.setDist ch d f).hub = s.hub := rfl
@[simp] theorem setDist_lostLanes (s : State) (ch d : Nat) (f : District → District) : (s.setDist ch d f).lostLanes = s.lostLanes := rfl
@[simp] theorem setDist_absentLanes (s : State) (ch d : Nat) (f : District → District) : (s.setDist ch d f).absentLanes = s.absentLanes := rfl
@[simp] theorem setDist_goneports (s : State) (ch d : Nat) (f : District → District) : (s.setDist ch d f).goneports = s.goneports := rfl
@[simp] theorem setDist_laid (s : State) (ch d : Nat) (f : District → District) : (s.setDist ch d f).laid = s.laid := rfl
@[simp] theorem setDist_free (s : State) (ch d : Nat) (f : District → District) : (s.setDist ch d f).free = s.free := rfl

/-! `districtBusy`. -/

@[simp] theorem districtBusy_pending (s : State) (ch d : Nat) : (districtBusy s ch d).pending = s.pending := rfl
@[simp] theorem districtBusy_part (s : State) (ch d : Nat) : (districtBusy s ch d).part = s.part := rfl
@[simp] theorem districtBusy_regs (s : State) (ch d : Nat) : (districtBusy s ch d).regs = s.regs := rfl
@[simp] theorem districtBusy_half (s : State) (ch d : Nat) : (districtBusy s ch d).half = s.half := rfl
@[simp] theorem districtBusy_mem (s : State) (ch d : Nat) : (districtBusy s ch d).mem = s.mem := rfl
@[simp] theorem districtBusy_psn (s : State) (ch d : Nat) : (districtBusy s ch d).psn = s.psn := rfl
@[simp] theorem districtBusy_tiles (s : State) (ch d : Nat) : (districtBusy s ch d).tiles = s.tiles := rfl
@[simp] theorem districtBusy_cls (s : State) (ch d : Nat) : (districtBusy s ch d).cls = s.cls := rfl
@[simp] theorem districtBusy_chans (s : State) (ch d : Nat) : (districtBusy s ch d).chans = s.chans := rfl
@[simp] theorem districtBusy_rpts (s : State) (ch d : Nat) : (districtBusy s ch d).rpts = s.rpts := rfl
@[simp] theorem districtBusy_rptHub (s : State) (ch d : Nat) : (districtBusy s ch d).rptHub = s.rptHub := rfl
@[simp] theorem districtBusy_rptHubEp (s : State) (ch d : Nat) : (districtBusy s ch d).rptHubEp = s.rptHubEp := rfl
@[simp] theorem districtBusy_loads (s : State) (ch d : Nat) : (districtBusy s ch d).loads = s.loads := rfl
@[simp] theorem districtBusy_mons (s : State) (ch d : Nat) : (districtBusy s ch d).mons = s.mons := rfl
@[simp] theorem districtBusy_seals (s : State) (ch d : Nat) : (districtBusy s ch d).seals = s.seals := rfl
@[simp] theorem districtBusy_port (s : State) (ch d : Nat) : (districtBusy s ch d).port = s.port := rfl
@[simp] theorem districtBusy_links (s : State) (ch d : Nat) : (districtBusy s ch d).links = s.links := rfl
@[simp] theorem districtBusy_cts (s : State) (ch d : Nat) : (districtBusy s ch d).cts = s.cts := rfl
@[simp] theorem districtBusy_fcs (s : State) (ch d : Nat) : (districtBusy s ch d).fcs = s.fcs := rfl
@[simp] theorem districtBusy_dailies (s : State) (ch d : Nat) : (districtBusy s ch d).dailies = s.dailies := rfl
@[simp] theorem districtBusy_nv (s : State) (ch d : Nat) : (districtBusy s ch d).nv = s.nv := rfl
@[simp] theorem districtBusy_mgmt (s : State) (ch d : Nat) : (districtBusy s ch d).mgmt = s.mgmt := rfl
@[simp] theorem districtBusy_hub (s : State) (ch d : Nat) : (districtBusy s ch d).hub = s.hub := rfl
@[simp] theorem districtBusy_lostLanes (s : State) (ch d : Nat) : (districtBusy s ch d).lostLanes = s.lostLanes := rfl
@[simp] theorem districtBusy_absentLanes (s : State) (ch d : Nat) : (districtBusy s ch d).absentLanes = s.absentLanes := rfl
@[simp] theorem districtBusy_goneports (s : State) (ch d : Nat) : (districtBusy s ch d).goneports = s.goneports := rfl
@[simp] theorem districtBusy_laid (s : State) (ch d : Nat) : (districtBusy s ch d).laid = s.laid := rfl
@[simp] theorem districtBusy_free (s : State) (ch d : Nat) : (districtBusy s ch d).free = s.free := rfl

/-! `setMon`. -/

@[simp] theorem setMon_pending (s : State) (ch : Nat) (f : Monitor → Monitor) : (s.setMon ch f).pending = s.pending := rfl
@[simp] theorem setMon_part (s : State) (ch : Nat) (f : Monitor → Monitor) : (s.setMon ch f).part = s.part := rfl
@[simp] theorem setMon_regs (s : State) (ch : Nat) (f : Monitor → Monitor) : (s.setMon ch f).regs = s.regs := rfl
@[simp] theorem setMon_half (s : State) (ch : Nat) (f : Monitor → Monitor) : (s.setMon ch f).half = s.half := rfl
@[simp] theorem setMon_mem (s : State) (ch : Nat) (f : Monitor → Monitor) : (s.setMon ch f).mem = s.mem := rfl
@[simp] theorem setMon_psn (s : State) (ch : Nat) (f : Monitor → Monitor) : (s.setMon ch f).psn = s.psn := rfl
@[simp] theorem setMon_tiles (s : State) (ch : Nat) (f : Monitor → Monitor) : (s.setMon ch f).tiles = s.tiles := rfl
@[simp] theorem setMon_cls (s : State) (ch : Nat) (f : Monitor → Monitor) : (s.setMon ch f).cls = s.cls := rfl
@[simp] theorem setMon_chans (s : State) (ch : Nat) (f : Monitor → Monitor) : (s.setMon ch f).chans = s.chans := rfl
@[simp] theorem setMon_rpts (s : State) (ch : Nat) (f : Monitor → Monitor) : (s.setMon ch f).rpts = s.rpts := rfl
@[simp] theorem setMon_rptHub (s : State) (ch : Nat) (f : Monitor → Monitor) : (s.setMon ch f).rptHub = s.rptHub := rfl
@[simp] theorem setMon_rptHubEp (s : State) (ch : Nat) (f : Monitor → Monitor) : (s.setMon ch f).rptHubEp = s.rptHubEp := rfl
@[simp] theorem setMon_loads (s : State) (ch : Nat) (f : Monitor → Monitor) : (s.setMon ch f).loads = s.loads := rfl
@[simp] theorem setMon_seals (s : State) (ch : Nat) (f : Monitor → Monitor) : (s.setMon ch f).seals = s.seals := rfl
@[simp] theorem setMon_port (s : State) (ch : Nat) (f : Monitor → Monitor) : (s.setMon ch f).port = s.port := rfl
@[simp] theorem setMon_links (s : State) (ch : Nat) (f : Monitor → Monitor) : (s.setMon ch f).links = s.links := rfl
@[simp] theorem setMon_cts (s : State) (ch : Nat) (f : Monitor → Monitor) : (s.setMon ch f).cts = s.cts := rfl
@[simp] theorem setMon_dists (s : State) (ch : Nat) (f : Monitor → Monitor) : (s.setMon ch f).dists = s.dists := rfl
@[simp] theorem setMon_fcs (s : State) (ch : Nat) (f : Monitor → Monitor) : (s.setMon ch f).fcs = s.fcs := rfl
@[simp] theorem setMon_dailies (s : State) (ch : Nat) (f : Monitor → Monitor) : (s.setMon ch f).dailies = s.dailies := rfl
@[simp] theorem setMon_nv (s : State) (ch : Nat) (f : Monitor → Monitor) : (s.setMon ch f).nv = s.nv := rfl
@[simp] theorem setMon_mgmt (s : State) (ch : Nat) (f : Monitor → Monitor) : (s.setMon ch f).mgmt = s.mgmt := rfl
@[simp] theorem setMon_hub (s : State) (ch : Nat) (f : Monitor → Monitor) : (s.setMon ch f).hub = s.hub := rfl
@[simp] theorem setMon_lostLanes (s : State) (ch : Nat) (f : Monitor → Monitor) : (s.setMon ch f).lostLanes = s.lostLanes := rfl
@[simp] theorem setMon_absentLanes (s : State) (ch : Nat) (f : Monitor → Monitor) : (s.setMon ch f).absentLanes = s.absentLanes := rfl
@[simp] theorem setMon_goneports (s : State) (ch : Nat) (f : Monitor → Monitor) : (s.setMon ch f).goneports = s.goneports := rfl
@[simp] theorem setMon_laid (s : State) (ch : Nat) (f : Monitor → Monitor) : (s.setMon ch f).laid = s.laid := rfl
@[simp] theorem setMon_free (s : State) (ch : Nat) (f : Monitor → Monitor) : (s.setMon ch f).free = s.free := rfl

/-! `setLoad`. -/

@[simp] theorem setLoad_pending (s : State) (ch : Nat) (f : LoadSeq → LoadSeq) : (s.setLoad ch f).pending = s.pending := rfl
@[simp] theorem setLoad_part (s : State) (ch : Nat) (f : LoadSeq → LoadSeq) : (s.setLoad ch f).part = s.part := rfl
@[simp] theorem setLoad_regs (s : State) (ch : Nat) (f : LoadSeq → LoadSeq) : (s.setLoad ch f).regs = s.regs := rfl
@[simp] theorem setLoad_half (s : State) (ch : Nat) (f : LoadSeq → LoadSeq) : (s.setLoad ch f).half = s.half := rfl
@[simp] theorem setLoad_mem (s : State) (ch : Nat) (f : LoadSeq → LoadSeq) : (s.setLoad ch f).mem = s.mem := rfl
@[simp] theorem setLoad_psn (s : State) (ch : Nat) (f : LoadSeq → LoadSeq) : (s.setLoad ch f).psn = s.psn := rfl
@[simp] theorem setLoad_tiles (s : State) (ch : Nat) (f : LoadSeq → LoadSeq) : (s.setLoad ch f).tiles = s.tiles := rfl
@[simp] theorem setLoad_cls (s : State) (ch : Nat) (f : LoadSeq → LoadSeq) : (s.setLoad ch f).cls = s.cls := rfl
@[simp] theorem setLoad_chans (s : State) (ch : Nat) (f : LoadSeq → LoadSeq) : (s.setLoad ch f).chans = s.chans := rfl
@[simp] theorem setLoad_rpts (s : State) (ch : Nat) (f : LoadSeq → LoadSeq) : (s.setLoad ch f).rpts = s.rpts := rfl
@[simp] theorem setLoad_rptHub (s : State) (ch : Nat) (f : LoadSeq → LoadSeq) : (s.setLoad ch f).rptHub = s.rptHub := rfl
@[simp] theorem setLoad_rptHubEp (s : State) (ch : Nat) (f : LoadSeq → LoadSeq) : (s.setLoad ch f).rptHubEp = s.rptHubEp := rfl
@[simp] theorem setLoad_mons (s : State) (ch : Nat) (f : LoadSeq → LoadSeq) : (s.setLoad ch f).mons = s.mons := rfl
@[simp] theorem setLoad_seals (s : State) (ch : Nat) (f : LoadSeq → LoadSeq) : (s.setLoad ch f).seals = s.seals := rfl
@[simp] theorem setLoad_port (s : State) (ch : Nat) (f : LoadSeq → LoadSeq) : (s.setLoad ch f).port = s.port := rfl
@[simp] theorem setLoad_links (s : State) (ch : Nat) (f : LoadSeq → LoadSeq) : (s.setLoad ch f).links = s.links := rfl
@[simp] theorem setLoad_cts (s : State) (ch : Nat) (f : LoadSeq → LoadSeq) : (s.setLoad ch f).cts = s.cts := rfl
@[simp] theorem setLoad_dists (s : State) (ch : Nat) (f : LoadSeq → LoadSeq) : (s.setLoad ch f).dists = s.dists := rfl
@[simp] theorem setLoad_fcs (s : State) (ch : Nat) (f : LoadSeq → LoadSeq) : (s.setLoad ch f).fcs = s.fcs := rfl
@[simp] theorem setLoad_dailies (s : State) (ch : Nat) (f : LoadSeq → LoadSeq) : (s.setLoad ch f).dailies = s.dailies := rfl
@[simp] theorem setLoad_nv (s : State) (ch : Nat) (f : LoadSeq → LoadSeq) : (s.setLoad ch f).nv = s.nv := rfl
@[simp] theorem setLoad_mgmt (s : State) (ch : Nat) (f : LoadSeq → LoadSeq) : (s.setLoad ch f).mgmt = s.mgmt := rfl
@[simp] theorem setLoad_hub (s : State) (ch : Nat) (f : LoadSeq → LoadSeq) : (s.setLoad ch f).hub = s.hub := rfl
@[simp] theorem setLoad_lostLanes (s : State) (ch : Nat) (f : LoadSeq → LoadSeq) : (s.setLoad ch f).lostLanes = s.lostLanes := rfl
@[simp] theorem setLoad_absentLanes (s : State) (ch : Nat) (f : LoadSeq → LoadSeq) : (s.setLoad ch f).absentLanes = s.absentLanes := rfl
@[simp] theorem setLoad_goneports (s : State) (ch : Nat) (f : LoadSeq → LoadSeq) : (s.setLoad ch f).goneports = s.goneports := rfl
@[simp] theorem setLoad_laid (s : State) (ch : Nat) (f : LoadSeq → LoadSeq) : (s.setLoad ch f).laid = s.laid := rfl
@[simp] theorem setLoad_free (s : State) (ch : Nat) (f : LoadSeq → LoadSeq) : (s.setLoad ch f).free = s.free := rfl

/-! `setSeal`. -/

@[simp] theorem setSeal_pending (s : State) (ch : Nat) (f : Seal → Seal) : (s.setSeal ch f).pending = s.pending := rfl
@[simp] theorem setSeal_part (s : State) (ch : Nat) (f : Seal → Seal) : (s.setSeal ch f).part = s.part := rfl
@[simp] theorem setSeal_regs (s : State) (ch : Nat) (f : Seal → Seal) : (s.setSeal ch f).regs = s.regs := rfl
@[simp] theorem setSeal_half (s : State) (ch : Nat) (f : Seal → Seal) : (s.setSeal ch f).half = s.half := rfl
@[simp] theorem setSeal_mem (s : State) (ch : Nat) (f : Seal → Seal) : (s.setSeal ch f).mem = s.mem := rfl
@[simp] theorem setSeal_psn (s : State) (ch : Nat) (f : Seal → Seal) : (s.setSeal ch f).psn = s.psn := rfl
@[simp] theorem setSeal_tiles (s : State) (ch : Nat) (f : Seal → Seal) : (s.setSeal ch f).tiles = s.tiles := rfl
@[simp] theorem setSeal_cls (s : State) (ch : Nat) (f : Seal → Seal) : (s.setSeal ch f).cls = s.cls := rfl
@[simp] theorem setSeal_chans (s : State) (ch : Nat) (f : Seal → Seal) : (s.setSeal ch f).chans = s.chans := rfl
@[simp] theorem setSeal_rpts (s : State) (ch : Nat) (f : Seal → Seal) : (s.setSeal ch f).rpts = s.rpts := rfl
@[simp] theorem setSeal_rptHub (s : State) (ch : Nat) (f : Seal → Seal) : (s.setSeal ch f).rptHub = s.rptHub := rfl
@[simp] theorem setSeal_rptHubEp (s : State) (ch : Nat) (f : Seal → Seal) : (s.setSeal ch f).rptHubEp = s.rptHubEp := rfl
@[simp] theorem setSeal_loads (s : State) (ch : Nat) (f : Seal → Seal) : (s.setSeal ch f).loads = s.loads := rfl
@[simp] theorem setSeal_mons (s : State) (ch : Nat) (f : Seal → Seal) : (s.setSeal ch f).mons = s.mons := rfl
@[simp] theorem setSeal_port (s : State) (ch : Nat) (f : Seal → Seal) : (s.setSeal ch f).port = s.port := rfl
@[simp] theorem setSeal_links (s : State) (ch : Nat) (f : Seal → Seal) : (s.setSeal ch f).links = s.links := rfl
@[simp] theorem setSeal_cts (s : State) (ch : Nat) (f : Seal → Seal) : (s.setSeal ch f).cts = s.cts := rfl
@[simp] theorem setSeal_dists (s : State) (ch : Nat) (f : Seal → Seal) : (s.setSeal ch f).dists = s.dists := rfl
@[simp] theorem setSeal_fcs (s : State) (ch : Nat) (f : Seal → Seal) : (s.setSeal ch f).fcs = s.fcs := rfl
@[simp] theorem setSeal_dailies (s : State) (ch : Nat) (f : Seal → Seal) : (s.setSeal ch f).dailies = s.dailies := rfl
@[simp] theorem setSeal_nv (s : State) (ch : Nat) (f : Seal → Seal) : (s.setSeal ch f).nv = s.nv := rfl
@[simp] theorem setSeal_mgmt (s : State) (ch : Nat) (f : Seal → Seal) : (s.setSeal ch f).mgmt = s.mgmt := rfl
@[simp] theorem setSeal_hub (s : State) (ch : Nat) (f : Seal → Seal) : (s.setSeal ch f).hub = s.hub := rfl
@[simp] theorem setSeal_lostLanes (s : State) (ch : Nat) (f : Seal → Seal) : (s.setSeal ch f).lostLanes = s.lostLanes := rfl
@[simp] theorem setSeal_absentLanes (s : State) (ch : Nat) (f : Seal → Seal) : (s.setSeal ch f).absentLanes = s.absentLanes := rfl
@[simp] theorem setSeal_goneports (s : State) (ch : Nat) (f : Seal → Seal) : (s.setSeal ch f).goneports = s.goneports := rfl
@[simp] theorem setSeal_laid (s : State) (ch : Nat) (f : Seal → Seal) : (s.setSeal ch f).laid = s.laid := rfl
@[simp] theorem setSeal_free (s : State) (ch : Nat) (f : Seal → Seal) : (s.setSeal ch f).free = s.free := rfl

/-! `setCt`. -/

@[simp] theorem setCt_pending (s : State) (ch : Nat) (f : Ct → Ct) : (s.setCt ch f).pending = s.pending := rfl
@[simp] theorem setCt_part (s : State) (ch : Nat) (f : Ct → Ct) : (s.setCt ch f).part = s.part := rfl
@[simp] theorem setCt_regs (s : State) (ch : Nat) (f : Ct → Ct) : (s.setCt ch f).regs = s.regs := rfl
@[simp] theorem setCt_half (s : State) (ch : Nat) (f : Ct → Ct) : (s.setCt ch f).half = s.half := rfl
@[simp] theorem setCt_mem (s : State) (ch : Nat) (f : Ct → Ct) : (s.setCt ch f).mem = s.mem := rfl
@[simp] theorem setCt_psn (s : State) (ch : Nat) (f : Ct → Ct) : (s.setCt ch f).psn = s.psn := rfl
@[simp] theorem setCt_tiles (s : State) (ch : Nat) (f : Ct → Ct) : (s.setCt ch f).tiles = s.tiles := rfl
@[simp] theorem setCt_cls (s : State) (ch : Nat) (f : Ct → Ct) : (s.setCt ch f).cls = s.cls := rfl
@[simp] theorem setCt_chans (s : State) (ch : Nat) (f : Ct → Ct) : (s.setCt ch f).chans = s.chans := rfl
@[simp] theorem setCt_rpts (s : State) (ch : Nat) (f : Ct → Ct) : (s.setCt ch f).rpts = s.rpts := rfl
@[simp] theorem setCt_rptHub (s : State) (ch : Nat) (f : Ct → Ct) : (s.setCt ch f).rptHub = s.rptHub := rfl
@[simp] theorem setCt_rptHubEp (s : State) (ch : Nat) (f : Ct → Ct) : (s.setCt ch f).rptHubEp = s.rptHubEp := rfl
@[simp] theorem setCt_loads (s : State) (ch : Nat) (f : Ct → Ct) : (s.setCt ch f).loads = s.loads := rfl
@[simp] theorem setCt_mons (s : State) (ch : Nat) (f : Ct → Ct) : (s.setCt ch f).mons = s.mons := rfl
@[simp] theorem setCt_seals (s : State) (ch : Nat) (f : Ct → Ct) : (s.setCt ch f).seals = s.seals := rfl
@[simp] theorem setCt_port (s : State) (ch : Nat) (f : Ct → Ct) : (s.setCt ch f).port = s.port := rfl
@[simp] theorem setCt_links (s : State) (ch : Nat) (f : Ct → Ct) : (s.setCt ch f).links = s.links := rfl
@[simp] theorem setCt_dists (s : State) (ch : Nat) (f : Ct → Ct) : (s.setCt ch f).dists = s.dists := rfl
@[simp] theorem setCt_fcs (s : State) (ch : Nat) (f : Ct → Ct) : (s.setCt ch f).fcs = s.fcs := rfl
@[simp] theorem setCt_dailies (s : State) (ch : Nat) (f : Ct → Ct) : (s.setCt ch f).dailies = s.dailies := rfl
@[simp] theorem setCt_nv (s : State) (ch : Nat) (f : Ct → Ct) : (s.setCt ch f).nv = s.nv := rfl
@[simp] theorem setCt_mgmt (s : State) (ch : Nat) (f : Ct → Ct) : (s.setCt ch f).mgmt = s.mgmt := rfl
@[simp] theorem setCt_hub (s : State) (ch : Nat) (f : Ct → Ct) : (s.setCt ch f).hub = s.hub := rfl
@[simp] theorem setCt_lostLanes (s : State) (ch : Nat) (f : Ct → Ct) : (s.setCt ch f).lostLanes = s.lostLanes := rfl
@[simp] theorem setCt_absentLanes (s : State) (ch : Nat) (f : Ct → Ct) : (s.setCt ch f).absentLanes = s.absentLanes := rfl
@[simp] theorem setCt_goneports (s : State) (ch : Nat) (f : Ct → Ct) : (s.setCt ch f).goneports = s.goneports := rfl
@[simp] theorem setCt_laid (s : State) (ch : Nat) (f : Ct → Ct) : (s.setCt ch f).laid = s.laid := rfl
@[simp] theorem setCt_free (s : State) (ch : Nat) (f : Ct → Ct) : (s.setCt ch f).free = s.free := rfl

/-! `setFlow`. -/

@[simp] theorem setFlow_pending (s : State) (ch n : Nat) (f : Flow → Flow) : (setFlow s ch n f).pending = s.pending := rfl
@[simp] theorem setFlow_part (s : State) (ch n : Nat) (f : Flow → Flow) : (setFlow s ch n f).part = s.part := rfl
@[simp] theorem setFlow_regs (s : State) (ch n : Nat) (f : Flow → Flow) : (setFlow s ch n f).regs = s.regs := rfl
@[simp] theorem setFlow_half (s : State) (ch n : Nat) (f : Flow → Flow) : (setFlow s ch n f).half = s.half := rfl
@[simp] theorem setFlow_mem (s : State) (ch n : Nat) (f : Flow → Flow) : (setFlow s ch n f).mem = s.mem := rfl
@[simp] theorem setFlow_psn (s : State) (ch n : Nat) (f : Flow → Flow) : (setFlow s ch n f).psn = s.psn := rfl
@[simp] theorem setFlow_tiles (s : State) (ch n : Nat) (f : Flow → Flow) : (setFlow s ch n f).tiles = s.tiles := rfl
@[simp] theorem setFlow_cls (s : State) (ch n : Nat) (f : Flow → Flow) : (setFlow s ch n f).cls = s.cls := rfl
@[simp] theorem setFlow_chans (s : State) (ch n : Nat) (f : Flow → Flow) : (setFlow s ch n f).chans = s.chans := rfl
@[simp] theorem setFlow_rpts (s : State) (ch n : Nat) (f : Flow → Flow) : (setFlow s ch n f).rpts = s.rpts := rfl
@[simp] theorem setFlow_rptHub (s : State) (ch n : Nat) (f : Flow → Flow) : (setFlow s ch n f).rptHub = s.rptHub := rfl
@[simp] theorem setFlow_rptHubEp (s : State) (ch n : Nat) (f : Flow → Flow) : (setFlow s ch n f).rptHubEp = s.rptHubEp := rfl
@[simp] theorem setFlow_loads (s : State) (ch n : Nat) (f : Flow → Flow) : (setFlow s ch n f).loads = s.loads := rfl
@[simp] theorem setFlow_mons (s : State) (ch n : Nat) (f : Flow → Flow) : (setFlow s ch n f).mons = s.mons := rfl
@[simp] theorem setFlow_seals (s : State) (ch n : Nat) (f : Flow → Flow) : (setFlow s ch n f).seals = s.seals := rfl
@[simp] theorem setFlow_port (s : State) (ch n : Nat) (f : Flow → Flow) : (setFlow s ch n f).port = s.port := rfl
@[simp] theorem setFlow_links (s : State) (ch n : Nat) (f : Flow → Flow) : (setFlow s ch n f).links = s.links := rfl
@[simp] theorem setFlow_dists (s : State) (ch n : Nat) (f : Flow → Flow) : (setFlow s ch n f).dists = s.dists := rfl
@[simp] theorem setFlow_fcs (s : State) (ch n : Nat) (f : Flow → Flow) : (setFlow s ch n f).fcs = s.fcs := rfl
@[simp] theorem setFlow_dailies (s : State) (ch n : Nat) (f : Flow → Flow) : (setFlow s ch n f).dailies = s.dailies := rfl
@[simp] theorem setFlow_nv (s : State) (ch n : Nat) (f : Flow → Flow) : (setFlow s ch n f).nv = s.nv := rfl
@[simp] theorem setFlow_mgmt (s : State) (ch n : Nat) (f : Flow → Flow) : (setFlow s ch n f).mgmt = s.mgmt := rfl
@[simp] theorem setFlow_hub (s : State) (ch n : Nat) (f : Flow → Flow) : (setFlow s ch n f).hub = s.hub := rfl
@[simp] theorem setFlow_lostLanes (s : State) (ch n : Nat) (f : Flow → Flow) : (setFlow s ch n f).lostLanes = s.lostLanes := rfl
@[simp] theorem setFlow_absentLanes (s : State) (ch n : Nat) (f : Flow → Flow) : (setFlow s ch n f).absentLanes = s.absentLanes := rfl
@[simp] theorem setFlow_goneports (s : State) (ch n : Nat) (f : Flow → Flow) : (setFlow s ch n f).goneports = s.goneports := rfl
@[simp] theorem setFlow_laid (s : State) (ch n : Nat) (f : Flow → Flow) : (setFlow s ch n f).laid = s.laid := rfl
@[simp] theorem setFlow_free (s : State) (ch n : Nat) (f : Flow → Flow) : (setFlow s ch n f).free = s.free := rfl

/-! `setGroup`. -/

@[simp] theorem setGroup_pending (s : State) (ch n : Nat) (f : Group → Group) : (setGroup s ch n f).pending = s.pending := rfl
@[simp] theorem setGroup_part (s : State) (ch n : Nat) (f : Group → Group) : (setGroup s ch n f).part = s.part := rfl
@[simp] theorem setGroup_regs (s : State) (ch n : Nat) (f : Group → Group) : (setGroup s ch n f).regs = s.regs := rfl
@[simp] theorem setGroup_half (s : State) (ch n : Nat) (f : Group → Group) : (setGroup s ch n f).half = s.half := rfl
@[simp] theorem setGroup_mem (s : State) (ch n : Nat) (f : Group → Group) : (setGroup s ch n f).mem = s.mem := rfl
@[simp] theorem setGroup_psn (s : State) (ch n : Nat) (f : Group → Group) : (setGroup s ch n f).psn = s.psn := rfl
@[simp] theorem setGroup_tiles (s : State) (ch n : Nat) (f : Group → Group) : (setGroup s ch n f).tiles = s.tiles := rfl
@[simp] theorem setGroup_cls (s : State) (ch n : Nat) (f : Group → Group) : (setGroup s ch n f).cls = s.cls := rfl
@[simp] theorem setGroup_chans (s : State) (ch n : Nat) (f : Group → Group) : (setGroup s ch n f).chans = s.chans := rfl
@[simp] theorem setGroup_rpts (s : State) (ch n : Nat) (f : Group → Group) : (setGroup s ch n f).rpts = s.rpts := rfl
@[simp] theorem setGroup_rptHub (s : State) (ch n : Nat) (f : Group → Group) : (setGroup s ch n f).rptHub = s.rptHub := rfl
@[simp] theorem setGroup_rptHubEp (s : State) (ch n : Nat) (f : Group → Group) : (setGroup s ch n f).rptHubEp = s.rptHubEp := rfl
@[simp] theorem setGroup_loads (s : State) (ch n : Nat) (f : Group → Group) : (setGroup s ch n f).loads = s.loads := rfl
@[simp] theorem setGroup_mons (s : State) (ch n : Nat) (f : Group → Group) : (setGroup s ch n f).mons = s.mons := rfl
@[simp] theorem setGroup_seals (s : State) (ch n : Nat) (f : Group → Group) : (setGroup s ch n f).seals = s.seals := rfl
@[simp] theorem setGroup_port (s : State) (ch n : Nat) (f : Group → Group) : (setGroup s ch n f).port = s.port := rfl
@[simp] theorem setGroup_links (s : State) (ch n : Nat) (f : Group → Group) : (setGroup s ch n f).links = s.links := rfl
@[simp] theorem setGroup_dists (s : State) (ch n : Nat) (f : Group → Group) : (setGroup s ch n f).dists = s.dists := rfl
@[simp] theorem setGroup_fcs (s : State) (ch n : Nat) (f : Group → Group) : (setGroup s ch n f).fcs = s.fcs := rfl
@[simp] theorem setGroup_dailies (s : State) (ch n : Nat) (f : Group → Group) : (setGroup s ch n f).dailies = s.dailies := rfl
@[simp] theorem setGroup_nv (s : State) (ch n : Nat) (f : Group → Group) : (setGroup s ch n f).nv = s.nv := rfl
@[simp] theorem setGroup_mgmt (s : State) (ch n : Nat) (f : Group → Group) : (setGroup s ch n f).mgmt = s.mgmt := rfl
@[simp] theorem setGroup_hub (s : State) (ch n : Nat) (f : Group → Group) : (setGroup s ch n f).hub = s.hub := rfl
@[simp] theorem setGroup_lostLanes (s : State) (ch n : Nat) (f : Group → Group) : (setGroup s ch n f).lostLanes = s.lostLanes := rfl
@[simp] theorem setGroup_absentLanes (s : State) (ch n : Nat) (f : Group → Group) : (setGroup s ch n f).absentLanes = s.absentLanes := rfl
@[simp] theorem setGroup_goneports (s : State) (ch n : Nat) (f : Group → Group) : (setGroup s ch n f).goneports = s.goneports := rfl
@[simp] theorem setGroup_laid (s : State) (ch n : Nat) (f : Group → Group) : (setGroup s ch n f).laid = s.laid := rfl
@[simp] theorem setGroup_free (s : State) (ch n : Nat) (f : Group → Group) : (setGroup s ch n f).free = s.free := rfl

/-! `setLk`. -/

@[simp] theorem setLk_pending (s : State) (k : LinkId) (f : FdlEnd → FdlEnd) : (s.setLk k f).pending = s.pending := rfl
@[simp] theorem setLk_part (s : State) (k : LinkId) (f : FdlEnd → FdlEnd) : (s.setLk k f).part = s.part := rfl
@[simp] theorem setLk_regs (s : State) (k : LinkId) (f : FdlEnd → FdlEnd) : (s.setLk k f).regs = s.regs := rfl
@[simp] theorem setLk_half (s : State) (k : LinkId) (f : FdlEnd → FdlEnd) : (s.setLk k f).half = s.half := rfl
@[simp] theorem setLk_mem (s : State) (k : LinkId) (f : FdlEnd → FdlEnd) : (s.setLk k f).mem = s.mem := rfl
@[simp] theorem setLk_psn (s : State) (k : LinkId) (f : FdlEnd → FdlEnd) : (s.setLk k f).psn = s.psn := rfl
@[simp] theorem setLk_tiles (s : State) (k : LinkId) (f : FdlEnd → FdlEnd) : (s.setLk k f).tiles = s.tiles := rfl
@[simp] theorem setLk_cls (s : State) (k : LinkId) (f : FdlEnd → FdlEnd) : (s.setLk k f).cls = s.cls := rfl
@[simp] theorem setLk_chans (s : State) (k : LinkId) (f : FdlEnd → FdlEnd) : (s.setLk k f).chans = s.chans := rfl
@[simp] theorem setLk_rpts (s : State) (k : LinkId) (f : FdlEnd → FdlEnd) : (s.setLk k f).rpts = s.rpts := rfl
@[simp] theorem setLk_rptHub (s : State) (k : LinkId) (f : FdlEnd → FdlEnd) : (s.setLk k f).rptHub = s.rptHub := rfl
@[simp] theorem setLk_rptHubEp (s : State) (k : LinkId) (f : FdlEnd → FdlEnd) : (s.setLk k f).rptHubEp = s.rptHubEp := rfl
@[simp] theorem setLk_loads (s : State) (k : LinkId) (f : FdlEnd → FdlEnd) : (s.setLk k f).loads = s.loads := rfl
@[simp] theorem setLk_mons (s : State) (k : LinkId) (f : FdlEnd → FdlEnd) : (s.setLk k f).mons = s.mons := rfl
@[simp] theorem setLk_seals (s : State) (k : LinkId) (f : FdlEnd → FdlEnd) : (s.setLk k f).seals = s.seals := rfl
@[simp] theorem setLk_port (s : State) (k : LinkId) (f : FdlEnd → FdlEnd) : (s.setLk k f).port = s.port := rfl
@[simp] theorem setLk_cts (s : State) (k : LinkId) (f : FdlEnd → FdlEnd) : (s.setLk k f).cts = s.cts := rfl
@[simp] theorem setLk_dists (s : State) (k : LinkId) (f : FdlEnd → FdlEnd) : (s.setLk k f).dists = s.dists := rfl
@[simp] theorem setLk_fcs (s : State) (k : LinkId) (f : FdlEnd → FdlEnd) : (s.setLk k f).fcs = s.fcs := rfl
@[simp] theorem setLk_dailies (s : State) (k : LinkId) (f : FdlEnd → FdlEnd) : (s.setLk k f).dailies = s.dailies := rfl
@[simp] theorem setLk_nv (s : State) (k : LinkId) (f : FdlEnd → FdlEnd) : (s.setLk k f).nv = s.nv := rfl
@[simp] theorem setLk_mgmt (s : State) (k : LinkId) (f : FdlEnd → FdlEnd) : (s.setLk k f).mgmt = s.mgmt := rfl
@[simp] theorem setLk_hub (s : State) (k : LinkId) (f : FdlEnd → FdlEnd) : (s.setLk k f).hub = s.hub := rfl
@[simp] theorem setLk_lostLanes (s : State) (k : LinkId) (f : FdlEnd → FdlEnd) : (s.setLk k f).lostLanes = s.lostLanes := rfl
@[simp] theorem setLk_absentLanes (s : State) (k : LinkId) (f : FdlEnd → FdlEnd) : (s.setLk k f).absentLanes = s.absentLanes := rfl
@[simp] theorem setLk_goneports (s : State) (k : LinkId) (f : FdlEnd → FdlEnd) : (s.setLk k f).goneports = s.goneports := rfl
@[simp] theorem setLk_laid (s : State) (k : LinkId) (f : FdlEnd → FdlEnd) : (s.setLk k f).laid = s.laid := rfl
@[simp] theorem setLk_free (s : State) (k : LinkId) (f : FdlEnd → FdlEnd) : (s.setLk k f).free = s.free := rfl

/-! `setFc`. -/

@[simp] theorem setFc_pending (s : State) (n : Nat) (f : FaultCtl → FaultCtl) : (s.setFc n f).pending = s.pending := rfl
@[simp] theorem setFc_part (s : State) (n : Nat) (f : FaultCtl → FaultCtl) : (s.setFc n f).part = s.part := rfl
@[simp] theorem setFc_regs (s : State) (n : Nat) (f : FaultCtl → FaultCtl) : (s.setFc n f).regs = s.regs := rfl
@[simp] theorem setFc_half (s : State) (n : Nat) (f : FaultCtl → FaultCtl) : (s.setFc n f).half = s.half := rfl
@[simp] theorem setFc_mem (s : State) (n : Nat) (f : FaultCtl → FaultCtl) : (s.setFc n f).mem = s.mem := rfl
@[simp] theorem setFc_psn (s : State) (n : Nat) (f : FaultCtl → FaultCtl) : (s.setFc n f).psn = s.psn := rfl
@[simp] theorem setFc_tiles (s : State) (n : Nat) (f : FaultCtl → FaultCtl) : (s.setFc n f).tiles = s.tiles := rfl
@[simp] theorem setFc_cls (s : State) (n : Nat) (f : FaultCtl → FaultCtl) : (s.setFc n f).cls = s.cls := rfl
@[simp] theorem setFc_chans (s : State) (n : Nat) (f : FaultCtl → FaultCtl) : (s.setFc n f).chans = s.chans := rfl
@[simp] theorem setFc_rpts (s : State) (n : Nat) (f : FaultCtl → FaultCtl) : (s.setFc n f).rpts = s.rpts := rfl
@[simp] theorem setFc_rptHub (s : State) (n : Nat) (f : FaultCtl → FaultCtl) : (s.setFc n f).rptHub = s.rptHub := rfl
@[simp] theorem setFc_rptHubEp (s : State) (n : Nat) (f : FaultCtl → FaultCtl) : (s.setFc n f).rptHubEp = s.rptHubEp := rfl
@[simp] theorem setFc_loads (s : State) (n : Nat) (f : FaultCtl → FaultCtl) : (s.setFc n f).loads = s.loads := rfl
@[simp] theorem setFc_mons (s : State) (n : Nat) (f : FaultCtl → FaultCtl) : (s.setFc n f).mons = s.mons := rfl
@[simp] theorem setFc_seals (s : State) (n : Nat) (f : FaultCtl → FaultCtl) : (s.setFc n f).seals = s.seals := rfl
@[simp] theorem setFc_port (s : State) (n : Nat) (f : FaultCtl → FaultCtl) : (s.setFc n f).port = s.port := rfl
@[simp] theorem setFc_links (s : State) (n : Nat) (f : FaultCtl → FaultCtl) : (s.setFc n f).links = s.links := rfl
@[simp] theorem setFc_cts (s : State) (n : Nat) (f : FaultCtl → FaultCtl) : (s.setFc n f).cts = s.cts := rfl
@[simp] theorem setFc_dists (s : State) (n : Nat) (f : FaultCtl → FaultCtl) : (s.setFc n f).dists = s.dists := rfl
@[simp] theorem setFc_dailies (s : State) (n : Nat) (f : FaultCtl → FaultCtl) : (s.setFc n f).dailies = s.dailies := rfl
@[simp] theorem setFc_nv (s : State) (n : Nat) (f : FaultCtl → FaultCtl) : (s.setFc n f).nv = s.nv := rfl
@[simp] theorem setFc_mgmt (s : State) (n : Nat) (f : FaultCtl → FaultCtl) : (s.setFc n f).mgmt = s.mgmt := rfl
@[simp] theorem setFc_hub (s : State) (n : Nat) (f : FaultCtl → FaultCtl) : (s.setFc n f).hub = s.hub := rfl
@[simp] theorem setFc_lostLanes (s : State) (n : Nat) (f : FaultCtl → FaultCtl) : (s.setFc n f).lostLanes = s.lostLanes := rfl
@[simp] theorem setFc_absentLanes (s : State) (n : Nat) (f : FaultCtl → FaultCtl) : (s.setFc n f).absentLanes = s.absentLanes := rfl
@[simp] theorem setFc_goneports (s : State) (n : Nat) (f : FaultCtl → FaultCtl) : (s.setFc n f).goneports = s.goneports := rfl
@[simp] theorem setFc_laid (s : State) (n : Nat) (f : FaultCtl → FaultCtl) : (s.setFc n f).laid = s.laid := rfl
@[simp] theorem setFc_free (s : State) (n : Nat) (f : FaultCtl → FaultCtl) : (s.setFc n f).free = s.free := rfl

/-! `setDly`. -/

@[simp] theorem setDly_pending (s : State) (ch : Nat) (f : Dailies → Dailies) : (s.setDly ch f).pending = s.pending := rfl
@[simp] theorem setDly_part (s : State) (ch : Nat) (f : Dailies → Dailies) : (s.setDly ch f).part = s.part := rfl
@[simp] theorem setDly_regs (s : State) (ch : Nat) (f : Dailies → Dailies) : (s.setDly ch f).regs = s.regs := rfl
@[simp] theorem setDly_half (s : State) (ch : Nat) (f : Dailies → Dailies) : (s.setDly ch f).half = s.half := rfl
@[simp] theorem setDly_mem (s : State) (ch : Nat) (f : Dailies → Dailies) : (s.setDly ch f).mem = s.mem := rfl
@[simp] theorem setDly_psn (s : State) (ch : Nat) (f : Dailies → Dailies) : (s.setDly ch f).psn = s.psn := rfl
@[simp] theorem setDly_tiles (s : State) (ch : Nat) (f : Dailies → Dailies) : (s.setDly ch f).tiles = s.tiles := rfl
@[simp] theorem setDly_cls (s : State) (ch : Nat) (f : Dailies → Dailies) : (s.setDly ch f).cls = s.cls := rfl
@[simp] theorem setDly_chans (s : State) (ch : Nat) (f : Dailies → Dailies) : (s.setDly ch f).chans = s.chans := rfl
@[simp] theorem setDly_rpts (s : State) (ch : Nat) (f : Dailies → Dailies) : (s.setDly ch f).rpts = s.rpts := rfl
@[simp] theorem setDly_rptHub (s : State) (ch : Nat) (f : Dailies → Dailies) : (s.setDly ch f).rptHub = s.rptHub := rfl
@[simp] theorem setDly_rptHubEp (s : State) (ch : Nat) (f : Dailies → Dailies) : (s.setDly ch f).rptHubEp = s.rptHubEp := rfl
@[simp] theorem setDly_loads (s : State) (ch : Nat) (f : Dailies → Dailies) : (s.setDly ch f).loads = s.loads := rfl
@[simp] theorem setDly_mons (s : State) (ch : Nat) (f : Dailies → Dailies) : (s.setDly ch f).mons = s.mons := rfl
@[simp] theorem setDly_seals (s : State) (ch : Nat) (f : Dailies → Dailies) : (s.setDly ch f).seals = s.seals := rfl
@[simp] theorem setDly_port (s : State) (ch : Nat) (f : Dailies → Dailies) : (s.setDly ch f).port = s.port := rfl
@[simp] theorem setDly_links (s : State) (ch : Nat) (f : Dailies → Dailies) : (s.setDly ch f).links = s.links := rfl
@[simp] theorem setDly_cts (s : State) (ch : Nat) (f : Dailies → Dailies) : (s.setDly ch f).cts = s.cts := rfl
@[simp] theorem setDly_dists (s : State) (ch : Nat) (f : Dailies → Dailies) : (s.setDly ch f).dists = s.dists := rfl
@[simp] theorem setDly_fcs (s : State) (ch : Nat) (f : Dailies → Dailies) : (s.setDly ch f).fcs = s.fcs := rfl
@[simp] theorem setDly_nv (s : State) (ch : Nat) (f : Dailies → Dailies) : (s.setDly ch f).nv = s.nv := rfl
@[simp] theorem setDly_mgmt (s : State) (ch : Nat) (f : Dailies → Dailies) : (s.setDly ch f).mgmt = s.mgmt := rfl
@[simp] theorem setDly_hub (s : State) (ch : Nat) (f : Dailies → Dailies) : (s.setDly ch f).hub = s.hub := rfl
@[simp] theorem setDly_lostLanes (s : State) (ch : Nat) (f : Dailies → Dailies) : (s.setDly ch f).lostLanes = s.lostLanes := rfl
@[simp] theorem setDly_absentLanes (s : State) (ch : Nat) (f : Dailies → Dailies) : (s.setDly ch f).absentLanes = s.absentLanes := rfl
@[simp] theorem setDly_goneports (s : State) (ch : Nat) (f : Dailies → Dailies) : (s.setDly ch f).goneports = s.goneports := rfl
@[simp] theorem setDly_laid (s : State) (ch : Nat) (f : Dailies → Dailies) : (s.setDly ch f).laid = s.laid := rfl
@[simp] theorem setDly_free (s : State) (ch : Nat) (f : Dailies → Dailies) : (s.setDly ch f).free = s.free := rfl

/-! `setFn`. -/

@[simp] theorem setFn_pending (s : State) (n : Nat) (f : HostFn → HostFn) : (s.setFn n f).pending = s.pending := rfl
@[simp] theorem setFn_part (s : State) (n : Nat) (f : HostFn → HostFn) : (s.setFn n f).part = s.part := rfl
@[simp] theorem setFn_regs (s : State) (n : Nat) (f : HostFn → HostFn) : (s.setFn n f).regs = s.regs := rfl
@[simp] theorem setFn_half (s : State) (n : Nat) (f : HostFn → HostFn) : (s.setFn n f).half = s.half := rfl
@[simp] theorem setFn_mem (s : State) (n : Nat) (f : HostFn → HostFn) : (s.setFn n f).mem = s.mem := rfl
@[simp] theorem setFn_psn (s : State) (n : Nat) (f : HostFn → HostFn) : (s.setFn n f).psn = s.psn := rfl
@[simp] theorem setFn_tiles (s : State) (n : Nat) (f : HostFn → HostFn) : (s.setFn n f).tiles = s.tiles := rfl
@[simp] theorem setFn_cls (s : State) (n : Nat) (f : HostFn → HostFn) : (s.setFn n f).cls = s.cls := rfl
@[simp] theorem setFn_chans (s : State) (n : Nat) (f : HostFn → HostFn) : (s.setFn n f).chans = s.chans := rfl
@[simp] theorem setFn_rpts (s : State) (n : Nat) (f : HostFn → HostFn) : (s.setFn n f).rpts = s.rpts := rfl
@[simp] theorem setFn_rptHub (s : State) (n : Nat) (f : HostFn → HostFn) : (s.setFn n f).rptHub = s.rptHub := rfl
@[simp] theorem setFn_rptHubEp (s : State) (n : Nat) (f : HostFn → HostFn) : (s.setFn n f).rptHubEp = s.rptHubEp := rfl
@[simp] theorem setFn_loads (s : State) (n : Nat) (f : HostFn → HostFn) : (s.setFn n f).loads = s.loads := rfl
@[simp] theorem setFn_mons (s : State) (n : Nat) (f : HostFn → HostFn) : (s.setFn n f).mons = s.mons := rfl
@[simp] theorem setFn_seals (s : State) (n : Nat) (f : HostFn → HostFn) : (s.setFn n f).seals = s.seals := rfl
@[simp] theorem setFn_links (s : State) (n : Nat) (f : HostFn → HostFn) : (s.setFn n f).links = s.links := rfl
@[simp] theorem setFn_cts (s : State) (n : Nat) (f : HostFn → HostFn) : (s.setFn n f).cts = s.cts := rfl
@[simp] theorem setFn_dists (s : State) (n : Nat) (f : HostFn → HostFn) : (s.setFn n f).dists = s.dists := rfl
@[simp] theorem setFn_fcs (s : State) (n : Nat) (f : HostFn → HostFn) : (s.setFn n f).fcs = s.fcs := rfl
@[simp] theorem setFn_dailies (s : State) (n : Nat) (f : HostFn → HostFn) : (s.setFn n f).dailies = s.dailies := rfl
@[simp] theorem setFn_nv (s : State) (n : Nat) (f : HostFn → HostFn) : (s.setFn n f).nv = s.nv := rfl
@[simp] theorem setFn_mgmt (s : State) (n : Nat) (f : HostFn → HostFn) : (s.setFn n f).mgmt = s.mgmt := rfl
@[simp] theorem setFn_hub (s : State) (n : Nat) (f : HostFn → HostFn) : (s.setFn n f).hub = s.hub := rfl
@[simp] theorem setFn_lostLanes (s : State) (n : Nat) (f : HostFn → HostFn) : (s.setFn n f).lostLanes = s.lostLanes := rfl
@[simp] theorem setFn_absentLanes (s : State) (n : Nat) (f : HostFn → HostFn) : (s.setFn n f).absentLanes = s.absentLanes := rfl
@[simp] theorem setFn_goneports (s : State) (n : Nat) (f : HostFn → HostFn) : (s.setFn n f).goneports = s.goneports := rfl
@[simp] theorem setFn_laid (s : State) (n : Nat) (f : HostFn → HostFn) : (s.setFn n f).laid = s.laid := rfl
@[simp] theorem setFn_free (s : State) (n : Nat) (f : HostFn → HostFn) : (s.setFn n f).free = s.free := rfl

/-! `setRing`. -/

@[simp] theorem setRing_pending (s : State) (n r : Nat) (f : Ring → Ring) : (s.setRing n r f).pending = s.pending := rfl
@[simp] theorem setRing_part (s : State) (n r : Nat) (f : Ring → Ring) : (s.setRing n r f).part = s.part := rfl
@[simp] theorem setRing_regs (s : State) (n r : Nat) (f : Ring → Ring) : (s.setRing n r f).regs = s.regs := rfl
@[simp] theorem setRing_half (s : State) (n r : Nat) (f : Ring → Ring) : (s.setRing n r f).half = s.half := rfl
@[simp] theorem setRing_mem (s : State) (n r : Nat) (f : Ring → Ring) : (s.setRing n r f).mem = s.mem := rfl
@[simp] theorem setRing_psn (s : State) (n r : Nat) (f : Ring → Ring) : (s.setRing n r f).psn = s.psn := rfl
@[simp] theorem setRing_tiles (s : State) (n r : Nat) (f : Ring → Ring) : (s.setRing n r f).tiles = s.tiles := rfl
@[simp] theorem setRing_cls (s : State) (n r : Nat) (f : Ring → Ring) : (s.setRing n r f).cls = s.cls := rfl
@[simp] theorem setRing_chans (s : State) (n r : Nat) (f : Ring → Ring) : (s.setRing n r f).chans = s.chans := rfl
@[simp] theorem setRing_rpts (s : State) (n r : Nat) (f : Ring → Ring) : (s.setRing n r f).rpts = s.rpts := rfl
@[simp] theorem setRing_rptHub (s : State) (n r : Nat) (f : Ring → Ring) : (s.setRing n r f).rptHub = s.rptHub := rfl
@[simp] theorem setRing_rptHubEp (s : State) (n r : Nat) (f : Ring → Ring) : (s.setRing n r f).rptHubEp = s.rptHubEp := rfl
@[simp] theorem setRing_loads (s : State) (n r : Nat) (f : Ring → Ring) : (s.setRing n r f).loads = s.loads := rfl
@[simp] theorem setRing_mons (s : State) (n r : Nat) (f : Ring → Ring) : (s.setRing n r f).mons = s.mons := rfl
@[simp] theorem setRing_seals (s : State) (n r : Nat) (f : Ring → Ring) : (s.setRing n r f).seals = s.seals := rfl
@[simp] theorem setRing_links (s : State) (n r : Nat) (f : Ring → Ring) : (s.setRing n r f).links = s.links := rfl
@[simp] theorem setRing_cts (s : State) (n r : Nat) (f : Ring → Ring) : (s.setRing n r f).cts = s.cts := rfl
@[simp] theorem setRing_dists (s : State) (n r : Nat) (f : Ring → Ring) : (s.setRing n r f).dists = s.dists := rfl
@[simp] theorem setRing_fcs (s : State) (n r : Nat) (f : Ring → Ring) : (s.setRing n r f).fcs = s.fcs := rfl
@[simp] theorem setRing_dailies (s : State) (n r : Nat) (f : Ring → Ring) : (s.setRing n r f).dailies = s.dailies := rfl
@[simp] theorem setRing_nv (s : State) (n r : Nat) (f : Ring → Ring) : (s.setRing n r f).nv = s.nv := rfl
@[simp] theorem setRing_mgmt (s : State) (n r : Nat) (f : Ring → Ring) : (s.setRing n r f).mgmt = s.mgmt := rfl
@[simp] theorem setRing_hub (s : State) (n r : Nat) (f : Ring → Ring) : (s.setRing n r f).hub = s.hub := rfl
@[simp] theorem setRing_lostLanes (s : State) (n r : Nat) (f : Ring → Ring) : (s.setRing n r f).lostLanes = s.lostLanes := rfl
@[simp] theorem setRing_absentLanes (s : State) (n r : Nat) (f : Ring → Ring) : (s.setRing n r f).absentLanes = s.absentLanes := rfl
@[simp] theorem setRing_goneports (s : State) (n r : Nat) (f : Ring → Ring) : (s.setRing n r f).goneports = s.goneports := rfl
@[simp] theorem setRing_laid (s : State) (n r : Nat) (f : Ring → Ring) : (s.setRing n r f).laid = s.laid := rfl
@[simp] theorem setRing_free (s : State) (n r : Nat) (f : Ring → Ring) : (s.setRing n r f).free = s.free := rfl

/-! `hostOut`. -/

@[simp] theorem hostOut_pending (s : State) (o : HostOut) : (hostOut s o).pending = s.pending := rfl
@[simp] theorem hostOut_part (s : State) (o : HostOut) : (hostOut s o).part = s.part := rfl
@[simp] theorem hostOut_regs (s : State) (o : HostOut) : (hostOut s o).regs = s.regs := rfl
@[simp] theorem hostOut_half (s : State) (o : HostOut) : (hostOut s o).half = s.half := rfl
@[simp] theorem hostOut_mem (s : State) (o : HostOut) : (hostOut s o).mem = s.mem := rfl
@[simp] theorem hostOut_psn (s : State) (o : HostOut) : (hostOut s o).psn = s.psn := rfl
@[simp] theorem hostOut_tiles (s : State) (o : HostOut) : (hostOut s o).tiles = s.tiles := rfl
@[simp] theorem hostOut_cls (s : State) (o : HostOut) : (hostOut s o).cls = s.cls := rfl
@[simp] theorem hostOut_chans (s : State) (o : HostOut) : (hostOut s o).chans = s.chans := rfl
@[simp] theorem hostOut_rpts (s : State) (o : HostOut) : (hostOut s o).rpts = s.rpts := rfl
@[simp] theorem hostOut_rptHub (s : State) (o : HostOut) : (hostOut s o).rptHub = s.rptHub := rfl
@[simp] theorem hostOut_rptHubEp (s : State) (o : HostOut) : (hostOut s o).rptHubEp = s.rptHubEp := rfl
@[simp] theorem hostOut_loads (s : State) (o : HostOut) : (hostOut s o).loads = s.loads := rfl
@[simp] theorem hostOut_mons (s : State) (o : HostOut) : (hostOut s o).mons = s.mons := rfl
@[simp] theorem hostOut_seals (s : State) (o : HostOut) : (hostOut s o).seals = s.seals := rfl
@[simp] theorem hostOut_links (s : State) (o : HostOut) : (hostOut s o).links = s.links := rfl
@[simp] theorem hostOut_cts (s : State) (o : HostOut) : (hostOut s o).cts = s.cts := rfl
@[simp] theorem hostOut_dists (s : State) (o : HostOut) : (hostOut s o).dists = s.dists := rfl
@[simp] theorem hostOut_fcs (s : State) (o : HostOut) : (hostOut s o).fcs = s.fcs := rfl
@[simp] theorem hostOut_dailies (s : State) (o : HostOut) : (hostOut s o).dailies = s.dailies := rfl
@[simp] theorem hostOut_nv (s : State) (o : HostOut) : (hostOut s o).nv = s.nv := rfl
@[simp] theorem hostOut_mgmt (s : State) (o : HostOut) : (hostOut s o).mgmt = s.mgmt := rfl
@[simp] theorem hostOut_hub (s : State) (o : HostOut) : (hostOut s o).hub = s.hub := rfl
@[simp] theorem hostOut_lostLanes (s : State) (o : HostOut) : (hostOut s o).lostLanes = s.lostLanes := rfl
@[simp] theorem hostOut_absentLanes (s : State) (o : HostOut) : (hostOut s o).absentLanes = s.absentLanes := rfl
@[simp] theorem hostOut_goneports (s : State) (o : HostOut) : (hostOut s o).goneports = s.goneports := rfl
@[simp] theorem hostOut_laid (s : State) (o : HostOut) : (hostOut s o).laid = s.laid := rfl
@[simp] theorem hostOut_free (s : State) (o : HostOut) : (hostOut s o).free = s.free := rfl

/-! `markPoison`. -/

@[simp] theorem markPoison_pending (s : State) (a : Nat) : (s.markPoison a).pending = s.pending := rfl
@[simp] theorem markPoison_part (s : State) (a : Nat) : (s.markPoison a).part = s.part := rfl
@[simp] theorem markPoison_regs (s : State) (a : Nat) : (s.markPoison a).regs = s.regs := rfl
@[simp] theorem markPoison_half (s : State) (a : Nat) : (s.markPoison a).half = s.half := rfl
@[simp] theorem markPoison_mem (s : State) (a : Nat) : (s.markPoison a).mem = s.mem := rfl
@[simp] theorem markPoison_tiles (s : State) (a : Nat) : (s.markPoison a).tiles = s.tiles := rfl
@[simp] theorem markPoison_cls (s : State) (a : Nat) : (s.markPoison a).cls = s.cls := rfl
@[simp] theorem markPoison_chans (s : State) (a : Nat) : (s.markPoison a).chans = s.chans := rfl
@[simp] theorem markPoison_rpts (s : State) (a : Nat) : (s.markPoison a).rpts = s.rpts := rfl
@[simp] theorem markPoison_rptHub (s : State) (a : Nat) : (s.markPoison a).rptHub = s.rptHub := rfl
@[simp] theorem markPoison_rptHubEp (s : State) (a : Nat) : (s.markPoison a).rptHubEp = s.rptHubEp := rfl
@[simp] theorem markPoison_loads (s : State) (a : Nat) : (s.markPoison a).loads = s.loads := rfl
@[simp] theorem markPoison_mons (s : State) (a : Nat) : (s.markPoison a).mons = s.mons := rfl
@[simp] theorem markPoison_seals (s : State) (a : Nat) : (s.markPoison a).seals = s.seals := rfl
@[simp] theorem markPoison_port (s : State) (a : Nat) : (s.markPoison a).port = s.port := rfl
@[simp] theorem markPoison_links (s : State) (a : Nat) : (s.markPoison a).links = s.links := rfl
@[simp] theorem markPoison_cts (s : State) (a : Nat) : (s.markPoison a).cts = s.cts := rfl
@[simp] theorem markPoison_dists (s : State) (a : Nat) : (s.markPoison a).dists = s.dists := rfl
@[simp] theorem markPoison_fcs (s : State) (a : Nat) : (s.markPoison a).fcs = s.fcs := rfl
@[simp] theorem markPoison_dailies (s : State) (a : Nat) : (s.markPoison a).dailies = s.dailies := rfl
@[simp] theorem markPoison_nv (s : State) (a : Nat) : (s.markPoison a).nv = s.nv := rfl
@[simp] theorem markPoison_mgmt (s : State) (a : Nat) : (s.markPoison a).mgmt = s.mgmt := rfl
@[simp] theorem markPoison_hub (s : State) (a : Nat) : (s.markPoison a).hub = s.hub := rfl
@[simp] theorem markPoison_lostLanes (s : State) (a : Nat) : (s.markPoison a).lostLanes = s.lostLanes := rfl
@[simp] theorem markPoison_absentLanes (s : State) (a : Nat) : (s.markPoison a).absentLanes = s.absentLanes := rfl
@[simp] theorem markPoison_goneports (s : State) (a : Nat) : (s.markPoison a).goneports = s.goneports := rfl
@[simp] theorem markPoison_laid (s : State) (a : Nat) : (s.markPoison a).laid = s.laid := rfl
@[simp] theorem markPoison_free (s : State) (a : Nat) : (s.markPoison a).free = s.free := rfl

/-! `zeroMem`. -/

@[simp] theorem zeroMem_pending (s : State) (a n : Nat) : (s.zeroMem a n).pending = s.pending := rfl
@[simp] theorem zeroMem_part (s : State) (a n : Nat) : (s.zeroMem a n).part = s.part := rfl
@[simp] theorem zeroMem_regs (s : State) (a n : Nat) : (s.zeroMem a n).regs = s.regs := rfl
@[simp] theorem zeroMem_half (s : State) (a n : Nat) : (s.zeroMem a n).half = s.half := rfl
@[simp] theorem zeroMem_tiles (s : State) (a n : Nat) : (s.zeroMem a n).tiles = s.tiles := rfl
@[simp] theorem zeroMem_cls (s : State) (a n : Nat) : (s.zeroMem a n).cls = s.cls := rfl
@[simp] theorem zeroMem_chans (s : State) (a n : Nat) : (s.zeroMem a n).chans = s.chans := rfl
@[simp] theorem zeroMem_rpts (s : State) (a n : Nat) : (s.zeroMem a n).rpts = s.rpts := rfl
@[simp] theorem zeroMem_rptHub (s : State) (a n : Nat) : (s.zeroMem a n).rptHub = s.rptHub := rfl
@[simp] theorem zeroMem_rptHubEp (s : State) (a n : Nat) : (s.zeroMem a n).rptHubEp = s.rptHubEp := rfl
@[simp] theorem zeroMem_loads (s : State) (a n : Nat) : (s.zeroMem a n).loads = s.loads := rfl
@[simp] theorem zeroMem_mons (s : State) (a n : Nat) : (s.zeroMem a n).mons = s.mons := rfl
@[simp] theorem zeroMem_seals (s : State) (a n : Nat) : (s.zeroMem a n).seals = s.seals := rfl
@[simp] theorem zeroMem_port (s : State) (a n : Nat) : (s.zeroMem a n).port = s.port := rfl
@[simp] theorem zeroMem_links (s : State) (a n : Nat) : (s.zeroMem a n).links = s.links := rfl
@[simp] theorem zeroMem_cts (s : State) (a n : Nat) : (s.zeroMem a n).cts = s.cts := rfl
@[simp] theorem zeroMem_dists (s : State) (a n : Nat) : (s.zeroMem a n).dists = s.dists := rfl
@[simp] theorem zeroMem_fcs (s : State) (a n : Nat) : (s.zeroMem a n).fcs = s.fcs := rfl
@[simp] theorem zeroMem_dailies (s : State) (a n : Nat) : (s.zeroMem a n).dailies = s.dailies := rfl
@[simp] theorem zeroMem_nv (s : State) (a n : Nat) : (s.zeroMem a n).nv = s.nv := rfl
@[simp] theorem zeroMem_mgmt (s : State) (a n : Nat) : (s.zeroMem a n).mgmt = s.mgmt := rfl
@[simp] theorem zeroMem_hub (s : State) (a n : Nat) : (s.zeroMem a n).hub = s.hub := rfl
@[simp] theorem zeroMem_lostLanes (s : State) (a n : Nat) : (s.zeroMem a n).lostLanes = s.lostLanes := rfl
@[simp] theorem zeroMem_absentLanes (s : State) (a n : Nat) : (s.zeroMem a n).absentLanes = s.absentLanes := rfl
@[simp] theorem zeroMem_goneports (s : State) (a n : Nat) : (s.zeroMem a n).goneports = s.goneports := rfl
@[simp] theorem zeroMem_laid (s : State) (a n : Nat) : (s.zeroMem a n).laid = s.laid := rfl
@[simp] theorem zeroMem_free (s : State) (a n : Nat) : (s.zeroMem a n).free = s.free := rfl

/-! `setTdo`. -/

@[simp] theorem setTdo_pending (s : State) (l : List Nat) : (setTdo s l).pending = s.pending := rfl
@[simp] theorem setTdo_part (s : State) (l : List Nat) : (setTdo s l).part = s.part := rfl
@[simp] theorem setTdo_regs (s : State) (l : List Nat) : (setTdo s l).regs = s.regs := rfl
@[simp] theorem setTdo_half (s : State) (l : List Nat) : (setTdo s l).half = s.half := rfl
@[simp] theorem setTdo_mem (s : State) (l : List Nat) : (setTdo s l).mem = s.mem := rfl
@[simp] theorem setTdo_psn (s : State) (l : List Nat) : (setTdo s l).psn = s.psn := rfl
@[simp] theorem setTdo_tiles (s : State) (l : List Nat) : (setTdo s l).tiles = s.tiles := rfl
@[simp] theorem setTdo_cls (s : State) (l : List Nat) : (setTdo s l).cls = s.cls := rfl
@[simp] theorem setTdo_chans (s : State) (l : List Nat) : (setTdo s l).chans = s.chans := rfl
@[simp] theorem setTdo_rpts (s : State) (l : List Nat) : (setTdo s l).rpts = s.rpts := rfl
@[simp] theorem setTdo_rptHub (s : State) (l : List Nat) : (setTdo s l).rptHub = s.rptHub := rfl
@[simp] theorem setTdo_rptHubEp (s : State) (l : List Nat) : (setTdo s l).rptHubEp = s.rptHubEp := rfl
@[simp] theorem setTdo_loads (s : State) (l : List Nat) : (setTdo s l).loads = s.loads := rfl
@[simp] theorem setTdo_mons (s : State) (l : List Nat) : (setTdo s l).mons = s.mons := rfl
@[simp] theorem setTdo_seals (s : State) (l : List Nat) : (setTdo s l).seals = s.seals := rfl
@[simp] theorem setTdo_port (s : State) (l : List Nat) : (setTdo s l).port = s.port := rfl
@[simp] theorem setTdo_links (s : State) (l : List Nat) : (setTdo s l).links = s.links := rfl
@[simp] theorem setTdo_cts (s : State) (l : List Nat) : (setTdo s l).cts = s.cts := rfl
@[simp] theorem setTdo_dists (s : State) (l : List Nat) : (setTdo s l).dists = s.dists := rfl
@[simp] theorem setTdo_fcs (s : State) (l : List Nat) : (setTdo s l).fcs = s.fcs := rfl
@[simp] theorem setTdo_dailies (s : State) (l : List Nat) : (setTdo s l).dailies = s.dailies := rfl
@[simp] theorem setTdo_nv (s : State) (l : List Nat) : (setTdo s l).nv = s.nv := rfl
@[simp] theorem setTdo_hub (s : State) (l : List Nat) : (setTdo s l).hub = s.hub := rfl
@[simp] theorem setTdo_lostLanes (s : State) (l : List Nat) : (setTdo s l).lostLanes = s.lostLanes := rfl
@[simp] theorem setTdo_absentLanes (s : State) (l : List Nat) : (setTdo s l).absentLanes = s.absentLanes := rfl
@[simp] theorem setTdo_goneports (s : State) (l : List Nat) : (setTdo s l).goneports = s.goneports := rfl
@[simp] theorem setTdo_laid (s : State) (l : List Nat) : (setTdo s l).laid = s.laid := rfl
@[simp] theorem setTdo_free (s : State) (l : List Nat) : (setTdo s l).free = s.free := rfl

end Sys2Proof.Machine
end

