-- ==== Sys2Proof/Laws/Views.lean ====
section
/-! SUPPORT. The views of the state under each update that does not touch what they read. -/

namespace Sys2Proof.Machine

/-! `setReg`. -/

@[simp] theorem setReg_clu_view (s : State) (r : Reg) (l i v : Nat) (ch' c' : Nat) : (s.setReg r l i v).clu ch' c' = s.clu ch' c' := rfl
@[simp] theorem setReg_stw_view (s : State) (r : Reg) (l i v : Nat) (ch' c' w' : Nat) : (s.setReg r l i v).stw ch' c' w' = s.stw ch' c' w' := rfl
@[simp] theorem setReg_tl_view (s : State) (r : Reg) (l i v : Nat) (ch' c' t' : Nat) : (s.setReg r l i v).tl ch' c' t' = s.tl ch' c' t' := rfl
@[simp] theorem setReg_chan_view (s : State) (r : Reg) (l i v : Nat) (ch' : Nat) : (s.setReg r l i v).chan ch' = s.chan ch' := rfl
@[simp] theorem setReg_obj_view (s : State) (r : Reg) (l i v : Nat) (ch' o' : Nat) : (s.setReg r l i v).obj ch' o' = s.obj ch' o' := rfl
@[simp] theorem setReg_dist_view (s : State) (r : Reg) (l i v : Nat) (ch' d' : Nat) : (s.setReg r l i v).dist ch' d' = s.dist ch' d' := rfl
@[simp] theorem setReg_mon_view (s : State) (r : Reg) (l i v : Nat) (ch' : Nat) : (s.setReg r l i v).mon ch' = s.mon ch' := rfl
@[simp] theorem setReg_load_view (s : State) (r : Reg) (l i v : Nat) (ch' : Nat) : (s.setReg r l i v).load ch' = s.load ch' := rfl
@[simp] theorem setReg_seal_view (s : State) (r : Reg) (l i v : Nat) (ch' : Nat) : (s.setReg r l i v).seal ch' = s.seal ch' := rfl
@[simp] theorem setReg_ct_view (s : State) (r : Reg) (l i v : Nat) (ch' : Nat) : (s.setReg r l i v).ct ch' = s.ct ch' := rfl
@[simp] theorem setReg_flow_view (s : State) (r : Reg) (l i v : Nat) (ch' n' : Nat) : (s.setReg r l i v).flow ch' n' = s.flow ch' n' := rfl
@[simp] theorem setReg_lk_view (s : State) (r : Reg) (l i v : Nat) (k' : LinkId) : (s.setReg r l i v).lk k' = s.lk k' := rfl
@[simp] theorem setReg_fc_view (s : State) (r : Reg) (l i v : Nat) (n' : Nat) : (s.setReg r l i v).fc n' = s.fc n' := rfl
@[simp] theorem setReg_dly_view (s : State) (r : Reg) (l i v : Nat) (ch' : Nat) : (s.setReg r l i v).dly ch' = s.dly ch' := rfl
@[simp] theorem setReg_fn_view (s : State) (r : Reg) (l i v : Nat) (n' : Nat) : (s.setReg r l i v).fn n' = s.fn n' := rfl
@[simp] theorem setReg_byteAt_view (s : State) (r : Reg) (l i v : Nat) (a' : Nat) : (s.setReg r l i v).byteAt a' = s.byteAt a' := rfl
@[simp] theorem setReg_poisoned_view (s : State) (r : Reg) (l i v : Nat) (a' : Nat) : (s.setReg r l i v).poisoned a' = s.poisoned a' := rfl
@[simp] theorem setReg_rpt_view (s : State) (r : Reg) (l i v : Nat) (ch' : Nat) : (s.setReg r l i v).rpt ch' = s.rpt ch' := rfl

/-! `fset`. -/

@[simp] theorem fset_clu_view (s : State) (f : Fld) (l i v : Nat) (ch' c' : Nat) : (s.fset f l i v).clu ch' c' = s.clu ch' c' := rfl
@[simp] theorem fset_stw_view (s : State) (f : Fld) (l i v : Nat) (ch' c' w' : Nat) : (s.fset f l i v).stw ch' c' w' = s.stw ch' c' w' := rfl
@[simp] theorem fset_tl_view (s : State) (f : Fld) (l i v : Nat) (ch' c' t' : Nat) : (s.fset f l i v).tl ch' c' t' = s.tl ch' c' t' := rfl
@[simp] theorem fset_chan_view (s : State) (f : Fld) (l i v : Nat) (ch' : Nat) : (s.fset f l i v).chan ch' = s.chan ch' := rfl
@[simp] theorem fset_obj_view (s : State) (f : Fld) (l i v : Nat) (ch' o' : Nat) : (s.fset f l i v).obj ch' o' = s.obj ch' o' := rfl
@[simp] theorem fset_dist_view (s : State) (f : Fld) (l i v : Nat) (ch' d' : Nat) : (s.fset f l i v).dist ch' d' = s.dist ch' d' := rfl
@[simp] theorem fset_mon_view (s : State) (f : Fld) (l i v : Nat) (ch' : Nat) : (s.fset f l i v).mon ch' = s.mon ch' := rfl
@[simp] theorem fset_load_view (s : State) (f : Fld) (l i v : Nat) (ch' : Nat) : (s.fset f l i v).load ch' = s.load ch' := rfl
@[simp] theorem fset_seal_view (s : State) (f : Fld) (l i v : Nat) (ch' : Nat) : (s.fset f l i v).seal ch' = s.seal ch' := rfl
@[simp] theorem fset_ct_view (s : State) (f : Fld) (l i v : Nat) (ch' : Nat) : (s.fset f l i v).ct ch' = s.ct ch' := rfl
@[simp] theorem fset_flow_view (s : State) (f : Fld) (l i v : Nat) (ch' n' : Nat) : (s.fset f l i v).flow ch' n' = s.flow ch' n' := rfl
@[simp] theorem fset_lk_view (s : State) (f : Fld) (l i v : Nat) (k' : LinkId) : (s.fset f l i v).lk k' = s.lk k' := rfl
@[simp] theorem fset_fc_view (s : State) (f : Fld) (l i v : Nat) (n' : Nat) : (s.fset f l i v).fc n' = s.fc n' := rfl
@[simp] theorem fset_dly_view (s : State) (f : Fld) (l i v : Nat) (ch' : Nat) : (s.fset f l i v).dly ch' = s.dly ch' := rfl
@[simp] theorem fset_fn_view (s : State) (f : Fld) (l i v : Nat) (n' : Nat) : (s.fset f l i v).fn n' = s.fn n' := rfl
@[simp] theorem fset_byteAt_view (s : State) (f : Fld) (l i v : Nat) (a' : Nat) : (s.fset f l i v).byteAt a' = s.byteAt a' := rfl
@[simp] theorem fset_poisoned_view (s : State) (f : Fld) (l i v : Nat) (a' : Nat) : (s.fset f l i v).poisoned a' = s.poisoned a' := rfl
@[simp] theorem fset_rpt_view (s : State) (f : Fld) (l i v : Nat) (ch' : Nat) : (s.fset f l i v).rpt ch' = s.rpt ch' := rfl

/-! `fadd`. -/

@[simp] theorem fadd_clu_view (s : State) (f : Fld) (l i v : Nat) (ch' c' : Nat) : (s.fadd f l i v).clu ch' c' = s.clu ch' c' := rfl
@[simp] theorem fadd_stw_view (s : State) (f : Fld) (l i v : Nat) (ch' c' w' : Nat) : (s.fadd f l i v).stw ch' c' w' = s.stw ch' c' w' := rfl
@[simp] theorem fadd_tl_view (s : State) (f : Fld) (l i v : Nat) (ch' c' t' : Nat) : (s.fadd f l i v).tl ch' c' t' = s.tl ch' c' t' := rfl
@[simp] theorem fadd_chan_view (s : State) (f : Fld) (l i v : Nat) (ch' : Nat) : (s.fadd f l i v).chan ch' = s.chan ch' := rfl
@[simp] theorem fadd_obj_view (s : State) (f : Fld) (l i v : Nat) (ch' o' : Nat) : (s.fadd f l i v).obj ch' o' = s.obj ch' o' := rfl
@[simp] theorem fadd_dist_view (s : State) (f : Fld) (l i v : Nat) (ch' d' : Nat) : (s.fadd f l i v).dist ch' d' = s.dist ch' d' := rfl
@[simp] theorem fadd_mon_view (s : State) (f : Fld) (l i v : Nat) (ch' : Nat) : (s.fadd f l i v).mon ch' = s.mon ch' := rfl
@[simp] theorem fadd_load_view (s : State) (f : Fld) (l i v : Nat) (ch' : Nat) : (s.fadd f l i v).load ch' = s.load ch' := rfl
@[simp] theorem fadd_seal_view (s : State) (f : Fld) (l i v : Nat) (ch' : Nat) : (s.fadd f l i v).seal ch' = s.seal ch' := rfl
@[simp] theorem fadd_ct_view (s : State) (f : Fld) (l i v : Nat) (ch' : Nat) : (s.fadd f l i v).ct ch' = s.ct ch' := rfl
@[simp] theorem fadd_flow_view (s : State) (f : Fld) (l i v : Nat) (ch' n' : Nat) : (s.fadd f l i v).flow ch' n' = s.flow ch' n' := rfl
@[simp] theorem fadd_lk_view (s : State) (f : Fld) (l i v : Nat) (k' : LinkId) : (s.fadd f l i v).lk k' = s.lk k' := rfl
@[simp] theorem fadd_fc_view (s : State) (f : Fld) (l i v : Nat) (n' : Nat) : (s.fadd f l i v).fc n' = s.fc n' := rfl
@[simp] theorem fadd_dly_view (s : State) (f : Fld) (l i v : Nat) (ch' : Nat) : (s.fadd f l i v).dly ch' = s.dly ch' := rfl
@[simp] theorem fadd_fn_view (s : State) (f : Fld) (l i v : Nat) (n' : Nat) : (s.fadd f l i v).fn n' = s.fn n' := rfl
@[simp] theorem fadd_byteAt_view (s : State) (f : Fld) (l i v : Nat) (a' : Nat) : (s.fadd f l i v).byteAt a' = s.byteAt a' := rfl
@[simp] theorem fadd_poisoned_view (s : State) (f : Fld) (l i v : Nat) (a' : Nat) : (s.fadd f l i v).poisoned a' = s.poisoned a' := rfl
@[simp] theorem fadd_rpt_view (s : State) (f : Fld) (l i v : Nat) (ch' : Nat) : (s.fadd f l i v).rpt ch' = s.rpt ch' := rfl

/-! `finc`. -/

@[simp] theorem finc_clu_view (s : State) (f : Fld) (l i v : Nat) (ch' c' : Nat) : (s.finc f l i v).clu ch' c' = s.clu ch' c' := rfl
@[simp] theorem finc_stw_view (s : State) (f : Fld) (l i v : Nat) (ch' c' w' : Nat) : (s.finc f l i v).stw ch' c' w' = s.stw ch' c' w' := rfl
@[simp] theorem finc_tl_view (s : State) (f : Fld) (l i v : Nat) (ch' c' t' : Nat) : (s.finc f l i v).tl ch' c' t' = s.tl ch' c' t' := rfl
@[simp] theorem finc_chan_view (s : State) (f : Fld) (l i v : Nat) (ch' : Nat) : (s.finc f l i v).chan ch' = s.chan ch' := rfl
@[simp] theorem finc_obj_view (s : State) (f : Fld) (l i v : Nat) (ch' o' : Nat) : (s.finc f l i v).obj ch' o' = s.obj ch' o' := rfl
@[simp] theorem finc_dist_view (s : State) (f : Fld) (l i v : Nat) (ch' d' : Nat) : (s.finc f l i v).dist ch' d' = s.dist ch' d' := rfl
@[simp] theorem finc_mon_view (s : State) (f : Fld) (l i v : Nat) (ch' : Nat) : (s.finc f l i v).mon ch' = s.mon ch' := rfl
@[simp] theorem finc_load_view (s : State) (f : Fld) (l i v : Nat) (ch' : Nat) : (s.finc f l i v).load ch' = s.load ch' := rfl
@[simp] theorem finc_seal_view (s : State) (f : Fld) (l i v : Nat) (ch' : Nat) : (s.finc f l i v).seal ch' = s.seal ch' := rfl
@[simp] theorem finc_ct_view (s : State) (f : Fld) (l i v : Nat) (ch' : Nat) : (s.finc f l i v).ct ch' = s.ct ch' := rfl
@[simp] theorem finc_flow_view (s : State) (f : Fld) (l i v : Nat) (ch' n' : Nat) : (s.finc f l i v).flow ch' n' = s.flow ch' n' := rfl
@[simp] theorem finc_lk_view (s : State) (f : Fld) (l i v : Nat) (k' : LinkId) : (s.finc f l i v).lk k' = s.lk k' := rfl
@[simp] theorem finc_fc_view (s : State) (f : Fld) (l i v : Nat) (n' : Nat) : (s.finc f l i v).fc n' = s.fc n' := rfl
@[simp] theorem finc_dly_view (s : State) (f : Fld) (l i v : Nat) (ch' : Nat) : (s.finc f l i v).dly ch' = s.dly ch' := rfl
@[simp] theorem finc_fn_view (s : State) (f : Fld) (l i v : Nat) (n' : Nat) : (s.finc f l i v).fn n' = s.fn n' := rfl
@[simp] theorem finc_byteAt_view (s : State) (f : Fld) (l i v : Nat) (a' : Nat) : (s.finc f l i v).byteAt a' = s.byteAt a' := rfl
@[simp] theorem finc_poisoned_view (s : State) (f : Fld) (l i v : Nat) (a' : Nat) : (s.finc f l i v).poisoned a' = s.poisoned a' := rfl
@[simp] theorem finc_rpt_view (s : State) (f : Fld) (l i v : Nat) (ch' : Nat) : (s.finc f l i v).rpt ch' = s.rpt ch' := rfl

/-! `record`. -/

@[simp] theorem record_clu_view (s : State) (f g : Fld) (l c : Nat) (ch' c' : Nat) : (s.record f g l c).clu ch' c' = s.clu ch' c' := rfl
@[simp] theorem record_stw_view (s : State) (f g : Fld) (l c : Nat) (ch' c' w' : Nat) : (s.record f g l c).stw ch' c' w' = s.stw ch' c' w' := rfl
@[simp] theorem record_tl_view (s : State) (f g : Fld) (l c : Nat) (ch' c' t' : Nat) : (s.record f g l c).tl ch' c' t' = s.tl ch' c' t' := rfl
@[simp] theorem record_chan_view (s : State) (f g : Fld) (l c : Nat) (ch' : Nat) : (s.record f g l c).chan ch' = s.chan ch' := rfl
@[simp] theorem record_obj_view (s : State) (f g : Fld) (l c : Nat) (ch' o' : Nat) : (s.record f g l c).obj ch' o' = s.obj ch' o' := rfl
@[simp] theorem record_dist_view (s : State) (f g : Fld) (l c : Nat) (ch' d' : Nat) : (s.record f g l c).dist ch' d' = s.dist ch' d' := rfl
@[simp] theorem record_mon_view (s : State) (f g : Fld) (l c : Nat) (ch' : Nat) : (s.record f g l c).mon ch' = s.mon ch' := rfl
@[simp] theorem record_load_view (s : State) (f g : Fld) (l c : Nat) (ch' : Nat) : (s.record f g l c).load ch' = s.load ch' := rfl
@[simp] theorem record_seal_view (s : State) (f g : Fld) (l c : Nat) (ch' : Nat) : (s.record f g l c).seal ch' = s.seal ch' := rfl
@[simp] theorem record_ct_view (s : State) (f g : Fld) (l c : Nat) (ch' : Nat) : (s.record f g l c).ct ch' = s.ct ch' := rfl
@[simp] theorem record_flow_view (s : State) (f g : Fld) (l c : Nat) (ch' n' : Nat) : (s.record f g l c).flow ch' n' = s.flow ch' n' := rfl
@[simp] theorem record_lk_view (s : State) (f g : Fld) (l c : Nat) (k' : LinkId) : (s.record f g l c).lk k' = s.lk k' := rfl
@[simp] theorem record_fc_view (s : State) (f g : Fld) (l c : Nat) (n' : Nat) : (s.record f g l c).fc n' = s.fc n' := rfl
@[simp] theorem record_dly_view (s : State) (f g : Fld) (l c : Nat) (ch' : Nat) : (s.record f g l c).dly ch' = s.dly ch' := rfl
@[simp] theorem record_fn_view (s : State) (f g : Fld) (l c : Nat) (n' : Nat) : (s.record f g l c).fn n' = s.fn n' := rfl
@[simp] theorem record_byteAt_view (s : State) (f g : Fld) (l c : Nat) (a' : Nat) : (s.record f g l c).byteAt a' = s.byteAt a' := rfl
@[simp] theorem record_poisoned_view (s : State) (f g : Fld) (l c : Nat) (a' : Nat) : (s.record f g l c).poisoned a' = s.poisoned a' := rfl
@[simp] theorem record_rpt_view (s : State) (f g : Fld) (l c : Nat) (ch' : Nat) : (s.record f g l c).rpt ch' = s.rpt ch' := rfl

/-! `took`. -/

@[simp] theorem took_reg_view (s : State) (r' : Reg) (l' i' : Nat) : (s.took).reg r' l' i' = s.reg r' l' i' := rfl
@[simp] theorem took_fget_view (s : State) (f' : Fld) (l' i' : Nat) : (s.took).fget f' l' i' = s.fget f' l' i' := rfl
@[simp] theorem took_clu_view (s : State) (ch' c' : Nat) : (s.took).clu ch' c' = s.clu ch' c' := rfl
@[simp] theorem took_stw_view (s : State) (ch' c' w' : Nat) : (s.took).stw ch' c' w' = s.stw ch' c' w' := rfl
@[simp] theorem took_tl_view (s : State) (ch' c' t' : Nat) : (s.took).tl ch' c' t' = s.tl ch' c' t' := rfl
@[simp] theorem took_chan_view (s : State) (ch' : Nat) : (s.took).chan ch' = s.chan ch' := rfl
@[simp] theorem took_obj_view (s : State) (ch' o' : Nat) : (s.took).obj ch' o' = s.obj ch' o' := rfl
@[simp] theorem took_dist_view (s : State) (ch' d' : Nat) : (s.took).dist ch' d' = s.dist ch' d' := rfl
@[simp] theorem took_mon_view (s : State) (ch' : Nat) : (s.took).mon ch' = s.mon ch' := rfl
@[simp] theorem took_load_view (s : State) (ch' : Nat) : (s.took).load ch' = s.load ch' := rfl
@[simp] theorem took_seal_view (s : State) (ch' : Nat) : (s.took).seal ch' = s.seal ch' := rfl
@[simp] theorem took_ct_view (s : State) (ch' : Nat) : (s.took).ct ch' = s.ct ch' := rfl
@[simp] theorem took_flow_view (s : State) (ch' n' : Nat) : (s.took).flow ch' n' = s.flow ch' n' := rfl
@[simp] theorem took_lk_view (s : State) (k' : LinkId) : (s.took).lk k' = s.lk k' := rfl
@[simp] theorem took_fc_view (s : State) (n' : Nat) : (s.took).fc n' = s.fc n' := rfl
@[simp] theorem took_dly_view (s : State) (ch' : Nat) : (s.took).dly ch' = s.dly ch' := rfl
@[simp] theorem took_fn_view (s : State) (n' : Nat) : (s.took).fn n' = s.fn n' := rfl
@[simp] theorem took_byteAt_view (s : State) (a' : Nat) : (s.took).byteAt a' = s.byteAt a' := rfl
@[simp] theorem took_poisoned_view (s : State) (a' : Nat) : (s.took).poisoned a' = s.poisoned a' := rfl
@[simp] theorem took_rpt_view (s : State) (ch' : Nat) : (s.took).rpt ch' = s.rpt ch' := rfl

/-! `dropHalf`. -/

@[simp] theorem dropHalf_reg_view (s : State) (r : Requester) (r' : Reg) (l' i' : Nat) : (dropHalf s r).reg r' l' i' = s.reg r' l' i' := rfl
@[simp] theorem dropHalf_fget_view (s : State) (r : Requester) (f' : Fld) (l' i' : Nat) : (dropHalf s r).fget f' l' i' = s.fget f' l' i' := rfl
@[simp] theorem dropHalf_clu_view (s : State) (r : Requester) (ch' c' : Nat) : (dropHalf s r).clu ch' c' = s.clu ch' c' := rfl
@[simp] theorem dropHalf_stw_view (s : State) (r : Requester) (ch' c' w' : Nat) : (dropHalf s r).stw ch' c' w' = s.stw ch' c' w' := rfl
@[simp] theorem dropHalf_tl_view (s : State) (r : Requester) (ch' c' t' : Nat) : (dropHalf s r).tl ch' c' t' = s.tl ch' c' t' := rfl
@[simp] theorem dropHalf_chan_view (s : State) (r : Requester) (ch' : Nat) : (dropHalf s r).chan ch' = s.chan ch' := rfl
@[simp] theorem dropHalf_obj_view (s : State) (r : Requester) (ch' o' : Nat) : (dropHalf s r).obj ch' o' = s.obj ch' o' := rfl
@[simp] theorem dropHalf_dist_view (s : State) (r : Requester) (ch' d' : Nat) : (dropHalf s r).dist ch' d' = s.dist ch' d' := rfl
@[simp] theorem dropHalf_mon_view (s : State) (r : Requester) (ch' : Nat) : (dropHalf s r).mon ch' = s.mon ch' := rfl
@[simp] theorem dropHalf_load_view (s : State) (r : Requester) (ch' : Nat) : (dropHalf s r).load ch' = s.load ch' := rfl
@[simp] theorem dropHalf_seal_view (s : State) (r : Requester) (ch' : Nat) : (dropHalf s r).seal ch' = s.seal ch' := rfl
@[simp] theorem dropHalf_ct_view (s : State) (r : Requester) (ch' : Nat) : (dropHalf s r).ct ch' = s.ct ch' := rfl
@[simp] theorem dropHalf_flow_view (s : State) (r : Requester) (ch' n' : Nat) : (dropHalf s r).flow ch' n' = s.flow ch' n' := rfl
@[simp] theorem dropHalf_lk_view (s : State) (r : Requester) (k' : LinkId) : (dropHalf s r).lk k' = s.lk k' := rfl
@[simp] theorem dropHalf_fc_view (s : State) (r : Requester) (n' : Nat) : (dropHalf s r).fc n' = s.fc n' := rfl
@[simp] theorem dropHalf_dly_view (s : State) (r : Requester) (ch' : Nat) : (dropHalf s r).dly ch' = s.dly ch' := rfl
@[simp] theorem dropHalf_fn_view (s : State) (r : Requester) (n' : Nat) : (dropHalf s r).fn n' = s.fn n' := rfl
@[simp] theorem dropHalf_byteAt_view (s : State) (r : Requester) (a' : Nat) : (dropHalf s r).byteAt a' = s.byteAt a' := rfl
@[simp] theorem dropHalf_poisoned_view (s : State) (r : Requester) (a' : Nat) : (dropHalf s r).poisoned a' = s.poisoned a' := rfl
@[simp] theorem dropHalf_rpt_view (s : State) (r : Requester) (ch' : Nat) : (dropHalf s r).rpt ch' = s.rpt ch' := rfl

/-! `setClu`. -/

@[simp] theorem setClu_reg_view (s : State) (ch c : Nat) (f : Cluster → Cluster) (r' : Reg) (l' i' : Nat) : (s.setClu ch c f).reg r' l' i' = s.reg r' l' i' := rfl
@[simp] theorem setClu_fget_view (s : State) (ch c : Nat) (f : Cluster → Cluster) (f' : Fld) (l' i' : Nat) : (s.setClu ch c f).fget f' l' i' = s.fget f' l' i' := rfl
@[simp] theorem setClu_tl_view (s : State) (ch c : Nat) (f : Cluster → Cluster) (ch' c' t' : Nat) : (s.setClu ch c f).tl ch' c' t' = s.tl ch' c' t' := rfl
@[simp] theorem setClu_chan_view (s : State) (ch c : Nat) (f : Cluster → Cluster) (ch' : Nat) : (s.setClu ch c f).chan ch' = s.chan ch' := rfl
@[simp] theorem setClu_obj_view (s : State) (ch c : Nat) (f : Cluster → Cluster) (ch' o' : Nat) : (s.setClu ch c f).obj ch' o' = s.obj ch' o' := rfl
@[simp] theorem setClu_dist_view (s : State) (ch c : Nat) (f : Cluster → Cluster) (ch' d' : Nat) : (s.setClu ch c f).dist ch' d' = s.dist ch' d' := rfl
@[simp] theorem setClu_mon_view (s : State) (ch c : Nat) (f : Cluster → Cluster) (ch' : Nat) : (s.setClu ch c f).mon ch' = s.mon ch' := rfl
@[simp] theorem setClu_load_view (s : State) (ch c : Nat) (f : Cluster → Cluster) (ch' : Nat) : (s.setClu ch c f).load ch' = s.load ch' := rfl
@[simp] theorem setClu_seal_view (s : State) (ch c : Nat) (f : Cluster → Cluster) (ch' : Nat) : (s.setClu ch c f).seal ch' = s.seal ch' := rfl
@[simp] theorem setClu_ct_view (s : State) (ch c : Nat) (f : Cluster → Cluster) (ch' : Nat) : (s.setClu ch c f).ct ch' = s.ct ch' := rfl
@[simp] theorem setClu_flow_view (s : State) (ch c : Nat) (f : Cluster → Cluster) (ch' n' : Nat) : (s.setClu ch c f).flow ch' n' = s.flow ch' n' := rfl
@[simp] theorem setClu_lk_view (s : State) (ch c : Nat) (f : Cluster → Cluster) (k' : LinkId) : (s.setClu ch c f).lk k' = s.lk k' := rfl
@[simp] theorem setClu_fc_view (s : State) (ch c : Nat) (f : Cluster → Cluster) (n' : Nat) : (s.setClu ch c f).fc n' = s.fc n' := rfl
@[simp] theorem setClu_dly_view (s : State) (ch c : Nat) (f : Cluster → Cluster) (ch' : Nat) : (s.setClu ch c f).dly ch' = s.dly ch' := rfl
@[simp] theorem setClu_fn_view (s : State) (ch c : Nat) (f : Cluster → Cluster) (n' : Nat) : (s.setClu ch c f).fn n' = s.fn n' := rfl
@[simp] theorem setClu_byteAt_view (s : State) (ch c : Nat) (f : Cluster → Cluster) (a' : Nat) : (s.setClu ch c f).byteAt a' = s.byteAt a' := rfl
@[simp] theorem setClu_poisoned_view (s : State) (ch c : Nat) (f : Cluster → Cluster) (a' : Nat) : (s.setClu ch c f).poisoned a' = s.poisoned a' := rfl
@[simp] theorem setClu_rpt_view (s : State) (ch c : Nat) (f : Cluster → Cluster) (ch' : Nat) : (s.setClu ch c f).rpt ch' = s.rpt ch' := rfl

/-! `setStw`. -/

@[simp] theorem setStw_reg_view (s : State) (ch c w : Nat) (f : Stw → Stw) (r' : Reg) (l' i' : Nat) : (setStw s ch c w f).reg r' l' i' = s.reg r' l' i' := rfl
@[simp] theorem setStw_fget_view (s : State) (ch c w : Nat) (f : Stw → Stw) (f' : Fld) (l' i' : Nat) : (setStw s ch c w f).fget f' l' i' = s.fget f' l' i' := rfl
@[simp] theorem setStw_tl_view (s : State) (ch c w : Nat) (f : Stw → Stw) (ch' c' t' : Nat) : (setStw s ch c w f).tl ch' c' t' = s.tl ch' c' t' := rfl
@[simp] theorem setStw_chan_view (s : State) (ch c w : Nat) (f : Stw → Stw) (ch' : Nat) : (setStw s ch c w f).chan ch' = s.chan ch' := rfl
@[simp] theorem setStw_obj_view (s : State) (ch c w : Nat) (f : Stw → Stw) (ch' o' : Nat) : (setStw s ch c w f).obj ch' o' = s.obj ch' o' := rfl
@[simp] theorem setStw_dist_view (s : State) (ch c w : Nat) (f : Stw → Stw) (ch' d' : Nat) : (setStw s ch c w f).dist ch' d' = s.dist ch' d' := rfl
@[simp] theorem setStw_mon_view (s : State) (ch c w : Nat) (f : Stw → Stw) (ch' : Nat) : (setStw s ch c w f).mon ch' = s.mon ch' := rfl
@[simp] theorem setStw_load_view (s : State) (ch c w : Nat) (f : Stw → Stw) (ch' : Nat) : (setStw s ch c w f).load ch' = s.load ch' := rfl
@[simp] theorem setStw_seal_view (s : State) (ch c w : Nat) (f : Stw → Stw) (ch' : Nat) : (setStw s ch c w f).seal ch' = s.seal ch' := rfl
@[simp] theorem setStw_ct_view (s : State) (ch c w : Nat) (f : Stw → Stw) (ch' : Nat) : (setStw s ch c w f).ct ch' = s.ct ch' := rfl
@[simp] theorem setStw_flow_view (s : State) (ch c w : Nat) (f : Stw → Stw) (ch' n' : Nat) : (setStw s ch c w f).flow ch' n' = s.flow ch' n' := rfl
@[simp] theorem setStw_lk_view (s : State) (ch c w : Nat) (f : Stw → Stw) (k' : LinkId) : (setStw s ch c w f).lk k' = s.lk k' := rfl
@[simp] theorem setStw_fc_view (s : State) (ch c w : Nat) (f : Stw → Stw) (n' : Nat) : (setStw s ch c w f).fc n' = s.fc n' := rfl
@[simp] theorem setStw_dly_view (s : State) (ch c w : Nat) (f : Stw → Stw) (ch' : Nat) : (setStw s ch c w f).dly ch' = s.dly ch' := rfl
@[simp] theorem setStw_fn_view (s : State) (ch c w : Nat) (f : Stw → Stw) (n' : Nat) : (setStw s ch c w f).fn n' = s.fn n' := rfl
@[simp] theorem setStw_byteAt_view (s : State) (ch c w : Nat) (f : Stw → Stw) (a' : Nat) : (setStw s ch c w f).byteAt a' = s.byteAt a' := rfl
@[simp] theorem setStw_poisoned_view (s : State) (ch c w : Nat) (f : Stw → Stw) (a' : Nat) : (setStw s ch c w f).poisoned a' = s.poisoned a' := rfl
@[simp] theorem setStw_rpt_view (s : State) (ch c w : Nat) (f : Stw → Stw) (ch' : Nat) : (setStw s ch c w f).rpt ch' = s.rpt ch' := rfl

/-! `setQueue`. -/

@[simp] theorem setQueue_reg_view (s : State) (ch c q : Nat) (m : List Msg) (r' : Reg) (l' i' : Nat) : (setQueue s ch c q m).reg r' l' i' = s.reg r' l' i' := rfl
@[simp] theorem setQueue_fget_view (s : State) (ch c q : Nat) (m : List Msg) (f' : Fld) (l' i' : Nat) : (setQueue s ch c q m).fget f' l' i' = s.fget f' l' i' := rfl
@[simp] theorem setQueue_tl_view (s : State) (ch c q : Nat) (m : List Msg) (ch' c' t' : Nat) : (setQueue s ch c q m).tl ch' c' t' = s.tl ch' c' t' := rfl
@[simp] theorem setQueue_chan_view (s : State) (ch c q : Nat) (m : List Msg) (ch' : Nat) : (setQueue s ch c q m).chan ch' = s.chan ch' := rfl
@[simp] theorem setQueue_obj_view (s : State) (ch c q : Nat) (m : List Msg) (ch' o' : Nat) : (setQueue s ch c q m).obj ch' o' = s.obj ch' o' := rfl
@[simp] theorem setQueue_dist_view (s : State) (ch c q : Nat) (m : List Msg) (ch' d' : Nat) : (setQueue s ch c q m).dist ch' d' = s.dist ch' d' := rfl
@[simp] theorem setQueue_mon_view (s : State) (ch c q : Nat) (m : List Msg) (ch' : Nat) : (setQueue s ch c q m).mon ch' = s.mon ch' := rfl
@[simp] theorem setQueue_load_view (s : State) (ch c q : Nat) (m : List Msg) (ch' : Nat) : (setQueue s ch c q m).load ch' = s.load ch' := rfl
@[simp] theorem setQueue_seal_view (s : State) (ch c q : Nat) (m : List Msg) (ch' : Nat) : (setQueue s ch c q m).seal ch' = s.seal ch' := rfl
@[simp] theorem setQueue_ct_view (s : State) (ch c q : Nat) (m : List Msg) (ch' : Nat) : (setQueue s ch c q m).ct ch' = s.ct ch' := rfl
@[simp] theorem setQueue_flow_view (s : State) (ch c q : Nat) (m : List Msg) (ch' n' : Nat) : (setQueue s ch c q m).flow ch' n' = s.flow ch' n' := rfl
@[simp] theorem setQueue_lk_view (s : State) (ch c q : Nat) (m : List Msg) (k' : LinkId) : (setQueue s ch c q m).lk k' = s.lk k' := rfl
@[simp] theorem setQueue_fc_view (s : State) (ch c q : Nat) (m : List Msg) (n' : Nat) : (setQueue s ch c q m).fc n' = s.fc n' := rfl
@[simp] theorem setQueue_dly_view (s : State) (ch c q : Nat) (m : List Msg) (ch' : Nat) : (setQueue s ch c q m).dly ch' = s.dly ch' := rfl
@[simp] theorem setQueue_fn_view (s : State) (ch c q : Nat) (m : List Msg) (n' : Nat) : (setQueue s ch c q m).fn n' = s.fn n' := rfl
@[simp] theorem setQueue_byteAt_view (s : State) (ch c q : Nat) (m : List Msg) (a' : Nat) : (setQueue s ch c q m).byteAt a' = s.byteAt a' := rfl
@[simp] theorem setQueue_poisoned_view (s : State) (ch c q : Nat) (m : List Msg) (a' : Nat) : (setQueue s ch c q m).poisoned a' = s.poisoned a' := rfl
@[simp] theorem setQueue_rpt_view (s : State) (ch c q : Nat) (m : List Msg) (ch' : Nat) : (setQueue s ch c q m).rpt ch' = s.rpt ch' := rfl

/-! `setSbuf`. -/

@[simp] theorem setSbuf_reg_view (s : State) (ch c n : Nat) (f : SBuf → SBuf) (r' : Reg) (l' i' : Nat) : (setSbuf s ch c n f).reg r' l' i' = s.reg r' l' i' := rfl
@[simp] theorem setSbuf_fget_view (s : State) (ch c n : Nat) (f : SBuf → SBuf) (f' : Fld) (l' i' : Nat) : (setSbuf s ch c n f).fget f' l' i' = s.fget f' l' i' := rfl
@[simp] theorem setSbuf_tl_view (s : State) (ch c n : Nat) (f : SBuf → SBuf) (ch' c' t' : Nat) : (setSbuf s ch c n f).tl ch' c' t' = s.tl ch' c' t' := rfl
@[simp] theorem setSbuf_chan_view (s : State) (ch c n : Nat) (f : SBuf → SBuf) (ch' : Nat) : (setSbuf s ch c n f).chan ch' = s.chan ch' := rfl
@[simp] theorem setSbuf_obj_view (s : State) (ch c n : Nat) (f : SBuf → SBuf) (ch' o' : Nat) : (setSbuf s ch c n f).obj ch' o' = s.obj ch' o' := rfl
@[simp] theorem setSbuf_dist_view (s : State) (ch c n : Nat) (f : SBuf → SBuf) (ch' d' : Nat) : (setSbuf s ch c n f).dist ch' d' = s.dist ch' d' := rfl
@[simp] theorem setSbuf_mon_view (s : State) (ch c n : Nat) (f : SBuf → SBuf) (ch' : Nat) : (setSbuf s ch c n f).mon ch' = s.mon ch' := rfl
@[simp] theorem setSbuf_load_view (s : State) (ch c n : Nat) (f : SBuf → SBuf) (ch' : Nat) : (setSbuf s ch c n f).load ch' = s.load ch' := rfl
@[simp] theorem setSbuf_seal_view (s : State) (ch c n : Nat) (f : SBuf → SBuf) (ch' : Nat) : (setSbuf s ch c n f).seal ch' = s.seal ch' := rfl
@[simp] theorem setSbuf_ct_view (s : State) (ch c n : Nat) (f : SBuf → SBuf) (ch' : Nat) : (setSbuf s ch c n f).ct ch' = s.ct ch' := rfl
@[simp] theorem setSbuf_flow_view (s : State) (ch c n : Nat) (f : SBuf → SBuf) (ch' n' : Nat) : (setSbuf s ch c n f).flow ch' n' = s.flow ch' n' := rfl
@[simp] theorem setSbuf_lk_view (s : State) (ch c n : Nat) (f : SBuf → SBuf) (k' : LinkId) : (setSbuf s ch c n f).lk k' = s.lk k' := rfl
@[simp] theorem setSbuf_fc_view (s : State) (ch c n : Nat) (f : SBuf → SBuf) (n' : Nat) : (setSbuf s ch c n f).fc n' = s.fc n' := rfl
@[simp] theorem setSbuf_dly_view (s : State) (ch c n : Nat) (f : SBuf → SBuf) (ch' : Nat) : (setSbuf s ch c n f).dly ch' = s.dly ch' := rfl
@[simp] theorem setSbuf_fn_view (s : State) (ch c n : Nat) (f : SBuf → SBuf) (n' : Nat) : (setSbuf s ch c n f).fn n' = s.fn n' := rfl
@[simp] theorem setSbuf_byteAt_view (s : State) (ch c n : Nat) (f : SBuf → SBuf) (a' : Nat) : (setSbuf s ch c n f).byteAt a' = s.byteAt a' := rfl
@[simp] theorem setSbuf_poisoned_view (s : State) (ch c n : Nat) (f : SBuf → SBuf) (a' : Nat) : (setSbuf s ch c n f).poisoned a' = s.poisoned a' := rfl
@[simp] theorem setSbuf_rpt_view (s : State) (ch c n : Nat) (f : SBuf → SBuf) (ch' : Nat) : (setSbuf s ch c n f).rpt ch' = s.rpt ch' := rfl

/-! `setSlot`. -/

@[simp] theorem setSlot_reg_view (s : State) (ch c n : Nat) (f : DSlot → DSlot) (r' : Reg) (l' i' : Nat) : (setSlot s ch c n f).reg r' l' i' = s.reg r' l' i' := rfl
@[simp] theorem setSlot_fget_view (s : State) (ch c n : Nat) (f : DSlot → DSlot) (f' : Fld) (l' i' : Nat) : (setSlot s ch c n f).fget f' l' i' = s.fget f' l' i' := rfl
@[simp] theorem setSlot_tl_view (s : State) (ch c n : Nat) (f : DSlot → DSlot) (ch' c' t' : Nat) : (setSlot s ch c n f).tl ch' c' t' = s.tl ch' c' t' := rfl
@[simp] theorem setSlot_chan_view (s : State) (ch c n : Nat) (f : DSlot → DSlot) (ch' : Nat) : (setSlot s ch c n f).chan ch' = s.chan ch' := rfl
@[simp] theorem setSlot_obj_view (s : State) (ch c n : Nat) (f : DSlot → DSlot) (ch' o' : Nat) : (setSlot s ch c n f).obj ch' o' = s.obj ch' o' := rfl
@[simp] theorem setSlot_dist_view (s : State) (ch c n : Nat) (f : DSlot → DSlot) (ch' d' : Nat) : (setSlot s ch c n f).dist ch' d' = s.dist ch' d' := rfl
@[simp] theorem setSlot_mon_view (s : State) (ch c n : Nat) (f : DSlot → DSlot) (ch' : Nat) : (setSlot s ch c n f).mon ch' = s.mon ch' := rfl
@[simp] theorem setSlot_load_view (s : State) (ch c n : Nat) (f : DSlot → DSlot) (ch' : Nat) : (setSlot s ch c n f).load ch' = s.load ch' := rfl
@[simp] theorem setSlot_seal_view (s : State) (ch c n : Nat) (f : DSlot → DSlot) (ch' : Nat) : (setSlot s ch c n f).seal ch' = s.seal ch' := rfl
@[simp] theorem setSlot_ct_view (s : State) (ch c n : Nat) (f : DSlot → DSlot) (ch' : Nat) : (setSlot s ch c n f).ct ch' = s.ct ch' := rfl
@[simp] theorem setSlot_flow_view (s : State) (ch c n : Nat) (f : DSlot → DSlot) (ch' n' : Nat) : (setSlot s ch c n f).flow ch' n' = s.flow ch' n' := rfl
@[simp] theorem setSlot_lk_view (s : State) (ch c n : Nat) (f : DSlot → DSlot) (k' : LinkId) : (setSlot s ch c n f).lk k' = s.lk k' := rfl
@[simp] theorem setSlot_fc_view (s : State) (ch c n : Nat) (f : DSlot → DSlot) (n' : Nat) : (setSlot s ch c n f).fc n' = s.fc n' := rfl
@[simp] theorem setSlot_dly_view (s : State) (ch c n : Nat) (f : DSlot → DSlot) (ch' : Nat) : (setSlot s ch c n f).dly ch' = s.dly ch' := rfl
@[simp] theorem setSlot_fn_view (s : State) (ch c n : Nat) (f : DSlot → DSlot) (n' : Nat) : (setSlot s ch c n f).fn n' = s.fn n' := rfl
@[simp] theorem setSlot_byteAt_view (s : State) (ch c n : Nat) (f : DSlot → DSlot) (a' : Nat) : (setSlot s ch c n f).byteAt a' = s.byteAt a' := rfl
@[simp] theorem setSlot_poisoned_view (s : State) (ch c n : Nat) (f : DSlot → DSlot) (a' : Nat) : (setSlot s ch c n f).poisoned a' = s.poisoned a' := rfl
@[simp] theorem setSlot_rpt_view (s : State) (ch c n : Nat) (f : DSlot → DSlot) (ch' : Nat) : (setSlot s ch c n f).rpt ch' = s.rpt ch' := rfl

/-! `setTake`. -/

@[simp] theorem setTake_reg_view (s : State) (ch c k : Nat) (f : TakeSlot → TakeSlot) (r' : Reg) (l' i' : Nat) : (setTake s ch c k f).reg r' l' i' = s.reg r' l' i' := rfl
@[simp] theorem setTake_fget_view (s : State) (ch c k : Nat) (f : TakeSlot → TakeSlot) (f' : Fld) (l' i' : Nat) : (setTake s ch c k f).fget f' l' i' = s.fget f' l' i' := rfl
@[simp] theorem setTake_tl_view (s : State) (ch c k : Nat) (f : TakeSlot → TakeSlot) (ch' c' t' : Nat) : (setTake s ch c k f).tl ch' c' t' = s.tl ch' c' t' := rfl
@[simp] theorem setTake_chan_view (s : State) (ch c k : Nat) (f : TakeSlot → TakeSlot) (ch' : Nat) : (setTake s ch c k f).chan ch' = s.chan ch' := rfl
@[simp] theorem setTake_obj_view (s : State) (ch c k : Nat) (f : TakeSlot → TakeSlot) (ch' o' : Nat) : (setTake s ch c k f).obj ch' o' = s.obj ch' o' := rfl
@[simp] theorem setTake_dist_view (s : State) (ch c k : Nat) (f : TakeSlot → TakeSlot) (ch' d' : Nat) : (setTake s ch c k f).dist ch' d' = s.dist ch' d' := rfl
@[simp] theorem setTake_mon_view (s : State) (ch c k : Nat) (f : TakeSlot → TakeSlot) (ch' : Nat) : (setTake s ch c k f).mon ch' = s.mon ch' := rfl
@[simp] theorem setTake_load_view (s : State) (ch c k : Nat) (f : TakeSlot → TakeSlot) (ch' : Nat) : (setTake s ch c k f).load ch' = s.load ch' := rfl
@[simp] theorem setTake_seal_view (s : State) (ch c k : Nat) (f : TakeSlot → TakeSlot) (ch' : Nat) : (setTake s ch c k f).seal ch' = s.seal ch' := rfl
@[simp] theorem setTake_ct_view (s : State) (ch c k : Nat) (f : TakeSlot → TakeSlot) (ch' : Nat) : (setTake s ch c k f).ct ch' = s.ct ch' := rfl
@[simp] theorem setTake_flow_view (s : State) (ch c k : Nat) (f : TakeSlot → TakeSlot) (ch' n' : Nat) : (setTake s ch c k f).flow ch' n' = s.flow ch' n' := rfl
@[simp] theorem setTake_lk_view (s : State) (ch c k : Nat) (f : TakeSlot → TakeSlot) (k' : LinkId) : (setTake s ch c k f).lk k' = s.lk k' := rfl
@[simp] theorem setTake_fc_view (s : State) (ch c k : Nat) (f : TakeSlot → TakeSlot) (n' : Nat) : (setTake s ch c k f).fc n' = s.fc n' := rfl
@[simp] theorem setTake_dly_view (s : State) (ch c k : Nat) (f : TakeSlot → TakeSlot) (ch' : Nat) : (setTake s ch c k f).dly ch' = s.dly ch' := rfl
@[simp] theorem setTake_fn_view (s : State) (ch c k : Nat) (f : TakeSlot → TakeSlot) (n' : Nat) : (setTake s ch c k f).fn n' = s.fn n' := rfl
@[simp] theorem setTake_byteAt_view (s : State) (ch c k : Nat) (f : TakeSlot → TakeSlot) (a' : Nat) : (setTake s ch c k f).byteAt a' = s.byteAt a' := rfl
@[simp] theorem setTake_poisoned_view (s : State) (ch c k : Nat) (f : TakeSlot → TakeSlot) (a' : Nat) : (setTake s ch c k f).poisoned a' = s.poisoned a' := rfl
@[simp] theorem setTake_rpt_view (s : State) (ch c k : Nat) (f : TakeSlot → TakeSlot) (ch' : Nat) : (setTake s ch c k f).rpt ch' = s.rpt ch' := rfl

/-! `setTl`. -/

@[simp] theorem setTl_reg_view (s : State) (ch c t : Nat) (f : Tile → Tile) (r' : Reg) (l' i' : Nat) : (s.setTl ch c t f).reg r' l' i' = s.reg r' l' i' := rfl
@[simp] theorem setTl_fget_view (s : State) (ch c t : Nat) (f : Tile → Tile) (f' : Fld) (l' i' : Nat) : (s.setTl ch c t f).fget f' l' i' = s.fget f' l' i' := rfl
@[simp] theorem setTl_clu_view (s : State) (ch c t : Nat) (f : Tile → Tile) (ch' c' : Nat) : (s.setTl ch c t f).clu ch' c' = s.clu ch' c' := rfl
@[simp] theorem setTl_stw_view (s : State) (ch c t : Nat) (f : Tile → Tile) (ch' c' w' : Nat) : (s.setTl ch c t f).stw ch' c' w' = s.stw ch' c' w' := rfl
@[simp] theorem setTl_chan_view (s : State) (ch c t : Nat) (f : Tile → Tile) (ch' : Nat) : (s.setTl ch c t f).chan ch' = s.chan ch' := rfl
@[simp] theorem setTl_obj_view (s : State) (ch c t : Nat) (f : Tile → Tile) (ch' o' : Nat) : (s.setTl ch c t f).obj ch' o' = s.obj ch' o' := rfl
@[simp] theorem setTl_dist_view (s : State) (ch c t : Nat) (f : Tile → Tile) (ch' d' : Nat) : (s.setTl ch c t f).dist ch' d' = s.dist ch' d' := rfl
@[simp] theorem setTl_mon_view (s : State) (ch c t : Nat) (f : Tile → Tile) (ch' : Nat) : (s.setTl ch c t f).mon ch' = s.mon ch' := rfl
@[simp] theorem setTl_load_view (s : State) (ch c t : Nat) (f : Tile → Tile) (ch' : Nat) : (s.setTl ch c t f).load ch' = s.load ch' := rfl
@[simp] theorem setTl_seal_view (s : State) (ch c t : Nat) (f : Tile → Tile) (ch' : Nat) : (s.setTl ch c t f).seal ch' = s.seal ch' := rfl
@[simp] theorem setTl_ct_view (s : State) (ch c t : Nat) (f : Tile → Tile) (ch' : Nat) : (s.setTl ch c t f).ct ch' = s.ct ch' := rfl
@[simp] theorem setTl_flow_view (s : State) (ch c t : Nat) (f : Tile → Tile) (ch' n' : Nat) : (s.setTl ch c t f).flow ch' n' = s.flow ch' n' := rfl
@[simp] theorem setTl_lk_view (s : State) (ch c t : Nat) (f : Tile → Tile) (k' : LinkId) : (s.setTl ch c t f).lk k' = s.lk k' := rfl
@[simp] theorem setTl_fc_view (s : State) (ch c t : Nat) (f : Tile → Tile) (n' : Nat) : (s.setTl ch c t f).fc n' = s.fc n' := rfl
@[simp] theorem setTl_dly_view (s : State) (ch c t : Nat) (f : Tile → Tile) (ch' : Nat) : (s.setTl ch c t f).dly ch' = s.dly ch' := rfl
@[simp] theorem setTl_fn_view (s : State) (ch c t : Nat) (f : Tile → Tile) (n' : Nat) : (s.setTl ch c t f).fn n' = s.fn n' := rfl
@[simp] theorem setTl_byteAt_view (s : State) (ch c t : Nat) (f : Tile → Tile) (a' : Nat) : (s.setTl ch c t f).byteAt a' = s.byteAt a' := rfl
@[simp] theorem setTl_poisoned_view (s : State) (ch c t : Nat) (f : Tile → Tile) (a' : Nat) : (s.setTl ch c t f).poisoned a' = s.poisoned a' := rfl
@[simp] theorem setTl_rpt_view (s : State) (ch c t : Nat) (f : Tile → Tile) (ch' : Nat) : (s.setTl ch c t f).rpt ch' = s.rpt ch' := rfl

/-! `mapTiles`. -/

@[simp] theorem mapTiles_reg_view (s : State) (ch c : Nat) (f : Tile → Tile) (r' : Reg) (l' i' : Nat) : (mapTiles s ch c f).reg r' l' i' = s.reg r' l' i' := rfl
@[simp] theorem mapTiles_fget_view (s : State) (ch c : Nat) (f : Tile → Tile) (f' : Fld) (l' i' : Nat) : (mapTiles s ch c f).fget f' l' i' = s.fget f' l' i' := rfl
@[simp] theorem mapTiles_clu_view (s : State) (ch c : Nat) (f : Tile → Tile) (ch' c' : Nat) : (mapTiles s ch c f).clu ch' c' = s.clu ch' c' := rfl
@[simp] theorem mapTiles_stw_view (s : State) (ch c : Nat) (f : Tile → Tile) (ch' c' w' : Nat) : (mapTiles s ch c f).stw ch' c' w' = s.stw ch' c' w' := rfl
@[simp] theorem mapTiles_chan_view (s : State) (ch c : Nat) (f : Tile → Tile) (ch' : Nat) : (mapTiles s ch c f).chan ch' = s.chan ch' := rfl
@[simp] theorem mapTiles_obj_view (s : State) (ch c : Nat) (f : Tile → Tile) (ch' o' : Nat) : (mapTiles s ch c f).obj ch' o' = s.obj ch' o' := rfl
@[simp] theorem mapTiles_dist_view (s : State) (ch c : Nat) (f : Tile → Tile) (ch' d' : Nat) : (mapTiles s ch c f).dist ch' d' = s.dist ch' d' := rfl
@[simp] theorem mapTiles_mon_view (s : State) (ch c : Nat) (f : Tile → Tile) (ch' : Nat) : (mapTiles s ch c f).mon ch' = s.mon ch' := rfl
@[simp] theorem mapTiles_load_view (s : State) (ch c : Nat) (f : Tile → Tile) (ch' : Nat) : (mapTiles s ch c f).load ch' = s.load ch' := rfl
@[simp] theorem mapTiles_seal_view (s : State) (ch c : Nat) (f : Tile → Tile) (ch' : Nat) : (mapTiles s ch c f).seal ch' = s.seal ch' := rfl
@[simp] theorem mapTiles_ct_view (s : State) (ch c : Nat) (f : Tile → Tile) (ch' : Nat) : (mapTiles s ch c f).ct ch' = s.ct ch' := rfl
@[simp] theorem mapTiles_flow_view (s : State) (ch c : Nat) (f : Tile → Tile) (ch' n' : Nat) : (mapTiles s ch c f).flow ch' n' = s.flow ch' n' := rfl
@[simp] theorem mapTiles_lk_view (s : State) (ch c : Nat) (f : Tile → Tile) (k' : LinkId) : (mapTiles s ch c f).lk k' = s.lk k' := rfl
@[simp] theorem mapTiles_fc_view (s : State) (ch c : Nat) (f : Tile → Tile) (n' : Nat) : (mapTiles s ch c f).fc n' = s.fc n' := rfl
@[simp] theorem mapTiles_dly_view (s : State) (ch c : Nat) (f : Tile → Tile) (ch' : Nat) : (mapTiles s ch c f).dly ch' = s.dly ch' := rfl
@[simp] theorem mapTiles_fn_view (s : State) (ch c : Nat) (f : Tile → Tile) (n' : Nat) : (mapTiles s ch c f).fn n' = s.fn n' := rfl
@[simp] theorem mapTiles_byteAt_view (s : State) (ch c : Nat) (f : Tile → Tile) (a' : Nat) : (mapTiles s ch c f).byteAt a' = s.byteAt a' := rfl
@[simp] theorem mapTiles_poisoned_view (s : State) (ch c : Nat) (f : Tile → Tile) (a' : Nat) : (mapTiles s ch c f).poisoned a' = s.poisoned a' := rfl
@[simp] theorem mapTiles_rpt_view (s : State) (ch c : Nat) (f : Tile → Tile) (ch' : Nat) : (mapTiles s ch c f).rpt ch' = s.rpt ch' := rfl

/-! `setChan`. -/

@[simp] theorem setChan_reg_view (s : State) (ch : Nat) (f : Chan → Chan) (r' : Reg) (l' i' : Nat) : (s.setChan ch f).reg r' l' i' = s.reg r' l' i' := rfl
@[simp] theorem setChan_fget_view (s : State) (ch : Nat) (f : Chan → Chan) (f' : Fld) (l' i' : Nat) : (s.setChan ch f).fget f' l' i' = s.fget f' l' i' := rfl
@[simp] theorem setChan_clu_view (s : State) (ch : Nat) (f : Chan → Chan) (ch' c' : Nat) : (s.setChan ch f).clu ch' c' = s.clu ch' c' := rfl
@[simp] theorem setChan_stw_view (s : State) (ch : Nat) (f : Chan → Chan) (ch' c' w' : Nat) : (s.setChan ch f).stw ch' c' w' = s.stw ch' c' w' := rfl
@[simp] theorem setChan_tl_view (s : State) (ch : Nat) (f : Chan → Chan) (ch' c' t' : Nat) : (s.setChan ch f).tl ch' c' t' = s.tl ch' c' t' := rfl
@[simp] theorem setChan_dist_view (s : State) (ch : Nat) (f : Chan → Chan) (ch' d' : Nat) : (s.setChan ch f).dist ch' d' = s.dist ch' d' := rfl
@[simp] theorem setChan_mon_view (s : State) (ch : Nat) (f : Chan → Chan) (ch' : Nat) : (s.setChan ch f).mon ch' = s.mon ch' := rfl
@[simp] theorem setChan_load_view (s : State) (ch : Nat) (f : Chan → Chan) (ch' : Nat) : (s.setChan ch f).load ch' = s.load ch' := rfl
@[simp] theorem setChan_seal_view (s : State) (ch : Nat) (f : Chan → Chan) (ch' : Nat) : (s.setChan ch f).seal ch' = s.seal ch' := rfl
@[simp] theorem setChan_ct_view (s : State) (ch : Nat) (f : Chan → Chan) (ch' : Nat) : (s.setChan ch f).ct ch' = s.ct ch' := rfl
@[simp] theorem setChan_flow_view (s : State) (ch : Nat) (f : Chan → Chan) (ch' n' : Nat) : (s.setChan ch f).flow ch' n' = s.flow ch' n' := rfl
@[simp] theorem setChan_lk_view (s : State) (ch : Nat) (f : Chan → Chan) (k' : LinkId) : (s.setChan ch f).lk k' = s.lk k' := rfl
@[simp] theorem setChan_fc_view (s : State) (ch : Nat) (f : Chan → Chan) (n' : Nat) : (s.setChan ch f).fc n' = s.fc n' := rfl
@[simp] theorem setChan_dly_view (s : State) (ch : Nat) (f : Chan → Chan) (ch' : Nat) : (s.setChan ch f).dly ch' = s.dly ch' := rfl
@[simp] theorem setChan_fn_view (s : State) (ch : Nat) (f : Chan → Chan) (n' : Nat) : (s.setChan ch f).fn n' = s.fn n' := rfl
@[simp] theorem setChan_byteAt_view (s : State) (ch : Nat) (f : Chan → Chan) (a' : Nat) : (s.setChan ch f).byteAt a' = s.byteAt a' := rfl
@[simp] theorem setChan_poisoned_view (s : State) (ch : Nat) (f : Chan → Chan) (a' : Nat) : (s.setChan ch f).poisoned a' = s.poisoned a' := rfl
@[simp] theorem setChan_rpt_view (s : State) (ch : Nat) (f : Chan → Chan) (ch' : Nat) : (s.setChan ch f).rpt ch' = s.rpt ch' := rfl

/-! `setReq`. -/

@[simp] theorem setReq_reg_view (s : State) (ch n : Nat) (f : Req → Req) (r' : Reg) (l' i' : Nat) : (setReq s ch n f).reg r' l' i' = s.reg r' l' i' := rfl
@[simp] theorem setReq_fget_view (s : State) (ch n : Nat) (f : Req → Req) (f' : Fld) (l' i' : Nat) : (setReq s ch n f).fget f' l' i' = s.fget f' l' i' := rfl
@[simp] theorem setReq_clu_view (s : State) (ch n : Nat) (f : Req → Req) (ch' c' : Nat) : (setReq s ch n f).clu ch' c' = s.clu ch' c' := rfl
@[simp] theorem setReq_stw_view (s : State) (ch n : Nat) (f : Req → Req) (ch' c' w' : Nat) : (setReq s ch n f).stw ch' c' w' = s.stw ch' c' w' := rfl
@[simp] theorem setReq_tl_view (s : State) (ch n : Nat) (f : Req → Req) (ch' c' t' : Nat) : (setReq s ch n f).tl ch' c' t' = s.tl ch' c' t' := rfl
@[simp] theorem setReq_dist_view (s : State) (ch n : Nat) (f : Req → Req) (ch' d' : Nat) : (setReq s ch n f).dist ch' d' = s.dist ch' d' := rfl
@[simp] theorem setReq_mon_view (s : State) (ch n : Nat) (f : Req → Req) (ch' : Nat) : (setReq s ch n f).mon ch' = s.mon ch' := rfl
@[simp] theorem setReq_load_view (s : State) (ch n : Nat) (f : Req → Req) (ch' : Nat) : (setReq s ch n f).load ch' = s.load ch' := rfl
@[simp] theorem setReq_seal_view (s : State) (ch n : Nat) (f : Req → Req) (ch' : Nat) : (setReq s ch n f).seal ch' = s.seal ch' := rfl
@[simp] theorem setReq_ct_view (s : State) (ch n : Nat) (f : Req → Req) (ch' : Nat) : (setReq s ch n f).ct ch' = s.ct ch' := rfl
@[simp] theorem setReq_flow_view (s : State) (ch n : Nat) (f : Req → Req) (ch' n' : Nat) : (setReq s ch n f).flow ch' n' = s.flow ch' n' := rfl
@[simp] theorem setReq_lk_view (s : State) (ch n : Nat) (f : Req → Req) (k' : LinkId) : (setReq s ch n f).lk k' = s.lk k' := rfl
@[simp] theorem setReq_fc_view (s : State) (ch n : Nat) (f : Req → Req) (n' : Nat) : (setReq s ch n f).fc n' = s.fc n' := rfl
@[simp] theorem setReq_dly_view (s : State) (ch n : Nat) (f : Req → Req) (ch' : Nat) : (setReq s ch n f).dly ch' = s.dly ch' := rfl
@[simp] theorem setReq_fn_view (s : State) (ch n : Nat) (f : Req → Req) (n' : Nat) : (setReq s ch n f).fn n' = s.fn n' := rfl
@[simp] theorem setReq_byteAt_view (s : State) (ch n : Nat) (f : Req → Req) (a' : Nat) : (setReq s ch n f).byteAt a' = s.byteAt a' := rfl
@[simp] theorem setReq_poisoned_view (s : State) (ch n : Nat) (f : Req → Req) (a' : Nat) : (setReq s ch n f).poisoned a' = s.poisoned a' := rfl
@[simp] theorem setReq_rpt_view (s : State) (ch n : Nat) (f : Req → Req) (ch' : Nat) : (setReq s ch n f).rpt ch' = s.rpt ch' := rfl

/-! `dropReq`. -/

@[simp] theorem dropReq_reg_view (s : State) (ch n : Nat) (r' : Reg) (l' i' : Nat) : (dropReq s ch n).reg r' l' i' = s.reg r' l' i' := rfl
@[simp] theorem dropReq_fget_view (s : State) (ch n : Nat) (f' : Fld) (l' i' : Nat) : (dropReq s ch n).fget f' l' i' = s.fget f' l' i' := rfl
@[simp] theorem dropReq_clu_view (s : State) (ch n : Nat) (ch' c' : Nat) : (dropReq s ch n).clu ch' c' = s.clu ch' c' := rfl
@[simp] theorem dropReq_stw_view (s : State) (ch n : Nat) (ch' c' w' : Nat) : (dropReq s ch n).stw ch' c' w' = s.stw ch' c' w' := rfl
@[simp] theorem dropReq_tl_view (s : State) (ch n : Nat) (ch' c' t' : Nat) : (dropReq s ch n).tl ch' c' t' = s.tl ch' c' t' := rfl
@[simp] theorem dropReq_dist_view (s : State) (ch n : Nat) (ch' d' : Nat) : (dropReq s ch n).dist ch' d' = s.dist ch' d' := rfl
@[simp] theorem dropReq_mon_view (s : State) (ch n : Nat) (ch' : Nat) : (dropReq s ch n).mon ch' = s.mon ch' := rfl
@[simp] theorem dropReq_load_view (s : State) (ch n : Nat) (ch' : Nat) : (dropReq s ch n).load ch' = s.load ch' := rfl
@[simp] theorem dropReq_seal_view (s : State) (ch n : Nat) (ch' : Nat) : (dropReq s ch n).seal ch' = s.seal ch' := rfl
@[simp] theorem dropReq_ct_view (s : State) (ch n : Nat) (ch' : Nat) : (dropReq s ch n).ct ch' = s.ct ch' := rfl
@[simp] theorem dropReq_flow_view (s : State) (ch n : Nat) (ch' n' : Nat) : (dropReq s ch n).flow ch' n' = s.flow ch' n' := rfl
@[simp] theorem dropReq_lk_view (s : State) (ch n : Nat) (k' : LinkId) : (dropReq s ch n).lk k' = s.lk k' := rfl
@[simp] theorem dropReq_fc_view (s : State) (ch n : Nat) (n' : Nat) : (dropReq s ch n).fc n' = s.fc n' := rfl
@[simp] theorem dropReq_dly_view (s : State) (ch n : Nat) (ch' : Nat) : (dropReq s ch n).dly ch' = s.dly ch' := rfl
@[simp] theorem dropReq_fn_view (s : State) (ch n : Nat) (n' : Nat) : (dropReq s ch n).fn n' = s.fn n' := rfl
@[simp] theorem dropReq_byteAt_view (s : State) (ch n : Nat) (a' : Nat) : (dropReq s ch n).byteAt a' = s.byteAt a' := rfl
@[simp] theorem dropReq_poisoned_view (s : State) (ch n : Nat) (a' : Nat) : (dropReq s ch n).poisoned a' = s.poisoned a' := rfl
@[simp] theorem dropReq_rpt_view (s : State) (ch n : Nat) (ch' : Nat) : (dropReq s ch n).rpt ch' = s.rpt ch' := rfl

/-! `pushReq`. -/

@[simp] theorem pushReq_reg_view (s : State) (ch : Nat) (r : Req) (r' : Reg) (l' i' : Nat) : (pushReq s ch r).reg r' l' i' = s.reg r' l' i' := rfl
@[simp] theorem pushReq_fget_view (s : State) (ch : Nat) (r : Req) (f' : Fld) (l' i' : Nat) : (pushReq s ch r).fget f' l' i' = s.fget f' l' i' := rfl
@[simp] theorem pushReq_clu_view (s : State) (ch : Nat) (r : Req) (ch' c' : Nat) : (pushReq s ch r).clu ch' c' = s.clu ch' c' := rfl
@[simp] theorem pushReq_stw_view (s : State) (ch : Nat) (r : Req) (ch' c' w' : Nat) : (pushReq s ch r).stw ch' c' w' = s.stw ch' c' w' := rfl
@[simp] theorem pushReq_tl_view (s : State) (ch : Nat) (r : Req) (ch' c' t' : Nat) : (pushReq s ch r).tl ch' c' t' = s.tl ch' c' t' := rfl
@[simp] theorem pushReq_dist_view (s : State) (ch : Nat) (r : Req) (ch' d' : Nat) : (pushReq s ch r).dist ch' d' = s.dist ch' d' := rfl
@[simp] theorem pushReq_mon_view (s : State) (ch : Nat) (r : Req) (ch' : Nat) : (pushReq s ch r).mon ch' = s.mon ch' := rfl
@[simp] theorem pushReq_load_view (s : State) (ch : Nat) (r : Req) (ch' : Nat) : (pushReq s ch r).load ch' = s.load ch' := rfl
@[simp] theorem pushReq_seal_view (s : State) (ch : Nat) (r : Req) (ch' : Nat) : (pushReq s ch r).seal ch' = s.seal ch' := rfl
@[simp] theorem pushReq_ct_view (s : State) (ch : Nat) (r : Req) (ch' : Nat) : (pushReq s ch r).ct ch' = s.ct ch' := rfl
@[simp] theorem pushReq_flow_view (s : State) (ch : Nat) (r : Req) (ch' n' : Nat) : (pushReq s ch r).flow ch' n' = s.flow ch' n' := rfl
@[simp] theorem pushReq_lk_view (s : State) (ch : Nat) (r : Req) (k' : LinkId) : (pushReq s ch r).lk k' = s.lk k' := rfl
@[simp] theorem pushReq_fc_view (s : State) (ch : Nat) (r : Req) (n' : Nat) : (pushReq s ch r).fc n' = s.fc n' := rfl
@[simp] theorem pushReq_dly_view (s : State) (ch : Nat) (r : Req) (ch' : Nat) : (pushReq s ch r).dly ch' = s.dly ch' := rfl
@[simp] theorem pushReq_fn_view (s : State) (ch : Nat) (r : Req) (n' : Nat) : (pushReq s ch r).fn n' = s.fn n' := rfl
@[simp] theorem pushReq_byteAt_view (s : State) (ch : Nat) (r : Req) (a' : Nat) : (pushReq s ch r).byteAt a' = s.byteAt a' := rfl
@[simp] theorem pushReq_poisoned_view (s : State) (ch : Nat) (r : Req) (a' : Nat) : (pushReq s ch r).poisoned a' = s.poisoned a' := rfl
@[simp] theorem pushReq_rpt_view (s : State) (ch : Nat) (r : Req) (ch' : Nat) : (pushReq s ch r).rpt ch' = s.rpt ch' := rfl

/-! `setObj`. -/

@[simp] theorem setObj_reg_view (s : State) (ch o : Nat) (f : SObj → SObj) (r' : Reg) (l' i' : Nat) : (setObj s ch o f).reg r' l' i' = s.reg r' l' i' := rfl
@[simp] theorem setObj_fget_view (s : State) (ch o : Nat) (f : SObj → SObj) (f' : Fld) (l' i' : Nat) : (setObj s ch o f).fget f' l' i' = s.fget f' l' i' := rfl
@[simp] theorem setObj_clu_view (s : State) (ch o : Nat) (f : SObj → SObj) (ch' c' : Nat) : (setObj s ch o f).clu ch' c' = s.clu ch' c' := rfl
@[simp] theorem setObj_stw_view (s : State) (ch o : Nat) (f : SObj → SObj) (ch' c' w' : Nat) : (setObj s ch o f).stw ch' c' w' = s.stw ch' c' w' := rfl
@[simp] theorem setObj_tl_view (s : State) (ch o : Nat) (f : SObj → SObj) (ch' c' t' : Nat) : (setObj s ch o f).tl ch' c' t' = s.tl ch' c' t' := rfl
@[simp] theorem setObj_dist_view (s : State) (ch o : Nat) (f : SObj → SObj) (ch' d' : Nat) : (setObj s ch o f).dist ch' d' = s.dist ch' d' := rfl
@[simp] theorem setObj_mon_view (s : State) (ch o : Nat) (f : SObj → SObj) (ch' : Nat) : (setObj s ch o f).mon ch' = s.mon ch' := rfl
@[simp] theorem setObj_load_view (s : State) (ch o : Nat) (f : SObj → SObj) (ch' : Nat) : (setObj s ch o f).load ch' = s.load ch' := rfl
@[simp] theorem setObj_seal_view (s : State) (ch o : Nat) (f : SObj → SObj) (ch' : Nat) : (setObj s ch o f).seal ch' = s.seal ch' := rfl
@[simp] theorem setObj_ct_view (s : State) (ch o : Nat) (f : SObj → SObj) (ch' : Nat) : (setObj s ch o f).ct ch' = s.ct ch' := rfl
@[simp] theorem setObj_flow_view (s : State) (ch o : Nat) (f : SObj → SObj) (ch' n' : Nat) : (setObj s ch o f).flow ch' n' = s.flow ch' n' := rfl
@[simp] theorem setObj_lk_view (s : State) (ch o : Nat) (f : SObj → SObj) (k' : LinkId) : (setObj s ch o f).lk k' = s.lk k' := rfl
@[simp] theorem setObj_fc_view (s : State) (ch o : Nat) (f : SObj → SObj) (n' : Nat) : (setObj s ch o f).fc n' = s.fc n' := rfl
@[simp] theorem setObj_dly_view (s : State) (ch o : Nat) (f : SObj → SObj) (ch' : Nat) : (setObj s ch o f).dly ch' = s.dly ch' := rfl
@[simp] theorem setObj_fn_view (s : State) (ch o : Nat) (f : SObj → SObj) (n' : Nat) : (setObj s ch o f).fn n' = s.fn n' := rfl
@[simp] theorem setObj_byteAt_view (s : State) (ch o : Nat) (f : SObj → SObj) (a' : Nat) : (setObj s ch o f).byteAt a' = s.byteAt a' := rfl
@[simp] theorem setObj_poisoned_view (s : State) (ch o : Nat) (f : SObj → SObj) (a' : Nat) : (setObj s ch o f).poisoned a' = s.poisoned a' := rfl
@[simp] theorem setObj_rpt_view (s : State) (ch o : Nat) (f : SObj → SObj) (ch' : Nat) : (setObj s ch o f).rpt ch' = s.rpt ch' := rfl

/-! `setDist`. -/

@[simp] theorem setDist_reg_view (s : State) (ch d : Nat) (f : District → District) (r' : Reg) (l' i' : Nat) : (s.setDist ch d f).reg r' l' i' = s.reg r' l' i' := rfl
@[simp] theorem setDist_fget_view (s : State) (ch d : Nat) (f : District → District) (f' : Fld) (l' i' : Nat) : (s.setDist ch d f).fget f' l' i' = s.fget f' l' i' := rfl
@[simp] theorem setDist_clu_view (s : State) (ch d : Nat) (f : District → District) (ch' c' : Nat) : (s.setDist ch d f).clu ch' c' = s.clu ch' c' := rfl
@[simp] theorem setDist_stw_view (s : State) (ch d : Nat) (f : District → District) (ch' c' w' : Nat) : (s.setDist ch d f).stw ch' c' w' = s.stw ch' c' w' := rfl
@[simp] theorem setDist_tl_view (s : State) (ch d : Nat) (f : District → District) (ch' c' t' : Nat) : (s.setDist ch d f).tl ch' c' t' = s.tl ch' c' t' := rfl
@[simp] theorem setDist_chan_view (s : State) (ch d : Nat) (f : District → District) (ch' : Nat) : (s.setDist ch d f).chan ch' = s.chan ch' := rfl
@[simp] theorem setDist_obj_view (s : State) (ch d : Nat) (f : District → District) (ch' o' : Nat) : (s.setDist ch d f).obj ch' o' = s.obj ch' o' := rfl
@[simp] theorem setDist_mon_view (s : State) (ch d : Nat) (f : District → District) (ch' : Nat) : (s.setDist ch d f).mon ch' = s.mon ch' := rfl
@[simp] theorem setDist_load_view (s : State) (ch d : Nat) (f : District → District) (ch' : Nat) : (s.setDist ch d f).load ch' = s.load ch' := rfl
@[simp] theorem setDist_seal_view (s : State) (ch d : Nat) (f : District → District) (ch' : Nat) : (s.setDist ch d f).seal ch' = s.seal ch' := rfl
@[simp] theorem setDist_ct_view (s : State) (ch d : Nat) (f : District → District) (ch' : Nat) : (s.setDist ch d f).ct ch' = s.ct ch' := rfl
@[simp] theorem setDist_flow_view (s : State) (ch d : Nat) (f : District → District) (ch' n' : Nat) : (s.setDist ch d f).flow ch' n' = s.flow ch' n' := rfl
@[simp] theorem setDist_lk_view (s : State) (ch d : Nat) (f : District → District) (k' : LinkId) : (s.setDist ch d f).lk k' = s.lk k' := rfl
@[simp] theorem setDist_fc_view (s : State) (ch d : Nat) (f : District → District) (n' : Nat) : (s.setDist ch d f).fc n' = s.fc n' := rfl
@[simp] theorem setDist_dly_view (s : State) (ch d : Nat) (f : District → District) (ch' : Nat) : (s.setDist ch d f).dly ch' = s.dly ch' := rfl
@[simp] theorem setDist_fn_view (s : State) (ch d : Nat) (f : District → District) (n' : Nat) : (s.setDist ch d f).fn n' = s.fn n' := rfl
@[simp] theorem setDist_byteAt_view (s : State) (ch d : Nat) (f : District → District) (a' : Nat) : (s.setDist ch d f).byteAt a' = s.byteAt a' := rfl
@[simp] theorem setDist_poisoned_view (s : State) (ch d : Nat) (f : District → District) (a' : Nat) : (s.setDist ch d f).poisoned a' = s.poisoned a' := rfl
@[simp] theorem setDist_rpt_view (s : State) (ch d : Nat) (f : District → District) (ch' : Nat) : (s.setDist ch d f).rpt ch' = s.rpt ch' := rfl

/-! `districtBusy`. -/

@[simp] theorem districtBusy_reg_view (s : State) (ch d : Nat) (r' : Reg) (l' i' : Nat) : (districtBusy s ch d).reg r' l' i' = s.reg r' l' i' := rfl
@[simp] theorem districtBusy_fget_view (s : State) (ch d : Nat) (f' : Fld) (l' i' : Nat) : (districtBusy s ch d).fget f' l' i' = s.fget f' l' i' := rfl
@[simp] theorem districtBusy_clu_view (s : State) (ch d : Nat) (ch' c' : Nat) : (districtBusy s ch d).clu ch' c' = s.clu ch' c' := rfl
@[simp] theorem districtBusy_stw_view (s : State) (ch d : Nat) (ch' c' w' : Nat) : (districtBusy s ch d).stw ch' c' w' = s.stw ch' c' w' := rfl
@[simp] theorem districtBusy_tl_view (s : State) (ch d : Nat) (ch' c' t' : Nat) : (districtBusy s ch d).tl ch' c' t' = s.tl ch' c' t' := rfl
@[simp] theorem districtBusy_chan_view (s : State) (ch d : Nat) (ch' : Nat) : (districtBusy s ch d).chan ch' = s.chan ch' := rfl
@[simp] theorem districtBusy_obj_view (s : State) (ch d : Nat) (ch' o' : Nat) : (districtBusy s ch d).obj ch' o' = s.obj ch' o' := rfl
@[simp] theorem districtBusy_mon_view (s : State) (ch d : Nat) (ch' : Nat) : (districtBusy s ch d).mon ch' = s.mon ch' := rfl
@[simp] theorem districtBusy_load_view (s : State) (ch d : Nat) (ch' : Nat) : (districtBusy s ch d).load ch' = s.load ch' := rfl
@[simp] theorem districtBusy_seal_view (s : State) (ch d : Nat) (ch' : Nat) : (districtBusy s ch d).seal ch' = s.seal ch' := rfl
@[simp] theorem districtBusy_ct_view (s : State) (ch d : Nat) (ch' : Nat) : (districtBusy s ch d).ct ch' = s.ct ch' := rfl
@[simp] theorem districtBusy_flow_view (s : State) (ch d : Nat) (ch' n' : Nat) : (districtBusy s ch d).flow ch' n' = s.flow ch' n' := rfl
@[simp] theorem districtBusy_lk_view (s : State) (ch d : Nat) (k' : LinkId) : (districtBusy s ch d).lk k' = s.lk k' := rfl
@[simp] theorem districtBusy_fc_view (s : State) (ch d : Nat) (n' : Nat) : (districtBusy s ch d).fc n' = s.fc n' := rfl
@[simp] theorem districtBusy_dly_view (s : State) (ch d : Nat) (ch' : Nat) : (districtBusy s ch d).dly ch' = s.dly ch' := rfl
@[simp] theorem districtBusy_fn_view (s : State) (ch d : Nat) (n' : Nat) : (districtBusy s ch d).fn n' = s.fn n' := rfl
@[simp] theorem districtBusy_byteAt_view (s : State) (ch d : Nat) (a' : Nat) : (districtBusy s ch d).byteAt a' = s.byteAt a' := rfl
@[simp] theorem districtBusy_poisoned_view (s : State) (ch d : Nat) (a' : Nat) : (districtBusy s ch d).poisoned a' = s.poisoned a' := rfl
@[simp] theorem districtBusy_rpt_view (s : State) (ch d : Nat) (ch' : Nat) : (districtBusy s ch d).rpt ch' = s.rpt ch' := rfl

/-! `setMon`. -/

@[simp] theorem setMon_reg_view (s : State) (ch : Nat) (f : Monitor → Monitor) (r' : Reg) (l' i' : Nat) : (s.setMon ch f).reg r' l' i' = s.reg r' l' i' := rfl
@[simp] theorem setMon_fget_view (s : State) (ch : Nat) (f : Monitor → Monitor) (f' : Fld) (l' i' : Nat) : (s.setMon ch f).fget f' l' i' = s.fget f' l' i' := rfl
@[simp] theorem setMon_clu_view (s : State) (ch : Nat) (f : Monitor → Monitor) (ch' c' : Nat) : (s.setMon ch f).clu ch' c' = s.clu ch' c' := rfl
@[simp] theorem setMon_stw_view (s : State) (ch : Nat) (f : Monitor → Monitor) (ch' c' w' : Nat) : (s.setMon ch f).stw ch' c' w' = s.stw ch' c' w' := rfl
@[simp] theorem setMon_tl_view (s : State) (ch : Nat) (f : Monitor → Monitor) (ch' c' t' : Nat) : (s.setMon ch f).tl ch' c' t' = s.tl ch' c' t' := rfl
@[simp] theorem setMon_chan_view (s : State) (ch : Nat) (f : Monitor → Monitor) (ch' : Nat) : (s.setMon ch f).chan ch' = s.chan ch' := rfl
@[simp] theorem setMon_obj_view (s : State) (ch : Nat) (f : Monitor → Monitor) (ch' o' : Nat) : (s.setMon ch f).obj ch' o' = s.obj ch' o' := rfl
@[simp] theorem setMon_dist_view (s : State) (ch : Nat) (f : Monitor → Monitor) (ch' d' : Nat) : (s.setMon ch f).dist ch' d' = s.dist ch' d' := rfl
@[simp] theorem setMon_load_view (s : State) (ch : Nat) (f : Monitor → Monitor) (ch' : Nat) : (s.setMon ch f).load ch' = s.load ch' := rfl
@[simp] theorem setMon_seal_view (s : State) (ch : Nat) (f : Monitor → Monitor) (ch' : Nat) : (s.setMon ch f).seal ch' = s.seal ch' := rfl
@[simp] theorem setMon_ct_view (s : State) (ch : Nat) (f : Monitor → Monitor) (ch' : Nat) : (s.setMon ch f).ct ch' = s.ct ch' := rfl
@[simp] theorem setMon_flow_view (s : State) (ch : Nat) (f : Monitor → Monitor) (ch' n' : Nat) : (s.setMon ch f).flow ch' n' = s.flow ch' n' := rfl
@[simp] theorem setMon_lk_view (s : State) (ch : Nat) (f : Monitor → Monitor) (k' : LinkId) : (s.setMon ch f).lk k' = s.lk k' := rfl
@[simp] theorem setMon_fc_view (s : State) (ch : Nat) (f : Monitor → Monitor) (n' : Nat) : (s.setMon ch f).fc n' = s.fc n' := rfl
@[simp] theorem setMon_dly_view (s : State) (ch : Nat) (f : Monitor → Monitor) (ch' : Nat) : (s.setMon ch f).dly ch' = s.dly ch' := rfl
@[simp] theorem setMon_fn_view (s : State) (ch : Nat) (f : Monitor → Monitor) (n' : Nat) : (s.setMon ch f).fn n' = s.fn n' := rfl
@[simp] theorem setMon_byteAt_view (s : State) (ch : Nat) (f : Monitor → Monitor) (a' : Nat) : (s.setMon ch f).byteAt a' = s.byteAt a' := rfl
@[simp] theorem setMon_poisoned_view (s : State) (ch : Nat) (f : Monitor → Monitor) (a' : Nat) : (s.setMon ch f).poisoned a' = s.poisoned a' := rfl
@[simp] theorem setMon_rpt_view (s : State) (ch : Nat) (f : Monitor → Monitor) (ch' : Nat) : (s.setMon ch f).rpt ch' = s.rpt ch' := rfl

/-! `setLoad`. -/

@[simp] theorem setLoad_reg_view (s : State) (ch : Nat) (f : LoadSeq → LoadSeq) (r' : Reg) (l' i' : Nat) : (s.setLoad ch f).reg r' l' i' = s.reg r' l' i' := rfl
@[simp] theorem setLoad_fget_view (s : State) (ch : Nat) (f : LoadSeq → LoadSeq) (f' : Fld) (l' i' : Nat) : (s.setLoad ch f).fget f' l' i' = s.fget f' l' i' := rfl
@[simp] theorem setLoad_clu_view (s : State) (ch : Nat) (f : LoadSeq → LoadSeq) (ch' c' : Nat) : (s.setLoad ch f).clu ch' c' = s.clu ch' c' := rfl
@[simp] theorem setLoad_stw_view (s : State) (ch : Nat) (f : LoadSeq → LoadSeq) (ch' c' w' : Nat) : (s.setLoad ch f).stw ch' c' w' = s.stw ch' c' w' := rfl
@[simp] theorem setLoad_tl_view (s : State) (ch : Nat) (f : LoadSeq → LoadSeq) (ch' c' t' : Nat) : (s.setLoad ch f).tl ch' c' t' = s.tl ch' c' t' := rfl
@[simp] theorem setLoad_chan_view (s : State) (ch : Nat) (f : LoadSeq → LoadSeq) (ch' : Nat) : (s.setLoad ch f).chan ch' = s.chan ch' := rfl
@[simp] theorem setLoad_obj_view (s : State) (ch : Nat) (f : LoadSeq → LoadSeq) (ch' o' : Nat) : (s.setLoad ch f).obj ch' o' = s.obj ch' o' := rfl
@[simp] theorem setLoad_dist_view (s : State) (ch : Nat) (f : LoadSeq → LoadSeq) (ch' d' : Nat) : (s.setLoad ch f).dist ch' d' = s.dist ch' d' := rfl
@[simp] theorem setLoad_mon_view (s : State) (ch : Nat) (f : LoadSeq → LoadSeq) (ch' : Nat) : (s.setLoad ch f).mon ch' = s.mon ch' := rfl
@[simp] theorem setLoad_seal_view (s : State) (ch : Nat) (f : LoadSeq → LoadSeq) (ch' : Nat) : (s.setLoad ch f).seal ch' = s.seal ch' := rfl
@[simp] theorem setLoad_ct_view (s : State) (ch : Nat) (f : LoadSeq → LoadSeq) (ch' : Nat) : (s.setLoad ch f).ct ch' = s.ct ch' := rfl
@[simp] theorem setLoad_flow_view (s : State) (ch : Nat) (f : LoadSeq → LoadSeq) (ch' n' : Nat) : (s.setLoad ch f).flow ch' n' = s.flow ch' n' := rfl
@[simp] theorem setLoad_lk_view (s : State) (ch : Nat) (f : LoadSeq → LoadSeq) (k' : LinkId) : (s.setLoad ch f).lk k' = s.lk k' := rfl
@[simp] theorem setLoad_fc_view (s : State) (ch : Nat) (f : LoadSeq → LoadSeq) (n' : Nat) : (s.setLoad ch f).fc n' = s.fc n' := rfl
@[simp] theorem setLoad_dly_view (s : State) (ch : Nat) (f : LoadSeq → LoadSeq) (ch' : Nat) : (s.setLoad ch f).dly ch' = s.dly ch' := rfl
@[simp] theorem setLoad_fn_view (s : State) (ch : Nat) (f : LoadSeq → LoadSeq) (n' : Nat) : (s.setLoad ch f).fn n' = s.fn n' := rfl
@[simp] theorem setLoad_byteAt_view (s : State) (ch : Nat) (f : LoadSeq → LoadSeq) (a' : Nat) : (s.setLoad ch f).byteAt a' = s.byteAt a' := rfl
@[simp] theorem setLoad_poisoned_view (s : State) (ch : Nat) (f : LoadSeq → LoadSeq) (a' : Nat) : (s.setLoad ch f).poisoned a' = s.poisoned a' := rfl
@[simp] theorem setLoad_rpt_view (s : State) (ch : Nat) (f : LoadSeq → LoadSeq) (ch' : Nat) : (s.setLoad ch f).rpt ch' = s.rpt ch' := rfl

/-! `setSeal`. -/

@[simp] theorem setSeal_reg_view (s : State) (ch : Nat) (f : Seal → Seal) (r' : Reg) (l' i' : Nat) : (s.setSeal ch f).reg r' l' i' = s.reg r' l' i' := rfl
@[simp] theorem setSeal_fget_view (s : State) (ch : Nat) (f : Seal → Seal) (f' : Fld) (l' i' : Nat) : (s.setSeal ch f).fget f' l' i' = s.fget f' l' i' := rfl
@[simp] theorem setSeal_clu_view (s : State) (ch : Nat) (f : Seal → Seal) (ch' c' : Nat) : (s.setSeal ch f).clu ch' c' = s.clu ch' c' := rfl
@[simp] theorem setSeal_stw_view (s : State) (ch : Nat) (f : Seal → Seal) (ch' c' w' : Nat) : (s.setSeal ch f).stw ch' c' w' = s.stw ch' c' w' := rfl
@[simp] theorem setSeal_tl_view (s : State) (ch : Nat) (f : Seal → Seal) (ch' c' t' : Nat) : (s.setSeal ch f).tl ch' c' t' = s.tl ch' c' t' := rfl
@[simp] theorem setSeal_chan_view (s : State) (ch : Nat) (f : Seal → Seal) (ch' : Nat) : (s.setSeal ch f).chan ch' = s.chan ch' := rfl
@[simp] theorem setSeal_obj_view (s : State) (ch : Nat) (f : Seal → Seal) (ch' o' : Nat) : (s.setSeal ch f).obj ch' o' = s.obj ch' o' := rfl
@[simp] theorem setSeal_dist_view (s : State) (ch : Nat) (f : Seal → Seal) (ch' d' : Nat) : (s.setSeal ch f).dist ch' d' = s.dist ch' d' := rfl
@[simp] theorem setSeal_mon_view (s : State) (ch : Nat) (f : Seal → Seal) (ch' : Nat) : (s.setSeal ch f).mon ch' = s.mon ch' := rfl
@[simp] theorem setSeal_load_view (s : State) (ch : Nat) (f : Seal → Seal) (ch' : Nat) : (s.setSeal ch f).load ch' = s.load ch' := rfl
@[simp] theorem setSeal_ct_view (s : State) (ch : Nat) (f : Seal → Seal) (ch' : Nat) : (s.setSeal ch f).ct ch' = s.ct ch' := rfl
@[simp] theorem setSeal_flow_view (s : State) (ch : Nat) (f : Seal → Seal) (ch' n' : Nat) : (s.setSeal ch f).flow ch' n' = s.flow ch' n' := rfl
@[simp] theorem setSeal_lk_view (s : State) (ch : Nat) (f : Seal → Seal) (k' : LinkId) : (s.setSeal ch f).lk k' = s.lk k' := rfl
@[simp] theorem setSeal_fc_view (s : State) (ch : Nat) (f : Seal → Seal) (n' : Nat) : (s.setSeal ch f).fc n' = s.fc n' := rfl
@[simp] theorem setSeal_dly_view (s : State) (ch : Nat) (f : Seal → Seal) (ch' : Nat) : (s.setSeal ch f).dly ch' = s.dly ch' := rfl
@[simp] theorem setSeal_fn_view (s : State) (ch : Nat) (f : Seal → Seal) (n' : Nat) : (s.setSeal ch f).fn n' = s.fn n' := rfl
@[simp] theorem setSeal_byteAt_view (s : State) (ch : Nat) (f : Seal → Seal) (a' : Nat) : (s.setSeal ch f).byteAt a' = s.byteAt a' := rfl
@[simp] theorem setSeal_poisoned_view (s : State) (ch : Nat) (f : Seal → Seal) (a' : Nat) : (s.setSeal ch f).poisoned a' = s.poisoned a' := rfl
@[simp] theorem setSeal_rpt_view (s : State) (ch : Nat) (f : Seal → Seal) (ch' : Nat) : (s.setSeal ch f).rpt ch' = s.rpt ch' := rfl

/-! `setCt`. -/

@[simp] theorem setCt_reg_view (s : State) (ch : Nat) (f : Ct → Ct) (r' : Reg) (l' i' : Nat) : (s.setCt ch f).reg r' l' i' = s.reg r' l' i' := rfl
@[simp] theorem setCt_fget_view (s : State) (ch : Nat) (f : Ct → Ct) (f' : Fld) (l' i' : Nat) : (s.setCt ch f).fget f' l' i' = s.fget f' l' i' := rfl
@[simp] theorem setCt_clu_view (s : State) (ch : Nat) (f : Ct → Ct) (ch' c' : Nat) : (s.setCt ch f).clu ch' c' = s.clu ch' c' := rfl
@[simp] theorem setCt_stw_view (s : State) (ch : Nat) (f : Ct → Ct) (ch' c' w' : Nat) : (s.setCt ch f).stw ch' c' w' = s.stw ch' c' w' := rfl
@[simp] theorem setCt_tl_view (s : State) (ch : Nat) (f : Ct → Ct) (ch' c' t' : Nat) : (s.setCt ch f).tl ch' c' t' = s.tl ch' c' t' := rfl
@[simp] theorem setCt_chan_view (s : State) (ch : Nat) (f : Ct → Ct) (ch' : Nat) : (s.setCt ch f).chan ch' = s.chan ch' := rfl
@[simp] theorem setCt_obj_view (s : State) (ch : Nat) (f : Ct → Ct) (ch' o' : Nat) : (s.setCt ch f).obj ch' o' = s.obj ch' o' := rfl
@[simp] theorem setCt_dist_view (s : State) (ch : Nat) (f : Ct → Ct) (ch' d' : Nat) : (s.setCt ch f).dist ch' d' = s.dist ch' d' := rfl
@[simp] theorem setCt_mon_view (s : State) (ch : Nat) (f : Ct → Ct) (ch' : Nat) : (s.setCt ch f).mon ch' = s.mon ch' := rfl
@[simp] theorem setCt_load_view (s : State) (ch : Nat) (f : Ct → Ct) (ch' : Nat) : (s.setCt ch f).load ch' = s.load ch' := rfl
@[simp] theorem setCt_seal_view (s : State) (ch : Nat) (f : Ct → Ct) (ch' : Nat) : (s.setCt ch f).seal ch' = s.seal ch' := rfl
@[simp] theorem setCt_lk_view (s : State) (ch : Nat) (f : Ct → Ct) (k' : LinkId) : (s.setCt ch f).lk k' = s.lk k' := rfl
@[simp] theorem setCt_fc_view (s : State) (ch : Nat) (f : Ct → Ct) (n' : Nat) : (s.setCt ch f).fc n' = s.fc n' := rfl
@[simp] theorem setCt_dly_view (s : State) (ch : Nat) (f : Ct → Ct) (ch' : Nat) : (s.setCt ch f).dly ch' = s.dly ch' := rfl
@[simp] theorem setCt_fn_view (s : State) (ch : Nat) (f : Ct → Ct) (n' : Nat) : (s.setCt ch f).fn n' = s.fn n' := rfl
@[simp] theorem setCt_byteAt_view (s : State) (ch : Nat) (f : Ct → Ct) (a' : Nat) : (s.setCt ch f).byteAt a' = s.byteAt a' := rfl
@[simp] theorem setCt_poisoned_view (s : State) (ch : Nat) (f : Ct → Ct) (a' : Nat) : (s.setCt ch f).poisoned a' = s.poisoned a' := rfl
@[simp] theorem setCt_rpt_view (s : State) (ch : Nat) (f : Ct → Ct) (ch' : Nat) : (s.setCt ch f).rpt ch' = s.rpt ch' := rfl

/-! `setFlow`. -/

@[simp] theorem setFlow_reg_view (s : State) (ch n : Nat) (f : Flow → Flow) (r' : Reg) (l' i' : Nat) : (setFlow s ch n f).reg r' l' i' = s.reg r' l' i' := rfl
@[simp] theorem setFlow_fget_view (s : State) (ch n : Nat) (f : Flow → Flow) (f' : Fld) (l' i' : Nat) : (setFlow s ch n f).fget f' l' i' = s.fget f' l' i' := rfl
@[simp] theorem setFlow_clu_view (s : State) (ch n : Nat) (f : Flow → Flow) (ch' c' : Nat) : (setFlow s ch n f).clu ch' c' = s.clu ch' c' := rfl
@[simp] theorem setFlow_stw_view (s : State) (ch n : Nat) (f : Flow → Flow) (ch' c' w' : Nat) : (setFlow s ch n f).stw ch' c' w' = s.stw ch' c' w' := rfl
@[simp] theorem setFlow_tl_view (s : State) (ch n : Nat) (f : Flow → Flow) (ch' c' t' : Nat) : (setFlow s ch n f).tl ch' c' t' = s.tl ch' c' t' := rfl
@[simp] theorem setFlow_chan_view (s : State) (ch n : Nat) (f : Flow → Flow) (ch' : Nat) : (setFlow s ch n f).chan ch' = s.chan ch' := rfl
@[simp] theorem setFlow_obj_view (s : State) (ch n : Nat) (f : Flow → Flow) (ch' o' : Nat) : (setFlow s ch n f).obj ch' o' = s.obj ch' o' := rfl
@[simp] theorem setFlow_dist_view (s : State) (ch n : Nat) (f : Flow → Flow) (ch' d' : Nat) : (setFlow s ch n f).dist ch' d' = s.dist ch' d' := rfl
@[simp] theorem setFlow_mon_view (s : State) (ch n : Nat) (f : Flow → Flow) (ch' : Nat) : (setFlow s ch n f).mon ch' = s.mon ch' := rfl
@[simp] theorem setFlow_load_view (s : State) (ch n : Nat) (f : Flow → Flow) (ch' : Nat) : (setFlow s ch n f).load ch' = s.load ch' := rfl
@[simp] theorem setFlow_seal_view (s : State) (ch n : Nat) (f : Flow → Flow) (ch' : Nat) : (setFlow s ch n f).seal ch' = s.seal ch' := rfl
@[simp] theorem setFlow_lk_view (s : State) (ch n : Nat) (f : Flow → Flow) (k' : LinkId) : (setFlow s ch n f).lk k' = s.lk k' := rfl
@[simp] theorem setFlow_fc_view (s : State) (ch n : Nat) (f : Flow → Flow) (n' : Nat) : (setFlow s ch n f).fc n' = s.fc n' := rfl
@[simp] theorem setFlow_dly_view (s : State) (ch n : Nat) (f : Flow → Flow) (ch' : Nat) : (setFlow s ch n f).dly ch' = s.dly ch' := rfl
@[simp] theorem setFlow_fn_view (s : State) (ch n : Nat) (f : Flow → Flow) (n' : Nat) : (setFlow s ch n f).fn n' = s.fn n' := rfl
@[simp] theorem setFlow_byteAt_view (s : State) (ch n : Nat) (f : Flow → Flow) (a' : Nat) : (setFlow s ch n f).byteAt a' = s.byteAt a' := rfl
@[simp] theorem setFlow_poisoned_view (s : State) (ch n : Nat) (f : Flow → Flow) (a' : Nat) : (setFlow s ch n f).poisoned a' = s.poisoned a' := rfl
@[simp] theorem setFlow_rpt_view (s : State) (ch n : Nat) (f : Flow → Flow) (ch' : Nat) : (setFlow s ch n f).rpt ch' = s.rpt ch' := rfl

/-! `setGroup`. -/

@[simp] theorem setGroup_reg_view (s : State) (ch n : Nat) (f : Group → Group) (r' : Reg) (l' i' : Nat) : (setGroup s ch n f).reg r' l' i' = s.reg r' l' i' := rfl
@[simp] theorem setGroup_fget_view (s : State) (ch n : Nat) (f : Group → Group) (f' : Fld) (l' i' : Nat) : (setGroup s ch n f).fget f' l' i' = s.fget f' l' i' := rfl
@[simp] theorem setGroup_clu_view (s : State) (ch n : Nat) (f : Group → Group) (ch' c' : Nat) : (setGroup s ch n f).clu ch' c' = s.clu ch' c' := rfl
@[simp] theorem setGroup_stw_view (s : State) (ch n : Nat) (f : Group → Group) (ch' c' w' : Nat) : (setGroup s ch n f).stw ch' c' w' = s.stw ch' c' w' := rfl
@[simp] theorem setGroup_tl_view (s : State) (ch n : Nat) (f : Group → Group) (ch' c' t' : Nat) : (setGroup s ch n f).tl ch' c' t' = s.tl ch' c' t' := rfl
@[simp] theorem setGroup_chan_view (s : State) (ch n : Nat) (f : Group → Group) (ch' : Nat) : (setGroup s ch n f).chan ch' = s.chan ch' := rfl
@[simp] theorem setGroup_obj_view (s : State) (ch n : Nat) (f : Group → Group) (ch' o' : Nat) : (setGroup s ch n f).obj ch' o' = s.obj ch' o' := rfl
@[simp] theorem setGroup_dist_view (s : State) (ch n : Nat) (f : Group → Group) (ch' d' : Nat) : (setGroup s ch n f).dist ch' d' = s.dist ch' d' := rfl
@[simp] theorem setGroup_mon_view (s : State) (ch n : Nat) (f : Group → Group) (ch' : Nat) : (setGroup s ch n f).mon ch' = s.mon ch' := rfl
@[simp] theorem setGroup_load_view (s : State) (ch n : Nat) (f : Group → Group) (ch' : Nat) : (setGroup s ch n f).load ch' = s.load ch' := rfl
@[simp] theorem setGroup_seal_view (s : State) (ch n : Nat) (f : Group → Group) (ch' : Nat) : (setGroup s ch n f).seal ch' = s.seal ch' := rfl
@[simp] theorem setGroup_lk_view (s : State) (ch n : Nat) (f : Group → Group) (k' : LinkId) : (setGroup s ch n f).lk k' = s.lk k' := rfl
@[simp] theorem setGroup_fc_view (s : State) (ch n : Nat) (f : Group → Group) (n' : Nat) : (setGroup s ch n f).fc n' = s.fc n' := rfl
@[simp] theorem setGroup_dly_view (s : State) (ch n : Nat) (f : Group → Group) (ch' : Nat) : (setGroup s ch n f).dly ch' = s.dly ch' := rfl
@[simp] theorem setGroup_fn_view (s : State) (ch n : Nat) (f : Group → Group) (n' : Nat) : (setGroup s ch n f).fn n' = s.fn n' := rfl
@[simp] theorem setGroup_byteAt_view (s : State) (ch n : Nat) (f : Group → Group) (a' : Nat) : (setGroup s ch n f).byteAt a' = s.byteAt a' := rfl
@[simp] theorem setGroup_poisoned_view (s : State) (ch n : Nat) (f : Group → Group) (a' : Nat) : (setGroup s ch n f).poisoned a' = s.poisoned a' := rfl
@[simp] theorem setGroup_rpt_view (s : State) (ch n : Nat) (f : Group → Group) (ch' : Nat) : (setGroup s ch n f).rpt ch' = s.rpt ch' := rfl

/-! `setLk`. -/

@[simp] theorem setLk_reg_view (s : State) (k : LinkId) (f : FdlEnd → FdlEnd) (r' : Reg) (l' i' : Nat) : (s.setLk k f).reg r' l' i' = s.reg r' l' i' := rfl
@[simp] theorem setLk_fget_view (s : State) (k : LinkId) (f : FdlEnd → FdlEnd) (f' : Fld) (l' i' : Nat) : (s.setLk k f).fget f' l' i' = s.fget f' l' i' := rfl
@[simp] theorem setLk_clu_view (s : State) (k : LinkId) (f : FdlEnd → FdlEnd) (ch' c' : Nat) : (s.setLk k f).clu ch' c' = s.clu ch' c' := rfl
@[simp] theorem setLk_stw_view (s : State) (k : LinkId) (f : FdlEnd → FdlEnd) (ch' c' w' : Nat) : (s.setLk k f).stw ch' c' w' = s.stw ch' c' w' := rfl
@[simp] theorem setLk_tl_view (s : State) (k : LinkId) (f : FdlEnd → FdlEnd) (ch' c' t' : Nat) : (s.setLk k f).tl ch' c' t' = s.tl ch' c' t' := rfl
@[simp] theorem setLk_chan_view (s : State) (k : LinkId) (f : FdlEnd → FdlEnd) (ch' : Nat) : (s.setLk k f).chan ch' = s.chan ch' := rfl
@[simp] theorem setLk_obj_view (s : State) (k : LinkId) (f : FdlEnd → FdlEnd) (ch' o' : Nat) : (s.setLk k f).obj ch' o' = s.obj ch' o' := rfl
@[simp] theorem setLk_dist_view (s : State) (k : LinkId) (f : FdlEnd → FdlEnd) (ch' d' : Nat) : (s.setLk k f).dist ch' d' = s.dist ch' d' := rfl
@[simp] theorem setLk_mon_view (s : State) (k : LinkId) (f : FdlEnd → FdlEnd) (ch' : Nat) : (s.setLk k f).mon ch' = s.mon ch' := rfl
@[simp] theorem setLk_load_view (s : State) (k : LinkId) (f : FdlEnd → FdlEnd) (ch' : Nat) : (s.setLk k f).load ch' = s.load ch' := rfl
@[simp] theorem setLk_seal_view (s : State) (k : LinkId) (f : FdlEnd → FdlEnd) (ch' : Nat) : (s.setLk k f).seal ch' = s.seal ch' := rfl
@[simp] theorem setLk_ct_view (s : State) (k : LinkId) (f : FdlEnd → FdlEnd) (ch' : Nat) : (s.setLk k f).ct ch' = s.ct ch' := rfl
@[simp] theorem setLk_flow_view (s : State) (k : LinkId) (f : FdlEnd → FdlEnd) (ch' n' : Nat) : (s.setLk k f).flow ch' n' = s.flow ch' n' := rfl
@[simp] theorem setLk_fc_view (s : State) (k : LinkId) (f : FdlEnd → FdlEnd) (n' : Nat) : (s.setLk k f).fc n' = s.fc n' := rfl
@[simp] theorem setLk_dly_view (s : State) (k : LinkId) (f : FdlEnd → FdlEnd) (ch' : Nat) : (s.setLk k f).dly ch' = s.dly ch' := rfl
@[simp] theorem setLk_fn_view (s : State) (k : LinkId) (f : FdlEnd → FdlEnd) (n' : Nat) : (s.setLk k f).fn n' = s.fn n' := rfl
@[simp] theorem setLk_byteAt_view (s : State) (k : LinkId) (f : FdlEnd → FdlEnd) (a' : Nat) : (s.setLk k f).byteAt a' = s.byteAt a' := rfl
@[simp] theorem setLk_poisoned_view (s : State) (k : LinkId) (f : FdlEnd → FdlEnd) (a' : Nat) : (s.setLk k f).poisoned a' = s.poisoned a' := rfl
@[simp] theorem setLk_rpt_view (s : State) (k : LinkId) (f : FdlEnd → FdlEnd) (ch' : Nat) : (s.setLk k f).rpt ch' = s.rpt ch' := rfl

/-! `setFc`. -/

@[simp] theorem setFc_reg_view (s : State) (n : Nat) (f : FaultCtl → FaultCtl) (r' : Reg) (l' i' : Nat) : (s.setFc n f).reg r' l' i' = s.reg r' l' i' := rfl
@[simp] theorem setFc_fget_view (s : State) (n : Nat) (f : FaultCtl → FaultCtl) (f' : Fld) (l' i' : Nat) : (s.setFc n f).fget f' l' i' = s.fget f' l' i' := rfl
@[simp] theorem setFc_clu_view (s : State) (n : Nat) (f : FaultCtl → FaultCtl) (ch' c' : Nat) : (s.setFc n f).clu ch' c' = s.clu ch' c' := rfl
@[simp] theorem setFc_stw_view (s : State) (n : Nat) (f : FaultCtl → FaultCtl) (ch' c' w' : Nat) : (s.setFc n f).stw ch' c' w' = s.stw ch' c' w' := rfl
@[simp] theorem setFc_tl_view (s : State) (n : Nat) (f : FaultCtl → FaultCtl) (ch' c' t' : Nat) : (s.setFc n f).tl ch' c' t' = s.tl ch' c' t' := rfl
@[simp] theorem setFc_chan_view (s : State) (n : Nat) (f : FaultCtl → FaultCtl) (ch' : Nat) : (s.setFc n f).chan ch' = s.chan ch' := rfl
@[simp] theorem setFc_obj_view (s : State) (n : Nat) (f : FaultCtl → FaultCtl) (ch' o' : Nat) : (s.setFc n f).obj ch' o' = s.obj ch' o' := rfl
@[simp] theorem setFc_dist_view (s : State) (n : Nat) (f : FaultCtl → FaultCtl) (ch' d' : Nat) : (s.setFc n f).dist ch' d' = s.dist ch' d' := rfl
@[simp] theorem setFc_mon_view (s : State) (n : Nat) (f : FaultCtl → FaultCtl) (ch' : Nat) : (s.setFc n f).mon ch' = s.mon ch' := rfl
@[simp] theorem setFc_load_view (s : State) (n : Nat) (f : FaultCtl → FaultCtl) (ch' : Nat) : (s.setFc n f).load ch' = s.load ch' := rfl
@[simp] theorem setFc_seal_view (s : State) (n : Nat) (f : FaultCtl → FaultCtl) (ch' : Nat) : (s.setFc n f).seal ch' = s.seal ch' := rfl
@[simp] theorem setFc_ct_view (s : State) (n : Nat) (f : FaultCtl → FaultCtl) (ch' : Nat) : (s.setFc n f).ct ch' = s.ct ch' := rfl
@[simp] theorem setFc_flow_view (s : State) (n : Nat) (f : FaultCtl → FaultCtl) (ch' n' : Nat) : (s.setFc n f).flow ch' n' = s.flow ch' n' := rfl
@[simp] theorem setFc_lk_view (s : State) (n : Nat) (f : FaultCtl → FaultCtl) (k' : LinkId) : (s.setFc n f).lk k' = s.lk k' := rfl
@[simp] theorem setFc_dly_view (s : State) (n : Nat) (f : FaultCtl → FaultCtl) (ch' : Nat) : (s.setFc n f).dly ch' = s.dly ch' := rfl
@[simp] theorem setFc_fn_view (s : State) (n : Nat) (f : FaultCtl → FaultCtl) (n' : Nat) : (s.setFc n f).fn n' = s.fn n' := rfl
@[simp] theorem setFc_byteAt_view (s : State) (n : Nat) (f : FaultCtl → FaultCtl) (a' : Nat) : (s.setFc n f).byteAt a' = s.byteAt a' := rfl
@[simp] theorem setFc_poisoned_view (s : State) (n : Nat) (f : FaultCtl → FaultCtl) (a' : Nat) : (s.setFc n f).poisoned a' = s.poisoned a' := rfl
@[simp] theorem setFc_rpt_view (s : State) (n : Nat) (f : FaultCtl → FaultCtl) (ch' : Nat) : (s.setFc n f).rpt ch' = s.rpt ch' := rfl

/-! `setDly`. -/

@[simp] theorem setDly_reg_view (s : State) (ch : Nat) (f : Dailies → Dailies) (r' : Reg) (l' i' : Nat) : (s.setDly ch f).reg r' l' i' = s.reg r' l' i' := rfl
@[simp] theorem setDly_fget_view (s : State) (ch : Nat) (f : Dailies → Dailies) (f' : Fld) (l' i' : Nat) : (s.setDly ch f).fget f' l' i' = s.fget f' l' i' := rfl
@[simp] theorem setDly_clu_view (s : State) (ch : Nat) (f : Dailies → Dailies) (ch' c' : Nat) : (s.setDly ch f).clu ch' c' = s.clu ch' c' := rfl
@[simp] theorem setDly_stw_view (s : State) (ch : Nat) (f : Dailies → Dailies) (ch' c' w' : Nat) : (s.setDly ch f).stw ch' c' w' = s.stw ch' c' w' := rfl
@[simp] theorem setDly_tl_view (s : State) (ch : Nat) (f : Dailies → Dailies) (ch' c' t' : Nat) : (s.setDly ch f).tl ch' c' t' = s.tl ch' c' t' := rfl
@[simp] theorem setDly_chan_view (s : State) (ch : Nat) (f : Dailies → Dailies) (ch' : Nat) : (s.setDly ch f).chan ch' = s.chan ch' := rfl
@[simp] theorem setDly_obj_view (s : State) (ch : Nat) (f : Dailies → Dailies) (ch' o' : Nat) : (s.setDly ch f).obj ch' o' = s.obj ch' o' := rfl
@[simp] theorem setDly_dist_view (s : State) (ch : Nat) (f : Dailies → Dailies) (ch' d' : Nat) : (s.setDly ch f).dist ch' d' = s.dist ch' d' := rfl
@[simp] theorem setDly_mon_view (s : State) (ch : Nat) (f : Dailies → Dailies) (ch' : Nat) : (s.setDly ch f).mon ch' = s.mon ch' := rfl
@[simp] theorem setDly_load_view (s : State) (ch : Nat) (f : Dailies → Dailies) (ch' : Nat) : (s.setDly ch f).load ch' = s.load ch' := rfl
@[simp] theorem setDly_seal_view (s : State) (ch : Nat) (f : Dailies → Dailies) (ch' : Nat) : (s.setDly ch f).seal ch' = s.seal ch' := rfl
@[simp] theorem setDly_ct_view (s : State) (ch : Nat) (f : Dailies → Dailies) (ch' : Nat) : (s.setDly ch f).ct ch' = s.ct ch' := rfl
@[simp] theorem setDly_flow_view (s : State) (ch : Nat) (f : Dailies → Dailies) (ch' n' : Nat) : (s.setDly ch f).flow ch' n' = s.flow ch' n' := rfl
@[simp] theorem setDly_lk_view (s : State) (ch : Nat) (f : Dailies → Dailies) (k' : LinkId) : (s.setDly ch f).lk k' = s.lk k' := rfl
@[simp] theorem setDly_fc_view (s : State) (ch : Nat) (f : Dailies → Dailies) (n' : Nat) : (s.setDly ch f).fc n' = s.fc n' := rfl
@[simp] theorem setDly_fn_view (s : State) (ch : Nat) (f : Dailies → Dailies) (n' : Nat) : (s.setDly ch f).fn n' = s.fn n' := rfl
@[simp] theorem setDly_byteAt_view (s : State) (ch : Nat) (f : Dailies → Dailies) (a' : Nat) : (s.setDly ch f).byteAt a' = s.byteAt a' := rfl
@[simp] theorem setDly_poisoned_view (s : State) (ch : Nat) (f : Dailies → Dailies) (a' : Nat) : (s.setDly ch f).poisoned a' = s.poisoned a' := rfl
@[simp] theorem setDly_rpt_view (s : State) (ch : Nat) (f : Dailies → Dailies) (ch' : Nat) : (s.setDly ch f).rpt ch' = s.rpt ch' := rfl

/-! `setFn`. -/

@[simp] theorem setFn_reg_view (s : State) (n : Nat) (f : HostFn → HostFn) (r' : Reg) (l' i' : Nat) : (s.setFn n f).reg r' l' i' = s.reg r' l' i' := rfl
@[simp] theorem setFn_fget_view (s : State) (n : Nat) (f : HostFn → HostFn) (f' : Fld) (l' i' : Nat) : (s.setFn n f).fget f' l' i' = s.fget f' l' i' := rfl
@[simp] theorem setFn_clu_view (s : State) (n : Nat) (f : HostFn → HostFn) (ch' c' : Nat) : (s.setFn n f).clu ch' c' = s.clu ch' c' := rfl
@[simp] theorem setFn_stw_view (s : State) (n : Nat) (f : HostFn → HostFn) (ch' c' w' : Nat) : (s.setFn n f).stw ch' c' w' = s.stw ch' c' w' := rfl
@[simp] theorem setFn_tl_view (s : State) (n : Nat) (f : HostFn → HostFn) (ch' c' t' : Nat) : (s.setFn n f).tl ch' c' t' = s.tl ch' c' t' := rfl
@[simp] theorem setFn_chan_view (s : State) (n : Nat) (f : HostFn → HostFn) (ch' : Nat) : (s.setFn n f).chan ch' = s.chan ch' := rfl
@[simp] theorem setFn_obj_view (s : State) (n : Nat) (f : HostFn → HostFn) (ch' o' : Nat) : (s.setFn n f).obj ch' o' = s.obj ch' o' := rfl
@[simp] theorem setFn_dist_view (s : State) (n : Nat) (f : HostFn → HostFn) (ch' d' : Nat) : (s.setFn n f).dist ch' d' = s.dist ch' d' := rfl
@[simp] theorem setFn_mon_view (s : State) (n : Nat) (f : HostFn → HostFn) (ch' : Nat) : (s.setFn n f).mon ch' = s.mon ch' := rfl
@[simp] theorem setFn_load_view (s : State) (n : Nat) (f : HostFn → HostFn) (ch' : Nat) : (s.setFn n f).load ch' = s.load ch' := rfl
@[simp] theorem setFn_seal_view (s : State) (n : Nat) (f : HostFn → HostFn) (ch' : Nat) : (s.setFn n f).seal ch' = s.seal ch' := rfl
@[simp] theorem setFn_ct_view (s : State) (n : Nat) (f : HostFn → HostFn) (ch' : Nat) : (s.setFn n f).ct ch' = s.ct ch' := rfl
@[simp] theorem setFn_flow_view (s : State) (n : Nat) (f : HostFn → HostFn) (ch' n' : Nat) : (s.setFn n f).flow ch' n' = s.flow ch' n' := rfl
@[simp] theorem setFn_lk_view (s : State) (n : Nat) (f : HostFn → HostFn) (k' : LinkId) : (s.setFn n f).lk k' = s.lk k' := rfl
@[simp] theorem setFn_fc_view (s : State) (n : Nat) (f : HostFn → HostFn) (n' : Nat) : (s.setFn n f).fc n' = s.fc n' := rfl
@[simp] theorem setFn_dly_view (s : State) (n : Nat) (f : HostFn → HostFn) (ch' : Nat) : (s.setFn n f).dly ch' = s.dly ch' := rfl
@[simp] theorem setFn_byteAt_view (s : State) (n : Nat) (f : HostFn → HostFn) (a' : Nat) : (s.setFn n f).byteAt a' = s.byteAt a' := rfl
@[simp] theorem setFn_poisoned_view (s : State) (n : Nat) (f : HostFn → HostFn) (a' : Nat) : (s.setFn n f).poisoned a' = s.poisoned a' := rfl
@[simp] theorem setFn_rpt_view (s : State) (n : Nat) (f : HostFn → HostFn) (ch' : Nat) : (s.setFn n f).rpt ch' = s.rpt ch' := rfl

/-! `setRing`. -/

@[simp] theorem setRing_reg_view (s : State) (n r : Nat) (f : Ring → Ring) (r' : Reg) (l' i' : Nat) : (s.setRing n r f).reg r' l' i' = s.reg r' l' i' := rfl
@[simp] theorem setRing_fget_view (s : State) (n r : Nat) (f : Ring → Ring) (f' : Fld) (l' i' : Nat) : (s.setRing n r f).fget f' l' i' = s.fget f' l' i' := rfl
@[simp] theorem setRing_clu_view (s : State) (n r : Nat) (f : Ring → Ring) (ch' c' : Nat) : (s.setRing n r f).clu ch' c' = s.clu ch' c' := rfl
@[simp] theorem setRing_stw_view (s : State) (n r : Nat) (f : Ring → Ring) (ch' c' w' : Nat) : (s.setRing n r f).stw ch' c' w' = s.stw ch' c' w' := rfl
@[simp] theorem setRing_tl_view (s : State) (n r : Nat) (f : Ring → Ring) (ch' c' t' : Nat) : (s.setRing n r f).tl ch' c' t' = s.tl ch' c' t' := rfl
@[simp] theorem setRing_chan_view (s : State) (n r : Nat) (f : Ring → Ring) (ch' : Nat) : (s.setRing n r f).chan ch' = s.chan ch' := rfl
@[simp] theorem setRing_obj_view (s : State) (n r : Nat) (f : Ring → Ring) (ch' o' : Nat) : (s.setRing n r f).obj ch' o' = s.obj ch' o' := rfl
@[simp] theorem setRing_dist_view (s : State) (n r : Nat) (f : Ring → Ring) (ch' d' : Nat) : (s.setRing n r f).dist ch' d' = s.dist ch' d' := rfl
@[simp] theorem setRing_mon_view (s : State) (n r : Nat) (f : Ring → Ring) (ch' : Nat) : (s.setRing n r f).mon ch' = s.mon ch' := rfl
@[simp] theorem setRing_load_view (s : State) (n r : Nat) (f : Ring → Ring) (ch' : Nat) : (s.setRing n r f).load ch' = s.load ch' := rfl
@[simp] theorem setRing_seal_view (s : State) (n r : Nat) (f : Ring → Ring) (ch' : Nat) : (s.setRing n r f).seal ch' = s.seal ch' := rfl
@[simp] theorem setRing_ct_view (s : State) (n r : Nat) (f : Ring → Ring) (ch' : Nat) : (s.setRing n r f).ct ch' = s.ct ch' := rfl
@[simp] theorem setRing_flow_view (s : State) (n r : Nat) (f : Ring → Ring) (ch' n' : Nat) : (s.setRing n r f).flow ch' n' = s.flow ch' n' := rfl
@[simp] theorem setRing_lk_view (s : State) (n r : Nat) (f : Ring → Ring) (k' : LinkId) : (s.setRing n r f).lk k' = s.lk k' := rfl
@[simp] theorem setRing_fc_view (s : State) (n r : Nat) (f : Ring → Ring) (n' : Nat) : (s.setRing n r f).fc n' = s.fc n' := rfl
@[simp] theorem setRing_dly_view (s : State) (n r : Nat) (f : Ring → Ring) (ch' : Nat) : (s.setRing n r f).dly ch' = s.dly ch' := rfl
@[simp] theorem setRing_byteAt_view (s : State) (n r : Nat) (f : Ring → Ring) (a' : Nat) : (s.setRing n r f).byteAt a' = s.byteAt a' := rfl
@[simp] theorem setRing_poisoned_view (s : State) (n r : Nat) (f : Ring → Ring) (a' : Nat) : (s.setRing n r f).poisoned a' = s.poisoned a' := rfl
@[simp] theorem setRing_rpt_view (s : State) (n r : Nat) (f : Ring → Ring) (ch' : Nat) : (s.setRing n r f).rpt ch' = s.rpt ch' := rfl

/-! `hostOut`. -/

@[simp] theorem hostOut_reg_view (s : State) (o : HostOut) (r' : Reg) (l' i' : Nat) : (hostOut s o).reg r' l' i' = s.reg r' l' i' := rfl
@[simp] theorem hostOut_fget_view (s : State) (o : HostOut) (f' : Fld) (l' i' : Nat) : (hostOut s o).fget f' l' i' = s.fget f' l' i' := rfl
@[simp] theorem hostOut_clu_view (s : State) (o : HostOut) (ch' c' : Nat) : (hostOut s o).clu ch' c' = s.clu ch' c' := rfl
@[simp] theorem hostOut_stw_view (s : State) (o : HostOut) (ch' c' w' : Nat) : (hostOut s o).stw ch' c' w' = s.stw ch' c' w' := rfl
@[simp] theorem hostOut_tl_view (s : State) (o : HostOut) (ch' c' t' : Nat) : (hostOut s o).tl ch' c' t' = s.tl ch' c' t' := rfl
@[simp] theorem hostOut_chan_view (s : State) (o : HostOut) (ch' : Nat) : (hostOut s o).chan ch' = s.chan ch' := rfl
@[simp] theorem hostOut_obj_view (s : State) (o : HostOut) (ch' o' : Nat) : (hostOut s o).obj ch' o' = s.obj ch' o' := rfl
@[simp] theorem hostOut_dist_view (s : State) (o : HostOut) (ch' d' : Nat) : (hostOut s o).dist ch' d' = s.dist ch' d' := rfl
@[simp] theorem hostOut_mon_view (s : State) (o : HostOut) (ch' : Nat) : (hostOut s o).mon ch' = s.mon ch' := rfl
@[simp] theorem hostOut_load_view (s : State) (o : HostOut) (ch' : Nat) : (hostOut s o).load ch' = s.load ch' := rfl
@[simp] theorem hostOut_seal_view (s : State) (o : HostOut) (ch' : Nat) : (hostOut s o).seal ch' = s.seal ch' := rfl
@[simp] theorem hostOut_ct_view (s : State) (o : HostOut) (ch' : Nat) : (hostOut s o).ct ch' = s.ct ch' := rfl
@[simp] theorem hostOut_flow_view (s : State) (o : HostOut) (ch' n' : Nat) : (hostOut s o).flow ch' n' = s.flow ch' n' := rfl
@[simp] theorem hostOut_lk_view (s : State) (o : HostOut) (k' : LinkId) : (hostOut s o).lk k' = s.lk k' := rfl
@[simp] theorem hostOut_fc_view (s : State) (o : HostOut) (n' : Nat) : (hostOut s o).fc n' = s.fc n' := rfl
@[simp] theorem hostOut_dly_view (s : State) (o : HostOut) (ch' : Nat) : (hostOut s o).dly ch' = s.dly ch' := rfl
@[simp] theorem hostOut_byteAt_view (s : State) (o : HostOut) (a' : Nat) : (hostOut s o).byteAt a' = s.byteAt a' := rfl
@[simp] theorem hostOut_poisoned_view (s : State) (o : HostOut) (a' : Nat) : (hostOut s o).poisoned a' = s.poisoned a' := rfl
@[simp] theorem hostOut_rpt_view (s : State) (o : HostOut) (ch' : Nat) : (hostOut s o).rpt ch' = s.rpt ch' := rfl

/-! `markPoison`. -/

@[simp] theorem markPoison_reg_view (s : State) (a : Nat) (r' : Reg) (l' i' : Nat) : (s.markPoison a).reg r' l' i' = s.reg r' l' i' := rfl
@[simp] theorem markPoison_fget_view (s : State) (a : Nat) (f' : Fld) (l' i' : Nat) : (s.markPoison a).fget f' l' i' = s.fget f' l' i' := rfl
@[simp] theorem markPoison_clu_view (s : State) (a : Nat) (ch' c' : Nat) : (s.markPoison a).clu ch' c' = s.clu ch' c' := rfl
@[simp] theorem markPoison_stw_view (s : State) (a : Nat) (ch' c' w' : Nat) : (s.markPoison a).stw ch' c' w' = s.stw ch' c' w' := rfl
@[simp] theorem markPoison_tl_view (s : State) (a : Nat) (ch' c' t' : Nat) : (s.markPoison a).tl ch' c' t' = s.tl ch' c' t' := rfl
@[simp] theorem markPoison_chan_view (s : State) (a : Nat) (ch' : Nat) : (s.markPoison a).chan ch' = s.chan ch' := rfl
@[simp] theorem markPoison_obj_view (s : State) (a : Nat) (ch' o' : Nat) : (s.markPoison a).obj ch' o' = s.obj ch' o' := rfl
@[simp] theorem markPoison_dist_view (s : State) (a : Nat) (ch' d' : Nat) : (s.markPoison a).dist ch' d' = s.dist ch' d' := rfl
@[simp] theorem markPoison_mon_view (s : State) (a : Nat) (ch' : Nat) : (s.markPoison a).mon ch' = s.mon ch' := rfl
@[simp] theorem markPoison_load_view (s : State) (a : Nat) (ch' : Nat) : (s.markPoison a).load ch' = s.load ch' := rfl
@[simp] theorem markPoison_seal_view (s : State) (a : Nat) (ch' : Nat) : (s.markPoison a).seal ch' = s.seal ch' := rfl
@[simp] theorem markPoison_ct_view (s : State) (a : Nat) (ch' : Nat) : (s.markPoison a).ct ch' = s.ct ch' := rfl
@[simp] theorem markPoison_flow_view (s : State) (a : Nat) (ch' n' : Nat) : (s.markPoison a).flow ch' n' = s.flow ch' n' := rfl
@[simp] theorem markPoison_lk_view (s : State) (a : Nat) (k' : LinkId) : (s.markPoison a).lk k' = s.lk k' := rfl
@[simp] theorem markPoison_fc_view (s : State) (a : Nat) (n' : Nat) : (s.markPoison a).fc n' = s.fc n' := rfl
@[simp] theorem markPoison_dly_view (s : State) (a : Nat) (ch' : Nat) : (s.markPoison a).dly ch' = s.dly ch' := rfl
@[simp] theorem markPoison_fn_view (s : State) (a : Nat) (n' : Nat) : (s.markPoison a).fn n' = s.fn n' := rfl
@[simp] theorem markPoison_byteAt_view (s : State) (a : Nat) (a' : Nat) : (s.markPoison a).byteAt a' = s.byteAt a' := rfl
@[simp] theorem markPoison_rpt_view (s : State) (a : Nat) (ch' : Nat) : (s.markPoison a).rpt ch' = s.rpt ch' := rfl

/-! `zeroMem`. -/

@[simp] theorem zeroMem_reg_view (s : State) (a n : Nat) (r' : Reg) (l' i' : Nat) : (s.zeroMem a n).reg r' l' i' = s.reg r' l' i' := rfl
@[simp] theorem zeroMem_fget_view (s : State) (a n : Nat) (f' : Fld) (l' i' : Nat) : (s.zeroMem a n).fget f' l' i' = s.fget f' l' i' := rfl
@[simp] theorem zeroMem_clu_view (s : State) (a n : Nat) (ch' c' : Nat) : (s.zeroMem a n).clu ch' c' = s.clu ch' c' := rfl
@[simp] theorem zeroMem_stw_view (s : State) (a n : Nat) (ch' c' w' : Nat) : (s.zeroMem a n).stw ch' c' w' = s.stw ch' c' w' := rfl
@[simp] theorem zeroMem_tl_view (s : State) (a n : Nat) (ch' c' t' : Nat) : (s.zeroMem a n).tl ch' c' t' = s.tl ch' c' t' := rfl
@[simp] theorem zeroMem_chan_view (s : State) (a n : Nat) (ch' : Nat) : (s.zeroMem a n).chan ch' = s.chan ch' := rfl
@[simp] theorem zeroMem_obj_view (s : State) (a n : Nat) (ch' o' : Nat) : (s.zeroMem a n).obj ch' o' = s.obj ch' o' := rfl
@[simp] theorem zeroMem_dist_view (s : State) (a n : Nat) (ch' d' : Nat) : (s.zeroMem a n).dist ch' d' = s.dist ch' d' := rfl
@[simp] theorem zeroMem_mon_view (s : State) (a n : Nat) (ch' : Nat) : (s.zeroMem a n).mon ch' = s.mon ch' := rfl
@[simp] theorem zeroMem_load_view (s : State) (a n : Nat) (ch' : Nat) : (s.zeroMem a n).load ch' = s.load ch' := rfl
@[simp] theorem zeroMem_seal_view (s : State) (a n : Nat) (ch' : Nat) : (s.zeroMem a n).seal ch' = s.seal ch' := rfl
@[simp] theorem zeroMem_ct_view (s : State) (a n : Nat) (ch' : Nat) : (s.zeroMem a n).ct ch' = s.ct ch' := rfl
@[simp] theorem zeroMem_flow_view (s : State) (a n : Nat) (ch' n' : Nat) : (s.zeroMem a n).flow ch' n' = s.flow ch' n' := rfl
@[simp] theorem zeroMem_lk_view (s : State) (a n : Nat) (k' : LinkId) : (s.zeroMem a n).lk k' = s.lk k' := rfl
@[simp] theorem zeroMem_fc_view (s : State) (a n : Nat) (n' : Nat) : (s.zeroMem a n).fc n' = s.fc n' := rfl
@[simp] theorem zeroMem_dly_view (s : State) (a n : Nat) (ch' : Nat) : (s.zeroMem a n).dly ch' = s.dly ch' := rfl
@[simp] theorem zeroMem_fn_view (s : State) (a n : Nat) (n' : Nat) : (s.zeroMem a n).fn n' = s.fn n' := rfl
@[simp] theorem zeroMem_rpt_view (s : State) (a n : Nat) (ch' : Nat) : (s.zeroMem a n).rpt ch' = s.rpt ch' := rfl

/-! `setTdo`. -/

@[simp] theorem setTdo_reg_view (s : State) (l : List Nat) (r' : Reg) (l' i' : Nat) : (setTdo s l).reg r' l' i' = s.reg r' l' i' := rfl
@[simp] theorem setTdo_fget_view (s : State) (l : List Nat) (f' : Fld) (l' i' : Nat) : (setTdo s l).fget f' l' i' = s.fget f' l' i' := rfl
@[simp] theorem setTdo_clu_view (s : State) (l : List Nat) (ch' c' : Nat) : (setTdo s l).clu ch' c' = s.clu ch' c' := rfl
@[simp] theorem setTdo_stw_view (s : State) (l : List Nat) (ch' c' w' : Nat) : (setTdo s l).stw ch' c' w' = s.stw ch' c' w' := rfl
@[simp] theorem setTdo_tl_view (s : State) (l : List Nat) (ch' c' t' : Nat) : (setTdo s l).tl ch' c' t' = s.tl ch' c' t' := rfl
@[simp] theorem setTdo_chan_view (s : State) (l : List Nat) (ch' : Nat) : (setTdo s l).chan ch' = s.chan ch' := rfl
@[simp] theorem setTdo_obj_view (s : State) (l : List Nat) (ch' o' : Nat) : (setTdo s l).obj ch' o' = s.obj ch' o' := rfl
@[simp] theorem setTdo_dist_view (s : State) (l : List Nat) (ch' d' : Nat) : (setTdo s l).dist ch' d' = s.dist ch' d' := rfl
@[simp] theorem setTdo_mon_view (s : State) (l : List Nat) (ch' : Nat) : (setTdo s l).mon ch' = s.mon ch' := rfl
@[simp] theorem setTdo_load_view (s : State) (l : List Nat) (ch' : Nat) : (setTdo s l).load ch' = s.load ch' := rfl
@[simp] theorem setTdo_seal_view (s : State) (l : List Nat) (ch' : Nat) : (setTdo s l).seal ch' = s.seal ch' := rfl
@[simp] theorem setTdo_ct_view (s : State) (l : List Nat) (ch' : Nat) : (setTdo s l).ct ch' = s.ct ch' := rfl
@[simp] theorem setTdo_flow_view (s : State) (l : List Nat) (ch' n' : Nat) : (setTdo s l).flow ch' n' = s.flow ch' n' := rfl
@[simp] theorem setTdo_lk_view (s : State) (l : List Nat) (k' : LinkId) : (setTdo s l).lk k' = s.lk k' := rfl
@[simp] theorem setTdo_fc_view (s : State) (l : List Nat) (n' : Nat) : (setTdo s l).fc n' = s.fc n' := rfl
@[simp] theorem setTdo_dly_view (s : State) (l : List Nat) (ch' : Nat) : (setTdo s l).dly ch' = s.dly ch' := rfl
@[simp] theorem setTdo_fn_view (s : State) (l : List Nat) (n' : Nat) : (setTdo s l).fn n' = s.fn n' := rfl
@[simp] theorem setTdo_byteAt_view (s : State) (l : List Nat) (a' : Nat) : (setTdo s l).byteAt a' = s.byteAt a' := rfl
@[simp] theorem setTdo_poisoned_view (s : State) (l : List Nat) (a' : Nat) : (setTdo s l).poisoned a' = s.poisoned a' := rfl
@[simp] theorem setTdo_rpt_view (s : State) (l : List Nat) (ch' : Nat) : (setTdo s l).rpt ch' = s.rpt ch' := rfl

end Sys2Proof.Machine
end

