-- ==== Sys2Proof/Laws/Fields.lean ====
section
/-! SUPPORT. The laws of registers and fields: what a read finds after a write of a field, of another field, of another
register. -/

namespace Sys2Proof.Machine

theorem bits_lt (n lo w : Nat) : bits n lo w < 2 ^ w := Nat.mod_lt _ (Nat.two_pow_pos w)

theorem testBit_bits (n lo w i : Nat) : (bits n lo w).testBit i = (decide (i < w) && n.testBit (lo + i)) := by
  simp [bits, Nat.testBit_mod_two_pow, Nat.testBit_shiftRight]

theorem bits_le (n lo w : Nat) : bits n lo w * 2 ^ lo ≤ n := by
  have h1 : bits n lo w ≤ n >>> lo := Nat.mod_le _ _
  rw [Nat.shiftRight_eq_div_pow] at h1
  calc bits n lo w * 2 ^ lo ≤ n / 2 ^ lo * 2 ^ lo := Nat.mul_le_mul_right _ h1
    _ ≤ n := Nat.div_mul_le_self _ _

/-- A number split at a field. -/
theorem split_field (n lo w : Nat) : n = n % 2 ^ lo + bits n lo w * 2 ^ lo + n / 2 ^ (lo + w) * 2 ^ (lo + w) := by
  have h1 : n = n % 2 ^ lo + n / 2 ^ lo * 2 ^ lo := by
    have := Nat.mod_add_div n (2 ^ lo); rw [Nat.mul_comm] at this; exact this.symm
  have h2 : n / 2 ^ lo = n / 2 ^ lo % 2 ^ w + n / 2 ^ lo / 2 ^ w * 2 ^ w := by
    have := Nat.mod_add_div (n / 2 ^ lo) (2 ^ w); rw [Nat.mul_comm] at this; exact this.symm
  have h3 : n / 2 ^ lo / 2 ^ w = n / 2 ^ (lo + w) := by rw [Nat.div_div_eq_div_mul, ← Nat.pow_add]
  have h4 : bits n lo w = n / 2 ^ lo % 2 ^ w := by rw [bits, Nat.shiftRight_eq_div_pow]
  rw [h4]
  conv_lhs => rw [h1, h2, h3, Nat.add_mul, Nat.mul_assoc, ← Nat.pow_add, Nat.add_comm w lo]
  omega

/-- A number with a field replaced, split at the field. -/
theorem putBits_eq (n lo w v : Nat) :
    putBits n lo w v = n % 2 ^ lo + v % 2 ^ w * 2 ^ lo + n / 2 ^ (lo + w) * 2 ^ (lo + w) := by
  have h := split_field n lo w
  have hb := bits_le n lo w
  simp only [putBits]
  omega

theorem putBits_low (n lo w v : Nat) : putBits n lo w v % 2 ^ lo = n % 2 ^ lo := by
  rw [putBits_eq, Nat.pow_add]
  have : n % 2 ^ lo + v % 2 ^ w * 2 ^ lo + n / (2 ^ lo * 2 ^ w) * (2 ^ lo * 2 ^ w) =
      n % 2 ^ lo + 2 ^ lo * (v % 2 ^ w + n / (2 ^ lo * 2 ^ w) * 2 ^ w) := by ring
  rw [this, Nat.add_mul_mod_self_left, Nat.mod_mod]

theorem putBits_div (n lo w v : Nat) : putBits n lo w v / 2 ^ lo = v % 2 ^ w + n / 2 ^ (lo + w) * 2 ^ w := by
  rw [putBits_eq, Nat.pow_add]
  have : n % 2 ^ lo + v % 2 ^ w * 2 ^ lo + n / (2 ^ lo * 2 ^ w) * (2 ^ lo * 2 ^ w) =
      n % 2 ^ lo + 2 ^ lo * (v % 2 ^ w + n / (2 ^ lo * 2 ^ w) * 2 ^ w) := by ring
  rw [this, Nat.add_mul_div_left _ _ (Nat.two_pow_pos lo), Nat.div_eq_of_lt (Nat.mod_lt _ (Nat.two_pow_pos lo)), Nat.zero_add]

/-- A field read after it was written. -/
theorem bits_putBits_same (n lo w v : Nat) : bits (putBits n lo w v) lo w = v % 2 ^ w := by
  rw [bits, Nat.shiftRight_eq_div_pow, putBits_div, Nat.add_mul_mod_self_right, Nat.mod_mod]

theorem putBits_high (n lo w v : Nat) : putBits n lo w v / 2 ^ (lo + w) = n / 2 ^ (lo + w) := by
  rw [Nat.pow_add, ← Nat.div_div_eq_div_mul, putBits_div, Nat.add_mul_div_right _ _ (Nat.two_pow_pos w),
    Nat.div_eq_of_lt (Nat.mod_lt _ (Nat.two_pow_pos w)), Nat.zero_add, ← Nat.pow_add]

/-- A field below or above the written one. -/
theorem bits_putBits_other (n lo w v lo' w' : Nat) (h : lo' + w' ≤ lo ∨ lo + w ≤ lo') :
    bits (putBits n lo w v) lo' w' = bits n lo' w' := by
  rcases h with h | h
  · have e : ∀ m : Nat, bits m lo' w' = m % 2 ^ lo / 2 ^ lo' % 2 ^ w' := by
      intro m
      apply Nat.eq_of_testBit_eq
      intro i
      rw [testBit_bits, Nat.testBit_mod_two_pow, ← Nat.shiftRight_eq_div_pow, Nat.testBit_shiftRight, Nat.testBit_mod_two_pow]
      by_cases hi : i < w'
      · have : lo' + i < lo := by omega
        simp [hi, this]
      · simp [hi]
    rw [e, e, putBits_low]
  · obtain ⟨k, rfl⟩ := Nat.exists_eq_add_of_le h
    have e : ∀ m : Nat, bits m (lo + w + k) w' = m / 2 ^ (lo + w) / 2 ^ k % 2 ^ w' := by
      intro m
      rw [bits, Nat.shiftRight_eq_div_pow, Nat.pow_add 2 (lo + w) k, Nat.div_div_eq_div_mul]
    rw [e, e, putBits_high]

theorem putBits_lt (n lo w v k : Nat) (hn : n < 2 ^ k) (h : lo + w ≤ k) : putBits n lo w v < 2 ^ k := by
  rw [putBits_eq]
  have h1 : n % 2 ^ lo < 2 ^ lo := Nat.mod_lt _ (Nat.two_pow_pos lo)
  have h2 : v % 2 ^ w * 2 ^ lo + 2 ^ lo ≤ 2 ^ (lo + w) := by
    have : v % 2 ^ w + 1 ≤ 2 ^ w := Nat.mod_lt _ (Nat.two_pow_pos w)
    calc v % 2 ^ w * 2 ^ lo + 2 ^ lo = (v % 2 ^ w + 1) * 2 ^ lo := by ring
      _ ≤ 2 ^ w * 2 ^ lo := Nat.mul_le_mul_right _ this
      _ = 2 ^ (lo + w) := by rw [← Nat.pow_add, Nat.add_comm]
  have h3 : n / 2 ^ (lo + w) + 1 ≤ 2 ^ (k - (lo + w)) := by
    apply Nat.div_lt_of_lt_mul
    rw [← Nat.pow_add]
    have : lo + w + (k - (lo + w)) = k := by omega
    rwa [this]
  have h4 : n / 2 ^ (lo + w) * 2 ^ (lo + w) + 2 ^ (lo + w) ≤ 2 ^ k := by
    calc n / 2 ^ (lo + w) * 2 ^ (lo + w) + 2 ^ (lo + w) = (n / 2 ^ (lo + w) + 1) * 2 ^ (lo + w) := by ring
      _ ≤ 2 ^ (k - (lo + w)) * 2 ^ (lo + w) := Nat.mul_le_mul_right _ h3
      _ = 2 ^ k := by rw [← Nat.pow_add]; congr 1; omega
  omega

/-! ### Registers -/

/-- A register read after it was written. -/
@[simp] theorem reg_setReg_same (s : State) (r : Reg) (l i v : Nat) : (s.setReg r l i v).reg r l i = BitVec.ofNat 64 v := by
  simp [State.reg, State.setReg]

/-- Copies of registers lie in different places: locations below 2^24, numbers below 2^16. -/
theorem place_ne (r q : Reg) (l i m j : Nat) (hl : l < 2 ^ 24) (hm : m < 2 ^ 24) (hi : i < 2 ^ 16) (hj : j < 2 ^ 16)
    (h : ¬ (r.ctorIdx = q.ctorIdx ∧ l = m ∧ i = j)) : r.place l i ≠ q.place m j := by
  simp only [Reg.place]; omega

theorem reg_setReg_other (s : State) (r q : Reg) (l i m j v : Nat) (h : q.place m j ≠ r.place l i) :
    (s.setReg r l i v).reg q m j = s.reg q m j := by
  simp [State.reg, State.setReg, SMap.get_put_other _ _ _ _ _ h]

/-- A field that fits its register. -/
def Fld.fits (f : Fld) : Prop := f.lo + f.w ≤ 64

theorem regN_fset_same (s : State) (f : Fld) (l i v : Nat) (h : f.fits) :
    (s.fset f l i v).regN f.reg l i = putBits (s.regN f.reg l i) f.lo f.w v := by
  simp only [State.fset, State.regN, reg_setReg_same, BitVec.toNat_ofNat]
  exact Nat.mod_eq_of_lt (putBits_lt _ _ _ _ 64 (s.reg f.reg l i).isLt h)

/-- A field read after it was written. -/
theorem fget_fset_same (s : State) (f : Fld) (l i v : Nat) (h : f.fits) : (s.fset f l i v).fget f l i = v % 2 ^ f.w := by
  simp only [State.fget, regN_fset_same s f l i v h, bits_putBits_same]

/-- Another field of the same register. -/
theorem fget_fset_field (s : State) (f g : Fld) (l i v : Nat) (h : f.fits) (hr : g.reg = f.reg)
    (hd : g.lo + g.w ≤ f.lo ∨ f.lo + f.w ≤ g.lo) : (s.fset f l i v).fget g l i = s.fget g l i := by
  simp only [State.fget, hr, regN_fset_same s f l i v h, bits_putBits_other _ _ _ _ _ _ hd]

/-- A field of another register. -/
theorem fget_fset_other (s : State) (f g : Fld) (l i m j v : Nat) (h : g.reg.place m j ≠ f.reg.place l i) :
    (s.fset f l i v).fget g m j = s.fget g m j := by
  simp only [State.fget, State.regN, State.fset, reg_setReg_other _ _ _ _ _ _ _ _ h]

/-- A register written whole, read by field. -/
theorem fget_setReg_same (s : State) (g : Fld) (l i v : Nat) (h : v < 2 ^ 64) :
    (s.setReg g.reg l i v).fget g l i = bits v g.lo g.w := by
  simp only [State.fget, State.regN, reg_setReg_same, BitVec.toNat_ofNat, Nat.mod_eq_of_lt h]

end Sys2Proof.Machine
end

