-- ==== Sys2Proof/Laws/Functions.lean ====
section
/-! SUPPORT. The choice of an `FN` result (R112): the running maximum is monotone, is at least every choice up to a place, and stays
within a bound that those choices keep. -/

namespace Sys2Proof.Machine

theorem runMax_ge (c : Nat → Nat) (i n : Nat) (h : i ≤ n) : c i ≤ runMax c n := by
  induction n with
  | zero => obtain rfl : i = 0 := by omega
            exact Nat.le_refl _
  | succ n ih =>
    simp only [runMax]
    rcases Nat.lt_or_ge n i with hi | hi
    · obtain rfl : i = n + 1 := by omega
      exact Nat.le_max_right _ _
    · exact Nat.le_trans (ih hi) (Nat.le_max_left _ _)

theorem runMax_le (c : Nat → Nat) (n b : Nat) (h : ∀ i, i ≤ n → c i ≤ b) : runMax c n ≤ b := by
  induction n with
  | zero => exact h 0 (Nat.le_refl _)
  | succ n ih => exact Nat.max_le.2 ⟨ih fun i hi => h i (by omega), h _ (Nat.le_refl _)⟩

theorem runMax_mono (c : Nat → Nat) (i n : Nat) (h : i ≤ n) : runMax c i ≤ runMax c n :=
  runMax_le c i _ fun j hj => runMax_ge c j n (by omega)

end Sys2Proof.Machine
end

