-- ==== Sys2Proof/Laws/Memory.lean ====
section
/-! SUPPORT. The laws of memory: a read after a write, writes elsewhere, and the canonical form that every memory operation
keeps. -/

namespace Sys2Proof.Machine

theorem armWritten_mem (s : State) (a : Nat) (bs : List DByte) : (armWritten s a bs).mem = s.mem := by
  simp only [armWritten]; repeat' split <;> try rfl

theorem armWritten_psn (s : State) (a : Nat) (bs : List DByte) : (armWritten s a bs).psn = s.psn := by
  simp only [armWritten]; repeat' split <;> try rfl

@[simp] theorem writeMem_mem (s : State) (a : Nat) (bs : List DByte) : (s.writeMem a bs).mem = putBytes s.mem a bs := by
  simp [State.writeMem, armWritten_mem]

/-- Bytes below or above the written range stay. -/
theorem get_putBytes_other (m : List Host.Cell) (a b : Nat) (bs : List DByte) (h : b < a ∨ a + bs.length ≤ b) :
    SMap.get memDefault (putBytes m a bs) b = SMap.get memDefault m b := by
  induction bs generalizing m a with
  | nil => rfl
  | cons x r ih =>
    simp only [putBytes]
    simp only [List.length_cons] at h
    rw [ih _ _ (by omega)]
    exact SMap.get_set_other _ _ _ _ _ (by omega)

/-- A written byte is read back. -/
theorem get_putBytes_same (m : List Host.Cell) (a i : Nat) (bs : List DByte) (h : i < bs.length) :
    SMap.get memDefault (putBytes m a bs) (a + i) = (bs[i]).1 := by
  induction bs generalizing m a i with
  | nil => simp at h
  | cons x r ih =>
    simp only [putBytes]
    cases i with
    | zero => rw [get_putBytes_other _ _ _ _ (by omega)]; simp
    | succ i =>
      have := ih (SMap.set memDefault m a x.1) (a + 1) i (by simpa using h)
      simpa [show a + 1 + i = a + (i + 1) by omega] using this

/-- A read after a write gives the value written. -/
theorem byteAt_writeMem_same (s : State) (a i : Nat) (bs : List DByte) (h : i < bs.length) :
    (s.writeMem a bs).byteAt (a + i) = (bs[i]).1 := by
  simp only [State.byteAt, writeMem_mem]; exact get_putBytes_same _ _ _ _ h

/-- A write leaves every other place alone. -/
theorem byteAt_writeMem_other (s : State) (a b : Nat) (bs : List DByte) (h : b < a ∨ a + bs.length ≤ b) :
    (s.writeMem a bs).byteAt b = s.byteAt b := by
  simp only [State.byteAt, writeMem_mem]; exact get_putBytes_other _ _ _ _ h

theorem wf_putBytes (m : List Host.Cell) (a : Nat) (bs : List DByte) (h : Memory.wf m = true) :
    Memory.wf (putBytes m a bs) = true := by
  induction bs generalizing m a with
  | nil => exact h
  | cons x r ih => exact ih _ _ (SMap.wf_set _ _ _ _ h)

/-- A write keeps the canonical form. -/
theorem wf_writeMem (s : State) (a : Nat) (bs : List DByte) (h : Memory.wf s.mem = true) :
    Memory.wf (s.writeMem a bs).mem = true := by
  rw [writeMem_mem]; exact wf_putBytes _ _ _ h

/-- Clearing a range keeps the canonical form. -/
theorem wf_zeroMem (s : State) (a n : Nat) (h : Memory.wf s.mem = true) : Memory.wf (s.zeroMem a n).mem = true :=
  SMap.wf_filter _ _ _ h

/-- A channel's new lane list keeps the canonical form. -/
theorem wf_relayMem (ch : Nat) (old new : List Nat) (m : List Host.Cell) : Memory.wf (relayMem ch old new m) = true := by
  have key : ∀ (m t : List Host.Cell), Memory.wf t = true → Memory.wf (m.foldl (fun t c => match relayAddr ch old new c.1 with
      | some a => SMap.set memDefault t a c.2
      | none => t) t) = true := by
    intro m
    induction m with
    | nil => exact fun _ h => h
    | cons c r ih =>
      intro t h
      refine ih _ ?_
      dsimp only
      split
      · exact SMap.wf_set _ _ _ _ h
      · exact h
  exact key m [] rfl

theorem wf_relayout (s : State) (ch : Nat) (h : Memory.wf s.mem = true) : Memory.wf (relayout s ch).mem = true := by
  simp only [relayout]
  split
  · exact h
  · exact wf_relayMem _ _ _ _

/-- The scrub of a returned package, and a reset, keep the canonical form. -/
theorem wf_scrubMem (s : State) : Memory.wf (scrubMem s).mem = true := rfl

theorem wf_hubReset (s : State) (cold : Bool) (h : Memory.wf s.mem = true) : Memory.wf (hubReset s cold).mem = true := by
  cases cold
  · exact SMap.wf_filter _ _ _ h
  · rfl

end Sys2Proof.Machine
end

