-- ==== Sys2Proof/Laws/Units.lean ====
section
/-! SUPPORT. What a unit's state is after it was written, and that the other units keep theirs. -/

namespace Sys2Proof.Machine

@[simp] theorem chan_setChan_same (s : State) (n : Nat) (f : Chan → Chan) : (s.setChan n f).chan n = f (s.chan n) := by
  simp [State.setChan, State.chan]

theorem chan_setChan_other (s : State) (n m : Nat) (f : Chan → Chan) (h : m ≠ n) : (s.setChan n f).chan m = s.chan m := by
  simp [State.setChan, State.chan, SMap.get_put_other _ _ _ _ _ h]

@[simp] theorem mon_setMon_same (s : State) (n : Nat) (f : Monitor → Monitor) : (s.setMon n f).mon n = f (s.mon n) := by
  simp [State.setMon, State.mon]

theorem mon_setMon_other (s : State) (n m : Nat) (f : Monitor → Monitor) (h : m ≠ n) : (s.setMon n f).mon m = s.mon m := by
  simp [State.setMon, State.mon, SMap.get_put_other _ _ _ _ _ h]

@[simp] theorem load_setLoad_same (s : State) (n : Nat) (f : LoadSeq → LoadSeq) : (s.setLoad n f).load n = f (s.load n) := by
  simp [State.setLoad, State.load]

theorem load_setLoad_other (s : State) (n m : Nat) (f : LoadSeq → LoadSeq) (h : m ≠ n) : (s.setLoad n f).load m = s.load m := by
  simp [State.setLoad, State.load, SMap.get_put_other _ _ _ _ _ h]

@[simp] theorem seal_setSeal_same (s : State) (n : Nat) (f : Seal → Seal) : (s.setSeal n f).seal n = f (s.seal n) := by
  simp [State.setSeal, State.seal]

theorem seal_setSeal_other (s : State) (n m : Nat) (f : Seal → Seal) (h : m ≠ n) : (s.setSeal n f).seal m = s.seal m := by
  simp [State.setSeal, State.seal, SMap.get_put_other _ _ _ _ _ h]

@[simp] theorem ct_setCt_same (s : State) (n : Nat) (f : Ct → Ct) : (s.setCt n f).ct n = f (s.ct n) := by
  simp [State.setCt, State.ct]

theorem ct_setCt_other (s : State) (n m : Nat) (f : Ct → Ct) (h : m ≠ n) : (s.setCt n f).ct m = s.ct m := by
  simp [State.setCt, State.ct, SMap.get_put_other _ _ _ _ _ h]

@[simp] theorem fc_setFc_same (s : State) (n : Nat) (f : FaultCtl → FaultCtl) : (s.setFc n f).fc n = f (s.fc n) := by
  simp [State.setFc, State.fc]

theorem fc_setFc_other (s : State) (n m : Nat) (f : FaultCtl → FaultCtl) (h : m ≠ n) : (s.setFc n f).fc m = s.fc m := by
  simp [State.setFc, State.fc, SMap.get_put_other _ _ _ _ _ h]

@[simp] theorem dly_setDly_same (s : State) (n : Nat) (f : Dailies → Dailies) : (s.setDly n f).dly n = f (s.dly n) := by
  simp [State.setDly, State.dly]

theorem dly_setDly_other (s : State) (n m : Nat) (f : Dailies → Dailies) (h : m ≠ n) : (s.setDly n f).dly m = s.dly m := by
  simp [State.setDly, State.dly, SMap.get_put_other _ _ _ _ _ h]

@[simp] theorem fn_setFn_same (s : State) (n : Nat) (f : HostFn → HostFn) : (s.setFn n f).fn n = f (s.fn n) := by
  simp [State.setFn, State.fn]

theorem fn_setFn_other (s : State) (n m : Nat) (f : HostFn → HostFn) (h : m ≠ n) : (s.setFn n f).fn m = s.fn m := by
  simp [State.setFn, State.fn, SMap.get_put_other _ _ _ _ _ h]

@[simp] theorem clu_setClu_same (s : State) (ch c : Nat) (f : Cluster → Cluster) : (s.setClu ch c f).clu ch c = f (s.clu ch c) := by
  simp [State.setClu, State.clu]

theorem clu_setClu_other (s : State) (ch c ch' c' : Nat) (f : Cluster → Cluster) (h : clLoc ch' c' ≠ clLoc ch c) :
    (s.setClu ch c f).clu ch' c' = s.clu ch' c' := by
  simp [State.setClu, State.clu, SMap.get_put_other _ _ _ _ _ h]

@[simp] theorem dist_setDist_same (s : State) (ch d : Nat) (f : District → District) : (s.setDist ch d f).dist ch d = f (s.dist ch d) := by
  simp [State.setDist, State.dist]

theorem dist_setDist_other (s : State) (ch d ch' d' : Nat) (f : District → District) (h : dstLoc ch' d' ≠ dstLoc ch d) :
    (s.setDist ch d f).dist ch' d' = s.dist ch' d' := by
  simp [State.setDist, State.dist, SMap.get_put_other _ _ _ _ _ h]

@[simp] theorem tl_setTl_same (s : State) (ch c t : Nat) (f : Tile → Tile) : (s.setTl ch c t f).tl ch c t = f (s.tl ch c t) := by
  simp [State.setTl, State.tl]

theorem tl_setTl_other (s : State) (ch c t ch' c' t' : Nat) (f : Tile → Tile) (h : tlLoc ch' c' t' ≠ tlLoc ch c t) :
    (s.setTl ch c t f).tl ch' c' t' = s.tl ch' c' t' := by
  simp [State.setTl, State.tl, SMap.get_put_other _ _ _ _ _ h]

@[simp] theorem lk_setLk_same (s : State) (l : LinkId) (f : FdlEnd → FdlEnd) : (s.setLk l f).lk l = f (s.lk l) := by
  simp [State.setLk, State.lk]

theorem lk_setLk_other (s : State) (l m : LinkId) (f : FdlEnd → FdlEnd) (h : lkLoc m ≠ lkLoc l) : (s.setLk l f).lk m = s.lk m := by
  simp [State.setLk, State.lk, SMap.get_put_other _ _ _ _ _ h]

@[simp] theorem stw_setStw_same (s : State) (ch c w : Nat) (f : Stw → Stw) : (setStw s ch c w f).stw ch c w = f (s.stw ch c w) := by
  simp [setStw, State.stw, Cluster.stw]

/-- The cluster's other steward keeps its state. -/
theorem stw_setStw_other (s : State) (ch c w v : Nat) (f : Stw → Stw) (h : v ≠ w) :
    (setStw s ch c w f).stw ch c v = s.stw ch c v := by
  simp [setStw, State.stw, Cluster.stw, SMap.get_put_other _ _ _ _ _ h]

@[simp] theorem obj_setObj_same (s : State) (ch o : Nat) (f : SObj → SObj) : (setObj s ch o f).obj ch o = f (s.obj ch o) := by
  simp [setObj, State.obj]

theorem obj_setObj_other (s : State) (ch o p : Nat) (f : SObj → SObj) (h : p ≠ o) : (setObj s ch o f).obj ch p = s.obj ch p := by
  simp [setObj, State.obj, SMap.get_put_other _ _ _ _ _ h]

/-- A list table read under the key it was written at. -/
@[simp] theorem lst_setLst_same {α : Type} (m : SMap (List α)) (k : Nat) (l : List α) : lst (setLst m k l) k = l := by
  simp only [lst, setLst]
  split
  · next h => simp [SMap.get, List.isEmpty_iff.1 h]
  · simp

theorem lst_setLst_other {α : Type} (m : SMap (List α)) (k j : Nat) (l : List α) (h : j ≠ k) : lst (setLst m k l) j = lst m j := by
  simp only [lst, setLst]
  split
  · simp [SMap.get, SMap.get?_erase_other _ _ _ h]
  · exact SMap.get_put_other _ _ _ _ _ h

@[simp] theorem queue_setQueue_same (s : State) (ch c q : Nat) (l : List Msg) : queue (setQueue s ch c q l) ch c q = l := by
  simp [queue, setQueue]

@[simp] theorem cnt_setCnt_same (m : SMap Nat) (k n : Nat) : cnt (setCnt m k n) k = n := by simp [cnt, setCnt]

/-! ### Scalar registers of a steward -/

/-- `s0` reads 0 whatever is written (R122). -/
@[simp] theorem stw_get_zero (x : Stw) : x.get 0 = 0 := by simp [Stw.get]

@[simp] theorem stw_get_put_same (x : Stw) (r v : Nat) (h : r ≠ 0) : (x.put r v).get r = v % 2 ^ 64 := by
  simp [Stw.get, Stw.put, h]

theorem stw_get_put_other (x : Stw) (r q v : Nat) (h : q ≠ r) : (x.put r v).get q = x.get q := by
  by_cases hr : r = 0 <;> by_cases hq : q = 0 <;> simp [Stw.get, Stw.put, hr, hq, SMap.get_put_other _ _ _ _ _ h]

@[simp] theorem stw_put_pc (x : Stw) (r v : Nat) : (x.put r v).pc = x.pc := by simp only [Stw.put]; split <;> rfl
@[simp] theorem stw_put_ilen (x : Stw) (r v : Nat) : (x.put r v).ilen = x.ilen := by simp only [Stw.put]; split <;> rfl
@[simp] theorem stw_put_instret (x : Stw) (r v : Nat) : (x.put r v).instret = x.instret := by simp only [Stw.put]; split <;> rfl
@[simp] theorem stw_put_take (x : Stw) (r v : Nat) : (x.put r v).take = x.take := by simp only [Stw.put]; split <;> rfl
@[simp] theorem stw_put_st (x : Stw) (r v : Nat) : (x.put r v).st = x.st := by simp only [Stw.put]; split <;> rfl
@[simp] theorem stw_go_x (x : Stw) : x.go.x = x.x := rfl
@[simp] theorem stw_go_get (x : Stw) (r : Nat) : x.go.get r = x.get r := rfl
@[simp] theorem stw_go_pc (x : Stw) : x.go.pc = x.pc := rfl
@[simp] theorem stw_go_instret (x : Stw) : x.go.instret = x.instret := rfl
@[simp] theorem stw_go_take (x : Stw) : x.go.take = x.take := rfl

end Sys2Proof.Machine
end

