-- ==== Sys2Proof/Laws/Reports.lean ====
section
/-! SUPPORT. What counting and progress can change: registers of their own only. -/

namespace Sys2Proof.Machine

/-- Setting a register changes the register table only. -/
theorem setReg_only (s : State) (r : Reg) (l i v : Nat) :
    s.setReg r l i v = { s with regs := (s.setReg r l i v).regs } := rfl

theorem pmFold_only (s : State) (ch ev cl n : Nat) (l : List Nat) :
    l.foldl (fun s i =>
      let sel := s.regN .CH_PMSELn ch i
      if bits sel 0 8 = ev ∧ (bits sel 8 7 = 127 ∨ bits sel 8 7 = cl) then
        s.setReg .CH_PMCn ch i (satAdd 64 (s.regN .CH_PMCn ch i) n)
      else s) s =
    { s with regs := (l.foldl (fun s i =>
      let sel := s.regN .CH_PMSELn ch i
      if bits sel 0 8 = ev ∧ (bits sel 8 7 = 127 ∨ bits sel 8 7 = cl) then
        s.setReg .CH_PMCn ch i (satAdd 64 (s.regN .CH_PMCn ch i) n)
      else s) s).regs } := by
  induction l generalizing s with
  | nil => rfl
  | cons a l ih =>
    rw [List.foldl_cons, ih]
    dsimp only
    split <;> rfl

/-- Counting an event changes the register table only. -/
theorem pmCount_only (s : State) (ch ev cl n : Nat) :
    pmCount s ch ev cl n = { s with regs := (pmCount s ch ev cl n).regs } := by
  unfold pmCount
  split
  · exact pmFold_only s ch ev cl n (List.range 16)
  · rfl

@[simp] theorem pmCount_mem (s : State) (ch ev cl n : Nat) : (pmCount s ch ev cl n).mem = s.mem := by
  rw [pmCount_only]

@[simp] theorem pmCount_tiles (s : State) (ch ev cl n : Nat) : (pmCount s ch ev cl n).tiles = s.tiles := by
  rw [pmCount_only]

@[simp] theorem pmCount_cls (s : State) (ch ev cl n : Nat) : (pmCount s ch ev cl n).cls = s.cls := by
  rw [pmCount_only]

@[simp] theorem pmCount_chans (s : State) (ch ev cl n : Nat) : (pmCount s ch ev cl n).chans = s.chans := by
  rw [pmCount_only]

@[simp] theorem pmCount_dailies (s : State) (ch ev cl n : Nat) : (pmCount s ch ev cl n).dailies = s.dailies := by
  rw [pmCount_only]

@[simp] theorem pmCount_part (s : State) (ch ev cl n : Nat) : (pmCount s ch ev cl n).part = s.part := by
  rw [pmCount_only]

/-- Counting an event leaves every register but the counters alone. -/
theorem pmCount_reg (s : State) (ch ev cl n : Nat) (q : Reg) (m j : Nat)
    (h : ∀ i, i < 16 → q.place m j ≠ Reg.CH_PMCn.place ch i) : (pmCount s ch ev cl n).reg q m j = s.reg q m j := by
  unfold pmCount
  split
  · have key : ∀ (l : List Nat) (s : State), (∀ i ∈ l, i < 16) → (l.foldl (fun s i =>
        let sel := s.regN .CH_PMSELn ch i
        if bits sel 0 8 = ev ∧ (bits sel 8 7 = 127 ∨ bits sel 8 7 = cl) then
          s.setReg .CH_PMCn ch i (satAdd 64 (s.regN .CH_PMCn ch i) n)
        else s) s).reg q m j = s.reg q m j := by
      intro l
      induction l with
      | nil => intros; rfl
      | cons a l ih =>
        intro s hl
        rw [List.foldl_cons, ih _ fun i hi => hl i (List.mem_cons_of_mem _ hi)]
        dsimp only
        split
        · exact reg_setReg_other _ _ _ _ _ _ _ _ (h a (hl a List.mem_cons_self))
        · rfl
    exact key _ s fun i hi => List.mem_range.mp hi
  · rfl

/-- Progress of a cluster changes the register table only. -/
theorem progress_only (s : State) (ch c : Nat) : progress s ch c = { s with regs := (progress s ch c).regs } := by
  unfold progress
  split
  · split <;> rfl
  · rfl

/-- It leaves every register but `CL_SIDSTAT` alone. -/
theorem progress_reg (s : State) (ch c : Nat) (q : Reg) (m j : Nat)
    (h : q.place m j ≠ Reg.CL_SIDSTAT.place (clLoc ch c) 0) : (progress s ch c).reg q m j = s.reg q m j := by
  unfold progress
  split
  · split
    · exact reg_setReg_other _ _ _ _ _ _ _ _ h
    · rfl
  · rfl

end Sys2Proof.Machine
end

