-- ==== Sys2Proof/Laws/Requests.lean ====
section
/-! SUPPORT. What issuing a request changes, for the clusters and for the units beside them; and that the writes of the network keep
memory canonical, whatever the write guard answers. -/

namespace Sys2Proof.Machine

/-- A state that differs from another only in its channels. -/
def ChansOnly (s t : State) : Prop := ∃ c, t = { s with chans := c }

theorem ChansOnly.refl (s : State) : ChansOnly s s := ⟨s.chans, rfl⟩

theorem ChansOnly.trans {s t u : State} (h : ChansOnly s t) (k : ChansOnly t u) : ChansOnly s u := by
  obtain ⟨a, rfl⟩ := h; obtain ⟨b, rfl⟩ := k; exact ⟨b, rfl⟩

theorem ChansOnly.foldl {α : Type} {f : State → α → State} (h : ∀ s a, ChansOnly s (f s a)) (l : List α) (s : State) :
    ChansOnly s (l.foldl f s) := by
  induction l generalizing s with
  | nil => exact .refl s
  | cons a r ih => exact (h s a).trans (ih (f s a))

theorem ChansOnly.mem {s t : State} (h : ChansOnly s t) : t.mem = s.mem := by obtain ⟨c, rfl⟩ := h; rfl
theorem ChansOnly.cls {s t : State} (h : ChansOnly s t) : t.cls = s.cls := by obtain ⟨c, rfl⟩ := h; rfl
theorem ChansOnly.tiles {s t : State} (h : ChansOnly s t) : t.tiles = s.tiles := by obtain ⟨c, rfl⟩ := h; rfl
theorem ChansOnly.regs {s t : State} (h : ChansOnly s t) : t.regs = s.regs := by obtain ⟨c, rfl⟩ := h; rfl
theorem ChansOnly.seals {s t : State} (h : ChansOnly s t) : t.seals = s.seals := by obtain ⟨c, rfl⟩ := h; rfl
theorem ChansOnly.cts {s t : State} (h : ChansOnly s t) : t.cts = s.cts := by obtain ⟨c, rfl⟩ := h; rfl
theorem ChansOnly.loads {s t : State} (h : ChansOnly s t) : t.loads = s.loads := by obtain ⟨c, rfl⟩ := h; rfl

theorem chansOnly_pushReq (s : State) (ch : Nat) (r : Req) : ChansOnly s (pushReq s ch r) := ⟨_, rfl⟩

theorem chansOnly_unitAskOne (ch u cl : Nat) (fn : Option Nat) (wr : Bool) (op : Nat × Nat → ROp) (s : State) (p : Nat × Nat) :
    ChansOnly s (unitAskOne ch u cl fn wr op s p) := by
  simp only [unitAskOne]; split
  · exact .refl s
  · exact chansOnly_pushReq _ _ _

/-- The reads of a unit beside the clusters are requests of its channel and nothing else; so are its writes. -/
theorem chansOnly_unitAsk (s : State) (ch u cl : Nat) (fn : Option Nat) (l : List (Nat × Nat)) :
    ChansOnly s (unitAsk s ch u cl fn l) := ChansOnly.foldl (chansOnly_unitAskOne ch u cl fn false _) _ _

theorem chansOnly_unitPut (s : State) (ch u cl : Nat) (fn : Option Nat) (a : Nat) (b : List DByte) :
    ChansOnly s (unitPut s ch u cl fn a b) := ChansOnly.foldl (fun _ _ => chansOnly_pushReq _ _ _) _ _

theorem chansOnly_unitForget (s : State) (ch u : Nat) : ChansOnly s (unitForget s ch u) := ⟨_, rfl⟩
theorem chansOnly_unitDrop (s : State) (ch u : Nat) : ChansOnly s (unitDrop s ch u) := ⟨_, rfl⟩

@[simp] theorem unitAsk_mem (s : State) (ch u cl : Nat) (fn : Option Nat) (l : List (Nat × Nat)) :
    (unitAsk s ch u cl fn l).mem = s.mem := (chansOnly_unitAsk s ch u cl fn l).mem
@[simp] theorem unitPut_mem (s : State) (ch u cl : Nat) (fn : Option Nat) (a : Nat) (b : List DByte) :
    (unitPut s ch u cl fn a b).mem = s.mem := (chansOnly_unitPut s ch u cl fn a b).mem
@[simp] theorem unitForget_mem (s : State) (ch u : Nat) : (unitForget s ch u).mem = s.mem := rfl
@[simp] theorem unitDrop_mem (s : State) (ch u : Nat) : (unitDrop s ch u).mem = s.mem := rfl

theorem mem_foldl {α : Type} {f : State → α → State} (h : ∀ s a, (f s a).mem = s.mem) (l : List α) (s : State) :
    (l.foldl f s).mem = s.mem := by
  induction l generalizing s with
  | nil => rfl
  | cons a r ih => exact (ih _).trans (h s a)

@[simp] theorem nfHit_mem (s : State) (ch win e : Nat) (psn : Bool) : (nfHit s ch win e psn).mem = s.mem := by
  simp only [nfHit]; repeat' split <;> try rfl

/-- Classification by the monitor writes no memory (R294). -/
@[simp] theorem classify_mem (s : State) (a : Nat) (bs : List DByte) : (classify s a bs).mem = s.mem := by
  simp only [classify, classifyWin]
  split
  · refine mem_foldl (fun s n => ?_) _ _
    split
    · rfl
    · refine mem_foldl (fun s i => ?_) _ _
      split
      · split
        · exact nfHit_mem _ _ _ _ _
        · rfl
      · rfl
  · rfl

theorem wf_storeBytes (s : State) (a : Nat) (bs : List DByte) (h : Memory.wf s.mem = true) :
    Memory.wf (storeBytes s a bs).mem = true := wf_writeMem _ _ _ (by simpa using h)

theorem wf_storeOutside (s : State) (a : Nat) (bs : List DByte) (h : Memory.wf s.mem = true) :
    Memory.wf (storeOutside s a bs).mem = true := by
  simp only [storeOutside]
  generalize rangeGranules a bs.length = l
  induction l generalizing s with
  | nil => exact h
  | cons g r ih =>
    refine ih _ ?_
    dsimp only
    split
    · exact h
    · exact wf_storeBytes _ _ _ h

/-- A write under the guard (R299, R300): performed, held, or performed outside the `STATE` windows. -/
theorem wf_guardPut (s : State) (a : Nat) (bs : List DByte) (h : Memory.wf s.mem = true) :
    Memory.wf (guardPut s a bs).mem = true := by
  simp only [guardPut]
  split
  · exact wf_storeBytes _ _ _ h
  · exact h
  · exact wf_storeOutside _ _ _ h

theorem wf_guardStore (s : State) (key : Nat × Nat × Nat) (a : Nat) (bs : List DByte) (h : Memory.wf s.mem = true) :
    Memory.wf (guardStore s key a bs).1.mem = true := by
  simp only [guardStore]
  split
  · exact h
  · split
    · exact h
    · split
      · exact wf_storeBytes _ _ _ h
      · exact h
      · exact wf_storeOutside _ _ _ h

end Sys2Proof.Machine
end

