-- ==== Sys2Proof/Laws/Stewards.lean ====
section
/-! SUPPORT. What waking a district and finishing a steward's instruction can change. -/

namespace Sys2Proof.Machine

/-- A step that changes only registers and districts. -/
def Wakes (s t : State) : Prop := ∃ r d, t = { s with regs := r, dists := d }

theorem Wakes.refl (s : State) : Wakes s s := ⟨s.regs, s.dists, rfl⟩

theorem Wakes.trans {s t u : State} (h : Wakes s t) (k : Wakes t u) : Wakes s u := by
  obtain ⟨r, d, rfl⟩ := h
  obtain ⟨r', d', rfl⟩ := k
  exact ⟨r', d', rfl⟩

theorem Wakes.fset {s t : State} (h : Wakes s t) (f : Fld) (l i v : Nat) : Wakes s (t.fset f l i v) :=
  h.trans ⟨(t.fset f l i v).regs, t.dists, rfl⟩

theorem Wakes.setDist {s t : State} (h : Wakes s t) (ch d : Nat) (f : District → District) : Wakes s (t.setDist ch d f) :=
  h.trans ⟨t.regs, (t.setDist ch d f).dists, rfl⟩

theorem Wakes.foldl {α : Type} {f : State → α → State} (h : ∀ s a, Wakes s (f s a)) (l : List α) {s t : State}
    (k : Wakes s t) : Wakes s (l.foldl f t) := by
  induction l generalizing t with
  | nil => exact k
  | cons a l ih => exact ih (k.trans (h t a))

theorem Wakes.ite {s t u : State} {p : Prop} [Decidable p] (h : Wakes s t) (k : Wakes s u) : Wakes s (if p then t else u) := by
  split
  · exact h
  · exact k

theorem wakes_applyCaps (s : State) (ch d : Nat) : Wakes s (applyCaps s ch d) := by
  unfold applyCaps
  exact .ite (((Wakes.refl s).fset _ _ _ _).fset _ _ _ _) (((((Wakes.refl s).fset _ _ _ _).fset _ _ _ _).fset _ _ _ _).fset _ _ _ _)

theorem wakes_stopLending (s : State) (ch d : Nat) : Wakes s (stopLending s ch d) := by
  unfold stopLending showLenders applyChannel
  exact .ite ((Wakes.foldl (fun s d => wakes_applyCaps s ch d) _
    (Wakes.foldl (fun s e => .ite (.refl s) ((Wakes.refl s).setDist _ _ _)) _
      (((Wakes.refl s).fset _ _ _ _).setDist _ _ _))).fset _ _ _ _) (.refl s)

/-- Waking a district changes registers and districts only. -/
theorem wakes_wakeDistrict (s : State) (ch d : Nat) : Wakes s (wakeDistrict s ch d) :=
  (Wakes.ite (Wakes.refl s) ((Wakes.refl s).setDist _ _ _)).trans (wakes_stopLending _ ch d)

theorem wakes_stwWake (s : State) (ch c w : Nat) : Wakes s (stwWake s ch c w) := by
  unfold stwWake
  split
  · exact wakes_wakeDistrict s ch (clDistrict c)
  · exact Wakes.refl s

@[simp] theorem wakeDistrict_cls (s : State) (ch d : Nat) : (wakeDistrict s ch d).cls = s.cls := by
  obtain ⟨r, e, h⟩ := wakes_wakeDistrict s ch d
  rw [h]

@[simp] theorem wakeDistrict_mem (s : State) (ch d : Nat) : (wakeDistrict s ch d).mem = s.mem := by
  obtain ⟨r, e, h⟩ := wakes_wakeDistrict s ch d
  rw [h]

@[simp] theorem wakeDistrict_chans (s : State) (ch d : Nat) : (wakeDistrict s ch d).chans = s.chans := by
  obtain ⟨r, e, h⟩ := wakes_wakeDistrict s ch d
  rw [h]

@[simp] theorem wakeDistrict_stw (s : State) (ch d ch' c w : Nat) : (wakeDistrict s ch d).stw ch' c w = s.stw ch' c w := by
  unfold State.stw State.clu
  rw [wakeDistrict_cls]

@[simp] theorem stwWake_stw (s : State) (ch c w ch' c' w' : Nat) : (stwWake s ch c w).stw ch' c' w' = s.stw ch' c' w' := by
  unfold stwWake
  split <;> simp

@[simp] theorem stwWake_mem (s : State) (ch c w : Nat) : (stwWake s ch c w).mem = s.mem := by
  obtain ⟨r, e, h⟩ := wakes_stwWake s ch c w
  rw [h]

end Sys2Proof.Machine
end

