-- ==== Sys2Proof/Safety.lean ====
section
/-! DEFINITION. What counts as a safe run: a step that answers a next state, and a state whose memory has its canonical
form. -/

namespace Sys2Proof

/-- A step neither faults nor refuses. -/
def safeStep (s : Machine.State) : Prop := ∃ t, Machine.step s = .next t

end Sys2Proof
end

