-- ==== Sys2Proof/WellFormed.lean ====
section
/-! DEFINITION. Which operands a command may have, beyond what their types say: widths of register accesses, lengths of
data, ranges of numbers that the spec bounds. -/

namespace Sys2Proof

/-- A value written has no bit beyond the access's bytes. -/
def valOk (n : Nat) (v : Word) : Bool := decide (1 ≤ n) && decide (v.toNat < 2 ^ (8 * n))

/-- Numbers of a list below a bound. -/
def allBelow (n : Nat) (l : List Nat) : Bool := l.all fun x => decide (x < n)

/-- The operands of a command lie in the ranges the spec gives them. A command that is not well formed never reaches the
block; a meaning does not look. -/
def Instr.wf : Instr → Bool
  | .registerWrite _ _ n v => valOk n v
  | .registerRead _ _ n => decide (1 ≤ n)
  | .fdlRegWindowAccess _ _ _ _ n v => valOk n v
  | .regRead _ width | .dbgregRd _ width => decide (1 ≤ width)
  | .regWrite _ width v | .dbgregWr _ width v => valOk width v
  | .dbgmem a _ _ => decide (a.toNat % 8 = 0)
  | .stallWindowExpiry _ young => allBelow 336 young
  | .pcieLinkReady rate width _ => decide (rate < 8) && decide (width < 32)
  | .ringEntryArrive _ _ es => decide (0 < es.length) && decide (es.length % 8 = 0)
  | .msixSend _ vec => decide (vec < 2048)
  | .apertureWrite _ _ _ data _ => decide (0 < data.length)
  | .apertureRead _ _ _ len => decide (0 < len)
  | .hostReadCompletion _ _ data => decide (0 < data.length)
  | .ucieTrained _ mods _ => decide (mods ≤ 4)
  | .fdlRequestTimeout _ tag => decide (tag < 65536)
  | .powerEpoch _ draws _ vnext => decide (draws.length = 6) && decide (vnext.length = 6)
  | .setEndpointId eid => decide (eid < 256)
  | .smbusArp addr => decide (addr < 128)
  | .requestUpdate slot => decide (slot < 2)
  | .thermalTrip src _ _ => decide (src < 8)
  | _ => true

end Sys2Proof
end

