-- ==== Sys2Proof/Tests/Slice0.lean ====
section
/-! SUPPORT. The model's own tests: ill-formed commands refused, worked examples of the spec, and for every statement of
`Obligations` with hypotheses a state and operands that meet them. -/

open Sys2Proof Sys2Proof.Machine
namespace Sys2Proof.Tests

set_option Elab.async false
/-! ### States -/

/-- Reset, and the hub's firmware running. -/
def base : State := State.reset
def run : State := { base with hub := { base.hub with phase := .run } }
def c0 : Cl := ⟨0, 0⟩
def t0 : TileId := ⟨c0, 0⟩
def w0 : StwId := ⟨c0, 0⟩
def hub : Requester := .hub

/-! ### Ill-formed commands are refused: one for each check of `Instr.wf` -/

def badReg : RegPlace := .blk ⟨.hub, 0⟩

theorem test_wf_refuses_registers :
    (Instr.registerWrite .hub badReg 0 0).wf = false ∧ (Instr.registerWrite .hub badReg 1 0x100).wf = false ∧
    (Instr.registerWrite .hub badReg 4 0x100000000).wf = false ∧ (Instr.registerRead .hub badReg 0).wf = false ∧
    (Instr.fdlRegWindowAccess .hub ⟨0, 0, false⟩ 4 true 0 0).wf = false ∧
    (Instr.fdlRegWindowAccess .hub ⟨0, 0, false⟩ 0 true 4 0x100000000).wf = false ∧
    (Instr.regRead 0 0).wf = false ∧ (Instr.dbgregRd 0 0).wf = false ∧
    (Instr.regWrite 0 4 0x100000000).wf = false ∧ (Instr.dbgregWr 0 0 0).wf = false := by decide

theorem test_wf_refuses_lengths :
    (Instr.ringEntryArrive 0 0 []).wf = false ∧ (Instr.ringEntryArrive 0 0 [0]).wf = false ∧
    (Instr.apertureWrite 0 0 0 [] false).wf = false ∧ (Instr.apertureRead 0 0 0 0).wf = false ∧
    (Instr.hostReadCompletion 0 0 []).wf = false ∧ (Instr.powerEpoch 0 [] 0 [0, 0, 0, 0, 0, 0]).wf = false ∧
    (Instr.powerEpoch 0 [0, 0, 0, 0, 0, 0] 0 []).wf = false := by decide

theorem test_wf_refuses_numbers :
    (Instr.dbgmem 4 false 0).wf = false ∧
    (Instr.stallWindowExpiry ⟨0, 0⟩ [336]).wf = false ∧ (Instr.pcieLinkReady 8 16 false).wf = false ∧
    (Instr.pcieLinkReady 6 32 false).wf = false ∧ (Instr.msixSend 0 2048).wf = false ∧
    (Instr.ucieTrained ⟨0, 0, false⟩ 5 false).wf = false ∧ (Instr.fdlRequestTimeout ⟨0, 0, false⟩ 65536).wf = false ∧
    (Instr.setEndpointId 256).wf = false ∧ (Instr.smbusArp 128).wf = false ∧ (Instr.requestUpdate 2).wf = false ∧
    (Instr.thermalTrip 8 0 0).wf = false := by decide

/-! ### Worked examples of the spec -/

/-- Table 4-18, slot 5: `macb.bf16.f32 v8, v0[0], %n, zero`. -/
theorem test_macb_word : TInstr.ofWord 0x1104400002024410#64 =
    { op := 0x11, pen := false, pneg := false, preg := 0, wr := true, dst := 8, em := false, route := 0, a := 0x00, b := 0x80, c := 0x91,
      mod := 0x010, imm := bits 0x1104400002024410 2 16, mod2 := 0 } ∧
    (tileDecode 0x1104400002024410#64).map Prod.fst = some .macb := by decide +kernel

/-- Table 4-18, slots 134 to 136: `fmul`, `cvt` and `loop`. -/
theorem test_tile_words :
    (tileDecode 0x330440002240F6D4#64).map (fun p => (p.1, p.2.dst, p.2.a, p.2.b, p.2.imm)) = some (.fmul, 8, 0x08, 0x90, 0x3DB5) ∧
    (tileDecode 0x4000048420000009#64).map (fun p => (p.1, p.2.em, p.2.route, p.2.a, p.2.mod)) = some (.cvt, true, 0x21, 0x08, 0x009) ∧
    (tileDecode 0x0404800000000014#64).map (fun p => (p.1, p.2.wr, p.2.dst, p.2.imm)) = some (.loop, true, 16, 5) := by decide +kernel

/-- Table 5-7 in FP32: M + M overflows, t × t underflows, t − t is +0; Table 5-8: `CVT` of M to BF16 is +∞. -/
theorem test_extreme_operands :
    fp32.encode rneMode none (opAdd 0 (fp32.value 0x7F7FFFFF) (fp32.value 0x7F7FFFFF)).1 = (0x7F800000, flOV ||| flIX) ∧
    fp32.encode rneMode none (opMul (fp32.value 1) (fp32.value 1)).1 = (0, flUF ||| flIX) ∧
    fp32.encode rneMode none (opSub 0 (fp32.value 1) (fp32.value 1)).1 = (0, 0) ∧
    cvtElem rneMode 0x9 0x0 0 none 0x7F7FFFFF = (0x7F80, flOV ||| flIX) := by decide +kernel

/-- Table 5-10: the elements of the block at scale 2^-13 as E4M3, ties to even. -/
theorem test_block_elements :
    (fe4m3.encode rneMode none (FVal.scale 13 (bf16.value 0x3D18))).1 = 0x7A ∧ (fe4m3.encode rneMode none (FVal.scale 13 (bf16.value 0xBC80))).1 = 0xF0 ∧
    (fe4m3.encode rneMode none (FVal.scale 13 (bf16.value 0x3780))).1 = 0x20 ∧
    fe4m3.encode rneMode none (FVal.scale 13 (bf16.value 0x3380)) = (0x00, flUF ||| flIX) := by decide +kernel

/-- Table 6-15: `li s3`, `stl.d 0(s3), s1`, `li s4`. -/
theorem test_steward_words_1 :
    (let i := sDecode 0x0037FFE00183
     (i.mn, i.rd, i.imm, i.len) = (.li, 3, 0x37FFE0, 6)) ∧
    (let i := sDecode 0x0002301E
     (i.mn, i.ra, i.rb, i.imm, i.width, i.len) = (.stl, 3, 1, 0, 8, 4)) ∧
    (let i := sDecode 0x000100000203
     (i.mn, i.rd, i.imm, i.len) = (.li, 4, 0x10000, 6)) := by decide +kernel

/-- Table 6-15: `dly.issue.c s5, s3`, `dly.wait s6, s5`, `bne s6, s0, +0x1C`, `bar.arw s0, s7`. -/
theorem test_steward_words_2 :
    (let i := sDecode 0x020032CA
     (i.mn, i.rd, i.ra, i.fn) = (.dlyIssue, 5, 3, 8)) ∧
    (let i := sDecode 0x0040534A
     (i.mn, i.rd, i.ra) = (.dlyWait, 6, 5)) ∧
    (let i := sDecode 0x00006732
     (i.mn, i.ra, i.rb, 2 * i.imm) = (.bne, 6, 0, 0x1C)) ∧
    (let i := sDecode 0x01807048
     (i.mn, i.rd, i.ra) = (.barArw, 0, 7)) := by decide +kernel

/-- Table 8-11: four TGAs of channel 2. -/
theorem test_tga_decode :
    (tgaCh 0x0009801234567890, tgaSpace 0x0009801234567890, tgaOff 0x0009801234567890) = (2, 0, 78187493520) ∧
    (tgaSpace 0x000990000A37FFE0, tgaCl 0x000990000A37FFE0, bits 0x000990000A37FFE0 0 22) = (1, 40, 0x37FFE0) ∧
    (tgaSpace 0x0009A000000091A0, bits 0x0009A000000091A0 3 16) = (2, 0x1234) ∧ tgaSpace 0x0009B0000245D000 = 3 ∧
    mkQaddr 9 2 70 1 33 3 = 0x0009900011801213 := by decide +kernel

/-- The catalogue's check value of CRC-32C (R149), for "123456789". -/
theorem test_crc32c : crc32c ([49, 50, 51, 52, 53, 54, 55, 56, 57].map (BitVec.ofNat 8)) = 0xE3069283 := by decide +kernel

/-- SHA-384 of "abc" (FIPS 180-4). -/
theorem test_sha384 : sha384 [97#8, 98#8, 99#8] =
    0xCB00753F45A35E8BB5A03D699AC65007272C32AB0EDED1631A8B605A43FF5BED8086072BA1E7CC2358BAECA134C825A7 := by decide +kernel

/-- Chapter 8: `READ` 48, `WRITE` 8, `REMOTE` 8 repeat read, read, write, read, read, remote, read, read. -/
theorem test_slot_pattern :
    let w := 48 + 8 * 2 ^ 8 + 8 * 2 ^ 16
    ((List.range 8).foldl (fun (p : List Int × List (Option Nat)) _ =>
      let r := slotPick w (fun _ => true) p.1
      (r.1, p.2 ++ [r.2])) ([0, 0, 0], [])).2 =
      [some 0, some 0, some 1, some 0, some 0, some 2, some 0, some 0] := by decide +kernel

/-- Chapter 20: a block whose largest magnitude is 0.0031 in LC8 has scale 0x6E and bound 2^-13, and its element is 0x7D. -/
theorem test_lossy_block :
    lcScale 1 0x3B4B295F = 0x6E ∧ f32Pow (lcBound 1 0x3B4B295F 0x6E) = 0x39000000 ∧
    (lcEncode 1 9 255 [0x3B4B295F]).bytes.take 2 = [0x6E#8, 0x7D#8] := by decide +kernel

/-- Chapter 21: (1,450 − 30) / 4 = 355 W is granted to each channel, shown as 2,840. -/
theorem test_grant : (sendGrants { run with hub := { run.hub with weights := [1, 1, 1, 1] } }).fget Fld.CH_PWRSTAT_GRANT 3 = 2840 := by
  decide +kernel

/-- Chapter 2: `HUB_CAPS` of TZG-4A reads 0x0000_05DC_0080_FF42 after reset, `CH_CAPS` 0x0000_6010_0007_7F69. -/
theorem test_caps : (Reg.HUB_CAPS.resetVal 2 0 0, Reg.CH_CAPS.resetVal 2 0 0) = (0x000005DC0080FF42#64, 0x0000601000077F69#64) := by
  decide +kernel

/-- Table 5-5: within 2 ulp of e = 2.71828 18284 59…, FP32 holds the four values from 0x402DF853; e^100 is beyond FP32. -/
theorem test_fn_bounds :
    fnBound 5 false 1 0 = (ordKey 0x402DF853, ordKey 0x402DF856) ∧ fnBound 5 false 100 0 = (ordKey f32Inf, ordKey f32Inf) ∧
    fnExact 3 false 3 0 = some (.fin false 1 3) ∧ fnExact 4 false 1 3 = some (FVal.ofInt 3) := by decide +kernel

/-- Table 17-1: offsets of BAR0 of PF0, and R372: of a VF; what no row maps names no register. -/
theorem test_bar0 :
    placeAddr (.fn 0) (.bar0 0x500) = some ⟨.hub, 0x500⟩ ∧ placeAddr (.fn 0) (.bar0 0x28000) = some ⟨.fn 0, 0xC000⟩ ∧
    placeAddr (.fn 0) (.bar0 0x1C000A08) = some ⟨.ch 3, 0xA08⟩ ∧ placeAddr (.fn 0) (.bar0 0x14000) = none ∧
    placeAddr (.fn 5) (.bar0 0x10) = some ⟨.fn 5, 0x10⟩ ∧ placeAddr (.fn 5) (.bar0 0x10000) = none := by decide +kernel

/-! ### The hypotheses of the statements are met -/

/-! ### Witnesses: for each statement, states and operands that meet the hypotheses of its clauses -/

/-- The debug level is 2 and JTAG is in use. -/
def dbgHub : State := run.fset Fld.NV_LC_DBGLEVEL 0 0 2
/-- The host port is up. -/
def hostUp : State := { run with port := { run.port with ready := true } }

def pwrcfg : RegAddr := ⟨.ch 0, 0xA08⟩
def scratch : RegAddr := ⟨.hub, 0x500⟩

theorem witness_RegisterAccessesComplete :
    (Slice0.Names run hub (.blk pwrcfg) pwrcfg ∧ Slice0.Hits run hub pwrcfg 4 .CH_PWRCFG 0 .full) ∧
    (Slice0.Names run hub (.blk scratch) scratch ∧ Slice0.Hits run hub scratch 4 .HUB_PWRBUDGET 0 .lower) ∧
    (Slice0.Hits run hub ⟨.hub, 0x504⟩ 4 .HUB_PWRBUDGET 0 .upper ∧
      halfOf { run with half := [⟨hub, Reg.HUB_PWRBUDGET.place 0 0, true, 7⟩] } hub =
        some ⟨hub, Reg.HUB_PWRBUDGET.place 0 0, true, 7⟩) ∧
    (reaches (dropHalf run hub) hub .hub = true ∧ blkShut (dropHalf run hub) .hub = false ∧
      blkAbsent (dropHalf run hub) .hub = none ∧ accessPart (blkKind .hub) 0x500 2 = none) ∧
    (Slice0.Names hostUp (.fn 0) (.blk scratch) scratch ∧
      Slice0.Hits hostUp (.fn 0) scratch 8 .HUB_PWRBUDGET 0 .full ∧ Reg.HUB_PWRBUDGET.timed = false) ∧
    (hostUp.port.perst = false ∧ cfgExists hostUp 0 = true) ∧
    (vendorAddr run (2 ^ 63 + 0x500) = some scratch ∧ vendorOk run (2 ^ 63 + 0x500) 8 = true ∧ mgmtMay scratch 8 = true ∧
      Slice0.Hits run .mgmt scratch 8 .HUB_PWRBUDGET 0 .full) ∧
    (Slice0.Jtag dbgHub 1 ∧ Slice0.Jtag dbgHub 2 ∧ vendorAddr (Slice0.jtagIr dbgHub 0x30) (2 ^ 63 + 0x500) = some scratch ∧
      vendorOk (Slice0.jtagIr dbgHub 0x30) (2 ^ 63 + 0x500) 8 = true ∧
      Slice0.Hits (Slice0.jtagIr dbgHub 0x30) .jtag scratch 8 .HUB_PWRBUDGET 0 .full) ∧
    dbgReach (Slice0.jtagIr dbgHub 0x31) (2 ^ 44) = true ∧
    (let u := dropHalf (Slice0.jtagIr (dbgHub.fset Fld.TL_STATUS_STATE (tlLoc 0 0 0) 0 tHalted) 0x32) .jtag
     Slice0.Open u .jtag (.tl t0) ∧
     tileSt u t0 = tHalted ∧ (u.tl 0 0 0).stepping = false ∧ (u.tl 0 0 0).ended = false) ∧
    (let u := dropHalf (Slice0.jtagIr (setStw dbgHub 0 0 0 fun x => { x with st := wHalted }) 0x32) .jtag
     Slice0.Open u .jtag (.cl c0) ∧ (u.stw 0 0 0).st = wHalted) := by
  (repeat' apply And.intro) <;> first | (intro f h; cases h; decide +kernel) | (intro f h; cases h; done) | decide +kernel | rfl

/-- A word of each tile instruction, written out from the encoding tables of chapter 4: register operands `v0`, `zero` where a
port is named, and no destination or emission where the table leaves both open. -/
def tileWords : List (TOp × Word) :=
  [(.nop, 0x0000_0000_0000_0000#64), (.end_, 0x0100_0000_0000_0000#64), (.jmp, 0x0200_0000_0000_0000#64),
   (.br, 0x0300_0000_0000_0000#64), (.loop, 0x0404_0000_0000_0000#64), (.drop, 0x0500_0002_4646_4400#64),
   (.mac, 0x1000_0000_0000_0000#64), (.macb, 0x1100_0000_0000_0000#64), (.mul, 0x1200_0000_0000_0000#64),
   (.add, 0x1300_0000_0000_0000#64), (.sub, 0x1400_0000_0000_0000#64), (.max, 0x1500_0000_0000_0000#64),
   (.min, 0x1600_0000_0000_0000#64), (.mmac, 0x2000_0000_0000_0004#64), (.imac, 0x2100_0000_0000_0006#64),
   (.iadd, 0x2200_0000_0000_0000#64), (.isub, 0x2300_0000_0000_0000#64), (.iand, 0x2400_0000_0000_0000#64),
   (.ior, 0x2500_0000_0000_0000#64), (.ixor, 0x2600_0000_0000_0000#64), (.ishl, 0x2700_0000_0000_0000#64),
   (.ishr, 0x2800_0000_0000_0000#64), (.fma, 0x3000_0000_0000_0000#64), (.fadd, 0x3100_0000_0000_0000#64),
   (.fsub, 0x3200_0000_0000_0000#64), (.fmul, 0x3300_0000_0000_0000#64), (.fmax, 0x3400_0000_0000_0000#64),
   (.fmin, 0x3500_0000_0000_0000#64), (.fn, 0x3800_0000_0000_0000#64), (.cvt, 0x4000_0000_0000_0009#64),
   (.mov, 0x4100_0000_0000_0000#64), (.perm, 0x4200_0000_0000_0000#64), (.rot, 0x4300_0000_0000_0000#64),
   (.bcst, 0x4400_0000_0000_0000#64), (.sel, 0x4500_0000_0000_0000#64), (.rsum, 0x5000_0000_0000_0000#64),
   (.rmax, 0x5100_0000_0000_0000#64), (.rmin, 0x5200_0000_0000_0000#64), (.ramax, 0x5300_0000_0000_0000#64),
   (.rbexp, 0x5400_0000_0000_0040#64), (.fwd, 0x6000_0400_0000_0000#64), (.fwdh, 0x6100_0400_0000_0000#64),
   (.pcmp, 0x7004_0000_0000_0000#64), (.plog, 0x7104_0000_0000_0000#64), (.pset, 0x7204_0000_0000_0000#64),
   (.pcls, 0x7304_0000_0000_0000#64), (.ld, 0x8000_0000_0000_0000#64), (.ldh, 0x8100_0000_0000_0000#64),
   (.lde, 0x8200_0000_0000_0000#64), (.st, 0x8300_0000_0000_0000#64), (.sth, 0x8400_0000_0000_0000#64),
   (.tkent, 0x9000_0000_0000_0000#64), (.tklv, 0x9100_0000_0000_0000#64), (.sig, 0xA000_0400_0000_0001#64)]

/-- A tile that is ready at slot 0, which holds a word. -/
def tileAt (w : Word) : State := (run.setReg .TL_IMEMn (tlLoc 0 0 0) 0 w.toNat).fset Fld.TL_STATUS_STATE (tlLoc 0 0 0) 0 tReady

/-- Every word decodes to its instruction (Tables 4-4 to 4-14), and fires on a ready tile. -/
theorem witness_TileInstructionsFire :
    tileWords.length = 54 ∧ ∀ p ∈ tileWords, Slice0.TileReady (tileAt p.2) t0 p.1 (TInstr.ofWord p.2) := by
  unfold Slice0.TileReady; decide +kernel

theorem witness_TileInstructionFrame : Slice0.TileReady (tileAt 0x8000_0000_0000_0000) t0 .ld (TInstr.ofWord 0x8000_0000_0000_0000) :=
  witness_TileInstructionsFire.2 (.ld, _) (by decide)

/-- With `WR` 1, predicated on p1 negated. -/
theorem witness_TileLaneResults :
    ∀ p ∈ tileWords, p.1 ∈ [TOp.iadd, .isub, .iand, .ior, .ixor, .ishl, .ishr, .mov, .perm, .rot, .bcst, .sel] →
      Slice0.TileReady (tileAt (p.2 ||| 0x00CC_0000_0000_0000)) t0 p.1 (TInstr.ofWord (p.2 ||| 0x00CC_0000_0000_0000)) ∧
      (TInstr.ofWord (p.2 ||| 0x00CC_0000_0000_0000)).wr = true := by
  unfold Slice0.TileReady; decide +kernel

theorem witness_TileFlowControl :
    Slice0.TileReady (tileAt 0x0100_0000_0000_0000) t0 .end_ (TInstr.ofWord 0x0100_0000_0000_0000) ∧
    Slice0.TileReady (tileAt 0x0200_0000_0000_03FC) t0 .jmp (TInstr.ofWord 0x0200_0000_0000_03FC) ∧
    Slice0.TileReady (tileAt 0x0300_0000_0000_0003) t0 .br (TInstr.ofWord 0x0300_0000_0000_0003) ∧
    Slice0.TileReady (tileAt 0x0404_8000_0000_0014) t0 .loop (TInstr.ofWord 0x0404_8000_0000_0014) := by
  unfold Slice0.TileReady; decide +kernel

theorem witness_TileControlCompletes :
    let s (st : Nat) : State := run.fset Fld.TL_STATUS_STATE (tlLoc 0 0 0) 0 st
    mayCl (dropHalf run hub) hub 0 0 = true ∧
    (let u := (s tRun).fset Fld.TL_CTRL_HALT (tlLoc 0 0 0) 0 1
     u.fbit Fld.TL_CTRL_HALT (tlLoc 0 0 0) = true ∧ tileSt u t0 = tRun ∧ arrayClock u 0 0 = true) ∧
    (mayCl (dropHalf (s tHalted) hub) hub 0 0 = true ∧ tileSt (s tHalted) t0 = tHalted ∧
      ((s tHalted).tl 0 0 0).stepping = false) ∧
    tileSt run t0 = tReset ∧
    (tileLive (tileAt 0x0600_0000_0000_0000) 0 0 0 = true ∧
      tileReserved (tileWord (tileAt 0x0600_0000_0000_0000) 0 0 0) = true) := by
  (repeat' apply And.intro) <;> first | decide +kernel | rfl

theorem witness_HubCommandsComplete :
    (let s : State := { run with hub := { run.hub with capsWait := [(0, 5)] } }
     s.hub.capsWait.find? (fun p => decide (p.1 = 0)) = some (0, 5)) ∧
    (let s : State := { run with hub := { run.hub with notices := [(3, 0)] } }
     (3, 0) ∈ s.hub.notices) ∧
    ({ run with port := { run.port with ready := true } } : State).port.ready = true := by
  (repeat' apply And.intro) <;> first | (intro f h; cases h; done) | decide +kernel | rfl

/-- A halt is asked of a steward in a state and a wait. -/
def halting (st : Nat) (x : Wait) : State :=
  (setStw run 0 0 0 fun y => { y with st := st, wait := x }).fset Fld.CL_STWn_CTRL_HALT (clLoc 0 0) 0 1

theorem witness_StewardControlCompletes :
    (Slice0.Open run hub (.cl c0) ∧ mayCl (dropHalf run hub) hub 0 0 = true) ∧
    ((halting wRun .none).fbit Fld.CL_STWn_CTRL_HALT (clLoc 0 0) 0 = true ∧ clocked (halting wRun .none) 0 0 = true ∧
      ((halting wRun .none).stw 0 0 0).st = wRun) ∧
    ((halting wStalled .syncWge).fbit Fld.CL_STWn_CTRL_HALT (clLoc 0 0) 0 = true ∧
      clocked (halting wStalled .syncWge) 0 0 = true ∧
      ((halting wStalled .syncWge).stw 0 0 0).st = wStalled ∧ ((halting wStalled .syncWge).stw 0 0 0).wait.haltable = true) ∧
    (Slice0.Open (halting wHalted .none) hub (.cl c0) ∧ mayCl (dropHalf (halting wHalted .none) hub) hub 0 0 = true ∧
      ((halting wHalted .none).stw 0 0 0).st = wHalted) := by
  (repeat' apply And.intro) <;> first | (intro f h; cases h; done) | decide +kernel | rfl

/-- A flit of a route and kind. -/
def flitOf (route : BitVec 8) (kind : BitVec 2) : Flit :=
  { payload := 0, route := route, last := true, half := true, take := 0, spec := false, poison := false, kind := kind }

/-- Array port 0 and depot port 0 of cluster 0 hold a flit for route 3; egress entry 3 holds a word; both gates are open. -/
def atPort (f : Flit) (eg : Nat) : State :=
  (((run.setClu 0 0 fun c => { c with aq := [(0, [f])], dq := [(0, [f])] }).setReg .CL_EGn (clLoc 0 0) 3 eg).fset
    Fld.CL_GATE_OUT (clLoc 0 0) 0 1).fset Fld.CL_GATE_WR (clLoc 0 0) 0 1

/-- Stream buffer 0 with a pair of live words. -/
def liveBuf (s : State) (a b : Nat) : State := (s.setReg .CL_SBn_LIVEA (clLoc 0 0) 0 a).setReg .CL_SBn_LIVEB (clLoc 0 0) 0 b

/-- A ring of three slots of 128 bytes that depot port 0 fills from route 3 and that array port 0 drains. -/
def ringA : Nat := 2 + 3 * 2 ^ 2 + 2 ^ 23 + 2 ^ 36 + 2 ^ 42
def ringB : Nat := 3 * 2 ^ 24

/-- Array port 0 is served next and its first flit is not speculative. -/
def portDue (s : State) (f : Flit) : Prop :=
  Slice0.PortTurn s c0 0 ∧ specHead s 0 0 0 = none ∧ portFlits s 0 0 0 = [f] ∧ gateOut s 0 0 = true ∧
    egValid (s.regN .CL_EGn (clLoc 0 0) f.route.toNat) = true

theorem witness_ArrayCommandsComplete :
    arrayClock run 0 0 = true ∧
    (let s := atPort (flitOf 3 0) 0
     Slice0.PortTurn s c0 0 ∧ specHead s 0 0 0 = none ∧ portFlits s 0 0 0 = [flitOf 3 0] ∧
      egValid (s.regN .CL_EGn (clLoc 0 0) 3) = false) ∧
    (let f : Flit := { flitOf 3 0 with spec := true }
     let s := atPort f 0
     Slice0.PortTurn s c0 0 ∧ specHead s 0 0 0 = some f ∧ (penFlit s 0 0 0 f).isSome = true) ∧
    firstToken [flitOf 3 0] = some [flitOf 3 0] ∧
    (let s := atPort (flitOf 3 0) (1 + egQueueTy * 2)
     let e := s.regN .CL_EGn (clLoc 0 0) 3
     portDue s (flitOf 3 0) ∧ egType e = egQueueTy ∧ (egressMsg s 0 0 0 3 e [flitOf 3 0]).isSome = true) ∧
    (let s := atPort (flitOf 3 0) (1 + egWriteTy * 2)
     let e := s.regN .CL_EGn (clLoc 0 0) 3
     portDue s (flitOf 3 0) ∧ egType e = egWriteTy ∧ (egressWrite s 0 0 0 3 e [flitOf 3 0]).isSome = true) ∧
    (let s := atPort (flitOf 3 0) (1 + egBufferTy * 2)
     let e := s.regN .CL_EGn (clLoc 0 0) 3
     portDue s (flitOf 3 0) ∧ egType e = egBufferTy ∧ (egressBuffer s 0 0 0 3 e (flitOf 3 0)).isSome = true) ∧
    (let s := atPort (flitOf 3 1) (1 + egSyncTy * 2)
     let e := s.regN .CL_EGn (clLoc 0 0) 3
     portDue s (flitOf 3 1) ∧ egType e = egSyncTy ∧ (egressSync s 0 0 0 3 e (flitOf 3 1)).isSome = true) ∧
    (let s := liveBuf (atPort (flitOf 3 0) 0) ringA ringB
     let bank := bankOf (fillAt s 0 0 0)
     arrayClock s 0 0 = true ∧ flitDue s 0 0 0 = some (flitOf 3 0, 0) ∧ bankTurn s 0 0 bank 0 = true ∧
      (guardStore (bankTook s 0 0 bank 0) (1, 0, 0) (fillAt (bankTook s 0 0 bank 0) 0 0 0) (tokenBytes [flitOf 3 0])).2.isSome = true) ∧
    (let s := (liveBuf (atPort (flitOf 3 0) 0) ringA ringB).fset Fld.CL_SBn_STAT_PUBCNT (clLoc 0 0) 0 1
     emitDue s 0 0 0 = some 0 ∧ bankTurn s 0 0 (bankOf (emitAt s 0 0 0 0)) 0 = true) := by
  unfold portDue Slice0.PortTurn
  (repeat' apply And.intro) <;> first | decide +kernel | rfl

/-- A request of cluster 0 at a place. -/
def reqAt (tga : Nat) (op : ROp) (place : Place) : Req :=
  { ret := .drop, fn := none, epoch := 0, cl := 0, tga := tga, op := op, cls := 0, place := place }

def withReq (r : Req) : State := run.setChan 0 fun k => { k with reqs := [r] }

/-- A stack at site 0. -/
def stack : State := (run.fset Fld.CH_HBMMAP_SITES 0 0 1).fset Fld.CH_HBMSIZE_SIZE 0 0 (2 ^ 34)

/-- The first block of a request in the depot of cluster 0. -/
def blk0 (r : Req) : Nat × Nat := inBlock 128 (tgaMem r.tga) r.len (2 ^ 44 / 128)

theorem witness_FabricCommandsComplete :
    (let r := { reqAt (mkTga 0 0 1 (5 * 2 ^ 22)) (.read 64) (.mesh 0 8) with dest := 5 }
     let s := (withReq r).fset Fld.CL_GATE_OUT (clLoc 0 0) 0 1
     clocked s 0 0 = true ∧ meshQueue s 0 0 8 = [r] ∧ r.units = [] ∧ gateOut s 0 0 = true ∧ gwBad s 0 0 8 r = false ∧
      readBack s 0 0 r = r ∧ (stepToward 0 r.dest).any (fun k => decide (beats s 0 r ≤ meshRoom s 0 k.1 k.2)) = true) ∧
    (let r := { reqAt (mkTga 0 0 1 (5 * 2 ^ 22)) (.read 64) (.mesh 5 1) with dest := 5 }
     let s := withReq r
     clocked s 0 5 = true ∧ meshQueue s 0 5 1 = [r] ∧ r.units = [] ∧ gwBad s 0 5 1 r = false ∧ readBack s 0 5 r = r ∧
      stepToward 5 r.dest = none ∧ remoteReq s 0 r = false) ∧
    (let r := { reqAt (mkTga 0 0 1 0) (.read 8) (.depot 0) with ret := .load 0 1 }
     let s := withReq r
     depotCopying s 0 0 0 = false ∧ bankStw s 0 0 0 = some (r, 2 ^ 44 / 128) ∧ s.fbit Fld.CL_CAPS_FENCED (clLoc 0 0) = false ∧
      (performPart (keepOwn s 0 0 r (blk0 r).1 (blk0 r).2) 0 r (blk0 r).1 (blk0 r).2).2 = true) ∧
    (let r := { reqAt (mkTga 0 0 1 0) (.read 64) (.depot 0) with ret := .dolly 0 0 0 false }
     let s := withReq r
     let t := bankTook s 0 0 0 16
     depotCopying s 0 0 0 = false ∧ bankStw s 0 0 0 = none ∧ burstTurn s 0 0 0 = some 16 ∧
      bankReq t 0 0 0 (fun r => (r.bySteward 0).isNone && (r.byDolly 0 == decide (16 = 16))) = some (r, 2 ^ 44 / 128) ∧
      t.fbit Fld.CL_CAPS_FENCED (clLoc 0 0) = false ∧
      (performPart (keepOwn t 0 0 r (blk0 r).1 (blk0 r).2) 0 r (blk0 r).1 (blk0 r).2).2 = true) ∧
    (let r := reqAt (mkTga 0 0 0 0) (.read 64) .hbm
     let s := stack.setChan 0 fun k => { k with reqs := [r] }
     let s' := s.setChan 0 fun c => { c with credit := SMap.put c.credit 0 [-24, 16, 8] }
     slotPick (siteSplit s 0 0) (fun k => !(classWaiting s 0 0 k).isEmpty) (siteCredit s 0 0) = ([-24, 16, 8], some 0) ∧
      cnt (s'.chan 0).portPtr 0 = 0 ∧ classWaiting s' 0 0 0 = [r] ∧
      granuleLeft (pmCount (s'.setChan 0 fun c => { c with portPtr := setCnt c.portPtr 0 1 }) 0 4 0 1) 0 0 r = some 0) ∧
    (let r := reqAt (mkTga 0 0 0 0) (.read 64) .table
     let s := withReq r
     (s.chan 0).ttPtr = 0 ∧ ttFree s 0 0 = true ∧ ttWaiting s 0 0 = some r) ∧
    (let w := run.regN .CH_BWSPLIT 0 % 2 ^ 31
     Slice0.Open run hub (.ch 0) ∧ maySup (dropHalf run hub) hub = true ∧ 0 < share w 0 ∧ 0 < share w 1 ∧ 0 < share w 2 ∧
      share w 0 + share w 1 + share w 2 = 64) ∧
    (3 ∈ ((run.setChan 0 fun k => { k with splitWait := [3] }).chan 0).splitWait) := by
  (repeat' apply And.intro) <;> first | (intro f h; cases h; done) | decide +kernel | rfl

/-- A message of one word for queue 3 of cluster 0, at the gateway's own input; `held` once it has waited there. -/
def msgReq (held : Bool) : Req :=
  { reqAt (mkQaddr 0 0 0 0 0 3) (.msg 0 (dBytes 8 7)) (.mesh 0 8) with parts := if held then [0] else [] }

/-- Queue 3 is in RECEIVE mode, and the message is on its way. -/
def msgWay (held : Bool) : State :=
  ((withReq (msgReq held)).setReg .CL_QCFGn (clLoc 0 0) 3 qRecv).fset Fld.CL_GATE_OUT (clLoc 0 0) 0 1

/-- Queue 3 dispatches to steward 0, holds a message, and handler entry 0 is valid. -/
def handled : State :=
  setStw (((run.setClu 0 0 fun c =>
    { c with queues := [(3, [⟨0, dBytes 8 7⟩])] }).setReg .CL_QCFGn (clLoc 0 0) 3 qDispatch).setReg .CL_HTn
    (clLoc 0 0) 0 (2 ^ 22 + 0x100)) 0 0 0 fun x => { x with st := wRun }

theorem witness_QueueCommandsComplete :
    (∀ held ∈ [false, true], let s := msgWay held
     arrived s 0 0 8 held = some (msgReq held, 0, dBytes 8 7) ∧ deliverCode s 0 none (mkQaddr 0 0 0 0 0 3) = 0 ∧
      (queue s 0 0 3).length < 32 ∧
      queueTurn s 0 0 3 8 (fun i => if i = 9 then arrayWants s 0 0 3 else inputWants s 0 0 3 i) = true ∧
      gwBad s 0 0 8 (msgReq held) = false ∧ readBack s 0 0 (msgReq held) = msgReq held ∧ anyPsn (dBytes 8 7) = false) ∧
    (mayDispatch (handled.stw 0 0 0) = true ∧ (handled.stw 0 0 0).st ≠ wStalled ∧ clocked handled 0 0 = true ∧
      (List.range 16).find? (dispatchDue handled 0 0 0) = some 3 ∧ qPsn handled 0 0 3 = false ∧
      bit (handled.regN .CL_HTn (clLoc 0 0) 0) 22 = true) ∧
    (Slice0.Open run hub (.cl c0) ∧ maySup (dropHalf run hub) hub = true) ∧
    (Slice0.Open run hub (.cl c0) ∧ mayCl (dropHalf run hub) hub 0 0 = true ∧ queue run 0 0 15 = [] ∧
      inHandler run 0 0 15 = false ∧ bits qDispatch 0 2 ≠ 3) := by
  (repeat' apply And.intro) <;> first | (intro f h; cases h; done) | decide +kernel | rfl

/-- Two halves of one slot that a dolly fills. -/
def halvesA : Nat := 1 + 2 * 2 ^ 2 + 2 ^ 23

/-- A ring of three slots that stewards fill and drain. -/
def stewA : Nat := 2 + 3 * 2 ^ 2 + 2 ^ 23 + 2 * 2 ^ 36

theorem witness_StreamBufferCommandsComplete :
    (let s := (run.setReg .CL_SBn_CFGA (clLoc 0 0) 31 stewA).setReg .CL_SBn_CFGB (clLoc 0 0) 31 0
     Slice0.Open s hub (.cl c0) ∧ mayCl (dropHalf s hub) hub 0 0 = true ∧
       sbWordsOk (s.regN .CL_SBn_CFGA (clLoc 0 0) 31) (s.regN .CL_SBn_CFGB (clLoc 0 0) 31) = true ∧
      sbClashes (dropHalf s hub) 0 0 31 stewA 0 = false ∧ sbSyncOk s 0 (clFn s 0 0) stewA 0 = true) ∧
    (let s := setSbuf run 0 0 0 fun x => { x with pend := some (stewA, 0) }
     (sbuf s 0 0 0).pend = some (stewA, 0) ∧ sbIdle s 0 0 0 = true ∧ clocked s 0 0 = true) ∧
    (let s := (setSbuf (liveBuf run halvesA 0) 0 0 0 fun x =>
      { x with filled := true }).fset Fld.CL_SBn_STAT_SWAPREQ (clLoc 0 0) 0 1
     Slice0.Open s hub (.cl c0) ∧ mayCl (dropHalf s hub) hub 0 0 = true ∧
      sbMode (sbA s 0 0 0) = mHalves ∧ s.fbit Fld.CL_SBn_STAT_SWAPREQ (clLoc 0 0) 0 = true ∧ (sbuf s 0 0 0).filled = true ∧
      (sbuf s 0 0 0).full = false ∧ clocked s 0 0 = true) ∧
    (let s := dropHalf (liveBuf run stewA 0) hub
     Slice0.Open s hub (.cl c0) ∧ mayCl s hub 0 0 = true ∧ sbBehind s 0 hub = none ∧ sbMode (sbA s 0 0 0) ≠ mOff ∧
       sbProd (sbA s 0 0 0) = 2 ∧ sbRoom s 0 0 0 = true ∧ sbMarked s 0 0 0 = false) ∧
    (let s := dropHalf ((liveBuf run stewA 0).fset Fld.CL_SBn_STAT_PUBCNT (clLoc 0 0) 0 1) hub
     Slice0.Open s hub (.cl c0) ∧ mayCl s hub 0 0 = true ∧ sbBehind s 0 hub = none ∧ sbHead s 0 0 0 = true ∧
       sbCmask (sbA s 0 0 0) = 0) ∧
    (let s := dropHalf (setFill (liveBuf run ringA ringB) 0 0 0 32) hub
     Slice0.Open s hub (.cl c0) ∧ mayCl s hub 0 0 = true ∧ sbProd (sbA s 0 0 0) ≠ 2 ∧ sbNamed s 0 0 0 = false ∧
       sbFill s 0 0 0 ≠ 0 ∧ sbRoom s 0 0 0 = true) := by
  (repeat' apply And.intro) <;> first | (intro f h; cases h; done) | decide +kernel | rfl

/-- A sync operation on object 5 of channel 0, which is a counter with value 9, at its bank. -/
def syncReqOf (op : SOp) (n : Nat) : Req := { reqAt (mkTga 0 0 2 40) (.sync op n) .bank with ret := .sync 0 }
def syncAt (op : SOp) (n : Nat) : State :=
  setObj ((withReq (syncReqOf op n)).fset Fld.CL_GATE_OUT (clLoc 0 0) 0 1) 0 5 fun _ => { bind := 1, val := 9 }

theorem witness_SyncCommandsComplete :
    ((syncAt .rd 0).up 0 = true ∧ bankHead (syncAt .rd 0) 0 1 false = some (syncReqOf .rd 0, .rd, 0) ∧
      ((syncAt .rd 0).obj 0 5).psn = false ∧
      ((syncAt .rd 0).obj 0 5).kind ≠ okUnbound) ∧
    ((syncAt .add 4).up 0 = true ∧ bankHead (syncAt .add 4) 0 1 false = some (syncReqOf .add 4, .add, 4) ∧
      (syncReqOf .add 4).parts = []) ∧
    (∀ n ∈ [9, 10], (syncAt .wge n).up 0 = true ∧ bankHead (syncAt .wge n) 0 1 true = some (syncReqOf .wge n, .wge, n) ∧
      (syncReqOf .wge n).ret.local_ = true ∧
      ((syncAt .wge n).obj 0 5).val = 9 ∧ ((syncAt .wge n).obj 0 5).psn = false ∧ ((syncAt .wge n).obj 0 5).kind ≠ okUnbound) ∧
    (let r := reqAt (mkTga 0 1 2 40) (.sync .wait 0) .busy
     let s := withReq r
     s.up 0 = true ∧ (s.chan 0).reqs.find? (fun r => decide (r.place = .busy)) = some r ∧ remoteReq s 0 r = true) ∧
    (let q : SyncWait := { obj := 5, ch := 0, remote := false, bar := true, reg := true }
     let s := setObj (setStw run 0 0 0 fun x => { x with st := wStalled, wait := .barrier, swait := some q }) 0 5 fun _ =>
       { bind := 6 }
     (s.stw 0 0 0).swait = some q ∧ (s.stw 0 0 0).st = wStalled ∧ mayPark s 0 0 0 q = true ∧ q.parked = false) ∧
    (let s : State := { run with hub := { run.hub with outPend := true } }
     s.hub.outPend = true ∧ s.hub.outPin = false) ∧
    (Slice0.Open run hub (.ch 0) ∧ mayChan (dropHalf run hub) hub = true ∧ maySup (dropHalf run hub) hub = true) ∧
    (let s : State := { run with hub := { run.hub with syncNotices := [3] } }
     s.up 3 = true ∧ 3 ∈ s.hub.syncNotices ∧ ldState s 3 ≠ ldArmed) := by
  (repeat' apply And.intro) <;> first | (intro f h; cases h; done) | decide +kernel | rfl

theorem witness_MonitorCommandsComplete :
    (let s := (run.setClu 0 0 fun c => { c with watched := true }).fset Fld.DST_STALLCFG_EN (dstLoc 0 0) 0 1
     (s.clu 0 0).watched = true ∧ s.fbit Fld.DST_STALLCFG_EN (dstLoc 0 (clDistrict 0)) = true ∧ clocked s 0 0 = true ∧
      spillQueues.filter (stuckQueue s 0 0 []) = []) ∧
    (Slice0.Open run hub (.dst ⟨0, 0⟩) ∧ 12 ≤ bits 12 0 5 ∧ bits 24 0 5 ≤ 24 ∧ maySup (dropHalf run hub) hub = true) ∧
    (let s := run.setTl 0 0 0 fun x => { x with spilled := [4], rq := [(4, [flitOf 0 0])] }
     engineNext s 0 0 = some 4 ∧ bankTurn s 0 0 (engineBank s 0 0 4) 18 = true) ∧
    Slice0.Open run hub (.ch 0) ∧ nfCommitCode (dropHalf run hub) 0 (nfShadow (dropHalf run hub) 0) = 0 ∧
    (let s := run.setMon 0 fun m => { m with pend := some {} }
     (s.mon 0).pend = some {} ∧ guardOf s 0 ≠ gPending ∧ (s.mon 0).held = []) := by
  (repeat' apply And.intro) <;> first | (intro f h; cases h; done) | decide +kernel | rfl

/-- A copy of 64 bytes from HBM to the cluster's depot. -/
def copySlot : DSlot := { w := 0, count := 0, collect := true, desc := [mkTga 0 0 0 0, mkTga 0 0 1 0, 64, 0] }

def slotted (d : DSlot) : State := stack.setClu 0 0 fun c => { c with slots := [(63, d)] }

theorem witness_DollyCommandsComplete :
    (∀ b ∈ [false, true], let d := { copySlot with started := b }
     dSlot? (slotted d) 0 0 63 = some d ∧ d.complete = false ∧ d.cancelled = false ∧ clocked (slotted d) 0 0 = true ∧
      d.code = none ∧ startWaits (slotted d) 0 0 d = false ∧ startCode (slotted d) 0 0 d = 0) ∧
    (let d := { copySlot with started := true, asked := 64 }
     let r : Req := { reqAt (mkTga 0 0 0 0) (.read 64) .done with ret := .dolly 0 63 0 false, data := dBytes 64 0 }
     let s := (slotted d).setChan 0 fun k => { k with reqs := [r] }
     dSlot? s 0 0 63 = some d ∧ d.code = none ∧ codeOk r.code = true ∧
      (slotReqs s 0 0 63).find? (fun r => decide (r.place = .done) && (false || decide (r.off = d.taken))) = some r) ∧
    (∀ b ∈ [false, true], let d := { copySlot with started := true, asked := 64, taken := 64, put := 64, collect := b }
     dSlot? (slotted d) 0 0 63 = some d ∧ slotDone (slotted d) 0 0 63 d = true ∧ clocked (slotted d) 0 0 = true ∧
       d.sig = false ∧
      d.w ≠ 2 ∧ codeOk (slotCode d) = true) := by
  (repeat' apply And.intro) <;> first | (intro f h; cases h; done) | decide +kernel | rfl

/-- A reel of 84 bytes for section 7 on cluster 0, started by `START`: the header, the `END` record and the CRC (Tables 7-1 to 7-3). -/
def reel : List Byte :=
  ([82, 69, 69, 76, 1, 0, 64, 0, 84, 0, 0, 0, 1, 0, 0, 0, 1, 0, 0, 0, 0, 0, 0, 0, 0, 0, 0, 0, 0, 0, 0, 0, 0, 0,
   228, 0, 0, 1, 0, 0, 0, 0, 0, 0, 7, 0, 0, 0, 0, 0, 0, 0, 0, 0, 0, 0, 0, 0, 0, 0, 0, 0, 0, 0, 255, 0, 0, 0, 0, 0,
   0, 0, 0, 0, 0, 0, 0, 0, 0, 0, 119, 91, 37, 233]).map (BitVec.ofNat 8)

def reelRecs : List Rec := [⟨tEnd, 0, 0, []⟩]

/-- The load of that reel by PF0, in a state of the sequencer. -/
def loading (st : Nat) : State :=
  setLdState ((stack.writeMem (hbmAt 0 0) (cleanBytes reel)).setLoad 0 fun l =>
    { l with len := 84, reel := reel, cls := [0], start := 1 }) 0 st

/-- What a unit beside the clusters has asked for in channel 0 has been answered from memory. -/
def answered (s : State) (u : Nat) (l : List (Nat × Nat)) : State :=
  s.setChan 0 fun k => { k with reqs := (l.flatMap fun t => unitPieces t.1 t.2).map fun p =>
    { reqAt p.1 (.read p.2) .done with ret := .unit u p.1 p.2 false, cl := 98 - u, data := s.readMem (tgaMem p.1) p.2 } }

theorem witness_LoadCommandsComplete :
    (Slice0.Open run hub (.ch 0) ∧ mayHub hub = true ∧ ldState (dropHalf run hub) 0 = ldIdle) ∧
    (let s := answered (loading ldFetch) 0 [(0, 84)]
     ldState s 0 = ldFetch ∧ reelCode s 0 (s.load 0) = 0 ∧ reelBack s 0 = true ∧ fetchPass s 0 = (cNone, reel, reelRecs) ∧
       reel ≠ []) ∧
    (let s := loading ldCheck
     ldState s 0 = ldCheck ∧ parseReel (s.load 0).reel = .ok reelRecs ∧
      (s.load 0).cls.any (fun k => s.fbit Fld.CL_GATE_OWNED (clLoc 0 k)) = false ∧ checkCode s 0 (s.load 0) reelRecs = cNone) ∧
    (let s := answered (loading ldWrite) 0 [(0, 84)]
     let b := (reelRead s 0).map Prod.fst
     ldState s 0 = ldWrite ∧ reelCode s 0 (s.load 0) = 0 ∧ reelBack s 0 = true ∧ firstPsn (reelRead s 0) = none ∧
      b = reel ∧ parseReel reel = .ok reelRecs ∧ rlClmap b = rlClmap (s.load 0).reel ∧ stewardPuts reelRecs = [] ∧
        reelSame (s.load 0).reel b = true) ∧
    (let s := loading ldPreload
     ldState s 0 = ldPreload ∧ (s.load 0).cls.any (preloadsLeft s 0) = false ∧ (s.load 0).start ≠ 0) ∧
    (let s := dropHalf (loading ldArmed) hub
     Slice0.Open s hub (.ch 0) ∧ ldState s 0 = ldArmed ∧ (s.load 0).start = 1 ∧ orderOk (s.fget Fld.CH_LDORDER_SEQ 0) = true) ∧
    ldState (dropHalf (loading ldFailed) hub) 0 = ldFailed ∧
    (let s := loading ldStarting
     ldState s 0 = ldStarting ∧ (s.load 0).issued = false) ∧
    (∀ k ∈ [2, 3], let s := ((loading ldStarting).setLoad 0 fun l =>
      { l with issued := true, cls := [] }).fset Fld.CH_LDSTAT_STEP 0 0 k
     let t := applySteps s 0 (stepCode s 0)
     ldState s 0 = ldStarting ∧ (s.load 0).issued = true ∧ stepLeft t 0 (stepCode t 0) = [] ∧ t.fget Fld.CH_LDSTAT_STEP 0 = k) ∧
    (let s := (loading ldStarting).setLoad 0 fun l => { l with issued := true }
     ldState s 0 = ldStarting ∧ (s.load 0).issued = true ∧
      (stepLeft s 0 (stepCode s 0)).any (fun k => decide (clDistrict k = clDistrict 0)) = true) ∧
    (ldState (loading ldUnloading) 0 = ldUnloading ∧ ((loading ldUnloading).chan 0).reqs = []) := by
  (repeat' apply And.intro) <;> first | (intro f h; cases h; done) | decide +kernel | rfl

/-- A key directory of keyset 5 for parameter set 1 at HBM 0x1000 (Table 15-5). -/
def keyDir : List Byte :=
  ([83, 76, 75, 89, 5, 0, 0, 0, 1, 0, 0, 0, 0, 0, 0, 0, 0, 0, 1, 0, 0, 0, 0, 0, 0, 0, 0, 8, 0, 0, 0, 0, 0, 0, 177,
   3, 0, 0, 0, 0, 0, 96, 138, 1, 0, 0, 0, 0, 241, 85, 180, 94, 0, 0, 0, 0, 0, 0, 0, 0, 0, 0, 0, 0]).map (BitVec.ofNat 8)

/-- An entry of the submission queue, and a Seal unit that executes it in a phase. -/
def sealEntOf (ctx : Option Nat) (desc : Nat) : SealEnt := { ctx := ctx, fn := none, epoch := 0, w := 0, cnt := 0, desc := desc, collect := false }
def sealing (e : SealEnt) (r : SealRun) : State := stack.setSeal 0 fun u =>
  { u with ents := [(0, e)], order := [0], run := some r }

/-- A `LIN` convoy of one operand with weight 1, its list, and an operand of set 1 with no noise (Tables 15-3 and 15-7). -/
def convoyMem : State :=
  ((((sealing (sealEntOf none 0) { ent := 0, phase := 1 }).writeMem (hbmAt 0 0)
    (dBytes 8 (4 * 2 ^ 4 + 2 ^ 12) ++ dBytes 8 0x40 ++ dBytes 8 0 ++ dBytes 8 1)).writeMem (hbmAt 0 0x40)
      (dBytes 8 0x1000 ++ dBytes 16 0 ++ dBytes 8 0x4000)).writeMem (hbmAt 0 0x1000)
        (dBytes 4 0x80000001 ++ dBytes 4 5 ++ dBytes 4 2524)).setReg .SEAL_CTXn_STAT 0 0 (ctxValid + 2 ^ 2 + 5 * 2 ^ 32)

/-- What its checks ask for has come back: the descriptor, the list, the operand's header and its body. -/
def convoy : State := answered convoyMem 1 [(0, 64), (0x40, 32), (0x1000, 32), (0x1020, bodyLen (answered convoyMem 1 [(0x1000, 32)]) 0 0x1000)]

def convoyWords : List Nat := [4 * 2 ^ 4 + 2 ^ 12, 0x40, 0, 1, 0, 0, 0, 0]

/-- The run of a gate convoy in a phase, with results; and with its keys read. -/
def gateRun (phase : Nat) (outs : List SealObj) : SealRun := { ent := 0, phase := phase, d := [3 * 2 ^ 4], outs := outs }

def keysRead (phase : Nat) (bad : Nat) : SealRun :=
  let r := gateRun phase []
  { r with bad := bad, keyPos := ((keyRuns (sealing (sealEntOf none 0) r) 0 r).map Prod.snd).sum }

theorem witness_SealCommandsComplete :
    (let s := stack.setSeal 0 fun u => { u with ents := [(15, sealEntOf none 0)], order := [15] }
     (s.seal 0).run = none ∧ (s.seal 0).order = [15] ∧ SMap.get? (s.seal 0).ents 15 = some (sealEntOf none 0) ∧
       sealClocked s 0 = true) ∧
    (let m := ((sealing (sealEntOf (some 3) 0) { ent := 0, phase := 7 }).writeMem (hbmAt 0 0)
        (dBytes 8 0x1000 ++ dBytes 8 (5 + 2 ^ 32))).writeMem (hbmAt 0 0x1000) (cleanBytes keyDir) |>.setReg .SEAL_CTXn_STAT 0 3 1
     let s := answered m 1 [(0, 32), (0x1000, 64)]
     runAt s 0 7 = some ({ ent := 0, phase := 7 }, sealEntOf (some 3) 0) ∧ ctxState s 0 3 = 1 ∧
      ctxCheck s 0 (sealEntOf (some 3) 0) = .inr (0, ctxValid + 2 ^ 2 + 5 * 2 ^ 32, 0x11000, 0x8001000)) ∧
    (let s := sealing (sealEntOf none 32) { ent := 0, phase := 1 }
     runAt s 0 1 = some ({ ent := 0, phase := 1 }, sealEntOf none 32) ∧
       cvCheck s 0 (sealEntOf none 32) = .inr (cCfgIgnored, 0, [], [])) ∧
    (let s := sealing (sealEntOf none 0) { ent := 0, phase := 1 }
     cvCheck s 0 (sealEntOf none 0) = .inl [(0, 64)]) ∧
    (runAt convoy 0 1 = some ({ ent := 0, phase := 1 }, sealEntOf none 0) ∧
      cvCheck convoy 0 (sealEntOf none 0) = .inr (0, 0, convoyWords, [[0x1000, 0, 0, 0x4000]]) ∧
      cvNoise (ctxPset convoy 0 0) (convoy.fget Fld.SEAL_CTXn_STAT_POLICY 0 0) convoyWords (fun a =>
        noiseOf (fieldAt (hdrAt convoy 0 a) 2 2))
        (fun a => decide (hdrDim (hdrAt convoy 0 a) = 0) && !hdrRes (hdrAt convoy 0 a)) 0 [[0x1000, 0, 0, 0x4000]] [] = .inr ([], [[]], [false])) ∧
    (∀ bad ∈ [0, cEccUncorrected], let r := keysRead 2 bad
     let s := sealing (sealEntOf none 0) r
     runAt s 0 2 = some (r, sealEntOf none 0) ∧ streamEnd s 0 r = some bad) ∧
    (let r := keysRead 3 0
     let s := sealing (sealEntOf none 0) r
     runAt s 0 3 = some (r, sealEntOf none 0) ∧ r.outs = [] ∧ streamEnd s 0 r = some 0 ∧
       accCount r ≤ r.accs.length + passAccs r ∧
      cvOp r.d = opGate) ∧
    (let r := keysRead 4 0
     let s := sealing (sealEntOf none 0) r
     runAt s 0 4 = some (r, sealEntOf none 0) ∧ r.outs = [] ∧ streamEnd s 0 r = some 0) ∧
    (let r := gateRun 5 []
     runAt (sealing (sealEntOf none 0) r) 0 5 = some (r, sealEntOf none 0)) ∧
    (let r := gateRun 4 []
     let s := sealing (sealEntOf none 0) r
     (s.seal 0).run = some r ∧ SMap.get? (s.seal 0).ents 0 = some (sealEntOf none 0) ∧
       (keyNext (keyRuns s 0 r) 0).isSome = true ∧
      sealClocked s 0 = true ∧ keyAhead s 0 r = true) ∧
    (let r := gateRun 5 [⟨1, 0, false, false, 0, 0, 0, []⟩]
     let s := (sealing (sealEntOf none 0) r).fset Fld.CL_GATE_WR (clLoc 0 0) 0 1
     (s.seal 0).run = some r ∧ SMap.get? (s.seal 0).ents 0 = some (sealEntOf none 0) ∧ r.phase ≠ 6 ∧ r.outs ≠ [] ∧
      gateWr s 0 0 = true ∧ sealClocked s 0 = true) ∧
    (let r := { gateRun 6 [] with wouts := [(0, [5])] }
     let s := (sealing (sealEntOf none 0) r).setChan 0 fun k =>
       { k with reqs := [{ reqAt 0x4000 (.write []) .done with no := 5 }] }
     runAt s 0 6 = some (r, sealEntOf none 0) ∧ writesDone s 0 r = true) ∧
    (Slice0.Open run hub (.seal 0) ∧ (run.seal 0).ending = none ∧ maySup (dropHalf run hub) hub = true ∧
      sealInWrite (dropHalf run hub) 0 = false) := by
  (repeat' apply And.intro) <;> first | (intro f h; cases h; done) | decide +kernel | rfl

/-- The host port is ready. -/
def port : State := { run with port := { run.port with ready := true } }

/-- Doorbells are taken: the mode is latched and channel 0's reset is released. -/
def open_ : State := { port.fset Fld.HUB_OPMODE_MODE 0 0 1 with hub := { run.hub with released := [4] } }

/-- Ring 63 of PF0 is enabled, with 16 entries. -/
def ringUp : State := (open_.setReg .VF_RINGn_LIVECFG 0 63 4).fset Fld.VF_RINGn_STAT_EN 0 63 1

/-- A command of opcode `op` with number 0. -/
def hcmd (op : Nat) (args : List Nat) : HCmd := { no := 0, w := op :: args, started := true }
def cmdIn (s : State) (x : HCmd) : State := s.setRing 0 63 fun r => { r with cmds := [x] }

theorem witness_HostLinkCompletes :
    run.port.perst = false ∧
    (let s : State := { run with port := { run.port with perst := true, timing := true } }
     s.port.perst = true ∧ s.port.timing = true) ∧
    (run.port.perst = false ∧ run.port.ready = false ∧ (6 : Nat) ≤ 6 ∧ 16 ∈ [1, 2, 4, 8, 16]) ∧
    port.port.ready = true := by
  (repeat' apply And.intro) <;> first | (intro f h; cases h; done) | decide +kernel | rfl

theorem witness_HostQueuesComplete :
    (let t := dropHalf ringUp (.fn 0)
     fnAnswers t 0 = true ∧ 15 < ringSize t 0 63 ∧ ringOn t 0 63 = true ∧ doorbellsOpen t = true) ∧
    (let t := dropHalf (open_.fset Fld.VF_EVQ_STAT_EN 0 0 1) (.fn 0)
     fnAnswers t 0 = true ∧ 15 < evqSize (t.fn 0) ∧ t.fbit Fld.VF_EVQ_STAT_EN 0 = true ∧ doorbellsOpen t = true) ∧
    (∀ on ∈ [0, 1], let t := dropHalf ((port.setReg .VF_RINGn_CFG 0 63 (16 + 63 * 2 ^ 16)).fset Fld.VF_RINGn_STAT_EN 0 63 on) hub
     mayFn 0 hub = true ∧ fnAnswers t 0 = true ∧ 63 < fnRings t 0 ∧
      queueCfgOk t 0 16 (t.regN .VF_RINGn_SQBASE 0 63) (t.regN .VF_RINGn_CQBASE 0 63) (t.regN .VF_RINGn_CFG 0 63) = true ∧
      ringOn t 0 63 = decide (on = 1)) ∧
    (let t := dropHalf (port.setRing 0 63 fun r => { r with fresh := false }) hub
     mayFn 0 hub = true ∧ fnAnswers t 0 = true ∧ 63 < fnRings t 0 ∧ (ringOf t 0 63).fresh = false) ∧
    (let s := port.setRing 0 63 fun r => { r with pend := some (0x1000, 0x2000, 4) }
     (ringOf s 0 63).pend = some (0x1000, 0x2000, 4) ∧ ringHead s 0 63 = ringTail s 0 63 ∧ (ringOf s 0 63).cmds = [] ∧
      (ringOf s 0 63).asked = 0) ∧
    (let t := dropHalf (port.setReg .VF_EVQ_CFG 0 0 12) hub
     mayFn 0 hub = true ∧ fnAnswers t 0 = true ∧ queueCfgOk t 0 12 (t.regN .VF_EVQ_BASE 0) 0 (t.regN .VF_EVQ_CFG 0) = true ∧
      t.fbit Fld.VF_EVQ_STAT_EN 0 = false) ∧
    (let t := dropHalf (port.setFn 0 fun h => { h with evFresh := false }) hub
     mayFn 0 hub = true ∧ fnAnswers t 0 = true ∧ (t.fn 0).evFresh = false) ∧
    (let s := ringUp.fset Fld.VF_RINGn_STAT_TAIL 0 63 15
     ((List.range (129 * 64)).map fun i => (s.port.fetchPtr + i) % (129 * 64)).find?
      (fun k => mayFetch s (k / 64) (k % 64)) = some 63 ∧ portReads s < portMax) ∧
    (let s := port.setRing 0 63 fun r => { r with asked := 1 }
     (ringOf s 0 63).asked ≠ 0 ∧ (List.replicate 8 (0 : Word)).length = 8 * (ringOf s 0 63).asked) ∧
    (let x : HCmd := { hcmd 0 [] with out := some (0, 0, 0) }
     let s := (cmdIn ringUp x).setRing 0 63 fun r => { r with done := [0] }
     ((ringOf s 0 63).done.head?.bind fun no => (ringOf s 0 63).cmds.find? fun x => decide (x.no = no)) = some x ∧
      fnAnswers s 0 = true ∧ (ringOf s 0 63).used < ringSize s 0 63 ∧ x.irq = false ∧
      s.fget Fld.VF_RINGn_STAT_CQTAIL 0 63 + 1 < ringSize s 0 63 ∧ ringSize s 0 63 ≤ 2 ^ 16) ∧
    (let s := (port.fset Fld.VF_EVQ_STAT_EN 0 0 1).setFn 0 fun h => { h with events := [⟨6, 0, 0, 0, 0⟩] }
     (s.fn 0).events = [⟨6, 0, 0, 0, 0⟩] ∧ fnAnswers s 0 = true ∧ s.fbit Fld.VF_EVQ_STAT_EN 0 = true ∧
      (s.fn 0).evUsed < evqSize (s.fn 0) ∧ s.fget Fld.VF_EVQ_STAT_TAIL 0 + 1 < evqSize (s.fn 0) ∧ (s.fn 0).evPend = none) ∧
    (let s := port.setFn 0 fun h => { h with msixEn := true, msi := [63], msix := [(63, 0xFEE00000, 0, 0)] }
     fnAnswers s 0 = true ∧ (s.fn 0).msixEn = true ∧ 63 ∈ (s.fn 0).msi ∧ msixMasked (s.fn 0) 63 = false) := by
  (repeat' apply And.intro) <;> first | (intro f h; cases h; done) | decide +kernel | rfl

theorem witness_RingCommandsComplete :
    (port.hub.phase ≠ .keeper ∧ portReads port < portMax ∧
      ∀ op ∈ List.range 10, nextCmd (cmdIn port (hcmd op [])) 0 63 op = some (hcmd op [])) ∧
    (let s := Slice0.sent (cmdIn port (hcmd 1 [])) 0 63 (hcmd 1 [])
     ldState s 0 ≠ ldFailed ∧ ldState s 0 ≠ ldArmed) ∧
    (let s := setLdState (cmdIn port (hcmd 4 [])) 0 ldFailed
     nextCmd s 0 63 4 = some (hcmd 4 []) ∧ ldState (Slice0.sent s 0 63 (hcmd 4 [])) (hcmd 4 []).ch = ldFailed) ∧
    tgaSpace ((hcmd 6 []).arg 0 + (hcmd 6 []).prog) ≠ 3 ∧
    (let x : HCmd := { hcmd 5 [0x5000, 0, 64] with sent := true }
     copyAsked (cmdIn port x) 0 63 = some x ∧
      (List.replicate 64 (7 : Byte)).length = pieceLen (x.arg 1 + x.prog) (bits (x.arg 2) 0 32 - x.prog) ∧
      tgaSpace (x.arg 1 + x.prog) ≠ 3) := by
  (repeat' apply And.intro) <;> first | (intro f h; cases h; done) | decide +kernel | rfl

theorem witness_AperturesComplete :
    (let s := stack.setReg .HUB_OPMODE 0 0 1 |> fun s => { s with port := port.port }
     fnAnswers s 0 = true ∧ portHeld s < portMax ∧ (0 : Nat) + [(7 : Byte)].length ≤ 2 ^ 34 ∧
      hostCode s 0 true (aperTga s 0 3 0) 1 = 0 ∧ hostCode s 0 false (aperTga s 0 3 0) 1 = 0 ∧
        isOwnPkg s (aperTga s 0 3 0) = true) ∧
    (mayFn 0 hub = true ∧ fnAnswers (dropHalf port hub) 0 = true ∧ (2 : Nat) ^ 34 % 2 ^ 34 = 0 ∧ tgaSpace (2 ^ 34) < 2 ∧
      isOwnPkg (dropHalf port hub) (2 ^ 34) = true) := by
  (repeat' apply And.intro) <;> first | (intro f h; cases h; done) | decide +kernel | rfl

/-- PF0's accesses of channel 3 are being disabled there. -/
def leaving : State := port.setFn 0 fun h => { h with busy := [3] }
def scrubbing : State := leaving.setChan 3 fun k => { k with scrubs := [(0, 0)] }

theorem witness_FunctionLifeCompletes :
    (port.port.ready = true ∧ port.port.vfEnable = false) ∧
    (port.fn 0).busy = [] ∧
    (3 ∈ (leaving.fn 0).busy ∧ scrubOf leaving 3 0 = none ∧ leaving.chLive 3 = true) ∧
    scrubOf scrubbing 3 0 = some 0 ∧
    (let s := leaving.setChan 3 fun k => { k with scrubs := [(0, 0), (128, 0)] }
     let t := (flowsReopen (scrub s 3 0) 3 0).setChan 3 fun k => { k with scrubs := SMap.erase k.scrubs 0 }
     scrubOf s 3 0 = some 0 ∧ (∀ q ∈ (s.chan 3).reqs, q.fn ≠ some 0) ∧ (t.chan 3).scrubs ≠ []) := by
  (repeat' apply And.intro) <;> first | (intro f h; cases h; done) | decide +kernel | rfl

theorem witness_PermissionCommandsComplete :
    (let t := dropHalf run hub
     Slice0.Open run hub (.ch 3) ∧ maySup t hub = true ∧ rptOk t 3 (rptShadow t 3) = true ∧
      (∀ q ∈ (t.chan 3).reqs, epochAge (epochOf t 3) q.epoch < 32767) ∧
      (∀ k < 96, ∀ p ∈ (t.clu 3 k).slots, epochAge (epochOf t 3) p.2.epoch < 32767)) ∧
    run.chLive 3 = true ∧ Slice0.HostOpen run hub ∧ mayHub hub = true ∧
    (let r := { reqAt 0 (.read 64) .remote with epoch := 4 }
     let s := run.setChan 3 fun k => { k with fence := some 5, reqs := [r] }
     (s.chan 3).fence = some 5 ∧ fenceBusy s 3 = true ∧ (olderReqs s 3 5).filter (abortable s 3) = []) ∧
    (mayFn 0 hub = true ∧ (dropHalf run hub).chLive (3 % 4) = true) := by
  (repeat' apply And.intro) <;> first | (intro f h; cases h; done) | decide +kernel | rfl

/-- The hub's link of channel 0 and a gate die's link, seen from the field die. -/
def hubLk : LinkId := ⟨0, 4, false⟩
def siteLk : LinkId := ⟨0, 3, false⟩

/-- A link end in a state, version 2, with every feature agreed. -/
def linkIn (l : LinkId) (st : Nat) : State :=
  setLkState ((run.fset Fld.FDL_LINKn_STAT_VER (lkLoc l) 0 2).fset Fld.FDL_LINKn_STAT_FEAT (lkLoc l) 0 0x7F) l st

/-- A control flit waits at the end. -/
def ctrlAt (st sub : Nat) : State := (linkIn hubLk st).setLk hubLk fun e =>
  { e with ctrlIn := [(sub, 0)], l1idle := 1, pmWait := true }
def afterCtrl (s : State) (sub : Nat) : State := ((takeCtrl s hubLk sub).map Prod.snd).getD s

/-- An FDL-2 flit of a type, with sequence number 0 and its CRC. -/
def wireFlit (ty : Nat) : BitVec 2048 := BitVec.ofNat 2048 (flitBits 2 { ftype := ty })

theorem witness_LinkStatesComplete :
    (run.hub.phase = .run ∧ run.nv.scrub = false ∧ hubLk.n.val = 4 ∧ run.chLive hubLk.ch = true ∧
      lkDie hubLk ∉ run.hub.released) ∧
    (run.hub.phase ≠ .keeper ∧ lkState (linkIn hubLk lTrain) hubLk = lTrain ∧ modsOk hubLk 1 = true) ∧
    (let s := ctrlAt lAgree 2
     lkState s hubLk = lAgree ∧ takeCtrl s hubLk 2 = some (0, afterCtrl s 2) ∧ lkMaster hubLk = false) ∧
    (∀ k ∈ [1, 3, 6, 8], takeCtrl (ctrlAt lActive k) hubLk k = some (0, afterCtrl (ctrlAt lActive k) k)) ∧
    (lkState (linkIn hubLk lCapx) hubLk = lCapx ∧ ((linkIn hubLk lCapx).lk hubLk).peer = none) ∧
    lkState (linkIn hubLk lUprate) hubLk = lUprate ∧
    (let s := (linkIn hubLk lTrain).fset Fld.FDL_LINKn_STAT_ATTEMPT (lkLoc hubLk) 0 3
     lkState s hubLk = lTrain ∧ 3 ≤ s.fget Fld.FDL_LINKn_STAT_ATTEMPT (lkLoc hubLk)) ∧
    (let s := (linkIn hubLk lActive).setLk hubLk fun e => { e with ctrlOut := [(3, 9)] }
     lkState s hubLk = lActive ∧ (s.lk hubLk).ctrlOut = [(3, 9)]) ∧
    (let s := linkIn hubLk lActive
     lkState s hubLk = lActive ∧ flitCrcOk (framing s hubLk) (wireFlit 1).toNat = true ∧
      (Sys2Proof.Machine.flitOf (wireFlit 1).toNat).ackv = false ∧ (Sys2Proof.Machine.flitOf (wireFlit 1).toNat).ftype = 1 ∧
      flitCrcOk (framing s hubLk) (wireFlit 1 ^^^ 1#2048).toNat = false ∧ lkVer s hubLk = 2) ∧
    (let s := (linkIn hubLk lActive).setLk hubLk fun e => { e with kept := [{ ftype := 1 }] }
     lkState s hubLk = lActive ∧ lkVer s hubLk = 2 ∧ (s.lk hubLk).kept ≠ []) ∧
    (let s := linkIn hubLk lRetrain
     let t := setLkState (s.setLk hubLk fun e => { e with dead := [], retries := 0, retryPend := false }) hubLk lActive
     lkState s hubLk = lRetrain ∧ lkVer t hubLk = 2) ∧
    (let s := (linkIn hubLk lActive).setLk hubLk fun e => { e with l1idle := 4095 }
     lkState s hubLk = lActive ∧ (lkFeat s hubLk).testBit ftPwr = true ∧ (s.lk hubLk).l1idle ≠ 0 ∧ lkIdle (s.lk hubLk) = true ∧
      (s.lk hubLk).pmWait = false) ∧
    (let s := ctrlAt lActive 4
     let t := afterCtrl s 4
     takeCtrl s hubLk 4 = some (0, t) ∧ lkState t hubLk = lActive ∧ (lkFeat t hubLk).testBit ftPwr = true ∧
       (t.lk hubLk).l1idle ≠ 0 ∧ (t.lk hubLk).kept = [] ∧ lkIdle (t.lk hubLk) = true ∧
      (t.lk hubLk).resend = none ∧ (t.lk hubLk).retryPend = false) ∧
    (let s := ctrlAt lActive 5
     let t := afterCtrl s 5
     takeCtrl s hubLk 5 = some (0, t) ∧ (t.lk hubLk).pmWait = true ∧ lkState t hubLk = lActive) ∧
    lkState (linkIn hubLk lL1) hubLk = lL1 ∧
    (let s := ctrlAt lActive 7
     let t := afterCtrl s 7
     takeCtrl s hubLk 7 = some (0, t) ∧ lkState t hubLk = lActive ∧ (lkFeat t hubLk).testBit ftTest = true) := by
  (repeat' apply And.intro) <;> first | (intro f h; cases h; done) | decide +kernel | rfl

theorem witness_LinkControlCompletes :
    (let t := dropHalf (linkIn siteLk lActive) hub
     Slice0.Open (linkIn siteLk lActive) hub (.fdl siteLk) ∧ maySup t hub = true ∧
      reaches (linkIn siteLk lActive) hub (.fdl siteLk) = true ∧ lkState t siteLk = lActive ∧ siteLk.n.val < 4 ∧
        siteLk.far = false ∧ (lkFeat t siteLk).testBit ftReg = true ∧
      0xFF8 % 8 = 0 ∧ 0xFF8 < 0x1000) ∧
    (let u := (dropHalf (linkIn siteLk lActive) hub).fset Fld.FDL_LINKn_CTRL_TEST (lkLoc siteLk) 0 1
     lkState u siteLk = lActive ∧ (lkFeat u siteLk).testBit ftTest = true ∧ testDue u siteLk = true) ∧
    lkState ((dropHalf (linkIn siteLk lTest) hub).fset Fld.FDL_LINKn_CTRL_TEST (lkLoc siteLk) 0 0) siteLk = lTest := by
  (repeat' apply And.intro) <;> first | (intro f h; cases h; done) | decide +kernel | rfl

/-- A packet waits at a link end, which has one request outstanding. -/
def pktAt (l : LinkId) (p : FPkt) (o : Nat) : State :=
  (linkIn l lActive).setLk l fun e => { e with rxq := [p], outst := [{ tag := 7, ptype := o }] }
def afterPkt (s : State) (l : LinkId) (ty : Nat) : State := ((takePkt s l ty).map Prod.snd).getD s
def pktOf (ty cls : Nat) : FPkt := { ptype := ty, cls := cls, tag := 7, slots := [5], dslots := 1, len := 8 }

theorem witness_LinkPacketsComplete :
    (∀ q ∈ [(pMrd, 0), (pMwr, 0), (pQmsg, 2), (pCmpl, 1), (pBoot, 4), (pNote, 4), (pSync, 3)],
      let s := pktAt siteLk (pktOf q.1 q.2) pMwr
      takePkt s siteLk q.1 = some (pktOf q.1 q.2, afterPkt s siteLk q.1) ∧ (pktOf q.1 q.2).len % 8 = 0 ∧ siteLk.far = false) ∧
    (let p : FPkt := { pktOf pSync 3 with op := 5 }
     let s := pktAt siteLk p pMwr
     takePkt s siteLk pSync = some (p, afterPkt s siteLk pSync) ∧ p.op ≤ 5 ∧ sopOf p.op = some .wge) ∧
    (let p : FPkt := { pktOf pFrame 5 with op := 3 }
     let s := pktAt siteLk p pMwr
     takePkt s siteLk pFrame = some (p, afterPkt s siteLk pFrame) ∧ bit p.op 0 = true ∧ bit p.op 1 = true ∧ siteLk.n.val < 4 ∧
      siteLk.far = false) ∧
    (let s := pktAt hubLk (pktOf pReg 4) pMwr
     takePkt s hubLk pReg = some (pktOf pReg 4, afterPkt s hubLk pReg) ∧ hubEnd hubLk = true) ∧
    (let s := pktAt siteLk (pktOf pCmpl 1) pMwr
     let o : FOut := { tag := 7, ptype := pMwr }
     ((afterPkt s siteLk pCmpl).lk siteLk).outst.find? (fun o => decide (o.tag = 7)) = some o ∧ o.ptype ≠ pReg ∧
      s.hub.phase ≠ .keeper ∧ (s.lk siteLk).outst.find? (fun o => decide (o.tag = 7)) = some o) ∧
    (let s := pktAt siteLk (pktOf pCmpl 1) pReg
     let o : FOut := { tag := 7, ptype := pReg }
     takePkt s siteLk pCmpl = some (pktOf pCmpl 1, afterPkt s siteLk pCmpl) ∧
      ((afterPkt s siteLk pCmpl).lk siteLk).outst.find? (fun o => decide (o.tag = 7)) = some o) ∧
    (let p : FPkt := { pktOf pRdata 1 with last := true }
     let s := pktAt siteLk p pMrd
     takePkt s siteLk pRdata = some (p, afterPkt s siteLk pRdata) ∧ p.last = true ∧
      ((afterPkt s siteLk pRdata).lk siteLk).outst.find? (fun o => decide (o.tag = 7 ∧
        o.ptype = pMrd)) = some { tag := 7, ptype := pMrd }) := by
  (repeat' apply And.intro) <;> first | (intro f h; cases h; done) | decide +kernel | rfl

/-- Flow 4095 of channel 0, for PF0, is in a state; one port of site 3 is up. -/
def flowIn (st : Nat) (f : Flow → Flow) : State :=
  (setFlow ((stack.setCt 0 fun t => { t with live := [0, 0, 0, 1] }).fset Fld.CT_PORTn_STAT_UP 0 3 1) 0 4095 fun _ =>
    f { w0 := 1, w1 := BitVec.ofNat 64 (16 + 5 * 2 ^ 16 + 2 * 2 ^ 26 + 2 ^ 56), st := st, inc := 1 })

/-- A packet of a type on stream `k`, at the front of one of the stream's queues. -/
def pkt (ty k : Nat) : CPkt := { ty := ty, flow := 4095, stream := k, inc := 1, payload := List.replicate 8 0#8 }
def sentPkt (p : CPkt) : State := flowIn fUp fun f =>
  { f with streams := [(p.stream, { kept := [p], waiting := [p], unacked := 1 })] }
def gotPkt (p : CPkt) : State := flowIn fUp fun f => { f with streams := [(p.stream, { rx := [p] })] }
def ctlPkt (st : Nat) (p : CPkt) : State := (flowIn st id).setCt 0 fun t => { t with ctl := [p] }
def afterCtl (s : State) (ty : Nat) : State := ((takeCtl s 0 4095 ty).map Prod.snd).getD s

theorem witness_FlowTransportCompletes :
    (∀ k ∈ [0, 4], let p := pkt tWrite k
     let s := sentPkt p
     let f := s.flow 0 4095
     (cstream f k).waiting = [p] ∧ (cstream f k).kept = [p] ∧ f.st = fUp ∧ seqGap (cstream f k).peerDlv p.seq < flowWin f ∧
      storeUsed s 0 + 32 + p.payload.length ≤ 2 ^ 23 ∧ (sprayPort s 0 f).isSome = true ∧ f.expiries + 1 < f.retries ∧
      0 < (cstream f k).unacked) ∧
    (let p := pkt tAck 7
     let s := ctlPkt fUp p
     let t := afterCtl s tAck
     takeCtl s 0 4095 tAck = some (p, t) ∧ (t.flow 0 4095).st = fUp ∧ p.inc = (t.flow 0 4095).inc ∧ bits p.aux 0 3 < 5 ∧
      p.addr = bits p.addr 0 32) ∧
    (let p := pkt tOpen 7
     let s := ctlPkt fIdle p
     let t := afterCtl s tOpen
     takeCtl s 0 4095 tOpen = some (p, t) ∧ (t.flow 0 4095).st = fIdle ∧ bits p.addr 0 8 = (t.flow 0 4095).func ∧
      bit p.aux 8 = false) ∧
    ((flowIn fOpening id).flow 0 4095).st = fOpening ∧
    (let p := pkt tNotice 7
     let s := ctlPkt fUp p
     takeCtl s 0 4095 tNotice = some (p, afterCtl s tNotice) ∧ ((afterCtl s tNotice).flow 0 4095).st ≠ fRetired) ∧
    (List.range 32).find? (fun p => portUp (flowIn fUp id) 0 p) = some 24 := by
  (repeat' apply And.intro) <;> first | (intro f h; cases h; done) | decide +kernel | rfl

/-- Group 1023 of channel 0 for PF0: its size and this member's rank; its table lists package 0, channel 0. -/
def grouped (s : State) (size rank : Nat) : State := setGroup s 0 1023 fun g =>
  { g with w := [BitVec.ofNat 64 (2 * 2 ^ 40 + 2 ^ 44 + 5 * 2 ^ 48), BitVec.ofNat 64 (size + rank * 2 ^ 32), 0] }

theorem witness_FlowOperationsComplete :
    (∀ q ∈ [(tWrite, sW), (tRead, sW), (tQmsg, sM), (tResp, sR), (tRdata, sR)],
      let s := gotPkt (pkt q.1 q.2)
      arriving s 0 4095 q.1 = some (pkt q.1 q.2) ∧ (s.flow 0 4095).ins = [] ∧ bit (pkt q.1 q.2).aux 0 = false ∧
        bit (pkt q.1 q.2).flags 1 = false) ∧
    (∀ op ∈ [1, 7], let p : CPkt := { pkt tSync sS with aux := op }
     arriving (gotPkt p) 0 4095 tSync = some p ∧ (sopOf p.aux).isSome = true ∧ bit p.flags 3 = false) ∧
    (let p := pkt tBar sS
     let s := grouped (gotPkt p) 2 0
     let t := deliverPkt s 0 4095 p
     arriving s 0 4095 tBar = some p ∧
      ((t.ct 0).groups.find? (fun q => q.2.valid && decide (q.2.gid = bits p.addr 0 32 ∧
        q.2.func = (s.flow 0 4095).func))).isSome = true ∧
      bit p.aux 1 = false ∧ bit p.aux 8 = false) := by
  (repeat' apply And.intro) <;> first | (intro f h; cases h; done) | decide +kernel | rfl

theorem witness_CaravanConfigCompletes :
    (let t := dropHalf run .hub
     let n := t.fget Fld.CT_FLOWSEL_INDEX 0
     Slice0.Open run .hub (.ct 0) ∧ maySup t hub = true ∧ (t.flow 0 n).valid = false ∧
       flowOk t 0 n (t.flow 0 n).sh0 (t.flow 0 n).sh1 = true) ∧
    (∀ st ∈ [fIdle, fRetired], let t := dropHalf ((flowIn st id).fset Fld.CT_FLOWSEL_INDEX 0 0 4095) .hub
     let f := t.flow 0 (t.fget Fld.CT_FLOWSEL_INDEX 0)
     f.valid = true ∧ f.st = st) ∧
    (let t := dropHalf run .hub
     let n := t.fget Fld.CT_GRPSEL_INDEX 0
     let x : Group := { t.group 0 n with w := (t.group 0 n).sh, number := 0, own := false, kids := [], nf := false, psn := false }
     (t.group 0 n).valid = false ∧ x.valid = false ∧ bits (x.word 0) 45 3 = 0 ∧ bits (x.word 1) 17 15 = 0 ∧
      bits (x.word 1) 49 15 = 0) ∧
    (let t := dropHalf ((run.fset Fld.CT_LCCFG_MODE 0 0 2).fset Fld.CH_CAPS_LC_LIVE 0 0 1) .hub
     t.fget Fld.CT_LCCFG_MODE 0 < 3 ∧ t.fbit Fld.CH_CAPS_LC_LIVE 0 = true) ∧
    (let t := dropHalf ((run.setCt 0 fun t => { t with live := [0, 0, 0, 1] }).fset Fld.CT_PORTn_CFG_MODE 0 3 1) .hub
     t.fget Fld.CT_PORTn_CFG_MAXPAY 0 3 ≠ 3 ∧ t.fget Fld.CT_PORTn_CFG_MODE 0 3 = portMode t 0 3 ∧
      t.fbit Fld.CT_PORTn_CFG_UDP 0 3 = false ∧ portUdp t 0 3 = false ∧ dieLive t 0 3 = true) ∧
    (let s := flowIn fUp id
     25 % 8 < sitePorts s 0 3 ∧ dieLive s 0 3 = true ∧ portGone s 0 25 = false) := by
  (repeat' apply And.intro) <;> first | (intro f h; cases h; done) | decide +kernel | rfl

/-- A BROADCAST of one element in group 1023: its descriptor at HBM 0x40. -/
def bcast : List Nat := [4 + 1023 * 2 ^ 16, 0x1000, 0x2000, 1, 0, 0, 0, 0]
def collReq : CollReq := ⟨0x40, 0, 0⟩
def collWait (size rank : Nat) : State :=
  (grouped ((flowIn fUp id).writeMem (hbmAt 0 0x40) ((bcast.map fun w => dBytes 8 w).flatten)) size rank).setCt 0 fun t =>
    { t with collq := [collReq] }
def collOf : Coll := { req := collReq, d := bcast, group := 1023, number := 0 }

/-- A message for the collective port. -/
def descMsg : Req := reqAt (mkQaddr 0 0 127 2 0 0) (.msg 0 (dBytes 8 0x40 ++ dBytes 8 64)) (.mesh 0 8)

theorem witness_CollectiveCommandsComplete :
    (let s := (withReq descMsg).fset Fld.CL_GATE_OUT (clLoc 0 0) 0 1
     let m := dBytes 8 0x40 ++ dBytes 8 64
     collNext s 0 = some (0, 8, descMsg, m) ∧ gwBad s 0 0 8 descMsg = false ∧ (s.ct 0).collq.length < 64 ∧
      (match (readBack s 0 0 descMsg).op with | .msg _ b => b | _ => m) = m ∧ anyPsn m = false ∧
        dNat ((m.drop 8).take 4) = 64) ∧
    (((collWait 1 0).ct 0).coll = none ∧ ((collWait 1 0).ct 0).collq = [collReq]) ∧
    (let k : Coll := { collOf with d := [] }
     let s := answered ((collWait 1 0).setCt 0 fun t => { t with coll := some k }) 2 [(0x40, 64)]
     (s.ct 0).coll = some k ∧ k.going = false ∧ k.ended = none ∧ k.d = [] ∧ unitBack s 0 2 false [(k.req.desc, 64)] = true ∧
      unitCode s 0 2 false k.req.desc 64 = 0) ∧
    (let s := answered ((collWait 1 0).setCt 0 fun t => { t with coll := some collOf }) 2 [(0x1000, 2)]
     let g := s.group 0 collOf.group
     let x := firstInput collOf g
     (s.ct 0).coll = some collOf ∧ collOf.going = false ∧ collOf.ended = none ∧ collOf.d ≠ [] ∧ collOf.w 4 = 0 ∧ ¬ 1 < g.size ∧
      x.2 ≠ 0 ∧ unitBack s 0 2 false [inputRange collOf x.1 x.2] = true ∧
      (∀ y ∈ [inputRange collOf x.1 x.2], unitCode s 0 2 false y.1 y.2 = 0)) ∧
    (let p : CPkt := { pkt tColl sC with addr := 0, payload := [1#8, 2#8, 3#8, 4#8] }
     let k : Coll := { collOf with going := true }
     let s := (grouped (gotPkt p) 2 1).setCt 0 fun t => { t with coll := some k }
     let g := s.group 0 k.group
     let f := s.flow 0 4095
     arriving s 0 4095 tColl = some p ∧ (s.ct 0).coll = some k ∧ k.going = true ∧ k.ended = none ∧ bits p.addr 0 32 = g.gid ∧
      bits p.addr 32 16 = k.number ∧ f.func = g.func ∧ member s g (ringPrev g) = (f.pkg, f.pch) ∧
        (collRecv k g k.step).adds = false ∧
      unitBack s 0 2 false [] = true) ∧
    (let s := (collWait 1 0).setCt 0 fun t => { t with coll := some collOf }
     (s.ct 0).coll ≠ none) := by
  (repeat' apply And.intro) <;> first | (intro f h; cases h; done) | decide +kernel | rfl

theorem witness_PowerCommandsComplete :
    (let s : State := { run with hub := { run.hub with budgetPend := some (420, 20, [1, 1, 1, 1]) } }
     s.hub.budgetPend = some (420, 20, [1, 1, 1, 1])) ∧
    (run.up 0 = true ∧ liveAvfs run 0 7 = true) ∧
    (let t := dropHalf ((run.fset Fld.DST_VFTGT_F_TGT (dstLoc 0 7) 0 84).fset Fld.DST_VFTGT_WEIGHT (dstLoc 0 7) 0 1) hub
     let l := dstLoc 0 7
     Slice0.Open run hub (.dst ⟨0, 7⟩) ∧ maySup t hub = true ∧ 36 ≤ t.fget Fld.DST_VFTGT_F_TGT l ∧
       t.fget Fld.DST_VFTGT_F_TGT l ≤ 84 ∧ t.fget Fld.DST_VFTGT_WEIGHT l ≠ 0 ∧
      (t.fbit Fld.DST_VFTGT_AVFS l = true ∨ (10 ≤ t.fget Fld.DST_VFTGT_V_FIX l ∧ t.fget Fld.DST_VFTGT_V_FIX l ≤ 70))) ∧
    (let t := dropHalf ((((run.setReg .HUB_PWRBUDGET 0 0 (500 + 100 * 2 ^ 16)).setReg .HUB_PWRSHAREn 0 0 1).setReg .HUB_PWRSHAREn 0 1
       1).setReg .HUB_PWRSHAREn 0 2 1 |>.setReg .HUB_PWRSHAREn 0 3 255) hub
     let b := t.fget Fld.HUB_PWRBUDGET_BUDGET
     let rs := t.fget Fld.HUB_PWRBUDGET_RESERVE
     let ws := (List.range 4).map fun i => bits (t.regN .HUB_PWRSHAREn 0 i) 0 8
     Slice0.HostOpen run hub ∧ mayHub hub = true ∧ b ≤ t.fget Fld.HUB_CAPS_MAX_POWER_W ∧ 20 ≤ rs ∧ rs ≤ 100 ∧
       (∀ c ∈ t.liveChs, ws.getD c 0 ≠ 0) ∧
      rs + 100 * t.liveChs.length ≤ b) ∧
    (Slice0.Open run hub (.ch 0) ∧ maySup (dropHalf run hub) hub = true ∧ (1 : Word).toNat % 2 = 1) ∧ (839 : Nat) < 840 ∧
    (run.fbit Fld.HUB_THROTTLE_PIN = false ∧ run.fbit Fld.HUB_THROTTLE_ACTIVE = false ∧
      (run.fset Fld.HUB_THROTTLE_PIN 0 0 1).fbit Fld.HUB_THROTTLE_PIN = true ∧
      (run.fset Fld.HUB_THROTTLE_PIN 0 0 1).fbit Fld.HUB_THROTTLE_ACTIVE = false) ∧
    (run.hub.lastPulse = none ∧ run.fbit Fld.HUB_SYNCCTRL_ARMLOAD = false) ∧
    (let s : State := { run with hub := { run.hub with lastPulse := some 5 } }
     s.hub.lastPulse = some 5 ∧ (10004 : Word).toNat < 5 + 10000) ∧
    ((run.setDist 0 7 fun x => { x with pllLost := true }).dist 0 7).pllLost = true := by
  (repeat' apply And.intro) <;> first | (intro f h; cases h; done) | decide +kernel | exact .inl (by decide +kernel) | rfl

/-- A fault event of type 0 in channel 0, with its kind. -/
def faultOf (kind : EvKind) : FaultEv :=
  { src := 0, ty := 0, unit := 3, cluster := 5, loc := 0x40, kind := kind, time := 9, place := .plain }

theorem witness_FaultCommandsComplete :
    (∀ k ∈ [EvKind.corrected, EvKind.retried, EvKind.linkRetry, EvKind.linkRetrain], let e := faultOf k
     let t := (injDone (granuleFix (depotErr run e) e) e.src e.ty e.cluster).setFc e.src fun f =>
       { f with count := SMap.put f.count e.ty (SMap.get 0 f.count e.ty + 1) }
     let p := bucketAdd t e.src e.ty e.cluster e.unit (evPoints e.kind)
     let q := locEvent p.1 e.src e.ty e.loc.toNat e.time.toNat e.kind
     (e.src.val < 4 → run.chLive e.src = true) ∧ run.hub.phase ≠ .keeper ∧ p.2.1 = false ∧ q.2 = false ∧ e.kind ≠ .persistent ∧
      evAction e.kind < 4) ∧
    (let s := run.setFc 0 fun f => { f with repairs := [⟨5, 9, 0⟩] }
     s.up 0 = true ∧ (s.fc 0).repairs = [⟨5, 9, 0⟩] ∧ (⟨5, 9, 0⟩ : Repair).ty = 5) ∧
    (run.hub.thermtripN = false ∧ run.hub.phase ≠ .keeper) ∧
    (let s := run.setDist 0 7 fun x => { x with pllLost := true }
     (s.dist 0 7).pllLost = true ∧ s.up 0 = true) ∧
    run.hub.watchdog = 0 ∧
    (let s := run.fset Fld.CH_FINJ_TYPE 0 0 7
     Slice0.Open s hub (.ch 0) ∧ maySup (dropHalf s hub) hub = true ∧ s.fget Fld.CH_FINJ_TYPE 0 = 7) := by
  (repeat' apply And.intro) <;> first | (intro f h; cases h; done) | decide +kernel | rfl

/-! A flash with a valid generation in bank 0 (life-cycle state 1, standalone, slot 0) and a signed slot 0. The key pair has the
secret 0x1234567; the key, its hash, the image digests and the manifest's signature were computed outside Lean from FIPS 180 and
FIPS 186; the three images are 16 erased bytes each. -/

/-- Listed bytes of a range of `n` at `a` that holds the number `v`. -/
def flashOf (p : Nat × Nat × Nat) : SMap Byte :=
  ((List.range p.2.1).map fun i => (p.1 + i, BitVec.ofNat 8 (p.2.2 / 256 ^ i % 256))).filter fun c => c.2 ≠ 0xFF#8

/-- The ranges of the flash: address, bytes, contents. -/
def bootParts : List (Nat × Nat × Nat) :=
  [(0, 64, 0x6D50C3500000000000000000000000000000000000000000000000000000000000000000000000000000000000000000000000000000000100010001564E5449),
   (0x100, 128, 0x10001),
   (0xFF00, 64, 0xC433419E00000000000000000000000000000000000000000000000000000000000000000000000000000000E32D15630000000000000001000000804C414553),
   (0xFFF8, 8, 0),
   (0x100000, 32, 0x14E414D47),
   (0x100020, 64, 0x56297D336AE003F0F444A5D25E20ADE54A15320FEA24318D7324D3CE18F54C205089AD242E8EC4BDFB8E66FAD158A79800000000000000100000100000000001),
   (0x100060, 64, 0x56297D336AE003F0F444A5D25E20ADE54A15320FEA24318D7324D3CE18F54C205089AD242E8EC4BDFB8E66FAD158A79800000000000000100000200000000002),
   (0x1000A0, 64, 0x56297D336AE003F0F444A5D25E20ADE54A15320FEA24318D7324D3CE18F54C205089AD242E8EC4BDFB8E66FAD158A79800000000000000100000300000000003),
   (0x1000E0, 320, 0),
   (0x100220, 48, 0x2B3003436FFD5058B43F4ED8E4F20075B95DEDC336CD4EA4E8FB08460F24666C1F19E51B07EFC1704C796011DBE1E97A),
   (0x100250, 48, 0x4FE7F6BBCCA6F363ED48394579ED47BB140FDB71A561D099940BB05CEB3636EE0D9A394B03D83815240DD84C4421ACD8),
   (0x100280, 288, 0),
   (0x1003A0, 48, 0xED7B19F3B7B3AF559756259897B7BE0C1FDF83CE6CA18D756A4C3CA6C4FB5ECBADF0608F4B8D5F21631F95C5B41DAC8A),
   (0x1003D0, 48, 0x4E284BEA0336B1827B1A650722F2C37D50076F98E3BF6BC463E10913DA55801DDAC0CD6A6E0A6D126DFAA35745C25EDE)]

/-- A byte of the flash, found by its range. -/
def bootByte (k : Nat) : List (Nat × Nat × Nat) → Byte
  | [] => 0xFF#8
  | p :: r => if p.1 ≤ k ∧ k < p.1 + p.2.1 then BitVec.ofNat 8 (p.2.2 / 256 ^ (k - p.1) % 256) else bootByte k r

def bootable : State := { base with nv := { base.nv with
  keyHash := [0x4938B309EFCA0E50CAB9F949AB849D045C5A676AC0163690AB822A7A4E19D90650792C29353C5BF4461F331495630270, 0, 0, 0], flash := bootParts.flatMap flashOf } }

theorem get?_append (m r : SMap Byte) (k : Nat) : SMap.get? (m ++ r) k = (SMap.get? m k <|> SMap.get? r k) := by
  induction m with
  | nil => simp [SMap.get?]
  | cons c m ih => obtain ⟨a, v⟩ := c; simp only [List.cons_append, SMap.get?]; split <;> simp_all

theorem get?_none (m : SMap Byte) (k : Nat) (h : ∀ c ∈ m, c.1 ≠ k) : SMap.get? m k = none := by
  induction m with
  | nil => rfl
  | cons c m ih =>
    obtain ⟨a, v⟩ := c
    have := h (a, v) (by simp)
    simp only [SMap.get?]
    rw [if_neg (by simpa using Ne.symm this), ih fun c hc => h c (by simp [hc])]

theorem get?_mem (m : SMap Byte) (k : Nat) (v : Byte) (h : (k, v) ∈ m) (hu : ∀ c ∈ m, c.1 = k → c.2 = v) :
    SMap.get? m k = some v := by
  induction m with
  | nil => simp at h
  | cons c m ih =>
    obtain ⟨a, w⟩ := c
    simp only [SMap.get?]
    split
    · next e => have := hu (a, w) (by simp) e.symm; simp_all
    · next e =>
      rcases List.mem_cons.1 h with h | h
      · simp_all
      · exact ih h fun c hc => hu c (by simp [hc])

theorem get_flashOf (p : Nat × Nat × Nat) (k : Nat) :
    SMap.get? (flashOf p) k =
      if p.1 ≤ k ∧ k < p.1 + p.2.1 ∧ BitVec.ofNat 8 (p.2.2 / 256 ^ (k - p.1) % 256) ≠ 0xFF#8 then
        some (BitVec.ofNat 8 (p.2.2 / 256 ^ (k - p.1) % 256)) else none := by
  have hm : ∀ c ∈ flashOf p, ∃ i, i < p.2.1 ∧ c.1 = p.1 + i ∧ c.2 = BitVec.ofNat 8 (p.2.2 / 256 ^ i % 256) ∧ c.2 ≠ 0xFF#8 := by
    intro c hc
    simp only [flashOf, List.mem_filter, List.mem_map, List.mem_range, decide_eq_true_eq] at hc
    obtain ⟨⟨i, hi, rfl⟩, h⟩ := hc
    exact ⟨i, hi, rfl, rfl, h⟩
  split
  · next h =>
    refine get?_mem _ _ _ ?_ ?_
    · simp only [flashOf, List.mem_filter, List.mem_map, List.mem_range, decide_eq_true_eq]
      exact ⟨⟨k - p.1, by omega, by simp; omega⟩, h.2.2⟩
    · intro c hc e
      obtain ⟨i, _, h1, h2, _⟩ := hm c hc
      have : k - p.1 = i := by omega
      rw [h2, this]
  · next h =>
    refine get?_none _ _ fun c hc e => h ?_
    obtain ⟨i, hi, h1, h2, h3⟩ := hm c hc
    have : k - p.1 = i := by omega
    exact ⟨by omega, by omega, by rw [this, ← h2]; exact h3⟩

/-- No key lies in two of the ranges. -/
def partsApart : List (Nat × Nat × Nat) → Bool
  | [] => true
  | p :: r => r.all (fun q => decide (p.1 + p.2.1 ≤ q.1)) && partsApart r

theorem get_below (l : List (Nat × Nat × Nat)) (k b : Nat) (hk : k < b) (h : l.all (fun q => decide (b ≤ q.1)) = true) :
    SMap.get? (l.flatMap flashOf) k = none := by
  induction l with
  | nil => rfl
  | cons p r ih =>
    simp only [List.all_cons, Bool.and_eq_true, decide_eq_true_eq] at h
    rw [List.flatMap_cons, get?_append, get_flashOf, if_neg (by omega), ih h.2]; rfl

theorem get_parts (l : List (Nat × Nat × Nat)) (k : Nat) (h : partsApart l = true) :
    SMap.get 0xFF#8 (l.flatMap flashOf) k = bootByte k l := by
  induction l with
  | nil => rfl
  | cons p r ih =>
    simp only [partsApart, Bool.and_eq_true] at h
    have ih := ih h.2
    simp only [SMap.get] at ih ⊢
    rw [List.flatMap_cons, get?_append, get_flashOf, bootByte]
    by_cases hk : p.1 ≤ k ∧ k < p.1 + p.2.1
    · rw [if_pos hk]
      split
      · rfl
      · next hn =>
        rw [get_below r k (p.1 + p.2.1) hk.2 h.1]
        have : BitVec.ofNat 8 (p.2.2 / 256 ^ (k - p.1) % 256) = 0xFF#8 :=
          Decidable.byContradiction fun hc => hn ⟨hk.1, hk.2, hc⟩
        rw [this]; rfl
    · rw [if_neg hk, if_neg (fun hh => hk ⟨hh.1, hh.2.1⟩), ← ih]; rfl

theorem boot_byte (s : State) (h : s.nv.flash = bootParts.flatMap flashOf) (a : Nat) : fByte s a = bootByte a bootParts := by
  rw [fByte, h]; exact get_parts _ _ (by decide +kernel)

/-- `selectBank` and the ROM's check of slot 0 over the flash's ranges. -/
theorem boot_bank (s : State) (h : s.nv.flash = bootParts.flatMap flashOf) (hd : s.regN .NV_DIEID = 0) :
    selectBank s = (some 0, false) := by
  simp only [selectBank, bankValid, intentOk, intentSeq, recOk, fRead, fNat, boot_byte s h, hd]
  decide +kernel

theorem boot_slot (s : State) (h : s.nv.flash = bootParts.flatMap flashOf) (hr : s.regN .NV_KEYREV = 0)
    (hk : s.nv.keyHash = bootable.nv.keyHash) : slotResult s 0 0 false = 1 := by
  simp only [slotResult, manifest, manifestCheck, keyOk, imageOk, fRead, boot_byte s h, hr, hk]
  decide +kernel

theorem boot_tries (s : State) (h : s.nv.flash = bootParts.flatMap flashOf) (hr : s.regN .NV_KEYREV = 0)
    (hk : s.nv.keyHash = bootable.nv.keyHash) (hs : (s.fget Fld.NV_BOOTSTAT_SKIP).testBit 0 = false) :
    trySlots 0 false false [0, 1] s = (setResult s 0 1, some 0) := by
  simp [trySlots, hs, boot_slot s h hr hk]

theorem boot_body (s : State) (h : s.nv.flash = bootParts.flatMap flashOf) (hc : s.nv.cur = some 0) :
    curBody s = { blankBody with lc := 1 } := by
  simp only [curBody, hc, readBody, fRead, fNat, boot_byte s h]
  decide +kernel

theorem boot_images (s : State) (h : s.nv.flash = bootParts.flatMap flashOf) (k : Nat) (hk : k = 2 ∨ k = 3) :
    imageOk s 0 (manifest s 0) k = true := by
  simp only [imageOk, manifest, fRead, boot_byte s h]
  rcases hk with rfl | rfl <;> decide +kernel

/-- The firmware has started from that flash. -/
def started : State := { bootable with nv := { bootable.nv with cur := some 0 }, hub := { bootable.hub with phase := .fw } }

/-- A generation that is being written. -/
def nvJob : NvJob := ⟨1, 2, 1, 1, 2, []⟩

theorem witness_BootCommandsComplete :
    (let s : State := { base with hub := { base.hub with phase := .held } }
     s.hub.phase = .held) ∧
    (Slice0.HostOpen run hub ∧ mayHub hub = true ∧ (0xB007 : Word).toNat % 2 ^ 16 = 0xB007) ∧
    (let s : State := { run with hub := { run.hub with warmReq := true } }
     s.hub.warmReq = true ∧ s.fget Fld.NV_STAT_BUSY = 0 ∧ s.hub.thermtripN = false) ∧
    (let t := romLatch (romPrepare bootable) (some 0) false
     bootable.hub.phase = .rom ∧ selectBank (romPrepare bootable) = (some 0, false) ∧
      trySlots (curBody t).minsvn false false [(curBody t).slot % 2, 1 - (curBody t).slot % 2] t = (setResult t 0 1, some 0)) ∧
    (let t := latchMode started
     started.hub.phase = .fw ∧ started.nv.job = none ∧ imageOk t 0 (manifest t 0) 2 = true ∧ imageOk t 0 (manifest t 0) 3 = true ∧
      t.fget Fld.NV_BOOTSTAT_SLOT = 0 ∧ (curBody t).lc ≠ 4 ∧ (curBody t).penddec ≠ 1) ∧
    (run.hub.phase = .run ∧ run.chLive 3 = true ∧ 3 ∉ run.hub.ready) ∧
    (let s : State := { run with nv := { run.nv with scrub := true } }
     s.nv.scrub = true) := by
  refine ⟨rfl, ⟨(fun f h => nomatch h), by decide +kernel⟩, ?_, ?_, ?_, ?_, rfl⟩
  · decide +kernel
  · have hf : (romLatch (romPrepare bootable) (some 0) false).nv.flash = bootParts.flatMap flashOf := rfl
    have hb := boot_body _ hf rfl
    refine ⟨rfl, boot_bank _ rfl (by decide +kernel), ?_⟩
    simp only [hb]
    exact boot_tries _ hf (by decide +kernel) rfl (by decide +kernel)
  · have hf : (latchMode started).nv.flash = bootParts.flatMap flashOf := rfl
    have hb := boot_body _ hf rfl
    refine ⟨rfl, rfl, boot_images _ hf 2 (.inl rfl), boot_images _ hf 3 (.inr rfl), by decide +kernel, ?_, ?_⟩ <;> simp [hb, blankBody]
  · decide +kernel

theorem witness_StoreCommandsComplete :
    (let t := dropHalf (started.fset Fld.NV_CFG_MODE 0 0 1) hub
     Slice0.HostOpen (started.fset Fld.NV_CFG_MODE 0 0 1) hub ∧ mayHub hub = true ∧ t.fget Fld.NV_STAT_BUSY = 0 ∧ cfgOk t = true ∧ t.nv.cur ≠ none) ∧
    (let t := dropHalf (started.fset Fld.NV_CTRL_LCTGT 0 0 2) hub
     t.fget Fld.NV_STAT_BUSY = 0 ∧ lcAllowed (curBody t).lc (t.fget Fld.NV_CTRL_LCTGT) = some false ∧ t.fget Fld.NV_CTRL_LCTGT ≠ 4 ∧
      (curBody t).lc ≠ 0) ∧
    (let s : State := { run with nv := { run.nv with cur := some 0, flash := [(0x101, 1)] } }
     let t := dropHalf s hub
     t.fget Fld.NV_STAT_BUSY = 0 ∧ (curBody t).penddec = 1) ∧
    (let t := dropHalf (run.setReg .NV_DIEID 0 0 9) hub
     t.fget Fld.NV_STAT_BUSY = 0 ∧ leNat ((authBytes t).take 8) ≠ t.regN .NV_DIEID) ∧
    (let s : State := { run with nv := { run.nv with job := some nvJob } }
     s.nv.job = some nvJob ∧ s.hub.phase = .run) ∧
    (let s : State := { run with nv := { run.nv with erases := [.bank 1] } }
     s.nv.erases = .bank 1 :: []) ∧
    (let s : State := { started with nv := { started.nv with appends := [List.replicate 32 0#8] } }
     s.nv.appends = List.replicate 32 0#8 :: [] ∧ s.nv.cur = some 0 ∧ s.nv.job = none ∧ s.nv.erases = [] ∧
      logSlots s ((curBody s).epoch % 2) < 1536) := by
  refine ⟨⟨(fun f h => nomatch h), by decide +kernel⟩, ?_, by decide +kernel, by decide +kernel, ⟨rfl, rfl⟩, rfl, rfl, rfl, rfl, rfl, ?_⟩
  · have hb := boot_body (dropHalf (started.fset Fld.NV_CTRL_LCTGT 0 0 2) hub) rfl rfl
    simp only [hb]
    decide +kernel
  · rw [boot_body _ rfl rfl]
    decide +kernel

theorem witness_ManagementRequestsComplete :
    ((0 : Nat) < 0xFE ∧ 0xFE < 0xFF) ∧
    (run.fset Fld.HUB_MGMTCFG_ARP 0 0 1).fbit Fld.HUB_MGMTCFG_ARP = true ∧
    ((4032 : Nat) ≤ 4032 ∧ dumpSize - 4032 + 4032 ≤ dumpSize) ∧
    (let s : State := { run with mgmt := { run.mgmt with erasing := true } }
     s.mgmt.erasing = true) ∧
    (dlyRecords run 3 0 1).isSome = true ∧ sensorUp run 0x300 = true ∧ sensorUp run 0x11D = true ∧
    updateRefused run 1 = false ∧
    (let u : FwUpdate := { slot := 1, written := 0, verified := false }
     let s : State := { run with mgmt := { run.mgmt with update := some u } }
     let b : State := { s with hub := { s.hub with phase := .keeper } }
     romUpdate s = false ∧ romUpdate b = true ∧ s.mgmt.update = some u ∧ b.mgmt.update = some u ∧ s.fget Fld.NV_STAT_BUSY = 0 ∧
      b.fget Fld.NV_STAT_BUSY = 0 ∧ slotSize - 1 + [(7 : Byte)].length ≤ slotSize) ∧
    (let u : FwUpdate := { slot := 1, written := 0, verified := true }
     let s : State := { run with mgmt := { run.mgmt with update := some u } }
     s.mgmt.update = some u ∧ u.verified = true ∧ s.fget Fld.NV_STAT_BUSY = 0) ∧
    (let s : State := { run with mgmt := { run.mgmt with alert := true, events := [(1, 2)] } }
     s.mgmt.alert = true ∧ s.mgmt.events = [(1, 2)]) := by
  (repeat' apply And.intro) <;> first | (intro f h; cases h; done) | decide +kernel | rfl

/-- A session that has written slot 0 as `bootable` holds it. -/
def updating : State := { started with mgmt := { started.mgmt with update := some { slot := 0, written := 0, verified := false } } }

theorem witness_verify : updating.mgmt.update = some { slot := 0, written := 0, verified := false } ∧
    withSram updating { slot := 0, written := 0, verified := false } = updating ∧ verifySlot updating 0 = 1 := by
  have hf : updating.nv.flash = bootParts.flatMap flashOf := rfl
  refine ⟨rfl, rfl, ?_⟩
  have h1 := boot_slot updating hf (by decide +kernel) rfl
  have h2 := boot_images updating hf 2 (.inl rfl)
  have h3 := boot_images updating hf 3 (.inr rfl)
  have hb := boot_body updating hf rfl
  simp only [slotResult, Bool.false_eq_true, if_false] at h1
  simp only [verifySlot, hb, h2, h3]
  split at h1
  · next h => exact absurd h1 h
  · next h => split at h1 <;> simp_all [show blankBody.minsvn = 0 from rfl]

theorem witness_DebugCommandsComplete :
    (Slice0.Open run hub (.ch 0) ∧ Slice0.HostOpen run hub ∧ maySup (dropHalf run hub) hub = true) ∧
    (Slice0.Open run hub (pmBlk 3) ∧ (3 : Fin 5).val < 4) ∧ (Slice0.Open run hub .hub ∧ mayHub hub = true) ∧
    (let s : State := { run with mgmt := { run.mgmt with dumping := true } }
     s.mgmt.dumping = true) ∧
    (let s := run.fset Fld.NV_LC_DBGLEVEL 0 0 1
     Slice0.Jtag s 1 ∧
      (dlyRecords (Slice0.jtagIr s 0x21) 3 0 1).isSome = true) := by
  (repeat' apply And.intro) <;> first | (intro f h; cases h; done) | decide +kernel | rfl

/-! Words of the steward's instructions (Table 6-1): op, rd, ra, rb, fn; 48-bit words. -/

def sw (op rd ra rb fn : Nat) : Nat := 2 * op + rd * 2 ^ 7 + ra * 2 ^ 12 + rb * 2 ^ 17 + fn * 2 ^ 22
def sw6 (op rd hi : Nat) : Nat := 1 + 2 * op + rd * 2 ^ 7 + hi * 2 ^ 16

/-- Steward 0 of cluster 0 runs at 0x100, where a word stands; its gates are open and the stack at site 0 is there. -/
def stewOn (word : Nat) (f : Stw → Stw) : State :=
  ((setStw (stack.writeMem (depotAt 0 0 0x100) (dBytes 8 word)) 0 0 0 fun _ => f { st := wRun, pc := 0x100 }).fset
    Fld.CL_GATE_OUT (clLoc 0 0) 0 1).fset Fld.CL_GATE_WR (clLoc 0 0) 0 1

/-- With a value in `s2`, at supervisor level. -/
def with2 (v : Nat) (x : Stw) : Stw := { x with x := [(2, BitVec.ofNat 64 v)], prv := true }

/-- The steward may issue the word's instruction, which has mnemonic `m`. -/
abbrev issues (s : State) (word : Nat) (m : SMn) : Prop :=
  stwMay s 0 0 0 = true ∧ stwFetch s 0 0 (s.stw 0 0 0) = .inr (sDecode word) ∧ (sDecode word).mn = m

/-- What the statements ask of a steward that issues follows. -/
theorem issues_w0 (s : State) (word : Nat) (m : SMn) (h : issues s word m) : Slice0.Issues s w0 (sDecode word) := ⟨h.1, h.2.1⟩

def intWords : List (SMn × Nat) :=
  [(.alu, sw 1 31 2 3 15), (.addi, sw 2 31 2 0 1), (.andi, sw 3 31 2 0 1), (.ori, sw 4 31 2 0 1), (.xori, sw 5 31 2 0 1),
   (.shi, sw 6 31 2 31 5), (.slti, sw 7 31 2 0 1), (.li, sw6 1 31 0xFFFFFFFF), (.lih, sw6 2 31 0xFFFFFFFF)]

theorem witness_StewardIntegerResults :
    ∀ q ∈ intWords, ∀ st ∈ [false, true], issues (stewOn q.2 fun x => { x with stepping := st }) q.2 q.1 := by decide +kernel

def jumpWords : List (SMn × Nat) :=
  [(.beq, sw 0x18 0 2 3 1023), (.bne, sw 0x19 0 2 3 1), (.blt, sw 0x1A 0 2 3 1), (.bge, sw 0x1B 0 2 3 1), (.bltu, sw 0x1C 0 2 3 1),
   (.bgeu, sw 0x1D 0 2 3 1), (.jal, sw 0x1E 1 0 0 1023), (.jalr, sw 0x1F 1 2 0 1)]

theorem witness_StewardBranches : ∀ q ∈ jumpWords, issues (stewOn q.2 id) q.2 q.1 := by decide +kernel

theorem witness_StewardTraps :
    (issues (stewOn (sw 0x21 0 1 0 0) id) (sw 0x21 0 1 0 0) .sysc ∧
      issues (stewOn (sw 0x3F 0 0 0 0) id) (sw 0x3F 0 0 0 0) .illegal ∧
      ((stewOn 0 id).stw 0 0 0).intrap = false ∧ ((stewOn 0 id).stw 0 0 0).take = none ∧ ((stewOn 0 id).stw 0 0 0).st = wRun) ∧
    (∀ q ∈ [(SMn.ldl, sw 0x0B 1 2 0 0), (.stl, sw 0x0F 0 2 0 0)], ∀ v ∈ [1, 7, 3670016 - 8 + 8], let s := stewOn q.2 (with2 v)
     let i := sDecode q.2
     let a := ((Slice0.xreg s w0 i.ra).setWidth 22 + BitVec.ofInt 22 i.imm).toNat
     issues s q.2 q.1 ∧ (a % i.width ≠ 0 ∨ a % i.width = 0 ∧ 3670016 < a + i.width)) ∧
    (issues (stewOn (sw 0x21 0 0 0 1) id) (sw 0x21 0 0 0 1) .rett ∧ ((stewOn 0 id).stw 0 0 0).prv = false) ∧
    (let s := stewOn 0 fun x => { x with pc := 3670016 }
     stwMay s 0 0 0 = true ∧ 3670016 ≤ (s.stw 0 0 0).pc) ∧
    (∀ q ∈ [(SMn.sysc, sw 0x21 0 1 0 0), (.illegal, sw 0x3F 0 0 0 0)], issues (stewOn q.2 fun x =>
      { x with intrap := true }) q.2 q.1) := by
  decide +kernel

theorem witness_StewardSpecialRegisters :
    (∀ op ∈ [0, 1, 2, 3], ∀ n ∈ [0x02, 0x05, 0x06, 0x07, 0x0D], let q := sw 0x20 1 2 0 (op + 4 * n)
     let i := sDecode q
     issues (stewOn q (with2 3)) q .csr ∧ i.fn / 4 = n ∧ i.fn % 4 = op ∧ ((stewOn q (with2 3)).stw 0 0 0).prv = true ∧
      ((stewOn q (with2 3)).stw 0 0 0).take = none ∧ csrFixed n = false) ∧
    (let q := sw 0x20 1 2 0 (1 + 4 * 0x05)
     issues (stewOn q id) q .csr ∧ ((stewOn q id).stw 0 0 0).prv = false ∧ csrWriteS 0x05 = true) ∧
    (∃ n, n ≤ 0x0D ∧ csrReadS n = true) := by
  refine ⟨by decide +kernel, by decide +kernel, 0x05, by decide, by decide +kernel⟩

theorem witness_StewardSystemInstructions :
    (∀ q ∈ [(SMn.rett, sw 0x21 0 0 0 1), (.hret, sw 0x21 0 0 0 2), (.halt, sw 0x21 0 0 0 3), (.fenceL, sw 0x21 0 0 0 4),
        (.fenceG, sw 0x21 0 0 0 5), (.fenceI, sw 0x21 0 0 0 6)],
      let s := stewOn q.2 fun x => { with2 0 x with inh := some (3, 0) }
      issues s q.2 q.1 ∧ (s.stw 0 0 0).take = none ∧ (s.stw 0 0 0).prv = true ∧ (s.stw 0 0 0).inh = some (3, 0) ∧
        (s.stw 0 0 0).posted = 0 ∧ (s.stw 0 0 0).serr.2 = 0) ∧
    (∀ p ∈ [0, 1], let s := stewOn (sw 0x21 0 0 0 5) fun x => { x with posted := p, serr := (6, 1) }
      issues s (sw 0x21 0 0 0 5) .fenceG ∧ (s.stw 0 0 0).posted = p ∧ (s.stw 0 0 0).serr.2 ≠ 0 ∧
        (s.stw 0 0 0).intrap = false) := by
  decide +kernel

/-- LDL and STL of 8 bytes at the last doubleword of the depot. -/
theorem witness_StewardLocalMemory :
    (∀ q ∈ [(SMn.ldl, sw 0x0B 1 2 0 0), (.stl, sw 0x0F 0 2 1 0)], let s := stewOn q.2 (with2 (3670016 - 8))
     let i := sDecode q.2
     let t := Slice0.issued s w0 i
     let a := ((Slice0.xreg s w0 i.ra).setWidth 22 + BitVec.ofInt 22 i.imm).toNat
     issues s q.2 q.1 ∧ a % i.width = 0 ∧ a + i.width ≤ 3670016 ∧ ownStoreDue t (Slice0.iss s w0 i) a i.width = false ∧
      depotCopies t 0 0 a i.width = false ∧ (Slice0.iss s w0 i).storing t = false ∧
      anyPsn (s.readMem (depotAt 0 0 a) i.width) = false ∧ (s.stw 0 0 0).take = none ∧ gateWr t 0 0 = true ∧
      guardAct t (depotAt 0 0 a) i.width = 0) ∧
    (let q := sw 0x0F 0 2 1 0
     let s := setTake (stewOn q fun x => { with2 (3670016 - 8) x with take := some 3 }) 0 0 3 fun _ => { isOpen := true }
     let i := sDecode q
     let t := Slice0.issued s w0 i
     let a := ((Slice0.xreg s w0 i.ra).setWidth 22 + BitVec.ofInt 22 i.imm).toNat
     issues s q .stl ∧ (s.stw 0 0 0).take = some 3 ∧ takeOpen s 0 0 3 = true ∧ penFull s 0 0 = false ∧ gateWr t 0 0 = true ∧
      guardAct t (depotAt 0 0 a) i.width = 0 ∧ ownStoreDue t (Slice0.iss s w0 i) a i.width = false ∧
      depotCopies t 0 0 a i.width = false ∧ (Slice0.iss s w0 i).storing t = false) := by
  decide +kernel

/-- A request of steward 0 that is back. -/
def backReq (ret : RetTo) (op : ROp) : State :=
  (stewOn 0 fun x => { x with st := wStalled, wait := .load, posted := 1 }).setChan 0 fun k =>
    { k with reqs := [{ ret := ret, fn := none, epoch := 0, cl := 0, tga := 0x1000, op := op, cls := 0, place := .done,
                        data := dBytes 8 5 }] }

theorem witness_StewardGlobalMemory :
    (∀ q ∈ [(SMn.ldg, sw 0x13 1 2 0 0), (.stg, sw 0x17 0 2 1 0)], let s := stewOn q.2 (with2 0x1000)
     let i := sDecode q.2
     let t := Slice0.issued s w0 i
     let a := (Slice0.xreg s w0 i.ra + BitVec.ofInt 64 i.imm).toNat
     issues s q.2 q.1 ∧ a % i.width = 0 ∧ (s.stw 0 0 0).take = none ∧ accessCode t 0 (stwFn t 0 0 0) false a i.width = 0 ∧
      ownCtl t 0 a = false ∧ storeWaits t 0 0 0 a = false) ∧
    (let q := sw 0x17 0 2 1 0
     let s := setTake (stewOn q fun x => { with2 0x1000 x with take := some 3 }) 0 0 3 fun _ => { isOpen := true }
     issues s q .stg ∧ (s.stw 0 0 0).take = some 3 ∧ takeOpen s 0 0 3 = true ∧ penFull s 0 0 = false) ∧
    (let s := backReq (.load 0 7) (.read 8)
     (match stwBack s 0 (fun t => match t with | .load n _ => decide (n = stwNo 0 0) | _ => false) with
      | some r => r.ret = .load (stwNo 0 0) 7 ∧ codeOk r.code = true ∧ anyPsn r.data = false
      | none => False) ∧ clocked s 0 0 = true) ∧
    (let s := backReq (.posted 0) (.write (dBytes 8 5))
     (match stwBack s 0 (fun t => decide (t = .posted (stwNo 0 0))) with
      | some r => r.op = .write (dBytes 8 5)
      | none => False) ∧ clocked s 0 0 = true ∧ (s.clu 0 0).sbDue = []) := by
  (repeat' apply And.intro) <;> first | decide +kernel | rfl

theorem witness_StewardMessages :
    (∀ nb ∈ [0, 16], ∀ posted ∈ [0, 32], let q := sw 0x22 1 2 2 (7 + nb)
     let s := stewOn q fun x => { with2 0x200 x with posted := posted }
     let i := sDecode q
     let t := Slice0.issued s w0 i
     issues s q .qsnd ∧ (s.stw 0 0 0).get i.rb % 2 ^ 22 % 8 = 0 ∧ 0x200 + 64 ≤ 3670016 ∧
      ownStoreDue t (Slice0.iss s w0 i) 0x200 64 = false ∧ (s.stw 0 0 0).take = none ∧
      sendWaits t 0 0 0 = decide (posted = 32) ∧ bit i.fn 4 = decide (nb = 16)) ∧
    (let q := sw 0x22 1 2 2 7
     let s := setTake (stewOn q fun x => { with2 0x200 x with take := some 0 }) 0 0 0 fun _ => { isOpen := true }
     issues s q .qsnd ∧ (s.stw 0 0 0).take = some 0 ∧ takeOpen s 0 0 0 = true ∧ penFull s 0 0 = false) ∧
    (∀ nb ∈ [0, 16], ∀ l ∈ [[], [(⟨0, dBytes 8 7⟩ : Msg)]], let q := sw 0x23 1 0 2 (3 + nb)
     let s := ((stewOn q (with2 0x200)).setClu 0 0 fun c => { c with queues := [(3, l)] }).setReg .CL_QCFGn (clLoc 0 0) 3 qRecv
     let i := sDecode q
     let t := Slice0.issued s w0 i
     issues s q .qrcv ∧ (Slice0.iss s w0 i).storing t = false ∧ depotCopies t 0 0 0x200 8 = false ∧ qMode t 0 0 3 ≠ qOff ∧
       qMode t 0 0 3 ≠ qDispatch ∧ qPsn t 0 0 3 = false ∧ queue s 0 0 3 = l ∧
      0x200 + 8 ≤ 3670016 ∧ qrcvBehind t (Slice0.iss s w0 i) 3 = false ∧ gateWr t 0 0 = true ∧
      ownStoreDue t (Slice0.iss s w0 i) 0x200 8 = false ∧ guardAct t (depotAt 0 0 0x200) 8 = 0 ∧
        bit i.fn 4 = decide (nb = 16)) := by
  decide +kernel

/-- A descriptor of steward 0 in slot 63, complete or not. -/
def dslot (fin : Bool) : DSlot := { w := 0, count := 0, collect := true, desc := [], complete := fin }

theorem witness_StewardDollyInstructions :
    (∀ full ∈ [false, true], let q := sw 0x25 1 2 0 0
     let s := (stewOn q (with2 0x200)).setClu 0 0 fun c =>
       { c with slots := if full then (List.range 64).map fun n => (n, dslot false) else (List.range 63).map fun n =>
         (n, dslot false) }
     let i := sDecode q
     issues s q .dlyIssue ∧ 0x200 % 32 = 0 ∧ ((List.range 64).filter fun n => (SMap.get? (s.clu 0 0).slots n).isNone) =
       (if full then [] else [63]) ∧ tieLost (Slice0.issued s w0 i) (Slice0.iss s w0 i) = false) ∧
    (∀ q ∈ [(SMn.dlyWait, sw 0x25 1 2 0 1), (.dlyPoll, sw 0x25 1 2 0 2)], ∀ fin ∈ [false, true],
      let s := (stewOn q.2 (with2 63)).setClu 0 0 fun c => { c with slots := [(63, dslot fin)] }
      issues s q.2 q.1 ∧ ticketSlot s 0 0 63 = some (dslot fin) ∧ (dslot fin).complete = fin ∧
        ticketSlot (stewOn q.2 (with2 63)) 0 0 63 = none ∧ issues (stewOn q.2 (with2 63)) q.2 q.1) := by
  (repeat' apply And.intro) <;> decide +kernel

def syncWords : List (SMn × Nat) :=
  [(.syncRd, sw 0x24 1 2 3 0), (.syncAdd, sw 0x24 0 2 3 1), (.syncSet, sw 0x24 0 2 3 2), (.syncWge, sw 0x24 0 2 3 3),
   (.barArv, sw 0x24 0 2 0 4), (.barWait, sw 0x24 1 2 0 5), (.barArw, sw 0x24 1 2 0 6)]

theorem witness_StewardSyncInstructions :
    ∀ q ∈ syncWords, ∀ arv ∈ [false, true], let s := stewOn q.2 fun x => { with2 (2 ^ 45 + 40) x with arvDone := arv }
     let t := Slice0.issued s w0 (sDecode q.2)
     issues s q.2 q.1 ∧ (s.stw 0 0 0).take = none ∧ tgaSpace (2 ^ 45 + 40) = 2 ∧
       syncCode t 0 (stwFn t 0 0 0) (2 ^ 45 + 40) = 0 ∧
      (s.stw 0 0 0).arvDone = arv ∧ (s.stw 0 0 0).intrap = false ∧ tgaSpace 0x1000 ≠ 2 := by
  decide +kernel

/-- An entry of the submission queue that holds a steward's convoy, done or not. -/
def heldEnt (fin : Bool) : SealEnt := { sealEntOf none 0 with collect := true, done := fin }

theorem witness_StewardSealInstructions :
    (∀ q ∈ [(SMn.sealConvoy, sw6 0x30 1 0 + 2 * 2 ^ 12), (.sealCtx, sw6 0x30 1 (15 * 2 ^ 16 + 3 * 2 ^ 11) + 2 * 2 ^ 12)],
      let s := stewOn q.2 (with2 0x1000)
      issues s q.2 q.1 ∧ (Slice0.issued s w0 (sDecode q.2)).fbit Fld.CH_CAPS_SEAL_LIVE 0 = true ∧ sealFree s 0 = some 0 ∧
        accessLeft s 0 0 = false ∧ (s.stw 0 0 0).take = none) ∧
    (∀ q ∈ [(SMn.sealWait, sw6 0x30 1 (2 ^ 11) + 2 * 2 ^ 12), (.sealPoll, sw6 0x30 1 (2 * 2 ^ 11) + 2 * 2 ^ 12)],
      ∀ fin ∈ [false, true], let s := (stewOn q.2 (with2 15)).setSeal 0 fun u => { u with ents := [(15, heldEnt fin)] }
      let i := sDecode q.2
      issues s q.2 q.1 ∧ sealHeld (Slice0.issued s w0 i) (Slice0.iss s w0 i) = some (heldEnt fin) ∧ (heldEnt fin).done = fin) ∧
    (let q := sw6 0x30 1 (4 * 2 ^ 11) + 2 * 2 ^ 12
     let s := stewOn q (with2 0x1000)
     let t := Slice0.issued s w0 (sDecode q)
     issues s q .sealHdr ∧ accessCode t 0 (stwFn t 0 0 0) false 0x1000 8 = 0 ∧ ownCtl t 0 0x1000 = false) := by
  decide +kernel

/-- A commit of slot 3 in progress, and a squash that waits. -/
def actOf (commit : Bool) : TakeAct := { w := 0, slot := 3, commit := commit, rd := 1 }

theorem witness_StewardTakeInstructions :
    (∀ q ∈ [(SMn.takeOpen, sw 0x26 1 0 0 0), (.takeCommit, sw 0x26 1 2 0 1), (.takeSquash, sw 0x26 1 2 0 2), (.takeEnter, sw 0x26 0 2 0 3),
        (.takeLeave, sw 0x26 0 0 0 4), (.takeStat, sw 0x26 1 0 0 5)],
      let s := stewOn q.2 (with2 3)
      let o := setTake s 0 0 3 fun _ => { isOpen := true }
      issues s q.2 q.1 ∧ issues o q.2 q.1 ∧ (s.stw 0 0 0).take = none ∧ takeOpen s 0 0 3 = false ∧ takeOpen o 0 0 3 = true ∧
        slotNamed s 0 0 0 = false ∧ ∀ t ∈ [s, o], (t.clu 0 0).act = none ∧ (t.clu 0 0).actq = []) ∧
    (let q := sw 0x26 1 0 0 0
     let s := [0, 1, 2, 3].foldl (fun s k => setTake s 0 0 k fun _ => { isOpen := true }) (stewOn q id)
     issues s q .takeOpen ∧ ∀ m < 4, takeOpen s 0 0 m = true) ∧
    (let s := (stewOn 0 id).setClu 0 0 fun c => { c with act := some (actOf true), take := [(3, { isOpen := true })] }
     clocked s 0 0 = true ∧ (s.clu 0 0).act = some (actOf true) ∧ (s.clu 0 0).pen = [] ∧ (s.clu 0 0).actq = [] ∧
      (takeSlot s 0 0 3).rec? = none) ∧
    (let s := (stewOn 0 id).setClu 0 0 fun c => { c with actq := [actOf false], take := [(3, { isOpen := true })] }
     clocked s 0 0 = true ∧ (s.clu 0 0).act = none ∧ (s.clu 0 0).actq = [actOf false] ∧ takeOpen s 0 0 3 = true) ∧
    (∀ q ∈ [(SMn.predQ, sw 0x27 1 2 0 0), (.predU, sw 0x27 0 2 3 1)], ∀ en ∈ [0, 1], let s := (stewOn q.2 (with2 0x1000)).fset Fld.CH_PREDCTRL_EN 0 0 en
      let t := Slice0.issued s w0 (sDecode q.2)
      issues s q.2 q.1 ∧ (s.stw 0 0 0).take = none ∧ t.fbit Fld.CH_PREDCTRL_EN 0 = decide (en = 1) ∧
        predHit t 0 ((clFn t 0 0).getD 0) 0x1000 = none) ∧
    (let q := sw 0x27 1 2 0 0
     let e : PredEnt := { func := 0, tag := predTag 0x1000, exps := [1, 2, 3, 4], conf := [3, 2, 1, 0] }
     let s := ((stewOn q (with2 0x1000)).fset Fld.CH_PREDCTRL_EN 0 0 1).setChan 0 fun c =>
       { c with pred := [(predIndex 0x1000, e)] }
     let t := Slice0.issued s w0 (sDecode q)
     issues s q .predQ ∧ predHit t 0 ((clFn t 0 0).getD 0) 0x1000 = some e) := by
  (repeat' apply And.intro) <;> decide +kernel

theorem witness_StewardZeroRegister :
    (issues (stewOn (sw 2 0 2 0 1) (with2 7)) (sw 2 0 2 0 1) .addi ∧ (sDecode (sw 2 0 2 0 1)).rd = 0 ∧
      ((stewOn (sw 2 0 2 0 1) (with2 7)).stw 0 0 0).take = none) ∧
    (∀ v ∈ [0x200, 0x201], let q := sw 0x0B 0 2 0 0
     let s := stewOn q (with2 v)
     let i := sDecode q
     let t := Slice0.issued s w0 i
     let a := ((Slice0.xreg s w0 i.ra).setWidth 22 + BitVec.ofInt 22 i.imm).toNat
     issues s q .ldl ∧ i.rd = 0 ∧ a = v ∧ a % i.width = v - 0x200 ∧ a + i.width ≤ 3670016 ∧
      ownStoreDue t (Slice0.iss s w0 i) a i.width = false ∧ depotCopies t 0 0 a i.width = false ∧
      anyPsn (s.readMem (depotAt 0 0 a) i.width) = false ∧ (s.stw 0 0 0).intrap = false) ∧
    (let q := sw 0x13 0 2 0 0
     let s := stewOn q (with2 0x1000)
     let i := sDecode q
     let t := Slice0.issued s w0 i
     let g := (Slice0.xreg s w0 i.ra + BitVec.ofInt 64 i.imm).toNat
     issues s q .ldg ∧ i.rd = 0 ∧ g % i.width = 0 ∧ accessCode t 0 (stwFn t 0 0 0) false g i.width = 0 ∧ ownCtl t 0 g = false) ∧
    (let q := sw 0x23 0 0 2 3
     let m : Msg := ⟨0, dBytes 8 7⟩
     let s := ((stewOn q (with2 0x200)).setClu 0 0 fun c =>
       { c with queues := [(3, [m])] }).setReg .CL_QCFGn (clLoc 0 0) 3 qRecv
     let i := sDecode q
     let t := Slice0.issued s w0 i
     issues s q .qrcv ∧ (Slice0.iss s w0 i).storing t = false ∧ depotCopies t 0 0 0x200 8 = false ∧ i.rd = 0 ∧
       qMode t 0 0 3 = qRecv ∧ qPsn t 0 0 3 = false ∧ queue s 0 0 3 = [m] ∧
      qrcvBehind t (Slice0.iss s w0 i) 3 = false ∧ gateWr t 0 0 = true ∧ ownStoreDue t (Slice0.iss s w0 i) 0x200 8 = false ∧
      guardAct t (depotAt 0 0 0x200) 8 = 0) := by
  (repeat' apply And.intro) <;> decide +kernel

theorem witness_OwnCodeStores :
    let q := sw 0x0F 0 2 1 0
    let s := stewOn q (with2 0x100)
    issues s q .stl ∧ s.psn = [] ∧ (s.stw 0 0 0).take = none ∧ (s.stw 0 0 0).intrap = false ∧
      ∃ u, exec (.sStl w0) s = .next u := by
  refine ⟨?_, ?_, ?_, ?_, _, rfl⟩ <;> decide +kernel

theorem witness_ExceptionsAreDeferred :
    (∀ q ∈ [(SMn.halt, sw 0x21 0 0 0 3), (.rett, sw 0x21 0 0 0 1), (.sysc, sw 0x21 0 1 0 0), (.takeOpen, sw 0x26 1 0 0 0),
        (.takeEnter, sw 0x26 0 2 0 3), (.predU, sw 0x27 0 2 3 1), (.qrcv, sw 0x23 1 0 2 3), (.ldl, sw 0x0B 1 2 0 0),
        (.dlyWait, sw 0x25 1 2 0 1), (.dlyPoll, sw 0x25 1 2 0 2)] ++ syncWords,
      ∀ o ∈ [false, true],
      let s := setTake (stewOn q.2 fun x => { with2 0x201 x with take := some 3 }) 0 0 3 fun _ => { isOpen := o }
      let i := sDecode q.2
      let a := ((Slice0.xreg s w0 i.ra).setWidth 22 + BitVec.ofInt 22 i.imm).toNat
      issues s q.2 q.1 ∧ (s.stw 0 0 0).take = some 3 ∧ (s.stw 0 0 0).prv = true ∧ (i.mn = .ldl → a % i.width ≠ 0) ∧
        ticketSlot s 0 0 0x201 = none) := by
  decide +kernel

/-- VF 1 is enabled. -/
def vfUp : State := hostUp.fset Fld.HUB_VFSTATn_STATE 0 0 1

theorem witness_Writers :
    (Slice0.Open run hub (.ch 0) ∧ maySup (dropHalf run hub) hub = true) ∧
      (Slice0.Open (stewOn 0 (with2 0)) (.stw w0) (.ch 0) ∧ Slice0.Open vfUp (.fn 1) (.ch 0)) ∧
      ((stewOn 0 (with2 0)).stw 0 0 0).prv = true ∧ ((stewOn 0 id).stw 0 0 0).prv = false ∧
      (∃ f : FnId, f.val = 0) ∧ (∃ f : FnId, f.val ≠ 0) := by
  refine ⟨?_, ?_, by decide +kernel, by decide +kernel, ⟨0, rfl⟩, ⟨1, by decide⟩⟩ <;>
    (repeat' apply And.intro) <;> first | (intro f h; cases h; done) | (intro f h; cases h; decide +kernel) | decide +kernel

/-- Commands that wait, one of which may store and one of which may not. -/
def waiting : State := { run with pending := [.bypass, .warmReset] }

theorem witness_Steps :
    waiting.pending = .bypass :: [.warmReset] ∧ (∃ t, step waiting = .next t) ∧ Memory.wf waiting.mem = true ∧
      Slice0.mayStore .bypass = false ∧ (∃ t, exec .bypass waiting = .next t) := by
  refine ⟨rfl, ⟨_, rfl⟩, by decide +kernel, rfl, _, rfl⟩

end Sys2Proof.Tests
end

/-! Register accesses (R3, R6, R9, R529, R541): what a read and a write do where the access names a register, and the ways by which
hosts, management and debug come to it. -/

namespace Sys2Proof.Machine

/-! ### What an access does -/

section Access

variable {s : State} {r : Requester} {a : RegAddr} {n i : Nat} {g : Reg} (v : Nat)

/-- A write of a whole register (R3): its value is put, and arms the fault controller's entries (R475). -/
theorem regWrite_full (h : Slice0.Hits s r a n g i .full) :
    regWrite r a n v s = armReg a.blk a.off g i (v % 2 ^ g.desc.width)
      (regPut r a.blk g i (v % 2 ^ g.desc.width) (dropHalf s r)) := by
  obtain ⟨hreach, hshut, habsent, hpart⟩ := h
  simp [regWrite, hreach, hshut, habsent, hpart]

/-- A write of the lower half is held (R9). -/
theorem regWrite_lower (h : Slice0.Hits s r a n g i .lower) :
    regWrite r a n v s =
      { dropHalf s r with half := ⟨r, g.place (blkLoc a.blk) i, true, v % 2 ^ 32⟩ :: (dropHalf s r).half } := by
  obtain ⟨hreach, hshut, habsent, hpart⟩ := h
  simp [regWrite, hreach, hshut, habsent, hpart]

/-- A write of the upper half writes the lower half held for it too (R9). -/
theorem regWrite_upper_held (h : Slice0.Hits s r a n g i .upper) {x : HalfHold} (hx : halfOf s r = some x)
    (hwr : x.wr = true) (hplace : x.place = g.place (blkLoc a.blk) i) :
    regWrite r a n v s = armReg a.blk a.off g i (x.val + v % 2 ^ 32 * 2 ^ 32)
      (regPut r a.blk g i (x.val + v % 2 ^ 32 * 2 ^ 32) (dropHalf s r)) := by
  obtain ⟨hreach, hshut, habsent, hpart⟩ := h
  simp [regWrite, hreach, hshut, habsent, hpart, hx, hwr, hplace]

/-- A write that names no register is recorded (R6). A function's block is left out: its MSI-X table lies beside the registers. -/
theorem regWrite_bad (hreach : reaches (dropHalf s r) r a.blk = true) (hshut : blkShut (dropHalf s r) a.blk = false)
    (habsent : blkAbsent (dropHalf s r) a.blk = none) (hfn : ∀ f, a.blk ≠ .fn f)
    (hpart : accessPart (blkKind a.blk) a.off n = none) :
    regWrite r a n v s = badAccess (dropHalf s r) r a := by
  simp [regWrite, hreach, hshut, habsent, hpart]

/-- A read of a whole register (R3, R564): its value, and the RC fields cleared for a requester whose reads clear. -/
theorem regRead_full (ht : g.timed = false) (h : Slice0.Hits s r a n g i .full) :
    regRead r a n s = (if readClears r then clearRc (dropHalf s r) a.blk g i 0 else dropHalf s r,
      regView (dropHalf s r) a.blk g i) := by
  obtain ⟨hreach, hshut, habsent, hpart⟩ := h
  simp [regRead, hreach, hshut, habsent, hpart, ht]

end Access

/-! ### The commands of register access and debug mean what their functions say -/

section Arms

variable (s : State) (r : Requester) (q : RegPlace) (a v : Word) (n : Nat)

theorem exec_registerWrite : exec (.registerWrite r q n v) s = execRegisterWrite r q n v s := rfl
theorem exec_registerRead : exec (.registerRead r q n) s = execRegisterRead r q n s := rfl
theorem exec_regRead : exec (.regRead a n) s = execRegRead a n s := rfl
theorem exec_regWrite : exec (.regWrite a n v) s = execRegWrite a n v s := rfl
theorem exec_dbgregRd : exec (.dbgregRd a n) s = execDbgregRd a n s := rfl
theorem exec_dbgregWr : exec (.dbgregWr a n v) s = execDbgregWr a n v s := rfl
theorem exec_dbgmem (write : Bool) : exec (.dbgmem a write v) s = execDbgmem a write v s := rfl
theorem exec_dbghalt (t : HaltTarget) (resume : Bool) : exec (.dbghalt t resume) s = execDbghalt t resume s := rfl

end Arms

/-! ### Accesses by address and by a function's BAR0 -/

section Names

variable {s : State} {r : Requester} {f : FnId} {q : RegPlace} {a : RegAddr}

/-- A write at a place that names an address is a register write there. -/
theorem exec_registerWrite_of_names (n : Nat) (v : Word) (h : Slice0.Names s r q a) :
    exec (.registerWrite r q n v) s = .next (regWrite r a n v.toNat s) := by
  obtain ⟨haddr, hans⟩ := h
  cases q with
  | cfg c => cases haddr
  | blk x | bar0 o =>
    cases r with
    | fn f => simp [exec_registerWrite, execRegisterWrite, haddr, hans f rfl]
    | hub | mgmt | jtag | stw w => simp [exec_registerWrite, execRegisterWrite, haddr]

/-- A read at a place that names an address, by a requester that is no function. -/
theorem exec_registerRead_of_names (n : Nat) (hr : ∀ f : FnId, r ≠ .fn f) (h : Slice0.Names s r q a) :
    exec (.registerRead r q n) s = .next (regRead r a n s).1 := by
  obtain ⟨haddr, -⟩ := h
  cases r with
  | fn f => exact absurd rfl (hr f)
  | hub | mgmt | jtag | stw w => simp [exec_registerRead, execRegisterRead, haddr]

/-- The same by a function: the host link carries the value (R348). -/
theorem exec_registerRead_fn_of_names (n : Nat) (h : Slice0.Names s (.fn f) q a) :
    exec (.registerRead (.fn f) q n) s =
      .next (hostOut (regRead (.fn f) a n s).1 (.reply (leBytes n (regRead (.fn f) a n s).2) false)) := by
  obtain ⟨haddr, hans⟩ := h
  cases q with
  | cfg c => cases haddr
  | blk x | bar0 o => simp [exec_registerRead, execRegisterRead, haddr, hans f rfl]

/-- A configuration request is answered while the port is ready and the function exists (R367). -/
theorem cfgRequest_of_ready (act : State → State) (hp : s.port.perst = false) (hready : s.port.ready = true)
    (hf : cfgExists s f = true) : cfgRequest s f act = act s := by
  simp [cfgRequest, hp, hready, hf]

end Names

/-! ### Accesses by management and debug -/

section Vendor

variable {s : State} {r : Requester} {x : RegAddr} {a : Nat}

theorem vendorRead_of_addr (n : Nat) (h : vendorAddr s a = some x) : vendorRead s r a n = regRead r x n s := by
  simp [vendorRead, h]

theorem vendorWrite_of_addr (n v : Nat) (h : vendorAddr s a = some x) : vendorWrite s r a n v = regWrite r x n v s := by
  simp [vendorWrite, h]

/-- An instruction that JTAG may use acts on the state in which it is shifted in (R541). -/
theorem jtag_of_allowed {level : Nat} (ir : Nat) (f : State → State) (h : Slice0.Jtag s level) :
    jtag s level ir f = f (Slice0.jtagIr s ir) := by
  obtain ⟨hlevel, hkeeper⟩ := h
  rw [jtag, if_neg (not_or.2 ⟨Nat.not_lt.2 hlevel, hkeeper⟩)]
  rfl

/-- The debugger's reach holds no part of the Seal unit's block, which lies in control space. -/
theorem sealTga_of_dbgReach (h : dbgReach s a = true) : sealTga a = false := by
  simp only [dbgReach, Bool.and_eq_true, decide_eq_true_eq] at h
  simp only [sealTga, decide_eq_false_iff_not]
  omega

end Vendor

/-! ### The commands of management and debug (R529, R541) -/

section Commands

variable {s : State} {a : Word} {n : Nat}

theorem exec_regRead_of_ok (hok : vendorOk s a.toNat n = true) :
    exec (.regRead a n) s =
      .next (respond (vendorRead s .mgmt a.toNat n).1 0 (leBytes n (vendorRead s .mgmt a.toNat n).2)) := by
  simp [exec_regRead, execRegRead, hok]

theorem exec_regWrite_of_ok {x : RegAddr} (v : Word) (hok : vendorOk s a.toNat n = true) (hx : vendorAddr s a.toNat = some x)
    (hmay : mgmtMay x n = true) :
    exec (.regWrite a n v) s = .next (respond (vendorWrite s .mgmt a.toNat n v.toNat) 0 []) := by
  simp [exec_regWrite, execRegWrite, hok, hx, hmay]

theorem exec_dbgregRd_of_ok (hj : Slice0.Jtag s 1) (hok : vendorOk (Slice0.jtagIr s 0x20) a.toNat n = true) :
    exec (.dbgregRd a n) s =
      .next (setTdo (vendorRead (Slice0.jtagIr s 0x20) .jtag a.toNat n).1
        [(vendorRead (Slice0.jtagIr s 0x20) .jtag a.toNat n).2]) := by
  simp [exec_dbgregRd, execDbgregRd, jtag_of_allowed _ _ hj, hok]

theorem exec_dbgregWr_of_ok (v : Word) (hj : Slice0.Jtag s 2) (hok : vendorOk (Slice0.jtagIr s 0x30) a.toNat n = true) :
    exec (.dbgregWr a n v) s = .next (vendorWrite (Slice0.jtagIr s 0x30) .jtag a.toNat n v.toNat) := by
  simp [exec_dbgregWr, execDbgregWr, jtag_of_allowed _ _ hj, hok]

theorem exec_dbgmem_of_reach (write : Bool) (v : Word) (hj : Slice0.Jtag s 2)
    (hreach : dbgReach (Slice0.jtagIr s 0x31) a.toNat = true) :
    exec (.dbgmem a write v) s = .next (if write then guardPut (Slice0.jtagIr s 0x31) (tgaMem a.toNat) (dBytes 8 v.toNat)
      else setTdo (Slice0.jtagIr s 0x31) [dNat ((Slice0.jtagIr s 0x31).readMem (tgaMem a.toNat) 8)]) := by
  simp [exec_dbgmem, execDbgmem, jtag_of_allowed _ _ hj, hreach, sealTga_of_dbgReach hreach]

end Commands

/-! ### Halting and resuming tiles and stewards (R55, R142, R541) -/

section Halt

variable {s : State} {r : Requester} {t : TileId} {w : StwId}

/-- A control bit that passes acts on the state without its writer's held half. -/
theorem rowGate_of_open {b : BlockRef} (f : State → State) (h : Slice0.Open s r b) :
    rowGate s r b f = f (dropHalf s r) := by
  obtain ⟨hhost, hown, hshut, habsent, hfenced⟩ := h
  cases r with
  | fn g => simp [rowGate, hostGate, hhost g rfl, hown, blkWrite, hshut, habsent, hfenced]
  | hub | mgmt | jtag | stw w => simp [rowGate, hostGate, hown, blkWrite, hshut, habsent, hfenced]

/-- Debug acts as the hub on clusters (R565). -/
theorem mayCl_jtag (s : State) (ch c : Nat) : mayCl s .jtag ch c = true := rfl

/-- Two changes of a steward that agree on what it is now. -/
theorem setStw_congr {s : State} {ch c w : Nat} {f f' : Stw → Stw} (h : f (s.stw ch c w) = f' (s.stw ch c w)) :
    setStw s ch c w f = setStw s ch c w f' := by
  simp only [State.stw] at h
  simp only [setStw, State.setClu, h]

theorem execTlCtrlHalt_of_open (ho : Slice0.Open s r (.tl t)) (hm : mayCl (dropHalf s r) r t.c.ch t.c.cl = true) :
    execTlCtrlHalt r t s = .next ((dropHalf s r).fset Fld.TL_CTRL_HALT (tlLoc t.c.ch t.c.cl t.t) 0 1) := by
  simp [execTlCtrlHalt, rowGate_of_open _ ho, tlWrite, hm]

/-- A halted tile that neither steps nor has ended goes on at its `PC`. -/
theorem execTlCtrlResume_of_open (ho : Slice0.Open s r (.tl t)) (hm : mayCl (dropHalf s r) r t.c.ch t.c.cl = true)
    (hst : tileSt (dropHalf s r) t = tHalted) (hstep : ((dropHalf s r).tl t.c.ch t.c.cl t.t).stepping = false)
    (hend : ((dropHalf s r).tl t.c.ch t.c.cl t.t).ended = false) :
    execTlCtrlResume r t s = .next (((dropHalf s r).fset Fld.TL_STATUS_STATE (tlLoc t.c.ch t.c.cl t.t) 0 tRun).setTl
      t.c.ch t.c.cl t.t fun x => { x with ended := false }) := by
  simp only [execTlCtrlResume, rowGate_of_open _ ho, tlWrite, hm, if_true, hst, hstep, hend]
  simp

theorem execClStwCtrlHalt_of_open (ho : Slice0.Open s r (.cl w.c)) (hm : mayCl (dropHalf s r) r w.c.ch w.c.cl = true) :
    execClStwCtrlHalt r w s = .next ((dropHalf s r).fset Fld.CL_STWn_CTRL_HALT (clLoc w.c.ch w.c.cl) w.w 1) := by
  simp [execClStwCtrlHalt, rowGate_of_open _ ho, stwWrite, hm]

theorem execClStwCtrlResume_of_open (ho : Slice0.Open s r (.cl w.c)) (hm : mayCl (dropHalf s r) r w.c.ch w.c.cl = true)
    (hst : ((dropHalf s r).stw w.c.ch w.c.cl w.w).st = wHalted) :
    execClStwCtrlResume r w s = .next (setStw (dropHalf s r) w.c.ch w.c.cl w.w fun x => { x with st := wRun }) := by
  rw [← setStw_congr (f := fun x => if x.st = wHalted then { x with st := wRun } else x) (if_pos hst)]
  simp [execClStwCtrlResume, rowGate_of_open _ ho, stwWrite, hm]

/-- `DBGHALT` of a tile is `TL_CTRL`'s bit written by JTAG. -/
theorem exec_dbghalt_tile (resume : Bool) (hj : Slice0.Jtag s 2) :
    exec (.dbghalt (.tile t) resume) s =
      .next (after (if resume then execTlCtrlResume .jtag t (Slice0.jtagIr s 0x32)
        else execTlCtrlHalt .jtag t (Slice0.jtagIr s 0x32)) (Slice0.jtagIr s 0x32)) := by
  rw [exec_dbghalt, execDbghalt, jtag_of_allowed _ _ hj]

/-- `DBGHALT` of a steward is `CL_STWn_CTRL`'s bit written by JTAG. -/
theorem exec_dbghalt_stw (resume : Bool) (hj : Slice0.Jtag s 2) :
    exec (.dbghalt (.stw w) resume) s =
      .next (after (if resume then execClStwCtrlResume .jtag w (Slice0.jtagIr s 0x32)
        else execClStwCtrlHalt .jtag w (Slice0.jtagIr s 0x32)) (Slice0.jtagIr s 0x32)) := by
  rw [exec_dbghalt, execDbghalt, jtag_of_allowed _ _ hj]

end Halt

/-- Settles O1: each command comes to its access by one of the ways above, and the access does what the part of the register that
it names says. -/
theorem registerAccessesComplete : Obligations.RegisterAccessesComplete := by
  refine ⟨fun s r q a n v g i hq h => ?_, fun s r q a v g i hq h => ?_, fun s r q a v g i x hq h hx hwr hplace => ?_,
    fun s r q a n v hq hreach hshut habsent hfn hpart => ?_, fun s r q a n g i hr hq ht h => ?_,
    fun s f q a n g i hq ht h => ?_, fun s f c n hp hready hf => ?_, fun s a x g i hx hok ht h => ?_,
    fun s a v x g i hx hok hmay h => ?_, fun s a x g i hj hx hok ht h => ?_, fun s a v x g i hj hx hok h => ?_,
    fun s a v hj hreach => ⟨?_, ?_⟩, fun s t hj ho => ⟨?_, fun hst hstep hend => ?_⟩, fun s w hj ho => ⟨?_, fun hst => ?_⟩⟩
  · rw [exec_registerWrite_of_names n v hq, regWrite_full _ h]
  · rw [exec_registerWrite_of_names 4 v hq, regWrite_lower _ h]
  · rw [exec_registerWrite_of_names 4 v hq, regWrite_upper_held _ h hx hwr hplace]
  · rw [exec_registerWrite_of_names n v hq, regWrite_bad _ hreach hshut habsent hfn hpart]
  · rw [exec_registerRead_of_names n hr hq, regRead_full ht h]
  · rw [exec_registerRead_fn_of_names n hq, regRead_full ht h]; rfl
  · exact congrArg Host.Outcome.next (cfgRequest_of_ready _ hp hready hf)
  · rw [exec_regRead_of_ok hok, vendorRead_of_addr 8 hx, regRead_full ht h]; rfl
  · rw [exec_regWrite_of_ok v hok hx hmay, vendorWrite_of_addr 8 _ hx, regWrite_full _ h]
  · rw [exec_dbgregRd_of_ok hj hok, vendorRead_of_addr 8 hx, regRead_full ht h]; rfl
  · rw [exec_dbgregWr_of_ok v hj hok, vendorWrite_of_addr 8 _ hx, regWrite_full _ h]
  · exact exec_dbgmem_of_reach true v hj hreach
  · exact exec_dbgmem_of_reach false v hj hreach
  · rw [exec_dbghalt_tile false hj, execTlCtrlHalt_of_open ho (mayCl_jtag ..)]; rfl
  · rw [exec_dbghalt_tile true hj, execTlCtrlResume_of_open ho (mayCl_jtag ..) hst hstep hend]; rfl
  · rw [exec_dbghalt_stw false hj, execClStwCtrlHalt_of_open ho (mayCl_jtag ..)]; rfl
  · rw [exec_dbghalt_stw true hj, execClStwCtrlResume_of_open ho (mayCl_jtag ..) hst]; rfl

end Sys2Proof.Machine

/-! The block as a whole: every command is answered, and what reset leaves (R5). -/

namespace Sys2Proof.Machine

/-- Settles O55: the meaning of each command is `.next` of a function of the state, in every branch (log entry 7). -/
theorem everyCommandAnswers : Obligations.EveryCommandAnswers := by
  intro c s
  cases c <;> exact ⟨_, rfl⟩

/-- Right after reset a register reads its reset value (R5). -/
theorem regN_reset (r : Reg) (l i : Nat) : State.reset.regN r l i = (r.resetVal 1 l i).toNat := rfl

/-- Where no fuse sets the reset value, every copy of the register reads its table's. -/
theorem regN_reset_of_table {r : Reg} {l i : Nat} (h : r.resetVal 1 l i = BitVec.ofNat 64 r.tableReset) :
    State.reset.regN r l i = r.tableReset % 2 ^ 64 := by
  rw [regN_reset, h, BitVec.toNat_ofNat]

theorem fget_reset_of_table {f : Fld} {l i : Nat} (h : f.reg.resetVal 1 l i = BitVec.ofNat 64 f.reg.tableReset) :
    State.reset.fget f l i = bits (f.reg.tableReset % 2 ^ 64) f.lo f.w := by
  rw [State.fget, regN_reset_of_table h]

/-- Settles O57: the tables of the state list nothing after reset, and the registers named read what their tables give. Only
`HUB_PWRBUDGET` depends on the part. -/
theorem resetValues : Obligations.ResetValues := by
  refine ⟨rfl, fun _ => rfl, rfl, rfl, fun _ _ _ => rfl, fun _ _ _ => rfl, fun _ _ _ => rfl, fun _ => rfl,
    ?mode, ?addr, by decide, fun ch => ⟨?entries, ?lend, ?exp, ?split, ?order⟩, fun ch c w _ _ => ?halt⟩
  case mode | addr | entries | lend | exp | halt => rw [fget_reset_of_table rfl]; decide
  case split | order => rw [regN_reset_of_table rfl]; decide

end Sys2Proof.Machine

/-! The commands of the hub (R26, R32, R366, R485, R556): the mirror of capabilities, the notice of a retirement and loss of the PCIe
reference clock. -/

namespace Sys2Proof.Machine

section HubCommands

variable {s : State} {ch gone : Ch} {p : Nat × Nat}

theorem exec_hubCapsMirrorUpdate : exec (.hubCapsMirrorUpdate ch) s = execHubCapsMirrorUpdate ch s := rfl
theorem exec_retirementNotice : exec (.retirementNotice ch gone) s = execRetirementNotice ch gone s := rfl
theorem exec_pcieRefclkLoss : exec .pcieRefclkLoss s = execPcieRefclkLoss s := rfl

/-- A field read after another register was written. -/
theorem fget_setReg_other (s : State) (r : Reg) (g : Fld) (l i m j v : Nat) (h : g.reg.place m j ≠ r.place l i) :
    (s.setReg r l i v).fget g m j = s.fget g m j := by
  simp only [State.fget, State.regN, reg_setReg_other _ _ _ _ _ _ _ _ h]

/-- The hub's mirror is a register of its own: writing it leaves the channel's count of changes (R31, R32). -/
theorem fget_capsGen_setReg_mirror (s : State) (ch : Ch) (v : Nat) :
    (s.setReg .HUB_CHCAPSn 0 ch v).fget Fld.CH_CAPS_CAPS_GEN ch = s.fget Fld.CH_CAPS_CAPS_GEN ch := by
  have distinct : ¬ (Fld.CH_CAPS_CAPS_GEN.reg.ctorIdx = Reg.HUB_CHCAPSn.ctorIdx ∧ ch.val = 0 ∧ 0 = ch.val) :=
    fun h => absurd h.1 (by decide)
  exact fget_setReg_other _ _ _ _ _ _ _ _ (place_ne _ _ _ _ _ _ (by omega) (by decide) (by decide) (by omega) distinct)

/-- The oldest change of a channel that waits leaves the list and is reported with the channel's present `CAPS_GEN`. -/
theorem reportCap_of_find (h : s.hub.capsWait.find? (fun p => decide (p.1 = ch.val)) = some p) :
    reportCap s ch = postGranted { s with hub := { s.hub with capsWait := s.hub.capsWait.erase p } } ch 3 p.2
      (s.fget Fld.CH_CAPS_CAPS_GEN ch) := by
  simp only [reportCap, h]

/-- Where a change waits, the mirror is brought up to date before the change is reported (R32). -/
theorem exec_hubCapsMirrorUpdate_of_find (h : s.hub.capsWait.find? (fun p => decide (p.1 = ch.val)) = some p) :
    exec (.hubCapsMirrorUpdate ch) s = .next (reportCap (s.setReg .HUB_CHCAPSn 0 ch (s.regN .CH_CAPS ch)) ch) := by
  have waits : s.hub.capsWait.any (fun p => decide (p.1 = ch.val)) = true := by
    rw [List.any_eq_true, ← List.find?_isSome, h, Option.isSome_some]
  simp only [exec_hubCapsMirrorUpdate, execHubCapsMirrorUpdate, waits, if_true]

/-- Where the survivor has the notice, it is used up and taken (R26, R485). -/
theorem exec_retirementNotice_of_mem (h : (ch.val, gone.val) ∈ s.hub.notices) :
    exec (.retirementNotice ch gone) s =
      .next (noticeTaken { s with hub := { s.hub with notices := s.hub.notices.erase (ch.val, gone.val) } } ch gone) := by
  simp only [exec_retirementNotice, execRetirementNotice, List.contains_iff_mem.2 h, if_true]

/-- Where the port is ready, loss of its reference clock resets it (R366, R556). -/
theorem exec_pcieRefclkLoss_of_ready (h : s.port.ready = true) : exec .pcieRefclkLoss s = .next (portReset s) := by
  simp only [exec_pcieRefclkLoss, execPcieRefclkLoss, h, if_true]

end HubCommands

/-- Settles O7: each command does its work where its condition holds. The report of a change carries the `CAPS_GEN` of the channel itself,
which the copy into the mirror has left as it was (R32; log entries 56 and 67). -/
theorem hubCommandsComplete : Obligations.HubCommandsComplete := by
  refine ⟨fun s ch p waits => ?mirror, fun s ch gone noticed => ?notice, fun s ready => ?clock⟩
  case mirror =>
    have reported := reportCap_of_find (s := s.setReg .HUB_CHCAPSn 0 ch (s.regN .CH_CAPS ch)) waits
    rw [fget_capsGen_setReg_mirror] at reported
    rw [exec_hubCapsMirrorUpdate_of_find waits, reported]
    rfl
  case notice => exact exec_retirementNotice_of_mem noticed
  case clock => exact exec_pcieRefclkLoss_of_ready ready

end Sys2Proof.Machine

/-! Craong-T tiles (R46, R47, R55, R69, R111): what a read of a tile's registers finds after a firing, that every instruction fires when
its conditions hold, and control of a tile by its registers. -/

namespace Sys2Proof.Machine

/-! ### Fields of a tile's block -/

/-- Two registers of one block at one copy number lie in different places. -/
theorem place_ne_of_reg {q r : Reg} (l i : Nat) (h : q.ctorIdx ≠ r.ctorIdx) : q.place l i ≠ r.place l i := by
  simp only [Reg.place]; omega

/-- A field of another register of the same block. -/
theorem fget_fset_reg (s : State) {f g : Fld} (l i v : Nat) (h : g.reg.ctorIdx ≠ f.reg.ctorIdx) :
    (s.fset f l i v).fget g l i = s.fget g l i :=
  fget_fset_other _ _ _ _ _ _ _ _ (place_ne_of_reg l i h)

/-- The same where the write depends on a condition. -/
theorem fget_ite_fset_reg (s : State) {f g : Fld} {p : Prop} [Decidable p] (l i v : Nat) (h : g.reg.ctorIdx ≠ f.reg.ctorIdx) :
    (if p then s.fset f l i v else s).fget g l i = s.fget g l i := by
  split
  · exact fget_fset_reg s l i v h
  · rfl

theorem fits_of_le {f : Fld} (h : f.lo + f.w ≤ 64) : f.fits := h

theorem clLoc_lt (c : Cl) : clLoc c.ch c.cl < 2 ^ 24 := by
  have := c.ch.isLt; have := c.cl.isLt
  simp only [clLoc]; omega

theorem loc_lt (id : TileId) : Slice0.loc id < 2 ^ 24 := by
  have := id.c.ch.isLt; have := id.c.cl.isLt; have := id.t.isLt
  simp only [Slice0.loc, tlLoc, clLoc]; omega

section Views

variable (s : State) (id : TileId)

/-- Counting an event leaves the registers of a tile's block, which are not among the counters. -/
theorem fget_pmCount_tile (g : Fld) (ev cl n : Nat) (h : g.reg.ctorIdx ≠ Reg.CH_PMCn.ctorIdx) :
    (pmCount s id.c.ch ev cl n).fget g (Slice0.loc id) = s.fget g (Slice0.loc id) := by
  have := id.c.ch.isLt
  simp only [State.fget, State.regN, pmCount_reg s id.c.ch ev cl n g.reg (Slice0.loc id) 0 fun i hi =>
    place_ne _ _ _ _ _ _ (loc_lt id) (by omega) (by decide) (by omega) fun e => h e.1]

/-- Progress of the cluster leaves them too. -/
theorem fget_progress_tile (g : Fld) (h : g.reg.ctorIdx ≠ Reg.CL_SIDSTAT.ctorIdx) :
    (progress s id.c.ch id.c.cl).fget g (Slice0.loc id) = s.fget g (Slice0.loc id) := by
  simp only [State.fget, State.regN, progress_reg s id.c.ch id.c.cl g.reg (Slice0.loc id) 0
    (place_ne _ _ _ _ _ _ (loc_lt id) (clLoc_lt id.c) (by decide) (by decide) fun e => h e.1)]

theorem tl_pmCount (ev cl n ch c t : Nat) (ch' : Nat) : (pmCount s ch' ev cl n).tl ch c t = s.tl ch c t := by
  rw [pmCount_only]; rfl

theorem tl_progress (ch c ch' c' t : Nat) : (progress s ch c).tl ch' c' t = s.tl ch' c' t := by
  rw [progress_only]; rfl

end Views

/-! ### The registers of a tile after a firing -/

theorem tlLoc_eq_loc (id : TileId) : tlLoc id.c.ch id.c.cl id.t = Slice0.loc id := rfl

section Fired

variable (s : State) (id : TileId) (o : TOp) (ins : TInstr) (t : Tile) (fl : Flags) (bad halt : Bool)

theorem fget_state_firedRegs : (firedRegs s id.c.ch id.c.cl id.t o ins t fl bad halt).fget Fld.TL_STATUS_STATE (Slice0.loc id) =
    if halt = true then tHalted else tRun := by
  simp only [firedRegs, State.fadd, tlLoc_eq_loc]
  rw [fget_pmCount_tile _ _ _ _ _ _ (by decide), fget_fset_reg _ _ _ _ (by decide), fget_ite_fset_reg _ _ _ _ (by decide),
    fget_fset_same _ _ _ _ _ (fits_of_le (by decide))]
  cases halt <;> rfl

theorem fget_fired_firedRegs : (firedRegs s id.c.ch id.c.cl id.t o ins t fl bad halt).fget Fld.TL_FIRECNT_FIRED (Slice0.loc id) =
    min (s.fget Fld.TL_FIRECNT_FIRED (Slice0.loc id) + 1) (2 ^ 64 - 1) := by
  simp only [firedRegs, State.fadd, tlLoc_eq_loc]
  rw [fget_pmCount_tile _ _ _ _ _ _ (by decide), fget_fset_same _ _ _ _ _ (fits_of_le (by decide)),
    fget_ite_fset_reg _ _ _ _ (by decide), fget_fset_reg _ _ _ _ (by decide), fget_fset_reg _ _ _ _ (by decide),
    fget_ite_fset_reg _ _ _ _ (by decide), fget_fset_reg _ _ _ _ (by decide)]
  exact Nat.mod_eq_of_lt (Nat.lt_of_le_of_lt (Nat.min_le_right _ _) (by decide))

theorem fget_pc_firedRegs : (firedRegs s id.c.ch id.c.cl id.t o ins t fl bad halt).fget Fld.TL_STATUS_PC (Slice0.loc id) =
    nextPc o ins t (s.fget Fld.TL_STATUS_PC (Slice0.loc id)) (laneOf (vreg t ins.dst).val 0) % 2 ^ 8 := by
  simp only [firedRegs, State.fadd, tlLoc_eq_loc]
  rw [fget_pmCount_tile _ _ _ _ _ _ (by decide), fget_fset_reg _ _ _ _ (by decide), fget_ite_fset_reg _ _ _ _ (by decide),
    fget_fset_field _ _ _ _ _ _ (fits_of_le (by decide)) (by rfl) (by decide), fget_fset_same _ _ _ _ _ (fits_of_le (by decide))]
  rfl

theorem tl_firedRegs (ch c n : Nat) : (firedRegs s id.c.ch id.c.cl id.t o ins t fl bad halt).tl ch c n = s.tl ch c n := by
  simp only [firedRegs, tl_pmCount, fadd_tl_view]
  cases bad <;> cases halt <;> rfl

end Fired

/-! ### Firing where the conditions of R46 hold -/

/-- The tile after an instruction that fires under no take. -/
def firedAlone (s : State) (id : TileId) (o : TOp) (ins : TInstr) (alu : AluIn → AluOut) : Tile :=
  let t := s.tl id.c.ch id.c.cl id.t
  let x := aluInput s (Slice0.loc id) o ins t
  firedTile o ins x (alu x) ((readsOf o ins t).any Opd.psn) none (meetsGone o ins t) t

/-- What follows the writes of a firing: a tile that has consumed tokens is progress of its cluster (R262), and its district has worked
(R463). -/
def afterFiring (id : TileId) (consumes : Bool) (s : State) : State :=
  districtBusy (if consumes = true then progress s id.c.ch id.c.cl else s) id.c.ch (clDistrict id.c.cl)

section AfterFiring

variable (s : State) (id : TileId) (consumes : Bool)

theorem fget_afterFiring (g : Fld) (h : g.reg.ctorIdx ≠ Reg.CL_SIDSTAT.ctorIdx) :
    (afterFiring id consumes s).fget g (Slice0.loc id) = s.fget g (Slice0.loc id) := by
  cases consumes
  · rfl
  · exact fget_progress_tile s id g h

theorem tl_afterFiring (ch c n : Nat) : (afterFiring id consumes s).tl ch c n = s.tl ch c n := by
  cases consumes
  · rfl
  · exact tl_progress ..

end AfterFiring

section Ready

variable {s : State} {id : TileId} {o : TOp} {ins : TInstr}

/-- A ready tile fires (R46): its registers take the instruction's marks, and the tile what it computes. -/
theorem fireTile_of_ready (h : Slice0.TileReady s id o ins) (alu : AluIn → AluOut) :
    fireTile s id o alu = afterFiring id (!(eatenBy o ins (s.tl id.c.ch id.c.cl id.t)).isEmpty)
      (firedRegs (s.setTl id.c.ch id.c.cl id.t fun _ => firedAlone s id o ins alu) id.c.ch id.c.cl id.t o ins
        (firedAlone s id o ins alu) (alu (aluInput s (Slice0.loc id) o ins (s.tl id.c.ch id.c.cl id.t))).fl
        ((readsOf o ins (s.tl id.c.ch id.c.cl id.t)).any Opd.psn)
        (decide (o = .end_) || (s.tl id.c.ch id.c.cl id.t).stepping)) := by
  obtain ⟨live, decodes, tokens, room, noTake⟩ := h
  simp [fireTile, live, decodes, fireWith, tokens, noTake, Nat.not_lt.2 room, afterFiring, firedAlone, tlLoc_eq_loc]

/-- The command of an instruction fires it, with a computation of its own in the lanes. -/
theorem exec_tileCommand (s : State) (id : TileId) (o : TOp) :
    ∃ alu, exec (Slice0.tileCommand o id) s = .next (fireTile s id o alu) := by
  cases o <;> exact ⟨_, rfl⟩

/-- An instruction that does not steer goes on at the next slot (R71). -/
theorem nextPc_of_not_steering (t : Tile) (pc n : Nat) (hend : o ≠ .end_) (hjmp : o ≠ .jmp) (hbr : o ≠ .br) (hloop : o ≠ .loop) :
    nextPc o ins t pc n = (pc + 1) % 256 := by
  cases o with
  | end_ => exact absurd rfl hend
  | jmp => exact absurd rfl hjmp
  | br => exact absurd rfl hbr
  | loop => exact absurd rfl hloop
  | _ => rfl

end Ready

/-- Settles O2: whatever the instruction computes, the tile's registers take the marks of a firing. -/
theorem tileInstructionsFire : Obligations.TileInstructionsFire := by
  intro o s id ins ready
  obtain ⟨alu, fires⟩ := exec_tileCommand s id o
  rw [fireTile_of_ready ready] at fires
  refine ⟨_, fires, ?state, ?stepping, ?count, fun hend hjmp hbr hloop => ?pc⟩
  case state =>
    rw [fget_afterFiring _ _ _ _ (by decide), fget_state_firedRegs]
    simp
  case stepping => rw [tl_afterFiring, tl_firedRegs, tl_setTl_same]; rfl
  case count => rw [fget_afterFiring _ _ _ _ (by decide), fget_fired_firedRegs, setTl_fget_view]
  case pc =>
    rw [fget_afterFiring _ _ _ _ (by decide), fget_pc_firedRegs, setTl_fget_view,
      nextPc_of_not_steering _ _ _ hend hjmp hbr hloop]
    exact Nat.mod_mod _ 256

end Sys2Proof.Machine

/-! Control of a tile by its registers (R55, R69, R111). -/

namespace Sys2Proof.Machine

section TileControl

variable {s : State} {r : Requester} {t : TileId}

/-- A write that passes to a tile's block acts on the state without its writer's held half. -/
theorem tlGate_of_open (f : Nat → State → State) (ho : Slice0.Open s r (.tl t))
    (hm : mayCl (dropHalf s r) r t.c.ch t.c.cl = true) :
    (rowGate s r (.tl t) fun s => tlWrite s r t f) = f (Slice0.loc t) (dropHalf s r) := by
  rw [rowGate_of_open _ ho, tlWrite, if_pos hm]; rfl

theorem exec_tlCtrlHalt : exec (.tlCtrlHalt r t) s = execTlCtrlHalt r t s := rfl
theorem exec_tileHaltEffect : exec (.tileHaltEffect t) s = execTileHaltEffect t s := rfl
theorem exec_tlCtrlResume : exec (.tlCtrlResume r t) s = execTlCtrlResume r t s := rfl
theorem exec_tlCtrlStep : exec (.tlCtrlStep r t) s = execTlCtrlStep r t s := rfl
theorem exec_tlRngseedWrite (v : Word) : exec (.tlRngseedWrite r t v) s = execTlRngseedWrite r t v s := rfl
theorem exec_tileReservedEncoding : exec (.tileReservedEncoding t) s = execTileReservedEncoding t s := rfl

/-- The state in which a halted tile stands at the slot where it goes on, the next one after an `END` (R74). -/
def pastEnd (s : State) (t : TileId) : State :=
  if (s.tl t.c.ch t.c.cl t.t).ended = true then
    s.fset Fld.TL_STATUS_PC (Slice0.loc t) 0 ((s.fget Fld.TL_STATUS_PC (Slice0.loc t) + 1) % 256)
  else s

theorem pastEnd_mem (s : State) (t : TileId) : (pastEnd s t).mem = s.mem := by
  unfold pastEnd; split <;> rfl

theorem tl_pastEnd (s : State) (t : TileId) (ch c n : Nat) : (pastEnd s t).tl ch c n = s.tl ch c n := by
  unfold pastEnd; split <;> rfl

theorem fget_pc_pastEnd (s : State) (t : TileId) : (pastEnd s t).fget Fld.TL_STATUS_PC (Slice0.loc t) =
    if (s.tl t.c.ch t.c.cl t.t).ended = true then (s.fget Fld.TL_STATUS_PC (Slice0.loc t) + 1) % 256
    else s.fget Fld.TL_STATUS_PC (Slice0.loc t) := by
  unfold pastEnd
  split
  · rw [fget_fset_same _ _ _ _ _ (fits_of_le (by decide))]; exact Nat.mod_mod _ 256
  · rfl

theorem tileSt_pastEnd (s : State) (t : TileId) : tileSt (pastEnd s t) t = tileSt s t := by
  unfold pastEnd
  split
  · exact fget_fset_field _ _ _ _ _ _ (fits_of_le (by decide)) rfl (by decide)
  · rfl

theorem exec_tileHaltEffect_of_asked (asked : s.fbit Fld.TL_CTRL_HALT (Slice0.loc t) = true)
    (live : tileSt s t = tReady ∨ tileSt s t = tRun) (clock : arrayClock s t.c.ch t.c.cl = true) :
    exec (.tileHaltEffect t) s =
      .next (((s.fset Fld.TL_STATUS_STATE (Slice0.loc t) 0 tHalted).fset Fld.TL_CTRL_HALT (Slice0.loc t) 0 0).setTl t.c.ch t.c.cl t.t
        fun x => { x with ended := false }) :=
  congrArg Host.Outcome.next (if_pos ⟨asked, live, clock⟩)

theorem exec_tlCtrlResume_of_halted (ho : Slice0.Open s r (.tl t)) (hm : mayCl (dropHalf s r) r t.c.ch t.c.cl = true)
    (hst : tileSt s t = tHalted) (hstep : (s.tl t.c.ch t.c.cl t.t).stepping = false) :
    exec (.tlCtrlResume r t) s =
      .next (((pastEnd (dropHalf s r) t).fset Fld.TL_STATUS_STATE (Slice0.loc t) 0 tRun).setTl t.c.ch t.c.cl t.t
        fun x => { x with ended := false }) := by
  have acts : tileSt (dropHalf s r) t = tHalted ∧ ¬ ((dropHalf s r).tl t.c.ch t.c.cl t.t).stepping = true :=
    ⟨hst, by simp [hstep]⟩
  rw [exec_tlCtrlResume, execTlCtrlResume, tlGate_of_open _ ho hm, if_pos acts]
  rfl

theorem exec_tlCtrlStep_of_halted (ho : Slice0.Open s r (.tl t)) (hm : mayCl (dropHalf s r) r t.c.ch t.c.cl = true)
    (hst : tileSt s t = tHalted) (hstep : (s.tl t.c.ch t.c.cl t.t).stepping = false) :
    exec (.tlCtrlStep r t) s =
      .next ((pastEnd (dropHalf s r) t).setTl t.c.ch t.c.cl t.t fun x => { x with ended := false, stepping := true }) := by
  have acts : tileSt (dropHalf s r) t = tHalted ∧ ¬ ((dropHalf s r).tl t.c.ch t.c.cl t.t).stepping = true :=
    ⟨hst, by simp [hstep]⟩
  rw [exec_tlCtrlStep, execTlCtrlStep, tlGate_of_open _ ho hm, if_pos acts]
  rfl

end TileControl

/-- Settles O6: each write or event acts where its gate and its condition hold. RESUME and STEP first pass the slot of an END (R74), which
leaves `STATE` as it was. -/
theorem tileControlCompletes : Obligations.TileControlCompletes := by
  refine ⟨fun s r t ho hm => ?halt, fun s t asked live clock => ?effect, fun s r t ho hm hst hstep => ?resume,
    fun s r t ho hm hst hstep => ?step, fun s r t v ho hm hst => ?seed, fun s t live reserved => ?reserved⟩
  case halt => exact execTlCtrlHalt_of_open ho hm
  case effect =>
    refine ⟨_, exec_tileHaltEffect_of_asked asked live clock, ?_, ?_, ?_, rfl⟩
    · rw [tileSt, tlLoc_eq_loc, setTl_fget_view, fget_fset_reg _ _ _ _ (by decide),
        fget_fset_same _ _ _ _ _ (fits_of_le (by decide))]
      rfl
    · exact decide_eq_false (not_not.2 (fget_fset_same _ _ _ _ _ (fits_of_le (by decide))))
    · rw [setTl_fget_view, fget_fset_reg _ _ _ _ (by decide),
        fget_fset_field _ _ _ _ _ _ (fits_of_le (by decide)) (by rfl) (by decide)]
  case resume =>
    refine ⟨_, exec_tlCtrlResume_of_halted ho hm hst hstep, ?_, ?_, ?_⟩
    · exact fget_fset_same _ _ _ _ _ (fits_of_le (by decide))
    · rw [setTl_fget_view, fget_fset_field _ _ _ _ _ _ (fits_of_le (by decide)) (by rfl) (by decide), fget_pc_pastEnd]
      rfl
    · exact pastEnd_mem ..
  case step =>
    refine ⟨_, exec_tlCtrlStep_of_halted ho hm hst hstep, ?_, ?_, ?_⟩
    · exact (tileSt_pastEnd ..).trans hst
    · rw [tl_setTl_same]
    · exact pastEnd_mem ..
  case seed =>
    rw [exec_tlRngseedWrite, execTlRngseedWrite, tlGate_of_open _ ho hm]
    exact congrArg Host.Outcome.next (if_pos hst)
  case reserved =>
    rw [exec_tileReservedEncoding, execTileReservedEncoding, live, reserved]
    rfl

end Sys2Proof.Machine

/-! The mesh, the depot banks, the stacks and the transaction table (R51, R177, R191 to R194). -/

namespace Sys2Proof.Machine

/-- The first position of a range at which a search finds something. -/
theorem findSome?_range_of_first {α : Type} {f : Nat → Option α} {n i : Nat} {a : α} (hi : i < n) (ha : f i = some a)
    (before : ∀ j, j < i → f j = none) : (List.range n).findSome? f = some a := by
  induction n with
  | zero => omega
  | succ n ih =>
    rw [List.range_succ, List.findSome?_append]
    rcases Nat.lt_or_ge i n with h | h
    · rw [ih h]; rfl
    · obtain rfl : i = n := by omega
      rw [List.findSome?_eq_none_iff.2 fun j hj => before j (List.mem_range.1 hj)]
      simp [ha]

section Fabric

variable {s : State}

theorem exec_gatewayMeshHop {c : Cl} {inp : Fin 9} : exec (.gatewayMeshHop c inp) s = execGatewayMeshHop c inp s := rfl
theorem exec_depotBankGrant {c : Cl} {bank : Fin 32} : exec (.depotBankGrant c bank) s = execDepotBankGrant c bank s := rfl
theorem exec_stackSlotGrant {ch : Ch} {site : Fin 4} : exec (.stackSlotGrant ch site) s = execStackSlotGrant ch site s := rfl
theorem exec_ttEntryAssign {ch : Ch} : exec (.ttEntryAssign ch) s = execTtEntryAssign ch s := rfl
theorem exec_chBwsplitCommit {r : Requester} {ch : Ch} : exec (.chBwsplitCommit r ch) s = execChBwsplitCommit r ch s := rfl
theorem exec_bwsplitFrameBoundary {ch : Ch} {site : Fin 4} :
    exec (.bwsplitFrameBoundary ch site) s = execBwsplitFrameBoundary ch site s := rfl

section Mesh

variable {c : Cl} {inp : Fin 9} {r : Req} {l : List Req} (hclock : clocked s c.ch c.cl = true)
  (hq : meshQueue s c.ch c.cl inp = r :: l) (hunits : r.units = []) (hgate : inp.val = 8 → gateOut s c.ch c.cl = true)
  (hgood : gwBad s c.ch c.cl inp r = false) (hback : readBack s c.ch c.cl r = r)

include hclock hunits hgate in
/-- Neither a stopped clock nor a siding nor the OUTPUTS gate holds the head. -/
theorem head_not_held : ¬ (!clocked s c.ch c.cl || (!r.units.isEmpty && !listed s c.ch r) ||
    (decide (inp.val = 8) && !gateOut s c.ch c.cl && decide (r.cl = c.cl) && !seqTraffic s c.ch r)) = true := by
  by_cases h : inp.val = 8
  · simp [hclock, hunits, hgate h]
  · simp [hclock, hunits, h]

include hclock hq hunits hgate hgood hback

/-- A head that has a next hop with room moves to it (R51). -/
theorem exec_gatewayMeshHop_of_room {k i : Nat} (hstep : stepToward c.cl r.dest = some (k, i))
    (hroom : beats s c.ch r ≤ meshRoom s c.ch k i) :
    exec (.gatewayMeshHop c inp) s = .next (moveReq (leaveMesh s c.ch r c.cl inp) c.ch r.no (.mesh k i)) := by
  rw [exec_gatewayMeshHop, execGatewayMeshHop]
  simp [hq, head_not_held hclock hunits hgate, hgood, hback, hstep, Nat.not_lt.2 hroom]

/-- A head of the own channel that has come to its cluster arrives (R51). -/
theorem exec_gatewayMeshHop_of_come (hstep : stepToward c.cl r.dest = none) (hown : remoteReq s c.ch r = false) :
    exec (.gatewayMeshHop c inp) s = .next (meshArrive s c.ch c.cl inp r) := by
  rw [exec_gatewayMeshHop, execGatewayMeshHop]
  simp [hq, head_not_held hclock hunits hgate, hgood, hback, hstep, hown]

end Mesh

section Banks

variable {c : Cl} {bank : Fin 32} {r : Req} {b : Nat} {u : State}

/-- A burst whose part is performed leaves what `bankDone` says. -/
theorem bankGrant_of_performed {ch c : Nat} (hfence : s.fbit Fld.CL_CAPS_FENCED (clLoc ch c) = false)
    (hpart : performPart (keepOwn s ch c r (inBlock 128 (tgaMem r.tga) r.len b).1 (inBlock 128 (tgaMem r.tga) r.len b).2) ch r
      (inBlock 128 (tgaMem r.tga) r.len b).1 (inBlock 128 (tgaMem r.tga) r.len b).2 = (u, true)) :
    bankGrant s ch c r b = Slice0.bankDone u ch c r b := by
  simp only [bankGrant, hfence, hpart]
  rfl

/-- A steward's access that waits is granted before any burst (R177). -/
theorem exec_depotBankGrant_of_steward (hcopy : depotCopying s c.ch c.cl bank = false)
    (hstw : bankStw s c.ch c.cl bank = some (r, b)) :
    exec (.depotBankGrant c bank) s = .next (bankGrant s c.ch c.cl r b) := by
  simp [exec_depotBankGrant, execDepotBankGrant, hcopy, hstw]

/-- Where no steward waits, the dolly or the gateway is granted in its turn (R177). -/
theorem exec_depotBankGrant_of_burst {src : Nat} (hcopy : depotCopying s c.ch c.cl bank = false)
    (hstw : bankStw s c.ch c.cl bank = none) (hturn : burstTurn s c.ch c.cl bank = some src) (hsrc : src = 16 ∨ src = 17)
    (hreq : bankReq (bankTook s c.ch c.cl bank src) c.ch c.cl bank
      (fun r => (r.bySteward c.cl).isNone && (r.byDolly c.cl == decide (src = 16))) = some (r, b)) :
    exec (.depotBankGrant c bank) s = .next (bankGrant (bankTook s c.ch c.cl bank src) c.ch c.cl r b) := by
  have notPort : ¬ src < 16 := by omega
  have notEngine : src ≠ 18 := by omega
  simp [exec_depotBankGrant, execDepotBankGrant, hcopy, hstw, hturn, notPort, notEngine, hreq]

end Banks

/-- What a requester of the transaction table takes an entry for, where one is free for it: its oldest request that waits (R191). -/
def ttNext (s : State) (ch q : Nat) : Option (Nat × Req) :=
  if ttFree s ch q = true then (ttWaiting s ch q).map fun r => (q, r) else none

/-- The first requester in turn that waits and may have an entry takes it (R191). -/
theorem exec_ttEntryAssign_of_first {ch : Ch} {i : Nat} {r : Req} (hi : i < 99)
    (before : ∀ j, j < i → ttNext s ch (((s.chan ch).ttPtr + j) % 99) = none)
    (hnext : ttNext s ch (((s.chan ch).ttPtr + i) % 99) = some (((s.chan ch).ttPtr + i) % 99, r)) :
    exec (.ttEntryAssign ch) s =
      .next (leaveTable (s.setChan ch fun k => { k with ttPtr := (((s.chan ch).ttPtr + i) % 99 + 1) % 99 }) ch r) := by
  have found : ((List.range 99).map fun i => ((s.chan ch).ttPtr + i) % 99).findSome? (ttNext s ch) =
      some (((s.chan ch).ttPtr + i) % 99, r) := by
    rw [List.findSome?_map]
    exact findSome?_range_of_first hi hnext before
  rw [exec_ttEntryAssign, execTtEntryAssign]
  unfold ttNext at found
  simp only [found]

section Split

variable {ch : Ch} {site : Fin 4} {r : Requester}

/-- A split whose shares are at least 1 and add up to 64 is committed (R192). -/
theorem exec_chBwsplitCommit_of_valid {w : Nat} (hw : s.regN .CH_BWSPLIT ch % 2 ^ 31 = w) (ho : Slice0.Open s r (.ch ch))
    (hm : maySup (dropHalf s r) r = true) (h0 : 0 < share w 0) (h1 : 0 < share w 1) (h2 : 0 < share w 2)
    (hsum : share w 0 + share w 1 + share w 2 = 64) :
    exec (.chBwsplitCommit r ch) s = .next (((dropHalf s r).setReg .CH_BWLIVE ch 0 w).setChan ch
      fun c => { c with splitWait := stackSites (dropHalf s r) ch }) := by
  have same : (dropHalf s r).regN .CH_BWSPLIT ch % 2 ^ 31 = w := hw
  have shares : (List.range 3).all (fun k => decide (0 < share w k)) = true := by simp [List.range_succ, h0, h1, h2]
  rw [exec_chBwsplitCommit, execChBwsplitCommit, rowGate_of_open _ ho]
  simp only [same, hm, shares, hsum]
  rfl

/-- A site that waits applies the split at its frame boundary (R192). -/
theorem exec_bwsplitFrameBoundary_of_mem (h : site.val ∈ (s.chan ch).splitWait) :
    exec (.bwsplitFrameBoundary ch site) s = .next (s.setChan ch fun c =>
      { c with split := SMap.put c.split site (s.regN .CH_BWLIVE ch % 2 ^ 25), credit := SMap.put c.credit site [0, 0, 0],
               splitWait := c.splitWait.filter (· ≠ site.val) }) := by
  rw [exec_bwsplitFrameBoundary, execBwsplitFrameBoundary, if_pos (List.contains_iff_mem.2 h)]

end Split

end Fabric

/-- Settles O10: each command grants what its turn and its conditions give. At a bank one command grants one request, a steward's
first (log entry 81). -/
theorem fabricCommandsComplete : Obligations.FabricCommandsComplete := by
  refine ⟨fun s c inp r l hclock hq hunits hgate hgood hback => ⟨fun k i hstep hroom => ?hop, fun hstep hown => ?arrive⟩,
    fun s c bank r b u hcopy hstw hfence => ?steward,
    fun s c bank src r b u hcopy hstw hturn hsrc => ?burst, fun s ch site credit k q r g => ?slot,
    fun s ch i r hi => ?entry, fun s r ch => ?commit, fun s ch site waits => ?frame⟩
  case hop => exact exec_gatewayMeshHop_of_room hclock hq hunits hgate hgood hback hstep hroom
  case arrive => exact exec_gatewayMeshHop_of_come hclock hq hunits hgate hgood hback hstep hown
  case steward =>
    intro lo n hpart
    rw [exec_depotBankGrant_of_steward hcopy hstw, bankGrant_of_performed hfence hpart]
  case burst =>
    intro t hreq hfence lo n hpart
    rw [exec_depotBankGrant_of_burst hcopy hstw hturn hsrc hreq, bankGrant_of_performed hfence hpart]
  case slot =>
    intro s' p t hpick hport hleft
    simp only [exec_stackSlotGrant, execStackSlotGrant, hpick]
    rw [hport]
    simp only
    rw [hleft]
  case entry =>
    intro q before hfree hwait
    refine exec_ttEntryAssign_of_first hi (fun j hj => ?_) ?_
    · rw [ttNext]
      split
      · next free => rw [before j hj free]; rfl
      · rfl
    · rw [ttNext, if_pos hfree, hwait]; rfl
  case commit =>
    intro w ho hm h0 h1 h2 hsum
    refine ⟨_, exec_chBwsplitCommit_of_valid rfl ho hm h0 h1 h2 hsum, ?_, ?_⟩
    · rw [State.regN, setChan_reg_view, reg_setReg_same, BitVec.toNat_ofNat]
      exact Nat.mod_eq_of_lt (Nat.lt_trans (Nat.mod_lt _ (by decide)) (by decide))
    · rw [chan_setChan_same]; rfl
  case frame =>
    refine ⟨_, exec_bwsplitFrameBoundary_of_mem waits, ?_, ?_⟩
    · rw [chan_setChan_same, SMap.get?_put_same]
    · rw [chan_setChan_same]; simp

end Sys2Proof.Machine

/-! What a tile instruction writes and leaves (R66, R67, R74, R76, R78): the frame of a firing, its lanes, and its program counter. -/

namespace Sys2Proof.Machine

/-! ### Lanes of a vector register -/

theorem getD_map_range {α : Type} (f : Nat → α) (d : α) {i : Nat} (hi : i < 32) : ((List.range 32).map f).getD i d = f i := by
  rw [List.getD_eq_getElem _ _ (by simpa using hi), List.getElem_map, List.getElem_range]

/-- Packed 16-bit lanes are the digits of a number to base 2^16. -/
theorem packLanes_eq_ofDigits (l : List Nat) : packLanes 16 l = Nat.ofDigits (2 ^ 16) (l.map (· % 2 ^ 16)) := by
  induction l using List.reverseRecOn with
  | nil => rfl
  | append_singleton l a ih =>
    have step : packLanes 16 (l ++ [a]) = packLanes 16 l + a % 2 ^ 16 * 2 ^ (16 * l.length) := by
      simp [packLanes, List.range_succ, List.zip_append]
    rw [step, ih, List.map_append, Nat.ofDigits_append, List.length_map, ← Nat.pow_mul, Nat.mul_comm]
    simp

theorem lt_of_mem_lanes (l : List Nat) : ∀ x ∈ l.map (· % 2 ^ 16), x < 2 ^ 16 := by
  simpa using fun _ _ => Nat.mod_lt _ (by decide)

/-- A word of as many bits holds all the lanes. -/
theorem toNat_packLanes {l : List Nat} {w : Nat} (hw : 16 * l.length = w) :
    (BitVec.ofNat w (packLanes 16 l)).toNat = packLanes 16 l := by
  rw [BitVec.toNat_ofNat, packLanes_eq_ofDigits, ← hw, Nat.pow_mul, ← List.length_map (as := l) (· % 2 ^ 16)]
  exact Nat.mod_eq_of_lt (Nat.ofDigits_lt_base_pow_length (by decide) (lt_of_mem_lanes l))

/-- A lane of packed lanes. -/
theorem laneOf_packLanes {l : List Nat} {i : Nat} (hl : l.length = 32) (hi : i < 32) :
    laneOf (BitVec.ofNat 512 (packLanes 16 l)) i = l.getD i 0 % 2 ^ 16 := by
  have hi' : i < (l.map (· % 2 ^ 16)).length := by simpa [hl] using hi
  rw [laneOf, bits, toNat_packLanes (by rw [hl]), Nat.shiftRight_eq_div_pow, Nat.pow_mul, packLanes_eq_ofDigits,
    Nat.ofDigits_div_pow_eq_ofDigits_drop _ (by decide) _ (lt_of_mem_lanes l), List.drop_eq_getElem_cons hi',
    Nat.ofDigits_cons]
  simp [hl, hi]

theorem laneOf_lt (v : BitVec 512) (i : Nat) : laneOf v i < 2 ^ 16 := bits_lt _ _ _

/-- A lane of a register after a write: the result where there is one, the old lane elsewhere (R66). -/
theorem laneOf_writeReg (r : VReg) (l : List (Option Nat)) (psn : Bool) (slot : Option (Fin 4)) {i : Nat} (hi : i < 32) :
    laneOf (writeReg r l psn slot).val i = (l.getD i none).getD (laneOf r.val i) % 2 ^ 16 := by
  simp only [writeReg]
  rw [laneOf_packLanes (by simp) hi, getD_map_range _ _ hi]

/-! ### Registers and rows of a tile -/

/-- Two tiles hold the same vector registers, predicates and scratch rows. -/
structure SameRegs (t u : Tile) : Prop where
  vregs : t.vregs = u.vregs
  pregs : t.pregs = u.pregs
  rows : t.rows = u.rows

namespace SameRegs

variable {t u v : Tile}

theorem refl (t : Tile) : SameRegs t t := ⟨rfl, rfl, rfl⟩

theorem trans (h : SameRegs t u) (k : SameRegs u v) : SameRegs t v :=
  ⟨h.vregs.trans k.vregs, h.pregs.trans k.pregs, h.rows.trans k.rows⟩

theorem vreg (h : SameRegs t u) (r : Nat) : vreg t r = vreg u r := by rw [Machine.vreg, h.vregs]; rfl
theorem preg (h : SameRegs t u) (r : Nat) : preg t r = preg u r := by rw [Machine.preg, h.pregs]; rfl
theorem srow (h : SameRegs t u) (r : Nat) : srow t r = srow u r := by rw [Machine.srow, h.rows]; rfl

theorem halts (h : SameRegs t u) (ended stepping : Bool) : SameRegs { t with ended := ended, stepping := stepping } u :=
  ⟨h.vregs, h.pregs, h.rows⟩

theorem foldl {α : Type} {f : Tile → α → Tile} (h : ∀ t a, SameRegs (f t a) t) (l : List α) (t : Tile) :
    SameRegs (l.foldl f t) t := by
  induction l generalizing t with
  | nil => exact refl t
  | cons a l ih => exact (ih (f t a)).trans (h t a)

theorem writeDst (h : SameRegs t u) (d : DUse) (dst : Nat) (l : List (Option Nat)) (psn : Bool) (slot : Option (Fin 4)) :
    SameRegs (writeDst t d dst l psn slot) (writeDst u d dst l psn slot) := by
  cases d <;> constructor <;> simp [Machine.writeDst, Machine.vreg, Machine.preg, h.vregs, h.pregs, h.rows]

theorem written (h : SameRegs t u) (o : TOp) (ins : TInstr) (row : Nat) (x : AluIn) (out : AluOut) (psn : Bool)
    (slot : Option (Fin 4)) : SameRegs (written o ins row x out psn slot t) (written o ins row x out psn slot u) := by
  have dst : SameRegs (if ins.wr then Machine.writeDst t (o.shape ins).d ins.dst out.lanes psn slot else t)
      (if ins.wr then Machine.writeDst u (o.shape ins).d ins.dst out.lanes psn slot else u) := by
    split
    · exact h.writeDst ..
    · exact h
  simp only [Machine.written]
  split
  · exact ⟨dst.vregs, dst.pregs, by simp only [dst.rows, dst.srow]⟩
  · exact dst

end SameRegs

theorem sameRegs_consumed (o : TOp) (ins : TInstr) (md : FMode) (t : Tile) : SameRegs (consumed o ins md t) t := by
  have eaten := SameRegs.foldl (f := fun (t : Tile) (e : Nat × Nat × List Flit) =>
    { t with tq := setLst t.tq e.1 e.2.2, retT := setCnt t.retT e.1 (cnt t.retT e.1 + e.2.1) })
    (fun _ _ => ⟨rfl, rfl, rfl⟩) (eatenBy o ins t) t
  simp only [consumed]
  split
  · exact ⟨eaten.vregs, eaten.pregs, eaten.rows⟩
  · exact eaten

theorem sameRegs_emitted (t : Tile) (fl : List Flit) : SameRegs (emitted t fl) t := by
  unfold emitted
  split <;> exact ⟨rfl, rfl, rfl⟩

theorem sameRegs_entered (o : TOp) (ins : TInstr) (t : Tile) : SameRegs (entered o ins t) t := by
  cases o <;> exact ⟨rfl, rfl, rfl⟩

/-- Of a firing, only the writes of the instruction reach the registers and rows. -/
theorem sameRegs_firedTile (o : TOp) (ins : TInstr) (x : AluIn) (out : AluOut) (psn : Bool) (slot : Option (Fin 4))
    (gone : Bool) (t : Tile) : SameRegs (firedTile o ins x out psn slot gone t)
      (written o ins (rowOf ins ((sourcesOf o ins t).getD 0 {})) x out psn slot t) := by
  have h := (sameRegs_consumed o ins x.md t).written o ins (rowOf ins ((sourcesOf o ins t).getD 0 {})) x out psn slot
  unfold firedTile
  exact (((sameRegs_entered o ins _).trans (sameRegs_emitted _ _)).trans h).halts _ _

/-! ### What the writes of an instruction leave -/

section Written

variable {t : Tile} {o : TOp} {ins : TInstr} {row : Nat} {x : AluIn} {out : AluOut} {psn : Bool} {slot : Option (Fin 4)}

theorem vreg_writeDst_other {d : DUse} {dst r : Nat} {l : List (Option Nat)} (hvec : d = .vec → r ≠ dst)
    (hpair : d = .pair → r ≠ dst ∧ r ≠ dst + 1) : vreg (writeDst t d dst l psn slot) r = vreg t r := by
  cases d with
  | none | pred => rfl
  | vec => exact SMap.get_put_other _ _ _ _ _ (hvec rfl)
  | pair =>
    obtain ⟨hlo, hhi⟩ := hpair rfl
    exact (SMap.get_put_other _ _ _ _ _ hhi).trans (SMap.get_put_other _ _ _ _ _ hlo)

theorem preg_writeDst_other {d : DUse} {dst r : Nat} {l : List (Option Nat)} (hpred : d = .pred → r ≠ dst) :
    preg (writeDst t d dst l psn slot) r = preg t r := by
  cases d with
  | none | vec | pair => rfl
  | pred => exact SMap.get_put_other _ _ _ _ _ (hpred rfl)

theorem srow_writeDst (d : DUse) (dst r : Nat) (l : List (Option Nat)) : srow (writeDst t d dst l psn slot) r = srow t r := by
  cases d <;> rfl

/-- The vector registers after the writes are those after the destination's: a store writes none. -/
theorem vreg_written (r : Nat) : vreg (written o ins row x out psn slot t) r =
    vreg (if ins.wr then writeDst t (o.shape ins).d ins.dst out.lanes psn slot else t) r := by
  simp only [written]
  cases isStore o <;> rfl

theorem preg_written (r : Nat) : preg (written o ins row x out psn slot t) r =
    preg (if ins.wr then writeDst t (o.shape ins).d ins.dst out.lanes psn slot else t) r := by
  simp only [written]
  cases isStore o <;> rfl

theorem vreg_written_vec (hwr : ins.wr = true) (hd : (o.shape ins).d = .vec) :
    vreg (written o ins row x out psn slot t) ins.dst = writeReg (vreg t ins.dst) out.lanes psn slot := by
  rw [vreg_written, if_pos hwr, hd]
  exact SMap.get_put_same _ _ _ _

theorem vreg_written_other {r : Nat} (hvec : ins.wr = true → (o.shape ins).d = .vec → r ≠ ins.dst)
    (hpair : ins.wr = true → (o.shape ins).d = .pair → r ≠ ins.dst ∧ r ≠ ins.dst + 1) :
    vreg (written o ins row x out psn slot t) r = vreg t r := by
  rw [vreg_written]
  split
  · next hwr => exact vreg_writeDst_other (hvec hwr) (hpair hwr)
  · rfl

theorem preg_written_other {r : Nat} (hpred : ins.wr = true → (o.shape ins).d = .pred → r ≠ ins.dst) :
    preg (written o ins row x out psn slot t) r = preg t r := by
  rw [preg_written]
  split
  · next hwr => exact preg_writeDst_other (hpred hwr)
  · rfl

theorem srow_written_other {r : Nat} (hrow : isStore o = true → r ≠ row) :
    srow (written o ins row x out psn slot t) r = srow t r := by
  have dst : srow (if ins.wr then writeDst t (o.shape ins).d ins.dst out.lanes psn slot else t) r = srow t r := by
    split
    · exact srow_writeDst ..
    · rfl
  simp only [written]
  split
  · next hstore => exact (SMap.get_put_other _ _ _ _ _ (hrow hstore)).trans dst
  · exact dst

end Written

/-! ### What a firing changes beside its tile -/

theorem Wakes.pmCount {s t : State} (h : Wakes s t) (ch ev cl n : Nat) : Wakes s (pmCount t ch ev cl n) :=
  h.trans ⟨_, t.dists, pmCount_only ..⟩

/-- Beside the tile, a firing changes registers and the district's mark of work. -/
theorem wakes_firedRegs (s : State) (ch c n : Nat) (o : TOp) (ins : TInstr) (t : Tile) (fl : Flags) (bad halt : Bool) :
    Wakes s (firedRegs s ch c n o ins t fl bad halt) := by
  have flags := (Wakes.refl s).fset Fld.TL_FLAGS_FLAGS (tlLoc ch c n) 0
    (s.fget Fld.TL_FLAGS_FLAGS (tlLoc ch c n) ||| fl.toNat)
  have seen := Wakes.ite (p := bad = true) (flags.fset Fld.TL_STATUS_POISON_SEEN (tlLoc ch c n) 0 1) flags
  have state := (seen.fset Fld.TL_STATUS_PC (tlLoc ch c n) 0
    (nextPc o ins t (s.fget Fld.TL_STATUS_PC (tlLoc ch c n)) (laneOf (vreg t ins.dst).val 0))).fset
      Fld.TL_STATUS_STATE (tlLoc ch c n) 0 (if halt then tHalted else tRun)
  exact ((Wakes.ite (state.fset _ _ _ _) state).fset _ _ _ _).pmCount _ _ _ _

theorem wakes_afterFiring (id : TileId) (consumes : Bool) (s : State) : Wakes s (afterFiring id consumes s) := by
  have work (t : State) : Wakes t (districtBusy t id.c.ch (clDistrict id.c.cl)) := ⟨t.regs, _, rfl⟩
  cases consumes
  · exact work s
  · exact Wakes.trans ⟨_, s.dists, progress_only ..⟩ (work _)

section Firing

variable {s : State} {id : TileId} {o : TOp} {ins : TInstr}

theorem wakes_fireTile (h : Slice0.TileReady s id o ins) (alu : AluIn → AluOut) :
    Wakes (s.setTl id.c.ch id.c.cl id.t fun _ => firedAlone s id o ins alu) (fireTile s id o alu) := by
  rw [fireTile_of_ready h]
  exact (wakes_firedRegs ..).trans (wakes_afterFiring ..)

theorem tl_fireTile (h : Slice0.TileReady s id o ins) (alu : AluIn → AluOut) :
    (fireTile s id o alu).tl id.c.ch id.c.cl id.t = firedAlone s id o ins alu := by
  rw [fireTile_of_ready h, tl_afterFiring, tl_firedRegs, tl_setTl_same]

theorem fget_pc_fireTile (h : Slice0.TileReady s id o ins) (alu : AluIn → AluOut) :
    (fireTile s id o alu).fget Fld.TL_STATUS_PC (Slice0.loc id) =
      nextPc o ins (firedAlone s id o ins alu) (s.fget Fld.TL_STATUS_PC (Slice0.loc id))
        (laneOf (vreg (firedAlone s id o ins alu) ins.dst).val 0) % 2 ^ 8 := by
  rw [fireTile_of_ready h, fget_afterFiring _ _ _ _ (by decide), fget_pc_firedRegs, setTl_fget_view]

/-- What the instruction computes from where the tile stands. -/
def inputAt (s : State) (id : TileId) (o : TOp) (ins : TInstr) : AluIn :=
  aluInput s (Slice0.loc id) o ins (s.tl id.c.ch id.c.cl id.t)

/-- The registers and rows of a tile that has fired: those it had, with the writes of the instruction. -/
theorem sameRegs_firedAlone (s : State) (id : TileId) (o : TOp) (ins : TInstr) (alu : AluIn → AluOut) :
    ∃ psn, SameRegs (firedAlone s id o ins alu) (written o ins (rowOf ins (Slice0.src s id o ins 0)) (inputAt s id o ins)
      (alu (inputAt s id o ins)) psn none (s.tl id.c.ch id.c.cl id.t)) :=
  ⟨_, sameRegs_firedTile ..⟩

end Firing

/-- Settles O3: a firing changes its tile, registers and the district's mark of work; in its tile, what the instruction writes. -/
theorem tileInstructionFrame : Obligations.TileInstructionFrame := by
  intro o s id ins u ready fires
  obtain ⟨alu, exec⟩ := exec_tileCommand s id o
  obtain rfl : fireTile s id o alu = u := Host.Outcome.next.inj (exec.symm.trans fires)
  obtain ⟨regs, dists, eq⟩ := wakes_fireTile ready alu
  obtain ⟨psn, same⟩ := sameRegs_firedAlone s id o ins alu
  rw [tl_fireTile ready, eq]
  refine ⟨fun a => rfl, rfl, rfl, fun k hk => SMap.get?_put_other _ _ _ _ hk, fun r hvec hpair => ?vregs, fun r hpred => ?pregs,
    fun r hrow => ?rows⟩
  case vregs => rw [same.vreg, vreg_written_other hvec hpair]
  case pregs => rw [same.preg, preg_written_other hpred]
  case rows => rw [same.srow, srow_written_other hrow]

/-! ### What decoding tells of an instruction -/

/-- A slot that decodes holds the instruction, and its modifiers, immediate and `WR` are those its table allows (R68, R69). -/
theorem of_tileDecode {w : Word} {o : TOp} {ins : TInstr} (h : tileDecode w = some (o, ins)) :
    ins = TInstr.ofWord w ∧ (o.shape ins).ok = true ∧ (o.shape ins).wr.allows ins.wr = true := by
  simp only [tileDecode] at h
  split at h
  · simp at h
  · simp only [Option.ite_none_right_eq_some, Option.some.injEq, Prod.mk.injEq, Bool.and_eq_true] at h
    obtain ⟨⟨⟨⟨⟨⟨⟨⟨⟨⟨ok, -⟩, -⟩, -⟩, -⟩, wr⟩, -⟩, -⟩, -⟩, -⟩, rfl, rfl⟩ := h
    exact ⟨rfl, ok, wr⟩

section Decoded

variable {s : State} {id : TileId} {o : TOp} {ins : TInstr} (ready : Slice0.TileReady s id o ins)
include ready

theorem imm_lt_of_ready : ins.imm < 2 ^ 16 := by
  obtain ⟨-, decodes, -⟩ := ready
  obtain ⟨rfl, -, -⟩ := of_tileDecode decodes
  exact bits_lt _ _ _

theorem mod2_lt_of_ready : ins.mod2 < 4 := by
  obtain ⟨-, decodes, -⟩ := ready
  obtain ⟨rfl, -, -⟩ := of_tileDecode decodes
  exact bits_lt _ _ 2

theorem shape_allows_of_ready : (o.shape ins).ok = true ∧ (o.shape ins).wr.allows ins.wr = true := by
  obtain ⟨-, decodes, -⟩ := ready
  exact (of_tileDecode decodes).2

end Decoded

/-! ### Flow control -/

section Flow

variable {s : State} {id : TileId} {ins : TInstr}

/-- JMP, BR and LOOP name a slot, and a program counter that takes it shows it whole (R74). -/
theorem target_of_ready {o : TOp} (ready : Slice0.TileReady s id o ins) (ho : o = .jmp ∨ o = .br ∨ o = .loop) :
    bits ins.imm 0 8 % 2 ^ 8 = ins.imm := by
  obtain ⟨ok, -⟩ := shape_allows_of_ready ready
  have slot : ins.imm < 256 := by
    rcases ho with rfl | rfl | rfl <;> simp only [TOp.shape, decide_eq_true_eq] at ok <;> omega
  simp only [bits]
  omega

theorem nextPc_br (t : Tile) (pc n : Nat) (hm : ins.mod2 < 4) : nextPc .br ins t pc n =
    if (ins.mod2 = 0 ∧ (preg t ins.a).val.toNat ≠ 0) ∨ (ins.mod2 = 1 ∧ (preg t ins.a).val.toNat = 0) ∨
      (ins.mod2 = 2 ∧ (preg t ins.a).val.toNat = 2 ^ 32 - 1) ∨ (ins.mod2 = 3 ∧ (preg t ins.a).val.toNat ≠ 2 ^ 32 - 1)
    then bits ins.imm 0 8 else (pc + 1) % 256 := by
  obtain h | h | h | h : ins.mod2 = 0 ∨ ins.mod2 = 1 ∨ ins.mod2 = 2 ∨ ins.mod2 = 3 := by omega
  all_goals simp [nextPc, h]

theorem nextPc_loop (t : Tile) (pc n : Nat) :
    nextPc .loop ins t pc n = if n = 0 then (pc + 1) % 256 else bits ins.imm 0 8 := by
  by_cases h : n = 0 <;> simp [nextPc, h]

/-- `BR` reads the predicate it tests as it was: it writes none. -/
theorem preg_firedAlone_br (ready : Slice0.TileReady s id .br ins) (alu : AluIn → AluOut) (r : Nat) :
    preg (firedAlone s id .br ins alu) r = preg (s.tl id.c.ch id.c.cl id.t) r := by
  obtain ⟨-, wrAllowed⟩ := shape_allows_of_ready ready
  have noWrite : ins.wr = false := by simpa [TOp.shape, Need.allows] using wrAllowed
  obtain ⟨psn, same⟩ := sameRegs_firedAlone s id .br ins alu
  rw [same.preg, preg_written_other (by simp [noWrite])]

/-- Lanes of 32 bits joined from halves. -/
theorem joinHalves_map (lo hi : Nat → Nat) :
    joinHalves ((List.range 32).map lo) ((List.range 32).map hi) = (List.range 32).map fun i => lo i + hi i * 2 ^ 16 := by
  unfold joinHalves
  rw [List.zip_map', List.map_map]
  rfl

/-- The low half of a pair's lane is the lane of its first register. -/
theorem pairOpd_lane_mod (t : Tile) (r : Nat) {i : Nat} (hi : i < 32) :
    nthN (pairOpd t r).lanes i % 2 ^ 16 = laneOf (vreg t r).val i := by
  simp only [nthN, pairOpd, regOpd, lanesOf]
  rw [joinHalves_map, getD_map_range _ _ hi, Nat.add_mul_mod_self_right, Nat.mod_eq_of_lt (laneOf_lt _ _)]

theorem lane0_aluLoop (x : AluIn) : (aluLoop x).lanes.getD 0 none = some ((nthN x.d 0 % 2 ^ 16 + 65535) % 2 ^ 16) := by
  rw [aluLoop, getD_map_range _ _ (by decide), if_pos rfl]

theorem lane0_firedAlone_loop (ready : Slice0.TileReady s id .loop ins) :
    laneOf (vreg (firedAlone s id .loop ins aluLoop) ins.dst).val 0 =
      (laneOf (vreg (s.tl id.c.ch id.c.cl id.t) ins.dst).val 0 + 65535) % 2 ^ 16 := by
  obtain ⟨-, hwr⟩ : _ ∧ ins.wr = true := shape_allows_of_ready ready
  have low := pairOpd_lane_mod (s.tl id.c.ch id.c.cl id.t) ins.dst (i := 0) (by decide)
  obtain ⟨psn, same⟩ := sameRegs_firedAlone s id .loop ins aluLoop
  rw [same.vreg, vreg_written_vec hwr rfl, laneOf_writeReg _ _ _ _ (by decide), lane0_aluLoop, Option.getD_some,
    Nat.mod_mod, ← low]
  rfl

end Flow

/-- Settles O5: END leaves the program counter, and JMP, BR and LOOP take their target as the tile after the firing decides. -/
theorem tileFlowControl : Obligations.TileFlowControl := by
  intro s id ins
  refine ⟨fun ready => ⟨fireTile s id .end_ aluNone, rfl, ?pcEnd, ?halts⟩, fun ready => ⟨fireTile s id .jmp aluNone, rfl, ?pcJmp⟩,
    fun ready => ⟨fireTile s id .br aluNone, rfl, ?pcBr⟩, fun ready => ⟨fireTile s id .loop aluLoop, rfl, ?count, ?pcLoop⟩⟩
  case pcEnd => exact (fget_pc_fireTile ready aluNone).trans (Nat.mod_eq_of_lt (bits_lt _ _ 8))
  case halts =>
    rw [fireTile_of_ready ready, fget_afterFiring _ _ _ _ (by decide), fget_state_firedRegs]
    rfl
  case pcJmp => exact (fget_pc_fireTile ready aluNone).trans (target_of_ready ready (.inl rfl))
  case pcBr =>
    rw [fget_pc_fireTile ready, nextPc_br _ _ _ (mod2_lt_of_ready ready), preg_firedAlone_br ready]
    split
    · exact target_of_ready ready (.inr (.inl rfl))
    · exact Nat.mod_mod _ 256
  case count =>
    rw [tl_fireTile ready]
    exact lane0_firedAlone_loop ready
  case pcLoop =>
    have n_lt := laneOf_lt (vreg (s.tl id.c.ch id.c.cl id.t) ins.dst).val 0
    rw [fget_pc_fireTile ready, nextPc_loop, lane0_firedAlone_loop ready]
    by_cases last : laneOf (vreg (s.tl id.c.ch id.c.cl id.t) ins.dst).val 0 = 1
    · rw [if_pos (by omega), if_pos last]
      exact Nat.mod_mod _ 256
    · rw [if_neg (by omega), if_neg last]
      exact target_of_ready ready (.inr (.inr rfl))

/-! ### Lanes of the integer and moving instructions -/

section Integer

variable {x y : Nat}

theorem uint_sint_add (hx : x < 2 ^ 16) (hy : y < 2 ^ 16) : uint 16 (sint 16 x + sint 16 y) = (x + y) % 2 ^ 16 := by
  simp only [uint, sint]
  split <;> split <;> omega

theorem uint_sint_sub (hx : x < 2 ^ 16) (hy : y < 2 ^ 16) : uint 16 (sint 16 x - sint 16 y) = (x + 2 ^ 16 - y) % 2 ^ 16 := by
  simp only [uint, sint]
  split <;> split <;> omega

/-- A saturated result is the nearest INT16 value (R106). -/
theorem sat16_fst (v : Int) : (sat16 v).1 = uint 16 (max (-32768) (min 32767 v)) := by
  simp only [sat16]
  split
  · rw [min_eq_left (by omega)]; rfl
  · split
    · rw [min_eq_right (by omega), max_eq_left (by omega)]; rfl
    · rw [min_eq_right (by omega), max_eq_right (by omega)]

theorem uint_lt (v : Int) : uint 16 v < 2 ^ 16 := by
  simp only [uint]; omega

end Integer

section Sources

/-- Every lane of an operand is a 16-bit value. -/
def Narrow (l : List Nat) : Prop := ∀ i, l.getD i 0 < 2 ^ 16

theorem narrow_of_mem {l : List Nat} (h : ∀ v ∈ l, v < 2 ^ 16) : Narrow l := by
  intro i
  rw [List.getD_eq_getElem?_getD]
  cases e : l[i]? with
  | none => decide
  | some v => exact h v (List.mem_of_getElem? e)

theorem narrow_nil : Narrow [] := narrow_of_mem (by simp)

theorem narrow_replicate {v : Nat} (n : Nat) (h : v < 2 ^ 16) : Narrow (List.replicate n v) :=
  narrow_of_mem fun _ hu => List.eq_of_mem_replicate hu ▸ h

theorem narrow_regOpd (t : Tile) (r : Nat) : Narrow (regOpd t r).lanes :=
  narrow_of_mem (by simpa [regOpd, lanesOf] using fun i _ => laneOf_lt (vreg t r).val i)

theorem narrow_tokenLanes (k : List Flit) : Narrow (tokenLanes k) := by
  refine narrow_of_mem fun v hv => ?_
  obtain ⟨i, -, rfl⟩ := List.mem_map.1 hv
  split
  · exact bits_lt _ _ _
  · decide

/-- An operand that is no pair brings 16 bits in each lane (R65). -/
theorem narrow_readOpd {ins : TInstr} {u : Use} (t : Tile) (v : Nat) (himm : ins.imm < 2 ^ 16) (hu : u ≠ .pair) :
    Narrow (readOpd t ins (u, v)).lanes := by
  have first (ts : List (List Flit)) : Narrow ((ts.map tokenLanes).getD 0 []) := by
    cases ts with
    | nil => exact narrow_nil
    | cons k _ => exact narrow_tokenLanes k
  cases u with
  | none | pred => exact narrow_nil
  | pair => exact absurd rfl hu
  | vec | reg | addr | port =>
    simp only [readOpd, reduceCtorEq, decide_false, Bool.false_eq_true, if_false]
    split
    · split
      · exact narrow_nil
      · exact first _
    · split
      · exact narrow_regOpd t v
      · split
        · exact narrow_replicate 32 himm
        · split
          · exact narrow_of_mem fun j hj => Nat.lt_trans (List.mem_range.1 hj) (by decide)
          · exact narrow_replicate 32 (by decide)

/-- Sources A and B of an instruction that takes no pairs. -/
theorem narrow_src {s : State} {id : TileId} {o : TOp} {ins : TInstr} (ready : Slice0.TileReady s id o ins)
    (ha : (o.shape ins).a ≠ .pair) (hb : (o.shape ins).b ≠ .pair) :
    Narrow (Slice0.src s id o ins 0).lanes ∧ Narrow (Slice0.src s id o ins 1).lanes := by
  have himm := imm_lt_of_ready ready
  exact ⟨narrow_readOpd _ ins.a himm ha, narrow_readOpd _ ins.b himm hb⟩

end Sources

/-! ### The result of a lane -/

/-- A computation gives in lane `i` what its tables say of `o`, as 16 bits. -/
def LaneResult (o : TOp) (ins : TInstr) (f : AluIn → Nat → Nat × Flags) : Prop :=
  ∀ (x : AluIn) (p i : Nat), x.t = ins → (o = .sel → x.p = p) → Narrow x.a → Narrow x.b →
    (f x i).1 % 2 ^ 16 = Slice0.tileLane o ins x.a x.b p i

/-- The integer and moving instructions. -/
def laneOps : List TOp := [.iadd, .isub, .iand, .ior, .ixor, .ishl, .ishr, .mov, .perm, .rot, .bcst, .sel]

theorem bits_low (n w : Nat) : bits n 0 w = n % 2 ^ w := rfl

section Results

variable {o : TOp} {ins : TInstr}

/-- They take no pair, write one register, and load nothing. -/
theorem shape_of_laneOps (ho : o ∈ laneOps) :
    (o.shape ins).a ≠ .pair ∧ (o.shape ins).b ≠ .pair ∧ (o.shape ins).d = .vec ∧ isLoad o = false := by
  simp only [laneOps, List.mem_cons, List.not_mem_nil, or_false] at ho
  rcases ho with rfl | rfl | rfl | rfl | rfl | rfl | rfl | rfl | rfl | rfl | rfl | rfl <;> simp [TOp.shape, isLoad]

/-- Their commands compute each active lane for itself, with the results of the tables (Tables 4-6, 4-8). -/
theorem exec_laneOps (s : State) (id : TileId) (ho : o ∈ laneOps) (hok : (o.shape ins).ok = true) :
    ∃ f, exec (Slice0.tileCommand o id) s = .next (fireTile s id o fun x => perActive x (f x)) ∧ LaneResult o ins f := by
  cases o with
  | iadd =>
    refine ⟨_, rfl, fun x p i ht hp ha hb => ?_⟩
    simp only [Slice0.tileLane, nthN, ht]
    split
    · rw [sat16_fst]; exact Nat.mod_eq_of_lt (uint_lt _)
    · rw [uint_sint_add (ha i) (hb i), Nat.mod_mod]
  | isub =>
    refine ⟨_, rfl, fun x p i ht hp ha hb => ?_⟩
    simp only [Slice0.tileLane, nthN, ht]
    split
    · rw [sat16_fst]; exact Nat.mod_eq_of_lt (uint_lt _)
    · rw [uint_sint_sub (ha i) (hb i), Nat.mod_mod]
  | iand => exact ⟨_, rfl, fun x p i ht hp ha hb => Nat.mod_eq_of_lt (Nat.and_lt_two_pow _ (hb i))⟩
  | ior => exact ⟨_, rfl, fun x p i ht hp ha hb => Nat.mod_eq_of_lt (Nat.or_lt_two_pow (ha i) (hb i))⟩
  | ixor => exact ⟨_, rfl, fun x p i ht hp ha hb => Nat.mod_eq_of_lt (Nat.xor_lt_two_pow (ha i) (hb i))⟩
  | ishl =>
    refine ⟨_, rfl, fun x p i ht hp ha hb => ?_⟩
    simp only [Slice0.tileLane, nthN, bits_low, Nat.shiftLeft_eq, Nat.mod_mod]
    rfl
  | ishr =>
    refine ⟨_, rfl, fun x p i ht hp ha hb => ?_⟩
    simp only [Slice0.tileLane, nthN, bits_low, ht]
    split
    · rw [Nat.shiftRight_eq_div_pow]
      exact Nat.mod_eq_of_lt (Nat.lt_of_le_of_lt (Nat.div_le_self _ _) (ha i))
    · exact Nat.mod_eq_of_lt (uint_lt _)
  | mov => exact ⟨_, rfl, fun x p i ht hp ha hb => Nat.mod_eq_of_lt (ha i)⟩
  | perm => exact ⟨_, rfl, fun x p i ht hp ha hb => Nat.mod_eq_of_lt (ha _)⟩
  | rot =>
    refine ⟨_, rfl, fun x p i ht hp ha hb => ?_⟩
    simp only [Slice0.tileLane, nthN, bits_low, ht]
    rw [Nat.mod_eq_of_lt (ha _), show 2 ^ 5 = 32 from rfl, Nat.add_mod_mod]
  | bcst =>
    have lane : ins.imm < 32 ∧ ins.mod2 = 0 := by simpa [TOp.shape] using hok
    refine ⟨_, rfl, fun x p i ht hp ha hb => ?_⟩
    simp only [Slice0.tileLane, nthN, bits_low, ht]
    rw [Nat.mod_eq_of_lt (ha _), Nat.mod_eq_of_lt (b := 2 ^ 5) lane.1]
  | sel =>
    refine ⟨_, rfl, fun x p i ht hp ha hb => ?_⟩
    simp only [Slice0.tileLane, nthN, bit, hp rfl]
    split
    · exact Nat.mod_eq_of_lt (ha i)
    · exact Nat.mod_eq_of_lt (hb i)
  | _ => simp [laneOps] at ho

theorem perActive_lane (x : AluIn) (f : Nat → Nat × Flags) {i : Nat} (hi : i < 32) :
    (perActive x f).lanes.getD i none = if nthB x.act i = true then some (f i).1 else none := by
  simp only [perActive, List.map_map]
  rw [getD_map_range _ _ hi]
  simp only [Function.comp_apply]
  split <;> rfl

/-- A computation lane by lane reaches the active lanes of its destination; the others keep their values (R66). -/
theorem laneOf_written_perActive {t : Tile} {row : Nat} {x : AluIn} {f : Nat → Nat × Flags} {psn : Bool} (hwr : ins.wr = true)
    (hd : (o.shape ins).d = .vec) {i : Nat} (hi : i < 32) :
    laneOf (vreg (written o ins row x (perActive x f) psn none t) ins.dst).val i =
      if nthB x.act i = true then (f i).1 % 2 ^ 16 else laneOf (vreg t ins.dst).val i := by
  rw [vreg_written_vec hwr hd, laneOf_writeReg _ _ _ _ hi, perActive_lane _ _ hi]
  split
  · rfl
  · exact Nat.mod_eq_of_lt (laneOf_lt _ _)

/-- The active lanes (R66). -/
theorem activeLanes_iff (t : Tile) {i : Nat} (hi : i < 32) : nthB (activeLanes t ins) i = true ↔
    ins.pen = false ∨ (preg t ins.preg).val.toNat.testBit i ≠ ins.pneg := by
  rw [nthB, activeLanes, getD_map_range _ _ hi]
  simp [bit]

/-- The destination of an instruction that computes lane by lane: results in the active lanes, old lanes elsewhere (R66). -/
theorem laneOf_firedAlone {s : State} {id : TileId} {f : AluIn → Nat → Nat × Flags} (ho : o ∈ laneOps)
    (ready : Slice0.TileReady s id o ins) (hwr : ins.wr = true) (hf : LaneResult o ins f) {i : Nat} (hi : i < 32) :
    laneOf (vreg (firedAlone s id o ins fun x => perActive x (f x)) ins.dst).val i =
      if ins.pen = false ∨ (preg (s.tl id.c.ch id.c.cl id.t) ins.preg).val.toNat.testBit i ≠ ins.pneg then
        Slice0.tileLane o ins (Slice0.src s id o ins 0).lanes (Slice0.src s id o ins 1).lanes
          (preg (s.tl id.c.ch id.c.cl id.t) ins.c).val.toNat i
      else laneOf (vreg (s.tl id.c.ch id.c.cl id.t) ins.dst).val i := by
  obtain ⟨ha, hb, hd, hload⟩ := shape_of_laneOps (ins := ins) ho
  obtain ⟨narrowA, narrowB⟩ := narrow_src ready ha hb
  obtain ⟨psn, same⟩ := sameRegs_firedAlone s id o ins fun x => perActive x (f x)
  have srcA : (inputAt s id o ins).a = (Slice0.src s id o ins 0).lanes := by simp only [inputAt, aluInput, hload]; rfl
  have result := hf (inputAt s id o ins) (preg (s.tl id.c.ch id.c.cl id.t) ins.c).val.toNat i rfl (by rintro rfl; rfl)
    (srcA ▸ narrowA) narrowB
  rw [same.vreg, laneOf_written_perActive hwr hd hi, result, srcA]
  exact if_congr (activeLanes_iff _ hi) rfl rfl

end Results

/-- Settles O4: each instruction computes its lanes one by one, and a write keeps the lanes that take no result. -/
theorem tileLaneResults : Obligations.TileLaneResults := by
  intro o s id ins ho ready hwr
  obtain ⟨ok, -⟩ := shape_allows_of_ready ready
  obtain ⟨f, fires, hf⟩ := exec_laneOps s id ho ok
  refine ⟨_, fires, fun i hi => ?_⟩
  rw [tl_fireTile ready]
  exact laneOf_firedAlone ho ready hwr hf hi

end Sys2Proof.Machine

/-! Dolly transfers: one equation for each path of the three commands, then the obligation. -/

namespace Sys2Proof.Machine

section Dolly

variable {s : State} {c : Cl} {slot : Fin 64} {d : DSlot}

theorem exec_dollyRequestIssue (s : State) (c : Cl) (slot : Fin 64) :
    exec (.dollyRequestIssue c slot) s = execDollyRequestIssue c slot s := rfl
theorem exec_dollyDataReturn (s : State) (c : Cl) (slot : Fin 64) :
    exec (.dollyDataReturn c slot) s = execDollyDataReturn c slot s := rfl
theorem exec_descriptorComplete (s : State) (c : Cl) (slot : Fin 64) :
    exec (.descriptorComplete c slot) s = execDescriptorComplete c slot s := rfl

/-- A descriptor that has started does its next thing (R190). -/
theorem exec_dollyRequestIssue_of_started (hd : dSlot? s c.ch c.cl slot = some d) (hcomplete : d.complete = false)
    (hcancel : d.cancelled = false) (hclock : clocked s c.ch c.cl = true) (hstart : d.started = true) :
    exec (.dollyRequestIssue c slot) s = .next (dollyNext s c.ch c.cl slot d) := by
  simp [exec_dollyRequestIssue, execDollyRequestIssue, hd, hcomplete, hcancel, hclock, hstart]

/-- A descriptor that may start is started and does its first thing (R189, R200). -/
theorem exec_dollyRequestIssue_of_startable (hd : dSlot? s c.ch c.cl slot = some d) (hcomplete : d.complete = false)
    (hcancel : d.cancelled = false) (hclock : clocked s c.ch c.cl = true) (hstart : d.started = false) (hcode : d.code = none)
    (hwait : startWaits s c.ch c.cl d = false) (hok : startCode s c.ch c.cl d = 0) :
    exec (.dollyRequestIssue c slot) s =
      .next (dollyNext (setSlot s c.ch c.cl slot fun _ => { d with started := true, epoch := epochOf s c.ch }) c.ch c.cl slot
        { d with started := true, epoch := epochOf s c.ch }) := by
  simp [exec_dollyRequestIssue, execDollyRequestIssue, hd, hcomplete, hcancel, hclock, hstart, hcode, hwait, hok]

/-- The next read in stream order that came back with a good code is taken in (R199). -/
theorem exec_dollyDataReturn_of_next {r : Req} (hd : dSlot? s c.ch c.cl slot = some d) (hcancel : d.cancelled = false)
    (hcode : d.code = none) (hclock : clocked s c.ch c.cl = true)
    (hr : (slotReqs s c.ch c.cl slot).find? (fun r => decide (r.place = .done) && (false || decide (r.off = d.taken))) = some r)
    (hok : codeOk r.code = true) :
    exec (.dollyDataReturn c slot) s = .next (takeData (dropReq s c.ch r.no) c.ch c.cl slot d r.data) := by
  have stop : (d.cancelled || d.code.isSome) = false := by rw [hcancel, hcode]; rfl
  simp only [exec_dollyDataReturn, execDollyDataReturn, hd, hclock, stop, hr, hok]
  rfl

/-- A descriptor that has ended, sends no signal and is no preload: it holds its code for the wait that collects it (R197). -/
theorem exec_descriptorComplete_of_collect (hd : dSlot? s c.ch c.cl slot = some d) (hdone : slotDone s c.ch c.cl slot d = true)
    (hclock : clocked s c.ch c.cl = true) (hsig : d.sig = false) (hw : d.w ≠ 2) (hcollect : d.collect = true) :
    exec (.descriptorComplete c slot) s =
      .next (setSlot s c.ch c.cl slot fun d' => { d' with complete := true, code := some (slotCode d) }) := by
  simp [exec_descriptorComplete, execDescriptorComplete, hd, hdone, hclock, hsig, hw, hcollect]

/-- Where no wait collects it and its code is good, it leaves its slot (R197). -/
theorem exec_descriptorComplete_of_leave (hd : dSlot? s c.ch c.cl slot = some d) (hdone : slotDone s c.ch c.cl slot d = true)
    (hclock : clocked s c.ch c.cl = true) (hsig : d.sig = false) (hw : d.w ≠ 2) (hcollect : d.collect = false)
    (hok : codeOk (slotCode d) = true) :
    exec (.descriptorComplete c slot) s = .next (s.setClu c.ch c.cl fun y => { y with slots := SMap.erase y.slots slot }) := by
  simp [exec_descriptorComplete, execDescriptorComplete, hd, hdone, hclock, hsig, hw, hcollect, hok]

end Dolly

/-- Settles O15: each clause is one path of its command, and its hypotheses decide every test on that path. -/
theorem dollyCommandsComplete : Obligations.DollyCommandsComplete := by
  refine ⟨fun s c slot d hd hcomplete hcancel hclock => ⟨fun hstart => ?_, fun hstart hcode hwait hok => ?_⟩,
    fun s c slot d r hd hcancel hcode hclock hr hok => ?_,
    fun s c slot d hd hdone hclock hsig hw => ⟨fun hcollect => ?_, fun hcollect hok => ?_⟩⟩
  · exact exec_dollyRequestIssue_of_started hd hcomplete hcancel hclock hstart
  · exact exec_dollyRequestIssue_of_startable hd hcomplete hcancel hclock hstart hcode hwait hok
  · exact exec_dollyDataReturn_of_next hd hcancel hcode hclock hr hok
  · exact exec_descriptorComplete_of_collect hd hdone hclock hsig hw hcollect
  · exact exec_descriptorComplete_of_leave hd hdone hclock hsig hw hcollect hok

end Sys2Proof.Machine

/-! Memory under the functions that store nothing. One lemma per function says that it leaves `State.mem` as it was; they
stand in the order of the definitions. A command's lemma speaks of `after (exec… s) s`, the state that the command leaves. -/

namespace Sys2Proof.Machine

@[simp] theorem mem_ite (p : Prop) [Decidable p] (a b : State) : (if p then a else b).mem = if p then a.mem else b.mem :=
  apply_ite ..

/-- The two states have one memory. A guard's lemma takes this as its hypothesis on the function it guards, so that `simp`
has a goal with a name to discharge by the lemma of that function. -/
def SameMem (s t : State) : Prop := t.mem = s.mem

@[simp] theorem sameMem_iff {s t : State} : SameMem s t ↔ t.mem = s.mem := ⟨id, id⟩

/-- `mem_foldl` in the form that `simp` can apply. -/
@[simp] theorem foldl_mem {α : Type} {f : State → α → State} (h : ∀ s a, SameMem s (f s a)) (l : List α) (s : State) :
    (l.foldl f s).mem = s.mem :=
  mem_foldl (fun s a => sameMem_iff.1 (h s a)) l s

@[simp] theorem after_next (t s : State) : after (.next t) s = t := rfl

/-! ### The register file -/

@[simp] theorem setWords_mem (s r loc idx k) : (State.setWords s r loc idx k).mem = s.mem := by
  fun_induction State.setWords s r loc idx k <;> simp_all

/-! ### Functions of the host port -/

@[simp] theorem aerSet_mem (s f e) : (aerSet s f e).mem = s.mem := rfl

@[simp] theorem postEvent_mem (s f id ch code result detail) :
    (postEvent s f id ch code result detail).mem = s.mem := by
  simp [postEvent]

@[simp] theorem hostDone_mem (s c code result detail) : (hostDone s c code result detail).mem = s.mem := rfl

@[simp] theorem hostDone?_mem (s c code result detail) : (hostDone? s c code result detail).mem = s.mem := by
  unfold hostDone?
  split <;> simp

@[simp] theorem dropRegs_mem (s) (p : Nat → Nat → Bool) : (dropRegs s p).mem = s.mem := rfl
@[simp] theorem portClear_mem (s) : (portClear s).mem = s.mem := rfl
@[simp] theorem fnFinish_mem (s f) : (fnFinish s f).mem = s.mem := by simp [fnFinish]
@[simp] theorem chanDisabled_mem (s ch f) : (chanDisabled s ch f).mem = s.mem := by simp [chanDisabled]

/-! ### Reports -/

@[simp] theorem dlyRecord_mem (s ch src code cl arg0 arg1) : (dlyRecord s ch src code cl arg0 arg1).mem = s.mem := by
  simp [dlyRecord]

@[simp] theorem alertPin_mem (s arrived) : (alertPin s arrived).mem = s.mem := by simp [alertPin]
@[simp] theorem queuedField_mem (s) : (queuedField s).mem = s.mem := rfl
@[simp] theorem mgmtEvent_mem (s kind data) : (mgmtEvent s kind data).mem = s.mem := by simp [mgmtEvent]
@[simp] theorem faultPin_mem (s) : (faultPin s).mem = s.mem := by simp [faultPin]
@[simp] theorem pend_mem (s f) : (pend s f).mem = s.mem := by simp [pend]
@[simp] theorem hubLog_mem (s rec) : (hubLog s rec).mem = s.mem := by simp [hubLog]
@[simp] theorem logRec_mem (s src rec) : (logRec s src rec).mem = s.mem := by simp [logRec]

@[simp] theorem faultRecord_mem (s src time code ty cls act cl unit loc level sec) :
    (faultRecord s src time code ty cls act cl unit loc level sec).mem = s.mem := by
  simp [faultRecord]

@[simp] theorem report3_mem (s src code act cl unit loc sec) :
    (report3 s src code act cl unit loc sec).mem = s.mem := by
  simp [report3]

@[simp] theorem capsChanged_mem (s ch code) : (capsChanged s ch code).mem = s.mem := rfl

@[simp] theorem postGranted_mem (s ch id code result) : (postGranted s ch id code result).mem = s.mem := by
  simp [postGranted]

@[simp] theorem hostErr_mem (s code f addr) : (hostErr s code f addr).mem = s.mem := rfl

/-! ### Address checks -/

@[simp] theorem fnErr_mem (s ch f code a) : (fnErr s ch f code a).mem = s.mem := by simp [fnErr]
@[simp] theorem rptErr_mem (s ch f code a) : (rptErr s ch f code a).mem = s.mem := by simp [rptErr]

@[simp] theorem refusedBy_mem (s ch fn code a) : (refusedBy s ch fn code a).mem = s.mem := by
  unfold refusedBy
  split <;> simp

/-! ### Tiles, clusters and channels -/

@[simp] theorem progress_mem (s ch c) : (progress s ch c).mem = s.mem := by simp [progress]

/-! ### Take slots -/

@[simp] theorem deferRec_mem (s ch c k r) : (deferRec s ch c k r).mem = s.mem := by simp [deferRec]
@[simp] theorem deferTile_mem (s ch c t pc k) : (deferTile s ch c t pc k).mem = s.mem := by simp [deferTile]
@[simp] theorem penPut_mem (s ch c k r) : (penPut s ch c k r).mem = s.mem := by simp [penPut]

/-! ### Requests entering the fabric -/

@[simp] theorem unitAskOne_mem (ch u cl fn wr) (op : Nat × Nat → ROp) (s p) :
    (unitAskOne ch u cl fn wr op s p).mem = s.mem := by
  simp [unitAskOne]

@[simp] theorem syncErr_mem (s ch code idx) : (syncErr s ch code idx).mem = s.mem := rfl
@[simp] theorem sbErr_mem (s ch c n code) : (sbErr s ch c n code).mem = s.mem := rfl
@[simp] theorem qErr_mem (s ch c q route code) : (qErr s ch c q route code).mem = s.mem := rfl
@[simp] theorem memErr_mem (s ch code a) : (memErr s ch code a).mem = s.mem := rfl

@[simp] theorem signalErr_mem (s ch kind c n code idx) : (signalErr s ch kind c n code idx).mem = s.mem := by
  simp [signalErr]

@[simp] theorem signalFor_mem (s ch kind c n fn i) : (signalFor s ch kind c n fn i).mem = s.mem := by simp [signalFor]
@[simp] theorem signalAdd_mem (s ch kind c n i) : (signalAdd s ch kind c n i).mem = s.mem := by simp [signalAdd]

/-! ### Writes and the non-finite monitor -/

@[simp] theorem classifyWin_mem (s ch win a bs) : (classifyWin s ch win a bs).mem = s.mem := by
  simp [classifyWin]

@[simp] theorem holdWrite_mem (s ch w) : (holdWrite s ch w).mem = s.mem := rfl
@[simp] theorem countDiscard_mem (s ch) : (countDiscard s ch).mem = s.mem := rfl

@[simp] theorem dropHeld_mem (s ch) (p : Nat × Nat × Nat → Bool) : (dropHeld s ch p).mem = s.mem := by
  unfold dropHeld
  split <;> simp

/-! ### Stream buffers -/

@[simp] theorem setFill_mem (s ch c n v) : (setFill s ch c n v).mem = s.mem := rfl
@[simp] theorem sbSignal_mem (s ch c n pub marked) : (sbSignal s ch c n pub marked).mem = s.mem := by simp [sbSignal]
@[simp] theorem sbPublish_mem (s ch c n) : (sbPublish s ch c n).mem = s.mem := by simp [sbPublish]
@[simp] theorem sbReleased_mem (s ch c n) : (sbReleased s ch c n).mem = s.mem := rfl
@[simp] theorem sbRelease_mem (s ch c n) : (sbRelease s ch c n).mem = s.mem := by simp [sbRelease]
@[simp] theorem sbApply_mem (s ch c n a b) : (sbApply s ch c n a b).mem = s.mem := rfl
@[simp] theorem sbAdvance_mem (s ch c n k) : (sbAdvance s ch c n k).mem = s.mem := by simp [sbAdvance]
@[simp] theorem sbMark_mem (s ch c n k) : (sbMark s ch c n k).mem = s.mem := by simp [sbMark]
@[simp] theorem sbCommit_mem (ch c k s n) : (sbCommit ch c k s n).mem = s.mem := by simp [sbCommit]

@[simp] theorem sbSquash_mem (ch c k s n) : (sbSquash ch c k s n).mem = s.mem := by
  simp only [sbSquash]
  split <;> rfl

/-! ### Sections -/

@[simp] theorem setLdState_mem (s ch v) : (setLdState s ch v).mem = s.mem := by simp [setLdState]

@[simp] theorem cancelSlots_mem (s ch c) (p : DSlot → Bool) : (cancelSlots s ch c p).mem = s.mem := by
  simp [cancelSlots]

@[simp] theorem orphanReqs_mem (s ch c) : (orphanReqs s ch c).mem = s.mem := rfl
@[simp] theorem dropKeyReads_mem (s ch) : (dropKeyReads s ch).mem = s.mem := rfl

@[simp] theorem sealLeave_mem (s ch c) : (sealLeave s ch c).mem = s.mem := by
  unfold sealLeave
  split <;> simp

@[simp] theorem emptyLists_mem (s ch c cs) : (emptyLists s ch c cs).mem = s.mem := rfl
@[simp] theorem freeSignals_mem (s ch c) : (freeSignals s ch c).mem = s.mem := rfl
@[simp] theorem closeOut_mem (cs ch s c) : (closeOut cs ch s c).mem = s.mem := by simp [closeOut]
@[simp] theorem disown_mem (ch s c) : (disown ch s c).mem = s.mem := by simp [disown]
@[simp] theorem beginStart_mem (s ch) : (beginStart s ch).mem = s.mem := by simp [beginStart]
@[simp] theorem reelDrop_mem (s ch) : (reelDrop s ch).mem = s.mem := rfl
@[simp] theorem reelAsk_mem (s ch) : (reelAsk s ch).mem = s.mem := by simp [reelAsk]

@[simp] theorem beginFetch_mem (s ch tga len fn cmd) : (beginFetch s ch tga len fn cmd).mem = s.mem := by
  simp [beginFetch]

@[simp] theorem cmtCode_mem (s ch code) : (cmtCode s ch code).mem = s.mem := rfl

@[simp] theorem tryStart_mem (s ch c sec) : (tryStart s ch c sec).1.mem = s.mem := by
  simp only [tryStart]
  (repeat' split) <;> simp

@[simp] theorem settleStarts_mem (s ch) : (settleStarts s ch).mem = s.mem := by
  refine mem_foldl (fun s w => ?_) _ _
  split <;> simp

@[simp] theorem dropChannel_mem (s ch) : (dropChannel s ch).mem = s.mem := rfl

@[simp] theorem retireCmds_mem (s ch) : (retireCmds s ch).mem = s.mem := by
  refine mem_foldl (fun s p => mem_foldl (fun s q => mem_foldl (fun s x => ?_) _ _) _ _) _ _
  simp

/-! ### Register gates -/

@[simp] theorem barRefused_mem (s f) : (barRefused s f).mem = s.mem := by simp [barRefused]

@[simp] theorem hostGate_mem (s r) (f : State → State) (hf : ∀ s, SameMem s (f s)) :
    (hostGate s r f).mem = s.mem := by
  simp only [sameMem_iff] at hf
  unfold hostGate
  split <;> simp [hf]

@[simp] theorem unitErr_mem (s ch unit) : (unitErr s ch unit).mem = s.mem := rfl

@[simp] theorem shutAccess_mem (s r a) : (shutAccess s r a).mem = s.mem := by
  unfold shutAccess
  split <;> simp

@[simp] theorem outKeeper_mem (s) (f : State → State) (hf : ∀ s, SameMem s (f s)) : (outKeeper s f).mem = s.mem := by
  simp only [sameMem_iff] at hf
  simp [outKeeper, hf]

@[simp] theorem inChan_mem (s ch) (f : State → State) (hf : ∀ s, SameMem s (f s)) : (inChan s ch f).mem = s.mem := by
  simp only [sameMem_iff] at hf
  simp [inChan, hf]

theorem fencedWrite_mem {s t : State} {k : BlockRef} (h : fencedWrite s k = some t) : t.mem = s.mem := by
  unfold fencedWrite at h
  split at h
  · split at h <;> cases h
    rfl
  · split at h <;> cases h
    rfl
  · cases h

@[simp] theorem blkWrite_mem {s : State} {r : Requester} {a : BlockRef} {f : State → State} (hf : SameMem s (f s)) :
    (blkWrite s r a f).mem = s.mem := by
  rw [sameMem_iff] at hf
  cases h : fencedWrite s a with
  | none => simp only [blkWrite, h]; (repeat' split) <;> simp [hf]
  | some t => simp only [blkWrite, h]; (repeat' split) <;> simp [fencedWrite_mem h]

@[simp] theorem rowGate_mem (s r a) (f : State → State) (hf : ∀ s, SameMem s (f s)) :
    (rowGate s r a f).mem = s.mem := by
  simp only [sameMem_iff] at hf
  simp [rowGate, hf]

/-! ### Clocks and power control -/

@[simp] theorem applyCaps_mem (s ch d) : (applyCaps s ch d).mem = s.mem := by simp [applyCaps]
@[simp] theorem applyChannel_mem (s ch) : (applyChannel s ch).mem = s.mem := by simp [applyChannel]
@[simp] theorem applyAll_mem (s) : (applyAll s).mem = s.mem := by simp [applyAll]
@[simp] theorem showLenders_mem (s ch) : (showLenders s ch).mem = s.mem := rfl
@[simp] theorem stopLending_mem (s ch d) : (stopLending s ch d).mem = s.mem := by simp [stopLending]
@[simp] theorem lendStep_mem (s ch d) : (lendStep s ch d).mem = s.mem := by simp [lendStep]

@[simp] theorem targetStep_mem (s ch d) : (targetStep s ch d).mem = s.mem := by
  unfold targetStep
  split <;> simp

@[simp] theorem thermalStep_mem (s ch d) : (thermalStep s ch d).mem = s.mem := by simp [thermalStep]
@[simp] theorem capStep_mem (s ch d alloc vnext) : (capStep s ch d alloc vnext).mem = s.mem := by simp [capStep]

@[simp] theorem execPowerEpoch_mem (ch draws uncore vnext s) :
    (after (execPowerEpoch ch draws uncore vnext s) s).mem = s.mem := by
  rw [execPowerEpoch, after_next, inChan_mem]
  intro s
  dsimp only
  rw [sameMem_iff, showLenders_mem, applyChannel_mem]
  refine (mem_foldl (fun s d => ?_) _ _).trans ?_
  · rw [setDist_mem, thermalStep_mem, mem_ite, capStep_mem, ite_self, fset_mem]
  · rw [fset_mem, mem_foldl (by simp), mem_foldl (by simp), fset_mem]

@[simp] theorem sendGrants_mem (s) : (sendGrants s).mem = s.mem := by simp [sendGrants]

@[simp] theorem execGrantBoundary_mem (s) : (after (execGrantBoundary s) s).mem = s.mem := by
  simp only [execGrantBoundary, after_next]
  split <;> simp

@[simp] theorem execAvfsEvaluation_mem (d v pass s) : (after (execAvfsEvaluation d v pass s) s).mem = s.mem := by
  simp [execAvfsEvaluation]

@[simp] theorem execDroop_mem (d s) : (after (execDroop d s) s).mem = s.mem := by simp [execDroop]

@[simp] theorem execDstVftgtCommit_mem (r d s) : (after (execDstVftgtCommit r d s) s).mem = s.mem := by
  simp [execDstVftgtCommit]

@[simp] theorem execHubPwrbudgetCommit_mem (r s) : (after (execHubPwrbudgetCommit r s) s).mem = s.mem := by
  simp [execHubPwrbudgetCommit]

@[simp] theorem execChPwrcfgWrite_mem (r ch v s) : (after (execChPwrcfgWrite r ch v s) s).mem = s.mem := by
  simp [execChPwrcfgWrite]

@[simp] theorem execThermalSample_mem (d temp s) : (after (execThermalSample d temp s) s).mem = s.mem := by
  simp [execThermalSample]

@[simp] theorem execThrottleNEdge_mem (low s) : (after (execThrottleNEdge low s) s).mem = s.mem := by
  simp [execThrottleNEdge]

@[simp] theorem capsRelease_mem (s) : (capsRelease s).mem = s.mem := by simp [capsRelease]

@[simp] theorem execThrottleFilterExpiry_mem (s) : (after (execThrottleFilterExpiry s) s).mem = s.mem := by
  simp [execThrottleFilterExpiry]

@[simp] theorem execSyncInPulse_mem (time s) : (after (execSyncInPulse time s) s).mem = s.mem := by
  simp [execSyncInPulse]

@[simp] theorem execHubSyncctrlArmload_mem (r s) : (after (execHubSyncctrlArmload r s) s).mem = s.mem := by
  simp [execHubSyncctrlArmload]

@[simp] theorem execPllLockLoss_mem (d s) : (after (execPllLockLoss d s) s).mem = s.mem := by simp [execPllLockLoss]
@[simp] theorem execPllRelock_mem (d s) : (after (execPllRelock d s) s).mem = s.mem := by simp [execPllRelock]

/-! ### A steward as other units act on it -/

@[simp] theorem stwFinish_mem (s ch c w rd v) : (stwFinish s ch c w rd v).mem = s.mem := by simp [stwFinish]
@[simp] theorem stwJump_mem (s ch c w rd v target) : (stwJump s ch c w rd v target).mem = s.mem := rfl

@[simp] theorem stwDefer_mem (s ch c w k rd kind code) : (stwDefer s ch c w k rd kind code).mem = s.mem := by
  simp [stwDefer]

@[simp] theorem stwStall_mem (s ch c w why) : (stwStall s ch c w why).mem = s.mem := rfl
@[simp] theorem stwRegistered_mem (s ch w) : (stwRegistered s ch w).mem = s.mem := rfl

@[simp] theorem stwAbandon_mem (s ch c w) : (stwAbandon s ch c w).mem = s.mem := by
  simp only [stwAbandon]
  (repeat' split) <;> simp

@[simp] theorem keepCode_mem (s ch c w a n) : (keepCode s ch c w a n).mem = s.mem := rfl
@[simp] theorem stwPostErr_mem (s ch c w code) : (stwPostErr s ch c w code).mem = s.mem := rfl

/-! ### Packets of a die link end -/

@[simp] theorem freeClass_mem (s l k n) : (freeClass s l k n).mem = s.mem := rfl
@[simp] theorem sendPkt_mem (s l p) : (sendPkt s l p).mem = s.mem := rfl
@[simp] theorem sendCmpl_mem (s l tag code value busy) : (sendCmpl s l tag code value busy).mem = s.mem := rfl
@[simp] theorem sendRdataFail_mem (s l tag code addr) : (sendRdataFail s l tag code addr).mem = s.mem := rfl

/-! ### Caravan flows -/

@[simp] theorem setFlowSt_mem (s ch n v) : (setFlowSt s ch n v).mem = s.mem := by simp [setFlowSt]
@[simp] theorem ctErr_mem (s ch code flow addr) : (ctErr s ch code flow addr).mem = s.mem := rfl
@[simp] theorem ctPush_mem (s ch n stream p) : (ctPush s ch n stream p).mem = s.mem := rfl

/-! ### Ends of requests -/

@[simp] theorem hostAbort_mem (s f) : (hostAbort s f).mem = s.mem := rfl
@[simp] theorem setCmd_mem (s c) (f : HCmd → HCmd) : (setCmd s c f).mem = s.mem := rfl

@[simp] theorem copyMoved_mem (s c n) : (copyMoved s c n).mem = s.mem := by
  unfold copyMoved
  split <;> simp

@[simp] theorem hostFinish_mem (s c r code data) : (hostFinish s c r code data).mem = s.mem := by
  unfold hostFinish
  split <;> simp

@[simp] theorem remoteSyncErr_mem (s ch r code) : (remoteSyncErr s ch r code).mem = s.mem := by
  unfold remoteSyncErr
  split <;> simp

@[simp] theorem fdlFree_mem (s k r) : (fdlFree s k r).mem = s.mem := by
  unfold fdlFree
  split <;> simp

@[simp] theorem fdlReply_mem (s ch l tag r code data) : (fdlReply s ch l tag r code data).mem = s.mem := by
  simp only [fdlReply]
  split <;> simp

@[simp] theorem dollyWrote_mem (s ch c n code) : (dollyWrote s ch c n code).mem = s.mem := rfl
@[simp] theorem sendResp_mem (s ch n opid code aux v) : (sendResp s ch n opid code aux v).mem = s.mem := rfl

@[simp] theorem flowReply_mem (s ch n opid r code data) : (flowReply s ch n opid r code data).mem = s.mem := by
  simp only [flowReply]
  (repeat' split) <;> simp

@[simp] theorem setColl_mem (s ch) (f : Coll → Coll) : (setColl s ch f).mem = s.mem := rfl

@[simp] theorem collTurn_mem (s ch) : (collTurn s ch).mem = s.mem := by
  unfold collTurn
  split <;> simp

@[simp] theorem collEnd_mem (s ch code) : (collEnd s ch code).mem = s.mem := by
  unfold collEnd
  split <;> simp

@[simp] theorem collWrote_mem (s ch a code) : (collWrote s ch a code).mem = s.mem := by simp [collWrote]

/-! ### Sync objects -/

@[simp] theorem nfSample_mem (s ch) : (nfSample s ch).mem = s.mem := rfl
@[simp] theorem lscaleStep_mem (s ch skip) : (lscaleStep s ch skip).mem = s.mem := by simp [lscaleStep]

@[simp] theorem sendBar_mem (s ch g rank nf psn rel) : (sendBar s ch g rank nf psn rel).mem = s.mem := by
  simp [sendBar]

/-! ### Lost units -/

@[simp] theorem portLost_mem (s ch port) : (portLost s ch port).mem = s.mem := rfl

@[simp] theorem flowsHanded_mem (s ch) : (flowsHanded s ch).mem = s.mem := by
  unfold flowsHanded
  split <;> simp

@[simp] theorem sealComplete_mem (s ch n code) : (sealComplete s ch n code).mem = s.mem := by
  unfold sealComplete
  split <;> simp

@[simp] theorem sealFlush_mem (s ch code) : (sealFlush s ch code).mem = s.mem := by simp [sealFlush]
@[simp] theorem egcRetired_mem (s ch code) : (egcRetired s ch code).mem = s.mem := by simp [egcRetired]

@[simp] theorem lcRetired_mem (s ch code) : (lcRetired s ch code).mem = s.mem := by
  unfold lcRetired
  split <;> simp

@[simp] theorem setRemap_mem (s ch c col) : (setRemap s ch c col).mem = s.mem := rfl

/-! ### Fault controllers -/

@[simp] theorem bucketAdd_mem (s src ty cl unit pts) : (bucketAdd s src ty cl unit pts).1.mem = s.mem := rfl

@[simp] theorem locEvent_mem (s src ty loc time k) : (locEvent s src ty loc time k).1.mem = s.mem := by
  unfold locEvent
  split <;> simp

@[simp] theorem armLoc_mem (s src ty a) : (armLoc s src ty a).mem = s.mem := rfl

@[simp] theorem keeperEnter_mem (s cause code act dump) : (keeperEnter s cause code act dump).mem = s.mem := by
  simp [keeperEnter]

@[simp] theorem criticalFault_mem (s) : (criticalFault s).mem = s.mem := by simp [criticalFault]

@[simp] theorem persist_mem (s act ty ch cl unit time) : (persist s act ty ch cl unit time).mem = s.mem := by
  simp [persist]

@[simp] theorem markRetired_mem (s ch) : (markRetired s ch).mem = s.mem := rfl

@[simp] theorem reportCap_mem (s ch) : (reportCap s ch).mem = s.mem := by
  unfold reportCap
  split <;> simp

@[simp] theorem reportCaps_mem (k s x) : (reportCaps k s x).mem = s.mem := by
  fun_induction reportCaps k s x <;> simp_all

@[simp] theorem repairStart_mem (s src ty loc unit) : (repairStart s src ty loc unit).mem = s.mem := rfl
@[simp] theorem injDone_mem (s src ty cl) : (injDone s src ty cl).mem = s.mem := by simp [injDone]
@[simp] theorem depotErr_mem (s e) : (depotErr s e).mem = s.mem := by simp [depotErr]
@[simp] theorem granuleFix_mem (s e) : (granuleFix s e).mem = s.mem := by simp [granuleFix]

@[simp] theorem execBucketLeak_mem (src ty cluster unit s) :
    (after (execBucketLeak src ty cluster unit s) s).mem = s.mem := by
  simp [execBucketLeak]

@[simp] theorem stormStep_mem (s src ty) : (stormStep s src ty).mem = s.mem := by simp [stormStep]

@[simp] theorem execStormWindow_mem (src s) : (after (execStormWindow src s) s).mem = s.mem := by
  simp [execStormWindow]

@[simp] theorem execRepairCopyDone_mem (ch s) : (after (execRepairCopyDone ch s) s).mem = s.mem := by
  rw [execRepairCopyDone, after_next, inChan_mem]
  intro s
  rw [sameMem_iff]
  dsimp only
  split <;> simp

@[simp] theorem execHeartbeat_mem (_ch s) : (after (execHeartbeat _ch s) s).mem = s.mem := by simp [execHeartbeat]

@[simp] theorem execHubCriticalFault_mem (s) : (after (execHubCriticalFault s) s).mem = s.mem := by
  simp [execHubCriticalFault]

@[simp] theorem execSysclkLoss_mem (s) : (after (execSysclkLoss s) s).mem = s.mem := by simp [execSysclkLoss]

@[simp] theorem execHubWatchdogExpiry_mem (s) : (after (execHubWatchdogExpiry s) s).mem = s.mem := by
  simp [execHubWatchdogExpiry]

@[simp] theorem execFaultNHoldEnd_mem (s) : (after (execFaultNHoldEnd s) s).mem = s.mem := by simp [execFaultNHoldEnd]
@[simp] theorem execChFinjArm_mem (r ch s) : (after (execChFinjArm r ch s) s).mem = s.mem := by simp [execChFinjArm]

@[simp] theorem execThermalTrip_mem (src ch unit s) : (after (execThermalTrip src ch unit s) s).mem = s.mem := by
  simp only [execThermalTrip, after_next]
  (repeat' split) <;> simp

@[simp] theorem execSupplySample_mem (inrange uv ov s) : (after (execSupplySample inrange uv ov s) s).mem = s.mem := by
  simp [execSupplySample]

@[simp] theorem execXtalLoss_mem (s) : (after (execXtalLoss s) s).mem = s.mem := by simp [execXtalLoss]

/-! ### Die links -/

@[simp] theorem setLkState_mem (s l v) : (setLkState s l v).mem = s.mem := rfl
@[simp] theorem lkErr_mem (s l c) : (lkErr s l c).mem = s.mem := rfl

@[simp] theorem regEnd_mem (s l) (host : Option Nat) (code v) : (regEnd s l host code v).mem = s.mem := by
  simp only [regEnd]
  (repeat' split) <;> simp

@[simp] theorem endOutst_mem (s l) (p : FOut → Bool) : (endOutst s l p).mem = s.mem := by simp [endOutst]
@[simp] theorem dropOutst_mem (s l) : (dropOutst s l).mem = s.mem := by simp [dropOutst]
@[simp] theorem dropSent_mem (s l) : (dropSent s l).mem = s.mem := by simp [dropSent]
@[simp] theorem dropInbound_mem (s l) : (dropInbound s l).mem = s.mem := by simp [dropInbound]
@[simp] theorem showCaps_mem (s c) : (showCaps s c).mem = s.mem := rfl
@[simp] theorem trainWith_mem (f : FdlEnd → FdlEnd) (s l) : (trainWith f s l).mem = s.mem := by simp [trainWith]
@[simp] theorem trainBoth_mem (s l) : (trainBoth s l).mem = s.mem := by simp [trainBoth]
@[simp] theorem attemptsNew_mem (s l) : (attemptsNew s l).mem = s.mem := rfl
@[simp] theorem bringAgain_mem (f : FdlEnd → FdlEnd) (s l) : (bringAgain f s l).mem = s.mem := by simp [bringAgain]

@[simp] theorem execDrstNDeassert_mem (l s) : (after (execDrstNDeassert l s) s).mem = s.mem := by
  simp [execDrstNDeassert]

@[simp] theorem execUcieTrained_mem (l mods x8 s) : (after (execUcieTrained l mods x8 s) s).mem = s.mem := by
  simp [execUcieTrained]

theorem takeCtrl_mem {s t : State} {l : LinkId} {sub v : Nat} (h : takeCtrl s l sub = some (v, t)) :
    t.mem = s.mem := by
  unfold takeCtrl at h
  split at h
  · split at h <;> cases h
    rfl
  · cases h

@[simp] theorem sendCtrl_mem (s l sub v) : (sendCtrl s l sub v).mem = s.mem := rfl

@[simp] theorem execCapx_mem (l s) : (after (execCapx l s) s).mem = s.mem := by
  rw [execCapx, after_next, outKeeper_mem]
  intro s
  rw [sameMem_iff]
  split
  · rfl
  · next h => simp [takeCtrl_mem h]

@[simp] theorem execCapxRepeat_mem (l s) : (after (execCapxRepeat l s) s).mem = s.mem := by simp [execCapxRepeat]
@[simp] theorem grantCredits_mem (s l) : (grantCredits s l).mem = s.mem := rfl
@[simp] theorem agreed_mem (s l w) : (agreed s l w).mem = s.mem := by simp [agreed]

@[simp] theorem execUprateDone_mem (l ok s) : (after (execUprateDone l ok s) s).mem = s.mem := by
  simp [execUprateDone]

@[simp] theorem freeSlots_mem (s l p) : (freeSlots s l p).mem = s.mem := rfl
@[simp] theorem discardPkt_mem (s l p code) : (discardPkt s l p code).mem = s.mem := by simp [discardPkt]

@[simp] theorem judgePkt_mem (s l p) : (judgePkt s l p).mem = s.mem := by
  unfold judgePkt
  split <;> simp

@[simp] theorem endRetrain_mem (s l) : (endRetrain s l).mem = s.mem := rfl
@[simp] theorem toRetrain_mem (s l) : (toRetrain s l).mem = s.mem := by simp [toRetrain]
@[simp] theorem onWire_mem (s l f) : (onWire s l f).mem = s.mem := rfl
@[simp] theorem sendData_mem (s l) : (sendData s l).mem = s.mem := rfl

@[simp] theorem execFlitTransmit_mem (l s) : (after (execFlitTransmit l s) s).mem = s.mem := by
  rw [execFlitTransmit, after_next, outKeeper_mem]
  intro s
  rw [sameMem_iff]
  dsimp only
  (repeat' split) <;> simp

@[simp] theorem sendRetry_mem (s l) : (sendRetry s l).mem = s.mem := by simp [sendRetry]

@[simp] theorem execFdlRetry_mem (l s) : (after (execFdlRetry l s) s).mem = s.mem := by
  rw [execFdlRetry, after_next, outKeeper_mem]
  intro s
  rw [sameMem_iff]
  split
  · next h => simp [takeCtrl_mem h]
  · rfl

@[simp] theorem execAckTimeout_mem (l s) : (after (execAckTimeout l s) s).mem = s.mem := by simp [execAckTimeout]
@[simp] theorem execRetrainDone_mem (l s) : (after (execRetrainDone l s) s).mem = s.mem := by simp [execRetrainDone]

@[simp] theorem execL1IdleExpiry_mem (l s) : (after (execL1IdleExpiry l s) s).mem = s.mem := by
  simp [execL1IdleExpiry]

@[simp] theorem execPmreq_mem (l s) : (after (execPmreq l s) s).mem = s.mem := by
  rw [execPmreq, after_next, outKeeper_mem]
  intro s
  rw [sameMem_iff]
  split
  · rfl
  · next h => simp [takeCtrl_mem h]

@[simp] theorem execPmack_mem (l s) : (after (execPmack l s) s).mem = s.mem := by
  rw [execPmack, after_next, outKeeper_mem]
  intro s
  rw [sameMem_iff]
  split
  · next h => simp [takeCtrl_mem h]
  · rfl

@[simp] theorem execPmnak_mem (l s) : (after (execPmnak l s) s).mem = s.mem := by
  rw [execPmnak, after_next, outKeeper_mem]
  intro s
  rw [sameMem_iff]
  split
  · next h => simp [takeCtrl_mem h]
  · rfl

@[simp] theorem execL1Exit_mem (l ok s) : (after (execL1Exit l ok s) s).mem = s.mem := by simp [execL1Exit]

@[simp] theorem execTestreq_mem (l s) : (after (execTestreq l s) s).mem = s.mem := by
  rw [execTestreq, after_next, outKeeper_mem]
  intro s
  rw [sameMem_iff]
  split
  · next h => simp [takeCtrl_mem h]
  · rfl

@[simp] theorem execFdlAbort_mem (l s) : (after (execFdlAbort l s) s).mem = s.mem := by
  rw [execFdlAbort, after_next, outKeeper_mem]
  intro s
  rw [sameMem_iff]
  split
  · next h => simp [takeCtrl_mem h]
  · rfl

@[simp] theorem lkGuard_mem (r l s) (f : State → State) (hf : ∀ s, SameMem s (f s)) :
    (lkGuard r l s f).mem = s.mem := by
  simp only [sameMem_iff] at hf
  simp [lkGuard, hf]

@[simp] theorem execFdlLinkCtrlReneg_mem (r l s) : (after (execFdlLinkCtrlReneg r l s) s).mem = s.mem := by
  simp [execFdlLinkCtrlReneg]

@[simp] theorem execFdlLinkCtrlRetrain_mem (r l s) : (after (execFdlLinkCtrlRetrain r l s) s).mem = s.mem := by
  simp [execFdlLinkCtrlRetrain]

@[simp] theorem execFdlLinkCtrlTest_mem (r l on s) : (after (execFdlLinkCtrlTest r l on s) s).mem = s.mem := by
  simp [execFdlLinkCtrlTest]

@[simp] theorem execFdlLinkCfgCommit_mem (r l s) : (after (execFdlLinkCfgCommit r l s) s).mem = s.mem := by
  simp [execFdlLinkCfgCommit]

@[simp] theorem regAsk_mem (s l off write n v) (host : Option Nat) : (regAsk s l off write n v host).mem = s.mem :=
  rfl

@[simp] theorem execFdlRegWindowAccess_mem (r l off write n v s) :
    (after (execFdlRegWindowAccess r l off write n v s) s).mem = s.mem := by
  simp only [execFdlRegWindowAccess, after_next]
  split <;> simp

theorem takePkt_mem {s t : State} {l : LinkId} {ty : Nat} {p : FPkt} (h : takePkt s l ty = some (p, t)) :
    t.mem = s.mem := by
  simp only [takePkt] at h
  split at h
  · split at h <;> cases h
    split <;> simp
  · cases h

@[simp] theorem dieTimeout_mem (s l tag) : (dieTimeout s l tag).mem = s.mem := by
  simp only [dieTimeout]
  (repeat' split) <;> simp

@[simp] theorem execFdlRequestTimeout_mem (l tag s) : (after (execFdlRequestTimeout l tag s) s).mem = s.mem := by
  rw [execFdlRequestTimeout, after_next, outKeeper_mem]
  intro s
  rw [sameMem_iff]
  split <;> simp

@[simp] theorem execFdlNote_mem (l s) : (after (execFdlNote l s) s).mem = s.mem := by
  rw [execFdlNote, after_next, outKeeper_mem]
  intro s
  rw [sameMem_iff]
  split
  · rfl
  · next h => simp [takePkt_mem h]

@[simp] theorem execBoot_mem (l s) : (after (execBoot l s) s).mem = s.mem := by
  rw [execBoot, after_next, outKeeper_mem]
  intro s
  rw [sameMem_iff]
  split
  · rfl
  · next h => simp [takePkt_mem h]

/-! ### Control space -/

@[simp] theorem badAccess_mem (s r a) : (badAccess s r a).mem = s.mem := by
  unfold badAccess
  split <;> simp

@[simp] theorem ctlRefused_mem (s r a) : (ctlRefused s r a).mem = s.mem := by
  unfold ctlRefused
  split <;> simp

/-! ### Tiles -/

@[simp] theorem tileStall_mem (s ch c t why port) : (tileStall s ch c t why port).mem = s.mem := by simp [tileStall]

@[simp] theorem firedRegs_mem (s ch c n o ins t fl bad halt) :
    (firedRegs s ch c n o ins t fl bad halt).mem = s.mem := by
  simp [firedRegs]

@[simp] theorem fireWith_mem (s ch c n o ins) (alu : AluIn → AluOut) : (fireWith s ch c n o ins alu).mem = s.mem := by
  simp only [fireWith]
  (repeat' split) <;> simp

@[simp] theorem fireTile_mem (s t o) (alu : AluIn → AluOut) : (fireTile s t o alu).mem = s.mem := by
  simp only [fireTile]
  (repeat' split) <;> simp

@[simp] theorem tlWrite_mem (s r t) (f : Nat → State → State) (hf : ∀ a s, SameMem s (f a s)) :
    (tlWrite s r t f).mem = s.mem := by
  simp only [sameMem_iff] at hf
  simp [tlWrite, hf]

@[simp] theorem execTlCtrlHalt_mem (r t s) : (after (execTlCtrlHalt r t s) s).mem = s.mem := by simp [execTlCtrlHalt]

@[simp] theorem execTileHaltEffect_mem (t s) : (after (execTileHaltEffect t s) s).mem = s.mem := by
  simp [execTileHaltEffect]

@[simp] theorem execTlCtrlResume_mem (r t s) : (after (execTlCtrlResume r t s) s).mem = s.mem := by
  simp [execTlCtrlResume]

@[simp] theorem execTlCtrlStep_mem (r t s) : (after (execTlCtrlStep r t s) s).mem = s.mem := by simp [execTlCtrlStep]

@[simp] theorem execTlRngseedWrite_mem (r t v s) : (after (execTlRngseedWrite r t v s) s).mem = s.mem := by
  simp [execTlRngseedWrite]

@[simp] theorem execTNop_mem (t s) : (after (execTNop t s) s).mem = s.mem := by simp [execTNop]
@[simp] theorem execTEnd_mem (t s) : (after (execTEnd t s) s).mem = s.mem := by simp [execTEnd]
@[simp] theorem execTJmp_mem (t s) : (after (execTJmp t s) s).mem = s.mem := by simp [execTJmp]
@[simp] theorem execTBr_mem (t s) : (after (execTBr t s) s).mem = s.mem := by simp [execTBr]
@[simp] theorem execTLoop_mem (t s) : (after (execTLoop t s) s).mem = s.mem := by simp [execTLoop]
@[simp] theorem execTDrop_mem (t s) : (after (execTDrop t s) s).mem = s.mem := by simp [execTDrop]
@[simp] theorem execTMac_mem (t s) : (after (execTMac t s) s).mem = s.mem := by simp [execTMac]
@[simp] theorem execTMacb_mem (t s) : (after (execTMacb t s) s).mem = s.mem := by simp [execTMacb]
@[simp] theorem execTMul_mem (t s) : (after (execTMul t s) s).mem = s.mem := by simp [execTMul]
@[simp] theorem execTAdd_mem (t s) : (after (execTAdd t s) s).mem = s.mem := by simp [execTAdd]
@[simp] theorem execTSub_mem (t s) : (after (execTSub t s) s).mem = s.mem := by simp [execTSub]
@[simp] theorem execTMax_mem (t s) : (after (execTMax t s) s).mem = s.mem := by simp [execTMax]
@[simp] theorem execTMin_mem (t s) : (after (execTMin t s) s).mem = s.mem := by simp [execTMin]
@[simp] theorem execTMmac_mem (t s) : (after (execTMmac t s) s).mem = s.mem := by simp [execTMmac]
@[simp] theorem execTImac_mem (t s) : (after (execTImac t s) s).mem = s.mem := by simp [execTImac]
@[simp] theorem execTIadd_mem (t s) : (after (execTIadd t s) s).mem = s.mem := by simp [execTIadd]
@[simp] theorem execTIsub_mem (t s) : (after (execTIsub t s) s).mem = s.mem := by simp [execTIsub]
@[simp] theorem execTIand_mem (t s) : (after (execTIand t s) s).mem = s.mem := by simp [execTIand]
@[simp] theorem execTIor_mem (t s) : (after (execTIor t s) s).mem = s.mem := by simp [execTIor]
@[simp] theorem execTIxor_mem (t s) : (after (execTIxor t s) s).mem = s.mem := by simp [execTIxor]
@[simp] theorem execTIshl_mem (t s) : (after (execTIshl t s) s).mem = s.mem := by simp [execTIshl]
@[simp] theorem execTIshr_mem (t s) : (after (execTIshr t s) s).mem = s.mem := by simp [execTIshr]
@[simp] theorem execTFma_mem (t s) : (after (execTFma t s) s).mem = s.mem := by simp [execTFma]
@[simp] theorem execTFadd_mem (t s) : (after (execTFadd t s) s).mem = s.mem := by simp [execTFadd]
@[simp] theorem execTFsub_mem (t s) : (after (execTFsub t s) s).mem = s.mem := by simp [execTFsub]
@[simp] theorem execTFmul_mem (t s) : (after (execTFmul t s) s).mem = s.mem := by simp [execTFmul]
@[simp] theorem execTFmax_mem (t s) : (after (execTFmax t s) s).mem = s.mem := by simp [execTFmax]
@[simp] theorem execTFmin_mem (t s) : (after (execTFmin t s) s).mem = s.mem := by simp [execTFmin]
@[simp] theorem execTFn_mem (t s) : (after (execTFn t s) s).mem = s.mem := by simp [execTFn]
@[simp] theorem execTCvt_mem (t s) : (after (execTCvt t s) s).mem = s.mem := by simp [execTCvt]
@[simp] theorem execTMov_mem (t s) : (after (execTMov t s) s).mem = s.mem := by simp [execTMov]
@[simp] theorem execTPerm_mem (t s) : (after (execTPerm t s) s).mem = s.mem := by simp [execTPerm]
@[simp] theorem execTRot_mem (t s) : (after (execTRot t s) s).mem = s.mem := by simp [execTRot]
@[simp] theorem execTBcst_mem (t s) : (after (execTBcst t s) s).mem = s.mem := by simp [execTBcst]
@[simp] theorem execTSel_mem (t s) : (after (execTSel t s) s).mem = s.mem := by simp [execTSel]
@[simp] theorem execTRsum_mem (t s) : (after (execTRsum t s) s).mem = s.mem := by simp [execTRsum]
@[simp] theorem execTRmax_mem (t s) : (after (execTRmax t s) s).mem = s.mem := by simp [execTRmax]
@[simp] theorem execTRmin_mem (t s) : (after (execTRmin t s) s).mem = s.mem := by simp [execTRmin]
@[simp] theorem execTRamax_mem (t s) : (after (execTRamax t s) s).mem = s.mem := by simp [execTRamax]
@[simp] theorem execTRbexp_mem (t s) : (after (execTRbexp t s) s).mem = s.mem := by simp [execTRbexp]
@[simp] theorem execTFwd_mem (t s) : (after (execTFwd t s) s).mem = s.mem := by simp [execTFwd]
@[simp] theorem execTFwdh_mem (t s) : (after (execTFwdh t s) s).mem = s.mem := by simp [execTFwdh]
@[simp] theorem execTPcmp_mem (t s) : (after (execTPcmp t s) s).mem = s.mem := by simp [execTPcmp]
@[simp] theorem execTPlog_mem (t s) : (after (execTPlog t s) s).mem = s.mem := by simp [execTPlog]
@[simp] theorem execTPset_mem (t s) : (after (execTPset t s) s).mem = s.mem := by simp [execTPset]
@[simp] theorem execTPcls_mem (t s) : (after (execTPcls t s) s).mem = s.mem := by simp [execTPcls]
@[simp] theorem execTLd_mem (t s) : (after (execTLd t s) s).mem = s.mem := by simp [execTLd]
@[simp] theorem execTLdh_mem (t s) : (after (execTLdh t s) s).mem = s.mem := by simp [execTLdh]
@[simp] theorem execTLde_mem (t s) : (after (execTLde t s) s).mem = s.mem := by simp [execTLde]
@[simp] theorem execTSt_mem (t s) : (after (execTSt t s) s).mem = s.mem := by simp [execTSt]
@[simp] theorem execTSth_mem (t s) : (after (execTSth t s) s).mem = s.mem := by simp [execTSth]
@[simp] theorem execTTkent_mem (t s) : (after (execTTkent t s) s).mem = s.mem := by simp [execTTkent]
@[simp] theorem execTTklv_mem (t s) : (after (execTTklv t s) s).mem = s.mem := by simp [execTTklv]
@[simp] theorem execTSig_mem (t s) : (after (execTSig t s) s).mem = s.mem := by simp [execTSig]

/-! ### Sidings -/

@[simp] theorem freeUnits_mem (s ch c us) : (freeUnits s ch c us).mem = s.mem := rfl

@[simp] theorem leaveMesh_mem (s ch r c inp) : (leaveMesh s ch r c inp).mem = s.mem := by
  simp only [leaveMesh]
  (repeat' split) <;> simp

@[simp] theorem quitMesh_mem (s ch r) : (quitMesh s ch r).mem = s.mem := by
  unfold quitMesh
  split <;> simp

@[simp] theorem moveReq_mem (s ch no p) : (moveReq s ch no p).mem = s.mem := rfl
@[simp] theorem spillOne_mem (ch c s q) : (spillOne ch c s q).mem = s.mem := by simp [spillOne]

@[simp] theorem execStallWindowExpiry_mem (c young s) : (after (execStallWindowExpiry c young s) s).mem = s.mem := by
  simp [execStallWindowExpiry]

@[simp] theorem execDstStallcfgWrite_mem (r d v s) : (after (execDstStallcfgWrite r d v s) s).mem = s.mem := by
  simp [execDstStallcfgWrite]

@[simp] theorem takeUnit_mem (s ch c u) : (takeUnit s ch c u).mem = s.mem := by simp [takeUnit]

/-! ### The fabric -/

@[simp] theorem issueReq_mem (s ch r) : (issueReq s ch r).mem = s.mem := rfl
@[simp] theorem releaseGate_mem (s ch c) : (releaseGate s ch c).mem = s.mem := rfl
@[simp] theorem hubReq_mem (s ch r) : (hubReq s ch r).mem = s.mem := rfl
@[simp] theorem ttMark_mem (s ch) : (ttMark s ch).mem = s.mem := by simp [ttMark]
@[simp] theorem gather_mem (s ch r at_ bs) : (gather s ch r at_ bs).mem = s.mem := rfl

@[simp] theorem keepOwn_mem (s ch c r lo k) : (keepOwn s ch c r lo k).mem = s.mem := by
  unfold keepOwn
  split <;> simp

@[simp] theorem execChBwsplitCommit_mem (r ch s) : (after (execChBwsplitCommit r ch s) s).mem = s.mem := by
  simp [execChBwsplitCommit]

@[simp] theorem execBwsplitFrameBoundary_mem (ch site s) :
    (after (execBwsplitFrameBoundary ch site s) s).mem = s.mem := by
  simp [execBwsplitFrameBoundary]

/-! ### Message queues -/

@[simp] theorem dequeue_mem (s ch c q) : (dequeue s ch c q).mem = s.mem := rfl
@[simp] theorem dropCount_mem (s ch c q) : (dropCount s ch c q).mem = s.mem := by simp [dropCount]
@[simp] theorem queueTook_mem (s ch c q inp) : (queueTook s ch c q inp).mem = s.mem := rfl

@[simp] theorem execClQctrlUnpoison_mem (r c q s) : (after (execClQctrlUnpoison r c q s) s).mem = s.mem := by
  refine rowGate_mem _ _ _ _ fun s => sameMem_iff.2 ?_
  split
  · rw [setClu_mem, mem_foldl (by simp), fset_mem, setQueue_mem]
  · exact qErr_mem ..

@[simp] theorem execClQcfgWrite_mem (r c q v s) : (after (execClQcfgWrite r c q v s) s).mem = s.mem := by
  simp [execClQcfgWrite]

@[simp] theorem execClHtWrite_mem (r c n v s) : (after (execClHtWrite r c n v s) s).mem = s.mem := by
  simp [execClHtWrite]

/-! ### The tile array and its edge -/

@[simp] theorem putOut_mem (s ch c t out f) : (putOut s ch c t out f).mem = s.mem := by
  unfold putOut
  split <;> simp

@[simp] theorem markServed_mem (s ch c t p o) : (markServed s ch c t p o).mem = s.mem := rfl

@[simp] theorem routeLink_mem (ch c t) (heads : List (Nat × Flit × List Nat × Nat × Bool)) (s o) :
    (routeLink ch c t heads s o).mem = s.mem := by
  simp only [routeLink]
  (repeat' split) <;> simp

@[simp] theorem routeLocal_mem (ch c t s) (h : Nat × Flit × List Nat × Nat × Bool) :
    (routeLocal ch c t s h).mem = s.mem := by
  simp [routeLocal]

@[simp] theorem execCreditReturn_mem (q s) : (after (execCreditReturn q s) s).mem = s.mem := by
  simp only [execCreditReturn, after_next]
  split <;> simp

@[simp] theorem portPop_mem (s ch c p) : (portPop s ch c p).mem = s.mem := rfl

@[simp] theorem portTake_mem (k s x y z) : (portTake k s x y z).mem = s.mem := by
  fun_induction portTake k s x y z <;> simp_all

theorem penFlit_mem {s t : State} {ch c p : Nat} {f : Flit} (h : penFlit s ch c p f = some t) : t.mem = s.mem := by
  simp only [penFlit] at h
  split at h
  · cases h; simp
  · split at h <;> cases h
    simp

@[simp] theorem egressDrop_mem (s ch c p n q route code) : (egressDrop s ch c p n q route code).mem = s.mem := by
  simp [egressDrop]

@[simp] theorem emitEnd_mem (s ch c n) : (emitEnd s ch c n).mem = s.mem := by simp [emitEnd]
@[simp] theorem emitFlit_mem (s ch k port n) : (emitFlit s ch k port n).mem = s.mem := by simp [emitFlit]

/-! ### Depot banks -/

@[simp] theorem bankTook_mem (s ch c bank src) : (bankTook s ch c bank src).mem = s.mem := rfl

@[simp] theorem execDepotPortEmit_mem (c port n s) : (after (execDepotPortEmit c port n s) s).mem = s.mem := by
  simp [execDepotPortEmit]

/-! ### Commands of the stream buffers -/

@[simp] theorem sbGuard_mem (r c s) (f : State → State) (hf : ∀ s, SameMem s (f s)) :
    (sbGuard r c s f).mem = s.mem := by
  simp only [sameMem_iff] at hf
  simp [sbGuard, hf]

@[simp] theorem execClSbCtrlCommit_mem (r c n s) : (after (execClSbCtrlCommit r c n s) s).mem = s.mem := by
  simp [execClSbCtrlCommit]

@[simp] theorem execSbConfigApply_mem (c n s) : (after (execSbConfigApply c n s) s).mem = s.mem := by
  simp only [execSbConfigApply, after_next]
  split <;> simp

@[simp] theorem execClSbCtrlSwap_mem (r c n s) : (after (execClSbCtrlSwap r c n s) s).mem = s.mem := by
  simp [execClSbCtrlSwap]

@[simp] theorem sbSwapNow_mem (s ch c n) : (sbSwapNow s ch c n).mem = s.mem := rfl
@[simp] theorem execSbSwap_mem (c n s) : (after (execSbSwap c n s) s).mem = s.mem := by simp [execSbSwap]
@[simp] theorem sbPubNow_mem (s ch c n) : (sbPubNow s ch c n).mem = s.mem := by simp [sbPubNow]
@[simp] theorem sbWait_mem (s w c n pub) : (sbWait s w c n pub).mem = s.mem := rfl

@[simp] theorem execClSbCtrlPub_mem (r c n s) : (after (execClSbCtrlPub r c n s) s).mem = s.mem := by
  refine rowGate_mem _ _ _ _ fun s => sameMem_iff.2 (sbGuard_mem _ _ _ _ fun s => sameMem_iff.2 ?_)
  split <;> simp

@[simp] theorem execClSbCtrlRel_mem (r c n s) : (after (execClSbCtrlRel r c n s) s).mem = s.mem := by
  refine rowGate_mem _ _ _ _ fun s => sameMem_iff.2 (sbGuard_mem _ _ _ _ fun s => sameMem_iff.2 ?_)
  (repeat' split) <;> simp

@[simp] theorem sbDueAct_mem (ch s d) : (sbDueAct ch s d).mem = s.mem := by simp [sbDueAct]
@[simp] theorem sbDueRun_mem (s ch c w) : (sbDueRun s ch c w).mem = s.mem := by simp [sbDueRun]

@[simp] theorem execClSbCtrlFlush_mem (r c n s) : (after (execClSbCtrlFlush r c n s) s).mem = s.mem := by
  simp [execClSbCtrlFlush]

/-! ### Dolly descriptors -/

@[simp] theorem egcStop_mem (s ch c n code) : (egcStop s ch c n code).mem = s.mem := by simp [egcStop]

@[simp] theorem egcStep_mem (s ch c n d) : (egcStep s ch c n d).1.mem = s.mem := by
  simp only [egcStep]
  (repeat' split) <;> simp

@[simp] theorem egcRun_mem (k s ch c n) : (egcRun k s ch c n).mem = s.mem := by
  induction k generalizing s with
  | zero => rfl
  | succ k ih =>
    unfold egcRun
    split
    · rfl
    · next d _ =>
      have step := egcStep_mem s ch c n d
      split
      · next h => rw [ih, ← step, h]
      · next h => rw [← step, h]

theorem dollyWrite_mem {s t : State} {ch c n : Nat} {d : DSlot} (h : dollyWrite s ch c n d = some t) :
    t.mem = s.mem := by
  simp only [dollyWrite, Option.ite_none_left_eq_some, Option.some.injEq] at h
  obtain ⟨-, rfl⟩ := h
  split <;> simp

@[simp] theorem startPreload_mem (ch s c) : (startPreload ch s c).mem = s.mem := by
  unfold startPreload
  split <;> simp

/-! ### Commands of the sync unit -/

@[simp] theorem busyAnswer_mem (s ch r) : (busyAnswer s ch r).mem = s.mem := by
  unfold busyAnswer
  split <;> simp

@[simp] theorem addWaiter_mem (s ch r bar thr) : (addWaiter s ch r bar thr).mem = s.mem := by
  unfold addWaiter
  split <;> simp

@[simp] theorem execStewardPark_mem (w s) : (after (execStewardPark w s) s).mem = s.mem := by
  simp only [execStewardPark, after_next]
  split <;> simp

@[simp] theorem execSyncOutPulse_mem (s) : (after (execSyncOutPulse s) s).mem = s.mem := by simp [execSyncOutPulse]
@[simp] theorem execSyncOutEnd_mem (s) : (after (execSyncOutEnd s) s).mem = s.mem := by simp [execSyncOutEnd]

@[simp] theorem execChSyncselWrite_mem (r ch v s) : (after (execChSyncselWrite r ch v s) s).mem = s.mem := by
  simp [execChSyncselWrite]

@[simp] theorem syncCtrl_mem (r ch s) (f : State → Nat → State) (hf : ∀ s a, SameMem s (f s a)) :
    (syncCtrl r ch s f).mem = s.mem := by
  simp only [sameMem_iff] at hf
  simp [syncCtrl, hf]

@[simp] theorem execChSyncctrlUnpoison_mem (r ch s) : (after (execChSyncctrlUnpoison r ch s) s).mem = s.mem := by
  simp [execChSyncctrlUnpoison]

/-! ### Non-finite monitor and predictor -/

@[simp] theorem nfCode_mem (s ch code) : (nfCode s ch code).mem = s.mem := rfl

@[simp] theorem nfGuard_mem (r ch s) (f : State → State) (hf : ∀ s, SameMem s (f s)) :
    (nfGuard r ch s f).mem = s.mem := by
  simp only [sameMem_iff] at hf
  simp [nfGuard, hf]

@[simp] theorem execChNfctrlArm_mem (r ch s) : (after (execChNfctrlArm r ch s) s).mem = s.mem := by
  simp [execChNfctrlArm]

@[simp] theorem execChNfctrlAbort_mem (r ch s) : (after (execChNfctrlAbort r ch s) s).mem = s.mem := by
  simp [execChNfctrlAbort]

@[simp] theorem execChNfcfgCommit_mem (r ch s) : (after (execChNfcfgCommit r ch s) s).mem = s.mem := by
  simp [execChNfcfgCommit]

@[simp] theorem execNfConfigApply_mem (ch s) : (after (execNfConfigApply ch s) s).mem = s.mem := by
  simp only [execNfConfigApply, after_next]
  split <;> simp

@[simp] theorem predQuery_mem (s ch f k) : (predQuery s ch f k).1.mem = s.mem := by
  simp only [predQuery]
  (repeat' split) <;> simp

@[simp] theorem predUpdate_mem (s ch f k v) : (predUpdate s ch f k v).mem = s.mem := by simp [predUpdate]

@[simp] theorem execChPredctrlClear_mem (r ch s) : (after (execChPredctrlClear r ch s) s).mem = s.mem := by
  simp [execChPredctrlClear]

/-! ### Reels and the load sequencer -/

@[simp] theorem execChLdctrlGo_mem (r ch s) : (after (execChLdctrlGo r ch s) s).mem = s.mem := by
  simp [execChLdctrlGo]

@[simp] theorem takeCluster_mem (ch l s c) : (takeCluster ch l s c).mem = s.mem := by
  rw [takeCluster, wakeDistrict_mem, setClu_mem, setReg_mem, setReg_mem, mem_foldl fun _ _ => fset_mem ..]
  rfl

@[simp] theorem applyRemap_mem (s ch c) : (applyRemap s ch c).mem = s.mem := by simp [applyRemap]

@[simp] theorem freshTile_mem (ch c mode seed s t) : (freshTile ch c mode seed s t).mem = s.mem := by
  rw [freshTile]
  exact (mem_foldl (by simp) _ _).trans rfl

@[simp] theorem tileRec_mem (r ch c s t) : (tileRec r ch c s t).mem = s.mem := by simp [tileRec]
@[simp] theorem applySteward_mem (ch s r) : (applySteward ch s r).mem = s.mem := by simp [applySteward]

@[simp] theorem freshCluster_mem (ch b s c) : (freshCluster ch b s c).mem = s.mem := by
  rw [freshCluster, setClu_mem, fset_mem, fset_mem, mem_foldl (by simp), mem_foldl (by simp), mem_foldl (by simp),
    mem_foldl (by simp), applyRemap_mem]

@[simp] theorem execChLdctrlCommit_mem (r ch s) : (after (execChLdctrlCommit r ch s) s).mem = s.mem := by
  simp [execChLdctrlCommit]

@[simp] theorem releaseStw_mem (s ch c w entry run) : (releaseStw s ch c w entry run).mem = s.mem := rfl

@[simp] theorem releaseTiles_mem (s ch c) : (releaseTiles s ch c).mem = s.mem := by
  simp only [releaseTiles]
  split
  · exact mem_foldl (fun _ _ => fset_mem ..) _ _
  · rw [releaseStw_mem, releaseStw_mem, mem_foldl fun _ _ => fset_mem ..]

@[simp] theorem applyStep_mem (ch k s c) : (applyStep ch k s c).mem = s.mem := by simp [applyStep]
@[simp] theorem applySteps_mem (s ch k) : (applySteps s ch k).mem = s.mem := by simp [applySteps]

/-! ### The Seal unit -/

@[simp] theorem setRun_mem (s ch) (f : SealRun → SealRun) : (setRun s ch f).mem = s.mem := rfl
@[simp] theorem sealAsk_mem (s ch e l) : (sealAsk s ch e l).mem = s.mem := by simp [sealAsk]

@[simp] theorem execSealEntryBegin_mem (ch s) : (after (execSealEntryBegin ch s) s).mem = s.mem := by
  simp only [execSealEntryBegin, after_next]
  (repeat' split) <;> simp

@[simp] theorem execSealContextLoadDone_mem (ch s) : (after (execSealContextLoadDone ch s) s).mem = s.mem := by
  simp only [execSealContextLoadDone, after_next]
  (repeat' split) <;> simp

@[simp] theorem noiseEnd_mem (s ch n list which value) : (noiseEnd s ch n list which value).mem = s.mem := by
  simp [noiseEnd]

@[simp] theorem execSealCheckDone_mem (ch s) : (after (execSealCheckDone ch s) s).mem = s.mem := by
  simp only [execSealCheckDone, after_next]
  (repeat' split) <;> simp

@[simp] theorem bootstrap_mem (s ch x bsk jobs) : (bootstrap s ch x bsk jobs).1.mem = s.mem := rfl

@[simp] theorem execKeyStreamRead_mem (ch s) : (after (execKeyStreamRead ch s) s).mem = s.mem := by
  simp only [execKeyStreamRead, after_next]
  (repeat' split) <;> simp

@[simp] theorem execSealRefreshDone_mem (ch s) : (after (execSealRefreshDone ch s) s).mem = s.mem := by
  simp only [execSealRefreshDone, after_next, bootstrap]
  (repeat' split) <;> simp

@[simp] theorem execSealPbsPassDone_mem (ch s) : (after (execSealPbsPassDone ch s) s).mem = s.mem := by
  simp only [execSealPbsPassDone, after_next]
  (repeat' split) <;> simp

@[simp] theorem execSealKswPassDone_mem (ch s) : (after (execSealKswPassDone ch s) s).mem = s.mem := by
  simp only [execSealKswPassDone, after_next]
  (repeat' split) <;> simp

@[simp] theorem execSealLinearDone_mem (ch s) : (after (execSealLinearDone ch s) s).mem = s.mem := by
  simp only [execSealLinearDone, after_next]
  split <;> simp

theorem writeOut_mem (ch fn acc t) : (writeOut ch fn acc t).1.mem = acc.1.mem := by
  simp only [writeOut]
  split <;> simp

theorem foldl_writeOut_mem (ch : Nat) (fn : Option Nat) (l : List (Nat × SealObj))
    (acc : State × List (Nat × List Nat)) : (l.foldl (writeOut ch fn) acc).1.mem = acc.1.mem := by
  induction l generalizing acc with
  | nil => rfl
  | cons t r ih => exact (ih _).trans (writeOut_mem ch fn acc t)

@[simp] theorem execSealWriteBegin_mem (ch s) : (after (execSealWriteBegin ch s) s).mem = s.mem := by
  simp only [execSealWriteBegin, after_next]
  (repeat' split) <;> simp [foldl_writeOut_mem]

@[simp] theorem sealAbort_mem (s ch code) : (sealAbort s ch code).mem = s.mem := by
  unfold sealAbort
  split <;> simp

@[simp] theorem barQueue_mem (s ch) : (barQueue s ch).mem = s.mem := rfl
@[simp] theorem disableNow_mem (s ch) : (disableNow s ch).mem = s.mem := by simp [disableNow]

@[simp] theorem sealWrite_mem (s r ch) (f : State → State) (hf : ∀ s, SameMem s (f s)) :
    (sealWrite s r ch f).mem = s.mem := by
  simp only [sameMem_iff] at hf
  simp [sealWrite, hf]

@[simp] theorem execSealCtrlDisable_mem (r ch s) : (after (execSealCtrlDisable r ch s) s).mem = s.mem := by
  simp [execSealCtrlDisable]

@[simp] theorem execSealCtrlEnable_mem (r ch s) : (after (execSealCtrlEnable r ch s) s).mem = s.mem := by
  simp [execSealCtrlEnable]

/-! ### Virtual functions -/

@[simp] theorem configWrite_mem (s) (f : State → State) (hf : ∀ s, SameMem s (f s)) :
    (configWrite s f).mem = s.mem := by
  simp only [sameMem_iff] at hf
  simp [configWrite, hf]

@[simp] theorem execVfEnable_mem (n s) : (after (execVfEnable n s) s).mem = s.mem := by simp [execVfEnable]
@[simp] theorem hubDisable_mem (s f) : (hubDisable s f).mem = s.mem := by simp [hubDisable]
@[simp] theorem vfDisable_mem (s f) : (vfDisable s f).mem = s.mem := by simp [vfDisable]
@[simp] theorem execVfEnableClear_mem (s) : (after (execVfEnableClear s) s).mem = s.mem := by simp [execVfEnableClear]
@[simp] theorem execVfFlr_mem (f s) : (after (execVfFlr f s) s).mem = s.mem := by simp [execVfFlr]
@[simp] theorem execPf0Flr_mem (s) : (after (execPf0Flr s) s).mem = s.mem := by simp [execPf0Flr]
@[simp] theorem portReset_mem (s) : (portReset s).mem = s.mem := by simp [portReset]
@[simp] theorem sealDisable_mem (s ch f) : (sealDisable s ch f).mem = s.mem := by simp [sealDisable]
@[simp] theorem collDisable_mem (s ch f) : (collDisable s ch f).mem = s.mem := by simp [collDisable]
@[simp] theorem scrubQueue_mem (ch s n) : (scrubQueue ch s n).mem = s.mem := rfl
@[simp] theorem fenceDone_mem (s ch) : (fenceDone s ch).mem = s.mem := by simp [fenceDone]

@[simp] theorem execChRptctrlCommit_mem (r ch s) : (after (execChRptctrlCommit r ch s) s).mem = s.mem := by
  simp [execChRptctrlCommit]

@[simp] theorem execHubRptCopyUpdate_mem (ch s) : (after (execHubRptCopyUpdate ch s) s).mem = s.mem := by
  simp [execHubRptCopyUpdate]

@[simp] theorem startFence_mem (s ch) : (startFence s ch).mem = s.mem := rfl

@[simp] theorem execChRptctrlFence_mem (r ch s) : (after (execChRptctrlFence r ch s) s).mem = s.mem := by
  simp [execChRptctrlFence]

@[simp] theorem execHubRptfenceStart_mem (r mask s) : (after (execHubRptfenceStart r mask s) s).mem = s.mem := by
  simp [execHubRptfenceStart]

@[simp] theorem abortSlot_mem (ch code s x) : (abortSlot ch code s x).mem = s.mem := by simp [abortSlot]

@[simp] theorem execVfGrantselWrite_mem (r f v s) : (after (execVfGrantselWrite r f v s) s).mem = s.mem := by
  simp [execVfGrantselWrite]

@[simp] theorem execVfWinselWrite_mem (r f v s) : (after (execVfWinselWrite r f v s) s).mem = s.mem := by
  simp [execVfWinselWrite]

/-! ### The host port -/

@[simp] theorem execPerstNEdge_mem (s) : (after (execPerstNEdge s) s).mem = s.mem := by simp [execPerstNEdge]

@[simp] theorem execPerstNFilterExpiry_mem (s) : (after (execPerstNFilterExpiry s) s).mem = s.mem := by
  simp [execPerstNFilterExpiry]

@[simp] theorem execPerstNDeassert_mem (s) : (after (execPerstNDeassert s) s).mem = s.mem := by
  simp [execPerstNDeassert]

@[simp] theorem execPcieLinkReady_mem (rate width flit s) :
    (after (execPcieLinkReady rate width flit s) s).mem = s.mem := by
  simp [execPcieLinkReady]

@[simp] theorem execPcieLinkDown_mem (s) : (after (execPcieLinkDown s) s).mem = s.mem := by simp [execPcieLinkDown]

@[simp] theorem execPowerStateWrite_mem (f d3 s) : (after (execPowerStateWrite f d3 s) s).mem = s.mem := by
  simp [execPowerStateWrite]

@[simp] theorem ringCode_mem (s f n code) : (ringCode s f n code).mem = s.mem := rfl

@[simp] theorem ringDoorbell_mem (s f n v) (act : State → State) (hf : ∀ s, SameMem s (act s)) :
    (ringDoorbell s f n v act).mem = s.mem := by
  simp only [sameMem_iff] at hf
  simp [ringDoorbell, hf]

@[simp] theorem execSubmissionDoorbell_mem (f ring v s) :
    (after (execSubmissionDoorbell f ring v s) s).mem = s.mem := by
  simp [execSubmissionDoorbell]

@[simp] theorem execCompletionDoorbell_mem (f ring v s) :
    (after (execCompletionDoorbell f ring v s) s).mem = s.mem := by
  simp [execCompletionDoorbell]

@[simp] theorem execEventQueueDoorbell_mem (f v s) : (after (execEventQueueDoorbell f v s) s).mem = s.mem := by
  simp only [execEventQueueDoorbell, after_next]
  (repeat' split) <;> simp

@[simp] theorem ringApply_mem (s f n c) : (ringApply s f n c).mem = s.mem := rfl

@[simp] theorem ringWrite_mem (s r f n) (act : State → State) (hf : ∀ s, SameMem s (act s)) :
    (ringWrite s r f n act).mem = s.mem := by
  simp only [sameMem_iff] at hf
  simp [ringWrite, hf]

@[simp] theorem execVfRingCtrlCommit_mem (r f ring s) : (after (execVfRingCtrlCommit r f ring s) s).mem = s.mem := by
  simp [execVfRingCtrlCommit]

@[simp] theorem execRingConfigApply_mem (f ring s) : (after (execRingConfigApply f ring s) s).mem = s.mem := by
  simp only [execRingConfigApply, after_next]
  split <;> simp

@[simp] theorem execVfRingCtrlEnable_mem (r f ring s) : (after (execVfRingCtrlEnable r f ring s) s).mem = s.mem := by
  simp [execVfRingCtrlEnable]

@[simp] theorem execVfRingCtrlDisable_mem (r f ring s) : (after (execVfRingCtrlDisable r f ring s) s).mem = s.mem := by
  simp [execVfRingCtrlDisable]

@[simp] theorem evqApply_mem (s f c) : (evqApply s f c).mem = s.mem := rfl

@[simp] theorem execVfEvqCtrlCommit_mem (r f s) : (after (execVfEvqCtrlCommit r f s) s).mem = s.mem := by
  simp [execVfEvqCtrlCommit]

@[simp] theorem execVfEvqCtrlEnable_mem (r f s) : (after (execVfEvqCtrlEnable r f s) s).mem = s.mem := by
  simp [execVfEvqCtrlEnable]

@[simp] theorem execVfEvqCtrlDisable_mem (r f s) : (after (execVfEvqCtrlDisable r f s) s).mem = s.mem := by
  simp [execVfEvqCtrlDisable]

@[simp] theorem execRingFetch_mem (s) : (after (execRingFetch s) s).mem = s.mem := by
  simp only [execRingFetch, after_next]
  (repeat' split) <;> simp

@[simp] theorem hubRefused_mem (s ch f code a) : (hubRefused s ch f code a).mem = s.mem := by simp [hubRefused]

@[simp] theorem startRing_mem (k s f n) : (startRing k s f n).mem = s.mem := by
  induction k generalizing s with
  | zero => rfl
  | succ k ih =>
    simp only [startRing]
    (repeat' split) <;> simp [ih]

@[simp] theorem execRingEntryArrive_mem (f ring entries s) :
    (after (execRingEntryArrive f ring entries s) s).mem = s.mem := by
  simp [execRingEntryArrive]

@[simp] theorem execFencedCommandStart_mem (f ring s) : (after (execFencedCommandStart f ring s) s).mem = s.mem := by
  simp [execFencedCommandStart]

@[simp] theorem onCmd_mem (s f n op) (act : State → CmdRef → HCmd → State) (hf : ∀ s a b, SameMem s (act s a b)) :
    (onCmd s f n op act).mem = s.mem := by
  simp only [sameMem_iff] at hf
  unfold onCmd
  split <;> simp [hf]

@[simp] theorem execCmdNop_mem (f ring s) : (after (execCmdNop f ring s) s).mem = s.mem := by simp [execCmdNop]
@[simp] theorem execCopyIn_mem (f ring s) : (after (execCopyIn f ring s) s).mem = s.mem := by simp [execCopyIn]
@[simp] theorem execFwcall_mem (f ring s) : (after (execFwcall f ring s) s).mem = s.mem := by simp [execFwcall]
@[simp] theorem wantMsi_mem (s f vec) : (wantMsi s f vec).mem = s.mem := rfl

@[simp] theorem execCompletionWrite_mem (f ring s) : (after (execCompletionWrite f ring s) s).mem = s.mem := by
  simp only [execCompletionWrite, after_next]
  split <;> simp

@[simp] theorem execEventWrite_mem (f s) : (after (execEventWrite f s) s).mem = s.mem := by
  simp only [execEventWrite, after_next]
  (repeat' split) <;> simp

@[simp] theorem execMsixSend_mem (f vec s) : (after (execMsixSend f vec s) s).mem = s.mem := by simp [execMsixSend]

@[simp] theorem execVfApBaseWrite_mem (r f ap v s) : (after (execVfApBaseWrite r f ap v s) s).mem = s.mem := by
  simp [execVfApBaseWrite]

@[simp] theorem hostFailAer_mem (s f k) : (hostFailAer s f k).mem = s.mem := by
  unfold hostFailAer
  split <;> simp

@[simp] theorem execHostReadFailure_mem (f ring copy why s) :
    (after (execHostReadFailure f ring copy why s) s).mem = s.mem := by
  simp only [execHostReadFailure, after_next]
  (repeat' split) <;> simp

/-! ### Caravan Transport -/

theorem ctSend_mem {s t : State} {ch n : Nat} {p : CPkt} (h : ctSend s ch n p = some t) : t.mem = s.mem := by
  obtain ⟨port, -, rfl⟩ := Option.map_eq_some_iff.1 h
  simp

theorem ctCtl_mem {s t : State} {ch n : Nat} {p : CPkt} (h : ctCtl s ch n p = some t) : t.mem = s.mem := by
  obtain ⟨u, hu, rfl⟩ := Option.map_eq_some_iff.1 h
  simp [ctSend_mem hu]

@[simp] theorem setStream_mem (s ch n k) (g : CStream → CStream) : (setStream s ch n k g).mem = s.mem := rfl

@[simp] theorem sendAck_mem (s ch n k) : (sendAck s ch n k).mem = s.mem := by
  simp only [sendAck]
  split
  · next h => simp [ctCtl_mem h]
  · rfl

@[simp] theorem execCtPacketTransmit_mem (ch flow stream s) :
    (after (execCtPacketTransmit ch flow stream s) s).mem = s.mem := by
  simp only [execCtPacketTransmit, after_next]
  split
  · rfl
  · split
    · rfl
    · split
      · rfl
      · next h => simp [ctSend_mem h]

@[simp] theorem ctResend_mem (s ch n p) : (ctResend s ch n p).mem = s.mem := by
  unfold ctResend
  split
  · rfl
  · next h => simp [ctSend_mem h]

@[simp] theorem execCtAckTimer_mem (ch flow stream s) : (after (execCtAckTimer ch flow stream s) s).mem = s.mem := by
  simp [execCtAckTimer]

@[simp] theorem ctTake_mem (s ch n ce p) : (ctTake s ch n ce p).mem = s.mem := by simp [ctTake]

@[simp] theorem ctReceive_mem (ch port frame ce s) : (ctReceive ch port frame ce s).mem = s.mem := by
  simp only [ctReceive]
  (repeat' split) <;> simp

@[simp] theorem execCtFrameReceive_mem (ch port frame ce s) :
    (after (execCtFrameReceive ch port frame ce s) s).mem = s.mem := by
  simp [execCtFrameReceive]

theorem takeCtl_mem {s t : State} {ch n ty : Nat} {p : CPkt} (h : takeCtl s ch n ty = some (p, t)) :
    t.mem = s.mem := by
  obtain ⟨q, -, hq⟩ := Option.map_eq_some_iff.1 h
  cases hq
  rfl

@[simp] theorem execCtAck_mem (ch flow s) : (after (execCtAck ch flow s) s).mem = s.mem := by
  simp only [execCtAck, after_next]
  split
  · rfl
  · next h =>
    split
    · exact takeCtl_mem h
    · refine (mem_foldl (fun s q => ?_) _ _).trans ?_
      · exact ctResend_mem ..
      · rw [setFlow_mem, setStream_mem, takeCtl_mem h]

@[simp] theorem readPeers_mem (s ch n) : (readPeers s ch n).mem = s.mem := rfl

@[simp] theorem sendOpen_mem (s ch n inc answer) : (sendOpen s ch n inc answer).mem = s.mem := by
  simp only [sendOpen]
  split
  · simp
  · generalize hc : ctCtl _ _ _ _ = o
    cases o with
    | none => simp
    | some t => simp [ctCtl_mem hc]

@[simp] theorem flowInDrop_mem (s ch n) : (flowInDrop s ch n).mem = s.mem := rfl

@[simp] theorem execCtOpenRetry_mem (ch flow s) : (after (execCtOpenRetry ch flow s) s).mem = s.mem := by
  simp [execCtOpenRetry]

@[simp] theorem execCtNoticeResend_mem (ch s) : (after (execCtNoticeResend ch s) s).mem = s.mem := by
  simp only [execCtNoticeResend, after_next]
  split <;> simp

@[simp] theorem deliverPkt_mem (s ch n p) : (deliverPkt s ch n p).mem = s.mem := rfl

@[simp] theorem ctGuard_mem (r ch s) (f : State → State) (hf : ∀ s, SameMem s (f s)) :
    (ctGuard r ch s f).mem = s.mem := by
  simp only [sameMem_iff] at hf
  simp [ctGuard, hf]

@[simp] theorem ctIgnore_mem (s ch n) : (ctIgnore s ch n).mem = s.mem := rfl

@[simp] theorem execCtFlowctrlCommit_mem (r ch s) : (after (execCtFlowctrlCommit r ch s) s).mem = s.mem := by
  simp [execCtFlowctrlCommit]

@[simp] theorem execCtFlowctrlOpen_mem (r ch s) : (after (execCtFlowctrlOpen r ch s) s).mem = s.mem := by
  simp [execCtFlowctrlOpen]

@[simp] theorem execCtFlowselWrite_mem (r ch v s) : (after (execCtFlowselWrite r ch v s) s).mem = s.mem := by
  simp [execCtFlowselWrite]

@[simp] theorem flowShadow_mem (s ch i v) : (flowShadow s ch i v).mem = s.mem := rfl
@[simp] theorem groupShadow_mem (s ch i v) : (groupShadow s ch i v).mem = s.mem := rfl

@[simp] theorem execCtGrpctrlCommit_mem (r ch s) : (after (execCtGrpctrlCommit r ch s) s).mem = s.mem := by
  simp [execCtGrpctrlCommit]

@[simp] theorem execCtGrpselWrite_mem (r ch v s) : (after (execCtGrpselWrite r ch v s) s).mem = s.mem := by
  simp [execCtGrpselWrite]

@[simp] theorem execCtLccfgCommit_mem (r ch s) : (after (execCtLccfgCommit r ch s) s).mem = s.mem := by
  simp [execCtLccfgCommit]

@[simp] theorem execCtPortCfgCommit_mem (r ch site s) : (after (execCtPortCfgCommit r ch site s) s).mem = s.mem := by
  simp [execCtPortCfgCommit]

@[simp] theorem execPortLinkDown_mem (ch port s) : (after (execPortLinkDown ch port s) s).mem = s.mem := by
  simp [execPortLinkDown]

@[simp] theorem execPortLinkUp_mem (ch port s) : (after (execPortLinkUp ch port s) s).mem = s.mem := by
  simp [execPortLinkUp]

/-! ### Collectives -/

@[simp] theorem collNeed_mem (s ch f l) (go : State → State) (hf : ∀ s, SameMem s (go s)) :
    (collNeed s ch f l go).mem = s.mem := by
  simp only [sameMem_iff] at hf
  simp [collNeed, hf]

@[simp] theorem sendSegs_mem (s ch l) : (sendSegs s ch l).mem = s.mem := by
  simp only [sendSegs]
  (repeat' split) <;> simp

@[simp] theorem collWrite_mem (s ch k lo xs psn) : (collWrite s ch k lo xs psn).mem = s.mem := by simp [collWrite]
@[simp] theorem collSeen_mem (s ch ncomp cmax) : (collSeen s ch ncomp cmax).mem = s.mem := rfl

@[simp] theorem finalise_mem (s ch k lo els psn ncomp cmax sends) :
    (finalise s ch k lo els psn ncomp cmax sends).mem = s.mem := by
  simp [finalise]

@[simp] theorem collDone_mem (s ch) : (collDone s ch).mem = s.mem := by
  unfold collDone
  split <;> simp

@[simp] theorem collAdvance_mem (k s x) : (collAdvance k s x).mem = s.mem := by
  fun_induction collAdvance k s x <;> simp_all

@[simp] theorem collGo_mem (s ch) : (collGo s ch).mem = s.mem := by
  unfold collGo
  split <;> simp

@[simp] theorem collStart_mem (s ch k g) : (collStart s ch k g).mem = s.mem := by simp [collStart]
@[simp] theorem collGoes_mem (s ch k g) : (collGoes s ch k g).mem = s.mem := by simp [collGoes]
@[simp] theorem collFeed_mem (s ch k g) : (collFeed s ch k g).mem = s.mem := by simp [collFeed]
@[simp] theorem collClip_mem (s ch k g) : (collClip s ch k g).mem = s.mem := by simp [collClip]
@[simp] theorem collRead_mem (s ch c) : (collRead s ch c).mem = s.mem := by simp [collRead]

@[simp] theorem execCollectiveBegin_mem (ch s) : (after (execCollectiveBegin ch s) s).mem = s.mem := by
  simp only [execCollectiveBegin, after_next]
  split <;> simp

@[simp] theorem collSegment_mem (s ch k g p) : (collSegment s ch k g p).mem = s.mem := by simp [collSegment]

@[simp] theorem execCtColl_mem (ch flow s) : (after (execCtColl ch flow s) s).mem = s.mem := by
  simp only [execCtColl, after_next]
  split <;> simp

@[simp] theorem execCollectiveTimeout_mem (ch s) : (after (execCollectiveTimeout ch s) s).mem = s.mem := by
  simp [execCollectiveTimeout]

/-! ### The hub -/

@[simp] theorem execHubCapsMirrorUpdate_mem (ch s) : (after (execHubCapsMirrorUpdate ch s) s).mem = s.mem := by
  simp [execHubCapsMirrorUpdate]

@[simp] theorem execPcieRefclkLoss_mem (s) : (after (execPcieRefclkLoss s) s).mem = s.mem := by
  simp [execPcieRefclkLoss]

@[simp] theorem stwWrite_mem (s r w) (f : State → State) (hf : ∀ s, SameMem s (f s)) :
    (stwWrite s r w f).mem = s.mem := by
  simp only [sameMem_iff] at hf
  simp [stwWrite, hf]

@[simp] theorem execClStwCtrlHalt_mem (r w s) : (after (execClStwCtrlHalt r w s) s).mem = s.mem := by
  simp [execClStwCtrlHalt]

@[simp] theorem execStewardHaltEffect_mem (w s) : (after (execStewardHaltEffect w s) s).mem = s.mem := by
  simp [execStewardHaltEffect]

@[simp] theorem execClStwCtrlResume_mem (r w s) : (after (execClStwCtrlResume r w s) s).mem = s.mem := by
  simp [execClStwCtrlResume]

@[simp] theorem execClStwCtrlStep_mem (r w s) : (after (execClStwCtrlStep r w s) s).mem = s.mem := by
  simp [execClStwCtrlStep]

/-! ### Resets, boot and the nonvolatile store -/

@[simp] theorem setFlash_mem (s m) : (setFlash s m).mem = s.mem := rfl
@[simp] theorem fProg_mem (s a k) : (fProg s a k).mem = s.mem := by fun_induction fProg s a k <;> simp_all
@[simp] theorem fErase_mem (s a n) : (fErase s a n).mem = s.mem := rfl
@[simp] theorem setBusy_mem (s b) : (setBusy s b).mem = s.mem := rfl
@[simp] theorem nvCode_mem (s c) : (nvCode s c).mem = s.mem := by simp [nvCode]
@[simp] theorem idleBusy_mem (s) : (idleBusy s).mem = s.mem := by simp [idleBusy]
@[simp] theorem nvStart_mem (s kind toLc g) : (nvStart s kind toLc g).mem = s.mem := rfl
@[simp] theorem nvProgram_mem (s j upto) : (nvProgram s j upto).mem = s.mem := by simp [nvProgram]

@[simp] theorem showStore_mem (s) : (showStore s).mem = s.mem := by
  simp only [showStore]
  (repeat' split) <;> simp

@[simp] theorem showRecords_mem (s) : (showRecords s).mem = s.mem := by simp [showRecords]

@[simp] theorem execNvFaultAppend_mem (s) : (after (execNvFaultAppend s) s).mem = s.mem := by
  simp only [execNvFaultAppend, after_next]
  split <;> simp

@[simp] theorem decommission_mem (s) : (decommission s).mem = s.mem := by simp [decommission]

@[simp] theorem execNvGenerationDone_mem (ok s) : (after (execNvGenerationDone ok s) s).mem = s.mem := by
  simp only [execNvGenerationDone, after_next]
  split
  · rfl
  · next j _ =>
    split
    · generalize hu : nvProgram { s with nv := { s.nv with job := none } } j 3 = u
      have mem : u.mem = s.mem := by rw [← hu, nvProgram_mem]
      rw [mem_ite, decommission_mem, ite_self, idleBusy_mem, mem_ite, mgmtEvent_mem, fset_mem, ite_self, showRecords_mem,
        nvCode_mem, showStore_mem]
      exact mem
    · exact (idleBusy_mem _).trans ((nvCode_mem ..).trans (fErase_mem ..))

@[simp] theorem execNvEraseDone_mem (s) : (after (execNvEraseDone s) s).mem = s.mem := by
  simp only [execNvEraseDone, after_next]
  (repeat' split) <;> simp

@[simp] theorem nvGuard_mem (r s) (f : State → State) (hf : ∀ s, SameMem s (f s)) : (nvGuard r s f).mem = s.mem := by
  simp only [sameMem_iff] at hf
  simp [nvGuard, hf]

@[simp] theorem nvKeep_mem (s kind g) : (nvKeep s kind g).mem = s.mem := by simp [nvKeep]

@[simp] theorem execNvCtrlCommit_mem (r s) : (after (execNvCtrlCommit r s) s).mem = s.mem := by
  simp [execNvCtrlCommit]

@[simp] theorem execNvCtrlLcreq_mem (r s) : (after (execNvCtrlLcreq r s) s).mem = s.mem := by
  refine hostGate_mem _ _ _ fun s => sameMem_iff.2 (nvGuard_mem _ _ _ fun s => sameMem_iff.2 ?_)
  dsimp only
  split <;> simp

@[simp] theorem execNvCtrlLccancel_mem (r s) : (after (execNvCtrlLccancel r s) s).mem = s.mem := by
  simp [execNvCtrlLccancel]

@[simp] theorem execNvCtrlFclear_mem (r s) : (after (execNvCtrlFclear r s) s).mem = s.mem := by
  simp [execNvCtrlFclear]

@[simp] theorem newChallenge_mem (s) : (newChallenge s).mem = s.mem := rfl

@[simp] theorem execNvCtrlAuthgo_mem (r s) : (after (execNvCtrlAuthgo r s) s).mem = s.mem := by
  simp [execNvCtrlAuthgo]

@[simp] theorem execPwrgdFall_mem (s) : (after (execPwrgdFall s) s).mem = s.mem := by simp [execPwrgdFall]

@[simp] theorem cutStore_mem (s cut) : (cutStore s cut).mem = s.mem := by
  simp only [cutStore]
  (repeat' split) <;> simp

@[simp] theorem execPwrgdHighStable_mem (s) : (after (execPwrgdHighStable s) s).mem = s.mem := by
  simp [execPwrgdHighStable]

@[simp] theorem execHubRstctrlWrite_mem (r v s) : (after (execHubRstctrlWrite r v s) s).mem = s.mem := by
  simp [execHubRstctrlWrite]

@[simp] theorem setResult_mem (s slot r) : (setResult s slot r).mem = s.mem := by simp [setResult]

@[simp] theorem trySlots_mem (minsvn failA failB l s) : (trySlots minsvn failA failB l s).1.mem = s.mem := by
  induction l generalizing s with
  | nil => rfl
  | cons n rest ih =>
    simp only [trySlots]
    (repeat' split) <;> simp [ih]

@[simp] theorem romPrepare_mem (s) : (romPrepare s).mem = s.mem := rfl
@[simp] theorem romLatch_mem (s sel tie) : (romLatch s sel tie).mem = s.mem := by simp [romLatch]
@[simp] theorem romStart_mem (s slot n) : (romStart s slot n).mem = s.mem := rfl

@[simp] theorem execRomBoot_mem (failA failB s) : (after (execRomBoot failA failB s) s).mem = s.mem := by
  simp only [execRomBoot, after_next]
  (repeat' split) <;> simp

@[simp] theorem applyRec_mem (s r) : (applyRec s r).mem = s.mem := by
  unfold applyRec
  split <;> simp

@[simp] theorem showMirrors_mem (s) : (showMirrors s).mem = s.mem := by simp [showMirrors]
@[simp] theorem latchMode_mem (s) : (latchMode s).mem = s.mem := by simp [latchMode]

@[simp] theorem execFieldReadyTimeout_mem (ch s) : (after (execFieldReadyTimeout ch s) s).mem = s.mem := by
  simp [execFieldReadyTimeout]

/-! ### Management, telemetry and debug -/

@[simp] theorem respond_mem (s code data) : (respond s code data).mem = s.mem := rfl

@[simp] theorem execSetEndpointId_mem (eid s) : (after (execSetEndpointId eid s) s).mem = s.mem := by
  simp [execSetEndpointId]

@[simp] theorem execGetEndpointId_mem (s) : (after (execGetEndpointId s) s).mem = s.mem := by simp [execGetEndpointId]

@[simp] theorem execGetEndpointUuid_mem (s) : (after (execGetEndpointUuid s) s).mem = s.mem := by
  simp [execGetEndpointUuid]

@[simp] theorem execGetMctpVersionSupport_mem (s) : (after (execGetMctpVersionSupport s) s).mem = s.mem := by
  simp [execGetMctpVersionSupport]

@[simp] theorem execGetMessageTypeSupport_mem (s) : (after (execGetMessageTypeSupport s) s).mem = s.mem := by
  simp [execGetMessageTypeSupport]

@[simp] theorem execGetVendorMessageSupport_mem (s) : (after (execGetVendorMessageSupport s) s).mem = s.mem := by
  simp [execGetVendorMessageSupport]

@[simp] theorem execSmbusArp_mem (addr s) : (after (execSmbusArp addr s) s).mem = s.mem := by simp [execSmbusArp]

@[simp] theorem execSmbusLineTimeout_mem (s) : (after (execSmbusLineTimeout s) s).mem = s.mem := by
  simp [execSmbusLineTimeout]

@[simp] theorem execDumpInfo_mem (s) : (after (execDumpInfo s) s).mem = s.mem := by simp [execDumpInfo]

@[simp] theorem execDumpRead_mem (off len s) : (after (execDumpRead off len s) s).mem = s.mem := by
  simp [execDumpRead]

@[simp] theorem execDumpClear_mem (s) : (after (execDumpClear s) s).mem = s.mem := by simp [execDumpClear]
@[simp] theorem execDumpEraseDone_mem (s) : (after (execDumpEraseDone s) s).mem = s.mem := by simp [execDumpEraseDone]

@[simp] theorem execDlyRead_mem (chn first count s) : (after (execDlyRead chn first count s) s).mem = s.mem := by
  simp only [execDlyRead, after_next]
  split <;> simp

@[simp] theorem execPldmBaseRequest_mem (cmd s) : (after (execPldmBaseRequest cmd s) s).mem = s.mem := by
  simp [execPldmBaseRequest]

@[simp] theorem sensorStep_mem (s p) : (sensorStep s p).mem = s.mem := by simp [sensorStep]

@[simp] theorem execSensorSample_mem (readings s) : (after (execSensorSample readings s) s).mem = s.mem := by
  simp [execSensorSample]

@[simp] theorem execPldmSensorRequest_mem (id s) : (after (execPldmSensorRequest id s) s).mem = s.mem := by
  simp [execPldmSensorRequest]

@[simp] theorem execRequestUpdate_mem (slot s) : (after (execRequestUpdate slot s) s).mem = s.mem := by
  simp [execRequestUpdate]

@[simp] theorem execFirmwareDataTransfer_mem (off data s) :
    (after (execFirmwareDataTransfer off data s) s).mem = s.mem := by
  simp only [execFirmwareDataTransfer, after_next]
  split <;> simp

@[simp] theorem withSram_mem (s u) : (withSram s u).mem = s.mem := by simp [withSram]

@[simp] theorem execVerifyComplete_mem (s) : (after (execVerifyComplete s) s).mem = s.mem := by
  simp only [execVerifyComplete, after_next]
  split <;> simp

@[simp] theorem execActivateFirmware_mem (s) : (after (execActivateFirmware s) s).mem = s.mem := by
  simp only [execActivateFirmware, after_next]
  split <;> simp

@[simp] theorem execAlertResponseRead_mem (s) : (after (execAlertResponseRead s) s).mem = s.mem := by
  simp only [execAlertResponseRead, after_next]
  (repeat' split) <;> simp

@[simp] theorem execAlertHoldoffEnd_mem (s) : (after (execAlertHoldoffEnd s) s).mem = s.mem := by
  simp [execAlertHoldoffEnd]

@[simp] theorem dlyGuard_mem (r ch s) (f : State → State) (hf : ∀ s, SameMem s (f s)) :
    (dlyGuard r ch s f).mem = s.mem := by
  simp only [sameMem_iff] at hf
  simp [dlyGuard, hf]

@[simp] theorem execChDlyctrlTrigarm_mem (r ch s) : (after (execChDlyctrlTrigarm r ch s) s).mem = s.mem := by
  simp [execChDlyctrlTrigarm]

@[simp] theorem execChDlyctrlClear_mem (r ch s) : (after (execChDlyctrlClear r ch s) s).mem = s.mem := by
  simp [execChDlyctrlClear]

@[simp] theorem execChDlymarkWrite_mem (r ch v s) : (after (execChDlymarkWrite r ch v s) s).mem = s.mem := by
  simp [execChDlymarkWrite]

@[simp] theorem execHubDlyfreeze_mem (r s) : (after (execHubDlyfreeze r s) s).mem = s.mem := by
  simp only [execHubDlyfreeze, after_next]
  split <;> simp

@[simp] theorem pmOn_mem (r src s) (f : State → Nat → State) (hf : ∀ s a, SameMem s (f s a)) :
    (pmOn r src s f).mem = s.mem := by
  simp only [sameMem_iff] at hf
  simp [pmOn, hf]

@[simp] theorem execPmctrlStart_mem (r src s) : (after (execPmctrlStart r src s) s).mem = s.mem := by
  simp [execPmctrlStart]

@[simp] theorem execPmctrlStop_mem (r src s) : (after (execPmctrlStop r src s) s).mem = s.mem := by
  simp [execPmctrlStop]

@[simp] theorem execPmctrlSnap_mem (r src s) : (after (execPmctrlSnap r src s) s).mem = s.mem := by
  refine rowGate_mem _ _ _ _ fun s => sameMem_iff.2 (pmOn_mem _ _ _ _ fun s i => sameMem_iff.2 ?_)
  exact mem_foldl (fun _ _ => setReg_mem ..) _ _

@[simp] theorem execKeeperDumpDone_mem (bad s) : (after (execKeeperDumpDone bad s) s).mem = s.mem := by
  rw [execKeeperDumpDone, after_next]
  split
  · rw [fset_mem, fset_mem, took_mem, fProg_mem]
  · rfl

@[simp] theorem jtag_mem (s level ir) (f : State → State) (hf : ∀ s, SameMem s (f s)) :
    (jtag s level ir f).mem = s.mem := by
  simp only [sameMem_iff] at hf
  simp [jtag, hf]

@[simp] theorem execBypass_mem (s) : (after (execBypass s) s).mem = s.mem := by simp [execBypass]
@[simp] theorem execExtest_mem (v s) : (after (execExtest v s) s).mem = s.mem := by simp [execExtest]

@[simp] theorem execSamplePreload_mem (v s) : (after (execSamplePreload v s) s).mem = s.mem := by
  simp [execSamplePreload]

@[simp] theorem execIdcode_mem (s) : (after (execIdcode s) s).mem = s.mem := by simp [execIdcode]
@[simp] theorem execClamp_mem (s) : (after (execClamp s) s).mem = s.mem := by simp [execClamp]
@[simp] theorem execHighz_mem (s) : (after (execHighz s) s).mem = s.mem := by simp [execHighz]

@[simp] theorem execDlyRd_mem (chn first count s) : (after (execDlyRd chn first count s) s).mem = s.mem := by
  rw [execDlyRd, after_next, jtag_mem]
  intro s
  rw [sameMem_iff]
  split <;> simp

@[simp] theorem execTrstNLow_mem (s) : (after (execTrstNLow s) s).mem = s.mem := by simp [execTrstNLow]

/-! ### Register access -/

@[simp] theorem clearRc_mem (s a g i lo) : (clearRc s a g i lo).mem = s.mem := by simp [clearRc]

@[simp] theorem regRead_mem (r a n s) : (regRead r a n s).1.mem = s.mem := by
  simp only [regRead]
  (repeat' split) <;> simp

@[simp] theorem onBit_mem {v k : Nat} {f : State → Host.Outcome State Fault Refusal} {s : State}
    (hf : SameMem s (after (f s) s)) : (onBit v k f s).mem = s.mem := by
  rw [sameMem_iff] at hf
  simp [onBit, hf]

@[simp] theorem putRw_mem (s g l i v) : (putRw s g l i v).mem = s.mem := rfl
@[simp] theorem putW1c_mem (s g l i v) : (putW1c s g l i v).mem = s.mem := rfl
@[simp] theorem putReg_mem (s g l i v) : (putReg s g l i v).mem = s.mem := rfl

@[simp] theorem hubPut_mem (r g i v s) : (hubPut r g i v s).mem = s.mem := by
  simp only [hubPut]
  (repeat' split) <;> simp

@[simp] theorem dstPut_mem (r d g i v s) : (dstPut r d g i v s).mem = s.mem := by
  unfold dstPut
  split <;> simp

@[simp] theorem latchHeads_mem (s t i) : (latchHeads s t i).mem = s.mem := by
  refine mem_foldl (fun s p => ?_) _ _
  split <;> simp

@[simp] theorem tlPut_mem (r t g i v s) : (tlPut r t g i v s).mem = s.mem := by
  simp only [tlPut]
  (repeat' split) <;> simp

@[simp] theorem sealPut_mem (r c g i v s) : (sealPut r c g i v s).mem = s.mem := by
  unfold sealPut
  split <;> simp

@[simp] theorem fdlPut_mem (r k g i v s) : (fdlPut r k g i v s).mem = s.mem := by
  unfold fdlPut
  split <;> simp

@[simp] theorem fnPut_mem (r f g i v s) : (fnPut r f g i v s).mem = s.mem := by
  simp only [fnPut]
  (repeat' split) <;> simp

@[simp] theorem armReg_mem (a off g i v s) : (armReg a off g i v s).mem = s.mem := by
  simp only [armReg]
  (repeat' split) <;> simp

theorem msixWrite_mem {s t : State} {r : Requester} {f off n v : Nat} (h : msixWrite s r f off n v = some t) :
    t.mem = s.mem := by
  simp only [msixWrite] at h
  split at h
  · cases h
  · split at h <;> cases h
    · rfl
    · simp

@[simp] theorem nfTurned_mem (s a n) : (nfTurned s a n).mem = s.mem := by
  simp only [nfTurned]
  (repeat' split) <;> simp

@[simp] theorem barMiss_mem (s r p) : (barMiss s r p).mem = s.mem := by
  unfold barMiss
  split <;> simp

@[simp] theorem cfgPut_mem (s f v k) : (cfgPut s f v k).mem = s.mem := by
  unfold cfgPut
  split <;> simp

@[simp] theorem cfgRequest_mem (s f) (act : State → State) (hf : ∀ s, SameMem s (act s)) :
    (cfgRequest s f act).mem = s.mem := by
  simp only [sameMem_iff] at hf
  simp [cfgRequest, hf]

@[simp] theorem execRegisterRead_mem (r a n s) : (after (execRegisterRead r a n s) s).mem = s.mem := by
  simp only [execRegisterRead, after_next]
  (repeat' split) <;> simp

@[simp] theorem vendorRead_mem (s r a width) : (vendorRead s r a width).1.mem = s.mem := by
  unfold vendorRead
  split <;> simp

@[simp] theorem execRegRead_mem (a width s) : (after (execRegRead a width s) s).mem = s.mem := by simp [execRegRead]

@[simp] theorem execDbgregRd_mem (a width s) : (after (execDbgregRd a width s) s).mem = s.mem := by
  simp [execDbgregRd]

@[simp] theorem execDbghalt_mem (t resume s) : (after (execDbghalt t resume s) s).mem = s.mem := by
  simp only [execDbghalt, after_next]
  (repeat' split) <;> simp

/-! ### Requests that a die link brings -/

@[simp] theorem linkRefused_mem (s ch f code a) : (linkRefused s ch f code a).mem = s.mem := by simp [linkRefused]

@[simp] theorem execFdlFrame_mem (l s) : (after (execFdlFrame l s) s).mem = s.mem := by
  simp only [execFdlFrame, after_next]
  split
  · rfl
  · next h => simp [takePkt_mem h]

/-! ### Craong-S instructions -/

@[simp] theorem Iss.done_mem (u s v) : (Iss.done u s v).mem = s.mem := by simp [Iss.done]
@[simp] theorem Iss.quiet_mem (u s) : (Iss.quiet u s).mem = s.mem := by simp [Iss.quiet]
@[simp] theorem Iss.stall_mem (u s why) : (Iss.stall u s why).mem = s.mem := rfl

@[simp] theorem Iss.held_mem (u s rd) (f : State → State) (hf : ∀ s, SameMem s (f s)) :
    (Iss.held u s rd f).mem = s.mem := by
  simp only [sameMem_iff] at hf
  unfold Iss.held
  split <;> simp [hf]

/-! ### Craong-S integer and system instructions -/

@[simp] theorem branchOn_mem (u s p) : (branchOn u s p).mem = s.mem := by simp [branchOn]
@[simp] theorem csrAct_mem (u s op n) : (csrAct u s op n).mem = s.mem := by simp [csrAct]

/-! ### Craong-S loads, stores and messages -/

@[simp] theorem penRec_mem (u s k rd r) (f : State → State) (hf : ∀ s, SameMem s (f s)) :
    (penRec u s k rd r f).mem = s.mem := by
  simp only [sameMem_iff] at hf
  simp [penRec, hf]

@[simp] theorem ctlBad_mem (s r a) : (ctlBad s r a).mem = s.mem := by simp [ctlBad]

@[simp] theorem ctlLoad_mem (s r ch a n) : (ctlLoad s r ch a n).1.mem = s.mem := by
  simp only [ctlLoad]
  (repeat' split) <;> simp

@[simp] theorem postReq_mem (s ch c w fn a op) : (postReq s ch c w fn a op).mem = s.mem := rfl
@[simp] theorem postFail_mem (s ch c w fn code a) : (postFail s ch c w fn code a).mem = s.mem := by simp [postFail]
@[simp] theorem postSend_mem (s ch c w dst body) : (postSend s ch c w dst body).mem = s.mem := by simp [postSend]

@[simp] theorem execPostedAckReturn_mem (w s) : (after (execPostedAckReturn w s) s).mem = s.mem := by
  simp only [execPostedAckReturn, after_next]
  (repeat' split) <;> simp

@[simp] theorem qrcvStall_mem (u s q) : (qrcvStall u s q).mem = s.mem := by simp [qrcvStall]

/-! ### Craong-S take and predictor instructions -/

@[simp] theorem leaveSlot_mem (s ch c w k) : (leaveSlot s ch c w k).mem = s.mem := rfl

/-! ### Craong-S dolly, sync and Seal instructions -/

@[simp] theorem slotNew_mem (s u a n) : (slotNew s u a n).mem = s.mem := rfl
@[simp] theorem sealSubmit_mem (s u n ctx collect) : (sealSubmit s u n ctx collect).mem = s.mem := rfl

end Sys2Proof.Machine

/-! The canonical form of memory under the functions that may store. A function that keeps memory has it by its `_mem`
lemma; the others come down to `writeMem`, `zeroMem`, `relayout` and the resets, each of which keeps the form. -/

namespace Sys2Proof.Machine

@[simp] theorem wf_ite (p : Prop) [Decidable p] (m n : List Host.Cell) :
    Memory.wf (if p then m else n) = if p then Memory.wf m else Memory.wf n :=
  apply_ite ..

/-- A fold keeps the canonical form where each of its steps does. -/
theorem wf_foldl {α : Type} {f : State → α → State} (hf : ∀ s a, Memory.wf s.mem → Memory.wf (f s a).mem) (l : List α)
    {s : State} (hs : Memory.wf s.mem) : Memory.wf (l.foldl f s).mem := by
  induction l generalizing s with
  | nil => exact hs
  | cons a r ih => exact ih (hf s a hs)

/-! ### Guards: each leaves what it guards, or keeps memory -/

section Guards

variable {s : State} {f : State → State} (hs : Memory.wf s.mem) (hf : ∀ s, Memory.wf s.mem → Memory.wf (f s).mem)
include hs hf

@[simp] theorem wf_hostGate (r : Requester) : Memory.wf (hostGate s r f).mem := by
  simp only [hostGate]
  split
  · split
    · exact hf _ hs
    · simp [hs]
  · exact hf _ hs

theorem wf_blkWrite (r : Requester) (a : BlockRef) : Memory.wf (blkWrite s r a f).mem := by
  simp only [blkWrite]
  split
  · simp [hs]
  · split
    · simp [hs]
    · cases h : fencedWrite s a with
      | none => exact hf s hs
      | some t => simp [fencedWrite_mem h, hs]

@[simp] theorem wf_inChan (ch : Nat) : Memory.wf (inChan s ch f).mem := by
  unfold inChan
  split
  · exact hf s hs
  · exact hs

@[simp] theorem wf_outKeeper : Memory.wf (outKeeper s f).mem := by
  unfold outKeeper
  split
  · exact hs
  · exact hf s hs

@[simp] theorem wf_held (u : Iss) (rd : Nat) : Memory.wf (u.held s rd f).mem := by
  unfold Iss.held
  split
  · simp [hs]
  · exact hf s hs

@[simp] theorem wf_penRec (u : Iss) (k : Fin 4) (rd : Nat) (r : PenRec) : Memory.wf (penRec u s k rd r f).mem := by
  unfold penRec
  split
  · simp [hs]
  · exact hf _ (by simp [hs])

@[simp] theorem wf_ctGuard (r : Requester) (ch : Nat) : Memory.wf (ctGuard r ch s f).mem := by
  unfold ctGuard
  split
  · exact hf s hs
  · simp [hs]

@[simp] theorem wf_nfGuard (r : Requester) (ch : Nat) : Memory.wf (nfGuard r ch s f).mem := by
  unfold nfGuard
  split
  · exact hf s hs
  · simp [hs]

@[simp] theorem wf_dlyGuard (r : Requester) (ch : Nat) : Memory.wf (dlyGuard r ch s f).mem := by
  unfold dlyGuard
  split
  · exact hf s hs
  · simp [hs]

@[simp] theorem wf_jtag (level ir : Nat) : Memory.wf (jtag s level ir f).mem := by
  unfold jtag
  split
  · exact hs
  · exact hf _ hs

end Guards

@[simp] theorem wf_rowGate {s : State} {f : State → State} (hs : Memory.wf s.mem)
    (hf : ∀ s, Memory.wf s.mem → Memory.wf (f s).mem) (r : Requester) (a : BlockRef) :
    Memory.wf (rowGate s r a f).mem := by
  refine wf_hostGate hs (fun s hs => ?_) r
  split
  · exact wf_blkWrite hs hf r a
  · exact hs

@[simp] theorem wf_onCmd {s : State} {f : State → CmdRef → HCmd → State} (hs : Memory.wf s.mem)
    (hf : ∀ s c x, Memory.wf s.mem → Memory.wf (f s c x).mem) (g n op : Nat) :
    Memory.wf (onCmd s g n op f).mem := by
  unfold onCmd
  split
  · exact hs
  · exact hf _ _ _ (by simp [hs])

@[simp] theorem wf_onBit {s : State} {f : State → Host.Outcome State Fault Refusal} (hs : Memory.wf s.mem)
    (hf : ∀ s, Memory.wf s.mem → Memory.wf (after (f s) s).mem) (v k : Nat) :
    Memory.wf (onBit v k f s).mem := by
  unfold onBit
  split
  · exact hf s hs
  · exact hs

theorem wf_of_guardStore {s t : State} {key : Nat × Nat × Nat} {a : Nat} {bs : List DByte} {o : Option (Nat × Nat)}
    (hs : Memory.wf s.mem) (e : guardStore s key a bs = (t, o)) : Memory.wf t.mem := by
  simpa [e] using wf_guardStore s key a bs hs

/-! ### Sections -/

@[simp] theorem wf_applyUndo (ch c s r) (hs : Memory.wf s.mem) : Memory.wf (applyUndo ch c s r).mem := by
  unfold applyUndo
  split
  · exact wf_writeMem _ _ _ hs
  · rwa [mem_foldl (f := State.markPoison) fun _ _ => rfl]
  · exact hs

@[simp] theorem wf_squashSlot (s ch c k) (hs : Memory.wf s.mem) : Memory.wf (squashSlot s ch c k).mem := by
  rw [squashSlot, pmCount_mem, dlyRecord_mem, fadd_mem, setTake_mem, setClu_mem]
  refine wf_foldl (fun s r hs => wf_applyUndo ch c s r hs) _ ?_
  rw [dropHeld_mem, cancelSlots_mem, mem_foldl fun _ _ => sbSquash_mem .., setClu_mem, mapTiles_mem]
  exact hs

@[simp] theorem wf_closeWork (ch s c) (hs : Memory.wf s.mem) : Memory.wf (closeWork ch s c).mem := by
  rw [closeWork, setClu_mem, sealLeave_mem]
  refine wf_foldl (fun s k hs => by split <;> simp [hs]) _ ?_
  rw [setReg_mem, setReg_mem, setClu_mem, fset_mem, mem_foldl fun _ _ => by simp, orphanReqs_mem, dropHeld_mem, cancelSlots_mem,
    fset_mem]
  exact hs

@[simp] theorem wf_closeSection (s ch cs) (hs : Memory.wf s.mem) : Memory.wf (closeSection s ch cs).mem := by
  have closed := wf_foldl (fun s c hs => wf_closeWork ch s c hs) cs hs
  simpa [closeSection] using closed

@[simp] theorem wf_endSection (s ch cs) (hs : Memory.wf s.mem) : Memory.wf (endSection s ch cs).mem := by
  simp [endSection, hs]

@[simp] theorem wf_beginUnload (s ch sec cmd) (hs : Memory.wf s.mem) : Memory.wf (beginUnload s ch sec cmd).mem := by
  simp only [beginUnload]
  split
  · simp [hs]
  · next x _ =>
    have closed := wf_foldl (fun s c hs => wf_closeWork ch s c hs) x.cls hs
    simpa using closed

@[simp] theorem wf_settleIdle (n s ch) (hs : Memory.wf s.mem) : Memory.wf (settleIdle n s ch).mem := by
  induction n generalizing s with
  | zero => exact hs
  | succ n ih =>
    simp only [settleIdle]
    (repeat' split) <;> simp [hs, ih]

@[simp] theorem wf_settle (s ch) (hs : Memory.wf s.mem) : Memory.wf (settle s ch).mem := by simp [settle, hs]

@[simp] theorem wf_loadFailAt (s ch code unit) (hs : Memory.wf s.mem) : Memory.wf (loadFailAt s ch code unit).mem := by
  simp [loadFailAt, hs]

@[simp] theorem wf_loadFail (s ch code) (hs : Memory.wf s.mem) : Memory.wf (loadFail s ch code).mem := by
  simp [loadFail, hs]

@[simp] theorem wf_unitLeft (s ch) (hs : Memory.wf s.mem) : Memory.wf (unitLeft s ch).mem := by simp [unitLeft, hs]

@[simp] theorem wf_abortRunning (s ch c x code) (hs : Memory.wf s.mem) :
    Memory.wf (abortRunning s ch c x code).mem := by
  simp [abortRunning, hs]

@[simp] theorem wf_abortCluster (s ch c code) (hs : Memory.wf s.mem) : Memory.wf (abortCluster s ch c code).mem := by
  simp only [abortCluster]
  split <;> simp [hs]

@[simp] theorem wf_dropCluster (s ch c) (hs : Memory.wf s.mem) : Memory.wf (dropCluster s ch c).mem := by
  simp [dropCluster, hs, wf_zeroMem]

/-! ### A steward as other units act on it -/

@[simp] theorem wf_stwTrap (s ch c w kind code detail) (hs : Memory.wf s.mem) :
    Memory.wf (stwTrap s ch c w kind code detail).mem := by
  simp [stwTrap, hs]

@[simp] theorem wf_stwExc (s ch c w rd kind code detail) (hs : Memory.wf s.mem) :
    Memory.wf (stwExc s ch c w rd kind code detail).mem := by
  simp only [stwExc]
  split <;> simp [hs]

@[simp] theorem wf_stwSyncEnd (s ch w code v) (hs : Memory.wf s.mem) : Memory.wf (stwSyncEnd s ch w code v).mem := by
  simp only [stwSyncEnd]
  split <;> simp [hs]

/-! ### Ends of requests -/

@[simp] theorem wf_finishWhole (s ch r code data) (hs : Memory.wf s.mem) :
    Memory.wf (finishWhole s ch r code data).mem := by
  simp only [finishWhole]
  (repeat' split) <;> simp [hs]

@[simp] theorem wf_finish (s ch r code data) (hs : Memory.wf s.mem) : Memory.wf (finish s ch r code data).mem := by
  simp only [finish]
  (repeat' split) <;> simp [hs]

/-! ### Requests that leave by Caravan flows -/

@[simp] theorem wf_ctIssue (s ch r) (hs : Memory.wf s.mem) : Memory.wf (ctIssue s ch r).mem := by simp [ctIssue, hs]

@[simp] theorem wf_ctOpEnd (s ch n opid code data) (hs : Memory.wf s.mem) :
    Memory.wf (ctOpEnd s ch n opid code data).mem := by
  simp only [ctOpEnd]
  (repeat' split) <;> simp [hs]

/-! ### Sync objects -/

@[simp] theorem wf_answer (s ch who o code v) (hs : Memory.wf s.mem) : Memory.wf (answer s ch who o code v).mem := by
  simp [answer, hs]

@[simp] theorem wf_wakeWhere (s ch o code v) (p : Waiter → Bool) (hs : Memory.wf s.mem) :
    Memory.wf (wakeWhere s ch o code v p).mem := by
  simp only [wakeWhere]
  exact wf_foldl (fun s a hs => by simp [hs]) _ (by simp [hs])

@[simp] theorem wf_settleReq (s ch no code) (hs : Memory.wf s.mem) : Memory.wf (settleReq s ch no code).mem := by
  simp only [settleReq]
  split
  · exact hs
  · refine wf_finish _ _ _ _ _ ?_
    rw [mem_ite, countDiscard_mem, ite_self]
    exact wf_foldl (fun s g hs => by simp [hs, wf_storeBytes]) _ hs

@[simp] theorem wf_settleOne (ch code s k) (hs : Memory.wf s.mem) : Memory.wf (settleOne ch code s k).mem := by
  simp only [settleOne]
  split <;> simp [hs, wf_storeBytes, wf_storeOutside]

@[simp] theorem wf_settleHeld (s ch code) (hs : Memory.wf s.mem) : Memory.wf (settleHeld s ch code).mem := by
  simp only [settleHeld]
  exact wf_foldl (fun s a hs => by simp [hs]) _ (by simp [hs])

@[simp] theorem wf_latchVerdict (s ch code) (hs : Memory.wf s.mem) : Memory.wf (latchVerdict s ch code).mem := by
  simp [latchVerdict, hs]

@[simp] theorem wf_release (s ch o nf) (hs : Memory.wf s.mem) : Memory.wf (release s ch o nf).mem := by
  simp [release, hs]

@[simp] theorem wf_groupTry (s ch n) (hs : Memory.wf s.mem) : Memory.wf (groupTry s ch n).mem := by
  simp [groupTry, hs]

@[simp] theorem wf_poisonObj (s ch o) (hs : Memory.wf s.mem) : Memory.wf (poisonObj s ch o).mem := by
  simp only [poisonObj]
  (repeat' split) <;> simp [hs]

@[simp] theorem wf_complete (s ch o) (hs : Memory.wf s.mem) : Memory.wf (complete s ch o).mem := by
  simp only [complete]
  (repeat' split) <;> simp [hs]

@[simp] theorem wf_barLoop (k s ch o) (hs : Memory.wf s.mem) : Memory.wf (barLoop k s ch o).mem := by
  induction k generalizing s with
  | zero => exact hs
  | succ k ih =>
    simp only [barLoop]
    split
    · exact ih _ (by simp [hs])
    · exact hs

@[simp] theorem wf_barRun (s ch o) (hs : Memory.wf s.mem) : Memory.wf (barRun s ch o).mem := by simp [barRun, hs]
@[simp] theorem wf_arrive (s ch o n) (hs : Memory.wf s.mem) : Memory.wf (arrive s ch o n).mem := by simp [arrive, hs]

@[simp] theorem wf_counterSet (s ch o v) (hs : Memory.wf s.mem) : Memory.wf (counterSet s ch o v).mem := by
  simp [counterSet, hs]

@[simp] theorem wf_releaseArmed (s ch o nf) (hs : Memory.wf s.mem) : Memory.wf (releaseArmed s ch o nf).mem := by
  simp [releaseArmed, hs]

@[simp] theorem wf_syncPost (s ch o op n) (hs : Memory.wf s.mem) : Memory.wf (syncPost s ch o op n).1.mem := by
  simp only [syncPost]
  (repeat' split) <;> simp [hs]

@[simp] theorem wf_bindObj (s ch o v) (hs : Memory.wf s.mem) : Memory.wf (bindObj s ch o v).mem := by
  simp [bindObj, hs]

/-! ### Lost units -/

@[simp] theorem wf_flowOpsEnd (s ch n code) (hs : Memory.wf s.mem) : Memory.wf (flowOpsEnd s ch n code).mem := by
  simp only [flowOpsEnd]
  exact wf_foldl (fun s a hs => by simp [hs]) _ (by simp [hs])

@[simp] theorem wf_flowLost (s ch n code st) (hs : Memory.wf s.mem) : Memory.wf (flowLost s ch n code st).mem := by
  have groups (u : State) (f : Flow) (hu : Memory.wf u.mem) (l : SMap Group) :
      Memory.wf (l.foldl (fun s p => if groupUses s f p.2 then ctErr (poisonObj s ch p.2.bobj) ch code n 0 else s) u).mem :=
    wf_foldl (fun s p hs => by split <;> simp [hs]) l hu
  have ended : Memory.wf (setFlow (flowOpsEnd (setFlow (setFlowSt s ch n st) ch n fun f => { f with code := code, expiries := 0 })
      ch n code) ch n fun f => { f with streams := [], ins := [] }).mem := by simp [hs]
  rw [flowLost]
  split
  · rw [mem_ite, collEnd_mem, ite_self]
    exact groups _ _ ended _
  · exact groups _ _ ended _

@[simp] theorem wf_flowsReopen (s ch func) (hs : Memory.wf s.mem) : Memory.wf (flowsReopen s ch func).mem := by
  simp only [flowsReopen]
  exact wf_foldl (fun s a hs => by (repeat' split) <;> simp [hs]) _ (by simp [hs])

@[simp] theorem wf_flowDown (s ch n) (hs : Memory.wf s.mem) : Memory.wf (flowDown s ch n).mem := by
  simp [flowDown, hs]

@[simp] theorem wf_dieLost (s ch site code) (hs : Memory.wf s.mem) : Memory.wf (dieLost s ch site code).mem :=
  wf_foldl (fun s p hs => by (repeat' split) <;> simp [hs]) _ (by simp [hs])

@[simp] theorem wf_poisonQueue (s ch c q) (hs : Memory.wf s.mem) : Memory.wf (poisonQueue s ch c q).mem := by
  simp [poisonQueue, hs]

@[simp] theorem wf_poisonPlace (s k) (hs : Memory.wf s.mem) : Memory.wf (poisonPlace s k).mem := by
  simp only [poisonPlace]
  (repeat' split) <;> simp [hs]

/-! ### Fault controllers -/

@[simp] theorem wf_retireChannel (s ch code) (hs : Memory.wf s.mem) : Memory.wf (retireChannel s ch code).mem := by
  unfold retireChannel
  split
  · exact hs
  · extract_lets +onlyGivenNames reported persisted aborted answered
    have ha : Memory.wf aborted.mem := by simp [aborted, persisted, reported, hs]
    have hr : Memory.wf answered.mem := wf_foldl (fun s r hs => by split <;> simp [hs]) _ ha
    clear_value answered
    simp [hr]

@[simp] theorem wf_fenceCluster (s ch cl code) (hs : Memory.wf s.mem) :
    Memory.wf (fenceCluster s ch cl code).mem := by
  unfold fenceCluster
  extract_lets +onlyGivenNames aborted failed
  have hf : Memory.wf failed.mem := by simp [failed, aborted, hs]
  clear_value failed
  simp [hf]

@[simp] theorem wf_retirePc (s ch pc code) (hs : Memory.wf s.mem) : Memory.wf (retirePc s ch pc code).mem := by
  simp [retirePc, hs]

@[simp] theorem wf_retireDie (s ch site code) (hs : Memory.wf s.mem) : Memory.wf (retireDie s ch site code).mem := by
  simp [retireDie, hs]

@[simp] theorem wf_removePort (s ch port code) (hs : Memory.wf s.mem) : Memory.wf (removePort s ch port code).mem := by
  simp [removePort, hs]

@[simp] theorem wf_columnAction (s ch cl col code) (hs : Memory.wf s.mem) :
    Memory.wf (columnAction s ch cl col code).1.mem := by
  simp only [columnAction]
  (repeat' split) <;> simp [hs]

@[simp] theorem wf_fenceAction (s ch cl code) (hs : Memory.wf s.mem) :
    Memory.wf (fenceAction s ch cl code).1.mem := by
  simp only [fenceAction]
  split <;> simp [hs]

@[simp] theorem wf_channelAction (s ch code) (hs : Memory.wf s.mem) :
    Memory.wf (channelAction s ch code).1.mem := by
  simp only [channelAction]
  split <;> simp [hs]

@[simp] theorem wf_unitAction (s ch code f) (hs : Memory.wf s.mem) :
    Memory.wf (unitAction s ch code f).1.mem := by
  simp only [unitAction]
  split <;> simp [hs]

@[simp] theorem wf_takeAction (s ch ty cl unit loc code unitWide) (hs : Memory.wf s.mem) :
    Memory.wf (takeAction s ch ty cl unit loc code unitWide).1.mem := by
  simp only [takeAction]
  (repeat' split) <;> simp [hs]

@[simp] theorem wf_faultCore (s e) (hs : Memory.wf s.mem) : Memory.wf (faultCore s e).1.mem := by
  unfold faultCore
  extract_lets +onlyGivenNames src ty cl code sec s₁ s₂
  have h₂ : Memory.wf s₂.mem := by simp [s₂, s₁, hs]
  clear_value s₂
  split
  next s₃ ovf lv e₁ =>
  have h₃ : Memory.wf s₃.mem := by
    have := bucketAdd_mem s₂ src ty cl e.unit (evPoints e.kind)
    rwa [← this, e₁] at h₂
  split
  next s₄ locPerm e₂ =>
  have h₄ : Memory.wf s₄.mem := by
    have := locEvent_mem s₃ src ty e.loc.toNat e.time.toNat e.kind
    rwa [← this, e₂] at h₃
  extract_lets +onlyGivenNames cls act
  split
  next s₅ a e₃ =>
  have h₅ : Memory.wf s₅.mem := by
    have h := congrArg (fun x : State × Nat => Memory.wf x.1.mem) e₃
    rw [← h]
    simp [apply_ite Prod.fst, h₄]
  clear_value cls act
  simp [h₅]

@[simp] theorem wf_faultTake (s e) (hs : Memory.wf s.mem) : Memory.wf (faultTake s e).mem := by simp [faultTake, hs]

@[simp] theorem wf_execFaultEvent (e s) (hs : Memory.wf s.mem) : Memory.wf (after (execFaultEvent e s) s).mem := by
  simp [execFaultEvent, hs]

@[simp] theorem wf_execHeartbeatTimeout (ch s) (hs : Memory.wf s.mem) :
    Memory.wf (after (execHeartbeatTimeout ch s) s).mem := by
  rw [execHeartbeatTimeout, after_next]
  exact wf_inChan hs (fun s hs => by simp [hs]) _

@[simp] theorem wf_execPllRelockTimeout (d s) (hs : Memory.wf s.mem) :
    Memory.wf (after (execPllRelockTimeout d s) s).mem := by
  rw [execPllRelockTimeout, after_next]
  exact wf_inChan hs (fun s hs => by simp [hs]) _

/-! ### Die links -/

@[simp] theorem wf_linkFailed (s l code bringup) (hs : Memory.wf s.mem) :
    Memory.wf (linkFailed s l code bringup).mem := by
  simp [linkFailed, hs]

@[simp] theorem wf_negotiateFail (s l) (hs : Memory.wf s.mem) : Memory.wf (negotiateFail s l).mem := by
  simp [negotiateFail, hs]

@[simp] theorem wf_execAgree (l s) (hs : Memory.wf s.mem) : Memory.wf (after (execAgree l s) s).mem := by
  rw [execAgree, after_next]
  refine wf_outKeeper hs fun s hs => ?_
  split
  · exact hs
  · split
    · next e => simp [takeCtrl_mem e, hs]
    · (repeat' split) <;> simp [hs]

@[simp] theorem wf_execFdlStageTimeout (l s) (hs : Memory.wf s.mem) :
    Memory.wf (after (execFdlStageTimeout l s) s).mem := by
  rw [execFdlStageTimeout, after_next]
  exact wf_outKeeper hs fun s hs => by simp [hs]

@[simp] theorem wf_acceptPkt (s l p) (hs : Memory.wf s.mem) : Memory.wf (acceptPkt s l p).mem := by
  simp [acceptPkt, hs]

@[simp] theorem wf_takeSlots (l xs s) (hs : Memory.wf s.mem) : Memory.wf (takeSlots l xs s).mem := by
  induction xs generalizing s with
  | nil => exact hs
  | cons x xs ih =>
    simp only [takeSlots]
    (repeat' split) <;> simp [hs, ih]

@[simp] theorem wf_dataFlit (s l f) (hs : Memory.wf s.mem) : Memory.wf (dataFlit s l f).mem := by simp [dataFlit, hs]

@[simp] theorem wf_execFlitReceive (l flit s) (hs : Memory.wf s.mem) :
    Memory.wf (after (execFlitReceive l flit s) s).mem := by
  rw [execFlitReceive, after_next]
  refine wf_outKeeper hs fun s hs => ?_
  dsimp only
  (repeat' split) <;> simp [hs]

@[simp] theorem wf_execRetrainTimeout (l s) (hs : Memory.wf s.mem) :
    Memory.wf (after (execRetrainTimeout l s) s).mem := by
  rw [execRetrainTimeout, after_next]
  exact wf_outKeeper hs fun s hs => by simp [hs]

@[simp] theorem wf_strayResp (s l tag) (hs : Memory.wf s.mem) : Memory.wf (strayResp s l tag).mem := by
  simp [strayResp, hs]

@[simp] theorem wf_execFdlCmpl (l s) (hs : Memory.wf s.mem) : Memory.wf (after (execFdlCmpl l s) s).mem := by
  rw [execFdlCmpl, after_next]
  refine wf_outKeeper hs fun s hs => ?_
  split
  · exact hs
  · next e => split <;> simp [takePkt_mem e, hs]

@[simp] theorem wf_execFdlRdata (l s) (hs : Memory.wf s.mem) : Memory.wf (after (execFdlRdata l s) s).mem := by
  rw [execFdlRdata, after_next]
  refine wf_outKeeper hs fun s hs => ?_
  split
  · exact hs
  · next e => split <;> simp [takePkt_mem e, hs]

/-! ### Tiles -/

@[simp] theorem wf_execTileReservedEncoding (t s) (hs : Memory.wf s.mem) :
    Memory.wf (after (execTileReservedEncoding t s) s).mem := by
  simp [execTileReservedEncoding, hs]

/-! ### Sidings -/

@[simp] theorem wf_sidingOut (s ch c code) (hs : Memory.wf s.mem) : Memory.wf (sidingOut s ch c code).mem := by
  simp [sidingOut, hs]

@[simp] theorem wf_popUnit (s ch c t port) (hs : Memory.wf s.mem) : Memory.wf (popUnit s ch c t port).mem := by
  simp only [popUnit]
  split <;> simp [hs]

@[simp] theorem wf_dropUnit (s ch c t port) (hs : Memory.wf s.mem) : Memory.wf (dropUnit s ch c t port).mem := by
  simp [dropUnit, hs]

@[simp] theorem wf_rqPop (s ch c t port) (hs : Memory.wf s.mem) : Memory.wf (rqPop s ch c t port).mem := by
  simp [rqPop, hs]

@[simp] theorem wf_writeUnit (s ch c u prev bs) (hs : Memory.wf s.mem) :
    Memory.wf (writeUnit s ch c u prev bs).mem := by
  simp only [writeUnit]
  split
  · exact wf_writeMem _ _ _ hs
  · exact wf_writeMem _ _ _ (wf_writeMem _ _ _ hs)

@[simp] theorem wf_engineAppend (s ch c t p) (hs : Memory.wf s.mem) :
    Memory.wf (engineServe.engineAppend s ch c t p).mem := by
  simp only [engineServe.engineAppend]
  split <;> simp [hs]

@[simp] theorem wf_engineServe (s ch c q) (hs : Memory.wf s.mem) : Memory.wf (engineServe s ch c q).mem := by
  simp only [engineServe]
  split
  · split <;> simp [hs]
  · split <;> simp [hs]

@[simp] theorem wf_engineCycle (s ch c) (hs : Memory.wf s.mem) : Memory.wf (engineCycle s ch c).mem := by
  simp only [engineCycle]
  split <;> simp [hs]

/-! ### The fabric -/

@[simp] theorem wf_launch (s ch r) (at_ : Req → Nat) (inp) (hs : Memory.wf s.mem) :
    Memory.wf (launch s ch r at_ inp).mem := by
  have go (s : State) (r : Req) (hs : Memory.wf s.mem) : Memory.wf (match meshDest s ch (at_ r) r with
      | none => finish s ch r (routeOf s ch r.fn r.tga).2 []
      | some d => moveReq (setReq s ch r.no fun x => { x with dest := d }) ch r.no (.mesh (at_ r) inp)).mem := by
    split <;> simp [hs]
  unfold launch
  dsimp only
  split
  · exact go s r hs
  · exact wf_foldl (fun s k hs => go _ _ (by simp [hs])) _ (by simp [hs])

@[simp] theorem wf_siteReq (s ch site r) (hs : Memory.wf s.mem) : Memory.wf (siteReq s ch site r).mem := by
  simp only [siteReq]
  split <;> simp [hs]

@[simp] theorem wf_leaveTable (s ch r) (hs : Memory.wf s.mem) : Memory.wf (leaveTable s ch r).mem := by
  simp [leaveTable, hs]

@[simp] theorem wf_execTtEntryAssign (ch s) (hs : Memory.wf s.mem) :
    Memory.wf (after (execTtEntryAssign ch s) s).mem := by
  simp only [execTtEntryAssign, after_next]
  split <;> simp [hs]

@[simp] theorem wf_flitArrive (s ch c r port f) (hs : Memory.wf s.mem) :
    Memory.wf (flitArrive s ch c r port f).mem := by
  simp [flitArrive, hs]

@[simp] theorem wf_meshArrive (s ch c inp r) (hs : Memory.wf s.mem) : Memory.wf (meshArrive s ch c inp r).mem := by
  simp only [meshArrive]
  (repeat' split) <;> simp [hs]

@[simp] theorem wf_execGatewayMeshHop (c inp s) (hs : Memory.wf s.mem) :
    Memory.wf (after (execGatewayMeshHop c inp s) s).mem := by
  simp only [execGatewayMeshHop, after_next]
  (repeat' split) <;> simp [hs]

@[simp] theorem wf_performPart (s ch r lo n) (hs : Memory.wf s.mem) :
    Memory.wf (performPart s ch r lo n).1.mem := by
  simp only [performPart]
  (repeat' split) <;> simp [hs, wf_storeBytes, wf_storeOutside]

@[simp] theorem wf_performEnd (s ch no) (all : Nat → Bool) (blocks) (hs : Memory.wf s.mem) :
    Memory.wf (performEnd s ch no all blocks).mem := by
  simp only [performEnd]
  split <;> simp [hs]

@[simp] theorem wf_bankGrant (s ch c r b) (hs : Memory.wf s.mem) : Memory.wf (bankGrant s ch c r b).mem := by
  have part := wf_performPart (keepOwn s ch c r (inBlock 128 (tgaMem r.tga) r.len b).1 (inBlock 128 (tgaMem r.tga) r.len b).2) ch r
    (inBlock 128 (tgaMem r.tga) r.len b).1 (inBlock 128 (tgaMem r.tga) r.len b).2 (by simp [hs])
  simp only [bankGrant]
  split
  · simp [hs]
  · split
    · next e => rwa [e] at part
    · next e =>
      rw [e] at part
      simp [part]

@[simp] theorem wf_grantGranule (s ch r g) (hs : Memory.wf s.mem) : Memory.wf (grantGranule s ch r g).mem := by
  have part := wf_performPart s ch r (hbmAt ch (inBlock 64 (tgaOff r.tga) r.len g).1) (inBlock 64 (tgaOff r.tga) r.len g).2 hs
  simp only [grantGranule]
  split
  · simp [hs]
  · split
    · simp [hs]
    · split
      · next e => rwa [e] at part
      · next e =>
        rw [e] at part
        simp [part]

@[simp] theorem wf_execStackSlotGrant (ch site s) (hs : Memory.wf s.mem) :
    Memory.wf (after (execStackSlotGrant ch site s) s).mem := by
  simp only [execStackSlotGrant, after_next]
  (repeat' split) <;> simp [hs]

/-! ### Message queues -/

@[simp] theorem wf_enqueue (s ch c q) (hdr : Nat) (body) (hs : Memory.wf s.mem) :
    Memory.wf (enqueue s ch c q hdr body).mem := by
  simp [enqueue, hs]

@[simp] theorem wf_deliver (s ch c inp r) (h : Nat) (b) (hs : Memory.wf s.mem) :
    Memory.wf (deliver s ch c inp r h b).mem := by
  simp [deliver, hs]

@[simp] theorem wf_execHandlerDispatch (w s) (hs : Memory.wf s.mem) :
    Memory.wf (after (execHandlerDispatch w s) s).mem := by
  simp only [execHandlerDispatch, after_next]
  (repeat' split) <;> simp [hs]

@[simp] theorem wf_execClQctrlPoison (r c q s) (hs : Memory.wf s.mem) :
    Memory.wf (after (execClQctrlPoison r c q s) s).mem :=
  wf_rowGate hs (fun s hs => by simp [hs]) ..

/-! ### The tile array and its edge -/

@[simp] theorem wf_routeDone (ch c t s) (h : Nat × Flit × List Nat × Nat × Bool) (hs : Memory.wf s.mem) :
    Memory.wf (routeDone ch c t s h).mem := by
  simp [routeDone, hs]

@[simp] theorem wf_execFlitRoute (t s) (hs : Memory.wf s.mem) : Memory.wf (after (execFlitRoute t s) s).mem := by
  simp only [execFlitRoute, after_next]
  split
  · exact hs
  · exact wf_foldl (fun s h hs => wf_routeDone _ _ _ s h hs) _ (by simp [hs])

theorem wf_egressOwn {s u : State} {ch c : Nat} {r : Req} {h : Nat} {b : List DByte} (hs : Memory.wf s.mem)
    (e : egressOwn s ch c r h b = some u) : Memory.wf u.mem := by
  simp only [egressOwn] at e
  split at e
  · cases e; simp [hs]
  · split at e
    · cases e
    · cases e; simp [hs]

theorem wf_egressHere {s u : State} {ch c : Nat} {r : Req} (hs : Memory.wf s.mem) (e : egressHere s ch c r = some u) :
    Memory.wf u.mem := by
  simp only [egressHere] at e
  split at e
  · split at e <;> cases e
    simp [hs]
  · split at e
    · split at e <;> cases e
      simp [hs]
    · split at e
      · exact wf_egressOwn hs e
      · split at e
        · cases e; simp [hs]
        · split at e <;> cases e
          exact hs
    · cases e; simp [hs]

theorem wf_egressLeave {s u : State} {ch c : Nat} {r : Req} {entry : Bool} (hs : Memory.wf s.mem)
    (e : egressLeave s ch c r entry = some u) : Memory.wf u.mem := by
  simp only [egressLeave] at e
  split at e
  · cases e
  · split at e
    · cases e; simp [hs]
    · split at e
      · obtain ⟨-, moved⟩ := Option.ite_none_left_eq_some.1 e
        rw [← Option.some.inj moved]
        simp [hs]
      · exact wf_egressHere (by simp [hs]) e

theorem wf_egressMsg {s u : State} {ch c p route e : Nat} {t : List Flit} (hs : Memory.wf s.mem)
    (h : egressMsg s ch c p route e t = some u) : Memory.wf u.mem := by
  simp only [egressMsg] at h
  split at h
  · cases h; simp [hs]
  · split at h
    · cases h
    · obtain ⟨t, ht, rfl⟩ := Option.map_eq_some_iff.1 h
      simp [wf_egressLeave hs ht]

theorem wf_egressWrite {s u : State} {ch c p route e : Nat} {t : List Flit} (hs : Memory.wf s.mem)
    (h : egressWrite s ch c p route e t = some u) : Memory.wf u.mem := by
  simp only [egressWrite] at h
  generalize (if 2 ^ 44 ≤ bits e 23 38 * 64 + 64 * cnt (s.clu ch c).tokens route + (tokenBytes t).length then cUnitAbsent
    else accessCode _ _ _ _ _ _) = code at h
  split at h
  · cases h; simp [hs]
  · split at h
    · cases h
    · obtain ⟨v, hv, rfl⟩ := Option.map_eq_some_iff.1 h
      simp [wf_egressLeave (by simp [hs]) hv]

theorem wf_egressBuffer {s u : State} {ch c p route e : Nat} {f : Flit} (hs : Memory.wf s.mem)
    (h : egressBuffer s ch c p route e f = some u) : Memory.wf u.mem := by
  simp only [egressBuffer] at h
  split at h
  · cases h; simp [hs]
  · split at h
    · cases h
    · obtain ⟨t, ht, rfl⟩ := Option.map_eq_some_iff.1 h
      simp [wf_egressLeave hs ht]

theorem wf_egressSync {s u : State} {ch c p route e : Nat} {f : Flit} (hs : Memory.wf s.mem)
    (h : egressSync s ch c p route e f = some u) : Memory.wf u.mem := by
  simp only [egressSync] at h
  split at h
  · cases h; simp [hs]
  · generalize (if f.poison = true then [1] else []) = parts at h
    split at h
    · cases h; simp [hs]
    · split at h
      · cases h; simp [hs]
      · split at h
        · cases h
        · obtain ⟨t, ht, rfl⟩ := Option.map_eq_some_iff.1 h
          simp [wf_egressLeave hs ht]

theorem wf_egressTry {s u : State} {ch c p : Nat} (hs : Memory.wf s.mem) (h : egressTry s ch c p = some u) :
    Memory.wf u.mem := by
  simp only [egressTry] at h
  split at h
  · rwa [penFlit_mem h]
  · split at h
    · cases h
    · split at h
      · cases h; simp [hs]
      · split at h
        · cases h
        · split at h
          · exact wf_egressBuffer hs h
          · split at h
            · exact wf_egressSync hs h
            · obtain ⟨t, -, ht⟩ := Option.bind_eq_some_iff.1 h
              split at ht
              · exact wf_egressMsg hs ht
              · exact wf_egressWrite hs ht

@[simp] theorem wf_execEgressToken (c port s) (hs : Memory.wf s.mem) :
    Memory.wf (after (execEgressToken c port s) s).mem := by
  simp only [execEgressToken, after_next]
  split
  · exact hs
  · split
    · exact hs
    · next h => simpa using wf_egressTry hs h

@[simp] theorem wf_arrivalRow (s ch c inp) (held : Bool) (hs : Memory.wf s.mem) :
    Memory.wf (arrivalRow s ch c inp held).mem := by
  unfold arrivalRow
  split <;> simp [hs]

@[simp] theorem wf_execQueueArrival (c inp s) (hs : Memory.wf s.mem) :
    Memory.wf (after (execQueueArrival c inp s) s).mem := by
  simp [execQueueArrival, hs]

@[simp] theorem wf_execMessageEnqueueAfterWait (c inp s) (hs : Memory.wf s.mem) :
    Memory.wf (after (execMessageEnqueueAfterWait c inp s) s).mem := by
  simp [execMessageEnqueueAfterWait, hs]

@[simp] theorem wf_flitWrite (s ch c port f b) (hs : Memory.wf s.mem) :
    Memory.wf (flitWrite s ch c port f b).mem := by
  unfold flitWrite
  split
  · next e => exact wf_of_guardStore hs e
  · next e => simp [wf_of_guardStore hs e]

/-! ### Depot banks -/

@[simp] theorem wf_portBurst (s ch c bank port) (hs : Memory.wf s.mem) :
    Memory.wf (portBurst s ch c bank port).mem := by
  simp only [portBurst]
  (repeat' split) <;> simp [hs]

@[simp] theorem wf_execDepotBankGrant (c bank s) (hs : Memory.wf s.mem) :
    Memory.wf (after (execDepotBankGrant c bank s) s).mem := by
  simp only [execDepotBankGrant, after_next]
  (repeat' split) <;> simp [hs]

@[simp] theorem wf_execDepotInterfaceFlit (c port s) (hs : Memory.wf s.mem) :
    Memory.wf (after (execDepotInterfaceFlit c port s) s).mem := by
  simp only [execDepotInterfaceFlit, after_next]
  split
  · exact hs
  · split
    · generalize hp : penFlit _ _ _ _ _ = o
      cases o with
      | none => exact hs
      | some t => simp [penFlit_mem hp, hs]
    · exact hs
    · (repeat' split) <;> simp [hs]

@[simp] theorem wf_execSidingEngineCycle (c s) (hs : Memory.wf s.mem) :
    Memory.wf (after (execSidingEngineCycle c s) s).mem := by
  simp only [execSidingEngineCycle, after_next]
  split <;> simp [hs]

/-! ### Dolly descriptors -/

@[simp] theorem wf_appendPiece (s ch c n d) (hs : Memory.wf s.mem) :
    Memory.wf (appendPiece s ch c n d).1.mem := by
  have marked : Memory.wf (match d.take with
      | some k => if d.put = 0 then sbMark s ch c d.buf k else s
      | none => s).mem := by split <;> simp [hs]
  simp only [appendPiece]
  split
  · exact hs
  · split
    · next e => exact wf_of_guardStore marked e
    · next e => simp [wf_of_guardStore marked e]

@[simp] theorem wf_appendLane (k s ch c n) (hs : Memory.wf s.mem) : Memory.wf (appendLane k s ch c n).mem := by
  induction k generalizing s with
  | zero => exact hs
  | succ k ih =>
    unfold appendLane
    split
    · exact hs
    · next d _ =>
      have piece := wf_appendPiece s ch c n d hs
      split
      · exact hs
      · split
        · next e => rwa [e] at piece
        · next e => rw [e] at piece; exact ih _ piece

@[simp] theorem wf_takeData (s ch c n d bs) (hs : Memory.wf s.mem) : Memory.wf (takeData s ch c n d bs).mem := by
  simp [takeData, hs]

@[simp] theorem wf_dollyRead (s ch c n d) (hs : Memory.wf s.mem) : Memory.wf (dollyRead s ch c n d).mem := by
  simp [dollyRead, hs]

@[simp] theorem wf_dollyNext (s ch c n d) (hs : Memory.wf s.mem) : Memory.wf (dollyNext s ch c n d).mem := by
  unfold dollyNext
  split
  · simp [hs]
  · split
    · next h => rwa [dollyWrite_mem h]
    · simp [hs]

@[simp] theorem wf_execDollyRequestIssue (c slot s) (hs : Memory.wf s.mem) :
    Memory.wf (after (execDollyRequestIssue c slot s) s).mem := by
  simp only [execDollyRequestIssue, after_next]
  split <;> simp [hs]

@[simp] theorem wf_execDollyDataReturn (c slot s) (hs : Memory.wf s.mem) :
    Memory.wf (after (execDollyDataReturn c slot s) s).mem := by
  simp only [execDollyDataReturn, after_next]
  (repeat' split) <;> simp [hs]

@[simp] theorem wf_execDescriptorComplete (c slot s) (hs : Memory.wf s.mem) :
    Memory.wf (after (execDescriptorComplete c slot s) s).mem := by
  simp only [execDescriptorComplete, after_next]
  split <;> simp [hs]

/-! ### Commands of the sync unit -/

@[simp] theorem wf_execSyncOperation (ch bank s) (hs : Memory.wf s.mem) :
    Memory.wf (after (execSyncOperation ch bank s) s).mem := by
  rw [execSyncOperation, after_next]
  refine wf_inChan hs (fun s hs => ?_) _
  dsimp only
  (repeat' split) <;> simp [hs]

@[simp] theorem wf_execWaitRegistration (ch bank s) (hs : Memory.wf s.mem) :
    Memory.wf (after (execWaitRegistration ch bank s) s).mem := by
  rw [execWaitRegistration, after_next]
  refine wf_inChan hs (fun s hs => ?_) _
  dsimp only
  split <;> simp [hs]

@[simp] theorem wf_execRemoteWaitRetry (ch s) (hs : Memory.wf s.mem) :
    Memory.wf (after (execRemoteWaitRetry ch s) s).mem := by
  rw [execRemoteWaitRetry, after_next]
  refine wf_inChan hs (fun s hs => ?_) _
  split <;> simp [hs]

@[simp] theorem wf_execChSyncctrlPoison (r ch s) (hs : Memory.wf s.mem) :
    Memory.wf (after (execChSyncctrlPoison r ch s) s).mem :=
  wf_rowGate hs (fun s hs => by simp [syncCtrl, hs]) ..

@[simp] theorem wf_execSyncInNotice (ch s) (hs : Memory.wf s.mem) :
    Memory.wf (after (execSyncInNotice ch s) s).mem := by
  rw [execSyncInNotice, after_next]
  refine wf_inChan hs (fun s hs => ?_) _
  split
  · rw [mem_ite, setLoad_mem, ite_self]
    exact wf_foldl (fun s p hs => by simp [hs]) _ hs
  · exact hs

/-! ### Reels and the load sequencer -/

@[simp] theorem wf_execLoadFetchDone (ch s) (hs : Memory.wf s.mem) :
    Memory.wf (after (execLoadFetchDone ch s) s).mem := by
  simp [execLoadFetchDone, hs]

@[simp] theorem wf_execLoadCheckDone (ch s) (hs : Memory.wf s.mem) :
    Memory.wf (after (execLoadCheckDone ch s) s).mem := by
  simp only [execLoadCheckDone, after_next]
  (repeat' split) <;> simp [hs]

@[simp] theorem wf_bindRec (ch fn c s e) (hs : Memory.wf s.mem) : Memory.wf (bindRec ch fn c s e).mem := by
  simp only [bindRec]
  split <;> simp [hs]

@[simp] theorem wf_applyRecord (ch fn s r) (hs : Memory.wf s.mem) : Memory.wf (applyRecord ch fn s r).mem := by
  unfold applyRecord
  split
  · simp [hs]
  · split
    · simp [hs]
    · split
      · exact wf_foldl (fun s e hs => wf_bindRec _ _ _ s e hs) _ hs
      · exact hs

@[simp] theorem wf_stewardPut (ch s p) (hs : Memory.wf s.mem) : Memory.wf (stewardPut ch s p).mem := by
  unfold stewardPut
  split
  · exact hs
  · split
    · next e => exact wf_of_guardStore hs e
    · next e => simp [wf_of_guardStore hs e]

@[simp] theorem wf_applyReel (s ch fn b rs) (hs : Memory.wf s.mem) : Memory.wf (applyReel s ch fn b rs).mem := by
  rw [applyReel, setLoad_mem, mem_foldl fun s r => applySteward_mem ch s r]
  refine wf_foldl (fun s r hs => wf_applyRecord ch fn s r hs) _ ?_
  rwa [mem_foldl fun s c => freshCluster_mem ch b s c]

@[simp] theorem wf_execLoadWriteDone (ch s) (hs : Memory.wf s.mem) :
    Memory.wf (after (execLoadWriteDone ch s) s).mem := by
  have puts (rs : List Rec) := wf_foldl (fun s p hs => wf_stewardPut ch s p hs) (stewardPuts rs) hs
  simp only [execLoadWriteDone, after_next]
  split
  · exact hs
  · split
    · simp [hs]
    · split
      · exact hs
      · split
        · simp [hs]
        · split
          · simp [hs]
          · next rs _ =>
            split
            · simp [hs]
            · split
              · exact puts rs
              · split <;> simp [puts]

@[simp] theorem wf_execPreloadDone (ch s) (hs : Memory.wf s.mem) : Memory.wf (after (execPreloadDone ch s) s).mem := by
  simp [execPreloadDone, hs]

@[simp] theorem wf_execChLdctrlStart (r ch s) (hs : Memory.wf s.mem) :
    Memory.wf (after (execChLdctrlStart r ch s) s).mem :=
  wf_rowGate hs (fun s hs => by (repeat' split) <;> simp [hs]) ..

@[simp] theorem wf_clearLoad (s ch) (hs : Memory.wf s.mem) : Memory.wf (clearLoad s ch).mem := by simp [clearLoad, hs]

@[simp] theorem wf_execChLdctrlClear (r ch s) (hs : Memory.wf s.mem) :
    Memory.wf (after (execChLdctrlClear r ch s) s).mem :=
  wf_rowGate hs (fun s hs => by (repeat' split) <;> simp [hs]) ..

@[simp] theorem wf_abandonArmed (s ch) (hs : Memory.wf s.mem) : Memory.wf (abandonArmed s ch).mem := by
  simp [abandonArmed, hs]

@[simp] theorem wf_execChLdctrlUnload (r ch s) (hs : Memory.wf s.mem) :
    Memory.wf (after (execChLdctrlUnload r ch s) s).mem :=
  wf_rowGate hs (fun s hs => by (repeat' split) <;> simp [hs]) ..

@[simp] theorem wf_execStartupStepIssue (ch s) (hs : Memory.wf s.mem) :
    Memory.wf (after (execStartupStepIssue ch s) s).mem := by
  simp [execStartupStepIssue, hs]

@[simp] theorem wf_loadDone (s ch) (hs : Memory.wf s.mem) : Memory.wf (loadDone s ch).mem := by simp [loadDone, hs]

@[simp] theorem wf_execStartupStepComplete (ch s) (hs : Memory.wf s.mem) :
    Memory.wf (after (execStartupStepComplete ch s) s).mem := by
  simp [execStartupStepComplete, hs]

@[simp] theorem wf_execStartupStepTimeout (d s) (hs : Memory.wf s.mem) :
    Memory.wf (after (execStartupStepTimeout d s) s).mem := by
  simp [execStartupStepTimeout, hs]

@[simp] theorem wf_execUnloadDone (ch s) (hs : Memory.wf s.mem) : Memory.wf (after (execUnloadDone ch s) s).mem := by
  simp [execUnloadDone, hs]

@[simp] theorem wf_loadEnd (s ch f) (hs : Memory.wf s.mem) : Memory.wf (loadEnd s ch f).1.mem := by
  simp only [loadEnd]
  split <;> simp [hs]

/-! ### The Seal unit -/

@[simp] theorem wf_endingNow (s ch) (hs : Memory.wf s.mem) : Memory.wf (endingNow s ch).mem := by
  simp only [endingNow]
  exact wf_foldl (fun s e hs => wf_faultTake s e hs) _ (by split <;> simp [hs])

@[simp] theorem wf_execSealConvoyComplete (ch s) (hs : Memory.wf s.mem) :
    Memory.wf (after (execSealConvoyComplete ch s) s).mem := by
  simp only [execSealConvoyComplete, after_next]
  split <;> simp [hs]

/-! ### Virtual functions -/

@[simp] theorem wf_removeReq (s ch code r) (hs : Memory.wf s.mem) : Memory.wf (removeReq s ch code r).mem := by
  simp [removeReq, hs]

@[simp] theorem wf_abortReq (s ch code r) (hs : Memory.wf s.mem) : Memory.wf (abortReq s ch code r).mem := by
  simp only [abortReq]
  split <;> simp [hs]

@[simp] theorem wf_monitorDisable (s ch f) (hs : Memory.wf s.mem) : Memory.wf (monitorDisable s ch f).mem := by
  simp [monitorDisable, hs]

@[simp] theorem wf_channelDisable (s ch f) (hs : Memory.wf s.mem) : Memory.wf (channelDisable s ch f).mem := by
  refine wf_settle _ _ ?_
  rw [fset_mem, setChan_mem, mem_foldl fun _ _ => by rw [dropReq_mem, quitMesh_mem], collDisable_mem]
  refine wf_monitorDisable _ _ _ ?_
  rw [sealDisable_mem, setLoad_mem]
  refine wf_foldl (fun s x hs => wf_endSection s ch _ hs) _ ?_
  exact wf_loadEnd _ _ _ hs

@[simp] theorem wf_execChannelDisable (ch f s) (hs : Memory.wf s.mem) :
    Memory.wf (after (execChannelDisable ch f s) s).mem := by
  simp [execChannelDisable, hs]

@[simp] theorem wf_execFlrDrainTimeout (ch f s) (hs : Memory.wf s.mem) :
    Memory.wf (after (execFlrDrainTimeout ch f s) s).mem := by
  simp only [execFlrDrainTimeout, after_next]
  split
  · exact hs
  · exact wf_foldl (fun s r hs => by simp [hs]) _ hs

@[simp] theorem wf_scrubCluster (ch s c) (hs : Memory.wf s.mem) : Memory.wf (scrubCluster ch s c).mem := by
  rw [scrubCluster, setClu_mem, mem_foldl fun _ _ => sbApply_mem .., mem_foldl fun _ _ => by simp, mem_foldl fun _ _ => by simp,
    mapTiles_mem]
  exact wf_zeroMem _ _ _ hs

@[simp] theorem wf_scrubObjs (s ch base n) (hs : Memory.wf s.mem) : Memory.wf (scrubObjs s ch base n).mem := by
  simp only [scrubObjs]
  exact wf_foldl (fun s a hs => by simp [hs]) _ (by simp [hs])

@[simp] theorem wf_scrub (s ch rec?) (hs : Memory.wf s.mem) : Memory.wf (scrub s ch rec?).mem := by
  refine wf_scrubObjs _ _ _ _ ?_
  rw [mem_foldl fun _ _ => scrubQueue_mem ..]
  exact wf_foldl (fun s c hs => wf_scrubCluster ch s c hs) _ hs

@[simp] theorem wf_execDisableScrubDone (ch f s) (hs : Memory.wf s.mem) :
    Memory.wf (after (execDisableScrubDone ch f s) s).mem := by
  simp only [execDisableScrubDone, after_next]
  split <;> simp [hs]

@[simp] theorem wf_execFenceTimeout (ch s) (hs : Memory.wf s.mem) :
    Memory.wf (after (execFenceTimeout ch s) s).mem := by
  simp only [execFenceTimeout, after_next]
  split
  · exact hs
  · split
    · exact hs
    · have aborted (l : List Req) (t : State) (ht : Memory.wf t.mem) := wf_foldl
        (f := fun s r => if r.byDescriptor then removeReq s ch.val cRptStale r else abortReq s ch.val cRptStale r)
        (fun s r hs => by split <;> simp [hs]) l ht
      rw [setChan_mem, mem_ite, fset_mem, ite_self, fadd_mem]
      exact aborted _ _ (by simp [hs])

/-! ### The host port -/

@[simp] theorem wf_toSequencer (s ch w) (hs : Memory.wf s.mem) : Memory.wf (toSequencer s ch w).mem := by
  simp [toSequencer, hs]

@[simp] theorem wf_execCmdLoad (f ring s) (hs : Memory.wf s.mem) :
    Memory.wf (after (execCmdLoad f ring s) s).mem := by
  rw [execCmdLoad, after_next]
  exact wf_onCmd hs (fun s c x hs => by simp [hs]) ..

@[simp] theorem wf_execCmdStart (f ring s) (hs : Memory.wf s.mem) :
    Memory.wf (after (execCmdStart f ring s) s).mem := by
  rw [execCmdStart, after_next]
  exact wf_onCmd hs (fun s c x hs => by simp [hs]) ..

@[simp] theorem wf_execCmdUnload (f ring s) (hs : Memory.wf s.mem) :
    Memory.wf (after (execCmdUnload f ring s) s).mem := by
  rw [execCmdUnload, after_next]
  exact wf_onCmd hs (fun s c x hs => by simp [hs]) ..

@[simp] theorem wf_execCmdClear (f ring s) (hs : Memory.wf s.mem) :
    Memory.wf (after (execCmdClear f ring s) s).mem := by
  rw [execCmdClear, after_next]
  exact wf_onCmd hs (fun s c x hs => by simp [hs]) ..

@[simp] theorem wf_hostReq (s ret f a op cls) (hs : Memory.wf s.mem) : Memory.wf (hostReq s ret f a op cls).mem := by
  simp [hostReq, hs]

@[simp] theorem wf_execHostReadCompletion (f ring data s) (hs : Memory.wf s.mem) :
    Memory.wf (after (execHostReadCompletion f ring data s) s).mem := by
  simp only [execHostReadCompletion, after_next]
  split <;> simp [hs]

@[simp] theorem wf_execCopyOut (f ring s) (hs : Memory.wf s.mem) :
    Memory.wf (after (execCopyOut f ring s) s).mem := by
  rw [execCopyOut, after_next]
  exact wf_onCmd hs (fun s c x hs => by simp [hs]) ..

@[simp] theorem wf_execSignal (f ring s) (hs : Memory.wf s.mem) : Memory.wf (after (execSignal f ring s) s).mem := by
  rw [execSignal, after_next]
  exact wf_onCmd hs (fun s c x hs => by simp [hs]) ..

@[simp] theorem wf_execSyncwait (f ring s) (hs : Memory.wf s.mem) :
    Memory.wf (after (execSyncwait f ring s) s).mem := by
  rw [execSyncwait, after_next]
  exact wf_onCmd hs (fun s c x hs => by simp [hs]) ..

@[simp] theorem wf_execApertureWrite (f ap off data ep s) (hs : Memory.wf s.mem) :
    Memory.wf (after (execApertureWrite f ap off data ep s) s).mem := by
  simp [execApertureWrite, hs]

@[simp] theorem wf_execApertureRead (f ap off len s) (hs : Memory.wf s.mem) :
    Memory.wf (after (execApertureRead f ap off len s) s).mem := by
  simp [execApertureRead, hs]

/-! ### Caravan Transport -/

@[simp] theorem wf_execCtRtoExpiry (ch flow stream s) (hs : Memory.wf s.mem) :
    Memory.wf (after (execCtRtoExpiry ch flow stream s) s).mem := by
  simp only [execCtRtoExpiry, after_next]
  split <;> simp [hs]

@[simp] theorem wf_flowUp (s ch n inc home) (hs : Memory.wf s.mem) : Memory.wf (flowUp s ch n inc home).mem := by
  simp [flowUp, hs]

@[simp] theorem wf_execCtOpen (ch flow s) (hs : Memory.wf s.mem) :
    Memory.wf (after (execCtOpen ch flow s) s).mem := by
  simp only [execCtOpen, after_next]
  split
  · exact hs
  · next e => simp [takeCtl_mem e, hs]

@[simp] theorem wf_execCtNotice (ch flow s) (hs : Memory.wf s.mem) :
    Memory.wf (after (execCtNotice ch flow s) s).mem := by
  simp only [execCtNotice, after_next]
  split
  · next e => simp [takeCtl_mem e, hs]
  · exact hs

@[simp] theorem wf_arriveReq (s ch n p op cls) (code : State → Nat → Nat) (hs : Memory.wf s.mem) :
    Memory.wf (arriveReq s ch n p op cls code).mem := by
  simp [arriveReq, hs]

@[simp] theorem wf_execCtWrite (ch flow s) (hs : Memory.wf s.mem) :
    Memory.wf (after (execCtWrite ch flow s) s).mem := by
  simp only [execCtWrite, after_next]
  split <;> simp [hs]

@[simp] theorem wf_execCtRead (ch flow s) (hs : Memory.wf s.mem) :
    Memory.wf (after (execCtRead ch flow s) s).mem := by
  simp only [execCtRead, after_next]
  split <;> simp [hs]

@[simp] theorem wf_execCtQmsg (ch flow s) (hs : Memory.wf s.mem) :
    Memory.wf (after (execCtQmsg ch flow s) s).mem := by
  simp only [execCtQmsg, after_next]
  split <;> simp [hs]

@[simp] theorem wf_execCtSync (ch flow s) (hs : Memory.wf s.mem) :
    Memory.wf (after (execCtSync ch flow s) s).mem := by
  simp only [execCtSync, after_next]
  (repeat' split) <;> simp [hs]

@[simp] theorem wf_execCtBar (ch flow s) (hs : Memory.wf s.mem) : Memory.wf (after (execCtBar ch flow s) s).mem := by
  simp only [execCtBar, after_next]
  (repeat' split) <;> simp [hs]

@[simp] theorem wf_execCtResp (ch flow s) (hs : Memory.wf s.mem) :
    Memory.wf (after (execCtResp ch flow s) s).mem := by
  simp only [execCtResp, after_next]
  (repeat' split) <;> simp [hs]

@[simp] theorem wf_execCtRdata (ch flow s) (hs : Memory.wf s.mem) :
    Memory.wf (after (execCtRdata ch flow s) s).mem := by
  simp only [execCtRdata, after_next]
  (repeat' split) <;> simp [hs]

@[simp] theorem wf_execCtFlowctrlClose (r ch s) (hs : Memory.wf s.mem) :
    Memory.wf (after (execCtFlowctrlClose r ch s) s).mem :=
  wf_rowGate hs (fun s hs => wf_ctGuard hs (fun s hs => by dsimp only; split <;> simp [hs]) ..) ..

/-! ### Collectives -/

@[simp] theorem wf_execCollectiveSubmit (ch s) (hs : Memory.wf s.mem) :
    Memory.wf (after (execCollectiveSubmit ch s) s).mem := by
  simp only [execCollectiveSubmit, after_next]
  split <;> simp [hs]

/-! ### The hub -/

@[simp] theorem wf_noticeTaken (s ch gone) (hs : Memory.wf s.mem) : Memory.wf (noticeTaken s ch gone).mem := by
  refine wf_foldl (fun s r hs => by simp [hs]) _ ?_
  refine wf_foldl (fun s p hs => by simp [hs]) _ ?_
  exact wf_foldl (fun s p hs => by simp [hs]) _ hs

@[simp] theorem wf_execRetirementNotice (ch gone s) (hs : Memory.wf s.mem) :
    Memory.wf (after (execRetirementNotice ch gone s) s).mem := by
  simp [execRetirementNotice, hs]

/-! ### Resets, boot and the nonvolatile store -/

@[simp] theorem wf_execPwrgdLowAccept (cut s) (hs : Memory.wf s.mem) :
    Memory.wf (after (execPwrgdLowAccept cut s) s).mem := by
  simp [execPwrgdLowAccept, hs, wf_hubReset]

@[simp] theorem wf_execWarmReset (s) (hs : Memory.wf s.mem) : Memory.wf (after (execWarmReset s) s).mem := by
  simp [execWarmReset, hs, wf_hubReset]

@[simp] theorem wf_execFirmwareBringup (s) (hs : Memory.wf s.mem) :
    Memory.wf (after (execFirmwareBringup s) s).mem := by
  rw [execFirmwareBringup, after_next]
  split
  · exact hs
  · extract_lets +onlyGivenNames latched g n m
    have hl : Memory.wf latched.mem := by simp [latched, hs]
    clear_value latched
    split
    · simp [hl]
    · extract_lets +onlyGivenNames keyed
      have hk : Memory.wf keyed.mem := by simp [keyed, hl]
      clear_value keyed
      split
      · simp [hk]
      · split
        · simp [hk]
        · extract_lets +onlyGivenNames counted laid
          have hc : Memory.wf counted.mem := by simp [counted, hk]
          have hl : Memory.wf laid.mem := by simpa [laid] using wf_foldl (fun s c hs => wf_relayout s c hs) (List.range 4) hc
          exact hl

@[simp] theorem wf_execReturnedScrubDone (s) (hs : Memory.wf s.mem) :
    Memory.wf (after (execReturnedScrubDone s) s).mem := by
  simp [execReturnedScrubDone, hs, wf_scrubMem]

/-! ### Register access -/

@[simp] theorem wf_chPut (r c g i v s) (hs : Memory.wf s.mem) : Memory.wf (chPut r c g i v s).mem := by
  by_cases ld : g = .CH_LDCTRL
  · subst ld
    simp only [chPut, onBit_mem, sameMem_iff, execChLdctrlCommit_mem]
    refine wf_onBit (wf_onBit (wf_onBit (by simp [hs]) ?_ ..) ?_ ..) ?_ .. <;> intro s hs <;> simp [hs]
  · by_cases sync : g = .CH_SYNCCTRL
    · subst sync
      simp only [chPut, onBit_mem, sameMem_iff, execChSyncctrlUnpoison_mem]
      exact wf_onBit hs (fun s hs => by simp [hs]) ..
    · have same : (chPut r c g i v s).mem = s.mem := by
        unfold chPut
        split <;> simp_all
      rwa [same]

@[simp] theorem wf_clPut (r c g i v s) (hs : Memory.wf s.mem) : Memory.wf (clPut r c g i v s).mem := by
  simp only [clPut]
  split
  · simp [hs]
  · split
    case h_3 =>
      rw [onBit_mem (by simp)]
      exact wf_onBit hs (fun s hs => by simp [hs]) ..
    all_goals simp [hs]

@[simp] theorem wf_ctPut (r c g i v s) (hs : Memory.wf s.mem) : Memory.wf (ctPut r c g i v s).mem := by
  simp only [ctPut]
  split
  case h_5 =>
    refine wf_onBit (by simp [hs]) (fun s hs => by simp [hs]) ..
  all_goals simp [hs]

@[simp] theorem wf_regPut (r a g i v s) (hs : Memory.wf s.mem) : Memory.wf (regPut r a g i v s).mem := by
  simp only [regPut]
  split <;> simp [hs]

@[simp] theorem wf_regWrite (r a n v s) (hs : Memory.wf s.mem) : Memory.wf (regWrite r a n v s).mem := by
  simp only [regWrite]
  split
  · simp [hs]
  · split
    · simp [hs]
    · split
      · simp [hs]
      · split
        · split
          · generalize hm : msixWrite _ _ _ _ _ _ = o
            cases o with
            | none => simp [hs]
            | some t => simp [msixWrite_mem hm, hs]
          · simp [hs]
        · split <;> simp [hs]

@[simp] theorem wf_execRegisterWrite (r a n v s) (hs : Memory.wf s.mem) :
    Memory.wf (after (execRegisterWrite r a n v s) s).mem := by
  simp only [execRegisterWrite, after_next]
  (repeat' split) <;> simp [hs]

@[simp] theorem wf_vendorWrite (s r a width v) (hs : Memory.wf s.mem) :
    Memory.wf (vendorWrite s r a width v).mem := by
  simp only [vendorWrite]
  split <;> simp [hs]

@[simp] theorem wf_execRegWrite (a width v s) (hs : Memory.wf s.mem) :
    Memory.wf (after (execRegWrite a width v s) s).mem := by
  simp [execRegWrite, hs]

@[simp] theorem wf_execDbgregWr (a width v s) (hs : Memory.wf s.mem) :
    Memory.wf (after (execDbgregWr a width v s) s).mem := by
  rw [execDbgregWr, after_next]
  exact wf_jtag hs (fun s hs => by simp [hs]) ..

@[simp] theorem wf_execDbgmem (a write v s) (hs : Memory.wf s.mem) :
    Memory.wf (after (execDbgmem a write v s) s).mem := by
  rw [execDbgmem, after_next]
  exact wf_jtag hs (fun s hs => by simp [hs, wf_guardPut]) ..

/-! ### Requests that a die link brings -/

@[simp] theorem wf_linkReq (s l p op) (code : Nat → Nat) (hs : Memory.wf s.mem) :
    Memory.wf (linkReq s l p op code).mem := by
  simp only [linkReq]
  (repeat' split) <;> simp [hs]

@[simp] theorem wf_execMrd (l s) (hs : Memory.wf s.mem) : Memory.wf (after (execMrd l s) s).mem := by
  simp only [execMrd, after_next]
  split
  · exact hs
  · next e => simp [takePkt_mem e, hs]

@[simp] theorem wf_execMwr (l s) (hs : Memory.wf s.mem) : Memory.wf (after (execMwr l s) s).mem := by
  simp only [execMwr, after_next]
  split
  · exact hs
  · next e => simp [takePkt_mem e, hs]

@[simp] theorem wf_execFdlQmsg (l s) (hs : Memory.wf s.mem) : Memory.wf (after (execFdlQmsg l s) s).mem := by
  simp only [execFdlQmsg, after_next]
  split
  · exact hs
  · next e => simp [takePkt_mem e, hs]

@[simp] theorem wf_execFdlSync (l s) (hs : Memory.wf s.mem) : Memory.wf (after (execFdlSync l s) s).mem := by
  simp only [execFdlSync, after_next]
  split
  · exact hs
  · next e => split <;> simp [takePkt_mem e, hs]

@[simp] theorem wf_regAnswer (s l p) (hs : Memory.wf s.mem) : Memory.wf (regAnswer s l p).1.mem := by
  simp only [regAnswer]
  (repeat' split) <;> simp [hs]

@[simp] theorem wf_execFdlReg (l s) (hs : Memory.wf s.mem) : Memory.wf (after (execFdlReg l s) s).mem := by
  simp only [execFdlReg, after_next]
  split
  · exact hs
  · next e => simp [takePkt_mem e, hs]

/-! ### Craong-S instructions -/

@[simp] theorem wf_stwRow {s : State} {f : Iss → State → State} (hs : Memory.wf s.mem)
    (hf : ∀ u s, Memory.wf s.mem → Memory.wf (f u s).mem) (w m) : Memory.wf (stwRow w s m f).mem := by
  simp only [stwRow]
  split
  · exact hs
  · split
    · simp [hs]
    · split
      · exact hf _ _ (by simp [hs])
      · exact hs

@[simp] theorem wf_Iss.exc (u s rd kind code detail) (hs : Memory.wf s.mem) :
    Memory.wf (Iss.exc u s rd kind code detail).mem := by
  simp [Iss.exc, hs]

/-! ### Craong-S integer and system instructions -/

@[simp] theorem wf_stwIllegal (u s) (hs : Memory.wf s.mem) : Memory.wf (stwIllegal u s).mem := by
  simp [stwIllegal, hs]

@[simp] theorem wf_execIllegalInstruction (w s) (hs : Memory.wf s.mem) :
    Memory.wf (after (execIllegalInstruction w s) s).mem := by
  rw [execIllegalInstruction, after_next]
  exact wf_stwRow hs (fun u s hs => wf_stwIllegal u s hs) ..

@[simp] theorem wf_execSAlu (w s) (hs : Memory.wf s.mem) : Memory.wf (after (execSAlu w s) s).mem := by
  simp [execSAlu, hs]

@[simp] theorem wf_execSAddi (w s) (hs : Memory.wf s.mem) : Memory.wf (after (execSAddi w s) s).mem := by
  simp [execSAddi, hs]

@[simp] theorem wf_execSAndi (w s) (hs : Memory.wf s.mem) : Memory.wf (after (execSAndi w s) s).mem := by
  simp [execSAndi, hs]

@[simp] theorem wf_execSOri (w s) (hs : Memory.wf s.mem) : Memory.wf (after (execSOri w s) s).mem := by
  simp [execSOri, hs]

@[simp] theorem wf_execSXori (w s) (hs : Memory.wf s.mem) : Memory.wf (after (execSXori w s) s).mem := by
  simp [execSXori, hs]

@[simp] theorem wf_execSShi (w s) (hs : Memory.wf s.mem) : Memory.wf (after (execSShi w s) s).mem := by
  simp [execSShi, hs]

@[simp] theorem wf_execSSlti (w s) (hs : Memory.wf s.mem) : Memory.wf (after (execSSlti w s) s).mem := by
  simp [execSSlti, hs]

@[simp] theorem wf_execSLi (w s) (hs : Memory.wf s.mem) : Memory.wf (after (execSLi w s) s).mem := by
  simp [execSLi, hs]

@[simp] theorem wf_execSLih (w s) (hs : Memory.wf s.mem) : Memory.wf (after (execSLih w s) s).mem := by
  simp [execSLih, hs]

@[simp] theorem wf_execSBeq (w s) (hs : Memory.wf s.mem) : Memory.wf (after (execSBeq w s) s).mem := by
  simp [execSBeq, hs]

@[simp] theorem wf_execSBne (w s) (hs : Memory.wf s.mem) : Memory.wf (after (execSBne w s) s).mem := by
  simp [execSBne, hs]

@[simp] theorem wf_execSBlt (w s) (hs : Memory.wf s.mem) : Memory.wf (after (execSBlt w s) s).mem := by
  simp [execSBlt, hs]

@[simp] theorem wf_execSBge (w s) (hs : Memory.wf s.mem) : Memory.wf (after (execSBge w s) s).mem := by
  simp [execSBge, hs]

@[simp] theorem wf_execSBltu (w s) (hs : Memory.wf s.mem) : Memory.wf (after (execSBltu w s) s).mem := by
  simp [execSBltu, hs]

@[simp] theorem wf_execSBgeu (w s) (hs : Memory.wf s.mem) : Memory.wf (after (execSBgeu w s) s).mem := by
  simp [execSBgeu, hs]

@[simp] theorem wf_execSJal (w s) (hs : Memory.wf s.mem) : Memory.wf (after (execSJal w s) s).mem := by
  rw [execSJal, after_next]
  exact wf_stwRow hs (fun u s hs => by simp [hs]) ..

@[simp] theorem wf_execSJalr (w s) (hs : Memory.wf s.mem) : Memory.wf (after (execSJalr w s) s).mem := by
  rw [execSJalr, after_next]
  exact wf_stwRow hs (fun u s hs => by simp [hs]) ..

@[simp] theorem wf_execSCsr (w s) (hs : Memory.wf s.mem) : Memory.wf (after (execSCsr w s) s).mem := by
  rw [execSCsr, after_next]
  refine wf_stwRow hs (fun u s hs => ?_) ..
  dsimp only
  split
  · simp [hs]
  · split
    · simp [hs]
    · split
      · simp [hs]
      · exact wf_held hs (fun s hs => by simp [hs]) ..

@[simp] theorem wf_execSSysc (w s) (hs : Memory.wf s.mem) : Memory.wf (after (execSSysc w s) s).mem := by
  rw [execSSysc, after_next]
  exact wf_stwRow hs (fun u s hs => by simp [hs]) ..

@[simp] theorem wf_execSRett (w s) (hs : Memory.wf s.mem) : Memory.wf (after (execSRett w s) s).mem := by
  rw [execSRett, after_next]
  refine wf_stwRow hs (fun u s hs => ?_) ..
  split
  · exact wf_held hs (fun s hs => by simp [hs]) ..
  · simp [hs]

@[simp] theorem wf_execSHret (w s) (hs : Memory.wf s.mem) : Memory.wf (after (execSHret w s) s).mem := by
  rw [execSHret, after_next]
  refine wf_stwRow hs (fun u s hs => ?_) ..
  split
  · simp [hs]
  · exact wf_held hs (fun s hs => by simp [hs]) ..

@[simp] theorem wf_execSHalt (w s) (hs : Memory.wf s.mem) : Memory.wf (after (execSHalt w s) s).mem := by
  simp [execSHalt, hs]

@[simp] theorem wf_execSFenceL (w s) (hs : Memory.wf s.mem) : Memory.wf (after (execSFenceL w s) s).mem := by
  simp [execSFenceL, hs]

@[simp] theorem wf_execSFenceG (w s) (hs : Memory.wf s.mem) : Memory.wf (after (execSFenceG w s) s).mem := by
  rw [execSFenceG, after_next]
  exact wf_stwRow hs (fun u s hs => by simp [hs]) ..

@[simp] theorem wf_execSFenceI (w s) (hs : Memory.wf s.mem) : Memory.wf (after (execSFenceI w s) s).mem := by
  simp [execSFenceI, hs]

/-! ### Craong-S loads, stores and messages -/

@[simp] theorem wf_localCheck {s : State} {f : State → State} (hs : Memory.wf s.mem)
    (hf : ∀ s, Memory.wf s.mem → Memory.wf (f s).mem) (u rd a n align) :
    Memory.wf (localCheck u s rd a n align f).mem := by
  unfold localCheck
  split
  · simp [hs]
  · split
    · simp [hs]
    · exact hf s hs

theorem wf_localStore {s : State} {go : State → Nat → State} (hs : Memory.wf s.mem)
    (hgo : ∀ s n, Memory.wf s.mem → Memory.wf (go s n).mem) (u a bs) : Memory.wf (localStore s u a bs go).mem := by
  have kept : Memory.wf (if u.storing s then s else keepCode s u.ch u.c u.w a bs.length).mem := by simp [hs]
  unfold localStore
  split
  · simp [hs]
  · split
    · next e => simp [wf_of_guardStore kept e]
    · next e => exact hgo _ _ (wf_of_guardStore kept e)

@[simp] theorem wf_execSLdl (w s) (hs : Memory.wf s.mem) : Memory.wf (after (execSLdl w s) s).mem := by
  rw [execSLdl, after_next]
  exact wf_stwRow hs (fun u s hs => wf_localCheck hs (fun s hs => by (repeat' split) <;> simp [hs]) ..) ..

@[simp] theorem wf_execSStl (w s) (hs : Memory.wf s.mem) : Memory.wf (after (execSStl w s) s).mem := by
  rw [execSStl, after_next]
  refine wf_stwRow hs (fun u s hs => wf_localCheck hs (fun s hs => ?_) ..) ..
  have store {s : State} (hs : Memory.wf s.mem) :=
    wf_localStore (go := fun s _ => u.quiet s) hs (fun s n hs => by simp [hs]) u (u.local_ u.a) (dBytes u.i.width u.b)
  dsimp only
  split
  · exact store hs
  · split
    · simp [hs]
    · split
      · exact store hs
      · exact wf_penRec hs (fun s hs => store hs) ..

@[simp] theorem wf_ctlStore (s r ch a bs) (hs : Memory.wf s.mem) : Memory.wf (ctlStore s r ch a bs).mem := by
  simp only [ctlStore]
  split <;> simp [hs]

@[simp] theorem wf_globalLoad (u s a n) (hs : Memory.wf s.mem) : Memory.wf (globalLoad u s a n).mem := by
  simp [globalLoad, hs]

@[simp] theorem wf_execSLdg (w s) (hs : Memory.wf s.mem) : Memory.wf (after (execSLdg w s) s).mem := by
  rw [execSLdg, after_next]
  exact wf_stwRow hs (fun u s hs => by simp [hs]) ..

@[simp] theorem wf_execGlobalLoadReturn (w s) (hs : Memory.wf s.mem) :
    Memory.wf (after (execGlobalLoadReturn w s) s).mem := by
  simp only [execGlobalLoadReturn, after_next]
  split <;> simp [hs]

@[simp] theorem wf_postStore (s ch c w a bs) (hs : Memory.wf s.mem) : Memory.wf (postStore s ch c w a bs).mem := by
  simp [postStore, hs]

@[simp] theorem wf_execSStg (w s) (hs : Memory.wf s.mem) : Memory.wf (after (execSStg w s) s).mem := by
  rw [execSStg, after_next]
  refine wf_stwRow hs (fun u s hs => ?_) ..
  dsimp only
  split
  · simp [hs]
  · split
    · exact wf_penRec hs (fun s hs => by simp [hs]) ..
    · split <;> simp [hs]

@[simp] theorem wf_execSQsnd (w s) (hs : Memory.wf s.mem) : Memory.wf (after (execSQsnd w s) s).mem := by
  rw [execSQsnd, after_next]
  refine wf_stwRow hs (fun u s hs => wf_localCheck hs (fun s hs => ?_) ..) ..
  dsimp only
  split
  · simp [hs]
  · split
    · exact wf_penRec hs (fun s hs => by simp [hs]) ..
    · simp [hs]

@[simp] theorem wf_qrcv (u s) (hs : Memory.wf s.mem) : Memory.wf (qrcv u s).mem := by
  have store {s : State} (hs : Memory.wf s.mem) (a : Nat) (bs : List DByte) :=
    wf_localStore (go := u.done) hs (fun s n hs => by simp [hs]) u a bs
  simp only [qrcv]
  split
  · exact store hs ..
  · split
    · simp [hs]
    · split
      · simp [hs]
      · split
        · simp [hs]
        · split
          · split <;> simp [hs]
          · split
            · simp [hs]
            · split
              · split <;> simp [hs]
              · split
                · simp [hs]
                · exact store (by simp [hs]) ..

@[simp] theorem wf_execSQrcv (w s) (hs : Memory.wf s.mem) : Memory.wf (after (execSQrcv w s) s).mem := by
  rw [execSQrcv, after_next]
  exact wf_stwRow hs (fun u s hs => wf_held hs (fun s hs => wf_qrcv u s hs) ..) ..

/-! ### Craong-S take and predictor instructions -/

theorem wf_releaseRec {s u : State} {ch c k : Nat} {r : PenRec} (hs : Memory.wf s.mem)
    (e : releaseRec s ch c k r = some u) : Memory.wf u.mem := by
  unfold releaseRec at e
  (repeat' split at e) <;> cases e <;> simp [hs]

@[simp] theorem wf_releaseRecs (n s ch c) (hs : Memory.wf s.mem) : Memory.wf (releaseRecs n s ch c).mem := by
  induction n generalizing s with
  | zero => exact hs
  | succ n ih =>
    unfold releaseRecs
    split
    · exact hs
    · split
      · exact hs
      · split
        · exact hs
        · next e => exact ih _ (by simpa using wf_releaseRec hs e)

@[simp] theorem wf_commitEnd (s ch c a) (hs : Memory.wf s.mem) : Memory.wf (commitEnd s ch c a).mem := by
  simp only [commitEnd]
  split <;> simp [hs]

@[simp] theorem wf_commitGo (s ch c) (hs : Memory.wf s.mem) : Memory.wf (commitGo s ch c).mem := by
  simp only [commitGo]
  split <;> simp [hs]

@[simp] theorem wf_commitBegin (s ch c a) (hs : Memory.wf s.mem) : Memory.wf (commitBegin s ch c a).mem := by
  simp [commitBegin, hs]

@[simp] theorem wf_takeBegin (s ch c a) (hs : Memory.wf s.mem) : Memory.wf (takeBegin s ch c a).mem := by
  simp [takeBegin, hs]

@[simp] theorem wf_takeNext (n s ch c) (hs : Memory.wf s.mem) : Memory.wf (takeNext n s ch c).mem := by
  induction n generalizing s with
  | zero => exact hs
  | succ n ih =>
    unfold takeNext
    split
    · exact ih _ (by simp [hs])
    · exact hs

@[simp] theorem wf_takeIssue (u s commit) (hs : Memory.wf s.mem) : Memory.wf (takeIssue u s commit).mem := by
  simp [takeIssue, hs]

@[simp] theorem wf_execSTakeCommit (w s) (hs : Memory.wf s.mem) : Memory.wf (after (execSTakeCommit w s) s).mem := by
  rw [execSTakeCommit, after_next]
  exact wf_stwRow hs (fun u s hs => by simp [hs]) ..

@[simp] theorem wf_execSTakeSquash (w s) (hs : Memory.wf s.mem) : Memory.wf (after (execSTakeSquash w s) s).mem := by
  rw [execSTakeSquash, after_next]
  exact wf_stwRow hs (fun u s hs => by simp [hs]) ..

@[simp] theorem wf_execTakeActionResume (c s) (hs : Memory.wf s.mem) :
    Memory.wf (after (execTakeActionResume c s) s).mem := by
  simp [execTakeActionResume, hs]

@[simp] theorem wf_execSTakeOpen (w s) (hs : Memory.wf s.mem) : Memory.wf (after (execSTakeOpen w s) s).mem := by
  rw [execSTakeOpen, after_next]
  exact wf_stwRow hs (fun u s hs => wf_held hs (fun s hs => by split <;> simp [hs]) ..) ..

@[simp] theorem wf_execSTakeEnter (w s) (hs : Memory.wf s.mem) : Memory.wf (after (execSTakeEnter w s) s).mem := by
  simp [execSTakeEnter, hs]

@[simp] theorem wf_execSTakeLeave (w s) (hs : Memory.wf s.mem) : Memory.wf (after (execSTakeLeave w s) s).mem := by
  simp [execSTakeLeave, hs]

@[simp] theorem wf_execSTakeStat (w s) (hs : Memory.wf s.mem) : Memory.wf (after (execSTakeStat w s) s).mem := by
  simp [execSTakeStat, hs]

@[simp] theorem wf_execSPredQ (w s) (hs : Memory.wf s.mem) : Memory.wf (after (execSPredQ w s) s).mem := by
  simp [execSPredQ, hs]

@[simp] theorem wf_execSPredU (w s) (hs : Memory.wf s.mem) : Memory.wf (after (execSPredU w s) s).mem := by
  simp [execSPredU, hs]

/-! ### Craong-S dolly, sync and Seal instructions -/

@[simp] theorem wf_execSDlyIssue (w s) (hs : Memory.wf s.mem) : Memory.wf (after (execSDlyIssue w s) s).mem := by
  rw [execSDlyIssue, after_next]
  refine wf_stwRow hs (fun u s hs => wf_localCheck hs (fun s hs => ?_) ..) ..
  (repeat' split) <;> simp [hs]

@[simp] theorem wf_ticketGive {s : State} {late : State → State} (hs : Memory.wf s.mem)
    (hl : ∀ s, Memory.wf s.mem → Memory.wf (late s).mem) (u) : Memory.wf (ticketGive u s late).mem := by
  unfold ticketGive
  split
  · simp [hs]
  · split
    · simp [hs]
    · exact hl s hs

@[simp] theorem wf_execSDlyWait (w s) (hs : Memory.wf s.mem) : Memory.wf (after (execSDlyWait w s) s).mem := by
  rw [execSDlyWait, after_next]
  exact wf_stwRow hs (fun u s hs => wf_ticketGive hs (fun s hs => by simp [hs]) _) ..

@[simp] theorem wf_execSDlyPoll (w s) (hs : Memory.wf s.mem) : Memory.wf (after (execSDlyPoll w s) s).mem := by
  rw [execSDlyPoll, after_next]
  exact wf_stwRow hs (fun u s hs => wf_ticketGive hs (fun s hs => by simp [hs]) _) ..

@[simp] theorem wf_syncCheck {s : State} {f : State → State} (hs : Memory.wf s.mem)
    (hf : ∀ s, Memory.wf s.mem → Memory.wf (f s).mem) (u rd posted) : Memory.wf (syncCheck u s rd posted f).mem := by
  refine wf_held hs (fun s hs => ?_) ..
  dsimp only
  split
  · simp [hs]
  · split
    · exact hf s hs
    · split <;> simp [hs]

@[simp] theorem wf_syncPosted (u s op n) (hs : Memory.wf s.mem) : Memory.wf (syncPosted u s op n).mem := by
  simp only [syncPosted]
  exact wf_syncCheck hs (fun s hs => by simp [hs]) ..

@[simp] theorem wf_syncWait (u s rd op n why q) (hs : Memory.wf s.mem) : Memory.wf (syncWait u s rd op n why q).mem :=
  wf_syncCheck hs (fun s hs => by simp [hs]) ..

@[simp] theorem wf_execSSyncRd (w s) (hs : Memory.wf s.mem) : Memory.wf (after (execSSyncRd w s) s).mem := by
  rw [execSSyncRd, after_next]
  exact wf_stwRow hs (fun u s hs => by simp [hs]) ..

@[simp] theorem wf_execSSyncAdd (w s) (hs : Memory.wf s.mem) : Memory.wf (after (execSSyncAdd w s) s).mem := by
  rw [execSSyncAdd, after_next]
  exact wf_stwRow hs (fun u s hs => by simp [hs]) ..

@[simp] theorem wf_execSSyncSet (w s) (hs : Memory.wf s.mem) : Memory.wf (after (execSSyncSet w s) s).mem := by
  rw [execSSyncSet, after_next]
  exact wf_stwRow hs (fun u s hs => by simp [hs]) ..

@[simp] theorem wf_execSSyncWge (w s) (hs : Memory.wf s.mem) : Memory.wf (after (execSSyncWge w s) s).mem := by
  rw [execSSyncWge, after_next]
  exact wf_stwRow hs (fun u s hs => by simp [hs]) ..

@[simp] theorem wf_execSBarArv (w s) (hs : Memory.wf s.mem) : Memory.wf (after (execSBarArv w s) s).mem := by
  rw [execSBarArv, after_next]
  exact wf_stwRow hs (fun u s hs => by simp [hs]) ..

@[simp] theorem wf_execSBarWait (w s) (hs : Memory.wf s.mem) : Memory.wf (after (execSBarWait w s) s).mem := by
  rw [execSBarWait, after_next]
  exact wf_stwRow hs (fun u s hs => by simp [hs]) ..

@[simp] theorem wf_execSBarArw (w s) (hs : Memory.wf s.mem) : Memory.wf (after (execSBarArw w s) s).mem := by
  rw [execSBarArw, after_next]
  exact wf_stwRow hs (fun u s hs => by simp [hs]) ..

@[simp] theorem wf_sealRow {s : State} {f : Iss → State → State} (hs : Memory.wf s.mem)
    (hf : ∀ u s, Memory.wf s.mem → Memory.wf (f u s).mem) (w m rd) : Memory.wf (sealRow w s m rd f).mem := by
  refine wf_stwRow hs (fun u s hs => ?_) ..
  dsimp only
  split
  · simp [hs]
  · exact wf_held hs (hf u) ..

@[simp] theorem wf_execSSealConvoy (w s) (hs : Memory.wf s.mem) : Memory.wf (after (execSSealConvoy w s) s).mem := by
  rw [execSSealConvoy, after_next]
  exact wf_sealRow hs (fun u s hs => by (repeat' split) <;> simp [hs]) ..

@[simp] theorem wf_execSSealCtx (w s) (hs : Memory.wf s.mem) : Memory.wf (after (execSSealCtx w s) s).mem := by
  rw [execSSealCtx, after_next]
  exact wf_sealRow hs (fun u s hs => by split <;> simp [hs]) ..

@[simp] theorem wf_sealGive {s : State} {late : State → State} (hs : Memory.wf s.mem)
    (hl : ∀ s, Memory.wf s.mem → Memory.wf (late s).mem) (u) : Memory.wf (sealGive u s late).mem := by
  unfold sealGive
  split
  · simp [hs]
  · split
    · simp [hs]
    · exact hl s hs

@[simp] theorem wf_execSSealWait (w s) (hs : Memory.wf s.mem) : Memory.wf (after (execSSealWait w s) s).mem := by
  rw [execSSealWait, after_next]
  exact wf_sealRow hs (fun u s hs => wf_sealGive hs (fun s hs => by simp [hs]) _) ..

@[simp] theorem wf_execSSealPoll (w s) (hs : Memory.wf s.mem) : Memory.wf (after (execSSealPoll w s) s).mem := by
  rw [execSSealPoll, after_next]
  exact wf_sealRow hs (fun u s hs => wf_sealGive hs (fun s hs => by simp [hs]) _) ..

@[simp] theorem wf_execSSealHdr (w s) (hs : Memory.wf s.mem) : Memory.wf (after (execSSealHdr w s) s).mem := by
  rw [execSSealHdr, after_next]
  exact wf_sealRow hs (fun u s hs => by simp [hs]) ..

end Sys2Proof.Machine

/-! Every command. -/

namespace Sys2Proof.Machine

/-- A command outside the list of those that may store leaves memory: one lemma for each command. -/
theorem exec_mem {c : Instr} (h : Slice0.mayStore c = false) (s : State) : (after (exec c s) s).mem = s.mem := by
  cases c with
  | hubCapsMirrorUpdate => exact execHubCapsMirrorUpdate_mem ..
  | creditReturn => exact execCreditReturn_mem ..
  | tlCtrlHalt => exact execTlCtrlHalt_mem ..
  | tileHaltEffect => exact execTileHaltEffect_mem ..
  | tlCtrlResume => exact execTlCtrlResume_mem ..
  | tlCtrlStep => exact execTlCtrlStep_mem ..
  | tlRngseedWrite => exact execTlRngseedWrite_mem ..
  | tNop => exact execTNop_mem ..
  | tEnd => exact execTEnd_mem ..
  | tJmp => exact execTJmp_mem ..
  | tBr => exact execTBr_mem ..
  | tLoop => exact execTLoop_mem ..
  | tDrop => exact execTDrop_mem ..
  | tMac => exact execTMac_mem ..
  | tMacb => exact execTMacb_mem ..
  | tMul => exact execTMul_mem ..
  | tAdd => exact execTAdd_mem ..
  | tSub => exact execTSub_mem ..
  | tMax => exact execTMax_mem ..
  | tMin => exact execTMin_mem ..
  | tMmac => exact execTMmac_mem ..
  | tImac => exact execTImac_mem ..
  | tIadd => exact execTIadd_mem ..
  | tIsub => exact execTIsub_mem ..
  | tIand => exact execTIand_mem ..
  | tIor => exact execTIor_mem ..
  | tIxor => exact execTIxor_mem ..
  | tIshl => exact execTIshl_mem ..
  | tIshr => exact execTIshr_mem ..
  | tFma => exact execTFma_mem ..
  | tFadd => exact execTFadd_mem ..
  | tFsub => exact execTFsub_mem ..
  | tFmul => exact execTFmul_mem ..
  | tFmax => exact execTFmax_mem ..
  | tFmin => exact execTFmin_mem ..
  | tFn => exact execTFn_mem ..
  | tCvt => exact execTCvt_mem ..
  | tMov => exact execTMov_mem ..
  | tPerm => exact execTPerm_mem ..
  | tRot => exact execTRot_mem ..
  | tBcst => exact execTBcst_mem ..
  | tSel => exact execTSel_mem ..
  | tRsum => exact execTRsum_mem ..
  | tRmax => exact execTRmax_mem ..
  | tRmin => exact execTRmin_mem ..
  | tRamax => exact execTRamax_mem ..
  | tRbexp => exact execTRbexp_mem ..
  | tFwd => exact execTFwd_mem ..
  | tFwdh => exact execTFwdh_mem ..
  | tPcmp => exact execTPcmp_mem ..
  | tPlog => exact execTPlog_mem ..
  | tPset => exact execTPset_mem ..
  | tPcls => exact execTPcls_mem ..
  | tLd => exact execTLd_mem ..
  | tLdh => exact execTLdh_mem ..
  | tLde => exact execTLde_mem ..
  | tSt => exact execTSt_mem ..
  | tSth => exact execTSth_mem ..
  | tTkent => exact execTTkent_mem ..
  | tTklv => exact execTTklv_mem ..
  | tSig => exact execTSig_mem ..
  | postedAckReturn => exact execPostedAckReturn_mem ..
  | clStwCtrlHalt => exact execClStwCtrlHalt_mem ..
  | stewardHaltEffect => exact execStewardHaltEffect_mem ..
  | clStwCtrlResume => exact execClStwCtrlResume_mem ..
  | clStwCtrlStep => exact execClStwCtrlStep_mem ..
  | chLdctrlGo => exact execChLdctrlGo_mem ..
  | chLdctrlCommit => exact execChLdctrlCommit_mem ..
  | chBwsplitCommit => exact execChBwsplitCommit_mem ..
  | bwsplitFrameBoundary => exact execBwsplitFrameBoundary_mem ..
  | clSbCtrlCommit => exact execClSbCtrlCommit_mem ..
  | sbConfigApply => exact execSbConfigApply_mem ..
  | clSbCtrlSwap => exact execClSbCtrlSwap_mem ..
  | sbSwap => exact execSbSwap_mem ..
  | clSbCtrlPub => exact execClSbCtrlPub_mem ..
  | clSbCtrlRel => exact execClSbCtrlRel_mem ..
  | clSbCtrlFlush => exact execClSbCtrlFlush_mem ..
  | depotPortEmit => exact execDepotPortEmit_mem ..
  | clQctrlUnpoison => exact execClQctrlUnpoison_mem ..
  | clQcfgWrite => exact execClQcfgWrite_mem ..
  | clHtWrite => exact execClHtWrite_mem ..
  | stewardPark => exact execStewardPark_mem ..
  | syncOutPulse => exact execSyncOutPulse_mem ..
  | syncOutEnd => exact execSyncOutEnd_mem ..
  | chSyncselWrite => exact execChSyncselWrite_mem ..
  | chSyncctrlUnpoison => exact execChSyncctrlUnpoison_mem ..
  | stallWindowExpiry => exact execStallWindowExpiry_mem ..
  | dstStallcfgWrite => exact execDstStallcfgWrite_mem ..
  | chPredctrlClear => exact execChPredctrlClear_mem ..
  | chNfctrlArm => exact execChNfctrlArm_mem ..
  | chNfctrlAbort => exact execChNfctrlAbort_mem ..
  | chNfcfgCommit => exact execChNfcfgCommit_mem ..
  | nfConfigApply => exact execNfConfigApply_mem ..
  | sealEntryBegin => exact execSealEntryBegin_mem ..
  | sealContextLoadDone => exact execSealContextLoadDone_mem ..
  | sealCheckDone => exact execSealCheckDone_mem ..
  | sealRefreshDone => exact execSealRefreshDone_mem ..
  | sealPbsPassDone => exact execSealPbsPassDone_mem ..
  | sealKswPassDone => exact execSealKswPassDone_mem ..
  | sealLinearDone => exact execSealLinearDone_mem ..
  | keyStreamRead => exact execKeyStreamRead_mem ..
  | sealWriteBegin => exact execSealWriteBegin_mem ..
  | sealCtrlDisable => exact execSealCtrlDisable_mem ..
  | sealCtrlEnable => exact execSealCtrlEnable_mem ..
  | perstNEdge => exact execPerstNEdge_mem ..
  | perstNFilterExpiry => exact execPerstNFilterExpiry_mem ..
  | perstNDeassert => exact execPerstNDeassert_mem ..
  | pcieLinkReady => exact execPcieLinkReady_mem ..
  | pcieLinkDown => exact execPcieLinkDown_mem ..
  | powerStateWrite => exact execPowerStateWrite_mem ..
  | submissionDoorbell => exact execSubmissionDoorbell_mem ..
  | completionDoorbell => exact execCompletionDoorbell_mem ..
  | eventQueueDoorbell => exact execEventQueueDoorbell_mem ..
  | vfRingCtrlCommit => exact execVfRingCtrlCommit_mem ..
  | ringConfigApply => exact execRingConfigApply_mem ..
  | vfRingCtrlEnable => exact execVfRingCtrlEnable_mem ..
  | vfRingCtrlDisable => exact execVfRingCtrlDisable_mem ..
  | vfEvqCtrlCommit => exact execVfEvqCtrlCommit_mem ..
  | vfEvqCtrlEnable => exact execVfEvqCtrlEnable_mem ..
  | vfEvqCtrlDisable => exact execVfEvqCtrlDisable_mem ..
  | ringFetch => exact execRingFetch_mem s
  | ringEntryArrive => exact execRingEntryArrive_mem ..
  | fencedCommandStart => exact execFencedCommandStart_mem ..
  | cmdNop => exact execCmdNop_mem ..
  | copyIn => exact execCopyIn_mem ..
  | fwcall => exact execFwcall_mem ..
  | completionWrite => exact execCompletionWrite_mem ..
  | eventWrite => exact execEventWrite_mem ..
  | msixSend => exact execMsixSend_mem ..
  | vfApBaseWrite => exact execVfApBaseWrite_mem ..
  | hostReadFailure => exact execHostReadFailure_mem ..
  | vfEnable => exact execVfEnable_mem ..
  | vfEnableClear => exact execVfEnableClear_mem ..
  | vfFlr => exact execVfFlr_mem ..
  | pf0Flr => exact execPf0Flr_mem ..
  | chRptctrlCommit => exact execChRptctrlCommit_mem ..
  | chRptctrlFence => exact execChRptctrlFence_mem ..
  | hubRptfenceStart => exact execHubRptfenceStart_mem ..
  | hubRptCopyUpdate => exact execHubRptCopyUpdate_mem ..
  | vfGrantselWrite => exact execVfGrantselWrite_mem ..
  | vfWinselWrite => exact execVfWinselWrite_mem ..
  | drstNDeassert => exact execDrstNDeassert_mem ..
  | ucieTrained => exact execUcieTrained_mem ..
  | capx => exact execCapx_mem ..
  | capxRepeat => exact execCapxRepeat_mem ..
  | uprateDone => exact execUprateDone_mem ..
  | flitTransmit => exact execFlitTransmit_mem ..
  | fdlRetry => exact execFdlRetry_mem ..
  | ackTimeout => exact execAckTimeout_mem ..
  | retrainDone => exact execRetrainDone_mem ..
  | l1IdleExpiry => exact execL1IdleExpiry_mem ..
  | pmreq => exact execPmreq_mem ..
  | pmack => exact execPmack_mem ..
  | pmnak => exact execPmnak_mem ..
  | l1Exit => exact execL1Exit_mem ..
  | testreq => exact execTestreq_mem ..
  | fdlAbort => exact execFdlAbort_mem ..
  | fdlFrame => exact execFdlFrame_mem ..
  | fdlNote => exact execFdlNote_mem ..
  | boot => exact execBoot_mem ..
  | fdlRequestTimeout => exact execFdlRequestTimeout_mem ..
  | fdlLinkCtrlReneg => exact execFdlLinkCtrlReneg_mem ..
  | fdlLinkCtrlRetrain => exact execFdlLinkCtrlRetrain_mem ..
  | fdlLinkCtrlTest => exact execFdlLinkCtrlTest_mem ..
  | fdlLinkCfgCommit => exact execFdlLinkCfgCommit_mem ..
  | fdlRegWindowAccess => exact execFdlRegWindowAccess_mem ..
  | ctFrameReceive => exact execCtFrameReceive_mem ..
  | ctColl => exact execCtColl_mem ..
  | ctAck => exact execCtAck_mem ..
  | ctPacketTransmit => exact execCtPacketTransmit_mem ..
  | ctAckTimer => exact execCtAckTimer_mem ..
  | ctOpenRetry => exact execCtOpenRetry_mem ..
  | ctNoticeResend => exact execCtNoticeResend_mem ..
  | ctFlowctrlCommit => exact execCtFlowctrlCommit_mem ..
  | ctFlowctrlOpen => exact execCtFlowctrlOpen_mem ..
  | ctFlowselWrite => exact execCtFlowselWrite_mem ..
  | ctGrpctrlCommit => exact execCtGrpctrlCommit_mem ..
  | ctGrpselWrite => exact execCtGrpselWrite_mem ..
  | ctLccfgCommit => exact execCtLccfgCommit_mem ..
  | ctPortCfgCommit => exact execCtPortCfgCommit_mem ..
  | portLinkDown => exact execPortLinkDown_mem ..
  | portLinkUp => exact execPortLinkUp_mem ..
  | collectiveBegin => exact execCollectiveBegin_mem ..
  | collectiveTimeout => exact execCollectiveTimeout_mem ..
  | powerEpoch => exact execPowerEpoch_mem ..
  | grantBoundary => exact execGrantBoundary_mem ..
  | avfsEvaluation => exact execAvfsEvaluation_mem ..
  | droop => exact execDroop_mem ..
  | dstVftgtCommit => exact execDstVftgtCommit_mem ..
  | hubPwrbudgetCommit => exact execHubPwrbudgetCommit_mem ..
  | chPwrcfgWrite => exact execChPwrcfgWrite_mem ..
  | thermalSample => exact execThermalSample_mem ..
  | throttleNEdge => exact execThrottleNEdge_mem ..
  | throttleFilterExpiry => exact execThrottleFilterExpiry_mem ..
  | syncInPulse => exact execSyncInPulse_mem ..
  | hubSyncctrlArmload => exact execHubSyncctrlArmload_mem ..
  | sysclkLoss => exact execSysclkLoss_mem ..
  | pllLockLoss => exact execPllLockLoss_mem ..
  | bucketLeak => exact execBucketLeak_mem ..
  | stormWindow => exact execStormWindow_mem ..
  | repairCopyDone => exact execRepairCopyDone_mem ..
  | heartbeat ch => exact execHeartbeat_mem ch s
  | hubCriticalFault => exact execHubCriticalFault_mem ..
  | hubWatchdogExpiry => exact execHubWatchdogExpiry_mem ..
  | faultNHoldEnd => exact execFaultNHoldEnd_mem ..
  | chFinjArm => exact execChFinjArm_mem ..
  | pwrgdFall => exact execPwrgdFall_mem ..
  | pwrgdHighStable => exact execPwrgdHighStable_mem ..
  | hubRstctrlWrite => exact execHubRstctrlWrite_mem ..
  | romBoot => exact execRomBoot_mem ..
  | fieldReadyTimeout => exact execFieldReadyTimeout_mem ..
  | nvCtrlCommit => exact execNvCtrlCommit_mem ..
  | nvCtrlLcreq => exact execNvCtrlLcreq_mem ..
  | nvCtrlLccancel => exact execNvCtrlLccancel_mem ..
  | nvCtrlFclear => exact execNvCtrlFclear_mem ..
  | nvCtrlAuthgo => exact execNvCtrlAuthgo_mem ..
  | nvGenerationDone => exact execNvGenerationDone_mem ..
  | nvEraseDone => exact execNvEraseDone_mem ..
  | nvFaultAppend => exact execNvFaultAppend_mem ..
  | setEndpointId => exact execSetEndpointId_mem ..
  | getEndpointId => exact execGetEndpointId_mem ..
  | getEndpointUuid => exact execGetEndpointUuid_mem ..
  | getMctpVersionSupport => exact execGetMctpVersionSupport_mem ..
  | getMessageTypeSupport => exact execGetMessageTypeSupport_mem ..
  | getVendorMessageSupport => exact execGetVendorMessageSupport_mem ..
  | smbusArp => exact execSmbusArp_mem ..
  | smbusLineTimeout => exact execSmbusLineTimeout_mem ..
  | regRead => exact execRegRead_mem ..
  | dumpInfo => exact execDumpInfo_mem ..
  | dumpRead => exact execDumpRead_mem ..
  | dumpClear => exact execDumpClear_mem ..
  | dumpEraseDone => exact execDumpEraseDone_mem ..
  | dlyRead => exact execDlyRead_mem ..
  | pldmBaseRequest => exact execPldmBaseRequest_mem ..
  | pldmSensorRequest => exact execPldmSensorRequest_mem ..
  | requestUpdate => exact execRequestUpdate_mem ..
  | firmwareDataTransfer => exact execFirmwareDataTransfer_mem ..
  | verifyComplete => exact execVerifyComplete_mem ..
  | activateFirmware => exact execActivateFirmware_mem ..
  | sensorSample => exact execSensorSample_mem ..
  | alertResponseRead => exact execAlertResponseRead_mem ..
  | alertHoldoffEnd => exact execAlertHoldoffEnd_mem ..
  | chDlyctrlTrigarm => exact execChDlyctrlTrigarm_mem ..
  | chDlyctrlClear => exact execChDlyctrlClear_mem ..
  | chDlymarkWrite => exact execChDlymarkWrite_mem ..
  | hubDlyfreeze => exact execHubDlyfreeze_mem ..
  | pmctrlStart => exact execPmctrlStart_mem ..
  | pmctrlStop => exact execPmctrlStop_mem ..
  | pmctrlSnap => exact execPmctrlSnap_mem ..
  | keeperDumpDone => exact execKeeperDumpDone_mem ..
  | bypass => exact execBypass_mem ..
  | extest => exact execExtest_mem ..
  | samplePreload => exact execSamplePreload_mem ..
  | idcode => exact execIdcode_mem ..
  | clamp => exact execClamp_mem ..
  | highz => exact execHighz_mem ..
  | dbgregRd => exact execDbgregRd_mem ..
  | dlyRd => exact execDlyRd_mem ..
  | dbghalt => exact execDbghalt_mem ..
  | trstNLow => exact execTrstNLow_mem ..
  | thermalTrip => exact execThermalTrip_mem ..
  | supplySample => exact execSupplySample_mem ..
  | xtalLoss => exact execXtalLoss_mem ..
  | pcieRefclkLoss => exact execPcieRefclkLoss_mem ..
  | registerRead => exact execRegisterRead_mem ..
  | pllRelock => exact execPllRelock_mem ..
  | _ => cases h

/-- Every command keeps the canonical form: it leaves memory, or its own lemma says so. -/
theorem wf_exec (c : Instr) {s : State} (hs : Memory.wf s.mem) : Memory.wf (after (exec c s) s).mem := by
  cases h : Slice0.mayStore c with
  | false => rwa [exec_mem h]
  | true =>
    cases c with
    | registerWrite => exact wf_execRegisterWrite (hs := hs) ..
    | flitRoute => exact wf_execFlitRoute (hs := hs) ..
    | egressToken => exact wf_execEgressToken (hs := hs) ..
    | gatewayMeshHop => exact wf_execGatewayMeshHop (hs := hs) ..
    | tileReservedEncoding => exact wf_execTileReservedEncoding (hs := hs) ..
    | illegalInstruction => exact wf_execIllegalInstruction (hs := hs) ..
    | sAlu => exact wf_execSAlu (hs := hs) ..
    | sAddi => exact wf_execSAddi (hs := hs) ..
    | sAndi => exact wf_execSAndi (hs := hs) ..
    | sOri => exact wf_execSOri (hs := hs) ..
    | sXori => exact wf_execSXori (hs := hs) ..
    | sShi => exact wf_execSShi (hs := hs) ..
    | sSlti => exact wf_execSSlti (hs := hs) ..
    | sBeq => exact wf_execSBeq (hs := hs) ..
    | sBne => exact wf_execSBne (hs := hs) ..
    | sBlt => exact wf_execSBlt (hs := hs) ..
    | sBge => exact wf_execSBge (hs := hs) ..
    | sBltu => exact wf_execSBltu (hs := hs) ..
    | sBgeu => exact wf_execSBgeu (hs := hs) ..
    | sJal => exact wf_execSJal (hs := hs) ..
    | sJalr => exact wf_execSJalr (hs := hs) ..
    | sCsr => exact wf_execSCsr (hs := hs) ..
    | sSysc => exact wf_execSSysc (hs := hs) ..
    | sRett => exact wf_execSRett (hs := hs) ..
    | sHret => exact wf_execSHret (hs := hs) ..
    | sHalt => exact wf_execSHalt (hs := hs) ..
    | sFenceL => exact wf_execSFenceL (hs := hs) ..
    | sFenceG => exact wf_execSFenceG (hs := hs) ..
    | sFenceI => exact wf_execSFenceI (hs := hs) ..
    | sLi => exact wf_execSLi (hs := hs) ..
    | sLih => exact wf_execSLih (hs := hs) ..
    | sLdl => exact wf_execSLdl (hs := hs) ..
    | sStl => exact wf_execSStl (hs := hs) ..
    | sLdg => exact wf_execSLdg (hs := hs) ..
    | sStg => exact wf_execSStg (hs := hs) ..
    | globalLoadReturn => exact wf_execGlobalLoadReturn (hs := hs) ..
    | sDlyIssue => exact wf_execSDlyIssue (hs := hs) ..
    | sDlyWait => exact wf_execSDlyWait (hs := hs) ..
    | sDlyPoll => exact wf_execSDlyPoll (hs := hs) ..
    | dollyRequestIssue => exact wf_execDollyRequestIssue (hs := hs) ..
    | dollyDataReturn => exact wf_execDollyDataReturn (hs := hs) ..
    | descriptorComplete => exact wf_execDescriptorComplete (hs := hs) ..
    | sQsnd => exact wf_execSQsnd (hs := hs) ..
    | sQrcv => exact wf_execSQrcv (hs := hs) ..
    | sSyncRd => exact wf_execSSyncRd (hs := hs) ..
    | sSyncAdd => exact wf_execSSyncAdd (hs := hs) ..
    | sSyncSet => exact wf_execSSyncSet (hs := hs) ..
    | sSyncWge => exact wf_execSSyncWge (hs := hs) ..
    | sBarArv => exact wf_execSBarArv (hs := hs) ..
    | sBarWait => exact wf_execSBarWait (hs := hs) ..
    | sBarArw => exact wf_execSBarArw (hs := hs) ..
    | sTakeOpen => exact wf_execSTakeOpen (hs := hs) ..
    | sTakeCommit => exact wf_execSTakeCommit (hs := hs) ..
    | sTakeSquash => exact wf_execSTakeSquash (hs := hs) ..
    | takeActionResume => exact wf_execTakeActionResume (hs := hs) ..
    | sTakeEnter => exact wf_execSTakeEnter (hs := hs) ..
    | sTakeLeave => exact wf_execSTakeLeave (hs := hs) ..
    | sTakeStat => exact wf_execSTakeStat (hs := hs) ..
    | sPredQ => exact wf_execSPredQ (hs := hs) ..
    | sPredU => exact wf_execSPredU (hs := hs) ..
    | sSealConvoy => exact wf_execSSealConvoy (hs := hs) ..
    | sSealWait => exact wf_execSSealWait (hs := hs) ..
    | sSealPoll => exact wf_execSSealPoll (hs := hs) ..
    | sSealCtx => exact wf_execSSealCtx (hs := hs) ..
    | sSealHdr => exact wf_execSSealHdr (hs := hs) ..
    | loadFetchDone => exact wf_execLoadFetchDone (hs := hs) ..
    | loadCheckDone => exact wf_execLoadCheckDone (hs := hs) ..
    | loadWriteDone => exact wf_execLoadWriteDone (hs := hs) ..
    | preloadDone => exact wf_execPreloadDone (hs := hs) ..
    | chLdctrlStart => exact wf_execChLdctrlStart (hs := hs) ..
    | chLdctrlClear => exact wf_execChLdctrlClear (hs := hs) ..
    | chLdctrlUnload => exact wf_execChLdctrlUnload (hs := hs) ..
    | startupStepIssue => exact wf_execStartupStepIssue (hs := hs) ..
    | startupStepComplete => exact wf_execStartupStepComplete (hs := hs) ..
    | startupStepTimeout => exact wf_execStartupStepTimeout (hs := hs) ..
    | unloadDone => exact wf_execUnloadDone (hs := hs) ..
    | depotBankGrant => exact wf_execDepotBankGrant (hs := hs) ..
    | stackSlotGrant => exact wf_execStackSlotGrant (hs := hs) ..
    | ttEntryAssign => exact wf_execTtEntryAssign (hs := hs) ..
    | depotInterfaceFlit => exact wf_execDepotInterfaceFlit (hs := hs) ..
    | queueArrival => exact wf_execQueueArrival (hs := hs) ..
    | messageEnqueueAfterWait => exact wf_execMessageEnqueueAfterWait (hs := hs) ..
    | handlerDispatch => exact wf_execHandlerDispatch (hs := hs) ..
    | clQctrlPoison => exact wf_execClQctrlPoison (hs := hs) ..
    | syncOperation => exact wf_execSyncOperation (hs := hs) ..
    | waitRegistration => exact wf_execWaitRegistration (hs := hs) ..
    | remoteWaitRetry => exact wf_execRemoteWaitRetry (hs := hs) ..
    | chSyncctrlPoison => exact wf_execChSyncctrlPoison (hs := hs) ..
    | sidingEngineCycle => exact wf_execSidingEngineCycle (hs := hs) ..
    | sealConvoyComplete => exact wf_execSealConvoyComplete (hs := hs) ..
    | cmdLoad => exact wf_execCmdLoad (hs := hs) ..
    | cmdStart => exact wf_execCmdStart (hs := hs) ..
    | cmdUnload => exact wf_execCmdUnload (hs := hs) ..
    | cmdClear => exact wf_execCmdClear (hs := hs) ..
    | copyOut => exact wf_execCopyOut (hs := hs) ..
    | signal => exact wf_execSignal (hs := hs) ..
    | syncwait => exact wf_execSyncwait (hs := hs) ..
    | apertureWrite => exact wf_execApertureWrite (hs := hs) ..
    | apertureRead => exact wf_execApertureRead (hs := hs) ..
    | channelDisable => exact wf_execChannelDisable (hs := hs) ..
    | flrDrainTimeout => exact wf_execFlrDrainTimeout (hs := hs) ..
    | disableScrubDone => exact wf_execDisableScrubDone (hs := hs) ..
    | fenceTimeout => exact wf_execFenceTimeout (hs := hs) ..
    | agree => exact wf_execAgree (hs := hs) ..
    | fdlStageTimeout => exact wf_execFdlStageTimeout (hs := hs) ..
    | flitReceive => exact wf_execFlitReceive (hs := hs) ..
    | retrainTimeout => exact wf_execRetrainTimeout (hs := hs) ..
    | mrd => exact wf_execMrd (hs := hs) ..
    | mwr => exact wf_execMwr (hs := hs) ..
    | fdlRdata => exact wf_execFdlRdata (hs := hs) ..
    | fdlCmpl => exact wf_execFdlCmpl (hs := hs) ..
    | fdlQmsg => exact wf_execFdlQmsg (hs := hs) ..
    | fdlSync => exact wf_execFdlSync (hs := hs) ..
    | fdlReg => exact wf_execFdlReg (hs := hs) ..
    | ctWrite => exact wf_execCtWrite (hs := hs) ..
    | ctRead => exact wf_execCtRead (hs := hs) ..
    | ctQmsg => exact wf_execCtQmsg (hs := hs) ..
    | ctSync => exact wf_execCtSync (hs := hs) ..
    | ctBar => exact wf_execCtBar (hs := hs) ..
    | ctResp => exact wf_execCtResp (hs := hs) ..
    | ctRdata => exact wf_execCtRdata (hs := hs) ..
    | ctOpen => exact wf_execCtOpen (hs := hs) ..
    | ctNotice => exact wf_execCtNotice (hs := hs) ..
    | ctRtoExpiry => exact wf_execCtRtoExpiry (hs := hs) ..
    | ctFlowctrlClose => exact wf_execCtFlowctrlClose (hs := hs) ..
    | collectiveSubmit => exact wf_execCollectiveSubmit (hs := hs) ..
    | syncInNotice => exact wf_execSyncInNotice (hs := hs) ..
    | pllRelockTimeout => exact wf_execPllRelockTimeout (hs := hs) ..
    | faultEvent => exact wf_execFaultEvent (hs := hs) ..
    | heartbeatTimeout => exact wf_execHeartbeatTimeout (hs := hs) ..
    | retirementNotice => exact wf_execRetirementNotice (hs := hs) ..
    | pwrgdLowAccept => exact wf_execPwrgdLowAccept (hs := hs) ..
    | warmReset => exact wf_execWarmReset (hs := hs) ..
    | firmwareBringup => exact wf_execFirmwareBringup (hs := hs) ..
    | returnedScrubDone => exact wf_execReturnedScrubDone (hs := hs) ..
    | regWrite => exact wf_execRegWrite (hs := hs) ..
    | dbgregWr => exact wf_execDbgregWr (hs := hs) ..
    | dbgmem => exact wf_execDbgmem (hs := hs) ..
    | hostReadCompletion => exact wf_execHostReadCompletion (hs := hs) ..
    | _ => cases h

/-- What a command answers is the state after it. -/
theorem after_of_next {c : Instr} {s t : State} (h : exec c s = .next t) : after (exec c s) s = t := by
  rw [h, after_next]

/-- Settles O59. The canonical form is the model's own choice (log entry 20). A step takes the next command of the list, and
every command keeps the form (`wf_exec`). -/
theorem stepKeepsMemoryCanonical : Obligations.StepKeepsMemoryCanonical := by
  intro s t hs ht
  unfold step at ht
  split at ht
  · cases ht
    exact hs
  · next c rest _ =>
    rw [← after_of_next ht]
    exact wf_exec c hs

/-- Settles O60: such a command leaves the list of stored bytes itself (`exec_mem`), so it leaves every byte. -/
theorem otherCommandsKeepMemory : Obligations.OtherCommandsKeepMemory := by
  intro c s t hc ht a
  rw [← after_of_next ht, State.byteAt, exec_mem hc, State.byteAt]

/-- Settles O58: memory lists nothing after reset (log entry 20). -/
theorem resetMemoryCanonical : Obligations.ResetMemoryCanonical := rfl

end Sys2Proof.Machine

/-! The stream buffers (R202 to R204, R210 to R214): what a command that passes its gate does, then the obligation. -/

namespace Sys2Proof.Machine

section StreamBuffers

variable {s : State} {r : Requester} {c : Cl} {n : Fin 32}

theorem exec_clSbCtrlCommit : exec (.clSbCtrlCommit r c n) s = execClSbCtrlCommit r c n s := rfl
theorem exec_sbConfigApply : exec (.sbConfigApply c n) s = execSbConfigApply c n s := rfl
theorem exec_clSbCtrlSwap : exec (.clSbCtrlSwap r c n) s = execClSbCtrlSwap r c n s := rfl
theorem exec_sbSwap : exec (.sbSwap c n) s = execSbSwap c n s := rfl
theorem exec_clSbCtrlPub : exec (.clSbCtrlPub r c n) s = execClSbCtrlPub r c n s := rfl
theorem exec_clSbCtrlRel : exec (.clSbCtrlRel r c n) s = execClSbCtrlRel r c n s := rfl
theorem exec_clSbCtrlFlush : exec (.clSbCtrlFlush r c n) s = execClSbCtrlFlush r c n s := rfl

/-- A control bit of a stream buffer, by a writer of the cluster, acts on the state without its writer's held half. -/
theorem sbGate_of_open (f : State → State) (ho : Slice0.Open s r (.cl c)) (hm : mayCl (dropHalf s r) r c.ch c.cl = true) :
    (rowGate s r (.cl c) fun s => sbGuard r c s f) = f (dropHalf s r) := by
  rw [rowGate_of_open _ ho, sbGuard, if_pos hm]

/-- Dropping a held half leaves the live configuration and the owning function of the cluster. -/
theorem sbA_dropHalf (s : State) (r : Requester) (ch k m : Nat) : sbA (dropHalf s r) ch k m = sbA s ch k m := rfl
theorem clFn_dropHalf (s : State) (r : Requester) (ch k : Nat) : clFn (dropHalf s r) ch k = clFn s ch k := rfl

/-- COMMIT keeps a valid configuration pending (R203). -/
theorem exec_clSbCtrlCommit_of_valid {a b : Nat} (ho : Slice0.Open s r (.cl c))
    (hm : mayCl (dropHalf s r) r c.ch c.cl = true) (ha : s.regN .CL_SBn_CFGA (clLoc c.ch c.cl) n = a)
    (hb : s.regN .CL_SBn_CFGB (clLoc c.ch c.cl) n = b) (hwords : sbWordsOk a b = true)
    (hclash : sbClashes (dropHalf s r) c.ch c.cl n a b = false)
    (hsync : sbSyncOk (dropHalf s r) c.ch (clFn s c.ch c.cl) a b = true) :
    exec (.clSbCtrlCommit r c n) s =
      .next (setSbuf ((dropHalf s r).fset Fld.CL_SBn_STAT_PENDING (clLoc c.ch c.cl) n 1) c.ch c.cl n
        fun x => { x with pend := some (a, b) }) := by
  have ha' : (dropHalf s r).regN .CL_SBn_CFGA (clLoc c.ch c.cl) n = a := ha
  have hb' : (dropHalf s r).regN .CL_SBn_CFGB (clLoc c.ch c.cl) n = b := hb
  rw [exec_clSbCtrlCommit, execClSbCtrlCommit, sbGate_of_open _ ho hm]
  simp [ha', hb', clFn_dropHalf, hwords, hclash, hsync]

/-- A pending configuration is applied to an idle buffer (R204). -/
theorem exec_sbConfigApply_of_idle {a b : Nat} (hpend : (sbuf s c.ch c.cl n).pend = some (a, b))
    (hidle : sbIdle s c.ch c.cl n = true) (hclock : clocked s c.ch c.cl = true) :
    exec (.sbConfigApply c n) s = .next (sbApply s c.ch c.cl n a b) := by
  simp [exec_sbConfigApply, execSbConfigApply, hpend, hidle, hclock]

/-- SWAP of a buffer of halves records the request (R213). -/
theorem exec_clSbCtrlSwap_of_halves (ho : Slice0.Open s r (.cl c)) (hm : mayCl (dropHalf s r) r c.ch c.cl = true)
    (hmode : sbMode (sbA s c.ch c.cl n) = mHalves) :
    exec (.clSbCtrlSwap r c n) s = .next ((dropHalf s r).fset Fld.CL_SBn_STAT_SWAPREQ (clLoc c.ch c.cl) n 1) := by
  rw [exec_clSbCtrlSwap, execClSbCtrlSwap, sbGate_of_open _ ho hm, sbA_dropHalf, if_pos hmode]

/-- A requested swap is made once one half is filled and the other is free (R213). -/
theorem exec_sbSwap_of_request (hmode : sbMode (sbA s c.ch c.cl n) = mHalves)
    (hreq : s.fbit Fld.CL_SBn_STAT_SWAPREQ (clLoc c.ch c.cl) n = true) (hfilled : (sbuf s c.ch c.cl n).filled = true)
    (hfree : (sbuf s c.ch c.cl n).full = false) (hclock : clocked s c.ch c.cl = true) :
    exec (.sbSwap c n) s = .next (sbSwapNow s c.ch c.cl n) := by
  simp [exec_sbSwap, execSbSwap, hmode, hreq, hfilled, hfree, hclock]

/-- A publish of a slot that the stewards fill, where one is free and no slot is marked (R210). -/
theorem sbPubNow_of_room {ch k m : Nat} (hmode : sbMode (sbA s ch k m) ≠ mOff) (hprod : sbProd (sbA s ch k m) = 2)
    (hroom : sbRoom s ch k m = true) (hmark : sbMarked s ch k m = false) : sbPubNow s ch k m = sbPublish s ch k m :=
  if_pos ⟨hmode, hprod, hroom, ne_true_of_eq_false hmark⟩

/-- PUB takes effect at once where no earlier store of its writer is left (R210). -/
theorem exec_clSbCtrlPub_of_none_behind (ho : Slice0.Open s r (.cl c)) (hm : mayCl (dropHalf s r) r c.ch c.cl = true)
    (hbehind : sbBehind (dropHalf s r) c.ch r = none) :
    exec (.clSbCtrlPub r c n) s = .next (sbPubNow (dropHalf s r) c.ch c.cl n) := by
  rw [exec_clSbCtrlPub, execClSbCtrlPub, sbGate_of_open _ ho hm, hbehind]

/-- REL gives back the head slot of a buffer that no port drains; no earlier store of its writer is left (R212). -/
theorem exec_clSbCtrlRel_of_head (ho : Slice0.Open s r (.cl c)) (hm : mayCl (dropHalf s r) r c.ch c.cl = true)
    (hbehind : sbBehind (dropHalf s r) c.ch r = none) (hhead : sbHead (dropHalf s r) c.ch c.cl n = true)
    (hports : sbCmask (sbA (dropHalf s r) c.ch c.cl n) = 0) :
    exec (.clSbCtrlRel r c n) s = .next (sbRelease (dropHalf s r) c.ch c.cl n) := by
  rw [exec_clSbCtrlRel, execClSbCtrlRel, sbGate_of_open _ ho hm, if_pos ⟨hhead, hports⟩, hbehind]

/-- FLUSH publishes a part-filled slot of a buffer that no steward fills and no transfer names (R214). -/
theorem exec_clSbCtrlFlush_of_partFilled (ho : Slice0.Open s r (.cl c)) (hm : mayCl (dropHalf s r) r c.ch c.cl = true)
    (hprod : sbProd (sbA (dropHalf s r) c.ch c.cl n) ≠ 2) (hnamed : sbNamed (dropHalf s r) c.ch c.cl n = false)
    (hfill : sbFill (dropHalf s r) c.ch c.cl n ≠ 0) (hroom : sbRoom (dropHalf s r) c.ch c.cl n = true) :
    exec (.clSbCtrlFlush r c n) s = .next (sbPublish (dropHalf s r) c.ch c.cl n) := by
  rw [exec_clSbCtrlFlush, execClSbCtrlFlush, sbGate_of_open _ ho hm]
  simp [hprod, hnamed, hfill, hroom]

end StreamBuffers

/-- Settles O12: commit and apply are R203 and R204, the swap R213, PUB R210, REL R212 and FLUSH R214. Each clause is one path of its
command, and its hypotheses decide every test on that path. -/
theorem streamBufferCommandsComplete : Obligations.StreamBufferCommandsComplete := by
  intro s r c n t l
  refine ⟨fun ho hm hwords hclash hsync => ?commit, fun a b hpend hidle hclock => ?apply, fun ho hm hmode => ?ask,
    fun hmode hreq hfilled hfree hclock => ?swap, fun ho hm hbehind hmode hprod hroom hmark => ?publish,
    fun ho hm hbehind hhead hports => ?release, fun ho hm hprod hnamed hfill hroom => ?flush⟩
  case commit => exact exec_clSbCtrlCommit_of_valid ho hm rfl rfl hwords hclash hsync
  case apply => exact exec_sbConfigApply_of_idle hpend hidle hclock
  case ask => exact exec_clSbCtrlSwap_of_halves ho hm hmode
  case swap => exact exec_sbSwap_of_request hmode hreq hfilled hfree hclock
  case publish => rw [exec_clSbCtrlPub_of_none_behind ho hm hbehind, sbPubNow_of_room hmode hprod hroom hmark]
  case release => exact exec_clSbCtrlRel_of_head ho hm hbehind hhead hports
  case flush => exact exec_clSbCtrlFlush_of_partFilled ho hm hprod hnamed hfill hroom

end Sys2Proof.Machine

/-! The message queues (R225, R227, R230, R233, R235, R236): what a command whose conditions hold does, then the obligation. -/

namespace Sys2Proof.Machine

section MessageQueues

variable {s : State} {r : Requester} {c : Cl}

theorem exec_queueArrival {inp : Fin 9} : exec (.queueArrival c inp) s = execQueueArrival c inp s := rfl
theorem exec_messageEnqueueAfterWait {inp : Fin 9} :
    exec (.messageEnqueueAfterWait c inp) s = execMessageEnqueueAfterWait c inp s := rfl
theorem exec_handlerDispatch {w : StwId} : exec (.handlerDispatch w) s = execHandlerDispatch w s := rfl
theorem exec_clQctrlPoison {q : Fin 16} : exec (.clQctrlPoison r c q) s = execClQctrlPoison r c q s := rfl
theorem exec_clQctrlUnpoison {q : Fin 16} : exec (.clQctrlUnpoison r c q) s = execClQctrlUnpoison r c q s := rfl
theorem exec_clQcfgWrite {q : Fin 16} {v : Word} : exec (.clQcfgWrite r c q v) s = execClQcfgWrite r c q v s := rfl
theorem exec_clHtWrite {n : Fin 256} {v : Word} : exec (.clHtWrite r c n v) s = execClHtWrite r c n v s := rfl

/-! ### Arrival -/

/-- A message that passes the checks of Table 10-5, is read back whole and carries no poison leaves its input for its queue, which has
room (R227, R228). -/
theorem deliver_of_room {ch k inp : Nat} {m : Req} {h : Nat} {b : List DByte} (hcode : deliverCode s ch m.fn m.tga = 0)
    (hroom : (queue s ch k (qaQueue m.tga)).length < 32) (hgood : gwBad s ch k inp m = false) (hback : readBack s ch k m = m)
    (hop : m.op = .msg h b) (hclean : anyPsn b = false) :
    deliver s ch k inp m h b = finish (enqueue (leaveMesh s ch m k inp) ch k (qaQueue m.tga) h b) ch m 0 [] := by
  have hnotfull : ¬ 32 ≤ (queue s ch k (qaQueue m.tga)).length := Nat.not_le.2 hroom
  simp [deliver, hgood, hcode, hnotfull, hback, hop, hclean]

/-- An arrival that may be delivered and has room is delivered in its turn, and the queue's turn moves on (R229). -/
theorem arrivalRow_of_turn {ch k inp : Nat} {held : Bool} {m : Req} {h : Nat} {b : List DByte}
    (harr : arrived s ch k inp held = some (m, h, b)) (hcode : deliverCode s ch m.fn m.tga = 0)
    (hroom : (queue s ch k (qaQueue m.tga)).length < 32)
    (hturn : queueTurn s ch k (qaQueue m.tga) inp (fun i =>
      if i = 9 then arrayWants s ch k (qaQueue m.tga) else inputWants s ch k (qaQueue m.tga) i) = true) :
    arrivalRow s ch k inp held = queueTook (deliver s ch k inp m h b) ch k (qaQueue m.tga) inp := by
  have hpass : ¬ (deliverCode s ch m.fn m.tga ≠ 0 ∨ 32 ≤ (queue s ch k (qaQueue m.tga)).length) := by omega
  simp only [arrivalRow, harr]
  rw [if_neg hpass, if_pos hturn]

/-- The two commands judge the arrival at an input: one as the message comes, the other once it has waited (R230). -/
theorem exec_arrival (held : Bool) (inp : Fin 9) :
    exec (if held then .messageEnqueueAfterWait c inp else .queueArrival c inp) s = .next (arrivalRow s c.ch c.cl inp held) := by
  cases held with
  | false => rw [if_neg Bool.false_ne_true, exec_queueArrival, execQueueArrival]
  | true => rw [if_pos rfl, exec_messageEnqueueAfterWait, execMessageEnqueueAfterWait]

/-! ### Dispatch -/

/-- A steward at a boundary takes the message at the head of the first queue that is due, where its table entry is valid (R233). -/
theorem exec_handlerDispatch_of_due {w : StwId} {q h n e : Nat} (hmay : mayDispatch (s.stw w.c.ch w.c.cl w.w) = true)
    (hstalled : (s.stw w.c.ch w.c.cl w.w).st ≠ wStalled) (hclock : clocked s w.c.ch w.c.cl = true)
    (hdue : (List.range 16).find? (dispatchDue s w.c.ch w.c.cl w.w) = some q) (hpsn : qPsn s w.c.ch w.c.cl q = false)
    (hhead : ((queue s w.c.ch w.c.cl q).head?.map Msg.hdr).getD 0 = h)
    (hentry : (if bits h 0 2 = 1 then bits h 2 8 else qDefh s w.c.ch w.c.cl q) = n)
    (htable : s.regN .CL_HTn (clLoc w.c.ch w.c.cl) n = e) (hvalid : bit e 22 = true) :
    exec (.handlerDispatch w) s = .next (setStw (wakeDistrict s w.c.ch (clDistrict w.c.cl)) w.c.ch w.c.cl w.w fun x =>
      { x with hepc := x.pc, pc := bits e 0 22, inh := some (q, n), inMsg := true }) := by
  subst hhead hentry htable
  simp only [exec_handlerDispatch, execHandlerDispatch, hmay, hclock, hdue, hpsn]
  rw [if_neg (by decide), if_neg (by decide), if_pos hvalid, if_neg hstalled]

/-! ### Control -/

/-- A control bit of a queue by a supervisor: it acts on the state without its writer's held half. -/
theorem exec_clQctrlPoison_of_open {q : Fin 16} (ho : Slice0.Open s r (.cl c)) (hm : maySup (dropHalf s r) r = true) :
    exec (.clQctrlPoison r c q) s = .next (poisonQueue (dropHalf s r) c.ch c.cl q) := by
  rw [exec_clQctrlPoison, execClQctrlPoison, rowGate_of_open _ ho, if_pos hm]

/-- A handler of the queue has no message left to read (R236). -/
def endMsg (s : State) (ch c q w : Nat) : State :=
  if ((s.stw ch c w).inh.map Prod.fst) = some q then setStw s ch c w fun x => { x with inMsg := false } else s

/-- What UNPOISON leaves (R236): the queue is empty, its mark is clear, and its next poisoning is told again. -/
def unpoisonQueue (s : State) (ch c q : Nat) : State :=
  ([0, 1].foldl (fun s w => endMsg s ch c q w)
    ((setQueue s ch c q []).fset Fld.CL_QSTATn_POISONED (clLoc ch c) q 0)).setClu ch c fun k =>
      { k with ptrapped := k.ptrapped.filter (· ≠ q) }

theorem exec_clQctrlUnpoison_of_open {q : Fin 16} (ho : Slice0.Open s r (.cl c)) (hm : maySup (dropHalf s r) r = true) :
    exec (.clQctrlUnpoison r c q) s = .next (unpoisonQueue (dropHalf s r) c.ch c.cl q) := by
  rw [exec_clQctrlUnpoison, execClQctrlUnpoison, rowGate_of_open _ ho, if_pos hm]
  rfl

/-- A change of a cluster that leaves its queues. -/
theorem queue_setClu_of_queues {ch k q : Nat} {f : Cluster → Cluster} (h : (f (s.clu ch k)).queues = (s.clu ch k).queues) :
    queue (s.setClu ch k f) ch k q = queue s ch k q := by
  rw [queue, clu_setClu_same, h, queue]

@[simp] theorem queue_endMsg (s : State) (ch k q w p : Nat) : queue (endMsg s ch k q w) ch k p = queue s ch k p := by
  unfold endMsg
  split
  · exact queue_setClu_of_queues rfl
  · rfl

@[simp] theorem qPsn_endMsg (s : State) (ch k q w p : Nat) : qPsn (endMsg s ch k q w) ch k p = qPsn s ch k p := by
  unfold endMsg
  split <;> rfl

theorem queue_unpoisonQueue (s : State) (ch k q : Nat) : queue (unpoisonQueue s ch k q) ch k q = [] := by
  rw [unpoisonQueue, queue_setClu_of_queues rfl]
  simp only [List.foldl, queue_endMsg]
  exact queue_setQueue_same s ch k q []

theorem qPsn_fset_zero (s : State) (ch k q : Nat) :
    qPsn (s.fset Fld.CL_QSTATn_POISONED (clLoc ch k) q 0) ch k q = false := by
  rw [qPsn, State.fbit, fget_fset_same _ _ _ _ _ (fits_of_le (by decide))]
  rfl

theorem qPsn_unpoisonQueue (s : State) (ch k q : Nat) : qPsn (unpoisonQueue s ch k q) ch k q = false := by
  change qPsn ([0, 1].foldl (fun s w => endMsg s ch k q w) _) ch k q = false
  simp only [List.foldl, qPsn_endMsg]
  exact qPsn_fset_zero _ ch k q

/-! ### Configuration -/

/-- A configuration is taken while its queue is empty and no handler of it runs (R225). -/
theorem exec_clQcfgWrite_of_idle {q : Fin 16} {v : Word} (ho : Slice0.Open s r (.cl c))
    (hm : mayCl (dropHalf s r) r c.ch c.cl = true) (hempty : queue s c.ch c.cl q = []) (hidle : inHandler s c.ch c.cl q = false)
    (hmode : bits v.toNat 0 2 ≠ 3) :
    exec (.clQcfgWrite r c q v) s =
      .next ((dropHalf s r).setReg .CL_QCFGn (clLoc c.ch c.cl) q (putBits (v.toNat % 2 ^ 32) 12 4 0)) := by
  have hempty' : queue (dropHalf s r) c.ch c.cl q = [] := hempty
  have hidle' : inHandler (dropHalf s r) c.ch c.cl q = false := hidle
  rw [exec_clQcfgWrite, execClQcfgWrite, rowGate_of_open _ ho]
  simp [hm, hempty', hidle', hmode]

/-- An entry of the handler table keeps its reserved bits 0 (R225). -/
theorem exec_clHtWrite_of_open {n : Fin 256} {v : Word} (ho : Slice0.Open s r (.cl c))
    (hm : mayCl (dropHalf s r) r c.ch c.cl = true) :
    exec (.clHtWrite r c n v) s = .next ((dropHalf s r).setReg .CL_HTn (clLoc c.ch c.cl) n (v.toNat % 2 ^ 23)) := by
  rw [exec_clHtWrite, execClHtWrite, rowGate_of_open _ ho, if_pos hm]

end MessageQueues

/-- Settles O11: POISON is R235 and UNPOISON R236. Each clause is one path of its command, and its hypotheses decide every test on that
path. -/
theorem queueCommandsComplete : Obligations.QueueCommandsComplete := by
  refine ⟨fun s c inp m h b held => ?arrive, fun s w q => ?dispatch, fun s r c q ho hm => ?poison,
    fun s r c q ho hm => ?unpoison, fun s r c q v ho hm hempty hidle hmode => ?config, fun s r c n v ho hm => ?table⟩
  case arrive =>
    intro q harr hcode hroom hturn hgood hback hop hclean
    rw [exec_arrival, arrivalRow_of_turn harr hcode hroom hturn, deliver_of_room hcode hroom hgood hback hop hclean]
  case dispatch =>
    intro h n e hmay hstalled hclock hdue hpsn hvalid
    exact exec_handlerDispatch_of_due hmay hstalled hclock hdue hpsn rfl rfl rfl hvalid
  case poison => exact exec_clQctrlPoison_of_open ho hm
  case unpoison =>
    have hexec := exec_clQctrlUnpoison_of_open (q := q) ho hm
    refine ⟨_, hexec, queue_unpoisonQueue .., qPsn_unpoisonQueue .., ?_⟩
    rw [← after_of_next hexec]
    exact exec_mem rfl s
  case config => exact exec_clQcfgWrite_of_idle ho hm hempty hidle hmode
  case table => exact exec_clHtWrite_of_open ho hm

end Sys2Proof.Machine

/-! Stall windows, sidings, prediction and the non-finite monitor (R262 to R264, R266, R290, R293, R298): what a command that passes its
gate does, then the obligation. -/

namespace Sys2Proof.Machine

section Watchdogs

variable {s : State} {r : Requester} {c : Cl} {ch : Ch} {d : DistId}

theorem exec_stallWindowExpiry {young : List Nat} : exec (.stallWindowExpiry c young) s = execStallWindowExpiry c young s := rfl
theorem exec_dstStallcfgWrite {v : Word} : exec (.dstStallcfgWrite r d v) s = execDstStallcfgWrite r d v s := rfl
theorem exec_sidingEngineCycle : exec (.sidingEngineCycle c) s = execSidingEngineCycle c s := rfl
theorem exec_chPredctrlClear : exec (.chPredctrlClear r ch) s = execChPredctrlClear r ch s := rfl
theorem exec_chNfctrlArm : exec (.chNfctrlArm r ch) s = execChNfctrlArm r ch s := rfl
theorem exec_chNfctrlAbort : exec (.chNfctrlAbort r ch) s = execChNfctrlAbort r ch s := rfl
theorem exec_chNfcfgCommit : exec (.chNfcfgCommit r ch) s = execChNfcfgCommit r ch s := rfl
theorem exec_nfConfigApply : exec (.nfConfigApply ch) s = execNfConfigApply ch s := rfl

/-! ### Stall windows and sidings -/

/-- The counts that a stall window of cluster `n` leaves in its district: one more round, and `n` as the last cluster (R264). -/
def countRound (s : State) (ch n : Nat) : State :=
  (s.fadd Fld.DST_STALLSTAT_ROUNDS (dstLoc ch (clDistrict n)) 0 1).fset Fld.DST_STALLSTAT_LASTCL (dstLoc ch (clDistrict n)) 0 n

/-- A window in which no queue is stuck is counted, recorded in the dailies, and moves no queue to a siding (R262, R264). -/
theorem exec_stallWindowExpiry_of_none_stuck {young : List Nat} (hwatched : (s.clu c.ch c.cl).watched = true)
    (hen : s.fbit Fld.DST_STALLCFG_EN (dstLoc c.ch (clDistrict c.cl)) = true) (hclock : clocked s c.ch c.cl = true)
    (hstuck : spillQueues.filter (stuckQueue s c.ch c.cl young) = []) :
    exec (.stallWindowExpiry c young) s =
      .next (dlyRecord (countRound s c.ch c.cl) c.ch 5 0 c.cl 0 (unitsUsed (countRound s c.ch c.cl) c.ch c.cl)) := by
  simp only [exec_stallWindowExpiry, execStallWindowExpiry, hstuck]
  rw [if_pos ⟨hwatched, hen, hclock⟩]
  rfl

/-- What a write of `DST_STALLCFG` that is taken leaves: the window and the enable bit of the value (R263). -/
def setStallCfg (s : State) (l v : Nat) : State :=
  (s.fset Fld.DST_STALLCFG_WLOG l 0 (bits v 0 5)).fset Fld.DST_STALLCFG_EN l 0 (bits v 8 1)

theorem fget_wlog_setStallCfg (s : State) (l v : Nat) : (setStallCfg s l v).fget Fld.DST_STALLCFG_WLOG l = bits v 0 5 :=
  calc (setStallCfg s l v).fget Fld.DST_STALLCFG_WLOG l
    _ = (s.fset Fld.DST_STALLCFG_WLOG l 0 (bits v 0 5)).fget Fld.DST_STALLCFG_WLOG l :=
      fget_fset_field _ Fld.DST_STALLCFG_EN Fld.DST_STALLCFG_WLOG l 0 _ (fits_of_le (by decide)) rfl (by decide)
    _ = bits v 0 5 % 2 ^ 5 := fget_fset_same _ Fld.DST_STALLCFG_WLOG l 0 _ (fits_of_le (by decide))
    _ = bits v 0 5 := Nat.mod_eq_of_lt (bits_lt ..)

theorem fget_en_setStallCfg (s : State) (l v : Nat) : (setStallCfg s l v).fget Fld.DST_STALLCFG_EN l = bits v 8 1 :=
  calc (setStallCfg s l v).fget Fld.DST_STALLCFG_EN l
    _ = bits v 8 1 % 2 ^ 1 := fget_fset_same _ Fld.DST_STALLCFG_EN l 0 _ (fits_of_le (by decide))
    _ = bits v 8 1 := Nat.mod_eq_of_lt (bits_lt ..)

/-- A supervisor sets a window of 2^12 to 2^24 cycles (R263). -/
theorem exec_dstStallcfgWrite_of_window {v : Word} (ho : Slice0.Open s r (.dst d)) (hm : maySup (dropHalf s r) r = true)
    (hlow : 12 ≤ bits v.toNat 0 5) (hhigh : bits v.toNat 0 5 ≤ 24) :
    exec (.dstStallcfgWrite r d v) s = .next (setStallCfg (dropHalf s r) (dstLoc d.ch d.d) v.toNat) := by
  rw [exec_dstStallcfgWrite, execDstStallcfgWrite, rowGate_of_open _ ho]
  simp [hm, hlow, hhigh, setStallCfg]

/-- The siding engine serves the next queue that has work, in its turn at the bank that the work uses (R266). -/
theorem exec_sidingEngineCycle_of_turn {q : Nat} (hnext : engineNext s c.ch c.cl = some q)
    (hturn : bankTurn s c.ch c.cl (engineBank s c.ch c.cl q) 18 = true) :
    exec (.sidingEngineCycle c) s = .next (engineCycle (bankTook s c.ch c.cl (engineBank s c.ch c.cl q) 18) c.ch c.cl) := by
  simp only [exec_sidingEngineCycle, execSidingEngineCycle, hnext, hturn, if_true]

/-! ### Prediction and the non-finite monitor -/

/-- CLEAR by a supervisor forgets what the predictor has learned (R290). -/
theorem exec_chPredctrlClear_of_open (ho : Slice0.Open s r (.ch ch)) (hm : maySup (dropHalf s r) r = true) :
    exec (.chPredctrlClear r ch) s = .next ((dropHalf s r).setChan ch fun c => { c with pred := [] }) := by
  rw [exec_chPredctrlClear, execChPredctrlClear, rowGate_of_open _ ho, if_pos hm]

/-- A control bit of the monitor, by a supervisor, acts on the state without its writer's held half (R298). -/
theorem nfGate_of_open (f : State → State) (ho : Slice0.Open s r (.ch ch)) (hm : maySup (dropHalf s r) r = true) :
    (rowGate s r (.ch ch) fun s => nfGuard r ch s f) = f (dropHalf s r) := by
  rw [rowGate_of_open _ ho, nfGuard, if_pos hm]

theorem exec_chNfctrlArm_of_open (ho : Slice0.Open s r (.ch ch)) (hm : maySup (dropHalf s r) r = true) :
    exec (.chNfctrlArm r ch) s = .next ((dropHalf s r).fset Fld.CH_NFSTAT_GUARD ch 0 gPending) := by
  rw [exec_chNfctrlArm, execChNfctrlArm, nfGate_of_open _ ho hm]

theorem exec_chNfctrlAbort_of_open (ho : Slice0.Open s r (.ch ch)) (hm : maySup (dropHalf s r) r = true) :
    exec (.chNfctrlAbort r ch) s = .next ((dropHalf s r).fset Fld.CH_NFSTAT_FORCE ch 0 1) := by
  rw [exec_chNfctrlAbort, execChNfctrlAbort, nfGate_of_open _ ho hm]

/-- COMMIT keeps a valid shadow pending (R293). -/
theorem exec_chNfcfgCommit_of_valid (ho : Slice0.Open s r (.ch ch)) (hm : maySup (dropHalf s r) r = true)
    (hcode : nfCommitCode (dropHalf s r) ch (nfShadow (dropHalf s r) ch) = 0) :
    exec (.chNfcfgCommit r ch) s =
      .next ((dropHalf s r).setMon ch fun m => { m with pend := some (nfShadow (dropHalf s r) ch) }) := by
  rw [exec_chNfcfgCommit, execChNfcfgCommit, nfGate_of_open _ ho hm]
  simp only [hcode, ne_eq, not_true_eq_false, if_false]

/-- A pending configuration becomes the live one while the guard is OPEN or SKIPPING and no write is held (R293). -/
theorem exec_nfConfigApply_of_idle {cfg : NfCfg} (hpend : (s.mon ch).pend = some cfg) (hguard : guardOf s ch ≠ gPending)
    (hheld : (s.mon ch).held = []) :
    exec (.nfConfigApply ch) s = .next (s.setMon ch fun m => { m with live := cfg, pend := none }) := by
  simp only [exec_nfConfigApply, execNfConfigApply, hpend]
  rw [if_pos ⟨hguard, hheld⟩]

end Watchdogs

/-- Settles O14: CLEAR of the predictor is R290, the monitor's commit and apply R293. Each clause is one path of its command, and its
hypotheses decide every test on that path. -/
theorem monitorCommandsComplete : Obligations.MonitorCommandsComplete := by
  refine ⟨fun s c young => ?expire, fun s r d v => ?window, fun s c q hnext hturn => ?serve, fun s r ch ho hm => ?control,
    fun s ch cfg hpend hguard hheld => ?apply⟩
  case expire =>
    intro d t hwatched hen hclock hstuck
    exact exec_stallWindowExpiry_of_none_stuck hwatched hen hclock hstuck
  case window =>
    intro l ho hm hlow hhigh
    exact ⟨_, exec_dstStallcfgWrite_of_window ho hm hlow hhigh, fget_wlog_setStallCfg .., fget_en_setStallCfg ..⟩
  case serve => exact exec_sidingEngineCycle_of_turn hnext hturn
  case control =>
    exact ⟨exec_chPredctrlClear_of_open ho hm, exec_chNfctrlArm_of_open ho hm, exec_chNfctrlAbort_of_open ho hm,
      exec_chNfcfgCommit_of_valid ho hm⟩
  case apply => exact exec_nfConfigApply_of_idle hpend hguard hheld

end Sys2Proof.Machine

/-! Control bits of the non-finite monitor (R298): a write that is made again changes nothing more, and the sample that a forced step
takes. -/

namespace Sys2Proof.SMap

/-- The later of two writes of one key stands. -/
theorem put_put_same {α : Type} (m : SMap α) (a : Nat) (x y : α) : put (put m a x) a y = put m a y := by
  induction m with
  | nil => simp [put]
  | cons e m ih =>
    obtain ⟨k, v⟩ := e
    rcases Nat.lt_trichotomy a k with hlt | rfl | hgt
    · simp [put, hlt]
    · simp [put]
    · simp [put, Nat.lt_asymm hgt, Nat.ne_of_lt' hgt, ih]

end Sys2Proof.SMap

namespace Sys2Proof.Machine

/-! ### A field written twice -/

theorem putBits_putBits_same (n lo w v : Nat) : putBits (putBits n lo w v) lo w v = putBits n lo w v := by
  rw [putBits_eq (putBits n lo w v), putBits_low, putBits_high, ← putBits_eq]

theorem setReg_setReg_same (s : State) (g : Reg) (l i v u : Nat) : (s.setReg g l i v).setReg g l i u = s.setReg g l i u := by
  simp only [State.setReg, SMap.put_put_same]

/-- A field that is set to the same value again stays as it is, and so does the rest of the state. -/
theorem fset_fset_same (s : State) (f : Fld) (l i v : Nat) (h : f.fits) :
    (s.fset f l i v).fset f l i v = s.fset f l i v := by
  rw [State.fset, regN_fset_same s f l i v h, putBits_putBits_same]
  exact setReg_setReg_same ..

/-! ### Who may write, after a write -/

section Writers

variable {s : State} {r : Requester} {ch : Ch} {f : Fld}

@[simp] theorem dropHalf_dropHalf (s : State) (r : Requester) : dropHalf (dropHalf s r) r = dropHalf s r := by
  simp [dropHalf]

theorem dropHalf_fset (s : State) (r : Requester) (f : Fld) (l i v : Nat) :
    dropHalf (s.fset f l i v) r = (dropHalf s r).fset f l i v := rfl

/-- A writer's supervisor right is a steward's, and no register holds it. -/
theorem maySup_fset (s : State) (r : Requester) (f : Fld) (l i v : Nat) : maySup (s.fset f l i v) r = maySup s r := by
  cases r <;> rfl

/-- A register of a channel lies apart from the hub's. -/
theorem fget_hub_fset_ch {g : Fld} {j : Nat} (s : State) (ch : Ch) (v : Nat) (hj : j < 2 ^ 16)
    (h : g.reg.ctorIdx ≠ f.reg.ctorIdx) : (s.fset f ch 0 v).fget g 0 j = s.fget g 0 j := by
  have hch := ch.isLt
  exact fget_fset_other _ _ _ _ _ _ _ _ (place_ne _ _ _ _ _ _ (by decide) (by omega) hj (by decide) fun hsame => h hsame.1)

/-- A write of `CH_NFSTAT` decides for no host function whether its BARs answer (R347, R387). -/
theorem fnAnswers_fset_nfstat (s : State) (ch : Ch) (v : Nat) (g : FnId) (hf : f.reg = .CH_NFSTAT) :
    fnAnswers (s.fset f ch 0 v) g = fnAnswers s g := by
  have hstate : (s.fset f ch 0 v).fget Fld.HUB_VFSTATn_STATE 0 (g - 1) = s.fget Fld.HUB_VFSTATn_STATE 0 (g - 1) :=
    fget_hub_fset_ch s ch v (by have := g.isLt; omega) (by rw [hf]; decide)
  rw [fnAnswers, fnOn, hstate]
  rfl

/-- A write of `CH_NFSTAT` shuts no channel (R29, R36). -/
theorem blkShut_fset_nfstat (s : State) (ch : Ch) (v : Nat) (b : BlockRef) (hf : f.reg = .CH_NFSTAT) :
    blkShut (s.fset f ch 0 v) b = blkShut s b := by
  have hlive : (s.fset f ch 0 v).fget Fld.HUB_CAPS_CH_LIVE = s.fget Fld.HUB_CAPS_CH_LIVE :=
    fget_hub_fset_ch s ch v (by decide) (by rw [hf]; decide)
  simp only [blkShut, State.chLive, hlive]
  rfl

/-- After a write of `CH_NFSTAT` the channel is still open to its writer. -/
theorem open_fset_nfstat (v : Nat) (hf : f.reg = .CH_NFSTAT) (ho : Slice0.Open s r (.ch ch)) :
    Slice0.Open ((dropHalf s r).fset f ch 0 v) r (.ch ch) := by
  obtain ⟨hhost, hown, hshut, -, -⟩ := ho
  refine ⟨fun g hg => ?host, hown, ?shut, rfl, rfl⟩
  case host => rw [dropHalf_fset, dropHalf_dropHalf, fnAnswers_fset_nfstat _ _ _ _ hf, hhost g hg]
  case shut => rw [dropHalf_fset, dropHalf_dropHalf, blkShut_fset_nfstat _ _ _ _ hf, hshut]

/-- After a write of a channel's field its writer keeps its supervisor right. -/
theorem maySup_dropHalf_fset (v : Nat) (hm : maySup (dropHalf s r) r = true) :
    maySup (dropHalf ((dropHalf s r).fset f ch 0 v) r) r = true := by
  rw [dropHalf_fset, dropHalf_dropHalf, maySup_fset, hm]

theorem dropHalf_fset_again (v : Nat) (hf : f.fits) :
    (dropHalf ((dropHalf s r).fset f ch 0 v) r).fset f ch 0 v = (dropHalf s r).fset f ch 0 v := by
  rw [dropHalf_fset, dropHalf_dropHalf, fset_fset_same _ _ _ _ _ hf]

/-! ### The sample -/

/-- A sample is 1 where a non-finite value was seen or `FORCE` is set (R296, R298). -/
theorem nfSample_sample (s : State) (ch : Nat) : ((nfSample s ch).mon ch).sample =
    some (s.fbit Fld.CH_NFSTAT_NF ch || s.fbit Fld.CH_NFSTAT_FORCE ch) := by
  rw [nfSample, mon_setMon_same]

theorem nfSample_sample_of_force (s : State) (ch : Nat) :
    ((nfSample (s.fset Fld.CH_NFSTAT_FORCE ch 0 1) ch).mon ch).sample = some true := by
  have hforce : (s.fset Fld.CH_NFSTAT_FORCE ch 0 1).fbit Fld.CH_NFSTAT_FORCE ch = true := by
    rw [State.fbit, fget_fset_same _ _ _ _ _ (fits_of_le (by decide))]
    rfl
  rw [nfSample_sample, hforce, Bool.or_true]

end Writers

/-- Settles O53: the first write of ABORT or ARM is the effect that R298 gives it, which leaves the channel open to the same writer, and
a field set to the same value again changes nothing more. -/
theorem monitorControlWrites : Obligations.MonitorControlWrites := by
  intro s r ch ho hm t u
  refine ⟨?abort, ?sample, ?abortAgain, ?arm, ?guard, ?armAgain⟩
  case abort => exact exec_chNfctrlAbort_of_open ho hm
  case sample => exact nfSample_sample_of_force _ ch
  case abortAgain =>
    rw [exec_chNfctrlAbort_of_open (open_fset_nfstat 1 rfl ho) (maySup_dropHalf_fset 1 hm),
      dropHalf_fset_again 1 (fits_of_le (by decide))]
  case arm => exact exec_chNfctrlArm_of_open ho hm
  case guard => exact fget_fset_same _ Fld.CH_NFSTAT_GUARD ch 0 1 (fits_of_le (by decide))
  case armAgain =>
    rw [exec_chNfctrlArm_of_open (open_fset_nfstat 1 rfl ho) (maySup_dropHalf_fset 1 hm)]
    exact congrArg _ (dropHalf_fset_again gPending (fits_of_le (by decide)))

end Sys2Proof.Machine

/-! Section loads (R146 to R164): what a command does in the state of the sequencer that allows it, then the obligation. -/

namespace Sys2Proof.Machine

section SectionLoads

variable {s : State} {r : Requester} {ch : Ch} {d : DistId} {b : List Byte} {rs : List Rec}

theorem exec_chLdctrlGo : exec (.chLdctrlGo r ch) s = execChLdctrlGo r ch s := rfl
theorem exec_loadFetchDone : exec (.loadFetchDone ch) s = execLoadFetchDone ch s := rfl
theorem exec_loadCheckDone : exec (.loadCheckDone ch) s = execLoadCheckDone ch s := rfl
theorem exec_loadWriteDone : exec (.loadWriteDone ch) s = execLoadWriteDone ch s := rfl
theorem exec_preloadDone : exec (.preloadDone ch) s = execPreloadDone ch s := rfl
theorem exec_chLdctrlStart : exec (.chLdctrlStart r ch) s = execChLdctrlStart r ch s := rfl
theorem exec_chLdctrlClear : exec (.chLdctrlClear r ch) s = execChLdctrlClear r ch s := rfl
theorem exec_chLdctrlUnload : exec (.chLdctrlUnload r ch) s = execChLdctrlUnload r ch s := rfl
theorem exec_chLdctrlCommit : exec (.chLdctrlCommit r ch) s = execChLdctrlCommit r ch s := rfl
theorem exec_startupStepIssue : exec (.startupStepIssue ch) s = execStartupStepIssue ch s := rfl
theorem exec_startupStepComplete : exec (.startupStepComplete ch) s = execStartupStepComplete ch s := rfl
theorem exec_startupStepTimeout : exec (.startupStepTimeout d) s = execStartupStepTimeout d s := rfl
theorem exec_unloadDone : exec (.unloadDone ch) s = execUnloadDone ch s := rfl

/-! ### Fetch, check, write, preload -/

/-- A control bit of the sequencer, by a writer with the hub's right, acts on the state without its writer's held half. -/
theorem loadGate_of_open (f : State → State) (ho : Slice0.Open s r (.ch ch)) (hm : mayHub r = true) :
    (rowGate s r (.ch ch) fun s => if !mayHub r then s else f s) = f (dropHalf s r) := by
  rw [rowGate_of_open _ ho, hm, Bool.not_true, if_neg Bool.false_ne_true]

/-- GO begins the fetch of an IDLE channel with the source, length and function that its registers give (R150). -/
theorem exec_chLdctrlGo_of_idle (ho : Slice0.Open s r (.ch ch)) (hm : mayHub r = true)
    (hst : ldState (dropHalf s r) ch = ldIdle) :
    exec (.chLdctrlGo r ch) s = .next (cmtCode (beginFetch (dropHalf s r) ch ((dropHalf s r).regN .CH_LDSRC ch)
      ((dropHalf s r).fget Fld.CH_LDREQ_LENGTH ch) ((dropHalf s r).fget Fld.CH_LDREQ_FUNC ch) none) ch cNone) := by
  rw [exec_chLdctrlGo, execChLdctrlGo, loadGate_of_open _ ho hm, if_neg (not_not_intro hst)]

/-- A reel that is read and passes its first pass is kept, and is checked next (R151). -/
theorem exec_loadFetchDone_of_pass (hst : ldState s ch = ldFetch) (hcode : reelCode s ch (s.load ch) = 0)
    (hback : reelBack s ch = true) (hpass : fetchPass s ch = (cNone, b, rs)) (hb : b ≠ []) :
    exec (.loadFetchDone ch) s = .next (setLdState (reelDrop (s.setLoad ch fun l =>
      { l with reel := b, sec := rlSection b, cls := rlClusters b, start := rlStart b, needs := reelNeeds b rs }) ch) ch
        ldCheck) := by
  simp [exec_loadFetchDone, execLoadFetchDone, hst, hcode, hback, hpass, hb]

/-- A load that passes its checks takes its clusters, none of which has an owner, and asks for the reel again (R152, R153). -/
theorem exec_loadCheckDone_of_pass (hst : ldState s ch = ldCheck) (hparse : parseReel (s.load ch).reel = .ok rs)
    (hfree : ((s.load ch).cls.any fun k => s.fbit Fld.CL_GATE_OWNED (clLoc ch k)) = false)
    (hcode : checkCode s ch (s.load ch) rs = cNone) :
    exec (.loadCheckDone ch) s = .next (reelAsk (setLdState (((s.load ch).cls.foldl (takeCluster ch (s.load ch))
      ((s.fset Fld.CH_LDORDER_LIVE_SEQ ch 0 (rlSeq (s.load ch).reel)).fset Fld.CH_LDORDER_LIVE_GAP ch 0
        (rlGap (s.load ch).reel))).setLoad ch fun l => { l with owned := true }) ch ldWrite) ch) := by
  simp only [exec_loadCheckDone, execLoadCheckDone, hparse, hfree, hcode]
  rw [if_neg (not_not_intro hst)]
  rfl

/-- The images and the code of a reel's stewards put into their depots, as far as the write guard lets them (R153, R299). -/
def stewardsPut (s : State) (ch : Nat) (rs : List Rec) : State := (stewardPuts rs).foldl (stewardPut ch) s

/-- A reel that reads the same again, its stewards' depots written, is applied, and its clusters' preloads start (R153, R154). -/
theorem exec_loadWriteDone_of_same (hst : ldState s ch = ldWrite) (hcode : reelCode s ch (s.load ch) = 0)
    (hback : reelBack s ch = true) (hpsn : firstPsn (reelRead s ch) = none) (hb : (reelRead s ch).map Prod.fst = b)
    (hparse : parseReel b = .ok rs) (hmap : rlClmap b = rlClmap (s.load ch).reel)
    (hputs : ∀ p ∈ stewardPuts rs, ((stewardsPut s ch rs).load ch).puts.contains p.1 = true)
    (hsame : reelSame (s.load ch).reel b = true) :
    exec (.loadWriteDone ch) s = .next ((s.load ch).cls.foldl (startPreload ch) (setLdState
      ((reelDrop (applyReel (stewardsPut s ch rs) ch (s.load ch).fn b rs) ch).setLoad ch fun l => { l with reel := b }) ch
        ldPreload)) := by
  have hall : ((stewardPuts rs).all fun p => ((stewardsPut s ch rs).load ch).puts.contains p.1) = true := List.all_eq_true.2 hputs
  rw [stewardsPut] at hall
  simp only [exec_loadWriteDone, execLoadWriteDone, hback, hpsn, hb, hparse, hall, hsame]
  rw [if_neg (not_not_intro hst), if_neg (not_not_intro hcode), if_neg (not_not_intro hmap)]
  rfl

@[simp] theorem load_dlyRecord (s : State) (ch src code cl arg0 arg1 ch' : Nat) :
    (dlyRecord s ch src code cl arg0 arg1).load ch' = s.load ch' := by
  simp only [dlyRecord]
  split
  · split <;> rfl
  · rfl

/-- A change of state leaves what the sequencer holds. -/
@[simp] theorem load_setLdState (s : State) (ch v ch' : Nat) : (setLdState s ch v).load ch' = s.load ch' := by
  rw [setLdState, load_dlyRecord, fset_load_view]

/-- A section whose preloads have ended is armed; it waits where it does not start by itself (R154, R158). -/
theorem exec_preloadDone_of_waits (hst : ldState s ch = ldPreload) (hleft : (s.load ch).cls.any (preloadsLeft s ch) = false)
    (hstart : (s.load ch).start ≠ 0) :
    exec (.preloadDone ch) s =
      .next (settle (setLdState (s.setLoad ch fun l => { l with pulse := false, issued := false }) ch ldArmed) ch) := by
  have hstart' : ((setLdState (s.setLoad ch fun l => { l with pulse := false, issued := false }) ch ldArmed).load ch).start
      ≠ 0 := by
    simpa using hstart
  simp only [exec_preloadDone, execPreloadDone, hleft]
  rw [if_neg (not_not_intro hst), if_neg Bool.false_ne_true, if_neg hstart']

/-! ### Control -/

/-- START of an armed section that starts on command (R158). -/
theorem exec_chLdctrlStart_of_armed (ho : Slice0.Open s r (.ch ch)) (hm : mayHub r = true)
    (hst : ldState (dropHalf s r) ch = ldArmed) (hstart : ((dropHalf s r).load ch).start = 1) :
    exec (.chLdctrlStart r ch) s = .next (settle (cmtCode (beginStart (dropHalf s r) ch) ch cNone) ch) := by
  rw [exec_chLdctrlStart, execChLdctrlStart, loadGate_of_open _ ho hm, if_pos ⟨hst, hstart⟩]

/-- CLEAR of a failed load (R163). -/
theorem exec_chLdctrlClear_of_failed (ho : Slice0.Open s r (.ch ch)) (hm : mayHub r = true)
    (hst : ldState (dropHalf s r) ch = ldFailed) :
    exec (.chLdctrlClear r ch) s = .next (clearLoad (cmtCode (dropHalf s r) ch cNone) ch) := by
  rw [exec_chLdctrlClear, execChLdctrlClear, loadGate_of_open _ ho hm, if_pos hst]

/-- UNLOAD while no load runs (R164). -/
theorem exec_chLdctrlUnload_of_idle (ho : Slice0.Open s r (.ch ch)) (hm : mayHub r = true)
    (hst : ldState (dropHalf s r) ch = ldIdle) :
    exec (.chLdctrlUnload r ch) s =
      .next (settle (beginUnload (dropHalf s r) ch ((dropHalf s r).fget Fld.CH_LDUNLOAD_SECTION ch) none) ch) := by
  rw [exec_chLdctrlUnload, execChLdctrlUnload, loadGate_of_open _ ho hm, if_pos hst]

/-- COMMIT gives an armed section an order of its start-up steps (R156, R157). -/
theorem exec_chLdctrlCommit_of_armed (ho : Slice0.Open s r (.ch ch)) (hm : mayHub r = true)
    (hst : ldState (dropHalf s r) ch = ldArmed) (hseq : orderOk ((dropHalf s r).fget Fld.CH_LDORDER_SEQ ch) = true) :
    exec (.chLdctrlCommit r ch) s = .next (cmtCode (((dropHalf s r).fset Fld.CH_LDORDER_LIVE_SEQ ch 0
      ((dropHalf s r).fget Fld.CH_LDORDER_SEQ ch)).fset Fld.CH_LDORDER_LIVE_GAP ch 0
        ((dropHalf s r).fget Fld.CH_LDORDER_GAP ch)) ch cNone) := by
  rw [exec_chLdctrlCommit, execChLdctrlCommit, loadGate_of_open _ ho hm, if_neg (not_not_intro hst)]
  simp only [hseq, Bool.not_true, Bool.false_eq_true, if_false]

/-! ### The start-up and the end -/

/-- The next step of a start-up goes to every district that can apply it (R155, R160). -/
theorem exec_startupStepIssue_of_starting (hst : ldState s ch = ldStarting) (hissued : (s.load ch).issued = false) :
    exec (.startupStepIssue ch) s = .next (applySteps (s.setLoad ch fun l => { l with issued := true }) ch (stepCode s ch)) := by
  have harmed : ldState s ch ≠ ldArmed := by simp [hst, ldStarting, ldArmed]
  have hgo : ¬ (ldState s ch ≠ ldStarting ∨ (s.load ch).issued = true) := by simp [hst, hissued]
  rw [exec_startupStepIssue, execStartupStepIssue, if_neg harmed, if_neg hgo]

/-- A step that every cluster has applied is followed by the next, the last one by the end of the load (R160, R161). -/
theorem exec_startupStepComplete_of_applied {t : State} (hst : ldState s ch = ldStarting) (hissued : (s.load ch).issued = true)
    (ht : applySteps s ch (stepCode s ch) = t) (hleft : stepLeft t ch (stepCode t ch) = []) :
    exec (.startupStepComplete ch) s = .next (if t.fget Fld.CH_LDSTAT_STEP ch = 3 then loadDone t ch
      else (t.fset Fld.CH_LDSTAT_STEP ch 0 (t.fget Fld.CH_LDSTAT_STEP ch + 1)).setLoad ch fun l => { l with issued := false }) := by
  have hgo : ¬ (ldState s ch ≠ ldStarting ∨ ¬ (s.load ch).issued = true) := by simp [hst, hissued]
  simp only [exec_startupStepComplete, execStartupStepComplete, ht, hleft]
  rw [if_neg hgo]
  rfl

/-- A step that a district has not applied in time fails the load, and the report names the district (R160). -/
theorem exec_startupStepTimeout_of_left (hst : ldState s d.ch = ldStarting) (hissued : (s.load d.ch).issued = true)
    (hleft : ((stepLeft s d.ch (stepCode s d.ch)).any fun k => decide (clDistrict k = d.d.val)) = true) :
    exec (.startupStepTimeout d) s = .next (loadFailAt s d.ch cUnitAbsent d.d) := by
  have hgo : ¬ (ldState s d.ch ≠ ldStarting ∨ ¬ (s.load d.ch).issued = true) := by simp [hst, hissued]
  rw [exec_startupStepTimeout, execStartupStepTimeout, if_neg hgo, if_pos hleft]

/-- What an unload leaves once steps 5 and 6 are done and its command is answered (R164). -/
def unloaded (s : State) (ch : Nat) : State :=
  hostDone? ((s.load ch).cls.foldl (disown ch) ((s.load ch).cls.foldl (closeOut (s.load ch).cls ch) s))
    (s.load ch).unloadCmd cNone 0 0

/-- An unload ends once everything its section has posted is performed (R164). -/
theorem exec_unloadDone_of_performed (hst : ldState s ch = ldUnloading)
    (hposted : ∀ q ∈ (s.chan ch).reqs, Req.posted (s.load ch).cls q = false) :
    exec (.unloadDone ch) s = .next (settle (setLdState ((unloaded s ch).setLoad ch fun l =>
      { l with unloadCmd := none, cls := [], owned := false }) ch ldIdle) ch) := by
  have hnone : (s.chan ch).reqs.any (Req.posted (s.load ch).cls) = false :=
    List.any_eq_false.2 fun q hq => ne_true_of_eq_false (hposted q hq)
  simp only [exec_unloadDone, execUnloadDone, hnone]
  rw [if_neg (not_not_intro hst)]
  rfl

end SectionLoads

/-- Settles O16: the rules are those of chapter 14 (R146 to R164). Each clause is one path of its command, and its hypotheses decide
every test on that path. -/
theorem loadCommandsComplete : Obligations.LoadCommandsComplete := by
  refine ⟨fun s r ch => ?go, fun s ch b rs hst hcode hback hpass hb => ?fetch, fun s ch rs => ?check, fun s ch rs => ?write,
    fun s ch hst hleft hstart => ?preload, fun s r ch => ?control, fun s ch hst hissued => ?issue, fun s ch => ?complete,
    fun s d hst hissued hleft => ?timeout, fun s ch => ?unload⟩
  case go =>
    intro t ho hm hst
    exact exec_chLdctrlGo_of_idle ho hm hst
  case fetch => exact exec_loadFetchDone_of_pass hst hcode hback hpass hb
  case check =>
    intro l t hst hparse hfree hcode
    exact exec_loadCheckDone_of_pass hst hparse hfree hcode
  case write =>
    intro l b t hst hcode hback hpsn hparse hmap hputs hsame
    exact exec_loadWriteDone_of_same hst hcode hback hpsn rfl hparse hmap hputs hsame
  case preload => exact exec_preloadDone_of_waits hst hleft hstart
  case control =>
    intro t ho hm
    exact ⟨exec_chLdctrlStart_of_armed ho hm, exec_chLdctrlClear_of_failed ho hm, exec_chLdctrlUnload_of_idle ho hm,
      exec_chLdctrlCommit_of_armed ho hm⟩
  case issue => exact exec_startupStepIssue_of_starting hst hissued
  case complete =>
    intro t hst hissued hleft
    have hexec := exec_startupStepComplete_of_applied hst hissued rfl hleft
    exact ⟨fun hlast => by rw [hexec, if_pos hlast], fun hmore => by rw [hexec, if_neg hmore]⟩
  case timeout => exact exec_startupStepTimeout_of_left hst hissued hleft
  case unload =>
    intro l t hst hposted
    exact exec_unloadDone_of_performed hst hposted

end Sys2Proof.Machine

/-! The Seal unit (R312 to R344): what a command does in the phase that it serves, then the obligation. -/

namespace Sys2Proof.Machine

section SealUnit

variable {s : State} {r : Requester} {ch : Ch} {x : SealRun} {e : SealEnt}

theorem exec_sealEntryBegin : exec (.sealEntryBegin ch) s = execSealEntryBegin ch s := rfl
theorem exec_sealContextLoadDone : exec (.sealContextLoadDone ch) s = execSealContextLoadDone ch s := rfl
theorem exec_sealCheckDone : exec (.sealCheckDone ch) s = execSealCheckDone ch s := rfl
theorem exec_sealRefreshDone : exec (.sealRefreshDone ch) s = execSealRefreshDone ch s := rfl
theorem exec_sealPbsPassDone : exec (.sealPbsPassDone ch) s = execSealPbsPassDone ch s := rfl
theorem exec_sealKswPassDone : exec (.sealKswPassDone ch) s = execSealKswPassDone ch s := rfl
theorem exec_sealLinearDone : exec (.sealLinearDone ch) s = execSealLinearDone ch s := rfl
theorem exec_keyStreamRead : exec (.keyStreamRead ch) s = execKeyStreamRead ch s := rfl
theorem exec_sealWriteBegin : exec (.sealWriteBegin ch) s = execSealWriteBegin ch s := rfl
theorem exec_sealConvoyComplete : exec (.sealConvoyComplete ch) s = execSealConvoyComplete ch s := rfl
theorem exec_sealCtrlDisable : exec (.sealCtrlDisable r ch) s = execSealCtrlDisable r ch s := rfl
theorem exec_sealCtrlEnable : exec (.sealCtrlEnable r ch) s = execSealCtrlEnable r ch s := rfl

/-! ### What the unit runs -/

/-- A convoy that runs in a phase is what the unit runs, and it is in that phase. -/
theorem run_of_runAt {phase : Nat} (h : runAt s ch phase = some (x, e)) : (s.seal ch).run = some x ∧ x.phase = phase := by
  unfold runAt at h
  split at h
  · cases h
  · next y hy =>
    split at h
    · next hphase =>
      obtain ⟨_, _, heq⟩ := Option.map_eq_some_iff.1 h
      cases heq
      exact ⟨hy, hphase.1⟩
    · cases h

theorem run_setRun (s : State) (ch : Nat) (f : SealRun → SealRun) :
    ((setRun s ch f).seal ch).run = (s.seal ch).run.map f := by
  rw [setRun, seal_setSeal_same]

theorem run_setRun_of_some {t : State} {y : SealRun} (f : SealRun → SealRun) (h : (t.seal ch).run = some y) :
    ((setRun t ch f).seal ch).run = some (f y) := by
  rw [run_setRun, h, Option.map_some]

@[simp] theorem dropKeyReads_seal_view (s : State) (ch ch' : Nat) : (dropKeyReads s ch).seal ch' = s.seal ch' := rfl

@[simp] theorem bootstrap_seal_view (s : State) (ch : Nat) (p : PSet) (bsk : Nat) (jobs : List (List Nat × List Nat)) (ch' : Nat) :
    (bootstrap s ch p bsk jobs).1.seal ch' = s.seal ch' := rfl

/-- Bootstrapping gives an accumulator for every job. -/
theorem length_bootstrap (s : State) (ch : Nat) (p : PSet) (bsk : Nat) (jobs : List (List Nat × List Nat)) :
    (bootstrap s ch p bsk jobs).2.length = jobs.length := by
  simp [bootstrap]

/-- A command that never stores leaves the list of stored bytes of the state that it answers. -/
theorem mem_of_next {c : Instr} {t : State} (hstore : Slice0.mayStore c = false) (h : exec c s = .next t) : t.mem = s.mem := by
  rw [← after_of_next h]
  exact exec_mem hstore s

/-! ### The head of the queue and the checks -/

/-- The convoy at the head of the queue begins with its checks, unless a disable has barred it (R318, R343). -/
theorem exec_sealEntryBegin_of_convoy {n : Nat} {l : List Nat} (hrun : (s.seal ch).run = none) (horder : (s.seal ch).order = n :: l)
    (hent : SMap.get? (s.seal ch).ents n = some e) (hclock : sealClocked s ch = true) (hctx : e.ctx = none) :
    exec (.sealEntryBegin ch) s = .next (if e.barred then sealComplete s ch n cUnitAbsent
      else (wakeDistrict s ch 4).setSeal ch fun u => { u with run := some { ent := n, phase := 1 } }) := by
  simp only [exec_sealEntryBegin, execSealEntryBegin, hrun, horder, hent, hclock, hctx]
  rfl

/-- A context load that passes its checks makes the context valid with the keys it names (R314, R315). -/
theorem exec_sealContextLoadDone_of_valid {k w bo ko : Nat} (hat : runAt s ch 7 = some (x, e)) (hctx : e.ctx = some k)
    (hstate : ctxState s ch k = 1) (hcheck : ctxCheck s ch e = .inr (0, w, bo, ko)) (hw : w ≠ 0) :
    exec (.sealContextLoadDone ch) s = .next (sealComplete ((s.setReg .SEAL_CTXn_STAT ch k w).setSeal ch fun u =>
      { u with keydir := SMap.put u.keydir k (bo, ko) }) ch x.ent 0) := by
  simp only [exec_sealContextLoadDone, execSealContextLoadDone, hat, hctx, Option.getD_some, hstate, hcheck, hw]
  rfl

/-- Checks that lack an object ask for it (R319). -/
theorem exec_sealCheckDone_of_missing {l : List (Nat × Nat)} (hat : runAt s ch 1 = some (x, e))
    (hcheck : cvCheck s ch e = .inl l) :
    exec (.sealCheckDone ch) s = .next (sealAsk s ch e l) := by
  simp only [exec_sealCheckDone, execSealCheckDone, hat, hcheck]

/-- A convoy that fails a check completes with its code (R319, R325). -/
theorem exec_sealCheckDone_of_refused {code addr : Nat} {w : List Nat} {ls : List (List Nat)} (hat : runAt s ch 1 = some (x, e))
    (hcheck : cvCheck s ch e = .inr (code, addr, w, ls)) (hcode : code ≠ 0) :
    exec (.sealCheckDone ch) s =
      .next (sealComplete (refusedBy (setRun s ch fun y => { y with d := w }) ch e.fn code addr) ch x.ent code) := by
  simp only [exec_sealCheckDone, execSealCheckDone, hat, hcheck]
  rw [if_pos hcode]

/-- What the noise check of a convoy gives, from the headers of its operands (R337, R338). -/
def noiseOutcome (s : State) (ch : Nat) (w : List Nat) (ls : List (List Nat)) :
    (Nat × Nat × Nat) ⊕ (List Nat × List (List Nat) × List Bool) :=
  cvNoise (ctxPset s ch (cvCtx w)) (s.fget Fld.SEAL_CTXn_STAT_POLICY ch (cvCtx w)) w
    (fun a => noiseOf (fieldAt (hdrAt s ch a) 2 2)) (fun a => decide (hdrDim (hdrAt s ch a) = 0) && !hdrRes (hdrAt s ch a)) 0 ls []

/-- A convoy that passes its checks goes on to the refresh of what is marked, or to its passes (R319, R338). -/
theorem exec_sealCheckDone_of_pass {addr : Nat} {w : List Nat} {ls fresh : List (List Nat)} {marks : List Nat} {hot : List Bool}
    (hat : runAt s ch 1 = some (x, e)) (hcheck : cvCheck s ch e = .inr (0, addr, w, ls))
    (hnoise : noiseOutcome s ch w ls = .inr (marks, fresh, hot)) :
    ∃ t y f, exec (.sealCheckDone ch) s = .next (setRun t ch f) ∧ (t.seal ch).run = some y ∧ (f y).lists = ls ∧
      (f y).marks = marks ∧ (f y).phase = if marks = [] then passPhase w else 2 := by
  rw [noiseOutcome] at hnoise
  simp only [exec_sealCheckDone, execSealCheckDone, hat, hcheck, hnoise]
  rw [if_neg (by decide)]
  refine ⟨_, { x with d := w }, _, rfl, ?_, rfl, rfl, ?_⟩
  · exact run_setRun_of_some _ (run_of_runAt hat).1
  · simp only [List.isEmpty_iff]

/-! ### Refresh, passes and key stream -/

/-- A key read that failed ends a refresh with its code (R326). -/
theorem exec_sealRefreshDone_of_failed {code : Nat} (hat : runAt s ch 2 = some (x, e)) (hend : streamEnd s ch x = some code)
    (hcode : code ≠ 0) : exec (.sealRefreshDone ch) s = .next (sealComplete s ch x.ent code) := by
  cases code with
  | zero => exact absurd rfl hcode
  | succ n => simp only [exec_sealRefreshDone, execSealRefreshDone, hat, hend]

/-- A refresh whose keys have been read goes on to the passes (R338). -/
theorem exec_sealRefreshDone_of_read (hat : runAt s ch 2 = some (x, e)) (hend : streamEnd s ch x = some 0) :
    ∃ t f, exec (.sealRefreshDone ch) s = .next (setRun t ch f) ∧ (t.seal ch).run = some x ∧ (f x).phase = passPhase x.d ∧
      (f x).keyPos = 0 := by
  simp only [exec_sealRefreshDone, execSealRefreshDone, hat, hend]
  exact ⟨_, _, rfl, (run_of_runAt hat).1, rfl, rfl⟩

/-- After its last bootstrap pass a gate goes on to key switching, and a PBS convoy has its results (R321, R322). -/
theorem exec_sealPbsPassDone_of_last (hat : runAt s ch 3 = some (x, e)) (houts : x.outs = []) (hend : streamEnd s ch x = some 0)
    (hlast : accCount x ≤ x.accs.length + passAccs x) :
    ∃ t y outs, exec (.sealPbsPassDone ch) s = .next (if cvOp x.d = opGate then setRun t ch fun z => { z with phase := 4 }
        else setRun t ch fun z => { z with outs := outs }) ∧
      (t.seal ch).run = some y ∧ y.phase = 3 ∧ outs.length = x.lists.length := by
  obtain ⟨hrun, hphase⟩ := run_of_runAt hat
  simp only [exec_sealPbsPassDone, execSealPbsPassDone, hat, houts, hend]
  rw [if_neg (by decide), if_neg]
  · exact ⟨_, _, _, rfl, run_setRun_of_some _ hrun, hphase, by simp⟩
  · simp only [List.length_append, List.length_map, length_bootstrap]
    simpa [rangeFrom] using hlast

/-- A key switch pass whose keys have been read gives the results (R320, R322). -/
theorem exec_sealKswPassDone_of_read (hat : runAt s ch 4 = some (x, e)) (houts : x.outs = []) (hend : streamEnd s ch x = some 0) :
    exec (.sealKswPassDone ch) s = .next (setRun (s.fadd Fld.SEAL_KSWCNT_KSW ch 0 x.lists.length) ch
      fun y => { y with keyPos := 0, outs := Slice0.switched s ch x }) := by
  simp only [exec_sealKswPassDone, execSealKswPassDone, hat, houts, hend]
  rfl

/-- The linear operation gives the results (R320). -/
theorem exec_sealLinearDone_of_run (hat : runAt s ch 5 = some (x, e)) (houts : x.outs = []) :
    exec (.sealLinearDone ch) s =
      .next (setRun s ch fun y => { y with outs := (List.range x.lists.length).map (linearOut s ch x) }) := by
  simp only [exec_sealLinearDone, execSealLinearDone, hat, houts]
  rfl

/-- The next read of the key stream is issued while the key buffer has room for it (R329). -/
theorem exec_keyStreamRead_of_room {a n : Nat} (hrun : (s.seal ch).run = some x) (hent : SMap.get? (s.seal ch).ents x.ent = some e)
    (hnext : keyNext (keyRuns s ch x) x.keyPos = some (a, n)) (hclock : sealClocked s ch = true) (hahead : keyAhead s ch x = true) :
    exec (.keyStreamRead ch) s =
      .next (setRun (pushReq s ch (Slice0.keyRead s ch e a n)) ch fun y => { y with keyPos := y.keyPos + n }) := by
  simp only [exec_keyStreamRead, execKeyStreamRead, hrun, hent, hnext, hclock, hahead]
  rfl

/-! ### Write and completion -/

/-- The state and the requests of the writes that put a convoy's results in their places (R323). -/
def outsWritten (s : State) (ch : Nat) (fn : Option Nat) (x : SealRun) : State × List (Nat × List Nat) :=
  ((x.lists.map fun l => l.getD 3 0).zip x.outs).foldl (writeOut ch fn) (s, [])

/-- The results are written once all stand and the gate of the submitting cluster is open (R324). -/
theorem exec_sealWriteBegin_of_results (hrun : (s.seal ch).run = some x) (hent : SMap.get? (s.seal ch).ents x.ent = some e)
    (hphase : x.phase ≠ 6) (houts : x.outs ≠ []) (hgate : gateWr s ch (e.w / 2) = true) (hclock : sealClocked s ch = true) :
    exec (.sealWriteBegin ch) s = .next (setRun (outsWritten s ch e.fn x).1 ch
      fun y => { y with phase := 6, wouts := (outsWritten s ch e.fn x).2 }) := by
  have hgo : ¬ (x.phase = 6 ∨ x.outs.isEmpty = true ∨ ¬ gateWr s ch (e.w / 2) = true ∨ ¬ sealClocked s ch = true) := by
    simp [hphase, houts, hgate, hclock]
  simp only [exec_sealWriteBegin, execSealWriteBegin, hrun, hent]
  rw [if_neg hgo]
  rfl

/-- A convoy whose writes have ended completes, and what waited for that takes effect (R325, R344). -/
theorem exec_sealConvoyComplete_of_written (hat : runAt s ch 6 = some (x, e)) (hdone : writesDone s ch x = true) :
    exec (.sealConvoyComplete ch) s = .next (endingNow (sealComplete s ch x.ent (writeCode s ch x)) ch) := by
  simp only [exec_sealConvoyComplete, execSealConvoyComplete, hat, hdone, if_true]

/-! ### Control -/

/-- A control bit of the unit, by a supervisor, acts on the state without its writer's held half (R345). -/
theorem sealGate_of_open (f : State → State) (ho : Slice0.Open s r (.seal ch)) (hm : maySup (dropHalf s r) r = true) :
    (rowGate s r (.seal ch) fun s => sealWrite s r ch f) = f (dropHalf s r) := by
  rw [rowGate_of_open _ ho, sealWrite, hm, Bool.not_true, if_neg Bool.false_ne_true]

/-- DISABLE takes effect at once, or when the write that runs has ended (R343, R344). -/
theorem exec_sealCtrlDisable_of_open (ho : Slice0.Open s r (.seal ch)) (hm : maySup (dropHalf s r) r = true) :
    exec (.sealCtrlDisable r ch) s = .next (if sealInWrite (dropHalf s r) ch then
      (dropHalf s r).setSeal ch fun u => { u with ending := some cUnitAbsent } else disableNow (dropHalf s r) ch) := by
  rw [exec_sealCtrlDisable, execSealCtrlDisable, sealGate_of_open _ ho hm]

/-- ENABLE of a unit for which no disable waits (R343). -/
theorem exec_sealCtrlEnable_of_open (ho : Slice0.Open s r (.seal ch)) (hm : maySup (dropHalf s r) r = true)
    (hending : (s.seal ch).ending = none) :
    exec (.sealCtrlEnable r ch) s =
      .next (((dropHalf s r).fset Fld.SEAL_CTRL_DISABLED ch 0 0).setSeal ch fun u => { u with ending := none }) := by
  have hnone : ((dropHalf s r).seal ch).ending.isSome = false := by rw [dropHalf_seal_view, hending]; rfl
  rw [exec_sealCtrlEnable, execSealCtrlEnable, sealGate_of_open _ ho hm]
  simp only [hnone, Bool.false_eq_true, if_false]

end SealUnit

/-- Settles O17: DISABLE during WRITE is R344. Each clause is one path of its command, and its hypotheses decide every test on that
path; that the checks and passes leave memory is `exec_mem`. -/
theorem sealCommandsComplete : Obligations.SealCommandsComplete := by
  refine ⟨fun s ch n l e hrun horder hent hclock hctx => ?begin, fun s ch r e k w bo ko hat hctx hstate hcheck hw => ?context,
    fun s ch r e l hat hcheck => ?missing, fun s ch r e code addr d ls hat hcheck hcode => ?refuse,
    fun s ch r e addr d ls marks fresh hot hat hcheck hnoise => ?check, fun s ch r e hat => ?refresh,
    fun s ch r e hat houts hend hlast => ?bootstrap, fun s ch r e hat houts hend => ?switch, fun s ch r e hat houts => ?linear,
    fun s ch r e a n hrun hent hnext hclock hahead => ?keys, fun s ch r e => ?write, fun s ch r e hat hdone => ?finish,
    fun s r ch ho hm => ?control⟩
  case begin =>
    have hexec := exec_sealEntryBegin_of_convoy hrun horder hent hclock hctx
    exact ⟨fun hfree => by rw [hexec, hfree]; rfl, fun hbarred => by rw [hexec, if_pos hbarred]⟩
  case context => exact exec_sealContextLoadDone_of_valid hat hctx hstate hcheck hw
  case missing => exact exec_sealCheckDone_of_missing hat hcheck
  case refuse => exact exec_sealCheckDone_of_refused hat hcheck hcode
  case check =>
    obtain ⟨t, y, f, hexec, hrun, hlists, hmarks, hphase⟩ := exec_sealCheckDone_of_pass hat hcheck hnoise
    exact ⟨_, f y, hexec, mem_of_next rfl hexec, run_setRun_of_some f hrun, hlists, hmarks, hphase⟩
  case refresh =>
    refine ⟨fun code hend hcode => exec_sealRefreshDone_of_failed hat hend hcode, fun hend => ?_⟩
    obtain ⟨t, f, hexec, hrun, hphase, hkey⟩ := exec_sealRefreshDone_of_read hat hend
    exact ⟨_, f r, hexec, mem_of_next rfl hexec, run_setRun_of_some f hrun, hphase, hkey⟩
  case bootstrap =>
    obtain ⟨t, y, outs, hexec, hrun, hphase, hlen⟩ := exec_sealPbsPassDone_of_last hat houts hend hlast
    by_cases hgate : cvOp r.d = opGate
    · rw [if_pos hgate] at hexec
      exact ⟨_, _, hexec, mem_of_next rfl hexec, run_setRun_of_some _ hrun, fun _ => rfl, fun hne => absurd hgate hne⟩
    · rw [if_neg hgate] at hexec
      exact ⟨_, _, hexec, mem_of_next rfl hexec, run_setRun_of_some _ hrun, fun heq => absurd heq hgate,
        fun _ => ⟨hphase, hlen⟩⟩
  case switch => exact exec_sealKswPassDone_of_read hat houts hend
  case linear => exact exec_sealLinearDone_of_run hat houts
  case keys => exact exec_keyStreamRead_of_room hrun hent hnext hclock hahead
  case write =>
    intro t hrun hent hphase houts hgate hclock
    exact exec_sealWriteBegin_of_results hrun hent hphase houts hgate hclock
  case finish => exact exec_sealConvoyComplete_of_written hat hdone
  case control =>
    have hexec := exec_sealCtrlDisable_of_open ho hm
    exact ⟨fun hidle => by rw [hexec, hidle]; rfl, fun hwriting => by rw [hexec, if_pos hwriting],
      exec_sealCtrlEnable_of_open ho hm⟩

end Sys2Proof.Machine

/-! What the remaining units share: writes that pass the host's gate alone, and counts. -/

namespace Sys2Proof.Machine

/-- A write of the hub's or a function's block that passes acts on the state without its writer's held half. -/
theorem hostGate_of_open {s : State} {r : Requester} (f : State → State) (h : Slice0.HostOpen s r) :
    hostGate s r f = f (dropHalf s r) := by
  cases r with
  | fn g => simp only [hostGate, h g rfl, if_true]
  | hub | mgmt | jtag | stw w => rfl

/-- A count stops at the largest value of its field. -/
theorem satAdd_lt (w a n : Nat) : satAdd w a n < 2 ^ w :=
  Nat.lt_of_le_of_lt (Nat.min_le_right _ _) (Nat.sub_lt (Nat.two_pow_pos w) Nat.one_pos)

/-- A count read after it was raised. -/
theorem fget_fadd_same (s : State) (f : Fld) (l i n : Nat) (h : f.fits) :
    (s.fadd f l i n).fget f l i = satAdd f.w (s.fget f l i) n := by
  rw [State.fadd, fget_fset_same _ _ _ _ _ h, Nat.mod_eq_of_lt (satAdd_lt ..)]

end Sys2Proof.Machine

/-! The host link and its resets (R347, R366, R367): what a command whose conditions hold does, then the obligation. -/

namespace Sys2Proof.Machine

section HostLink

variable {s : State}

theorem exec_perstNEdge : exec .perstNEdge s = execPerstNEdge s := rfl
theorem exec_perstNFilterExpiry : exec .perstNFilterExpiry s = execPerstNFilterExpiry s := rfl
theorem exec_perstNDeassert : exec .perstNDeassert s = execPerstNDeassert s := rfl
theorem exec_pcieLinkReady {rate width : Nat} {flit : Bool} :
    exec (.pcieLinkReady rate width flit) s = execPcieLinkReady rate width flit s := rfl
theorem exec_pcieLinkDown : exec .pcieLinkDown s = execPcieLinkDown s := rfl
theorem exec_powerStateWrite {f : FnId} {d3 : Bool} : exec (.powerStateWrite f d3) s = execPowerStateWrite f d3 s := rfl

/-- An assertion begins to be timed (R366). -/
theorem exec_perstNEdge_of_high (h : s.port.perst = false) :
    exec .perstNEdge s = .next { s with port := { s.port with perst := true, timing := true } } := by
  simp only [exec_perstNEdge, execPerstNEdge, h, Bool.false_eq_true, if_false]

/-- An assertion that lasts as long as the filter resets the port (R366). -/
theorem exec_perstNFilterExpiry_of_timing (hlow : s.port.perst = true) (htime : s.port.timing = true) :
    exec .perstNFilterExpiry s = .next (portReset { s with port := { s.port with timing := false } }) := by
  rw [exec_perstNFilterExpiry, execPerstNFilterExpiry, if_pos ⟨hlow, htime⟩]

/-- The state after an assertion that the filter did not let pass: it is counted, and the pin is high (R366). -/
def perstFiltered (s : State) : State :=
  let t := s.fadd Fld.HUB_PERSTCNT_FILTERED 0 0 1
  { t with port := { t.port with perst := false, timing := false } }

theorem exec_perstNDeassert_of_timing (hlow : s.port.perst = true) (htime : s.port.timing = true) :
    exec .perstNDeassert s = .next (perstFiltered s) := by
  simp only [exec_perstNDeassert, execPerstNDeassert, hlow, htime, Bool.not_true, Bool.false_eq_true, if_false, if_true]
  rfl

theorem fget_filtered_perstFiltered (s : State) : (perstFiltered s).fget Fld.HUB_PERSTCNT_FILTERED =
    satAdd Fld.HUB_PERSTCNT_FILTERED.w (s.fget Fld.HUB_PERSTCNT_FILTERED) 1 :=
  fget_fadd_same s Fld.HUB_PERSTCNT_FILTERED 0 0 1 (fits_of_le (by decide))

/-- A trained link with a rate and a width of Table 17-1 makes the port ready (R346, R367). -/
theorem exec_pcieLinkReady_of_trained {rate width : Nat} {flit : Bool} (hperst : s.port.perst = false)
    (hready : s.port.ready = false) (hlow : 4 ≤ rate) (hhigh : rate ≤ 6) (hwidth : width ∈ [1, 2, 4, 8, 16])
    (hflit : rate = 6 → flit = true) :
    exec (.pcieLinkReady rate width flit) s = .next (({ s with port := { s.port with ready := true } } : State).setReg
      .HUB_PORTSTAT 0 0 (rate + width * 2 ^ 3 + ofBit flit * 2 ^ 8)) := by
  have hgo : ¬ ((s.port.perst = true ∧ ¬ s.port.timing = true) ∨ s.port.ready = true ∨ rate < 4 ∨ 6 < rate ∨
      width ∉ [1, 2, 4, 8, 16] ∨ (rate = 6 ∧ ¬ flit = true)) := by
    rintro (⟨hp, -⟩ | hr | hl | hh | hw | ⟨h6, hf⟩)
    · exact absurd (hperst.symm.trans hp) (by decide)
    · exact absurd (hready.symm.trans hr) (by decide)
    · omega
    · omega
    · exact hw hwidth
    · exact hf (hflit h6)
  rw [exec_pcieLinkReady, execPcieLinkReady, if_neg hgo]

/-- Link Down resets a port that is ready (R366). -/
theorem exec_pcieLinkDown_of_ready (h : s.port.ready = true) : exec .pcieLinkDown s = .next (portReset s) := by
  rw [exec_pcieLinkDown, execPcieLinkDown, if_pos h]

/-- A configuration write is carried out while the port is ready (R367). -/
theorem configWrite_of_ready (f : State → State) (h : s.port.ready = true) : configWrite s f = f s := by
  rw [configWrite, if_pos h]

end HostLink

/-- Settles O18: the release of `PERST_N` is stated for an assertion that the filter still times; a function's power state is R347. -/
theorem hostLinkCompletes : Obligations.HostLinkCompletes := by
  refine ⟨fun s hhigh => ?edge, fun s hlow htime => ?expiry, fun s hlow htime => ?filtered,
    fun s rate width flit hperst hready hlow hhigh hwidth hflit => ?ready, fun s hready => ?down, fun s f d3 hready => ?power⟩
  case edge => exact exec_perstNEdge_of_high hhigh
  case expiry => exact exec_perstNFilterExpiry_of_timing hlow htime
  case filtered => exact ⟨_, exec_perstNDeassert_of_timing hlow htime, rfl, rfl, fget_filtered_perstFiltered s⟩
  case ready => exact exec_pcieLinkReady_of_trained hperst hready hlow hhigh hwidth hflit
  case down => exact exec_pcieLinkDown_of_ready hready
  case power => rw [exec_powerStateWrite, execPowerStateWrite, configWrite_of_ready _ hready]

end Sys2Proof.Machine

/-! Commands of a ring (R357 to R364): what the command at the front does, then the obligation. -/

namespace Sys2Proof.Machine

section RingCommands

variable {s : State} {f : FnId} {n : Fin 64} {x : HCmd}

theorem exec_cmdNop : exec (.cmdNop f n) s = execCmdNop f n s := rfl
theorem exec_cmdLoad : exec (.cmdLoad f n) s = execCmdLoad f n s := rfl
theorem exec_cmdStart : exec (.cmdStart f n) s = execCmdStart f n s := rfl
theorem exec_cmdUnload : exec (.cmdUnload f n) s = execCmdUnload f n s := rfl
theorem exec_cmdClear : exec (.cmdClear f n) s = execCmdClear f n s := rfl
theorem exec_copyIn : exec (.copyIn f n) s = execCopyIn f n s := rfl
theorem exec_copyOut : exec (.copyOut f n) s = execCopyOut f n s := rfl
theorem exec_signal : exec (.signal f n) s = execSignal f n s := rfl
theorem exec_syncwait : exec (.syncwait f n) s = execSyncwait f n s := rfl
theorem exec_fwcall : exec (.fwcall f n) s = execFwcall f n s := rfl
theorem exec_hostReadCompletion {data : List Byte} :
    exec (.hostReadCompletion f n data) s = execHostReadCompletion f n data s := rfl
theorem exec_hostReadFailure {copy : Bool} {why : HostFail} :
    exec (.hostReadFailure f n copy why) s = execHostReadFailure f n copy why s := rfl

/-- Outside keeper mode the next command of an opcode acts on the state in which its engine has sent it (R355). -/
theorem onCmd_of_next {op : Nat} (act : State → CmdRef → HCmd → State) (hk : s.hub.phase ≠ .keeper)
    (hx : nextCmd s f n op = some x) : onCmd s f n op act = act (Slice0.sent s f n x) ⟨f, n, x.no⟩ x := by
  rw [onCmd, if_neg hk, hx]
  rfl

/-! ### Commands of the sequencer -/

/-- LOAD goes to the channel's sequencer, unless a failed load is in its way (R357, R358). -/
theorem exec_cmdLoad_of_next (hk : s.hub.phase ≠ .keeper) (hx : nextCmd s f n 1 = some x)
    (hst : ldState (Slice0.sent s f n x) x.ch ≠ ldFailed) :
    exec (.cmdLoad f n) s = .next (toSequencer (Slice0.sent s f n x) x.ch
      (.load ⟨f, n, x.no⟩ (x.arg 0) (bits (x.arg 1) 0 32))) := by
  rw [exec_cmdLoad, execCmdLoad, onCmd_of_next _ hk hx, if_neg hst]

/-- UNLOAD goes to the sequencer where no section is armed (R164). -/
theorem exec_cmdUnload_of_next (hk : s.hub.phase ≠ .keeper) (hx : nextCmd s f n 3 = some x)
    (hst : ldState (Slice0.sent s f n x) x.ch ≠ ldArmed) :
    exec (.cmdUnload f n) s =
      .next (toSequencer (Slice0.sent s f n x) x.ch (.unload ⟨f, n, x.no⟩ (bits (x.arg 0) 0 32))) := by
  rw [exec_cmdUnload, execCmdUnload, onCmd_of_next _ hk hx]
  exact congrArg Host.Outcome.next (if_neg fun harmed => hst harmed.1)

/-- CLEAR by PF0 or by the function whose load has failed (R163, R358). -/
theorem exec_cmdClear_of_next (hk : s.hub.phase ≠ .keeper) (hx : nextCmd s f n 4 = some x)
    (hst : ldState (Slice0.sent s f n x) x.ch = ldFailed)
    (hfn : f.val = 0 ∨ ((Slice0.sent s f n x).load x.ch).fn = f.val) :
    exec (.cmdClear f n) s = .next (clearLoad (hostDone (cmtCode (Slice0.sent s f n x) x.ch cNone) ⟨f, n, x.no⟩ cNone 0 0)
      x.ch) := by
  have hmine : ¬ (f.val ≠ 0 ∧ ((Slice0.sent s f n x).load x.ch).fn ≠ f.val) := by
    rintro ⟨hf, hg⟩
    exact hfn.elim hf hg
  rw [exec_cmdClear, execCmdClear, onCmd_of_next _ hk hx, if_neg (not_not_intro hst), if_neg hmine]

/-! ### Copies -/

/-- COPY_IN asks the host for its next piece while the port may issue a read (R346, R360). -/
theorem exec_copyIn_of_next (hk : s.hub.phase ≠ .keeper) (hx : nextCmd s f n 5 = some x) (hroom : portReads s < portMax) :
    exec (.copyIn f n) s = .next (hostOut (Slice0.sent s f n x)
      (.read (x.arg 0 + x.prog) (pieceLen (x.arg 1 + x.prog) (bits (x.arg 2) 0 32 - x.prog)))) := by
  rw [exec_copyIn, execCopyIn, if_neg (Nat.not_le.2 hroom), onCmd_of_next _ hk hx]

/-- COPY_OUT reads its next piece in its channel, outside control space (R360). -/
theorem exec_copyOut_of_next (hk : s.hub.phase ≠ .keeper) (hx : nextCmd s f n 6 = some x)
    (hspace : tgaSpace (x.arg 0 + x.prog) ≠ 3) :
    exec (.copyOut f n) s = .next (hostReq (Slice0.sent s f n x) (.ring f n x.no) f (x.arg 0 + x.prog)
      (.read (pieceLen (x.arg 0 + x.prog) (bits (x.arg 2) 0 32 - x.prog))) 0) := by
  rw [exec_copyOut, execCopyOut, onCmd_of_next _ hk hx]
  exact congrArg Host.Outcome.next (if_neg hspace)

/-- The bytes of the piece that a copy has asked for go towards their address (R360). -/
theorem exec_hostReadCompletion_of_asked {data : List Byte} (hk : s.hub.phase ≠ .keeper) (hx : copyAsked s f n = some x)
    (hlen : data.length = pieceLen (x.arg 1 + x.prog) (bits (x.arg 2) 0 32 - x.prog))
    (hspace : tgaSpace (x.arg 1 + x.prog) ≠ 3) :
    exec (.hostReadCompletion f n data) s =
      .next (hostReq s (.ring f n x.no) f (x.arg 1 + x.prog) (.write (cleanBytes data)) 1) := by
  simp only [exec_hostReadCompletion, execHostReadCompletion, if_neg hk, hx]
  rw [if_neg (not_not_intro hlen), if_neg hspace]

/-- A piece that the host cannot give ends its copy (R368). -/
theorem exec_hostReadFailure_of_asked {why : HostFail} (hx : copyAsked s f n = some x) :
    exec (.hostReadFailure f n true why) s =
      .next (hostDone (hostErr (hostFailAer s f why) (hostFailCode why) f (x.arg 0 + x.prog)) ⟨f, n, x.no⟩ (hostFailCode why)
        x.prog (x.arg 0 + x.prog)) := by
  simp only [exec_hostReadFailure, execHostReadFailure, hx, if_true]

end RingCommands

/-- Settles O20: a failed host read is R368, and the answer of FWCALL is a free value (log entry 23). -/
theorem ringCommandsComplete : Obligations.RingCommandsComplete := by
  intro s f n x t c mail m hk
  refine ⟨fun hx => ?nop, fun hx hst => ?load, fun hx => ?start, fun hx hst => ?unload, fun hx hst hfn => ?clear,
    fun hx hroom => ?copyIn, fun hx hspace => ?copyOut, fun hx => ?signal, fun hx => ?wait, fun hx => ?call,
    fun data hx hlen hspace => ?data, fun why hx => ?failure⟩
  case nop => rw [exec_cmdNop, execCmdNop, onCmd_of_next _ hk hx]
  case load => exact exec_cmdLoad_of_next hk hx hst
  case start => rw [exec_cmdStart, execCmdStart, onCmd_of_next _ hk hx]
  case unload => exact exec_cmdUnload_of_next hk hx hst
  case clear => exact exec_cmdClear_of_next hk hx hst hfn
  case copyIn => exact exec_copyIn_of_next hk hx hroom
  case copyOut => exact exec_copyOut_of_next hk hx hspace
  case signal => rw [exec_signal, execSignal, onCmd_of_next _ hk hx]
  case wait => rw [exec_syncwait, execSyncwait, onCmd_of_next _ hk hx]
  case call => rw [exec_fwcall, execFwcall, onCmd_of_next _ hk hx]
  case data => exact exec_hostReadCompletion_of_asked hk hx hlen hspace
  case failure => exact exec_hostReadFailure_of_asked hx

end Sys2Proof.Machine

/-! Apertures (R348 to R350): accesses that the permissions allow, then the obligation. -/

namespace Sys2Proof.Machine

section Apertures

variable {s : State} {r : Requester} {f : FnId} {ap : Fin 4} {off : Nat}

theorem exec_apertureWrite {data : List Byte} {ep : Bool} :
    exec (.apertureWrite f ap off data ep) s = execApertureWrite f ap off data ep s := rfl
theorem exec_apertureRead {len : Nat} : exec (.apertureRead f ap off len) s = execApertureRead f ap off len s := rfl
theorem exec_vfApBaseWrite {v : Word} : exec (.vfApBaseWrite r f ap v) s = execVfApBaseWrite r f ap v s := rfl

/-- A function whose BARs answer has a port that is ready. -/
theorem port_ready_of_fnAnswers {g : Nat} (h : fnAnswers s g = true) : s.port.ready = true := by
  simp only [fnAnswers, Bool.and_eq_true] at h
  exact h.1.1.1

/-- A write that the checks pass enters the channel of its address (R350). -/
theorem exec_apertureWrite_of_allowed {data : List Byte} {ep : Bool} (hans : fnAnswers s f = true) (hdata : data ≠ [])
    (hend : off + data.length ≤ 2 ^ 34) (hcode : hostCode s f true (aperTga s f ap off) data.length = 0)
    (hown : isOwnPkg s (aperTga s f ap off) = true) :
    exec (.apertureWrite f ap off data ep) s = .next (hostReq s (.aper f true) f (aperTga s f ap off)
      (.write (data.map fun b => (b, ep))) 1) := by
  have hform : (data.isEmpty || decide (2 ^ 34 < off + data.length)) = false := by
    simpa [hdata] using hend
  have hpass : ¬ (hostCode s f true (aperTga s f ap off) data.length ≠ 0 ∨ ¬ isOwnPkg s (aperTga s f ap off) = true) :=
    not_or.2 ⟨not_not_intro hcode, not_not_intro hown⟩
  simp only [exec_apertureWrite, execApertureWrite, hform, hans]
  exact congrArg Host.Outcome.next (if_neg hpass)

/-- A read that the checks pass, while the port may hold one more (R346, R350). -/
theorem exec_apertureRead_of_allowed {len : Nat} (hans : fnAnswers s f = true) (hroom : portHeld s < portMax) (hlen : len ≠ 0)
    (hend : off + len ≤ 2 ^ 34) (hcode : hostCode s f false (aperTga s f ap off) len = 0)
    (hown : isOwnPkg s (aperTga s f ap off) = true) :
    exec (.apertureRead f ap off len) s = .next (hostReq s (.aper f false) f (aperTga s f ap off) (.read len) 0) := by
  have hform : (!s.port.ready || decide (len = 0 ∨ 2 ^ 34 < off + len) || decide (portMax ≤ portHeld s)) = false := by
    simpa [port_ready_of_fnAnswers hans, hlen, hroom] using hend
  have hpass : ¬ (hostCode s f false (aperTga s f ap off) len ≠ 0 ∨ ¬ isOwnPkg s (aperTga s f ap off) = true) :=
    not_or.2 ⟨not_not_intro hcode, not_not_intro hown⟩
  simp only [exec_apertureRead, execApertureRead, hform, hans]
  exact congrArg Host.Outcome.next (if_neg hpass)

/-- Who may write a function's block is the hub or the function itself, so its BARs answer where the function's do. -/
theorem hostOpen_of_mayFn (hm : mayFn f r = true) (hans : fnAnswers (dropHalf s r) f = true) : Slice0.HostOpen s r := by
  rintro g rfl
  have hg : g.val = f.val := of_decide_eq_true hm
  rwa [hg]

/-- A base of this package, aligned to its region, is set (R349). -/
theorem exec_vfApBaseWrite_of_aligned {v : Word} (hm : mayFn f r = true) (hans : fnAnswers (dropHalf s r) f = true)
    (halign : v.toNat % 2 ^ 34 = 0) (hspace : tgaSpace v.toNat < 2) (hown : isOwnPkg (dropHalf s r) v.toNat = true) :
    exec (.vfApBaseWrite r f ap v) s = .next ((dropHalf s r).setReg .VF_APa_BASE f ap v.toNat) := by
  have hpass : ¬ (v.toNat % 2 ^ 34 ≠ 0 ∨ 2 ≤ tgaSpace v.toNat ∨ ¬ isOwnPkg (dropHalf s r) v.toNat = true) :=
    not_or.2 ⟨not_not_intro halign, not_or.2 ⟨Nat.not_le.2 hspace, not_not_intro hown⟩⟩
  rw [exec_vfApBaseWrite, execVfApBaseWrite, hostGate_of_open _ (hostOpen_of_mayFn hm hans)]
  simp only [hm, hans]
  exact congrArg Host.Outcome.next (if_neg hpass)

end Apertures

/-- Settles O21: apertures are R349, R350 and R372. Each clause is one path of its command, and its hypotheses decide every test on
that path. -/
theorem aperturesComplete : Obligations.AperturesComplete := by
  refine ⟨fun s f ap off data ep => ?write, fun s f ap off len => ?read,
    fun s r f ap v hm hans halign hspace hown => ?base⟩
  case write =>
    intro a hans hdata hend hcode hown
    exact exec_apertureWrite_of_allowed hans hdata hend hcode hown
  case read =>
    intro a hans hroom hlen hend hcode hown
    exact exec_apertureRead_of_allowed hans hroom hlen hend hcode hown
  case base => exact exec_vfApBaseWrite_of_aligned hm hans halign hspace hown

end Sys2Proof.Machine

/-! The life of a function (R370, R371, R373, R387 to R390): what a command whose conditions hold does, then the obligation. -/

namespace Sys2Proof.Machine

section FunctionLife

variable {s : State} {ch : Ch} {f : FnId}

theorem exec_vfEnable {n : Fin 129} : exec (.vfEnable n) s = execVfEnable n s := rfl
theorem exec_vfEnableClear : exec .vfEnableClear s = execVfEnableClear s := rfl
theorem exec_vfFlr : exec (.vfFlr f) s = execVfFlr f s := rfl
theorem exec_pf0Flr : exec .pf0Flr s = execPf0Flr s := rfl
theorem exec_channelDisable : exec (.channelDisable ch f) s = execChannelDisable ch f s := rfl
theorem exec_flrDrainTimeout : exec (.flrDrainTimeout ch f) s = execFlrDrainTimeout ch f s := rfl
theorem exec_disableScrubDone : exec (.disableScrubDone ch f) s = execDisableScrubDone ch f s := rfl

/-- The enable check of VF `k` is recorded, and a VF that was off is on (R373). -/
def vfChecked (s : State) (k : Nat) : State :=
  let s := s.fset Fld.HUB_VFSTATn_CODE 0 (k - 1) (if vfCfgOk s k then cNone else cCfgIgnored)
  if s.fget Fld.HUB_VFSTATn_STATE 0 (k - 1) = 0 then s.fset Fld.HUB_VFSTATn_STATE 0 (k - 1) 1 else s

/-- VF Enable counts the functions in (R371, R373). -/
theorem exec_vfEnable_of_off {n : Fin 129} (hready : s.port.ready = true) (hoff : s.port.vfEnable = false) :
    exec (.vfEnable n) s = .next ((rangeFrom 1 n.val).foldl vfChecked
      { s with port := { s.port with vfEnable := true, numVfs := n.val } }) := by
  rw [exec_vfEnable, execVfEnable, configWrite_of_ready _ hready, if_neg (ne_true_of_eq_false hoff)]
  rfl

/-- A function-level reset disables a VF (R387). -/
theorem exec_vfFlr_of_vf (hf : f.val ≠ 0) (hready : s.port.ready = true) : exec (.vfFlr f) s = .next (vfDisable s f) := by
  rw [exec_vfFlr, execVfFlr, if_neg hf, configWrite_of_ready _ hready]

/-- A live channel that still owes the function its disable begins it (R388). -/
theorem exec_channelDisable_of_busy (hbusy : ch.val ∈ (s.fn f).busy) (hscrub : scrubOf s ch f = none)
    (hlive : s.chLive ch = true) : exec (.channelDisable ch f) s = .next (channelDisable s ch f) := by
  rw [exec_channelDisable, execChannelDisable, if_pos ⟨List.contains_iff_mem.2 hbusy, hscrub, hlive⟩]

/-- When its time ends, the disable aborts the accesses of the function that have not been accepted (R388). -/
theorem exec_flrDrainTimeout_of_scrub {r : Nat} (h : scrubOf s ch f = some r) : exec (.flrDrainTimeout ch f) s =
    .next (((s.chan ch).reqs.filter fun r => decide (r.fn = some f.val) && abortable s ch r).foldl
      (fun s r => abortReq s ch cFlrAborted r) s) := by
  rw [exec_flrDrainTimeout, execFlrDrainTimeout, if_neg (by simp [h])]

/-- What the scrub of a function leaves in its channel (R389). -/
def scrubbed (s : State) (ch f r : Nat) : State :=
  (flowsReopen (scrub s ch r) ch f).setChan ch fun k => { k with scrubs := SMap.erase k.scrubs f }

/-- Once no access of the function is left the scrub ends; here the channel scrubs for another function too (R389, R390). -/
theorem exec_disableScrubDone_of_drained {r : Nat} (h : scrubOf s ch f = some r)
    (hdrained : ∀ q ∈ (s.chan ch).reqs, q.fn ≠ some f.val) (hmore : ((scrubbed s ch f r).chan ch).scrubs ≠ []) :
    exec (.disableScrubDone ch f) s = .next (chanDisabled (scrubbed s ch f r) ch f) := by
  have hnone : ((s.chan ch).reqs.any fun q => decide (q.fn = some f.val ∧ q.place ≠ .remote ∧ q.place ≠ .done)) = false :=
    List.any_eq_false.2 fun q hq => by simp [hdrained q hq]
  have hleft : ((scrubbed s ch f r).chan ch).scrubs.isEmpty = false := List.isEmpty_eq_false_iff.2 hmore
  rw [scrubbed] at hleft ⊢
  simp only [exec_disableScrubDone, execDisableScrubDone, h, hnone, hleft, Bool.false_eq_true, if_false]

end FunctionLife

/-- Settles O22: VF Enable is R371 and R373, its clearing and a VF's reset R387, the reset of PF0 R370. -/
theorem functionLifeCompletes : Obligations.FunctionLifeCompletes := by
  refine ⟨fun s n hready hoff => ?enable, fun s hready => ?clear, fun s f hf hready => ?flr, fun s hready _ => ?pf0,
    fun s ch f hbusy hscrub hlive => ?disable, fun s ch f r hscrub => ?drain, fun s ch f r => ?scrubbed⟩
  case enable => exact exec_vfEnable_of_off hready hoff
  case clear => rw [exec_vfEnableClear, execVfEnableClear, configWrite_of_ready _ hready]
  case flr => exact exec_vfFlr_of_vf hf hready
  case pf0 => exact ⟨_, by rw [exec_pf0Flr, execPf0Flr, configWrite_of_ready _ hready], rfl⟩
  case disable => exact exec_channelDisable_of_busy hbusy hscrub hlive
  case drain => exact exec_flrDrainTimeout_of_scrub hscrub
  case scrubbed =>
    intro t hscrub hdrained hmore
    exact exec_disableScrubDone_of_drained hscrub hdrained hmore

end Sys2Proof.Machine

/-! The permission tables and their views (R375, R376, R378, R381 to R385): what a command that passes its gate does, then the
obligation. -/

namespace Sys2Proof.Machine

section Permissions

variable {s : State} {r : Requester} {ch : Ch} {f : FnId} {v : Word}

theorem exec_chRptctrlCommit : exec (.chRptctrlCommit r ch) s = execChRptctrlCommit r ch s := rfl
theorem exec_hubRptCopyUpdate : exec (.hubRptCopyUpdate ch) s = execHubRptCopyUpdate ch s := rfl
theorem exec_chRptctrlFence : exec (.chRptctrlFence r ch) s = execChRptctrlFence r ch s := rfl
theorem exec_hubRptfenceStart {mask : Fin 16} : exec (.hubRptfenceStart r mask) s = execHubRptfenceStart r mask s := rfl
theorem exec_fenceTimeout : exec (.fenceTimeout ch) s = execFenceTimeout ch s := rfl
theorem exec_vfGrantselWrite : exec (.vfGrantselWrite r f v) s = execVfGrantselWrite r f v s := rfl
theorem exec_vfWinselWrite : exec (.vfWinselWrite r f v) s = execVfWinselWrite r f v s := rfl

/-- No access of the channel, and no descriptor of its clusters, is so old that another epoch would make it look young (R392). -/
def noneAncient (s : State) (ch e : Nat) : Prop :=
  (∀ q ∈ (s.chan ch).reqs, epochAge e q.epoch < 32767) ∧
    ∀ k < 96, ∀ p ∈ (s.clu ch k).slots, epochAge e p.2.epoch < 32767

/-- The two searches of COMMIT for an access or a descriptor that is too old find none (R392). -/
theorem ancient_eq_false {e ch : Nat} (h : noneAncient s ch e) :
    ((s.chan ch).reqs.any (fun q => decide (q.place ≠ .done ∧ 32767 ≤ epochAge e q.epoch)) ||
      (List.range 96).any fun k => (s.clu ch k).slots.any fun p =>
        p.2.started && p.2.live && decide (32767 ≤ epochAge e p.2.epoch)) = false := by
  obtain ⟨hreqs, hslots⟩ := h
  rw [Bool.or_eq_false_iff]
  constructor
  · exact List.any_eq_false.2 fun q hq => by simp [hreqs q hq]
  · exact List.any_eq_false.2 fun k hk => ne_true_of_eq_false <| List.any_eq_false.2 fun p hp => by
      simp [hslots k (List.mem_range.1 hk) p hp]

/-- A valid table is committed as the next epoch (R376, R381). -/
theorem exec_chRptctrlCommit_of_valid (ho : Slice0.Open s r (.ch ch)) (hm : maySup (dropHalf s r) r = true)
    (hok : rptOk (dropHalf s r) ch (rptShadow (dropHalf s r) ch) = true)
    (hage : noneAncient (dropHalf s r) ch (epochOf (dropHalf s r) ch)) :
    exec (.chRptctrlCommit r ch) s = .next (({ fenceDone (dropHalf s r) ch with
      rpts := SMap.put (fenceDone (dropHalf s r) ch).rpts ch (rptShadow (dropHalf s r) ch) } : State).fset
        Fld.CH_RPTSTAT_EPOCH ch 0 (epochOf (dropHalf s r) ch + 1)) := by
  rw [exec_chRptctrlCommit, execChRptctrlCommit, rowGate_of_open _ ho]
  simp only [ancient_eq_false hage, hm, hok]
  rfl

/-- A fence starts at a channel (R384). -/
theorem exec_chRptctrlFence_of_open (ho : Slice0.Open s r (.ch ch)) (hm : maySup (dropHalf s r) r = true) :
    exec (.chRptctrlFence r ch) s = .next (startFence (dropHalf s r) ch) := by
  rw [exec_chRptctrlFence, execChRptctrlFence, rowGate_of_open _ ho, if_pos hm]

/-- A fence whose time ends stops the descriptors that are left, here with no request left to abort (R385). -/
theorem exec_fenceTimeout_of_slots {e : Nat} (he : (s.chan ch).fence = some e) (hbusy : fenceBusy s ch = true)
    (hreqs : (olderReqs s ch e).filter (abortable s ch) = []) :
    let n := (olderSlots s ch e).length
    let t := ((olderSlots s ch e).foldl (abortSlot ch cRptStale) s).fadd Fld.CH_RPTSTAT_STALE ch 0 n
    exec (.fenceTimeout ch) s = .next ((if n = 0 then t else
      t.fset Fld.HUB_RPTFENCE_STALE 0 0 (putBits (t.fget Fld.HUB_RPTFENCE_STALE 0) ch 1 1)).setChan ch
        fun k => { k with fence := none }) := by
  simp only [exec_fenceTimeout, execFenceTimeout, he, hbusy, hreqs]
  rfl

/-- The function's record of a live channel is sampled (R375). -/
theorem exec_vfGrantselWrite_of_live (ho : Slice0.HostOpen s r) (hm : mayFn f r = true)
    (hlive : (dropHalf s r).chLive (v.toNat % 4) = true) :
    exec (.vfGrantselWrite r f v) s = .next (((dropHalf s r).setReg .VF_GRANTSEL f 0 (v.toNat % 4)).setWords .VF_GRANTRECn f 0
      ((List.range 4).map fun i => bits (s.fnrec (v.toNat % 4) f) (64 * i) 64)) := by
  rw [exec_vfGrantselWrite, execVfGrantselWrite, hostGate_of_open _ ho, if_pos hm]
  simp only [hlive, if_true]
  rfl

/-- The window entry with the number asked for, of the function's entries in the channel's table (R378). -/
def nthWindow (s : State) (c f k : Nat) : Nat :=
  (((List.range 512).map (rptWin (s.rpt c))).filter fun w => bit w 0 && decide (bits w 8 8 = f)).getD k 0

/-- A window entry of the function in a live channel is sampled (R378). -/
theorem exec_vfWinselWrite_of_live (ho : Slice0.HostOpen s r) (hm : mayFn f r = true)
    (hlive : (dropHalf s r).chLive (v.toNat % 4) = true) :
    exec (.vfWinselWrite r f v) s = .next ((((dropHalf s r).setReg .VF_WINSEL f 0
      (v.toNat % 4 + bits v.toNat 16 9 * 2 ^ 16)).setReg .VF_WINn f 0
        (nthWindow s (v.toNat % 4) f (bits v.toNat 16 9) % 2 ^ 64)).setReg
          .VF_WINn f 1 (nthWindow s (v.toNat % 4) f (bits v.toNat 16 9) / 2 ^ 64)) := by
  rw [exec_vfWinselWrite, execVfWinselWrite, hostGate_of_open _ ho, if_pos hm]
  simp only [hlive, if_true]
  rfl

end Permissions

/-- Settles O23: a function's record is R375 and its windows R378. The fence's clause is the case in which descriptors alone are
left. -/
theorem permissionCommandsComplete : Obligations.PermissionCommandsComplete := by
  refine ⟨fun s r ch => ?commit, fun s ch hlive => ?copy, fun s r ch ho hm => ?fence, fun s r mask ho hm => ?start,
    fun s ch e => ?timeout, fun s r f v => ?record, fun s r f v => ?window⟩
  case commit =>
    intro t u ho hm hok hreqs hslots
    exact exec_chRptctrlCommit_of_valid ho hm hok ⟨hreqs, hslots⟩
  case copy => rw [exec_hubRptCopyUpdate, execHubRptCopyUpdate, if_pos hlive]
  case fence => exact exec_chRptctrlFence_of_open ho hm
  case start => rw [exec_hubRptfenceStart, execHubRptfenceStart, hostGate_of_open _ ho, if_pos hm]
  case timeout =>
    intro n t u he hbusy hreqs
    exact exec_fenceTimeout_of_slots he hbusy hreqs
  case record =>
    intro c ho hm hlive
    exact exec_vfGrantselWrite_of_live ho hm hlive
  case window =>
    intro c k ws ho hm hlive
    exact exec_vfWinselWrite_of_live ho hm hlive

end Sys2Proof.Machine

/-! Control of a die link (R407, R409 to R412): what a command of a writer that may does, then the obligation. -/

namespace Sys2Proof.Machine

section LinkControl

variable {s : State} {r : Requester} {l : LinkId}

theorem exec_fdlLinkCtrlReneg : exec (.fdlLinkCtrlReneg r l) s = execFdlLinkCtrlReneg r l s := rfl
theorem exec_fdlLinkCtrlRetrain : exec (.fdlLinkCtrlRetrain r l) s = execFdlLinkCtrlRetrain r l s := rfl
theorem exec_fdlLinkCtrlTest {on : Bool} : exec (.fdlLinkCtrlTest r l on) s = execFdlLinkCtrlTest r l on s := rfl
theorem exec_fdlLinkCfgCommit : exec (.fdlLinkCfgCommit r l) s = execFdlLinkCfgCommit r l s := rfl
theorem exec_fdlRegWindowAccess {off n : Nat} {write : Bool} {v : Word} :
    exec (.fdlRegWindowAccess r l off write n v) s = execFdlRegWindowAccess r l off write n v s := rfl

/-- A control bit of a link, by a writer that may, acts on the state without its writer's held half. -/
theorem linkGate_of_open (f : State → State) (ho : Slice0.Open s r (.fdl l)) (hm : maySup (dropHalf s r) r = true) :
    (rowGate s r (.fdl l) fun s => lkGuard r l s f) = f (dropHalf s r) := by
  rw [rowGate_of_open _ ho, lkGuard, if_pos hm]

/-- RETRAIN of an active link (R400). -/
theorem exec_fdlLinkCtrlRetrain_of_active (ho : Slice0.Open s r (.fdl l)) (hm : maySup (dropHalf s r) r = true)
    (hst : lkState (dropHalf s r) l = lActive) :
    exec (.fdlLinkCtrlRetrain r l) s = .next (toRetrain (dropHalf s r) l) := by
  rw [exec_fdlLinkCtrlRetrain, execFdlLinkCtrlRetrain, linkGate_of_open _ ho hm, if_pos hst]

/-- TEST of an active link over which no request is outstanding (R410). -/
theorem exec_fdlLinkCtrlTest_on {u : State} (ho : Slice0.Open s r (.fdl l)) (hm : maySup (dropHalf s r) r = true)
    (hu : (dropHalf s r).fset Fld.FDL_LINKn_CTRL_TEST (lkLoc l) 0 1 = u) (hst : lkState u l = lActive)
    (hdue : testDue u l = true) :
    exec (.fdlLinkCtrlTest r l true) s = .next (setLkState (sendCtrl u l 7 0) l lTest) := by
  subst hu
  rw [exec_fdlLinkCtrlTest, execFdlLinkCtrlTest, linkGate_of_open _ ho hm]
  exact congrArg Host.Outcome.next ((if_pos rfl).trans (if_pos ⟨hst, hdue⟩))

/-- Clearing TEST brings the link up again, with the packets that wait held (R407, R410). -/
theorem exec_fdlLinkCtrlTest_off {u : State} (ho : Slice0.Open s r (.fdl l)) (hm : maySup (dropHalf s r) r = true)
    (hu : (dropHalf s r).fset Fld.FDL_LINKn_CTRL_TEST (lkLoc l) 0 0 = u) (hst : lkState u l = lTest) :
    exec (.fdlLinkCtrlTest r l false) s =
      .next (bringAgain (fun e => { freshEnd e with txq := e.txq, rxq := e.rxq }) u l) := by
  subst hu
  rw [exec_fdlLinkCtrlTest, execFdlLinkCtrlTest, linkGate_of_open _ ho hm]
  exact congrArg Host.Outcome.next ((if_neg Bool.false_ne_true).trans (if_pos hst))

/-- Who is answered with the value of a window access: a host that reads (R412). -/
def windowHost (r : Requester) (write : Bool) (n : Nat) : Option Nat :=
  match r with
  | .fn _ => if write then none else some n
  | _ => none

/-- An access within the window of a site link that is up and has agreed on REG becomes a request to the partner (R412). -/
theorem exec_fdlRegWindowAccess_of_up {off n : Nat} {write : Bool} {v : Word} (ho : Slice0.Open s r (.fdl l))
    (hreach : reaches s r (.fdl l) = true) (hsite : l.n.val < 4) (hwidth : n = 4 ∨ n = 8) (halign : off % n = 0)
    (hwindow : off < 0x1000) (hup : lActive ≤ lkState (dropHalf s r) l) (htop : lkState (dropHalf s r) l ≤ lTest)
    (hfeat : (lkFeat (dropHalf s r) l).testBit ftReg = true) :
    exec (.fdlRegWindowAccess r l off write n v) s =
      .next (regAsk (dropHalf s r) l off write n v.toNat (windowHost r write n)) := by
  have hform : ¬ (4 ≤ l.n.val ∨ ¬ (n = 4 ∨ n = 8) ∨ off % n ≠ 0 ∨ 0x1000 ≤ off) := by omega
  have hlink : ¬ (lkState (dropHalf s r) l < lActive ∨ lTest < lkState (dropHalf s r) l) := by omega
  have hask : execFdlRegWindowAccess r l off write n v s = .next (rowGate s r (.fdl l) fun s =>
      if 4 ≤ l.n.val ∨ ¬ (n = 4 ∨ n = 8) ∨ off % n ≠ 0 ∨ 0x1000 ≤ off then regEnd s l (windowHost r write n) cCfgIgnored 0
      else if lkState s l < lActive ∨ lTest < lkState s l then regEnd s l (windowHost r write n) cLinkDown 0
      else if !(lkFeat s l).testBit ftReg then regEnd s l (windowHost r write n) cUnitAbsent 0
      else regAsk s l off write n v.toNat (windowHost r write n)) := by
    unfold execFdlRegWindowAccess
    rw [hreach]
    cases r <;> rfl
  rw [exec_fdlRegWindowAccess, hask, rowGate_of_open _ ho, if_neg hform, if_neg hlink, hfeat, Bool.not_true,
    if_neg Bool.false_ne_true]

end LinkControl

/-- Settles O25: renegotiation and retraining are R407, TEST is R410, the commit R411 and the register window R412. -/
theorem linkControlCompletes : Obligations.LinkControlCompletes := by
  intro s r l t ho hm
  refine ⟨?reneg, fun hst => ?retrain, fun hst hdue => ?test, ?commit, fun hst => ?untest,
    fun off n v write hreach hsite hwidth halign hwindow hup htop hfeat => ?window⟩
  case reneg => rw [exec_fdlLinkCtrlReneg, execFdlLinkCtrlReneg, linkGate_of_open _ ho hm]
  case retrain => exact exec_fdlLinkCtrlRetrain_of_active ho hm hst
  case test => exact exec_fdlLinkCtrlTest_on ho hm rfl hst hdue
  case commit => rw [exec_fdlLinkCfgCommit, execFdlLinkCfgCommit, linkGate_of_open _ ho hm]; rfl
  case untest => exact exec_fdlLinkCtrlTest_off ho hm rfl hst
  case window =>
    rw [exec_fdlRegWindowAccess_of_up ho hreach hsite hwidth halign hwindow hup htop hfeat]
    cases r <;> rfl

end Sys2Proof.Machine

/-! Packets of a die link (R402, R411 to R414): what a packet that has come does, then the obligation. -/

namespace Sys2Proof.Machine

section LinkPackets

variable {s t : State} {l : LinkId} {p : FPkt} {o : FOut}

theorem exec_mrd : exec (.mrd l) s = execMrd l s := rfl
theorem exec_mwr : exec (.mwr l) s = execMwr l s := rfl
theorem exec_fdlQmsg : exec (.fdlQmsg l) s = execFdlQmsg l s := rfl
theorem exec_fdlSync : exec (.fdlSync l) s = execFdlSync l s := rfl
theorem exec_fdlFrame : exec (.fdlFrame l) s = execFdlFrame l s := rfl
theorem exec_fdlReg : exec (.fdlReg l) s = execFdlReg l s := rfl
theorem exec_fdlCmpl : exec (.fdlCmpl l) s = execFdlCmpl l s := rfl
theorem exec_fdlRdata : exec (.fdlRdata l) s = execFdlRdata l s := rfl
theorem exec_fdlRequestTimeout {tag : Nat} : exec (.fdlRequestTimeout l tag) s = execFdlRequestTimeout l tag s := rfl
theorem exec_fdlNote : exec (.fdlNote l) s = execFdlNote l s := rfl
theorem exec_boot : exec (.boot l) s = execBoot l s := rfl

/-- Keeper mode stops no work outside it (R27). -/
theorem outKeeper_of_ne (f : State → State) (h : s.hub.phase ≠ .keeper) : outKeeper s f = f s := if_neg h

/-- No packet is taken in keeper mode (R27). -/
theorem phase_ne_keeper_of_takePkt {k : Nat} (h : takePkt s l k = some (p, t)) : s.hub.phase ≠ .keeper := by
  unfold takePkt at h
  dsimp only at h
  split at h
  · split at h
    · next hq => exact hq.2
    · cases h
  · cases h

/-! ### Requests and frames -/

/-- A message of whole words gets its header from the link, with the link's number of the message (R411). -/
theorem exec_fdlQmsg_of_words (h : takePkt s l pQmsg = some (p, t)) (hlen : p.len % 8 = 0) :
    let body := cleanBytes (((p.slots.map fun x => leBytes 16 x).flatten).take p.len)
    let u := t.setLk l fun e => { e with msgs := (t.lk l).msgs + 1 }
    exec (.fdlQmsg l) s = .next (linkReq u l p
      (.msg (mkHdr (qaKind p.addr) (qaHandler p.addr) (p.len / 8) false false 0 (120 + l.n) l.ch (ownPkg t) (t.lk l).msgs) body)
      fun f => siteMsgCode u l.ch f p.addr body) := by
  simp only [exec_fdlQmsg, execFdlQmsg, h]
  rw [if_neg (not_not_intro hlen)]

/-- A synchronization packet with an operation of Table 19-7 is issued (R402). -/
theorem exec_fdlSync_of_op {op : SOp} (h : takePkt s l pSync = some (p, t)) (hle : p.op ≤ 5) (hop : sopOf p.op = some op) :
    exec (.fdlSync l) s =
      .next (linkReq t l p (.sync op (p.slots.headD 0 % 2 ^ 64)) fun f => siteSyncCode t l.ch f p.addr) := by
  simp only [exec_fdlSync, execFdlSync, h, if_pos hle, hop]

/-- A frame that comes whole to a field die goes to Caravan Transport by its port (R402, R422). -/
theorem exec_fdlFrame_of_whole (h : takePkt s l pFrame = some (p, t)) (hfirst : bit p.op 0 = true) (hlast : bit p.op 1 = true)
    (hsite : l.n.val < 4) (hnear : l.far = false) :
    exec (.fdlFrame l) s = .next (ctReceive l.ch (Fin.ofNat 32 (8 * l.n.val + p.addr % 8)) (pktBytes p) false
      (t.setLk l fun e => { e with frame := [] })) := by
  simp only [exec_fdlFrame, execFdlFrame, h, hfirst, hlast, hnear, if_neg (Nat.not_le.2 hsite)]
  rfl

/-- A register access of the hub is answered by the field die (R412). -/
theorem exec_fdlReg_of_hubEnd (h : takePkt s l pReg = some (p, t)) (hend : hubEnd l = true) :
    exec (.fdlReg l) s = .next (sendCmpl (regAnswer t l p).1 l p.tag (regAnswer t l p).2.2 (regAnswer t l p).2.1 false) := by
  simp only [exec_fdlReg, execFdlReg, h, hend, if_true]

/-! ### Completions, data, notices, images -/

/-- A completion ends the request of its tag; one of a register access also gives its value (R402, R412). -/
theorem exec_fdlCmpl_of_request (h : takePkt s l pCmpl = some (p, t))
    (ho : (t.lk l).outst.find? (fun o => decide (o.tag = p.tag)) = some o) :
    let u := t.setLk l fun e => { e with outst := e.outst.filter fun x => !decide (x.tag = p.tag) }
    exec (.fdlCmpl l) s =
      .next (if o.ptype = pReg then regEnd u l o.host (wireCode p.code) (if o.read then p.addr else 0) else u) := by
  simp only [exec_fdlCmpl, execFdlCmpl, outKeeper_of_ne _ (phase_ne_keeper_of_takePkt h), h, ho]

/-- The last data of a read end it (R402). -/
theorem exec_fdlRdata_of_last (h : takePkt s l pRdata = some (p, t))
    (ho : (t.lk l).outst.find? (fun o => decide (o.tag = p.tag ∧ o.ptype = pMrd)) = some o) (hlast : p.last = true) :
    exec (.fdlRdata l) s =
      .next (t.setLk l fun e => { e with outst := e.outst.filter fun x => !decide (x.tag = p.tag) }) := by
  simp only [exec_fdlRdata, execFdlRdata, outKeeper_of_ne _ (phase_ne_keeper_of_takePkt h), h, ho, hlast, if_true]

/-- A request whose answer does not come ends, and its tag rests (R414). -/
theorem exec_fdlRequestTimeout_of_request {tag : Nat} (hk : s.hub.phase ≠ .keeper)
    (ho : (s.lk l).outst.find? (fun o => decide (o.tag = tag)) = some o) :
    exec (.fdlRequestTimeout l tag) s = .next (regEnd (s.setLk l fun e =>
      { e with outst := e.outst.filter (fun x => !decide (x.tag = tag)), dead := e.dead ++ [tag] }) l o.host cLinkDown 0) := by
  simp only [exec_fdlRequestTimeout, execFdlRequestTimeout, outKeeper_of_ne _ hk, ho]

/-- A notice is kept at a near end (R402). -/
theorem exec_fdlNote_of_near (h : takePkt s l pNote = some (p, t)) (hnear : l.far = false) :
    exec (.fdlNote l) s = .next (t.setLk l fun e => { e with notes := e.notes ++ [p.addr] }) := by
  simp only [exec_fdlNote, execFdlNote, outKeeper_of_ne _ (phase_ne_keeper_of_takePkt h), h]
  exact congrArg Host.Outcome.next (if_neg fun hfar => ne_true_of_eq_false hnear hfar.2.1)

/-- Bytes of an image are kept and answered (R402, R507). -/
theorem exec_boot_of_packet (h : takePkt s l pBoot = some (p, t)) :
    exec (.boot l) s = .next (sendCmpl
      (t.setLk l fun e => { e with image := e.image ++ (p.slots.map fun x => leBytes 16 x).flatten }) l p.tag cNone 0 false) := by
  simp only [exec_boot, execBoot, outKeeper_of_ne _ (phase_ne_keeper_of_takePkt h), h]

end LinkPackets

/-- Settles O26: register accesses are R412, the end of a request without answer R414 and an image R507. -/
theorem linkPacketsComplete : Obligations.LinkPacketsComplete := by
  intro s l p t
  refine ⟨fun h => ?mrd, fun h => ?mwr, fun h hlen => ?qmsg, fun op h hle hop => ?sync,
    fun h hfirst hlast hsite hnear => ?frame, fun h hend => ?reg, fun o h ho hne => ?cmpl, fun o h ho heq => ?cmplReg,
    fun o h ho hlast => ?rdata, fun tag o hk ho => ?timeout, fun h hnear => ?note, fun h => ?boot⟩
  case mrd => simp only [exec_mrd, execMrd, h]
  case mwr => simp only [exec_mwr, execMwr, h]
  case qmsg => exact exec_fdlQmsg_of_words h hlen
  case sync => exact exec_fdlSync_of_op h hle hop
  case frame => exact exec_fdlFrame_of_whole h hfirst hlast hsite hnear
  case reg => exact exec_fdlReg_of_hubEnd h hend
  case cmpl => exact (exec_fdlCmpl_of_request h ho).trans (congrArg _ (if_neg hne))
  case cmplReg => exact (exec_fdlCmpl_of_request h ho).trans (congrArg _ (if_pos heq))
  case rdata => exact exec_fdlRdata_of_last h ho hlast
  case timeout => exact exec_fdlRequestTimeout_of_request hk ho
  case note => exact exec_fdlNote_of_near h hnear
  case boot => exact exec_boot_of_packet h

end Sys2Proof.Machine

/-! Operations that arrive on a Caravan flow (R424, R432 to R434, R441): what the packet next in its stream does, then the
obligation. -/

namespace Sys2Proof.Machine

section FlowOperations

variable {s : State} {ch : Ch} {n : Fin 4096} {p : CPkt}

theorem exec_ctWrite : exec (.ctWrite ch n) s = execCtWrite ch n s := rfl
theorem exec_ctRead : exec (.ctRead ch n) s = execCtRead ch n s := rfl
theorem exec_ctQmsg : exec (.ctQmsg ch n) s = execCtQmsg ch n s := rfl
theorem exec_ctSync : exec (.ctSync ch n) s = execCtSync ch n s := rfl
theorem exec_ctBar : exec (.ctBar ch n) s = execCtBar ch n s := rfl
theorem exec_ctResp : exec (.ctResp ch n) s = execCtResp ch n s := rfl
theorem exec_ctRdata : exec (.ctRdata ch n) s = execCtRdata ch n s := rfl

/-- Two changes of a flow that agree on what it is now. -/
theorem setFlow_congr {c m : Nat} {g g' : Flow → Flow} (h : g (s.flow c m) = g' (s.flow c m)) :
    setFlow s c m g = setFlow s c m g' := by
  simp only [State.flow] at h
  simp only [setFlow, State.setCt, h]

/-- A write that comes while none of its flow is open opens one (R432). -/
theorem exec_ctWrite_of_first (hp : arriving s ch n tWrite = some p) (hins : (s.flow ch n).ins = []) :
    let d : List DByte := p.payload.map fun b => (b, bit p.flags 3)
    exec (.ctWrite ch n) s = .next (arriveReq
      (setFlow s ch n fun f => { f with ins := f.ins ++ [{ opid := p.opid, last := bit p.flags 1 }] })
      ch n p (.write d) 2 fun s f => if d.isEmpty then cCfgIgnored else siteCode s ch f true p.addr d.length) := by
  have hopen : setFlow s ch n (fun f => { f with
        ins := if f.ins.any fun i => decide (i.opid = p.opid) then
            f.ins.map fun i => if i.opid = p.opid then { i with last := i.last || bit p.flags 1 } else i
          else f.ins ++ [{ opid := p.opid, last := bit p.flags 1 }] }) =
      setFlow s ch n fun f => { f with ins := f.ins ++ [{ opid := p.opid, last := bit p.flags 1 }] } :=
    setFlow_congr (by simp only [hins, List.any_nil, Bool.false_eq_true, if_false])
  simp only [exec_ctWrite, execCtWrite, hp]
  rw [hopen]

/-- A clean synchronization packet with an operation of its table is issued as the flow's function (R424, R432). -/
theorem exec_ctSync_of_clean {op : SOp} (hp : arriving s ch n tSync = some p) (hop : sopOf p.aux = some op)
    (hclean : bit p.flags 3 = false) :
    exec (.ctSync ch n) s = .next (arriveReq s ch n p (.sync op (leNat (p.payload.take 8))) 2
      fun s f => siteSyncCode s ch f p.addr) := by
  simp only [exec_ctSync, execCtSync, hp, hop, hclean, Bool.false_eq_true, if_false]

/-- The children of a group that stand behind the flow have arrived at its barrier (R441). -/
theorem exec_ctBar_of_arrival {k : Nat} {g : Group} (hp : arriving s ch n tBar = some p)
    (hg : ((deliverPkt s ch n p).ct ch).groups.find? (fun q => q.2.valid && decide (q.2.gid = bits p.addr 0 32 ∧
      q.2.func = (s.flow ch n).func)) = some (k, g)) (hpoison : bit p.aux 1 = false) (hrelease : bit p.aux 8 = false) :
    exec (.ctBar ch n) s = .next (barRun (groupTry (setGroup (deliverPkt s ch n p) ch k fun h => { h with
      kids := h.kids ++ g.children.filter fun r =>
        decide (member (deliverPkt s ch n p) g r = ((s.flow ch n).pkg, (s.flow ch n).pch)),
      nf := h.nf || bit p.aux 0 }) ch k) ch g.bobj) := by
  simp only [exec_ctBar, execCtBar, hp, hg, hpoison, hrelease, Bool.false_eq_true, if_false]

/-- A response that tells of no busy registration ends its operation (R432). -/
theorem exec_ctResp_of_done (hp : arriving s ch n tResp = some p) (hbusy : bit p.aux 0 = false) :
    exec (.ctResp ch n) s =
      .next (ctOpEnd (deliverPkt s ch n p) ch n p.opid (wireCode p.code) (dBytes 8 p.addr)) := by
  simp only [exec_ctResp, execCtResp, hp, hbusy, Bool.false_eq_true, if_false]

/-- Data that are not the last are kept with their operation (R432). -/
theorem exec_ctRdata_of_more (hp : arriving s ch n tRdata = some p) (hmore : bit p.flags 1 = false) :
    exec (.ctRdata ch n) s = .next (setFlow (deliverPkt s ch n p) ch n fun f => { f with ops := f.ops.map fun o =>
      if o.opid = p.opid then { o with data := o.data ++ p.payload.map fun b => (b, bit p.flags 3) } else o }) := by
  simp only [exec_ctRdata, execCtRdata, hp, hmore, Bool.false_eq_true, if_false]

end FlowOperations

/-- Settles O28: the operations are R432 and R433, a barrier's arrival R441. -/
theorem flowOperationsComplete : Obligations.FlowOperationsComplete := by
  intro s ch n p d body t
  refine ⟨fun hp hins => ?write, fun hp => ?read, fun hp => ?message, fun op hp hop hclean => ?sync,
    fun k g hp hg hpoison hrelease => ?barrier, fun hp hbusy => ?response, fun hp hmore => ?data⟩
  case write => exact exec_ctWrite_of_first hp hins
  case read => simp only [exec_ctRead, execCtRead, hp]
  case message => simp only [exec_ctQmsg, execCtQmsg, hp]; rfl
  case sync => exact exec_ctSync_of_clean hp hop hclean
  case barrier => exact exec_ctBar_of_arrival hp hg hpoison hrelease
  case response => exact exec_ctResp_of_done hp hbusy
  case data => exact exec_ctRdata_of_more hp hmore

end Sys2Proof.Machine

/-! Configuration of Caravan (R421, R423, R426, R438, R442, R447): what a command of a writer that may does, then the obligation. -/

namespace Sys2Proof.Machine

section CaravanConfig

variable {s : State} {r : Requester} {ch : Ch} {v : Word}

theorem exec_ctFlowctrlCommit : exec (.ctFlowctrlCommit r ch) s = execCtFlowctrlCommit r ch s := rfl
theorem exec_ctFlowctrlOpen : exec (.ctFlowctrlOpen r ch) s = execCtFlowctrlOpen r ch s := rfl
theorem exec_ctFlowctrlClose : exec (.ctFlowctrlClose r ch) s = execCtFlowctrlClose r ch s := rfl
theorem exec_ctFlowselWrite : exec (.ctFlowselWrite r ch v) s = execCtFlowselWrite r ch v s := rfl
theorem exec_ctGrpctrlCommit : exec (.ctGrpctrlCommit r ch) s = execCtGrpctrlCommit r ch s := rfl
theorem exec_ctGrpselWrite : exec (.ctGrpselWrite r ch v) s = execCtGrpselWrite r ch v s := rfl
theorem exec_ctLccfgCommit : exec (.ctLccfgCommit r ch) s = execCtLccfgCommit r ch s := rfl
theorem exec_ctPortCfgCommit {site : Fin 4} : exec (.ctPortCfgCommit r ch site) s = execCtPortCfgCommit r ch site s := rfl
theorem exec_portLinkDown {port : Fin 32} : exec (.portLinkDown ch port) s = execPortLinkDown ch port s := rfl
theorem exec_portLinkUp {port : Fin 32} : exec (.portLinkUp ch port) s = execPortLinkUp ch port s := rfl

/-- A command of the channel's Caravan block, by a writer that may, acts on the state without its writer's held half. -/
theorem caravanGate_of_open (f : State → State) (ho : Slice0.Open s r (.ct ch)) (hm : maySup (dropHalf s r) r = true) :
    (rowGate s r (.ct ch) fun s => ctGuard r ch s f) = f (dropHalf s r) := by
  rw [rowGate_of_open _ ho, ctGuard, if_pos hm]

/-! ### Flows -/

/-- COMMIT of a valid form into an entry that holds no flow (R423). -/
theorem exec_ctFlowctrlCommit_of_unused {t : State} {n : Nat} (ho : Slice0.Open s r (.ct ch)) (hm : maySup t r = true)
    (ht : dropHalf s r = t) (hn : t.fget Fld.CT_FLOWSEL_INDEX ch = n) (hvalid : (t.flow ch n).valid = false)
    (hok : flowOk t ch n (t.flow ch n).sh0 (t.flow ch n).sh1 = true) :
    exec (.ctFlowctrlCommit r ch) s = .next (setFlow (setFlowSt t ch n fIdle) ch n
      fun f => { sh0 := f.sh0, sh1 := f.sh1, w0 := f.sh0, w1 := f.sh1 }) := by
  subst ht hn
  have hpass : ¬ (((dropHalf s r).flow ch ((dropHalf s r).fget Fld.CT_FLOWSEL_INDEX ch)).valid = true ∧
      ((dropHalf s r).flow ch ((dropHalf s r).fget Fld.CT_FLOWSEL_INDEX ch)).st ≠ fIdle ∨ ¬ flowOk (dropHalf s r) ch _ _ _ = true) :=
    not_or.2 ⟨fun h => ne_true_of_eq_false hvalid h.1, not_not_intro hok⟩
  rw [exec_ctFlowctrlCommit, execCtFlowctrlCommit, caravanGate_of_open _ ho hm, if_neg hpass]

/-- OPEN of an idle flow sends an OPEN frame with the next incarnation (R426). -/
theorem exec_ctFlowctrlOpen_of_idle {t : State} {n : Nat} (ho : Slice0.Open s r (.ct ch)) (hm : maySup t r = true)
    (ht : dropHalf s r = t) (hn : t.fget Fld.CT_FLOWSEL_INDEX ch = n) (hvalid : (t.flow ch n).valid = true)
    (hst : (t.flow ch n).st = fIdle) :
    exec (.ctFlowctrlOpen r ch) s =
      .next (sendOpen (setFlowSt t ch n fOpening) ch n (((t.flow ch n).inc + 1) % 16) false) := by
  subst ht hn
  rw [exec_ctFlowctrlOpen, execCtFlowctrlOpen, caravanGate_of_open _ ho hm, if_pos ⟨hvalid, hst⟩]

/-- CLOSE of a flow that is not idle (R426, R435). -/
theorem exec_ctFlowctrlClose_of_used {t : State} {n : Nat} (ho : Slice0.Open s r (.ct ch)) (hm : maySup t r = true)
    (ht : dropHalf s r = t) (hn : t.fget Fld.CT_FLOWSEL_INDEX ch = n) (hst : (t.flow ch n).st ≠ fIdle) :
    exec (.ctFlowctrlClose r ch) s = .next (flowLost t ch n cLinkDown fIdle) := by
  subst ht hn
  rw [exec_ctFlowctrlClose, execCtFlowctrlClose, caravanGate_of_open _ ho hm, if_neg hst]

/-! ### Groups, compression, ports -/

/-- COMMIT of a form that is not valid into a group entry that holds no group (R438). -/
theorem exec_ctGrpctrlCommit_of_invalid {t : State} {n : Nat} {x : Group} (ho : Slice0.Open s r (.ct ch))
    (hm : maySup t r = true) (ht : dropHalf s r = t) (hn : t.fget Fld.CT_GRPSEL_INDEX ch = n)
    (hx : { t.group ch n with w := (t.group ch n).sh, number := 0, own := false, kids := [], nf := false, psn := false } = x)
    (hvalid : (t.group ch n).valid = false) (hform : x.valid = false) :
    exec (.ctGrpctrlCommit r ch) s = .next (setGroup t ch n fun _ => x) := by
  subst ht hn hx
  rw [exec_ctGrpctrlCommit, execCtGrpctrlCommit, caravanGate_of_open _ ho hm]
  simp only [hvalid, hform]
  rfl

/-- COMMIT of a compression mode that the channel has (R442). -/
theorem exec_ctLccfgCommit_of_live {m : Nat} (ho : Slice0.Open s r (.ct ch)) (hm : maySup (dropHalf s r) r = true)
    (hmode : (dropHalf s r).fget Fld.CT_LCCFG_MODE ch = m) (hlt : m < 3)
    (hlive : m ≠ 0 → (dropHalf s r).fbit Fld.CH_CAPS_LC_LIVE ch = true) :
    exec (.ctLccfgCommit r ch) s = .next (((dropHalf s r).fset Fld.CT_LCLIVE_MODE ch 0 m).fset Fld.CT_LCLIVE_BLIM ch 0
      ((dropHalf s r).fget Fld.CT_LCCFG_BLIM ch)) := by
  subst hmode
  rw [exec_ctLccfgCommit, execCtLccfgCommit, caravanGate_of_open _ ho hm, if_neg (Nat.ne_of_lt hlt),
    if_neg fun h => h.2 (hlive h.1)]

/-- COMMIT of a largest payload alone, the mode of the port kept (R421). -/
theorem exec_ctPortCfgCommit_of_same {t : State} {site : Fin 4} (ho : Slice0.Open s r (.ct ch)) (hm : maySup t r = true)
    (ht : dropHalf s r = t) (hpay : t.fget Fld.CT_PORTn_CFG_MAXPAY ch site ≠ 3)
    (hmode : t.fget Fld.CT_PORTn_CFG_MODE ch site = portMode t ch site) (hcfg : t.fbit Fld.CT_PORTn_CFG_UDP ch site = false)
    (hudp : portUdp t ch site = false) (hlive : dieLive t ch site = true) :
    exec (.ctPortCfgCommit r ch site) s = .next (t.setCt ch fun c => { c with
      live := c.live.set site
        (t.fget Fld.CT_PORTn_CFG_MODE ch site + ofBit false * 4 + t.fget Fld.CT_PORTn_CFG_MAXPAY ch site * 8) }) := by
  rw [exec_ctPortCfgCommit, execCtPortCfgCommit, caravanGate_of_open _ ho (ht ▸ hm), ht]
  simp [hpay, hmode, hcfg, hudp, hlive]

/-- A port of a gate die in service gets its link back (R419). -/
theorem exec_portLinkUp_of_live {port : Fin 32} (hport : port.val % 8 < sitePorts s ch (port.val / 8))
    (hlive : dieLive s ch (port.val / 8) = true) (hgone : portGone s ch port = false) :
    exec (.portLinkUp ch port) s = .next (s.fset Fld.CT_PORTn_STAT_UP ch (port.val / 8)
      (putBits (s.fget Fld.CT_PORTn_STAT_UP ch (port.val / 8)) (port.val % 8) 1 1)) := by
  rw [exec_portLinkUp, execPortLinkUp, if_pos ⟨hport, hlive, ne_true_of_eq_false hgone⟩]

end CaravanConfig

/-- Settles O29: ports are R421, a flow's entry R423, its opening and closing R426 and compression R442. -/
theorem caravanConfigCompletes : Obligations.CaravanConfigCompletes := by
  refine ⟨fun s r ch => ?flow, fun s r ch v => ?flowsel, fun s r ch => ?group, fun s r ch v => ?grpsel,
    fun s r ch => ?compression, fun s r ch site => ?port, fun s ch port => rfl, fun s ch port => ?up⟩
  case flow =>
    intro t n f ho hm
    exact ⟨exec_ctFlowctrlCommit_of_unused ho hm rfl rfl, exec_ctFlowctrlOpen_of_idle ho hm rfl rfl,
      exec_ctFlowctrlClose_of_used ho hm rfl rfl⟩
  case flowsel =>
    intro t n ho hm
    rw [exec_ctFlowselWrite, execCtFlowselWrite, caravanGate_of_open _ ho hm]
  case group =>
    intro t n x ho hm hvalid hform
    exact exec_ctGrpctrlCommit_of_invalid ho hm rfl rfl rfl hvalid hform
  case grpsel =>
    intro t n ho hm
    rw [exec_ctGrpselWrite, execCtGrpselWrite, caravanGate_of_open _ ho hm]
  case compression =>
    intro t m ho hm hlt hlive
    exact exec_ctLccfgCommit_of_live ho hm rfl hlt hlive
  case port =>
    intro t ho hm hpay hmode hcfg hudp hlive
    exact exec_ctPortCfgCommit_of_same ho hm rfl hpay hmode hcfg hudp hlive
  case up =>
    intro site hport hlive hgone
    exact exec_portLinkUp_of_live hport hlive hgone

end Sys2Proof.Machine

/-! Collectives (R436, R437, R439, R440): what the engine does at each command, then the obligation. -/

namespace Sys2Proof.Machine

section Collectives

variable {s : State} {ch : Ch} {k : Coll}

theorem exec_collectiveSubmit : exec (.collectiveSubmit ch) s = execCollectiveSubmit ch s := rfl
theorem exec_collectiveBegin : exec (.collectiveBegin ch) s = execCollectiveBegin ch s := rfl
theorem exec_ctColl {n : Fin 4096} : exec (.ctColl ch n) s = execCtColl ch n s := rfl
theorem exec_collectiveTimeout : exec (.collectiveTimeout ch) s = execCollectiveTimeout ch s := rfl

/-! ### Submission -/

/-- The body of the message of a request, and `b` where it is no message. -/
def bodyOr (r : Req) (b : List DByte) : List DByte :=
  match r.op with
  | .msg _ m => m
  | _ => b

/-- What becomes of a message of the queue whose body is `m`: a clean descriptor of 64 bytes joins, any other is refused (R436). -/
def submitted (s : State) (ch c inp : Nat) (r : Req) (m : List DByte) : State :=
  let code := if anyPsn m then cEccUncorrected else if dNat ((m.drop 8).take 4) ≠ 64 then cCfgIgnored else 0
  let s := leaveMesh s ch r c inp
  finish (if code ≠ 0 then s else s.setCt ch fun t => { t with
    collq := t.collq ++ [⟨dNat (m.take 8), r.fn.getD 255, r.cl⟩] }) ch r code []

theorem submitted_of_clean {c inp : Nat} {r : Req} {m : List DByte} (hclean : anyPsn m = false)
    (hlen : dNat ((m.drop 8).take 4) = 64) :
    submitted s ch c inp r m = finish ((leaveMesh s ch r c inp).setCt ch fun t => { t with
      collq := t.collq ++ [⟨dNat (m.take 8), r.fn.getD 255, r.cl⟩] }) ch r 0 [] := by
  simp only [submitted, hclean, hlen]
  rfl

/-- The next message of the port is judged where it has come in good order and the queue has room (R436). -/
theorem exec_collectiveSubmit_of_room {c inp : Nat} {r : Req} {b : List DByte} (hnext : collNext s ch = some (c, inp, r, b))
    (hgood : gwBad s ch c inp r = false) (hroom : (s.ct ch).collq.length < 64) :
    exec (.collectiveSubmit ch) s = .next (submitted s ch c inp r (bodyOr (readBack s ch c r) b)) := by
  simp only [exec_collectiveSubmit, execCollectiveSubmit, hnext, hgood, if_neg (Nat.not_le.2 hroom)]
  rfl

/-! ### Reads of the engine -/

/-- The first failing code of codes that are all 0. -/
theorem foldl_firstCode_of_zero {l : List Nat} (h : ∀ c ∈ l, c = 0) : l.foldl firstCode 0 = 0 := by
  induction l with
  | nil => rfl
  | cons c l ih =>
    obtain rfl := h c (List.mem_cons_self ..)
    exact ih fun d hd => h d (List.mem_cons_of_mem _ hd)

/-- Once everything that the engine needs is back and nothing of it has failed, it goes on (R193). -/
theorem collNeed_of_back {c f : Nat} {l : List (Nat × Nat)} (go : State → State) (hback : unitBack s c 2 false l = true)
    (hcode : ∀ x ∈ l, unitCode s c 2 false x.1 x.2 = 0) : collNeed s c f l go = go s := by
  have hnone : (l.map fun t => unitCode s c 2 false t.1 t.2).foldl firstCode 0 = 0 :=
    foldl_firstCode_of_zero fun c hc => by
      obtain ⟨x, hx, rfl⟩ := List.mem_map.1 hc
      exact hcode x hx
  simp only [collNeed, hback, hnone, if_true]
  rfl

/-! ### Beginning -/

/-- The oldest collective of the queue becomes the running one, and its descriptor is asked for where its function may read it
(R437). -/
theorem exec_collectiveBegin_of_queue {c : CollReq} {rest : List CollReq} (hnone : (s.ct ch).coll = none)
    (hq : (s.ct ch).collq = c :: rest) :
    let t := s.setCt ch fun t => { t with collq := rest, coll := some { req := c, d := [], group := 0, number := 0 } }
    exec (.collectiveBegin ch) s = .next (if collRange t ch c.func false c.desc 64 = 0 then
      unitAsk t ch 2 96 (some c.func) [(c.desc, 64)] else collEnd t ch (collRange t ch c.func false c.desc 64)) := by
  simp only [exec_collectiveBegin, execCollectiveBegin, hnone, hq, ne_eq, ite_not]

/-- A descriptor that is back is read (R437). -/
theorem exec_collectiveBegin_of_descriptor (hk : (s.ct ch).coll = some k) (hgo : k.going = false) (hend : k.ended = none)
    (hd : k.d = []) (hback : unitBack s ch 2 false [(k.req.desc, 64)] = true)
    (hcode : unitCode s ch 2 false k.req.desc 64 = 0) :
    exec (.collectiveBegin ch) s = .next (collRead s ch k.req) := by
  have hread := collNeed_of_back (f := k.req.func) (fun s => collRead s ch k.req) hback (by simpa using hcode)
  simp only [exec_collectiveBegin, execCollectiveBegin, hk, hgo, hend, hd]
  exact congrArg Host.Outcome.next hread

/-- What a member reads before its first reception: nothing, or a range of its input. -/
def firstRange (k : Coll) (g : Group) : List (Nat × Nat) :=
  if (firstInput k g).2 = 0 then [] else [inputRange k (firstInput k g).1 (firstInput k g).2]

/-- A collective without a clip record, whose flows are up, goes once its first input is back (R437, R439). -/
theorem exec_collectiveBegin_of_input (hk : (s.ct ch).coll = some k) (hgo : k.going = false) (hend : k.ended = none)
    (hd : k.d ≠ []) (hclip : k.w 4 = 0)
    (hflows : 1 < (s.group ch k.group).size → (flowTo s ch (s.group ch k.group) (ringNext (s.group ch k.group))).2 = 0 ∧
      (flowTo s ch (s.group ch k.group) (ringPrev (s.group ch k.group))).2 = 0)
    (hback : unitBack s ch 2 false (firstRange k (s.group ch k.group)) = true)
    (hcode : ∀ x ∈ firstRange k (s.group ch k.group), unitCode s ch 2 false x.1 x.2 = 0) :
    exec (.collectiveBegin ch) s = .next (collGoes s ch k (s.group ch k.group)) := by
  have hread : k.d.isEmpty = false := List.isEmpty_eq_false_iff.2 hd
  have hup : ¬ (1 < (s.group ch k.group).size ∧
      ((flowTo s ch (s.group ch k.group) (ringNext (s.group ch k.group))).2 ≠ 0 ∨
        (flowTo s ch (s.group ch k.group) (ringPrev (s.group ch k.group))).2 ≠ 0)) := by
    rintro ⟨hsize, hbad⟩
    obtain ⟨hnext, hprev⟩ := hflows hsize
    exact hbad.elim (· hnext) (· hprev)
  have hgoes := collNeed_of_back (f := k.req.func) (fun u => collGoes u ch k (s.group ch k.group)) hback hcode
  simp only [exec_collectiveBegin, execCollectiveBegin, hk, hgo, hend, hread, collClip, hclip, if_true, collFeed, if_neg hup]
  exact congrArg Host.Outcome.next hgoes

/-! ### Receptions -/

/-- What a segment of a reception that adds is combined with: a range of the member's input, unless the segment is empty. -/
def segRange (k : Coll) (g : Group) (p : CPkt) : List (Nat × Nat) :=
  if (collRecv k g k.step).adds && !(segPart k g p).2.isEmpty then [inputRange k (segPart k g p).1 (segPart k g p).2.length]
  else []

/-- The next segment from the ring predecessor is taken once the input it is combined with is back (R438, R439). -/
theorem exec_ctColl_of_segment {n : Fin 4096} {p : CPkt} {g : Group} (hp : arriving s ch n tColl = some p)
    (hk : (s.ct ch).coll = some k) (hg : s.group ch k.group = g) (hgo : k.going = true) (hend : k.ended = none)
    (hgid : bits p.addr 0 32 = g.gid) (hnumber : bits p.addr 32 16 = k.number) (hfunc : (s.flow ch n).func = g.func)
    (hprev : member s g (ringPrev g) = ((s.flow ch n).pkg, (s.flow ch n).pch))
    (hback : unitBack s ch 2 false (segRange k g p) = true)
    (hcode : ∀ x ∈ segRange k g p, unitCode s ch 2 false x.1 x.2 = 0) :
    exec (.ctColl ch n) s = .next (collGo (unitForget (collSegment (deliverPkt s ch n p) ch k g p) ch 2) ch) := by
  subst hg
  have htake := collNeed_of_back (f := k.req.func)
    (fun u => collGo (unitForget (collSegment (deliverPkt u ch n p) ch k (s.group ch k.group) p) ch 2) ch) hback hcode
  have hmine : k.going = true ∧ k.ended.isNone = true ∧ bits p.addr 0 32 = (s.group ch k.group).gid ∧
      bits p.addr 32 16 = k.number ∧ (s.flow ch n).func = (s.group ch k.group).func ∧
      member s (s.group ch k.group) (ringPrev (s.group ch k.group)) = ((s.flow ch n).pkg, (s.flow ch n).pch) :=
    ⟨hgo, by rw [hend]; rfl, hgid, hnumber, hfunc, hprev⟩
  simp only [exec_ctColl, execCtColl, hp, hk]
  rw [if_pos hmine]
  exact congrArg Host.Outcome.next htake

end Collectives

/-- Settles O30: the port is R436, the checks R437, the ring R439 and the timeout R440. -/
theorem collectiveCommandsComplete : Obligations.CollectiveCommandsComplete := by
  refine ⟨fun s ch c inp r b => ?submit, fun s ch c rest => ?begin, fun s ch k hk hgo hend => ⟨fun hd hback hcode => ?read, ?goes⟩,
    fun s ch n p k => ?segment, fun s ch _ => rfl⟩
  case submit =>
    intro m hnext hgood hroom hclean hlen
    exact (exec_collectiveSubmit_of_room hnext hgood hroom).trans (congrArg _ (submitted_of_clean hclean hlen))
  case begin =>
    intro t hnone hq
    exact exec_collectiveBegin_of_queue hnone hq
  case read => exact exec_collectiveBegin_of_descriptor hk hgo hend hd hback hcode
  case goes =>
    intro g l hd hclip hflows hback hcode
    exact exec_collectiveBegin_of_input hk hgo hend hd hclip hflows hback hcode
  case segment =>
    intro g f x l hp hk hgo hend hgid hnumber hfunc hprev hback hcode
    exact exec_ctColl_of_segment hp hk rfl hgo hend hgid hnumber hfunc hprev hback hcode

end Sys2Proof.Machine

/-! Clocks and power control (R452 to R456, R458 to R463, R466 to R470): what a command whose conditions hold does, then the
obligation. -/

namespace Sys2Proof.Machine

section PowerControl

variable {s : State} {r : Requester} {ch : Ch} {d : DistId} {time v : Word}

theorem exec_powerEpoch {draws vnext : List Nat} {uncore : Nat} :
    exec (.powerEpoch ch draws uncore vnext) s = execPowerEpoch ch draws uncore vnext s := rfl
theorem exec_grantBoundary : exec .grantBoundary s = execGrantBoundary s := rfl
theorem exec_avfsEvaluation {code : Nat} {pass : Bool} :
    exec (.avfsEvaluation d code pass) s = execAvfsEvaluation d code pass s := rfl
theorem exec_droop : exec (.droop d) s = execDroop d s := rfl
theorem exec_dstVftgtCommit : exec (.dstVftgtCommit r d) s = execDstVftgtCommit r d s := rfl
theorem exec_hubPwrbudgetCommit : exec (.hubPwrbudgetCommit r) s = execHubPwrbudgetCommit r s := rfl
theorem exec_chPwrcfgWrite : exec (.chPwrcfgWrite r ch v) s = execChPwrcfgWrite r ch v s := rfl
theorem exec_thermalSample {temp : Nat} : exec (.thermalSample d temp) s = execThermalSample d temp s := rfl
theorem exec_throttleNEdge {low : Bool} : exec (.throttleNEdge low) s = execThrottleNEdge low s := rfl
theorem exec_throttleFilterExpiry : exec .throttleFilterExpiry s = execThrottleFilterExpiry s := rfl
theorem exec_syncInPulse : exec (.syncInPulse time) s = execSyncInPulse time s := rfl
theorem exec_hubSyncctrlArmload : exec (.hubSyncctrlArmload r) s = execHubSyncctrlArmload r s := rfl
theorem exec_pllLockLoss : exec (.pllLockLoss d) s = execPllLockLoss d s := rfl
theorem exec_pllRelock : exec (.pllRelock d) s = execPllRelock d s := rfl

/-- An event of a channel in service acts on it. -/
theorem inChan_of_up {c : Nat} (f : State → State) (hup : s.up c = true) : inChan s c f = f s := if_pos hup

/-! ### The epoch boundary changes registers and districts only (R455, R461, R462, R466) -/

theorem wakes_lendStep (s : State) (ch d : Nat) : Wakes s (lendStep s ch d) :=
  .ite (((Wakes.refl s).fset _ _ _ _).setDist _ _ _) (.refl s)

theorem wakes_targetStep (s : State) (ch d : Nat) : Wakes s (targetStep s ch d) := by
  unfold targetStep
  split
  · exact .ite (.refl s) ((((Wakes.refl s).setDist _ _ _).fset _ _ _ _).fset _ _ _ _)
  · exact .refl s

theorem wakes_thermalStep (s : State) (ch d : Nat) : Wakes s (thermalStep s ch d) :=
  .ite ((Wakes.refl s).setDist _ _ _) (.ite ((Wakes.refl s).setDist _ _ _) (.refl s))

theorem wakes_capStep (s : State) (ch d alloc vnext : Nat) : Wakes s (capStep s ch d alloc vnext) :=
  .ite ((Wakes.refl s).setDist _ _ _) (.ite ((Wakes.refl s).setDist _ _ _) (.refl s))

theorem wakes_applyChannel (s : State) (ch : Nat) : Wakes s (applyChannel s ch) :=
  Wakes.foldl (fun s d => wakes_applyCaps s ch d) _ (.refl s)

theorem exec_powerEpoch_of_up (draws vnext : List Nat) (uncore : Nat) (hup : s.up ch = true) :
    ∃ t, exec (.powerEpoch ch draws uncore vnext) s = .next t ∧ Wakes s t := by
  rw [exec_powerEpoch, execPowerEpoch, inChan_of_up _ hup]
  refine ⟨_, rfl, Wakes.fset (Wakes.trans ?_ (wakes_applyChannel _ _)) _ _ _ _⟩
  refine Wakes.foldl (fun s e => ?alloc) _ (.fset (.foldl (fun s e => ?lend) _ (.foldl (fun s e => ?draw) _
    (.fset (.refl s) _ _ _ _))) _ _ _ _)
  case draw => exact (Wakes.refl s).fset _ _ _ _
  case lend => exact (wakes_targetStep s _ e).trans (wakes_lendStep _ _ e)
  case alloc =>
    have hset := (Wakes.refl s).fset Fld.DST_PWRSTAT_ALLOC (dstLoc ch e) 0
    exact ((Wakes.ite (hset _) ((hset _).trans (wakes_capStep _ _ _ _ _))).trans (wakes_thermalStep _ _ _)).setDist _ _ _

/-! ### Operating points -/

/-- A slew ends at the new point, with the voltage held between the codes of 650 mV and 950 mV (R452, R456). -/
theorem exec_avfsEvaluation_of_live (code : Nat) (hup : s.up d.ch = true) (hlive : liveAvfs s d.ch d.d = true) :
    ∃ u, exec (.avfsEvaluation d code true) s = .next u ∧
      u.fget Fld.DST_VFLIVE_F_NOW (dstLoc d.ch d.d) = s.fget Fld.DST_VFLIVE_F_CAP (dstLoc d.ch d.d) ∧
      u.fget Fld.DST_VFLIVE_V_NOW (dstLoc d.ch d.d) = max 10 (min 70 code) ∧
      u.fget Fld.DST_VFLIVE_SLEW (dstLoc d.ch d.d) = 0 := by
  have hcap : s.fget Fld.DST_VFLIVE_F_CAP (dstLoc d.ch d.d) < 2 ^ 7 := bits_lt ..
  have hcode : max 10 (min 70 code) < 2 ^ 7 := by omega
  rw [exec_avfsEvaluation, execAvfsEvaluation, inChan_of_up _ hup]
  simp only [hlive, Bool.not_true, Bool.and_false, Bool.false_eq_true, if_false]
  refine ⟨_, rfl, ?freq, ?volt, ?slew⟩
  case freq =>
    rw [fget_fset_field _ _ _ _ _ _ (fits_of_le (by decide)) (by rfl) (by decide),
      fget_fset_field _ _ _ _ _ _ (fits_of_le (by decide)) (by rfl) (by decide),
      fget_fset_field _ _ _ _ _ _ (fits_of_le (by decide)) (by rfl) (by decide),
      fget_fset_same _ _ _ _ _ (fits_of_le (by decide))]
    exact Nat.mod_eq_of_lt hcap
  case volt =>
    rw [fget_fset_field _ _ _ _ _ _ (fits_of_le (by decide)) (by rfl) (by decide),
      fget_fset_field _ _ _ _ _ _ (fits_of_le (by decide)) (by rfl) (by decide),
      fget_fset_same _ _ _ _ _ (fits_of_le (by decide))]
    exact Nat.mod_eq_of_lt hcode
  case slew =>
    rw [fget_fset_field _ _ _ _ _ _ (fits_of_le (by decide)) (by rfl) (by decide), fget_fset_same _ _ _ _ _ (fits_of_le (by decide))]
    rfl

/-- A target in range waits for the next epoch boundary (R455). -/
theorem exec_dstVftgtCommit_of_valid {t : State} (ht : dropHalf s r = t) (ho : Slice0.Open s r (.dst d))
    (hm : maySup t r = true) (hlo : 36 ≤ t.fget Fld.DST_VFTGT_F_TGT (dstLoc d.ch d.d))
    (hhi : t.fget Fld.DST_VFTGT_F_TGT (dstLoc d.ch d.d) ≤ 84) (hw : t.fget Fld.DST_VFTGT_WEIGHT (dstLoc d.ch d.d) ≠ 0)
    (hv : t.fbit Fld.DST_VFTGT_AVFS (dstLoc d.ch d.d) = true ∨
      (10 ≤ t.fget Fld.DST_VFTGT_V_FIX (dstLoc d.ch d.d) ∧ t.fget Fld.DST_VFTGT_V_FIX (dstLoc d.ch d.d) ≤ 70)) :
    exec (.dstVftgtCommit r d) s = .next ((t.setDist d.ch d.d fun x =>
      { x with pend := some (bits (t.regN .DST_VFTGT (dstLoc d.ch d.d)) 0 24) }).fset
      Fld.DST_VFLIVE_PENDING (dstLoc d.ch d.d) 0 1) := by
  have hfreq : ¬(t.fget Fld.DST_VFTGT_F_TGT (dstLoc d.ch d.d) < 36 ∨ 84 < t.fget Fld.DST_VFTGT_F_TGT (dstLoc d.ch d.d)) := by
    omega
  have hvolt : (!t.fbit Fld.DST_VFTGT_AVFS (dstLoc d.ch d.d) && decide (t.fget Fld.DST_VFTGT_V_FIX (dstLoc d.ch d.d) < 10 ∨
      70 < t.fget Fld.DST_VFTGT_V_FIX (dstLoc d.ch d.d))) = false := by
    rcases hv with hon | ⟨hvlo, hvhi⟩
    · rw [hon]; rfl
    · rw [decide_eq_false (by omega), Bool.and_false]
  rw [exec_dstVftgtCommit, execDstVftgtCommit, rowGate_of_open _ ho, ht]
  dsimp only
  rw [hm, decide_eq_false hfreq, decide_eq_false hw, hvolt]
  rfl

/-- A district that relocks runs again, unless it is still to slew (R456, R470). -/
theorem exec_pllRelock_of_lost (hup : s.up d.ch = true) (hlost : (s.dist d.ch d.d).pllLost = true) :
    exec (.pllRelock d) s =
      .next ((s.setDist d.ch d.d fun x => { x with pllLost := false }).fset Fld.DST_VFLIVE_LOCK (dstLoc d.ch d.d) 0
        (ofBit (!s.fbit Fld.DST_VFLIVE_SLEW (dstLoc d.ch d.d)))) := by
  rw [exec_pllRelock, execPllRelock, inChan_of_up _ hup]
  exact congrArg _ (if_pos hlost)

/-! ### Reports leave the districts -/

@[simp] theorem setWords_dists (s r loc idx k) : (State.setWords s r loc idx k).dists = s.dists := by
  fun_induction State.setWords s r loc idx k <;> simp_all

theorem dists_ite (p : Prop) [Decidable p] (a b : State) : (if p then a else b).dists = if p then a.dists else b.dists :=
  apply_ite ..

@[simp] theorem dlyRecord_dists (s ch src code cl arg0 arg1) :
    (dlyRecord s ch src code cl arg0 arg1).dists = s.dists := by
  simp [dlyRecord, dists_ite]

@[simp] theorem alertPin_dists (s arrived) : (alertPin s arrived).dists = s.dists := by simp [alertPin, dists_ite]
@[simp] theorem mgmtEvent_dists (s kind data) : (mgmtEvent s kind data).dists = s.dists := by
  simp [mgmtEvent, queuedField, dists_ite]
@[simp] theorem faultPin_dists (s) : (faultPin s).dists = s.dists := by simp [faultPin, dists_ite]
@[simp] theorem pend_dists (s f) : (pend s f).dists = s.dists := by simp [pend]
@[simp] theorem logRec_dists (s src rec) : (logRec s src rec).dists = s.dists := by simp [logRec, hubLog, dists_ite]

@[simp] theorem faultRecord_dists (s src time code ty cls act cl unit loc level sec) :
    (faultRecord s src time code ty cls act cl unit loc level sec).dists = s.dists := by
  simp [faultRecord, dists_ite]

/-- A lost lock stays noted after its report (R470). -/
theorem exec_pllLockLoss_of_up (hup : s.up d.ch = true) :
    ∃ u, exec (.pllLockLoss d) s = .next u ∧ (u.dist d.ch d.d).pllLost = true ∧ u.mem = s.mem := by
  have hlost : ∀ t : State, t.dists = (s.setDist d.ch d.d fun x => { x with pllLost := true }).dists →
      (t.dist d.ch d.d).pllLost = true := fun t ht => by
    rw [State.dist, ht]
    exact congrArg District.pllLost (dist_setDist_same ..)
  rw [exec_pllLockLoss, execPllLockLoss, inChan_of_up _ hup]
  exact ⟨_, rfl, hlost _ (by simp), by simp⟩

/-! ### Budgets, temperature and the throttle pin -/

/-- A new budget waits for the boundary (R459). -/
theorem exec_grantBoundary_of_pend {b res : Nat} {ws : List Nat} (h : s.hub.budgetPend = some (b, res, ws)) :
    exec .grantBoundary s = .next (sendGrants
      ((({ s with hub := { s.hub with budgetPend := none, weights := ws } } : State).fset
        Fld.HUB_PWRLIVE_BUDGET 0 0 b).fset Fld.HUB_PWRLIVE_RESERVE 0 0 res)) := by
  simp only [exec_grantBoundary, execGrantBoundary, h]

/-- A budget in range is taken for the next boundary (R458). -/
theorem exec_hubPwrbudgetCommit_of_valid {t : State} {ws : List Nat} (ht : dropHalf s r = t)
    (hws : ((List.range 4).map fun i => bits (t.regN .HUB_PWRSHAREn 0 i) 0 8) = ws)
    (ho : Slice0.HostOpen s r) (hm : mayHub r = true)
    (hmax : t.fget Fld.HUB_PWRBUDGET_BUDGET ≤ t.fget Fld.HUB_CAPS_MAX_POWER_W)
    (hlo : 20 ≤ t.fget Fld.HUB_PWRBUDGET_RESERVE) (hhi : t.fget Fld.HUB_PWRBUDGET_RESERVE ≤ 100)
    (hshare : ∀ c ∈ t.liveChs, ws.getD c 0 ≠ 0)
    (hsum : t.fget Fld.HUB_PWRBUDGET_RESERVE + 100 * t.liveChs.length ≤ t.fget Fld.HUB_PWRBUDGET_BUDGET) :
    exec (.hubPwrbudgetCommit r) s = .next { t with hub := { t.hub with
      budgetPend := some (t.fget Fld.HUB_PWRBUDGET_BUDGET, t.fget Fld.HUB_PWRBUDGET_RESERVE, ws) } } := by
  have hany : (t.liveChs.any fun c => decide (ws.getD c 0 = 0)) = false :=
    List.any_eq_false.2 fun c hc => by rw [decide_eq_false (hshare c hc)]; exact Bool.false_ne_true
  have hres : ¬(t.fget Fld.HUB_PWRBUDGET_RESERVE < 20 ∨ 100 < t.fget Fld.HUB_PWRBUDGET_RESERVE) := by omega
  rw [exec_hubPwrbudgetCommit, execHubPwrbudgetCommit, hostGate_of_open _ ho, ht]
  dsimp only
  rw [hws, hm, decide_eq_false (Nat.not_lt.2 hmax), decide_eq_false hres, hany, decide_eq_false (Nat.not_lt.2 hsum)]
  rfl

/-- A write that allows lending shows in the register (R463). -/
theorem exec_chPwrcfgWrite_of_on (ho : Slice0.Open s r (.ch ch)) (hm : maySup (dropHalf s r) r = true)
    (hon : v.toNat % 2 = 1) : exec (.chPwrcfgWrite r ch v) s = .next ((dropHalf s r).fset Fld.CH_PWRCFG_LEND ch 0 1) := by
  rw [exec_chPwrcfgWrite, execChPwrcfgWrite, rowGate_of_open _ ho, if_pos hm]
  dsimp only
  rw [hon]
  exact congrArg _ (if_pos rfl)

/-- A temperature below 105 °C is shown (R466). -/
theorem exec_thermalSample_of_cool {temp : Nat} (hup : s.up d.ch = true) (hcool : temp < 840) :
    let t := s.fset Fld.DST_PWRSTAT_TEMP (dstLoc d.ch d.d) 0 temp
    exec (.thermalSample d temp) s = .next (t.fset Fld.HUB_THERMSTAT_HOTTEST 0 0 (hottest t)) := by
  intro t
  rw [exec_thermalSample, execThermalSample, inChan_of_up _ hup]
  exact congrArg _ (if_neg (Nat.not_le.2 hcool))

/-- The pin goes low (R467). -/
theorem exec_throttleNEdge_of_high (hpin : s.fbit Fld.HUB_THROTTLE_PIN = false) :
    exec (.throttleNEdge true) s = .next (s.fset Fld.HUB_THROTTLE_PIN 0 0 1) := by
  simp only [exec_throttleNEdge, execThrottleNEdge, hpin]
  rfl

/-- An assertion that has lasted is accepted, and caps every district (R467). -/
theorem exec_throttleFilterExpiry_of_low (hpin : s.fbit Fld.HUB_THROTTLE_PIN = true)
    (hact : s.fbit Fld.HUB_THROTTLE_ACTIVE = false) : exec .throttleFilterExpiry s =
    .next (applyAll ((s.fset Fld.HUB_THROTTLE_ACTIVE 0 0 1).fadd Fld.HUB_THROTTLE_ACCEPTED 0 0 1)) := by
  simp only [exec_throttleFilterExpiry, execThrottleFilterExpiry, hpin, hact]
  rfl

/-! ### Pulses -/

/-- A first pulse with no load armed is stamped and goes to every live channel (R468). -/
theorem exec_syncInPulse_of_first (hlast : s.hub.lastPulse = none) (harm : s.fbit Fld.HUB_SYNCCTRL_ARMLOAD = false) :
    ∃ u, exec (.syncInPulse time) s = .next u ∧
      u.fget Fld.HUB_SYNCSTAMP_STAMP = (time.toNat + s.hub.podOff) % 2 ^ 64 ∧ u.hub.lastPulse = some time.toNat ∧
      u.hub.syncNotices = s.liveChs ∧ u.mem = s.mem := by
  let t := (s.fset Fld.HUB_SYNCSTAMP_STAMP 0 0 ((time.toNat + s.hub.podOff) % 2 ^ 64)).finc Fld.HUB_SYNCIN_ACCEPTED 0 0 1
  have hreg : ∀ g : Fld, g.reg.ctorIdx ≠ Reg.HUB_SYNCIN.ctorIdx → g.reg.ctorIdx ≠ Reg.HUB_SYNCSTAMP.ctorIdx →
      t.fget g = s.fget g := fun g h1 h2 => (fget_fset_reg _ _ _ _ h1).trans (fget_fset_reg _ _ _ _ h2)
  have harm' : t.fbit Fld.HUB_SYNCCTRL_ARMLOAD = false := by
    rw [State.fbit, hreg _ (by decide) (by decide)]; exact harm
  have hstamp : t.fget Fld.HUB_SYNCSTAMP_STAMP = (time.toNat + s.hub.podOff) % 2 ^ 64 :=
    calc t.fget Fld.HUB_SYNCSTAMP_STAMP
      _ = (s.fset Fld.HUB_SYNCSTAMP_STAMP 0 0 ((time.toNat + s.hub.podOff) % 2 ^ 64)).fget Fld.HUB_SYNCSTAMP_STAMP :=
        fget_fset_reg _ _ _ _ (by decide)
      _ = (time.toNat + s.hub.podOff) % 2 ^ 64 % 2 ^ 64 := fget_fset_same _ _ _ _ _ (fits_of_le (by decide))
      _ = (time.toNat + s.hub.podOff) % 2 ^ 64 := Nat.mod_mod ..
  have hlive : t.liveChs = s.liveChs := congrArg (List.filter · (List.range 4)) <| funext fun c => by
    rw [State.chLive, hreg _ (by decide) (by decide), State.chLive]
  refine ⟨{ t with hub := { t.hub with lastPulse := some time.toNat, syncNotices := t.liveChs } }, ?_, hstamp, rfl, hlive, rfl⟩
  simp only [exec_syncInPulse, execSyncInPulse, hlast, if_true]
  exact congrArg (fun w : State => Host.Outcome.next
    { w with hub := { w.hub with lastPulse := some time.toNat, syncNotices := w.liveChs } }) (if_neg (ne_true_of_eq_false harm'))

/-- A pulse within 100 µs of the last one is counted and ignored (R468). -/
theorem exec_syncInPulse_of_soon {p : Nat} (hlast : s.hub.lastPulse = some p) (hsoon : time.toNat < p + 10000) :
    exec (.syncInPulse time) s = .next (s.fadd Fld.HUB_SYNCIN_SYNC_OVERRUN 0 0 1) := by
  simp only [exec_syncInPulse, execSyncInPulse, hlast, decide_eq_false (Nat.not_le.2 hsoon)]
  rfl

/-- A load of the pod's time is armed (R468, R471). -/
theorem exec_hubSyncctrlArmload_of_open (ho : Slice0.HostOpen s r) (hm : mayHub r = true) :
    exec (.hubSyncctrlArmload r) s = .next ((dropHalf s r).fset Fld.HUB_SYNCCTRL_ARMLOAD 0 0 1) := by
  rw [exec_hubSyncctrlArmload, execHubSyncctrlArmload, hostGate_of_open _ ho, if_pos hm]

end PowerControl

/-- Settles O31: every command of the power manager whose conditions hold does what its clause says. -/
theorem powerCommandsComplete : Obligations.PowerCommandsComplete := by
  unfold Obligations.PowerCommandsComplete
  refine ⟨fun s ch draws u v hup => ?epoch, fun s b r ws h => exec_grantBoundary_of_pend h,
    fun s d v => exec_avfsEvaluation_of_live v, fun s d hup => congrArg _ (inChan_of_up _ hup),
    fun s r d => exec_dstVftgtCommit_of_valid rfl, fun s r => exec_hubPwrbudgetCommit_of_valid rfl rfl,
    fun s r ch v => exec_chPwrcfgWrite_of_on, fun s d temp => exec_thermalSample_of_cool,
    fun s => exec_throttleNEdge_of_high, fun s => exec_throttleFilterExpiry_of_low, fun s time => exec_syncInPulse_of_first,
    fun s time p => exec_syncInPulse_of_soon, fun s r => exec_hubSyncctrlArmload_of_open,
    fun s d => exec_pllLockLoss_of_up, fun s d => exec_pllRelock_of_lost⟩
  case epoch =>
    obtain ⟨t, ht, regs, dists, rfl⟩ := exec_powerEpoch_of_up draws v u hup
    exact ⟨_, ht, rfl, rfl⟩

end Sys2Proof.Machine

/-! The fault controllers and the hub's monitors (R470, R473 to R480, R483, R488, R491, R493, R549, R556, R560): what a command
whose conditions hold does, then the obligation. -/

namespace Sys2Proof.Machine

section Faults

variable {s : State} {r : Requester} {ch : Ch} {e : FaultEv}

theorem exec_faultEvent : exec (.faultEvent e) s = execFaultEvent e s := rfl
theorem exec_repairCopyDone : exec (.repairCopyDone ch) s = execRepairCopyDone ch s := rfl
theorem exec_heartbeatTimeout : exec (.heartbeatTimeout ch) s = execHeartbeatTimeout ch s := rfl
theorem exec_pllRelockTimeout {d : DistId} : exec (.pllRelockTimeout d) s = execPllRelockTimeout d s := rfl
theorem exec_hubWatchdogExpiry : exec .hubWatchdogExpiry s = execHubWatchdogExpiry s := rfl
theorem exec_chFinjArm : exec (.chFinjArm r ch) s = execChFinjArm r ch s := rfl
theorem exec_thermalTrip {src unit : Nat} : exec (.thermalTrip src ch unit) s = execThermalTrip src ch unit s := rfl
theorem exec_supplySample {i uv ov : Nat} : exec (.supplySample i uv ov) s = execSupplySample i uv ov s := rfl

/-- A channel in service works outside keeper mode (R27). -/
theorem phase_ne_keeper_of_up {c : Nat} (hup : s.up c = true) : s.hub.phase ≠ .keeper :=
  of_decide_eq_true (Bool.and_eq_true_iff.1 hup).2

/-- A channel in service is live. -/
theorem chLive_of_up {c : Nat} (hup : s.up c = true) : s.chLive c = true := (Bool.and_eq_true_iff.1 hup).1

/-! ### Fault events -/

/-- The state in which an event adds its points: its counts are raised and what it ends is ended. -/
def faultSeen (s : State) (e : FaultEv) : State :=
  (injDone (granuleFix (depotErr s e) e) e.src e.ty e.cluster).setFc e.src fun f =>
    { f with count := SMap.put f.count e.ty (SMap.get 0 f.count e.ty + 1) }

/-- An event that neither overflows its bucket nor makes its location permanent is transient: its record is written and nothing
else is done for it (R473 to R477). -/
theorem faultCore_of_transient {t u : State} {lv : Nat} (hlive : e.src.val < 4 → s.chLive e.src = true)
    (hbucket : bucketAdd (faultSeen s e) e.src e.ty e.cluster e.unit (evPoints e.kind) = (t, false, lv))
    (hloc : locEvent t e.src e.ty e.loc.toNat e.time.toNat e.kind = (u, false)) (hkind : e.kind ≠ .persistent)
    (hact : evAction e.kind < 4) :
    faultCore s e = (faultRecord u e.src e.time.toNat (evCode e.kind) e.ty clsTransient (evAction e.kind) e.cluster e.unit
      e.loc.toNat lv (if e.src.val < 4 ∧ e.cluster.val < 96 then clSection s e.src e.cluster else 0),
      clsTransient, evAction e.kind) := by
  have hseen : 4 ≤ e.src.val ∨ s.chLive e.src = true := (Nat.lt_or_ge e.src.val 4).symm.imp_right hlive
  rw [faultSeen] at hbucket
  have hne : evAction e.kind ≠ 13 := by omega
  simp only [faultCore, if_pos hseen, hbucket, hloc, hkind, Bool.false_eq_true, if_false, if_true, false_and, and_false,
    decide_false, Nat.not_le.2 hact, if_neg (show ¬(5 ≤ evAction e.kind ∧ evAction e.kind ≤ 10) by omega), hne]

theorem exec_faultEvent_of_transient {t u : State} {lv : Nat} (hlive : e.src.val < 4 → s.chLive e.src = true)
    (hphase : s.hub.phase ≠ .keeper)
    (hbucket : bucketAdd (faultSeen s e) e.src e.ty e.cluster e.unit (evPoints e.kind) = (t, false, lv))
    (hloc : locEvent t e.src e.ty e.loc.toNat e.time.toNat e.kind = (u, false)) (hkind : e.kind ≠ .persistent)
    (hact : evAction e.kind < 4) :
    exec (.faultEvent e) s = .next (faultRecord u e.src e.time.toNat (evCode e.kind) e.ty clsTransient (evAction e.kind)
      e.cluster e.unit e.loc.toNat lv (if e.src.val < 4 ∧ e.cluster.val < 96 then clSection s e.src e.cluster else 0)) := by
  have hdead : ¬(e.src.val < 4 ∧ (!s.chLive e.src) = true) := fun ⟨hsrc, hoff⟩ => by simp [hlive hsrc] at hoff
  have hgone : ¬((e.src.val < 4 ∧ (!s.chLive e.src) = true ∧ (!s.retired e.src) = true) ∨ s.hub.phase = .keeper) :=
    not_or.2 ⟨fun ⟨hsrc, hoff, _⟩ => hdead ⟨hsrc, hoff⟩, hphase⟩
  rw [exec_faultEvent, execFaultEvent, faultTake, if_neg hgone, faultCore_of_transient hlive hbucket hloc hkind hact]
  dsimp only
  rw [if_neg hdead, if_neg (fun h => h.2.2.1 rfl)]

/-! ### Repairs, retirement and the hub's monitors -/

/-- The oldest repair of a channel ends, and its location has its spare (R480). -/
theorem exec_repairCopyDone_of_running {p : Repair} {rest : List Repair} (hup : s.up ch = true)
    (h : (s.fc ch).repairs = p :: rest) : ∃ u, exec (.repairCopyDone ch) s = .next u ∧ (u.fc ch).repairs = rest ∧
      (u.fc ch).repaired = (s.fc ch).repaired ++ [p.loc] ∧ u.mem = s.mem := by
  simp only [exec_repairCopyDone, execRepairCopyDone, inChan_of_up _ hup, h]
  refine ⟨_, rfl, ?_⟩
  split
  · have hfc : ∀ (t : State) (l v : Nat), (t.setReg .CL_DEPSPARE l 0 v).fc ch = t.fc ch := fun _ _ _ => rfl
    simp [hfc]
  · simp

/-- A lost heartbeat retires the channel (R483). -/
theorem exec_heartbeatTimeout_of_up (hup : s.up ch = true) :
    exec (.heartbeatTimeout ch) s = .next (retireChannel s ch cChannelRetired) := by
  rw [exec_heartbeatTimeout, execHeartbeatTimeout, inChan_of_up _ hup, if_neg (phase_ne_keeper_of_up hup)]

/-- A clock that does not come back retires the channel (R470, R477). -/
theorem exec_pllRelockTimeout_of_lost {d : DistId} (hlost : (s.dist d.ch d.d).pllLost = true) (hup : s.up d.ch = true) :
    exec (.pllRelockTimeout d) s =
      .next (retireChannel ((faultRecord s d.ch s.now (openCode 1) 14 clsUnit 11 127 d.d 0 0 0).took) d.ch cChannelRetired) := by
  rw [exec_pllRelockTimeout, execPllRelockTimeout, inChan_of_up _ hup, if_pos ⟨hlost, chLive_of_up hup⟩]

/-- The first expiry of the watchdog is counted (R488). -/
theorem exec_hubWatchdogExpiry_of_first (h : s.hub.watchdog = 0) :
    exec .hubWatchdogExpiry s = .next { s with hub := { s.hub with watchdog := 1 } } := by
  simp only [exec_hubWatchdogExpiry, execHubWatchdogExpiry, h]
  rfl

/-- An injection in the HBM of a channel is armed (R493). -/
theorem exec_chFinjArm_of_hbm (ho : Slice0.Open s r (.ch ch)) (hm : maySup (dropHalf s r) r = true)
    (hty : s.fget Fld.CH_FINJ_TYPE ch = 7) : exec (.chFinjArm r ch) s = .next ((dropHalf s r).fset Fld.CH_FINJ_ARM ch 0 1) := by
  have hty' : (dropHalf s r).fget Fld.CH_FINJ_TYPE ch = 7 := hty
  simp only [exec_chFinjArm, execChFinjArm, rowGate_of_open _ ho, hm, hty']
  rfl

/-- The first trip shows where it is and enters keeper mode with the cause that stands (R560). -/
theorem exec_thermalTrip_of_first {src unit : Nat} (hpin : s.hub.thermtripN = false) (hphase : s.hub.phase ≠ .keeper) :
    exec (.thermalTrip src ch unit) s = .next (let t := ((((s.fset Fld.HUB_THERMSTAT_TRIP 0 0 1).fset
      Fld.HUB_THERMSTAT_SRC 0 0 src).fset Fld.HUB_THERMSTAT_CH 0 0 ch).fset Fld.HUB_THERMSTAT_UNIT 0 0 unit)
    keeperEnter { t with hub := { t.hub with thermtripN := true } } (t.fget Fld.NV_BOOTSTAT_KCAUSE) cThermal 13 false) := by
  rw [exec_thermalTrip, execThermalTrip, if_neg (ne_true_of_eq_false hpin)]
  exact congrArg _ (if_neg hphase)

/-- Rails out of range stay shown until they are cleared (R549). -/
theorem exec_supplySample_or (s : State) (i uv ov : Nat) : ∃ u, exec (.supplySample i uv ov) s = .next u ∧
    u.fget Fld.HUB_SUPPLYSTAT_UV = s.fget Fld.HUB_SUPPLYSTAT_UV ||| uv % 2 ^ 11 ∧
    u.fget Fld.HUB_SUPPLYSTAT_OV = s.fget Fld.HUB_SUPPLYSTAT_OV ||| ov % 2 ^ 11 := by
  have hor : ∀ f : Fld, f.w = 11 → ∀ n, s.fget f ||| n % 2 ^ 11 < 2 ^ 11 := fun f hf n =>
    Nat.or_lt_two_pow (hf ▸ bits_lt ..) (Nat.mod_lt _ (Nat.two_pow_pos 11))
  rw [exec_supplySample, execSupplySample]
  refine ⟨_, rfl, ?low, ?high⟩
  all_goals dsimp only
  case low =>
    rw [fget_fset_field _ _ _ _ _ _ (fits_of_le (by decide)) (by rfl) (by decide),
      fget_fset_same _ _ _ _ _ (fits_of_le (by decide)),
      fget_fset_field _ _ _ _ _ _ (fits_of_le (by decide)) (by rfl) (by decide)]
    exact Nat.mod_eq_of_lt (hor _ rfl uv)
  case high =>
    rw [fget_fset_same _ _ _ _ _ (fits_of_le (by decide)),
      fget_fset_field _ _ _ _ _ _ (fits_of_le (by decide)) (by rfl) (by decide),
      fget_fset_field _ _ _ _ _ _ (fits_of_le (by decide)) (by rfl) (by decide)]
    exact Nat.mod_eq_of_lt (hor _ rfl ov)

end Faults

/-- Settles O32: every command of the fault controllers and the hub's monitors whose conditions hold does what its clause says. -/
theorem faultCommandsComplete : Obligations.FaultCommandsComplete := by
  unfold Obligations.FaultCommandsComplete
  refine ⟨fun s e hlive hphase hovf hperm hkind hact => ?event, fun _ _ _ _ _ => rfl, fun _ _ => rfl,
    fun s ch p rest => exec_repairCopyDone_of_running, fun _ _ => rfl, fun s ch => exec_heartbeatTimeout_of_up,
    fun s d => exec_pllRelockTimeout_of_lost, fun _ => rfl, fun _ => rfl, fun s => exec_hubWatchdogExpiry_of_first,
    fun _ => rfl, fun s r ch => exec_chFinjArm_of_hbm, fun s src ch unit => exec_thermalTrip_of_first,
    exec_supplySample_or, fun _ => rfl⟩
  case event =>
    exact exec_faultEvent_of_transient hlive hphase (Prod.ext rfl (Prod.ext hovf rfl)) (Prod.ext rfl hperm) hkind hact

end Sys2Proof.Machine

/-! Writers of CH_PWRCFG (R463, R465): districts that stop lending leave the register, then the obligation. -/

namespace Sys2Proof.Machine

section PowerConfig

variable {s : State} {r : Requester} {ch : Ch} {v : Word}

/-- CH_PWRCFG.LEND of a channel. -/
def lendOf (s : State) (ch : Ch) : Nat := s.fget Fld.CH_PWRCFG_LEND ch

theorem lendOf_fset (s : State) (ch : Ch) {f : Fld} {l : Nat} (v : Nat) (hl : l < 2 ^ 24)
    (h : f.reg.ctorIdx ≠ Reg.CH_PWRCFG.ctorIdx) : lendOf (s.fset f l 0 v) ch = lendOf s ch :=
  fget_fset_other _ _ _ _ _ _ _ _ (place_ne _ _ _ _ _ _ (by omega) hl (by decide) (by decide) fun e => h e.1.symm)

theorem dstLoc_lt (ch : Ch) {d : Nat} (hd : d < 6) : dstLoc ch d < 2 ^ 24 := by
  simp only [dstLoc]; omega

theorem lendOf_setDist (s : State) (ch : Ch) (c d : Nat) (f : District → District) :
    lendOf (s.setDist c d f) ch = lendOf s ch := rfl

/-- A fold of steps, each of which leaves the field for the districts of a channel, leaves it. -/
theorem lendOf_foldl (ch : Ch) {f : State → Nat → State} (h : ∀ t, ∀ d < 6, lendOf (f t d) ch = lendOf t ch) (s : State) :
    lendOf ((List.range 6).foldl f s) ch = lendOf s ch :=
  List.foldlRecOn (motive := fun t => lendOf t ch = lendOf s ch) _ _ rfl
    fun t ht d hd => (h t d (List.mem_range.1 hd)).trans ht

theorem lendOf_applyCaps (s : State) (ch : Ch) {d : Nat} (hd : d < 6) : lendOf (applyCaps s ch d) ch = lendOf s ch := by
  have hset : ∀ (t : State) (f : Fld) (v : Nat), f.reg.ctorIdx ≠ Reg.CH_PWRCFG.ctorIdx →
      lendOf (t.fset f (dstLoc ch d) 0 v) ch = lendOf t ch := fun t f v => lendOf_fset t ch v (dstLoc_lt ch hd)
  unfold applyCaps
  dsimp only
  split
  · rw [hset _ _ _ (by decide), hset _ _ _ (by decide)]
  · rw [hset _ _ _ (by decide), hset _ _ _ (by decide), hset _ _ _ (by decide), hset _ _ _ (by decide)]

theorem lendOf_stopLending (s : State) (ch : Ch) {d : Nat} (hd : d < 6) : lendOf (stopLending s ch d) ch = lendOf s ch := by
  unfold stopLending
  split
  · rw [showLenders, lendOf_fset _ _ _ (by omega) (by decide), applyChannel,
      lendOf_foldl ch fun t e he => lendOf_applyCaps t ch he, lendOf_foldl ch fun t e _ => ?back, lendOf_setDist,
      lendOf_fset _ _ _ (dstLoc_lt ch hd) (by decide)]
    case back =>
      split
      · rfl
      · rw [lendOf_setDist]
  · rfl

/-- A write that the rule takes leaves its bit in the register (R465). -/
theorem exec_chPwrcfgWrite_of_may (v : Word) (ho : Slice0.Open s r (.ch ch)) (hm : maySup (dropHalf s r) r = true) :
    ∃ u, exec (.chPwrcfgWrite r ch v) s = .next u ∧ u.fget Fld.CH_PWRCFG_LEND ch = v.toNat % 2 := by
  rw [exec_chPwrcfgWrite, execChPwrcfgWrite, rowGate_of_open _ ho, if_pos hm]
  have hset : lendOf ((dropHalf s r).fset Fld.CH_PWRCFG_LEND ch 0 (v.toNat % 2)) ch = v.toNat % 2 :=
    (fget_fset_same _ _ _ _ _ (fits_of_le (by decide))).trans (Nat.mod_mod ..)
  refine ⟨_, rfl, ?_⟩
  dsimp only
  split
  · exact hset
  · exact (lendOf_foldl ch (fun t d hd => lendOf_stopLending t ch hd) _).trans hset

/-- A write that the rule does not take is discarded (R465). -/
theorem exec_chPwrcfgWrite_of_not_may (v : Word) (ho : Slice0.Open s r (.ch ch)) (hm : maySup (dropHalf s r) r = false) :
    exec (.chPwrcfgWrite r ch v) s = .next (dropHalf s r) := by
  rw [exec_chPwrcfgWrite, execChPwrcfgWrite, rowGate_of_open _ ho, if_neg (ne_true_of_eq_false hm)]

/-- A steward may write what the supervisor rules name exactly when it runs at channel supervisor level. -/
theorem maySup_stw (s : State) (w : StwId) : maySup (dropHalf s (.stw w)) (.stw w) = (Slice0.stwOf s w).prv := by
  have hclu : (clLoc w.c.ch w.c.cl * 2 + w.w.val) / 2 = clLoc w.c.ch w.c.cl := by omega
  have hstw : (clLoc w.c.ch w.c.cl * 2 + w.w.val) % 2 = w.w.val := by omega
  simp only [maySup, stwSup, hclu, hstw, dropHalf_cls]
  rfl

end PowerConfig

/-- Settles O52: the hub, PF0 and supervisor code write the register, other functions and stewards do not. -/
theorem powerConfigWriters : Obligations.PowerConfigWriters := by
  unfold Obligations.PowerConfigWriters
  refine fun s ch v => ⟨fun r ho hr => exec_chPwrcfgWrite_of_may v ho ?may, fun r ho hr =>
    exec_chPwrcfgWrite_of_not_may v ho ?not⟩
  case may =>
    rcases hr with rfl | ⟨f, rfl, hf⟩ | ⟨w, rfl, hw⟩
    · rfl
    · exact decide_eq_true hf
    · rw [maySup_stw, hw]
  case not =>
    rcases hr with ⟨f, rfl, hf⟩ | ⟨w, rfl, hw⟩
    · exact decide_eq_false hf
    · rw [maySup_stw, hw]

end Sys2Proof.Machine

/-! Resets and boot (R498 to R500, R504, R507, R512, R520, R523): what a command whose conditions hold does, then the
obligation. -/

namespace Sys2Proof.Machine

section Boot

variable {s : State} {r : Requester} {ch : Ch} {v : Word}

theorem exec_pwrgdHighStable : exec .pwrgdHighStable s = execPwrgdHighStable s := rfl
theorem exec_hubRstctrlWrite : exec (.hubRstctrlWrite r v) s = execHubRstctrlWrite r v s := rfl
theorem exec_warmReset : exec .warmReset s = execWarmReset s := rfl
theorem exec_romBoot {fa fb : Bool} : exec (.romBoot fa fb) s = execRomBoot fa fb s := rfl
theorem exec_firmwareBringup : exec .firmwareBringup s = execFirmwareBringup s := rfl
theorem exec_fieldReadyTimeout : exec (.fieldReadyTimeout ch) s = execFieldReadyTimeout ch s := rfl
theorem exec_returnedScrubDone : exec .returnedScrubDone s = execReturnedScrubDone s := rfl

/-- A package held in reset boots once its power is good (R499). -/
theorem exec_pwrgdHighStable_of_held (h : s.hub.phase = .held) :
    exec .pwrgdHighStable s = .next { s with hub := { s.hub with phase := .rom, pwrgdLow := false } } := by
  rw [exec_pwrgdHighStable, execPwrgdHighStable, if_pos h]

/-- A warm reset is requested by its key (R500). -/
theorem exec_hubRstctrlWrite_of_key (ho : Slice0.HostOpen s r) (hm : mayHub r = true) (hkey : v.toNat % 2 ^ 16 = 0xB007) :
    exec (.hubRstctrlWrite r v) s = .next { dropHalf s r with hub := { (dropHalf s r).hub with warmReq := true } } := by
  rw [exec_hubRstctrlWrite, execHubRstctrlWrite, hostGate_of_open _ ho, if_pos ⟨hm, hkey⟩]

/-- A requested warm reset is taken once the store is idle (R500). -/
theorem exec_warmReset_of_idle (hreq : s.hub.warmReq = true) (hidle : s.fget Fld.NV_STAT_BUSY = 0)
    (hcool : s.hub.thermtripN = false) : exec .warmReset s = .next (hubReset (portClear s) false) := by
  rw [exec_warmReset, execWarmReset, if_pos ⟨hreq, hidle, by rw [hcool]; rfl⟩]

/-- The ROM shows the selected generation and boots the first slot that passes (R504, R510). -/
theorem exec_romBoot_of_slot {fa fb tie : Bool} {b n : Nat} {t u : State} (hphase : s.hub.phase = .rom)
    (hsel : selectBank (romPrepare s) = (some b, tie)) (ht : romLatch (romPrepare s) (some b) tie = t)
    (hslot : trySlots (curBody t).minsvn fa fb [(curBody t).slot % 2, 1 - (curBody t).slot % 2] t = (u, some n)) :
    exec (.romBoot fa fb) s = .next (romStart u (curBody t).slot n) := by
  rw [exec_romBoot, execRomBoot, if_neg (not_not.2 hphase)]
  simp only [hsel, ht, hslot]
  rfl

/-- The firmware brings up a package whose images pass and which is neither decommissioned nor about to be (R507, R520). -/
theorem exec_firmwareBringup_of_images {t : State} {n : Nat} (ht : latchMode s = t) (hn : t.fget Fld.NV_BOOTSTAT_SLOT = n)
    (hphase : s.hub.phase = .fw) (hjob : s.nv.job = none) (h2 : imageOk t n (manifest t n) 2 = true)
    (h3 : imageOk t n (manifest t n) 3 = true) (hlc : (curBody t).lc ≠ 4) (hpend : (curBody t).penddec ≠ 1) :
    ∃ u, exec .firmwareBringup s = .next u ∧ u.hub.phase = .run ∧ u.nv.scrub = decide ((curBody t).lc = 3) := by
  have hgo : ¬(s.hub.phase ≠ .fw ∨ s.nv.job.isSome = true) := by simp [hphase, hjob]
  rw [exec_firmwareBringup, execFirmwareBringup, if_neg hgo]
  simp only [ht, hn, h2, h3, hlc, hpend, Bool.and_self, Bool.not_true, Bool.false_eq_true, if_false]
  exact ⟨_, rfl, rfl, rfl⟩

/-- A field die that stays silent is held in reset and reported absent (R415, R507). -/
theorem exec_fieldReadyTimeout_of_silent (hphase : s.hub.phase = .run) (hlive : s.chLive ch = true)
    (hsilent : ch.val ∉ s.hub.ready) :
    let t := dropChannel s ch
    let u := t.fset Fld.HUB_CAPS_CH_LIVE 0 0 (putBits (t.fget Fld.HUB_CAPS_CH_LIVE) ch.val 1 0)
    exec (.fieldReadyTimeout ch) s = .next (report3
      { u with hub := { u.hub with released := u.hub.released.filter fun x => !decide (x / 5 = ch.val) } }
      4 cUnitAbsent 0 127 0 0 0) := by
  rw [exec_fieldReadyTimeout, execFieldReadyTimeout, if_pos ⟨hphase, hlive, hsilent⟩]

/-- The scrub of a returned package ends and its debug level rises (R523). -/
theorem exec_returnedScrubDone_of_scrub (h : s.nv.scrub = true) :
    ∃ u, exec .returnedScrubDone s = .next u ∧ u.nv.scrub = false ∧ u.fget Fld.NV_LC_DBGLEVEL = 2 := by
  rw [exec_returnedScrubDone, execReturnedScrubDone, if_pos h]
  exact ⟨_, rfl, rfl, fget_fset_same _ _ _ _ _ (fits_of_le (by decide))⟩

end Boot

/-- Settles O33: every command of the resets and of boot whose conditions hold does what its clause says. -/
theorem bootCommandsComplete : Obligations.BootCommandsComplete := by
  unfold Obligations.BootCommandsComplete
  exact ⟨fun _ => rfl, fun _ _ => rfl, fun s => exec_pwrgdHighStable_of_held, fun s r v => exec_hubRstctrlWrite_of_key,
    fun s => exec_warmReset_of_idle, fun s fa fb b tie u n hphase hsel => exec_romBoot_of_slot hphase hsel rfl,
    fun s => exec_firmwareBringup_of_images rfl rfl, fun s ch => exec_fieldReadyTimeout_of_silent,
    fun s => exec_returnedScrubDone_of_scrub⟩

end Sys2Proof.Machine

/-! The nonvolatile store (R511, R514 to R517, R519 to R521): what a request of a store that is not busy does and how its work
ends, then the obligation. -/

namespace Sys2Proof.Machine

section Store

variable {s t : State} {r : Requester}

theorem exec_nvCtrlCommit : exec (.nvCtrlCommit r) s = execNvCtrlCommit r s := rfl
theorem exec_nvCtrlLcreq : exec (.nvCtrlLcreq r) s = execNvCtrlLcreq r s := rfl
theorem exec_nvCtrlLccancel : exec (.nvCtrlLccancel r) s = execNvCtrlLccancel r s := rfl
theorem exec_nvCtrlFclear : exec (.nvCtrlFclear r) s = execNvCtrlFclear r s := rfl
theorem exec_nvCtrlAuthgo : exec (.nvCtrlAuthgo r) s = execNvCtrlAuthgo r s := rfl
theorem exec_nvGenerationDone {ok : Bool} : exec (.nvGenerationDone ok) s = execNvGenerationDone ok s := rfl
theorem exec_nvEraseDone : exec .nvEraseDone s = execNvEraseDone s := rfl
theorem exec_nvFaultAppend : exec .nvFaultAppend s = execNvFaultAppend s := rfl

/-! ### Requests -/

/-- A store request of a writer of hub registers acts while the store is not busy (R516). -/
theorem nvRequest_of_idle (f : State → State) (ht : dropHalf s r = t) (ho : Slice0.HostOpen s r) (hm : mayHub r = true)
    (hidle : t.fget Fld.NV_STAT_BUSY = 0) : (hostGate s r fun s => nvGuard r s f) = f t := by
  have hmay : ¬(!mayHub r) = true := by rw [hm]; exact Bool.false_ne_true
  rw [hostGate_of_open _ ho, ht, nvGuard, if_neg hmay, if_neg (not_not.2 hidle)]

/-- With a generation in force the next one keeps its life-cycle state. -/
theorem nvKeep_of_cur (kind : Nat) (g : GenBody) (hcur : t.nv.cur ≠ none) : nvKeep t kind g = nvStart t kind g.lc g :=
  if_pos (Option.isSome_iff_ne_none.2 hcur)

section Idle

variable (ht : dropHalf s r = t) (ho : Slice0.HostOpen s r) (hm : mayHub r = true) (hidle : t.fget Fld.NV_STAT_BUSY = 0)

include ht ho hm hidle

/-- A configuration that may be committed starts a generation (R517). -/
theorem exec_nvCtrlCommit_of_ok (hok : cfgOk t = true) :
    exec (.nvCtrlCommit r) s = .next (nvKeep t 2 (withCfg t (curBody t))) := by
  rw [exec_nvCtrlCommit, execNvCtrlCommit, nvRequest_of_idle _ ht ho hm hidle, if_pos hok]

/-- A transition without a signed record, from a state of the store's own to one other than decommissioned (R519). -/
theorem exec_nvCtrlLcreq_of_unsigned (hallow : lcAllowed (curBody t).lc (t.fget Fld.NV_CTRL_LCTGT) = some false)
    (htgt : t.fget Fld.NV_CTRL_LCTGT ≠ 4) (hlc : (curBody t).lc ≠ 0) : exec (.nvCtrlLcreq r) s =
      .next (nvStart t 1 (t.fget Fld.NV_CTRL_LCTGT) { curBody t with lc := t.fget Fld.NV_CTRL_LCTGT }) := by
  rw [exec_nvCtrlLcreq, execNvCtrlLcreq, nvRequest_of_idle _ ht ho hm hidle]
  simp only [hallow, htgt, hlc, Bool.false_eq_true, false_and, if_false]

/-- A pending decommission is withdrawn (R520). -/
theorem exec_nvCtrlLccancel_of_pending (hpend : (curBody t).penddec = 1) :
    exec (.nvCtrlLccancel r) s = .next (nvStart t 1 (curBody t).lc { curBody t with penddec := 0 }) := by
  rw [exec_nvCtrlLccancel, execNvCtrlLccancel, nvRequest_of_idle _ ht ho hm hidle, if_pos hpend]

/-- The fault record is cleared by a generation of the next epoch (R515). -/
theorem exec_nvCtrlFclear_of_idle :
    exec (.nvCtrlFclear r) s = .next (nvKeep t 4 { curBody t with recs := [], epoch := (curBody t).epoch + 1 }) := by
  rw [exec_nvCtrlFclear, execNvCtrlFclear, nvRequest_of_idle _ ht ho hm hidle]

/-- An authorisation for another die is refused, and the challenge is new (R521). -/
theorem exec_nvCtrlAuthgo_of_foreign (hdie : leNat ((authBytes t).take 8) ≠ t.regN .NV_DIEID) :
    exec (.nvCtrlAuthgo r) s = .next (nvCode (newChallenge t) cRptViolation) := by
  rw [exec_nvCtrlAuthgo, execNvCtrlAuthgo, nvRequest_of_idle _ ht ho hm hidle]
  simp only [List.drop_zero, decide_eq_false hdie, Bool.false_and, Bool.not_false, if_true]

end Idle

/-! ### Work of the store ends -/

/-- A generation that could not be written leaves its bank erased (R511; log entry 78). -/
theorem exec_nvGenerationDone_of_failed {j : NvJob} (h : s.nv.job = some j) : exec (.nvGenerationDone false) s =
    .next (idleBusy (nvCode (fErase { s with nv := { s.nv with job := none } } (bankAt j.bank) 0x10000) cNvStore)) := by
  simp only [exec_nvGenerationDone, execNvGenerationDone, h]
  rfl

/-- What programming the flash leaves: the hub and the store's job. -/
def SameJob (s t : State) : Prop := t.hub = s.hub ∧ t.nv.job = s.nv.job

theorem SameJob.trans {s t u : State} (h : SameJob s t) (k : SameJob t u) : SameJob s u :=
  ⟨k.1.trans h.1, k.2.trans h.2⟩

theorem sameJob_fProg (s : State) (a : Nat) (bs : List Byte) : SameJob s (fProg s a bs) := by
  induction bs generalizing s a with
  | nil => exact ⟨rfl, rfl⟩
  | cons b bs ih => exact SameJob.trans ⟨rfl, rfl⟩ (ih _ _)

theorem SameJob.ite {s t u : State} {p : Prop} [Decidable p] (h : SameJob s t) (k : SameJob s u) :
    SameJob s (if p then t else u) := by
  split
  · exact h
  · exact k

theorem sameJob_nvProgram (s : State) (j : NvJob) (upto : Nat) : SameJob s (nvProgram s j upto) := by
  have hprog : ∀ {t : State} (a : Nat) (bs : List Byte), SameJob s t → SameJob s (fProg t a bs) :=
    fun a bs h => h.trans (sameJob_fProg _ a bs)
  have herase : SameJob s (if fBlank s (bankAt j.bank) 0x10000 then s else fErase s (bankAt j.bank) 0x10000) :=
    .ite ⟨rfl, rfl⟩ ⟨rfl, rfl⟩
  have hintent := SameJob.ite (p := 1 ≤ upto) (hprog (bankAt j.bank) (intentBytes j) herase) herase
  have hseal := SameJob.ite (p := 2 ≤ upto)
    (hprog (bankAt j.bank + 0xFF00) (sealBytes j) (hprog (bankAt j.bank + 0x100) j.body hintent)) hintent
  exact .ite (hprog _ _ hseal) hseal

/-- What a report of the store leaves: the hub and the store itself. -/
def SameStore (s t : State) : Prop := t.hub = s.hub ∧ t.nv = s.nv

theorem SameStore.trans {s t u : State} (h : SameStore s t) (k : SameStore t u) : SameStore s u :=
  ⟨k.1.trans h.1, k.2.trans h.2⟩

theorem SameStore.fset {s t : State} (h : SameStore s t) (f : Fld) (l i v : Nat) : SameStore s (t.fset f l i v) :=
  h.trans ⟨rfl, rfl⟩

theorem sameStore_mgmtEvent (s : State) (kind data : Nat) : SameStore s (mgmtEvent s kind data) := by
  simp only [mgmtEvent, alertPin]
  (repeat' split) <;> exact ⟨rfl, rfl⟩

theorem sameStore_showStore (s : State) : SameStore s (showStore s) := by
  simp only [showStore]
  split <;> exact ⟨rfl, rfl⟩

/-- The report of a generation written: its registers, its event and what `BUSY` reads next (R511, R532). -/
def reported (s : State) (j : NvJob) : State :=
  let s := showRecords (nvCode (showStore s) cNone)
  idleBusy (if j.kind = 1 then mgmtEvent (s.fset Fld.NV_LC_DBGLEVEL 0 0 0) evLife j.toLc else s)

theorem sameStore_reported (s : State) (j : NvJob) : SameStore s (reported s j) := by
  have hevent : ∀ t : State, SameStore t
      (if j.kind = 1 then mgmtEvent (t.fset Fld.NV_LC_DBGLEVEL 0 0 0) evLife j.toLc else t) := fun t => by
    split
    · exact SameStore.trans ⟨rfl, rfl⟩ (sameStore_mgmtEvent _ _ _)
    · exact ⟨rfl, rfl⟩
  have hcode : SameStore s (nvCode (showStore s) cNone) := (sameStore_showStore s).fset _ _ _ _
  have hshow : SameStore s (showRecords (nvCode (showStore s) cNone)) := hcode.fset _ _ _ _
  exact (hshow.trans (hevent _)).fset _ _ _ _

/-- A programmed bank is current, and what it replaces waits for its erase (R511). -/
def install (p : State) (b : Nat) (er : List NvErase) : State :=
  { p with nv := { p.nv with cur := some b, erases := p.nv.erases ++ er } }

/-- The store once a generation is programmed. -/
def programmed (s : State) (j : NvJob) : State :=
  let t : State := { s with nv := { s.nv with job := none } }
  install (nvProgram t j 3) j.bank
    (t.nv.cur.toList.map NvErase.bank ++ if j.kind = 3 then [NvErase.half ((curBody t).epoch % 2)] else [])

theorem sameJob_install (p : State) (b : Nat) (er : List NvErase) : SameJob p (install p b er) := ⟨rfl, rfl⟩

theorem install_cur (p : State) (b : Nat) (er : List NvErase) : (install p b er).nv.cur = some b := rfl

theorem sameJob_programmed (s : State) (j : NvJob) : SameJob { s with nv := { s.nv with job := none } } (programmed s j) :=
  (sameJob_nvProgram _ j 3).trans (sameJob_install _ _ _)

theorem execNvGenerationDone_eq {j : NvJob} (h : s.nv.job = some j) : execNvGenerationDone true s = .next
    (if (reported (programmed s j) j).hub.phase = .fw ∧ j.kind = 1 ∧ j.toLc = 4 ∧ (curBody (reported (programmed s j) j)).lc = 4
      then decommission (reported (programmed s j) j) else reported (programmed s j) j) := by
  simp only [execNvGenerationDone, h, if_true, reported, programmed, install]

/-- A generation written is the current one (R511). -/
theorem exec_nvGenerationDone_of_written {j : NvJob} (h : s.nv.job = some j) (hphase : s.hub.phase = .run) :
    ∃ u, exec (.nvGenerationDone true) s = .next u ∧ u.nv.cur = some j.bank ∧ u.nv.job = none := by
  obtain ⟨hhub, hjob⟩ := sameJob_programmed s j
  obtain ⟨hhub', hnv⟩ := sameStore_reported (programmed s j) j
  have hrun : (reported (programmed s j) j).hub.phase = .run := by rw [hhub', hhub, hphase]
  refine ⟨reported (programmed s j) j, ?_, by rw [hnv, programmed, install_cur], by rw [hnv, hjob]⟩
  rw [exec_nvGenerationDone, execNvGenerationDone_eq h, hrun, if_neg fun hfw => Phase.noConfusion hfw.1]

/-- The oldest background erase ends, here of a bank (R511). -/
theorem exec_nvEraseDone_of_bank {b : Nat} {rest : List NvErase} (h : s.nv.erases = .bank b :: rest) :
    exec .nvEraseDone s =
      .next (idleBusy (fErase { s with nv := { s.nv with erases := rest } } (bankAt b) 0x10000)) := by
  simp only [exec_nvEraseDone, execNvEraseDone, h]

/-- The oldest waiting record is appended to a half that has room (R514). -/
theorem exec_nvFaultAppend_of_room {p : List Byte} {rest : List (List Byte)} {b : Nat} (h : s.nv.appends = p :: rest)
    (hcur : s.nv.cur = some b) (hjob : s.nv.job = none) (herases : s.nv.erases = [])
    (hroom : logSlots s ((curBody s).epoch % 2) < 1536) :
    ∃ u, exec .nvFaultAppend s = .next u ∧ u.nv.appends = rest ∧ u.mem = s.mem := by
  have hex : ∃ u, exec .nvFaultAppend s = .next u ∧ u.nv.appends = rest := by
    simp only [exec_nvFaultAppend, execNvFaultAppend, h, hcur, hjob, herases, if_neg (Nat.not_le.2 hroom)]
    exact ⟨_, rfl, rfl⟩
  obtain ⟨u, hu, happ⟩ := hex
  exact ⟨u, hu, happ, mem_of_next rfl hu⟩

end Store

/-- Settles O34: every command of the nonvolatile store whose conditions hold does what its clause says. -/
theorem storeCommandsComplete : Obligations.StoreCommandsComplete := by
  unfold Obligations.StoreCommandsComplete
  refine ⟨fun s r => ?requests, fun s j => exec_nvGenerationDone_of_failed, fun s j => exec_nvGenerationDone_of_written,
    fun s b rest => exec_nvEraseDone_of_bank, fun s p rest b => exec_nvFaultAppend_of_room⟩
  case requests =>
    intro t g ho hm hidle
    refine ⟨fun hok => ⟨exec_nvCtrlCommit_of_ok rfl ho hm hidle hok, fun hcur => ?_⟩,
      exec_nvCtrlLcreq_of_unsigned rfl ho hm hidle, exec_nvCtrlLccancel_of_pending rfl ho hm hidle,
      exec_nvCtrlFclear_of_idle rfl ho hm hidle, exec_nvCtrlAuthgo_of_foreign rfl ho hm hidle⟩
    rw [exec_nvCtrlCommit_of_ok rfl ho hm hidle hok]
    exact congrArg _ (nvKeep_of_cur 2 _ hcur)

end Sys2Proof.Machine

/-! Requests of the management bus (R525 to R527, R529, R531, R533 to R535, R539): what a request that is not refused gets, then
the obligation. -/

namespace Sys2Proof.Machine

section Management

variable {s : State} {u : FwUpdate} {off : Nat} {data : List Byte}

theorem exec_setEndpointId {eid : Nat} : exec (.setEndpointId eid) s = execSetEndpointId eid s := rfl
theorem exec_smbusArp {addr : Nat} : exec (.smbusArp addr) s = execSmbusArp addr s := rfl
theorem exec_dumpRead {len : Nat} : exec (.dumpRead off len) s = execDumpRead off len s := rfl
theorem exec_dumpEraseDone : exec .dumpEraseDone s = execDumpEraseDone s := rfl
theorem exec_dlyRead {ch first count : Nat} : exec (.dlyRead ch first count) s = execDlyRead ch first count s := rfl
theorem exec_pldmSensorRequest {id : Nat} : exec (.pldmSensorRequest id) s = execPldmSensorRequest id s := rfl
theorem exec_requestUpdate {slot : Nat} : exec (.requestUpdate slot) s = execRequestUpdate slot s := rfl
theorem exec_firmwareDataTransfer : exec (.firmwareDataTransfer off data) s = execFirmwareDataTransfer off data s := rfl
theorem exec_verifyComplete : exec .verifyComplete s = execVerifyComplete s := rfl
theorem exec_activateFirmware : exec .activateFirmware s = execActivateFirmware s := rfl
theorem exec_alertResponseRead : exec .alertResponseRead s = execAlertResponseRead s := rfl

/-- An identifier that is neither reserved nor the broadcast is taken (R525). -/
theorem exec_setEndpointId_of_valid {eid : Nat} (hpos : 0 < eid) (hlt : eid < 0xFF) : exec (.setEndpointId eid) s =
    .next (respond (s.fset Fld.HUB_MGMTSTAT_EID 0 0 eid) 0 [0#8, BitVec.ofNat 8 eid, 0#8]) := by
  rw [exec_setEndpointId, execSetEndpointId, if_neg (by omega)]

/-- The vendor message support names the Vendor ID of PF0 in six bytes (R525). -/
theorem exec_getVendorMessageSupport (s : State) :
    ∃ l, l.length = 6 ∧ exec .getVendorMessageSupport s = .next (respond s 0 l) := ⟨_, rfl, rfl⟩

/-- The bus address is assigned where the resolution protocol is enabled (R526). -/
theorem exec_smbusArp_of_enabled {addr : Nat} (h : s.fbit Fld.HUB_MGMTCFG_ARP = true) :
    exec (.smbusArp addr) s = .next { s with mgmt := { s.mgmt with addr := addr % 128 } } := by
  rw [exec_smbusArp, execSmbusArp, if_pos h]

/-- A range of the dump area is read (R529). -/
theorem exec_dumpRead_of_range {len : Nat} (hlen : len ≤ 4032) (hend : off + len ≤ dumpSize) :
    exec (.dumpRead off len) s = .next (respond s 0 (fRead s (dumpAt + off) len)) := by
  rw [exec_dumpRead, execDumpRead, if_pos ⟨hlen, hend⟩]

/-- The erase of the dump area ends (R539). -/
theorem exec_dumpEraseDone_of_erasing (h : s.mgmt.erasing = true) :
    let t := fErase { s with mgmt := { s.mgmt with erasing := false } } dumpAt dumpSize
    exec .dumpEraseDone s = .next ((t.fset Fld.HUB_DUMPSTAT_ERASED 0 0 1).fset Fld.HUB_DUMPSTAT_VALID 0 0 0) := by
  rw [exec_dumpEraseDone, execDumpEraseDone, if_pos h]

/-- Records of the dailies that exist are read (R529, R538). -/
theorem exec_dlyRead_of_records {ch first count : Nat} {d : List Byte} (h : dlyRecords s ch first count = some d) :
    exec (.dlyRead ch first count) s = .next (respond s 0 d) := by
  rw [exec_dlyRead, execDlyRead, h]

/-- A sensor in service answers its level and its reading (R531). -/
theorem exec_pldmSensorRequest_of_up {id : Nat} (h : sensorUp s id = true) : exec (.pldmSensorRequest id) s =
    .next (respond s 0 ([0#8, BitVec.ofNat 8 (SMap.get 0 s.mgmt.level id)] ++ leBytes 4 (SMap.get 0 s.mgmt.reading id))) := by
  rw [exec_pldmSensorRequest, execPldmSensorRequest, if_pos h]

/-! ### Firmware update -/

/-- An update of a slot begins; outside the ROM the slot is erased first (R534, R535). -/
theorem exec_requestUpdate_of_accepted {slot : Nat} (h : updateRefused s slot = false) :
    let t := if romUpdate s then s else fErase s (slotAt slot) slotSize
    exec (.requestUpdate slot) s =
      .next (respond { t with mgmt := { t.mgmt with update := some { slot := slot, written := 0, verified := false } } } 0 []) := by
  rw [exec_requestUpdate, execRequestUpdate, if_neg (ne_true_of_eq_false h)]

section Transfer

variable (hu : s.mgmt.update = some u) (hidle : s.fget Fld.NV_STAT_BUSY = 0)

include hu hidle

/-- Data of an update is programmed while the store is not busy (R534). -/
theorem exec_firmwareDataTransfer_of_flash (hrom : romUpdate s = false) (hend : off + data.length ≤ slotSize) :
    let t := fProg s (slotAt u.slot + off) data
    exec (.firmwareDataTransfer off data) s = .next (respond { t with mgmt := { t.mgmt with
      update := some { u with written := u.written + data.length, verified := false } } } 0 []) := by
  intro t
  simp only [exec_firmwareDataTransfer, execFirmwareDataTransfer, hu, if_neg (not_not.2 hidle), if_pos hend, hrom,
    Bool.false_eq_true, if_false]
  rfl

/-- The ROM holds the data in SRAM (R535). -/
theorem exec_firmwareDataTransfer_of_rom (hrom : romUpdate s = true) (hend : off + data.length ≤ slotSize) :
    let v : FwUpdate := { u with written := u.written + data.length, verified := false, sram := u.sram ++ [(off, data)] }
    exec (.firmwareDataTransfer off data) s = .next (respond { s with mgmt := { s.mgmt with update := some v } } 0 []) := by
  simp only [exec_firmwareDataTransfer, execFirmwareDataTransfer, hu, if_neg (not_not.2 hidle), if_pos hend, hrom, if_true]

/-- A verified update becomes the slot of the next generation (R534). -/
theorem exec_activateFirmware_of_verified (hver : u.verified = true) : exec .activateFirmware s =
    .next (respond (nvStart { s with mgmt := { s.mgmt with update := none } } 2 (curBody s).lc
      { curBody s with slot := u.slot }) 0 []) := by
  simp only [exec_activateFirmware, execActivateFirmware, hu, hver, hidle, and_self, if_true]

end Transfer

/-- A slot whose images pass is verified and tried again at boot (R534, R535). -/
theorem exec_verifyComplete_of_pass {v : State} (hv : withSram s u = v) (hu : s.mgmt.update = some u)
    (hpass : verifySlot v u.slot = 1) :
    let t := v.fset Fld.NV_BOOTSTAT_SKIP 0 0 (putBits (v.fget Fld.NV_BOOTSTAT_SKIP) u.slot 1 0)
    exec .verifyComplete s =
      .next (respond { t with mgmt := { t.mgmt with update := some { u with sram := [], verified := true } } } 0 [1#8]) := by
  intro t
  simp only [exec_verifyComplete, execVerifyComplete, hu, hv, if_pos hpass]
  rfl

/-- The alert is answered with the oldest event (R533). -/
theorem exec_alertResponseRead_of_event {e : Nat × Nat} {rest : List (Nat × Nat)} (halert : s.mgmt.alert = true)
    (h : s.mgmt.events = e :: rest) : exec .alertResponseRead s = .next (respond (queuedField
      { s with mgmt := { s.mgmt with events := rest, alert := false, holdoff := true } }) 0
        ([BitVec.ofNat 8 s.mgmt.addr, BitVec.ofNat 8 e.1] ++ leBytes 8 e.2)) := by
  simp only [exec_alertResponseRead, execAlertResponseRead, halert, if_true, h]

end Management

/-- Settles O35: every request of the management bus that is not refused is answered as its clause says. -/
theorem managementRequestsComplete : Obligations.ManagementRequestsComplete := by
  unfold Obligations.ManagementRequestsComplete
  exact ⟨fun s eid => exec_setEndpointId_of_valid, fun _ => rfl, fun _ => rfl, fun _ => rfl, fun _ => rfl,
    exec_getVendorMessageSupport, fun s addr => exec_smbusArp_of_enabled, fun _ => rfl, fun _ => rfl,
    fun s off len => exec_dumpRead_of_range, fun _ => rfl, fun s => exec_dumpEraseDone_of_erasing,
    fun s ch first count d => exec_dlyRead_of_records, fun _ => rfl, fun _ _ => rfl, fun s id => exec_pldmSensorRequest_of_up,
    fun s slot => exec_requestUpdate_of_accepted,
    fun s off data u hrom hu hidle => exec_firmwareDataTransfer_of_flash hu hidle hrom,
    fun s off data u hrom hu hidle => exec_firmwareDataTransfer_of_rom hu hidle hrom,
    fun s u => exec_verifyComplete_of_pass rfl, fun s u hu hver hidle => exec_activateFirmware_of_verified hu hidle hver,
    fun s e rest => exec_alertResponseRead_of_event, fun _ => rfl⟩

end Sys2Proof.Machine

/-! Dailies, counters, the keeper's dump and JTAG (R536, R537, R539 to R541): what a command of a writer that may does and what an
instruction of the level in force does, then the obligation. -/

namespace Sys2Proof.Machine

section Dailies

variable {s : State} {r : Requester} {ch : Ch} {src : Fin 5} {v : Word}

theorem exec_chDlyctrlTrigarm : exec (.chDlyctrlTrigarm r ch) s = execChDlyctrlTrigarm r ch s := rfl
theorem exec_chDlyctrlClear : exec (.chDlyctrlClear r ch) s = execChDlyctrlClear r ch s := rfl
theorem exec_chDlymarkWrite : exec (.chDlymarkWrite r ch v) s = execChDlymarkWrite r ch v s := rfl
theorem exec_hubDlyfreeze : exec (.hubDlyfreeze r) s = execHubDlyfreeze r s := rfl
theorem exec_pmctrlStart : exec (.pmctrlStart r src) s = execPmctrlStart r src s := rfl
theorem exec_pmctrlStop : exec (.pmctrlStop r src) s = execPmctrlStop r src s := rfl
theorem exec_pmctrlSnap : exec (.pmctrlSnap r src) s = execPmctrlSnap r src s := rfl
theorem exec_keeperDumpDone {bad : List Nat} : exec (.keeperDumpDone bad) s = execKeeperDumpDone bad s := rfl

/-! ### Dailies (R536, R537) -/

/-- A dailies command of a writer that may acts on the channel. -/
theorem dlyCommand_of_open (f : State → State) (ho : Slice0.Open s r (.ch ch)) (hm : maySup (dropHalf s r) r = true) :
    (rowGate s r (.ch ch) fun s => dlyGuard r ch s f) = f (dropHalf s r) := by
  rw [rowGate_of_open _ ho, dlyGuard, if_pos hm]

theorem exec_chDlyctrlTrigarm_of_open (ho : Slice0.Open s r (.ch ch)) (hm : maySup (dropHalf s r) r = true) :
    exec (.chDlyctrlTrigarm r ch) s = .next ((((dropHalf s r).setDly ch fun d => { d with armed := true, left := none }).fset
      Fld.CH_DLYCTRL_TRIGARM ch 0 1).fset Fld.CH_DLYSTAT_TRIGGERED ch 0 0) := by
  rw [exec_chDlyctrlTrigarm, execChDlyctrlTrigarm, dlyCommand_of_open _ ho hm]

theorem exec_chDlyctrlClear_of_open (ho : Slice0.Open s r (.ch ch)) (hm : maySup (dropHalf s r) r = true) :
    ∃ u, exec (.chDlyctrlClear r ch) s = .next u ∧ (u.dly ch).recs = [] ∧ (u.dly ch).full = 0 ∧
      u.mem = (dropHalf s r).mem := by
  have hreg : ∀ (t : State) (n v : Nat), (t.setReg .CH_DLYSTAT n 0 v).dly ch = t.dly ch := fun _ _ _ => rfl
  rw [exec_chDlyctrlClear, execChDlyctrlClear, dlyCommand_of_open _ ho hm]
  exact ⟨_, rfl, by rw [hreg, dly_setDly_same], by rw [hreg, dly_setDly_same], rfl⟩

theorem exec_chDlymarkWrite_of_open (ho : Slice0.Open s r (.ch ch)) (hm : maySup (dropHalf s r) r = true) :
    exec (.chDlymarkWrite r ch v) s = .next (dlyRecord (dropHalf s r) ch 10 0 127 (v.toNat % 2 ^ 32) 0) := by
  rw [exec_chDlymarkWrite, execChDlymarkWrite, dlyCommand_of_open _ ho hm]

/-- Every live channel's dailies freeze (R537). -/
theorem exec_hubDlyfreeze_of_open (ho : Slice0.HostOpen s r) (hm : maySup (dropHalf s r) r = true) :
    exec (.hubDlyfreeze r) s =
      .next ((dropHalf s r).liveChs.foldl (fun s c => s.setDly c fun d => { d with frozen := true }) (dropHalf s r)) := by
  rw [exec_hubDlyfreeze, execHubDlyfreeze, hostGate_of_open _ ho, if_pos hm]

/-! ### Counters (R540) -/

/-- A counter command on one channel. -/
theorem pmCommand_of_channel (f : State → Nat → State) (ho : Slice0.Open s r (pmBlk src)) (hsrc : src.val < 4)
    (hm : maySup (dropHalf s r) r = true) : (rowGate s r (pmBlk src) fun s => pmOn r src s f) = f (dropHalf s r) src := by
  rw [rowGate_of_open _ ho, pmOn, if_pos hsrc, dlyGuard, if_pos hm]

/-- A counter command on every live channel. -/
theorem pmCommand_of_hub (f : State → Nat → State) (ho : Slice0.Open s r .hub) (hm : mayHub r = true) :
    (rowGate s r (pmBlk 4) fun s => pmOn r 4 s f) = (dropHalf s r).liveChs.foldl f (dropHalf s r) := by
  rw [show pmBlk 4 = .hub from rfl, rowGate_of_open _ ho, pmOn, if_neg (by decide), if_pos hm]

/-! ### The keeper's dump (R539) -/

theorem exec_keeperDumpDone_of_dumping (bad : List Nat) (h : s.mgmt.dumping = true) :
    let t := (fProg { s with mgmt := { s.mgmt with dumping := false } } dumpAt (dumpBytes s bad)).took
    exec (.keeperDumpDone bad) s = .next ((t.fset Fld.HUB_DUMPSTAT_ERASED 0 0 0).fset Fld.HUB_DUMPSTAT_VALID 0 0 1) := by
  rw [exec_keeperDumpDone, execKeeperDumpDone, if_pos h]

end Dailies

/-! ### JTAG (R541) -/

section Jtag

variable {s : State}

theorem exec_bypass : exec .bypass s = execBypass s := rfl
theorem exec_extest {v : Word} : exec (.extest v) s = execExtest v s := rfl
theorem exec_samplePreload {v : Word} : exec (.samplePreload v) s = execSamplePreload v s := rfl
theorem exec_idcode : exec .idcode s = execIdcode s := rfl
theorem exec_clamp : exec .clamp s = execClamp s := rfl
theorem exec_highz : exec .highz s = execHighz s := rfl
theorem exec_dlyRd {ch first count : Nat} : exec (.dlyRd ch first count) s = execDlyRd ch first count s := rfl

/-- Instructions of level 0 are always allowed. -/
theorem jtag_level_zero (s : State) : Slice0.Jtag s 0 := ⟨Nat.zero_le _, fun h => absurd h.1 (by decide)⟩

/-- Instructions that only select what the data register is. -/
theorem exec_select_of_jtag (s : State) : exec .bypass s = .next (Slice0.jtagIr s 0xFF) ∧
    exec .clamp s = .next (Slice0.jtagIr s 0x03) ∧ exec .highz s = .next (Slice0.jtagIr s 0x04) := by
  rw [exec_bypass, execBypass, exec_clamp, execClamp, exec_highz, execHighz]
  simp only [jtag_of_allowed _ _ (jtag_level_zero s), id, and_self]

/-- The boundary register takes the bits shifted in. -/
theorem exec_boundary_of_jtag (s : State) (v : Word) : ∃ u w, exec (.extest v) s = .next u ∧ u.mgmt.ir = 0x00 ∧
    u.mgmt.boundary = (List.range 64).map v.toNat.testBit ∧
    exec (.samplePreload v) s = .next w ∧ w.mgmt.ir = 0x01 ∧ w.mgmt.boundary = (List.range 64).map v.toNat.testBit := by
  rw [exec_extest, execExtest, exec_samplePreload, execSamplePreload]
  simp only [jtag_of_allowed _ _ (jtag_level_zero s)]
  exact ⟨_, _, rfl, rfl, rfl, rfl, rfl, rfl⟩

theorem exec_idcode_of_jtag (s : State) :
    exec .idcode s = .next (setTdo (Slice0.jtagIr s 0x02) [if s.part = 5 then 0x1A7A2001 else 0x1A7A1001]) := by
  rw [exec_idcode, execIdcode, jtag_of_allowed _ _ (jtag_level_zero s)]
  rfl

/-- Records of the dailies that exist are shifted out. -/
theorem exec_dlyRd_of_records {ch first count : Nat} {d : List Byte} (hj : Slice0.Jtag s 1)
    (h : dlyRecords (Slice0.jtagIr s 0x21) ch first count = some d) :
    exec (.dlyRd ch first count) s = .next (setTdo (Slice0.jtagIr s 0x21) (d.map BitVec.toNat)) := by
  rw [exec_dlyRd, execDlyRd, jtag_of_allowed _ _ hj, h]

end Jtag

/-- Settles O36: the dailies, the counters, the dump and JTAG do what their clauses say. -/
theorem debugCommandsComplete : Obligations.DebugCommandsComplete := by
  unfold Obligations.DebugCommandsComplete
  refine ⟨fun s r ch ho hm => ⟨exec_chDlyctrlTrigarm_of_open ho hm, exec_chDlyctrlClear_of_open ho hm,
      fun _ => exec_chDlymarkWrite_of_open ho hm⟩,
    fun s r => exec_hubDlyfreeze_of_open, fun s r src ho hsrc hm => ?channel, fun s r ho hm => ?hub,
    fun s => exec_keeperDumpDone_of_dumping, exec_select_of_jtag, exec_boundary_of_jtag, exec_idcode_of_jtag,
    fun s ch first count d => exec_dlyRd_of_records, fun _ => rfl⟩
  case channel =>
    rw [exec_pmctrlStart, execPmctrlStart, exec_pmctrlStop, execPmctrlStop, exec_pmctrlSnap, execPmctrlSnap]
    simp only [pmCommand_of_channel _ ho hsrc hm, and_self]
  case hub =>
    rw [exec_pmctrlStart, execPmctrlStart, exec_pmctrlStop, execPmctrlStop]
    simp only [pmCommand_of_hub _ ho hm, and_self]

end Sys2Proof.Machine

/-! A step (log entry 3): the command at the front of the queue is performed on the rest of the state. -/

namespace Sys2Proof.Machine

/-- Settles O54: a queue that is not empty gives its front command to `exec`. -/
theorem stepPerformsFront : Obligations.StepPerformsFront := by
  unfold Obligations.StepPerformsFront
  intro c q s
  rfl

end Sys2Proof.Machine


/-! The queue of commands waits (log entry 3): nothing that a command does adds to it or takes from it. One lemma per function
says that it leaves `State.pending` as it was, in the order of the definitions; a command's lemma speaks of `after (exec… s) s`, the
state that the command leaves. -/

namespace Sys2Proof.Machine

@[simp] theorem pending_ite (p : Prop) [Decidable p] (a b : State) :
    (if p then a else b).pending = if p then a.pending else b.pending :=
  apply_ite ..

/-- The two states have one queue. A guard's lemma takes this as its hypothesis on the function it guards, so that `simp`
has a goal with a name to discharge by the lemma of that function. -/
def SamePending (s t : State) : Prop := t.pending = s.pending

@[simp] theorem samePending_iff {s t : State} : SamePending s t ↔ t.pending = s.pending := ⟨id, id⟩

theorem pending_foldl {α : Type} {f : State → α → State} (h : ∀ s a, (f s a).pending = s.pending) (l : List α) (s : State) :
    (l.foldl f s).pending = s.pending := by
  induction l generalizing s with
  | nil => rfl
  | cons a r ih => exact (ih _).trans (h s a)

/-- `pending_foldl` in the form that `simp` can apply. -/
@[simp] theorem foldl_pending {α : Type} {f : State → α → State} (h : ∀ s a, SamePending s (f s a)) (l : List α) (s : State) :
    (l.foldl f s).pending = s.pending :=
  pending_foldl (fun s a => samePending_iff.1 (h s a)) l s

/-! ### Memory -/

@[simp] theorem armWritten_pending (s a bs) : (armWritten s a bs).pending = s.pending := by
  simp only [armWritten]
  (repeat' split) <;> rfl

@[simp] theorem writeMem_pending (s : State) (a : Nat) (bs : List DByte) : (s.writeMem a bs).pending = s.pending := by
  simp [State.writeMem]

@[simp] theorem relayout_pending (s ch) : (relayout s ch).pending = s.pending := by
  simp only [relayout]
  split <;> rfl

@[simp] theorem scrubMem_pending (s) : (scrubMem s).pending = s.pending := rfl
@[simp] theorem hubReset_pending (s cold) : (hubReset s cold).pending = s.pending := rfl

/-! ### Counts, districts and requests -/

@[simp] theorem pmCount_pending (s ch ev cl n) : (pmCount s ch ev cl n).pending = s.pending := by rw [pmCount_only]

@[simp] theorem wakeDistrict_pending (s ch d) : (wakeDistrict s ch d).pending = s.pending := by
  obtain ⟨r, e, h⟩ := wakes_wakeDistrict s ch d
  rw [h]

@[simp] theorem stwWake_pending (s ch c w) : (stwWake s ch c w).pending = s.pending := by
  obtain ⟨r, e, h⟩ := wakes_stwWake s ch c w
  rw [h]

theorem ChansOnly.pending {s t : State} (h : ChansOnly s t) : t.pending = s.pending := by
  obtain ⟨c, rfl⟩ := h
  rfl

@[simp] theorem unitAsk_pending (s ch u cl fn l) : (unitAsk s ch u cl fn l).pending = s.pending :=
  (chansOnly_unitAsk s ch u cl fn l).pending

@[simp] theorem unitPut_pending (s ch u cl fn a b) : (unitPut s ch u cl fn a b).pending = s.pending :=
  (chansOnly_unitPut s ch u cl fn a b).pending

@[simp] theorem unitForget_pending (s ch u) : (unitForget s ch u).pending = s.pending := rfl
@[simp] theorem unitDrop_pending (s ch u) : (unitDrop s ch u).pending = s.pending := rfl

@[simp] theorem nfHit_pending (s ch win e psn) : (nfHit s ch win e psn).pending = s.pending := by
  simp only [nfHit]
  (repeat' split) <;> rfl

/-! ### The register file -/

@[simp] theorem setWords_pending (s r loc idx k) : (State.setWords s r loc idx k).pending = s.pending := by
  fun_induction State.setWords s r loc idx k <;> simp_all

/-! ### Functions of the host port -/

@[simp] theorem aerSet_pending (s f e) : (aerSet s f e).pending = s.pending := rfl

@[simp] theorem postEvent_pending (s f id ch code result detail) :
    (postEvent s f id ch code result detail).pending = s.pending := by
  simp [postEvent]

@[simp] theorem hostDone_pending (s c code result detail) : (hostDone s c code result detail).pending = s.pending := rfl

@[simp] theorem hostDone?_pending (s c code result detail) : (hostDone? s c code result detail).pending = s.pending := by
  unfold hostDone?
  split <;> simp

@[simp] theorem dropRegs_pending (s) (p : Nat → Nat → Bool) : (dropRegs s p).pending = s.pending := rfl
@[simp] theorem portClear_pending (s) : (portClear s).pending = s.pending := rfl
@[simp] theorem fnFinish_pending (s f) : (fnFinish s f).pending = s.pending := by simp [fnFinish]
@[simp] theorem chanDisabled_pending (s ch f) : (chanDisabled s ch f).pending = s.pending := by simp [chanDisabled]

/-! ### Reports -/

@[simp] theorem dlyRecord_pending (s ch src code cl arg0 arg1) :
    (dlyRecord s ch src code cl arg0 arg1).pending = s.pending := by
  simp [dlyRecord]

@[simp] theorem alertPin_pending (s arrived) : (alertPin s arrived).pending = s.pending := by simp [alertPin]
@[simp] theorem queuedField_pending (s) : (queuedField s).pending = s.pending := rfl
@[simp] theorem mgmtEvent_pending (s kind data) : (mgmtEvent s kind data).pending = s.pending := by simp [mgmtEvent]
@[simp] theorem faultPin_pending (s) : (faultPin s).pending = s.pending := by simp [faultPin]
@[simp] theorem pend_pending (s f) : (pend s f).pending = s.pending := by simp [pend]
@[simp] theorem hubLog_pending (s rec) : (hubLog s rec).pending = s.pending := by simp [hubLog]
@[simp] theorem logRec_pending (s src rec) : (logRec s src rec).pending = s.pending := by simp [logRec]

@[simp] theorem faultRecord_pending (s src time code ty cls act cl unit loc level sec) :
    (faultRecord s src time code ty cls act cl unit loc level sec).pending = s.pending := by
  simp [faultRecord]

@[simp] theorem report3_pending (s src code act cl unit loc sec) :
    (report3 s src code act cl unit loc sec).pending = s.pending := by
  simp [report3]

@[simp] theorem capsChanged_pending (s ch code) : (capsChanged s ch code).pending = s.pending := rfl

@[simp] theorem postGranted_pending (s ch id code result) : (postGranted s ch id code result).pending = s.pending := by
  simp [postGranted]

@[simp] theorem hostErr_pending (s code f addr) : (hostErr s code f addr).pending = s.pending := rfl

/-! ### Address checks -/

@[simp] theorem fnErr_pending (s ch f code a) : (fnErr s ch f code a).pending = s.pending := by simp [fnErr]
@[simp] theorem rptErr_pending (s ch f code a) : (rptErr s ch f code a).pending = s.pending := by simp [rptErr]

@[simp] theorem refusedBy_pending (s ch fn code a) : (refusedBy s ch fn code a).pending = s.pending := by
  unfold refusedBy
  split <;> simp

/-! ### Tiles, clusters and channels -/

@[simp] theorem progress_pending (s ch c) : (progress s ch c).pending = s.pending := by simp [progress]

/-! ### Take slots -/

@[simp] theorem deferRec_pending (s ch c k r) : (deferRec s ch c k r).pending = s.pending := by simp [deferRec]
@[simp] theorem deferTile_pending (s ch c t pc k) : (deferTile s ch c t pc k).pending = s.pending := by simp [deferTile]
@[simp] theorem penPut_pending (s ch c k r) : (penPut s ch c k r).pending = s.pending := by simp [penPut]

/-! ### Requests entering the fabric -/

@[simp] theorem unitAskOne_pending (ch u cl fn wr) (op : Nat × Nat → ROp) (s p) :
    (unitAskOne ch u cl fn wr op s p).pending = s.pending := by
  simp [unitAskOne]

@[simp] theorem syncErr_pending (s ch code idx) : (syncErr s ch code idx).pending = s.pending := rfl
@[simp] theorem sbErr_pending (s ch c n code) : (sbErr s ch c n code).pending = s.pending := rfl
@[simp] theorem qErr_pending (s ch c q route code) : (qErr s ch c q route code).pending = s.pending := rfl
@[simp] theorem memErr_pending (s ch code a) : (memErr s ch code a).pending = s.pending := rfl

@[simp] theorem signalErr_pending (s ch kind c n code idx) : (signalErr s ch kind c n code idx).pending = s.pending := by
  simp [signalErr]

@[simp] theorem signalFor_pending (s ch kind c n fn i) :
    (signalFor s ch kind c n fn i).pending = s.pending := by
  simp [signalFor]

@[simp] theorem signalAdd_pending (s ch kind c n i) : (signalAdd s ch kind c n i).pending = s.pending := by simp [signalAdd]

/-! ### Writes and the non-finite monitor -/

@[simp] theorem classifyWin_pending (s ch win a bs) : (classifyWin s ch win a bs).pending = s.pending := by
  simp [classifyWin]

@[simp] theorem holdWrite_pending (s ch w) : (holdWrite s ch w).pending = s.pending := rfl
@[simp] theorem countDiscard_pending (s ch) : (countDiscard s ch).pending = s.pending := rfl

@[simp] theorem dropHeld_pending (s ch) (p : Nat × Nat × Nat → Bool) : (dropHeld s ch p).pending = s.pending := by
  unfold dropHeld
  split <;> simp

/-! ### Stream buffers -/

@[simp] theorem setFill_pending (s ch c n v) : (setFill s ch c n v).pending = s.pending := rfl

@[simp] theorem sbSignal_pending (s ch c n pub marked) :
    (sbSignal s ch c n pub marked).pending = s.pending := by
  simp [sbSignal]

@[simp] theorem sbPublish_pending (s ch c n) : (sbPublish s ch c n).pending = s.pending := by simp [sbPublish]
@[simp] theorem sbReleased_pending (s ch c n) : (sbReleased s ch c n).pending = s.pending := rfl
@[simp] theorem sbRelease_pending (s ch c n) : (sbRelease s ch c n).pending = s.pending := by simp [sbRelease]
@[simp] theorem sbApply_pending (s ch c n a b) : (sbApply s ch c n a b).pending = s.pending := rfl
@[simp] theorem sbAdvance_pending (s ch c n k) : (sbAdvance s ch c n k).pending = s.pending := by simp [sbAdvance]
@[simp] theorem sbMark_pending (s ch c n k) : (sbMark s ch c n k).pending = s.pending := by simp [sbMark]
@[simp] theorem sbCommit_pending (ch c k s n) : (sbCommit ch c k s n).pending = s.pending := by simp [sbCommit]

@[simp] theorem sbSquash_pending (ch c k s n) : (sbSquash ch c k s n).pending = s.pending := by
  simp only [sbSquash]
  split <;> rfl

/-! ### Sections -/

@[simp] theorem setLdState_pending (s ch v) : (setLdState s ch v).pending = s.pending := by simp [setLdState]

@[simp] theorem cancelSlots_pending (s ch c) (p : DSlot → Bool) : (cancelSlots s ch c p).pending = s.pending := by
  simp [cancelSlots]

@[simp] theorem orphanReqs_pending (s ch c) : (orphanReqs s ch c).pending = s.pending := rfl
@[simp] theorem dropKeyReads_pending (s ch) : (dropKeyReads s ch).pending = s.pending := rfl

@[simp] theorem sealLeave_pending (s ch c) : (sealLeave s ch c).pending = s.pending := by
  unfold sealLeave
  split <;> simp

@[simp] theorem emptyLists_pending (s ch c cs) : (emptyLists s ch c cs).pending = s.pending := rfl
@[simp] theorem freeSignals_pending (s ch c) : (freeSignals s ch c).pending = s.pending := rfl
@[simp] theorem closeOut_pending (cs ch s c) : (closeOut cs ch s c).pending = s.pending := by simp [closeOut]
@[simp] theorem disown_pending (ch s c) : (disown ch s c).pending = s.pending := by simp [disown]
@[simp] theorem beginStart_pending (s ch) : (beginStart s ch).pending = s.pending := by simp [beginStart]
@[simp] theorem reelDrop_pending (s ch) : (reelDrop s ch).pending = s.pending := rfl
@[simp] theorem reelAsk_pending (s ch) : (reelAsk s ch).pending = s.pending := by simp [reelAsk]

@[simp] theorem beginFetch_pending (s ch tga len fn cmd) : (beginFetch s ch tga len fn cmd).pending = s.pending := by
  simp [beginFetch]

@[simp] theorem cmtCode_pending (s ch code) : (cmtCode s ch code).pending = s.pending := rfl

@[simp] theorem tryStart_pending (s ch c sec) : (tryStart s ch c sec).1.pending = s.pending := by
  simp only [tryStart]
  (repeat' split) <;> simp

@[simp] theorem settleStarts_pending (s ch) : (settleStarts s ch).pending = s.pending := by
  refine pending_foldl (fun s w => ?_) _ _
  split <;> simp

@[simp] theorem dropChannel_pending (s ch) : (dropChannel s ch).pending = s.pending := rfl

@[simp] theorem retireCmds_pending (s ch) : (retireCmds s ch).pending = s.pending := by
  refine pending_foldl (fun s p => pending_foldl (fun s q => pending_foldl (fun s x => ?_) _ _) _ _) _ _
  simp

/-! ### Register gates -/

@[simp] theorem barRefused_pending (s f) : (barRefused s f).pending = s.pending := by simp [barRefused]

@[simp] theorem hostGate_pending (s r) (f : State → State) (hf : ∀ s, SamePending s (f s)) :
    (hostGate s r f).pending = s.pending := by
  simp only [samePending_iff] at hf
  unfold hostGate
  split <;> simp [hf]

@[simp] theorem unitErr_pending (s ch unit) : (unitErr s ch unit).pending = s.pending := rfl

@[simp] theorem shutAccess_pending (s r a) : (shutAccess s r a).pending = s.pending := by
  unfold shutAccess
  split <;> simp

@[simp] theorem outKeeper_pending (s) (f : State → State) (hf : ∀ s, SamePending s (f s)) :
    (outKeeper s f).pending = s.pending := by
  simp only [samePending_iff] at hf
  simp [outKeeper, hf]

@[simp] theorem inChan_pending (s ch) (f : State → State) (hf : ∀ s, SamePending s (f s)) :
    (inChan s ch f).pending = s.pending := by
  simp only [samePending_iff] at hf
  simp [inChan, hf]

theorem fencedWrite_pending {s t : State} {k : BlockRef} (h : fencedWrite s k = some t) : t.pending = s.pending := by
  unfold fencedWrite at h
  split at h
  · split at h <;> cases h
    rfl
  · split at h <;> cases h
    rfl
  · cases h

@[simp] theorem blkWrite_pending {s : State} {r : Requester} {a : BlockRef} {f : State → State} (hf : SamePending s (f s)) :
    (blkWrite s r a f).pending = s.pending := by
  rw [samePending_iff] at hf
  cases h : fencedWrite s a with
  | none => simp only [blkWrite, h]; (repeat' split) <;> simp [hf]
  | some t => simp only [blkWrite, h]; (repeat' split) <;> simp [fencedWrite_pending h]

@[simp] theorem rowGate_pending (s r a) (f : State → State) (hf : ∀ s, SamePending s (f s)) :
    (rowGate s r a f).pending = s.pending := by
  simp only [samePending_iff] at hf
  simp [rowGate, hf]

/-! ### Clocks and power control -/

@[simp] theorem applyCaps_pending (s ch d) : (applyCaps s ch d).pending = s.pending := by simp [applyCaps]
@[simp] theorem applyChannel_pending (s ch) : (applyChannel s ch).pending = s.pending := by simp [applyChannel]
@[simp] theorem applyAll_pending (s) : (applyAll s).pending = s.pending := by simp [applyAll]
@[simp] theorem showLenders_pending (s ch) : (showLenders s ch).pending = s.pending := rfl
@[simp] theorem stopLending_pending (s ch d) : (stopLending s ch d).pending = s.pending := by simp [stopLending]
@[simp] theorem lendStep_pending (s ch d) : (lendStep s ch d).pending = s.pending := by simp [lendStep]

@[simp] theorem targetStep_pending (s ch d) : (targetStep s ch d).pending = s.pending := by
  unfold targetStep
  split <;> simp

@[simp] theorem thermalStep_pending (s ch d) : (thermalStep s ch d).pending = s.pending := by simp [thermalStep]
@[simp] theorem capStep_pending (s ch d alloc vnext) : (capStep s ch d alloc vnext).pending = s.pending := by simp [capStep]

@[simp] theorem execPowerEpoch_pending (ch draws uncore vnext s) :
    (after (execPowerEpoch ch draws uncore vnext s) s).pending = s.pending := by
  rw [execPowerEpoch, after_next, inChan_pending]
  intro s
  dsimp only
  rw [samePending_iff, showLenders_pending, applyChannel_pending]
  refine (pending_foldl (fun s d => ?_) _ _).trans ?_
  · rw [setDist_pending, thermalStep_pending, pending_ite, capStep_pending, ite_self, fset_pending]
  · rw [fset_pending, pending_foldl (by simp), pending_foldl (by simp), fset_pending]

@[simp] theorem sendGrants_pending (s) : (sendGrants s).pending = s.pending := by simp [sendGrants]

@[simp] theorem execGrantBoundary_pending (s) : (after (execGrantBoundary s) s).pending = s.pending := by
  simp only [execGrantBoundary, after_next]
  split <;> simp

@[simp] theorem execAvfsEvaluation_pending (d v pass s) : (after (execAvfsEvaluation d v pass s) s).pending = s.pending := by
  simp [execAvfsEvaluation]

@[simp] theorem execDroop_pending (d s) : (after (execDroop d s) s).pending = s.pending := by simp [execDroop]

@[simp] theorem execDstVftgtCommit_pending (r d s) : (after (execDstVftgtCommit r d s) s).pending = s.pending := by
  simp [execDstVftgtCommit]

@[simp] theorem execHubPwrbudgetCommit_pending (r s) : (after (execHubPwrbudgetCommit r s) s).pending = s.pending := by
  simp [execHubPwrbudgetCommit]

@[simp] theorem execChPwrcfgWrite_pending (r ch v s) : (after (execChPwrcfgWrite r ch v s) s).pending = s.pending := by
  simp [execChPwrcfgWrite]

@[simp] theorem execThermalSample_pending (d temp s) : (after (execThermalSample d temp s) s).pending = s.pending := by
  simp [execThermalSample]

@[simp] theorem execThrottleNEdge_pending (low s) : (after (execThrottleNEdge low s) s).pending = s.pending := by
  simp [execThrottleNEdge]

@[simp] theorem capsRelease_pending (s) : (capsRelease s).pending = s.pending := by simp [capsRelease]

@[simp] theorem execThrottleFilterExpiry_pending (s) : (after (execThrottleFilterExpiry s) s).pending = s.pending := by
  simp [execThrottleFilterExpiry]

@[simp] theorem execSyncInPulse_pending (time s) : (after (execSyncInPulse time s) s).pending = s.pending := by
  simp [execSyncInPulse]

@[simp] theorem execHubSyncctrlArmload_pending (r s) : (after (execHubSyncctrlArmload r s) s).pending = s.pending := by
  simp [execHubSyncctrlArmload]

@[simp] theorem execPllLockLoss_pending (d s) : (after (execPllLockLoss d s) s).pending = s.pending := by simp [execPllLockLoss]
@[simp] theorem execPllRelock_pending (d s) : (after (execPllRelock d s) s).pending = s.pending := by simp [execPllRelock]

/-! ### A steward as other units act on it -/

@[simp] theorem stwFinish_pending (s ch c w rd v) : (stwFinish s ch c w rd v).pending = s.pending := by simp [stwFinish]
@[simp] theorem stwJump_pending (s ch c w rd v target) : (stwJump s ch c w rd v target).pending = s.pending := rfl

@[simp] theorem stwDefer_pending (s ch c w k rd kind code) : (stwDefer s ch c w k rd kind code).pending = s.pending := by
  simp [stwDefer]

@[simp] theorem stwStall_pending (s ch c w why) : (stwStall s ch c w why).pending = s.pending := rfl
@[simp] theorem stwRegistered_pending (s ch w) : (stwRegistered s ch w).pending = s.pending := rfl

@[simp] theorem stwAbandon_pending (s ch c w) : (stwAbandon s ch c w).pending = s.pending := by
  simp only [stwAbandon]
  (repeat' split) <;> simp

@[simp] theorem keepCode_pending (s ch c w a n) : (keepCode s ch c w a n).pending = s.pending := rfl
@[simp] theorem stwPostErr_pending (s ch c w code) : (stwPostErr s ch c w code).pending = s.pending := rfl

/-! ### Packets of a die link end -/

@[simp] theorem freeClass_pending (s l k n) : (freeClass s l k n).pending = s.pending := rfl
@[simp] theorem sendPkt_pending (s l p) : (sendPkt s l p).pending = s.pending := rfl
@[simp] theorem sendCmpl_pending (s l tag code value busy) : (sendCmpl s l tag code value busy).pending = s.pending := rfl
@[simp] theorem sendRdataFail_pending (s l tag code addr) : (sendRdataFail s l tag code addr).pending = s.pending := rfl

/-! ### Caravan flows -/

@[simp] theorem setFlowSt_pending (s ch n v) : (setFlowSt s ch n v).pending = s.pending := by simp [setFlowSt]
@[simp] theorem ctErr_pending (s ch code flow addr) : (ctErr s ch code flow addr).pending = s.pending := rfl
@[simp] theorem ctPush_pending (s ch n stream p) : (ctPush s ch n stream p).pending = s.pending := rfl

/-! ### Ends of requests -/

@[simp] theorem hostAbort_pending (s f) : (hostAbort s f).pending = s.pending := rfl
@[simp] theorem setCmd_pending (s c) (f : HCmd → HCmd) : (setCmd s c f).pending = s.pending := rfl

@[simp] theorem copyMoved_pending (s c n) : (copyMoved s c n).pending = s.pending := by
  unfold copyMoved
  split <;> simp

@[simp] theorem hostFinish_pending (s c r code data) : (hostFinish s c r code data).pending = s.pending := by
  unfold hostFinish
  split <;> simp

@[simp] theorem remoteSyncErr_pending (s ch r code) : (remoteSyncErr s ch r code).pending = s.pending := by
  unfold remoteSyncErr
  split <;> simp

@[simp] theorem fdlFree_pending (s k r) : (fdlFree s k r).pending = s.pending := by
  unfold fdlFree
  split <;> simp

@[simp] theorem fdlReply_pending (s ch l tag r code data) : (fdlReply s ch l tag r code data).pending = s.pending := by
  simp only [fdlReply]
  split <;> simp

@[simp] theorem dollyWrote_pending (s ch c n code) : (dollyWrote s ch c n code).pending = s.pending := rfl
@[simp] theorem sendResp_pending (s ch n opid code aux v) : (sendResp s ch n opid code aux v).pending = s.pending := rfl

@[simp] theorem flowReply_pending (s ch n opid r code data) : (flowReply s ch n opid r code data).pending = s.pending := by
  simp only [flowReply]
  (repeat' split) <;> simp

@[simp] theorem setColl_pending (s ch) (f : Coll → Coll) : (setColl s ch f).pending = s.pending := rfl

@[simp] theorem collTurn_pending (s ch) : (collTurn s ch).pending = s.pending := by
  unfold collTurn
  split <;> simp

@[simp] theorem collEnd_pending (s ch code) : (collEnd s ch code).pending = s.pending := by
  unfold collEnd
  split <;> simp

@[simp] theorem collWrote_pending (s ch a code) : (collWrote s ch a code).pending = s.pending := by simp [collWrote]

/-! ### Sync objects -/

@[simp] theorem nfSample_pending (s ch) : (nfSample s ch).pending = s.pending := rfl
@[simp] theorem lscaleStep_pending (s ch skip) : (lscaleStep s ch skip).pending = s.pending := by simp [lscaleStep]

@[simp] theorem sendBar_pending (s ch g rank nf psn rel) : (sendBar s ch g rank nf psn rel).pending = s.pending := by
  simp [sendBar]

/-! ### Lost units -/

@[simp] theorem portLost_pending (s ch port) : (portLost s ch port).pending = s.pending := rfl

@[simp] theorem flowsHanded_pending (s ch) : (flowsHanded s ch).pending = s.pending := by
  unfold flowsHanded
  split <;> simp

@[simp] theorem sealComplete_pending (s ch n code) : (sealComplete s ch n code).pending = s.pending := by
  unfold sealComplete
  split <;> simp

@[simp] theorem sealFlush_pending (s ch code) : (sealFlush s ch code).pending = s.pending := by simp [sealFlush]
@[simp] theorem egcRetired_pending (s ch code) : (egcRetired s ch code).pending = s.pending := by simp [egcRetired]

@[simp] theorem lcRetired_pending (s ch code) : (lcRetired s ch code).pending = s.pending := by
  unfold lcRetired
  split <;> simp

@[simp] theorem setRemap_pending (s ch c col) : (setRemap s ch c col).pending = s.pending := rfl

/-! ### Fault controllers -/

@[simp] theorem bucketAdd_pending (s src ty cl unit pts) : (bucketAdd s src ty cl unit pts).1.pending = s.pending := rfl

@[simp] theorem locEvent_pending (s src ty loc time k) : (locEvent s src ty loc time k).1.pending = s.pending := by
  unfold locEvent
  split <;> simp

@[simp] theorem armLoc_pending (s src ty a) : (armLoc s src ty a).pending = s.pending := rfl

@[simp] theorem keeperEnter_pending (s cause code act dump) : (keeperEnter s cause code act dump).pending = s.pending := by
  simp [keeperEnter]

@[simp] theorem criticalFault_pending (s) : (criticalFault s).pending = s.pending := by simp [criticalFault]

@[simp] theorem persist_pending (s act ty ch cl unit time) : (persist s act ty ch cl unit time).pending = s.pending := by
  simp [persist]

@[simp] theorem markRetired_pending (s ch) : (markRetired s ch).pending = s.pending := rfl

@[simp] theorem reportCap_pending (s ch) : (reportCap s ch).pending = s.pending := by
  unfold reportCap
  split <;> simp

@[simp] theorem reportCaps_pending (k s x) : (reportCaps k s x).pending = s.pending := by
  fun_induction reportCaps k s x <;> simp_all

@[simp] theorem repairStart_pending (s src ty loc unit) : (repairStart s src ty loc unit).pending = s.pending := rfl
@[simp] theorem injDone_pending (s src ty cl) : (injDone s src ty cl).pending = s.pending := by simp [injDone]
@[simp] theorem depotErr_pending (s e) : (depotErr s e).pending = s.pending := by simp [depotErr]
@[simp] theorem granuleFix_pending (s e) : (granuleFix s e).pending = s.pending := by simp [granuleFix]

@[simp] theorem execBucketLeak_pending (src ty cluster unit s) :
    (after (execBucketLeak src ty cluster unit s) s).pending = s.pending := by
  simp [execBucketLeak]

@[simp] theorem stormStep_pending (s src ty) : (stormStep s src ty).pending = s.pending := by simp [stormStep]

@[simp] theorem execStormWindow_pending (src s) : (after (execStormWindow src s) s).pending = s.pending := by
  simp [execStormWindow]

@[simp] theorem execRepairCopyDone_pending (ch s) : (after (execRepairCopyDone ch s) s).pending = s.pending := by
  rw [execRepairCopyDone, after_next, inChan_pending]
  intro s
  rw [samePending_iff]
  dsimp only
  split <;> simp

@[simp] theorem execHeartbeat_pending (_ch s) : (after (execHeartbeat _ch s) s).pending = s.pending := by simp [execHeartbeat]

@[simp] theorem execHubCriticalFault_pending (s) : (after (execHubCriticalFault s) s).pending = s.pending := by
  simp [execHubCriticalFault]

@[simp] theorem execSysclkLoss_pending (s) : (after (execSysclkLoss s) s).pending = s.pending := by simp [execSysclkLoss]

@[simp] theorem execHubWatchdogExpiry_pending (s) : (after (execHubWatchdogExpiry s) s).pending = s.pending := by
  simp [execHubWatchdogExpiry]

@[simp] theorem execFaultNHoldEnd_pending (s) :
    (after (execFaultNHoldEnd s) s).pending = s.pending := by
  simp [execFaultNHoldEnd]

@[simp] theorem execChFinjArm_pending (r ch s) : (after (execChFinjArm r ch s) s).pending = s.pending := by simp [execChFinjArm]

@[simp] theorem execThermalTrip_pending (src ch unit s) : (after (execThermalTrip src ch unit s) s).pending = s.pending := by
  simp only [execThermalTrip, after_next]
  (repeat' split) <;> simp

@[simp] theorem execSupplySample_pending (inrange uv ov s) :
    (after (execSupplySample inrange uv ov s) s).pending = s.pending := by
  simp [execSupplySample]

@[simp] theorem execXtalLoss_pending (s) : (after (execXtalLoss s) s).pending = s.pending := by simp [execXtalLoss]

/-! ### Die links -/

@[simp] theorem setLkState_pending (s l v) : (setLkState s l v).pending = s.pending := rfl
@[simp] theorem lkErr_pending (s l c) : (lkErr s l c).pending = s.pending := rfl

@[simp] theorem regEnd_pending (s l) (host : Option Nat) (code v) : (regEnd s l host code v).pending = s.pending := by
  simp only [regEnd]
  (repeat' split) <;> simp

@[simp] theorem endOutst_pending (s l) (p : FOut → Bool) : (endOutst s l p).pending = s.pending := by simp [endOutst]
@[simp] theorem dropOutst_pending (s l) : (dropOutst s l).pending = s.pending := by simp [dropOutst]
@[simp] theorem dropSent_pending (s l) : (dropSent s l).pending = s.pending := by simp [dropSent]
@[simp] theorem dropInbound_pending (s l) : (dropInbound s l).pending = s.pending := by simp [dropInbound]
@[simp] theorem showCaps_pending (s c) : (showCaps s c).pending = s.pending := rfl
@[simp] theorem trainWith_pending (f : FdlEnd → FdlEnd) (s l) : (trainWith f s l).pending = s.pending := by simp [trainWith]
@[simp] theorem trainBoth_pending (s l) : (trainBoth s l).pending = s.pending := by simp [trainBoth]
@[simp] theorem attemptsNew_pending (s l) : (attemptsNew s l).pending = s.pending := rfl
@[simp] theorem bringAgain_pending (f : FdlEnd → FdlEnd) (s l) : (bringAgain f s l).pending = s.pending := by simp [bringAgain]

@[simp] theorem execDrstNDeassert_pending (l s) : (after (execDrstNDeassert l s) s).pending = s.pending := by
  simp [execDrstNDeassert]

@[simp] theorem execUcieTrained_pending (l mods x8 s) : (after (execUcieTrained l mods x8 s) s).pending = s.pending := by
  simp [execUcieTrained]

theorem takeCtrl_pending {s t : State} {l : LinkId} {sub v : Nat} (h : takeCtrl s l sub = some (v, t)) :
    t.pending = s.pending := by
  unfold takeCtrl at h
  split at h
  · split at h <;> cases h
    rfl
  · cases h

@[simp] theorem sendCtrl_pending (s l sub v) : (sendCtrl s l sub v).pending = s.pending := rfl

@[simp] theorem execCapx_pending (l s) : (after (execCapx l s) s).pending = s.pending := by
  rw [execCapx, after_next, outKeeper_pending]
  intro s
  rw [samePending_iff]
  split
  · rfl
  · next h => simp [takeCtrl_pending h]

@[simp] theorem execCapxRepeat_pending (l s) : (after (execCapxRepeat l s) s).pending = s.pending := by simp [execCapxRepeat]
@[simp] theorem grantCredits_pending (s l) : (grantCredits s l).pending = s.pending := rfl
@[simp] theorem agreed_pending (s l w) : (agreed s l w).pending = s.pending := by simp [agreed]

@[simp] theorem execUprateDone_pending (l ok s) : (after (execUprateDone l ok s) s).pending = s.pending := by
  simp [execUprateDone]

@[simp] theorem freeSlots_pending (s l p) : (freeSlots s l p).pending = s.pending := rfl
@[simp] theorem discardPkt_pending (s l p code) : (discardPkt s l p code).pending = s.pending := by simp [discardPkt]

@[simp] theorem judgePkt_pending (s l p) : (judgePkt s l p).pending = s.pending := by
  unfold judgePkt
  split <;> simp

@[simp] theorem endRetrain_pending (s l) : (endRetrain s l).pending = s.pending := rfl
@[simp] theorem toRetrain_pending (s l) : (toRetrain s l).pending = s.pending := by simp [toRetrain]
@[simp] theorem onWire_pending (s l f) : (onWire s l f).pending = s.pending := rfl
@[simp] theorem sendData_pending (s l) : (sendData s l).pending = s.pending := rfl

@[simp] theorem execFlitTransmit_pending (l s) : (after (execFlitTransmit l s) s).pending = s.pending := by
  rw [execFlitTransmit, after_next, outKeeper_pending]
  intro s
  rw [samePending_iff]
  dsimp only
  (repeat' split) <;> simp

@[simp] theorem sendRetry_pending (s l) : (sendRetry s l).pending = s.pending := by simp [sendRetry]

@[simp] theorem execFdlRetry_pending (l s) : (after (execFdlRetry l s) s).pending = s.pending := by
  rw [execFdlRetry, after_next, outKeeper_pending]
  intro s
  rw [samePending_iff]
  split
  · next h => simp [takeCtrl_pending h]
  · rfl

@[simp] theorem execAckTimeout_pending (l s) : (after (execAckTimeout l s) s).pending = s.pending := by simp [execAckTimeout]
@[simp] theorem execRetrainDone_pending (l s) : (after (execRetrainDone l s) s).pending = s.pending := by simp [execRetrainDone]

@[simp] theorem execL1IdleExpiry_pending (l s) : (after (execL1IdleExpiry l s) s).pending = s.pending := by
  simp [execL1IdleExpiry]

@[simp] theorem execPmreq_pending (l s) : (after (execPmreq l s) s).pending = s.pending := by
  rw [execPmreq, after_next, outKeeper_pending]
  intro s
  rw [samePending_iff]
  split
  · rfl
  · next h => simp [takeCtrl_pending h]

@[simp] theorem execPmack_pending (l s) : (after (execPmack l s) s).pending = s.pending := by
  rw [execPmack, after_next, outKeeper_pending]
  intro s
  rw [samePending_iff]
  split
  · next h => simp [takeCtrl_pending h]
  · rfl

@[simp] theorem execPmnak_pending (l s) : (after (execPmnak l s) s).pending = s.pending := by
  rw [execPmnak, after_next, outKeeper_pending]
  intro s
  rw [samePending_iff]
  split
  · next h => simp [takeCtrl_pending h]
  · rfl

@[simp] theorem execL1Exit_pending (l ok s) : (after (execL1Exit l ok s) s).pending = s.pending := by simp [execL1Exit]

@[simp] theorem execTestreq_pending (l s) : (after (execTestreq l s) s).pending = s.pending := by
  rw [execTestreq, after_next, outKeeper_pending]
  intro s
  rw [samePending_iff]
  split
  · next h => simp [takeCtrl_pending h]
  · rfl

@[simp] theorem execFdlAbort_pending (l s) : (after (execFdlAbort l s) s).pending = s.pending := by
  rw [execFdlAbort, after_next, outKeeper_pending]
  intro s
  rw [samePending_iff]
  split
  · next h => simp [takeCtrl_pending h]
  · rfl

@[simp] theorem lkGuard_pending (r l s) (f : State → State) (hf : ∀ s, SamePending s (f s)) :
    (lkGuard r l s f).pending = s.pending := by
  simp only [samePending_iff] at hf
  simp [lkGuard, hf]

@[simp] theorem execFdlLinkCtrlReneg_pending (r l s) : (after (execFdlLinkCtrlReneg r l s) s).pending = s.pending := by
  simp [execFdlLinkCtrlReneg]

@[simp] theorem execFdlLinkCtrlRetrain_pending (r l s) : (after (execFdlLinkCtrlRetrain r l s) s).pending = s.pending := by
  simp [execFdlLinkCtrlRetrain]

@[simp] theorem execFdlLinkCtrlTest_pending (r l on s) : (after (execFdlLinkCtrlTest r l on s) s).pending = s.pending := by
  simp [execFdlLinkCtrlTest]

@[simp] theorem execFdlLinkCfgCommit_pending (r l s) : (after (execFdlLinkCfgCommit r l s) s).pending = s.pending := by
  simp [execFdlLinkCfgCommit]

@[simp] theorem regAsk_pending (s l off write n v) (host : Option Nat) : (regAsk s l off write n v host).pending = s.pending :=
  rfl

@[simp] theorem execFdlRegWindowAccess_pending (r l off write n v s) :
    (after (execFdlRegWindowAccess r l off write n v s) s).pending = s.pending := by
  simp only [execFdlRegWindowAccess, after_next]
  split <;> simp

theorem takePkt_pending {s t : State} {l : LinkId} {ty : Nat} {p : FPkt} (h : takePkt s l ty = some (p, t)) :
    t.pending = s.pending := by
  simp only [takePkt] at h
  split at h
  · split at h <;> cases h
    split <;> simp
  · cases h

@[simp] theorem dieTimeout_pending (s l tag) : (dieTimeout s l tag).pending = s.pending := by
  simp only [dieTimeout]
  (repeat' split) <;> simp

@[simp] theorem execFdlRequestTimeout_pending (l tag s) : (after (execFdlRequestTimeout l tag s) s).pending = s.pending := by
  rw [execFdlRequestTimeout, after_next, outKeeper_pending]
  intro s
  rw [samePending_iff]
  split <;> simp

@[simp] theorem execFdlNote_pending (l s) : (after (execFdlNote l s) s).pending = s.pending := by
  rw [execFdlNote, after_next, outKeeper_pending]
  intro s
  rw [samePending_iff]
  split
  · rfl
  · next h => simp [takePkt_pending h]

@[simp] theorem execBoot_pending (l s) : (after (execBoot l s) s).pending = s.pending := by
  rw [execBoot, after_next, outKeeper_pending]
  intro s
  rw [samePending_iff]
  split
  · rfl
  · next h => simp [takePkt_pending h]

/-! ### Control space -/

@[simp] theorem badAccess_pending (s r a) : (badAccess s r a).pending = s.pending := by
  unfold badAccess
  split <;> simp

@[simp] theorem ctlRefused_pending (s r a) : (ctlRefused s r a).pending = s.pending := by
  unfold ctlRefused
  split <;> simp

/-! ### Tiles -/

@[simp] theorem tileStall_pending (s ch c t why port) : (tileStall s ch c t why port).pending = s.pending := by simp [tileStall]

@[simp] theorem firedRegs_pending (s ch c n o ins t fl bad halt) :
    (firedRegs s ch c n o ins t fl bad halt).pending = s.pending := by
  simp [firedRegs]

@[simp] theorem fireWith_pending (s ch c n o ins) (alu : AluIn → AluOut) :
    (fireWith s ch c n o ins alu).pending = s.pending := by
  simp only [fireWith]
  (repeat' split) <;> simp

@[simp] theorem fireTile_pending (s t o) (alu : AluIn → AluOut) : (fireTile s t o alu).pending = s.pending := by
  simp only [fireTile]
  (repeat' split) <;> simp

@[simp] theorem tlWrite_pending (s r t) (f : Nat → State → State) (hf : ∀ a s, SamePending s (f a s)) :
    (tlWrite s r t f).pending = s.pending := by
  simp only [samePending_iff] at hf
  simp [tlWrite, hf]

@[simp] theorem execTlCtrlHalt_pending (r t s) :
    (after (execTlCtrlHalt r t s) s).pending = s.pending := by
  simp [execTlCtrlHalt]

@[simp] theorem execTileHaltEffect_pending (t s) : (after (execTileHaltEffect t s) s).pending = s.pending := by
  simp [execTileHaltEffect]

@[simp] theorem execTlCtrlResume_pending (r t s) : (after (execTlCtrlResume r t s) s).pending = s.pending := by
  simp [execTlCtrlResume]

@[simp] theorem execTlCtrlStep_pending (r t s) :
    (after (execTlCtrlStep r t s) s).pending = s.pending := by
  simp [execTlCtrlStep]

@[simp] theorem execTlRngseedWrite_pending (r t v s) : (after (execTlRngseedWrite r t v s) s).pending = s.pending := by
  simp [execTlRngseedWrite]

@[simp] theorem execTNop_pending (t s) : (after (execTNop t s) s).pending = s.pending := by simp [execTNop]
@[simp] theorem execTEnd_pending (t s) : (after (execTEnd t s) s).pending = s.pending := by simp [execTEnd]
@[simp] theorem execTJmp_pending (t s) : (after (execTJmp t s) s).pending = s.pending := by simp [execTJmp]
@[simp] theorem execTBr_pending (t s) : (after (execTBr t s) s).pending = s.pending := by simp [execTBr]
@[simp] theorem execTLoop_pending (t s) : (after (execTLoop t s) s).pending = s.pending := by simp [execTLoop]
@[simp] theorem execTDrop_pending (t s) : (after (execTDrop t s) s).pending = s.pending := by simp [execTDrop]
@[simp] theorem execTMac_pending (t s) : (after (execTMac t s) s).pending = s.pending := by simp [execTMac]
@[simp] theorem execTMacb_pending (t s) : (after (execTMacb t s) s).pending = s.pending := by simp [execTMacb]
@[simp] theorem execTMul_pending (t s) : (after (execTMul t s) s).pending = s.pending := by simp [execTMul]
@[simp] theorem execTAdd_pending (t s) : (after (execTAdd t s) s).pending = s.pending := by simp [execTAdd]
@[simp] theorem execTSub_pending (t s) : (after (execTSub t s) s).pending = s.pending := by simp [execTSub]
@[simp] theorem execTMax_pending (t s) : (after (execTMax t s) s).pending = s.pending := by simp [execTMax]
@[simp] theorem execTMin_pending (t s) : (after (execTMin t s) s).pending = s.pending := by simp [execTMin]
@[simp] theorem execTMmac_pending (t s) : (after (execTMmac t s) s).pending = s.pending := by simp [execTMmac]
@[simp] theorem execTImac_pending (t s) : (after (execTImac t s) s).pending = s.pending := by simp [execTImac]
@[simp] theorem execTIadd_pending (t s) : (after (execTIadd t s) s).pending = s.pending := by simp [execTIadd]
@[simp] theorem execTIsub_pending (t s) : (after (execTIsub t s) s).pending = s.pending := by simp [execTIsub]
@[simp] theorem execTIand_pending (t s) : (after (execTIand t s) s).pending = s.pending := by simp [execTIand]
@[simp] theorem execTIor_pending (t s) : (after (execTIor t s) s).pending = s.pending := by simp [execTIor]
@[simp] theorem execTIxor_pending (t s) : (after (execTIxor t s) s).pending = s.pending := by simp [execTIxor]
@[simp] theorem execTIshl_pending (t s) : (after (execTIshl t s) s).pending = s.pending := by simp [execTIshl]
@[simp] theorem execTIshr_pending (t s) : (after (execTIshr t s) s).pending = s.pending := by simp [execTIshr]
@[simp] theorem execTFma_pending (t s) : (after (execTFma t s) s).pending = s.pending := by simp [execTFma]
@[simp] theorem execTFadd_pending (t s) : (after (execTFadd t s) s).pending = s.pending := by simp [execTFadd]
@[simp] theorem execTFsub_pending (t s) : (after (execTFsub t s) s).pending = s.pending := by simp [execTFsub]
@[simp] theorem execTFmul_pending (t s) : (after (execTFmul t s) s).pending = s.pending := by simp [execTFmul]
@[simp] theorem execTFmax_pending (t s) : (after (execTFmax t s) s).pending = s.pending := by simp [execTFmax]
@[simp] theorem execTFmin_pending (t s) : (after (execTFmin t s) s).pending = s.pending := by simp [execTFmin]
@[simp] theorem execTFn_pending (t s) : (after (execTFn t s) s).pending = s.pending := by simp [execTFn]
@[simp] theorem execTCvt_pending (t s) : (after (execTCvt t s) s).pending = s.pending := by simp [execTCvt]
@[simp] theorem execTMov_pending (t s) : (after (execTMov t s) s).pending = s.pending := by simp [execTMov]
@[simp] theorem execTPerm_pending (t s) : (after (execTPerm t s) s).pending = s.pending := by simp [execTPerm]
@[simp] theorem execTRot_pending (t s) : (after (execTRot t s) s).pending = s.pending := by simp [execTRot]
@[simp] theorem execTBcst_pending (t s) : (after (execTBcst t s) s).pending = s.pending := by simp [execTBcst]
@[simp] theorem execTSel_pending (t s) : (after (execTSel t s) s).pending = s.pending := by simp [execTSel]
@[simp] theorem execTRsum_pending (t s) : (after (execTRsum t s) s).pending = s.pending := by simp [execTRsum]
@[simp] theorem execTRmax_pending (t s) : (after (execTRmax t s) s).pending = s.pending := by simp [execTRmax]
@[simp] theorem execTRmin_pending (t s) : (after (execTRmin t s) s).pending = s.pending := by simp [execTRmin]
@[simp] theorem execTRamax_pending (t s) : (after (execTRamax t s) s).pending = s.pending := by simp [execTRamax]
@[simp] theorem execTRbexp_pending (t s) : (after (execTRbexp t s) s).pending = s.pending := by simp [execTRbexp]
@[simp] theorem execTFwd_pending (t s) : (after (execTFwd t s) s).pending = s.pending := by simp [execTFwd]
@[simp] theorem execTFwdh_pending (t s) : (after (execTFwdh t s) s).pending = s.pending := by simp [execTFwdh]
@[simp] theorem execTPcmp_pending (t s) : (after (execTPcmp t s) s).pending = s.pending := by simp [execTPcmp]
@[simp] theorem execTPlog_pending (t s) : (after (execTPlog t s) s).pending = s.pending := by simp [execTPlog]
@[simp] theorem execTPset_pending (t s) : (after (execTPset t s) s).pending = s.pending := by simp [execTPset]
@[simp] theorem execTPcls_pending (t s) : (after (execTPcls t s) s).pending = s.pending := by simp [execTPcls]
@[simp] theorem execTLd_pending (t s) : (after (execTLd t s) s).pending = s.pending := by simp [execTLd]
@[simp] theorem execTLdh_pending (t s) : (after (execTLdh t s) s).pending = s.pending := by simp [execTLdh]
@[simp] theorem execTLde_pending (t s) : (after (execTLde t s) s).pending = s.pending := by simp [execTLde]
@[simp] theorem execTSt_pending (t s) : (after (execTSt t s) s).pending = s.pending := by simp [execTSt]
@[simp] theorem execTSth_pending (t s) : (after (execTSth t s) s).pending = s.pending := by simp [execTSth]
@[simp] theorem execTTkent_pending (t s) : (after (execTTkent t s) s).pending = s.pending := by simp [execTTkent]
@[simp] theorem execTTklv_pending (t s) : (after (execTTklv t s) s).pending = s.pending := by simp [execTTklv]
@[simp] theorem execTSig_pending (t s) : (after (execTSig t s) s).pending = s.pending := by simp [execTSig]

/-! ### Sidings -/

@[simp] theorem freeUnits_pending (s ch c us) : (freeUnits s ch c us).pending = s.pending := rfl

@[simp] theorem leaveMesh_pending (s ch r c inp) : (leaveMesh s ch r c inp).pending = s.pending := by
  simp only [leaveMesh]
  (repeat' split) <;> simp

@[simp] theorem quitMesh_pending (s ch r) : (quitMesh s ch r).pending = s.pending := by
  unfold quitMesh
  split <;> simp

@[simp] theorem moveReq_pending (s ch no p) : (moveReq s ch no p).pending = s.pending := rfl
@[simp] theorem spillOne_pending (ch c s q) : (spillOne ch c s q).pending = s.pending := by simp [spillOne]

@[simp] theorem execStallWindowExpiry_pending (c young s) :
    (after (execStallWindowExpiry c young s) s).pending = s.pending := by
  simp [execStallWindowExpiry]

@[simp] theorem execDstStallcfgWrite_pending (r d v s) : (after (execDstStallcfgWrite r d v s) s).pending = s.pending := by
  simp [execDstStallcfgWrite]

@[simp] theorem takeUnit_pending (s ch c u) : (takeUnit s ch c u).pending = s.pending := by simp [takeUnit]

/-! ### The fabric -/

@[simp] theorem issueReq_pending (s ch r) : (issueReq s ch r).pending = s.pending := rfl
@[simp] theorem releaseGate_pending (s ch c) : (releaseGate s ch c).pending = s.pending := rfl
@[simp] theorem hubReq_pending (s ch r) : (hubReq s ch r).pending = s.pending := rfl
@[simp] theorem ttMark_pending (s ch) : (ttMark s ch).pending = s.pending := by simp [ttMark]
@[simp] theorem gather_pending (s ch r at_ bs) : (gather s ch r at_ bs).pending = s.pending := rfl

@[simp] theorem keepOwn_pending (s ch c r lo k) : (keepOwn s ch c r lo k).pending = s.pending := by
  unfold keepOwn
  split <;> simp

@[simp] theorem execChBwsplitCommit_pending (r ch s) : (after (execChBwsplitCommit r ch s) s).pending = s.pending := by
  simp [execChBwsplitCommit]

@[simp] theorem execBwsplitFrameBoundary_pending (ch site s) :
    (after (execBwsplitFrameBoundary ch site s) s).pending = s.pending := by
  simp [execBwsplitFrameBoundary]

/-! ### Message queues -/

@[simp] theorem dequeue_pending (s ch c q) : (dequeue s ch c q).pending = s.pending := rfl
@[simp] theorem dropCount_pending (s ch c q) : (dropCount s ch c q).pending = s.pending := by simp [dropCount]
@[simp] theorem queueTook_pending (s ch c q inp) : (queueTook s ch c q inp).pending = s.pending := rfl

@[simp] theorem execClQctrlUnpoison_pending (r c q s) : (after (execClQctrlUnpoison r c q s) s).pending = s.pending := by
  refine rowGate_pending _ _ _ _ fun s => samePending_iff.2 ?_
  split
  · rw [setClu_pending, pending_foldl (by simp), fset_pending, setQueue_pending]
  · exact qErr_pending ..

@[simp] theorem execClQcfgWrite_pending (r c q v s) : (after (execClQcfgWrite r c q v s) s).pending = s.pending := by
  simp [execClQcfgWrite]

@[simp] theorem execClHtWrite_pending (r c n v s) : (after (execClHtWrite r c n v s) s).pending = s.pending := by
  simp [execClHtWrite]

/-! ### The tile array and its edge -/

@[simp] theorem putOut_pending (s ch c t out f) : (putOut s ch c t out f).pending = s.pending := by
  unfold putOut
  split <;> simp

@[simp] theorem markServed_pending (s ch c t p o) : (markServed s ch c t p o).pending = s.pending := rfl

@[simp] theorem routeLink_pending (ch c t) (heads : List (Nat × Flit × List Nat × Nat × Bool)) (s o) :
    (routeLink ch c t heads s o).pending = s.pending := by
  simp only [routeLink]
  (repeat' split) <;> simp

@[simp] theorem routeLocal_pending (ch c t s) (h : Nat × Flit × List Nat × Nat × Bool) :
    (routeLocal ch c t s h).pending = s.pending := by
  simp [routeLocal]

@[simp] theorem execCreditReturn_pending (q s) : (after (execCreditReturn q s) s).pending = s.pending := by
  simp only [execCreditReturn, after_next]
  split <;> simp

@[simp] theorem portPop_pending (s ch c p) : (portPop s ch c p).pending = s.pending := rfl

@[simp] theorem portTake_pending (k s x y z) : (portTake k s x y z).pending = s.pending := by
  fun_induction portTake k s x y z <;> simp_all

theorem penFlit_pending {s t : State} {ch c p : Nat} {f : Flit} (h : penFlit s ch c p f = some t) : t.pending = s.pending := by
  simp only [penFlit] at h
  split at h
  · cases h; simp
  · split at h <;> cases h
    simp

@[simp] theorem egressDrop_pending (s ch c p n q route code) : (egressDrop s ch c p n q route code).pending = s.pending := by
  simp [egressDrop]

@[simp] theorem emitEnd_pending (s ch c n) : (emitEnd s ch c n).pending = s.pending := by simp [emitEnd]
@[simp] theorem emitFlit_pending (s ch k port n) : (emitFlit s ch k port n).pending = s.pending := by simp [emitFlit]

/-! ### Depot banks -/

@[simp] theorem bankTook_pending (s ch c bank src) : (bankTook s ch c bank src).pending = s.pending := rfl

@[simp] theorem execDepotPortEmit_pending (c port n s) : (after (execDepotPortEmit c port n s) s).pending = s.pending := by
  simp [execDepotPortEmit]

/-! ### Commands of the stream buffers -/

@[simp] theorem sbGuard_pending (r c s) (f : State → State) (hf : ∀ s, SamePending s (f s)) :
    (sbGuard r c s f).pending = s.pending := by
  simp only [samePending_iff] at hf
  simp [sbGuard, hf]

@[simp] theorem execClSbCtrlCommit_pending (r c n s) : (after (execClSbCtrlCommit r c n s) s).pending = s.pending := by
  simp [execClSbCtrlCommit]

@[simp] theorem execSbConfigApply_pending (c n s) : (after (execSbConfigApply c n s) s).pending = s.pending := by
  simp only [execSbConfigApply, after_next]
  split <;> simp

@[simp] theorem execClSbCtrlSwap_pending (r c n s) : (after (execClSbCtrlSwap r c n s) s).pending = s.pending := by
  simp [execClSbCtrlSwap]

@[simp] theorem sbSwapNow_pending (s ch c n) : (sbSwapNow s ch c n).pending = s.pending := rfl
@[simp] theorem execSbSwap_pending (c n s) : (after (execSbSwap c n s) s).pending = s.pending := by simp [execSbSwap]
@[simp] theorem sbPubNow_pending (s ch c n) : (sbPubNow s ch c n).pending = s.pending := by simp [sbPubNow]
@[simp] theorem sbWait_pending (s w c n pub) : (sbWait s w c n pub).pending = s.pending := rfl

@[simp] theorem execClSbCtrlPub_pending (r c n s) : (after (execClSbCtrlPub r c n s) s).pending = s.pending := by
  refine rowGate_pending _ _ _ _ fun s => samePending_iff.2 (sbGuard_pending _ _ _ _ fun s => samePending_iff.2 ?_)
  split <;> simp

@[simp] theorem execClSbCtrlRel_pending (r c n s) : (after (execClSbCtrlRel r c n s) s).pending = s.pending := by
  refine rowGate_pending _ _ _ _ fun s => samePending_iff.2 (sbGuard_pending _ _ _ _ fun s => samePending_iff.2 ?_)
  (repeat' split) <;> simp

@[simp] theorem sbDueAct_pending (ch s d) : (sbDueAct ch s d).pending = s.pending := by simp [sbDueAct]
@[simp] theorem sbDueRun_pending (s ch c w) : (sbDueRun s ch c w).pending = s.pending := by simp [sbDueRun]

@[simp] theorem execClSbCtrlFlush_pending (r c n s) : (after (execClSbCtrlFlush r c n s) s).pending = s.pending := by
  simp [execClSbCtrlFlush]

/-! ### Dolly descriptors -/

@[simp] theorem egcStop_pending (s ch c n code) : (egcStop s ch c n code).pending = s.pending := by simp [egcStop]

@[simp] theorem egcStep_pending (s ch c n d) : (egcStep s ch c n d).1.pending = s.pending := by
  simp only [egcStep]
  (repeat' split) <;> simp

@[simp] theorem egcRun_pending (k s ch c n) : (egcRun k s ch c n).pending = s.pending := by
  induction k generalizing s with
  | zero => rfl
  | succ k ih =>
    unfold egcRun
    split
    · rfl
    · next d _ =>
      have step := egcStep_pending s ch c n d
      split
      · next h => rw [ih, ← step, h]
      · next h => rw [← step, h]

theorem dollyWrite_pending {s t : State} {ch c n : Nat} {d : DSlot} (h : dollyWrite s ch c n d = some t) :
    t.pending = s.pending := by
  simp only [dollyWrite, Option.ite_none_left_eq_some, Option.some.injEq] at h
  obtain ⟨-, rfl⟩ := h
  split <;> simp

@[simp] theorem startPreload_pending (ch s c) : (startPreload ch s c).pending = s.pending := by
  unfold startPreload
  split <;> simp

/-! ### Commands of the sync unit -/

@[simp] theorem busyAnswer_pending (s ch r) : (busyAnswer s ch r).pending = s.pending := by
  unfold busyAnswer
  split <;> simp

@[simp] theorem addWaiter_pending (s ch r bar thr) : (addWaiter s ch r bar thr).pending = s.pending := by
  unfold addWaiter
  split <;> simp

@[simp] theorem execStewardPark_pending (w s) : (after (execStewardPark w s) s).pending = s.pending := by
  simp only [execStewardPark, after_next]
  split <;> simp

@[simp] theorem execSyncOutPulse_pending (s) : (after (execSyncOutPulse s) s).pending = s.pending := by simp [execSyncOutPulse]
@[simp] theorem execSyncOutEnd_pending (s) : (after (execSyncOutEnd s) s).pending = s.pending := by simp [execSyncOutEnd]

@[simp] theorem execChSyncselWrite_pending (r ch v s) : (after (execChSyncselWrite r ch v s) s).pending = s.pending := by
  simp [execChSyncselWrite]

@[simp] theorem syncCtrl_pending (r ch s) (f : State → Nat → State) (hf : ∀ s a, SamePending s (f s a)) :
    (syncCtrl r ch s f).pending = s.pending := by
  simp only [samePending_iff] at hf
  simp [syncCtrl, hf]

@[simp] theorem execChSyncctrlUnpoison_pending (r ch s) : (after (execChSyncctrlUnpoison r ch s) s).pending = s.pending := by
  simp [execChSyncctrlUnpoison]

/-! ### Non-finite monitor and predictor -/

@[simp] theorem nfCode_pending (s ch code) : (nfCode s ch code).pending = s.pending := rfl

@[simp] theorem nfGuard_pending (r ch s) (f : State → State) (hf : ∀ s, SamePending s (f s)) :
    (nfGuard r ch s f).pending = s.pending := by
  simp only [samePending_iff] at hf
  simp [nfGuard, hf]

@[simp] theorem execChNfctrlArm_pending (r ch s) : (after (execChNfctrlArm r ch s) s).pending = s.pending := by
  simp [execChNfctrlArm]

@[simp] theorem execChNfctrlAbort_pending (r ch s) : (after (execChNfctrlAbort r ch s) s).pending = s.pending := by
  simp [execChNfctrlAbort]

@[simp] theorem execChNfcfgCommit_pending (r ch s) : (after (execChNfcfgCommit r ch s) s).pending = s.pending := by
  simp [execChNfcfgCommit]

@[simp] theorem execNfConfigApply_pending (ch s) : (after (execNfConfigApply ch s) s).pending = s.pending := by
  simp only [execNfConfigApply, after_next]
  split <;> simp

@[simp] theorem predQuery_pending (s ch f k) : (predQuery s ch f k).1.pending = s.pending := by
  simp only [predQuery]
  (repeat' split) <;> simp

@[simp] theorem predUpdate_pending (s ch f k v) : (predUpdate s ch f k v).pending = s.pending := by simp [predUpdate]

@[simp] theorem execChPredctrlClear_pending (r ch s) : (after (execChPredctrlClear r ch s) s).pending = s.pending := by
  simp [execChPredctrlClear]

/-! ### Reels and the load sequencer -/

@[simp] theorem execChLdctrlGo_pending (r ch s) : (after (execChLdctrlGo r ch s) s).pending = s.pending := by
  simp [execChLdctrlGo]

@[simp] theorem takeCluster_pending (ch l s c) : (takeCluster ch l s c).pending = s.pending := by
  rw [takeCluster, wakeDistrict_pending, setClu_pending, setReg_pending, setReg_pending,
    pending_foldl fun _ _ => fset_pending ..]
  rfl

@[simp] theorem applyRemap_pending (s ch c) : (applyRemap s ch c).pending = s.pending := by simp [applyRemap]

@[simp] theorem freshTile_pending (ch c mode seed s t) : (freshTile ch c mode seed s t).pending = s.pending := by
  rw [freshTile]
  exact (pending_foldl (by simp) _ _).trans rfl

@[simp] theorem tileRec_pending (r ch c s t) : (tileRec r ch c s t).pending = s.pending := by simp [tileRec]
@[simp] theorem applySteward_pending (ch s r) : (applySteward ch s r).pending = s.pending := by simp [applySteward]

@[simp] theorem freshCluster_pending (ch b s c) : (freshCluster ch b s c).pending = s.pending := by
  rw [freshCluster, setClu_pending, fset_pending, fset_pending, pending_foldl (by simp), pending_foldl (by simp),
    pending_foldl (by simp), pending_foldl (by simp), applyRemap_pending]

@[simp] theorem execChLdctrlCommit_pending (r ch s) : (after (execChLdctrlCommit r ch s) s).pending = s.pending := by
  simp [execChLdctrlCommit]

@[simp] theorem releaseStw_pending (s ch c w entry run) : (releaseStw s ch c w entry run).pending = s.pending := rfl

@[simp] theorem releaseTiles_pending (s ch c) : (releaseTiles s ch c).pending = s.pending := by
  simp only [releaseTiles]
  split
  · exact pending_foldl (fun _ _ => fset_pending ..) _ _
  · rw [releaseStw_pending, releaseStw_pending, pending_foldl fun _ _ => fset_pending ..]

@[simp] theorem applyStep_pending (ch k s c) : (applyStep ch k s c).pending = s.pending := by simp [applyStep]
@[simp] theorem applySteps_pending (s ch k) : (applySteps s ch k).pending = s.pending := by simp [applySteps]

/-! ### The Seal unit -/

@[simp] theorem setRun_pending (s ch) (f : SealRun → SealRun) : (setRun s ch f).pending = s.pending := rfl
@[simp] theorem sealAsk_pending (s ch e l) : (sealAsk s ch e l).pending = s.pending := by simp [sealAsk]

@[simp] theorem execSealEntryBegin_pending (ch s) : (after (execSealEntryBegin ch s) s).pending = s.pending := by
  simp only [execSealEntryBegin, after_next]
  (repeat' split) <;> simp

@[simp] theorem execSealContextLoadDone_pending (ch s) : (after (execSealContextLoadDone ch s) s).pending = s.pending := by
  simp only [execSealContextLoadDone, after_next]
  (repeat' split) <;> simp

@[simp] theorem noiseEnd_pending (s ch n list which value) : (noiseEnd s ch n list which value).pending = s.pending := by
  simp [noiseEnd]

@[simp] theorem execSealCheckDone_pending (ch s) : (after (execSealCheckDone ch s) s).pending = s.pending := by
  simp only [execSealCheckDone, after_next]
  (repeat' split) <;> simp

@[simp] theorem bootstrap_pending (s ch x bsk jobs) : (bootstrap s ch x bsk jobs).1.pending = s.pending := rfl

@[simp] theorem execKeyStreamRead_pending (ch s) : (after (execKeyStreamRead ch s) s).pending = s.pending := by
  simp only [execKeyStreamRead, after_next]
  (repeat' split) <;> simp

@[simp] theorem execSealRefreshDone_pending (ch s) : (after (execSealRefreshDone ch s) s).pending = s.pending := by
  simp only [execSealRefreshDone, after_next, bootstrap]
  (repeat' split) <;> simp

@[simp] theorem execSealPbsPassDone_pending (ch s) : (after (execSealPbsPassDone ch s) s).pending = s.pending := by
  simp only [execSealPbsPassDone, after_next]
  (repeat' split) <;> simp

@[simp] theorem execSealKswPassDone_pending (ch s) : (after (execSealKswPassDone ch s) s).pending = s.pending := by
  simp only [execSealKswPassDone, after_next]
  (repeat' split) <;> simp

@[simp] theorem execSealLinearDone_pending (ch s) : (after (execSealLinearDone ch s) s).pending = s.pending := by
  simp only [execSealLinearDone, after_next]
  split <;> simp

theorem writeOut_pending (ch fn acc t) : (writeOut ch fn acc t).1.pending = acc.1.pending := by
  simp only [writeOut]
  split <;> simp

theorem foldl_writeOut_pending (ch : Nat) (fn : Option Nat) (l : List (Nat × SealObj))
    (acc : State × List (Nat × List Nat)) : (l.foldl (writeOut ch fn) acc).1.pending = acc.1.pending := by
  induction l generalizing acc with
  | nil => rfl
  | cons t r ih => exact (ih _).trans (writeOut_pending ch fn acc t)

@[simp] theorem execSealWriteBegin_pending (ch s) : (after (execSealWriteBegin ch s) s).pending = s.pending := by
  simp only [execSealWriteBegin, after_next]
  (repeat' split) <;> simp [foldl_writeOut_pending]

@[simp] theorem sealAbort_pending (s ch code) : (sealAbort s ch code).pending = s.pending := by
  unfold sealAbort
  split <;> simp

@[simp] theorem barQueue_pending (s ch) : (barQueue s ch).pending = s.pending := rfl
@[simp] theorem disableNow_pending (s ch) : (disableNow s ch).pending = s.pending := by simp [disableNow]

@[simp] theorem sealWrite_pending (s r ch) (f : State → State) (hf : ∀ s, SamePending s (f s)) :
    (sealWrite s r ch f).pending = s.pending := by
  simp only [samePending_iff] at hf
  simp [sealWrite, hf]

@[simp] theorem execSealCtrlDisable_pending (r ch s) : (after (execSealCtrlDisable r ch s) s).pending = s.pending := by
  simp [execSealCtrlDisable]

@[simp] theorem execSealCtrlEnable_pending (r ch s) : (after (execSealCtrlEnable r ch s) s).pending = s.pending := by
  simp [execSealCtrlEnable]

/-! ### Virtual functions -/

@[simp] theorem configWrite_pending (s) (f : State → State) (hf : ∀ s, SamePending s (f s)) :
    (configWrite s f).pending = s.pending := by
  simp only [samePending_iff] at hf
  simp [configWrite, hf]

@[simp] theorem execVfEnable_pending (n s) : (after (execVfEnable n s) s).pending = s.pending := by simp [execVfEnable]
@[simp] theorem hubDisable_pending (s f) : (hubDisable s f).pending = s.pending := by simp [hubDisable]
@[simp] theorem vfDisable_pending (s f) : (vfDisable s f).pending = s.pending := by simp [vfDisable]

@[simp] theorem execVfEnableClear_pending (s) :
    (after (execVfEnableClear s) s).pending = s.pending := by
  simp [execVfEnableClear]

@[simp] theorem execVfFlr_pending (f s) : (after (execVfFlr f s) s).pending = s.pending := by simp [execVfFlr]
@[simp] theorem execPf0Flr_pending (s) : (after (execPf0Flr s) s).pending = s.pending := by simp [execPf0Flr]
@[simp] theorem portReset_pending (s) : (portReset s).pending = s.pending := by simp [portReset]
@[simp] theorem sealDisable_pending (s ch f) : (sealDisable s ch f).pending = s.pending := by simp [sealDisable]
@[simp] theorem collDisable_pending (s ch f) : (collDisable s ch f).pending = s.pending := by simp [collDisable]
@[simp] theorem scrubQueue_pending (ch s n) : (scrubQueue ch s n).pending = s.pending := rfl
@[simp] theorem fenceDone_pending (s ch) : (fenceDone s ch).pending = s.pending := by simp [fenceDone]

@[simp] theorem execChRptctrlCommit_pending (r ch s) : (after (execChRptctrlCommit r ch s) s).pending = s.pending := by
  simp [execChRptctrlCommit]

@[simp] theorem execHubRptCopyUpdate_pending (ch s) : (after (execHubRptCopyUpdate ch s) s).pending = s.pending := by
  simp [execHubRptCopyUpdate]

@[simp] theorem startFence_pending (s ch) : (startFence s ch).pending = s.pending := rfl

@[simp] theorem execChRptctrlFence_pending (r ch s) : (after (execChRptctrlFence r ch s) s).pending = s.pending := by
  simp [execChRptctrlFence]

@[simp] theorem execHubRptfenceStart_pending (r mask s) : (after (execHubRptfenceStart r mask s) s).pending = s.pending := by
  simp [execHubRptfenceStart]

@[simp] theorem abortSlot_pending (ch code s x) : (abortSlot ch code s x).pending = s.pending := by simp [abortSlot]

@[simp] theorem execVfGrantselWrite_pending (r f v s) : (after (execVfGrantselWrite r f v s) s).pending = s.pending := by
  simp [execVfGrantselWrite]

@[simp] theorem execVfWinselWrite_pending (r f v s) : (after (execVfWinselWrite r f v s) s).pending = s.pending := by
  simp [execVfWinselWrite]

/-! ### The host port -/

@[simp] theorem execPerstNEdge_pending (s) : (after (execPerstNEdge s) s).pending = s.pending := by simp [execPerstNEdge]

@[simp] theorem execPerstNFilterExpiry_pending (s) : (after (execPerstNFilterExpiry s) s).pending = s.pending := by
  simp [execPerstNFilterExpiry]

@[simp] theorem execPerstNDeassert_pending (s) : (after (execPerstNDeassert s) s).pending = s.pending := by
  simp [execPerstNDeassert]

@[simp] theorem execPcieLinkReady_pending (rate width flit s) :
    (after (execPcieLinkReady rate width flit s) s).pending = s.pending := by
  simp [execPcieLinkReady]

@[simp] theorem execPcieLinkDown_pending (s) : (after (execPcieLinkDown s) s).pending = s.pending := by simp [execPcieLinkDown]

@[simp] theorem execPowerStateWrite_pending (f d3 s) : (after (execPowerStateWrite f d3 s) s).pending = s.pending := by
  simp [execPowerStateWrite]

@[simp] theorem ringCode_pending (s f n code) : (ringCode s f n code).pending = s.pending := rfl

@[simp] theorem ringDoorbell_pending (s f n v) (act : State → State) (hf : ∀ s, SamePending s (act s)) :
    (ringDoorbell s f n v act).pending = s.pending := by
  simp only [samePending_iff] at hf
  simp [ringDoorbell, hf]

@[simp] theorem execSubmissionDoorbell_pending (f ring v s) :
    (after (execSubmissionDoorbell f ring v s) s).pending = s.pending := by
  simp [execSubmissionDoorbell]

@[simp] theorem execCompletionDoorbell_pending (f ring v s) :
    (after (execCompletionDoorbell f ring v s) s).pending = s.pending := by
  simp [execCompletionDoorbell]

@[simp] theorem execEventQueueDoorbell_pending (f v s) : (after (execEventQueueDoorbell f v s) s).pending = s.pending := by
  simp only [execEventQueueDoorbell, after_next]
  (repeat' split) <;> simp

@[simp] theorem ringApply_pending (s f n c) : (ringApply s f n c).pending = s.pending := rfl

@[simp] theorem ringWrite_pending (s r f n) (act : State → State) (hf : ∀ s, SamePending s (act s)) :
    (ringWrite s r f n act).pending = s.pending := by
  simp only [samePending_iff] at hf
  simp [ringWrite, hf]

@[simp] theorem execVfRingCtrlCommit_pending (r f ring s) :
    (after (execVfRingCtrlCommit r f ring s) s).pending = s.pending := by
  simp [execVfRingCtrlCommit]

@[simp] theorem execRingConfigApply_pending (f ring s) : (after (execRingConfigApply f ring s) s).pending = s.pending := by
  simp only [execRingConfigApply, after_next]
  split <;> simp

@[simp] theorem execVfRingCtrlEnable_pending (r f ring s) :
    (after (execVfRingCtrlEnable r f ring s) s).pending = s.pending := by
  simp [execVfRingCtrlEnable]

@[simp] theorem execVfRingCtrlDisable_pending (r f ring s) :
    (after (execVfRingCtrlDisable r f ring s) s).pending = s.pending := by
  simp [execVfRingCtrlDisable]

@[simp] theorem evqApply_pending (s f c) : (evqApply s f c).pending = s.pending := rfl

@[simp] theorem execVfEvqCtrlCommit_pending (r f s) : (after (execVfEvqCtrlCommit r f s) s).pending = s.pending := by
  simp [execVfEvqCtrlCommit]

@[simp] theorem execVfEvqCtrlEnable_pending (r f s) : (after (execVfEvqCtrlEnable r f s) s).pending = s.pending := by
  simp [execVfEvqCtrlEnable]

@[simp] theorem execVfEvqCtrlDisable_pending (r f s) : (after (execVfEvqCtrlDisable r f s) s).pending = s.pending := by
  simp [execVfEvqCtrlDisable]

@[simp] theorem execRingFetch_pending (s) : (after (execRingFetch s) s).pending = s.pending := by
  simp only [execRingFetch, after_next]
  (repeat' split) <;> simp

@[simp] theorem hubRefused_pending (s ch f code a) : (hubRefused s ch f code a).pending = s.pending := by simp [hubRefused]

@[simp] theorem startRing_pending (k s f n) : (startRing k s f n).pending = s.pending := by
  induction k generalizing s with
  | zero => rfl
  | succ k ih =>
    simp only [startRing]
    (repeat' split) <;> simp [ih]

@[simp] theorem execRingEntryArrive_pending (f ring entries s) :
    (after (execRingEntryArrive f ring entries s) s).pending = s.pending := by
  simp [execRingEntryArrive]

@[simp] theorem execFencedCommandStart_pending (f ring s) :
    (after (execFencedCommandStart f ring s) s).pending = s.pending := by
  simp [execFencedCommandStart]

@[simp] theorem onCmd_pending (s f n op) (act : State → CmdRef → HCmd → State) (hf : ∀ s a b, SamePending s (act s a b)) :
    (onCmd s f n op act).pending = s.pending := by
  simp only [samePending_iff] at hf
  unfold onCmd
  split <;> simp [hf]

@[simp] theorem execCmdNop_pending (f ring s) : (after (execCmdNop f ring s) s).pending = s.pending := by simp [execCmdNop]
@[simp] theorem execCopyIn_pending (f ring s) : (after (execCopyIn f ring s) s).pending = s.pending := by simp [execCopyIn]
@[simp] theorem execFwcall_pending (f ring s) : (after (execFwcall f ring s) s).pending = s.pending := by simp [execFwcall]
@[simp] theorem wantMsi_pending (s f vec) : (wantMsi s f vec).pending = s.pending := rfl

@[simp] theorem execCompletionWrite_pending (f ring s) : (after (execCompletionWrite f ring s) s).pending = s.pending := by
  simp only [execCompletionWrite, after_next]
  split <;> simp

@[simp] theorem execEventWrite_pending (f s) : (after (execEventWrite f s) s).pending = s.pending := by
  simp only [execEventWrite, after_next]
  (repeat' split) <;> simp

@[simp] theorem execMsixSend_pending (f vec s) : (after (execMsixSend f vec s) s).pending = s.pending := by simp [execMsixSend]

@[simp] theorem execVfApBaseWrite_pending (r f ap v s) : (after (execVfApBaseWrite r f ap v s) s).pending = s.pending := by
  simp [execVfApBaseWrite]

@[simp] theorem hostFailAer_pending (s f k) : (hostFailAer s f k).pending = s.pending := by
  unfold hostFailAer
  split <;> simp

@[simp] theorem execHostReadFailure_pending (f ring copy why s) :
    (after (execHostReadFailure f ring copy why s) s).pending = s.pending := by
  simp only [execHostReadFailure, after_next]
  (repeat' split) <;> simp

/-! ### Caravan Transport -/

theorem ctSend_pending {s t : State} {ch n : Nat} {p : CPkt} (h : ctSend s ch n p = some t) : t.pending = s.pending := by
  obtain ⟨port, -, rfl⟩ := Option.map_eq_some_iff.1 h
  simp

theorem ctCtl_pending {s t : State} {ch n : Nat} {p : CPkt} (h : ctCtl s ch n p = some t) : t.pending = s.pending := by
  obtain ⟨u, hu, rfl⟩ := Option.map_eq_some_iff.1 h
  simp [ctSend_pending hu]

@[simp] theorem setStream_pending (s ch n k) (g : CStream → CStream) : (setStream s ch n k g).pending = s.pending := rfl

@[simp] theorem sendAck_pending (s ch n k) : (sendAck s ch n k).pending = s.pending := by
  simp only [sendAck]
  split
  · next h => simp [ctCtl_pending h]
  · rfl

@[simp] theorem execCtPacketTransmit_pending (ch flow stream s) :
    (after (execCtPacketTransmit ch flow stream s) s).pending = s.pending := by
  simp only [execCtPacketTransmit, after_next]
  split
  · rfl
  · split
    · rfl
    · split
      · rfl
      · next h => simp [ctSend_pending h]

@[simp] theorem ctResend_pending (s ch n p) : (ctResend s ch n p).pending = s.pending := by
  unfold ctResend
  split
  · rfl
  · next h => simp [ctSend_pending h]

@[simp] theorem execCtAckTimer_pending (ch flow stream s) :
    (after (execCtAckTimer ch flow stream s) s).pending = s.pending := by
  simp [execCtAckTimer]

@[simp] theorem ctTake_pending (s ch n ce p) : (ctTake s ch n ce p).pending = s.pending := by simp [ctTake]

@[simp] theorem ctReceive_pending (ch port frame ce s) : (ctReceive ch port frame ce s).pending = s.pending := by
  simp only [ctReceive]
  (repeat' split) <;> simp

@[simp] theorem execCtFrameReceive_pending (ch port frame ce s) :
    (after (execCtFrameReceive ch port frame ce s) s).pending = s.pending := by
  simp [execCtFrameReceive]

theorem takeCtl_pending {s t : State} {ch n ty : Nat} {p : CPkt} (h : takeCtl s ch n ty = some (p, t)) :
    t.pending = s.pending := by
  obtain ⟨q, -, hq⟩ := Option.map_eq_some_iff.1 h
  cases hq
  rfl

@[simp] theorem execCtAck_pending (ch flow s) : (after (execCtAck ch flow s) s).pending = s.pending := by
  simp only [execCtAck, after_next]
  split
  · rfl
  · next h =>
    split
    · exact takeCtl_pending h
    · refine (pending_foldl (fun s q => ?_) _ _).trans ?_
      · exact ctResend_pending ..
      · rw [setFlow_pending, setStream_pending, takeCtl_pending h]

@[simp] theorem readPeers_pending (s ch n) : (readPeers s ch n).pending = s.pending := rfl

@[simp] theorem sendOpen_pending (s ch n inc answer) : (sendOpen s ch n inc answer).pending = s.pending := by
  simp only [sendOpen]
  split
  · simp
  · generalize hc : ctCtl _ _ _ _ = o
    cases o with
    | none => simp
    | some t => simp [ctCtl_pending hc]

@[simp] theorem flowInDrop_pending (s ch n) : (flowInDrop s ch n).pending = s.pending := rfl

@[simp] theorem execCtOpenRetry_pending (ch flow s) : (after (execCtOpenRetry ch flow s) s).pending = s.pending := by
  simp [execCtOpenRetry]

@[simp] theorem execCtNoticeResend_pending (ch s) : (after (execCtNoticeResend ch s) s).pending = s.pending := by
  simp only [execCtNoticeResend, after_next]
  split <;> simp

@[simp] theorem deliverPkt_pending (s ch n p) : (deliverPkt s ch n p).pending = s.pending := rfl

@[simp] theorem ctGuard_pending (r ch s) (f : State → State) (hf : ∀ s, SamePending s (f s)) :
    (ctGuard r ch s f).pending = s.pending := by
  simp only [samePending_iff] at hf
  simp [ctGuard, hf]

@[simp] theorem ctIgnore_pending (s ch n) : (ctIgnore s ch n).pending = s.pending := rfl

@[simp] theorem execCtFlowctrlCommit_pending (r ch s) : (after (execCtFlowctrlCommit r ch s) s).pending = s.pending := by
  simp [execCtFlowctrlCommit]

@[simp] theorem execCtFlowctrlOpen_pending (r ch s) : (after (execCtFlowctrlOpen r ch s) s).pending = s.pending := by
  simp [execCtFlowctrlOpen]

@[simp] theorem execCtFlowselWrite_pending (r ch v s) : (after (execCtFlowselWrite r ch v s) s).pending = s.pending := by
  simp [execCtFlowselWrite]

@[simp] theorem flowShadow_pending (s ch i v) : (flowShadow s ch i v).pending = s.pending := rfl
@[simp] theorem groupShadow_pending (s ch i v) : (groupShadow s ch i v).pending = s.pending := rfl

@[simp] theorem execCtGrpctrlCommit_pending (r ch s) : (after (execCtGrpctrlCommit r ch s) s).pending = s.pending := by
  simp [execCtGrpctrlCommit]

@[simp] theorem execCtGrpselWrite_pending (r ch v s) : (after (execCtGrpselWrite r ch v s) s).pending = s.pending := by
  simp [execCtGrpselWrite]

@[simp] theorem execCtLccfgCommit_pending (r ch s) : (after (execCtLccfgCommit r ch s) s).pending = s.pending := by
  simp [execCtLccfgCommit]

@[simp] theorem execCtPortCfgCommit_pending (r ch site s) :
    (after (execCtPortCfgCommit r ch site s) s).pending = s.pending := by
  simp [execCtPortCfgCommit]

@[simp] theorem execPortLinkDown_pending (ch port s) : (after (execPortLinkDown ch port s) s).pending = s.pending := by
  simp [execPortLinkDown]

@[simp] theorem execPortLinkUp_pending (ch port s) : (after (execPortLinkUp ch port s) s).pending = s.pending := by
  simp [execPortLinkUp]

/-! ### Collectives -/

@[simp] theorem collNeed_pending (s ch f l) (go : State → State) (hf : ∀ s, SamePending s (go s)) :
    (collNeed s ch f l go).pending = s.pending := by
  simp only [samePending_iff] at hf
  simp [collNeed, hf]

@[simp] theorem sendSegs_pending (s ch l) : (sendSegs s ch l).pending = s.pending := by
  simp only [sendSegs]
  (repeat' split) <;> simp

@[simp] theorem collWrite_pending (s ch k lo xs psn) : (collWrite s ch k lo xs psn).pending = s.pending := by simp [collWrite]
@[simp] theorem collSeen_pending (s ch ncomp cmax) : (collSeen s ch ncomp cmax).pending = s.pending := rfl

@[simp] theorem finalise_pending (s ch k lo els psn ncomp cmax sends) :
    (finalise s ch k lo els psn ncomp cmax sends).pending = s.pending := by
  simp [finalise]

@[simp] theorem collDone_pending (s ch) : (collDone s ch).pending = s.pending := by
  unfold collDone
  split <;> simp

@[simp] theorem collAdvance_pending (k s x) : (collAdvance k s x).pending = s.pending := by
  fun_induction collAdvance k s x <;> simp_all

@[simp] theorem collGo_pending (s ch) : (collGo s ch).pending = s.pending := by
  unfold collGo
  split <;> simp

@[simp] theorem collStart_pending (s ch k g) : (collStart s ch k g).pending = s.pending := by simp [collStart]
@[simp] theorem collGoes_pending (s ch k g) : (collGoes s ch k g).pending = s.pending := by simp [collGoes]
@[simp] theorem collFeed_pending (s ch k g) : (collFeed s ch k g).pending = s.pending := by simp [collFeed]
@[simp] theorem collClip_pending (s ch k g) : (collClip s ch k g).pending = s.pending := by simp [collClip]
@[simp] theorem collRead_pending (s ch c) : (collRead s ch c).pending = s.pending := by simp [collRead]

@[simp] theorem execCollectiveBegin_pending (ch s) : (after (execCollectiveBegin ch s) s).pending = s.pending := by
  simp only [execCollectiveBegin, after_next]
  split <;> simp

@[simp] theorem collSegment_pending (s ch k g p) : (collSegment s ch k g p).pending = s.pending := by simp [collSegment]

@[simp] theorem execCtColl_pending (ch flow s) : (after (execCtColl ch flow s) s).pending = s.pending := by
  simp only [execCtColl, after_next]
  split <;> simp

@[simp] theorem execCollectiveTimeout_pending (ch s) : (after (execCollectiveTimeout ch s) s).pending = s.pending := by
  simp [execCollectiveTimeout]

/-! ### The hub -/

@[simp] theorem execHubCapsMirrorUpdate_pending (ch s) : (after (execHubCapsMirrorUpdate ch s) s).pending = s.pending := by
  simp [execHubCapsMirrorUpdate]

@[simp] theorem execPcieRefclkLoss_pending (s) : (after (execPcieRefclkLoss s) s).pending = s.pending := by
  simp [execPcieRefclkLoss]

@[simp] theorem stwWrite_pending (s r w) (f : State → State) (hf : ∀ s, SamePending s (f s)) :
    (stwWrite s r w f).pending = s.pending := by
  simp only [samePending_iff] at hf
  simp [stwWrite, hf]

@[simp] theorem execClStwCtrlHalt_pending (r w s) : (after (execClStwCtrlHalt r w s) s).pending = s.pending := by
  simp [execClStwCtrlHalt]

@[simp] theorem execStewardHaltEffect_pending (w s) : (after (execStewardHaltEffect w s) s).pending = s.pending := by
  simp [execStewardHaltEffect]

@[simp] theorem execClStwCtrlResume_pending (r w s) : (after (execClStwCtrlResume r w s) s).pending = s.pending := by
  simp [execClStwCtrlResume]

@[simp] theorem execClStwCtrlStep_pending (r w s) : (after (execClStwCtrlStep r w s) s).pending = s.pending := by
  simp [execClStwCtrlStep]

/-! ### Resets, boot and the nonvolatile store -/

@[simp] theorem setFlash_pending (s m) : (setFlash s m).pending = s.pending := rfl
@[simp] theorem fProg_pending (s a k) : (fProg s a k).pending = s.pending := by fun_induction fProg s a k <;> simp_all
@[simp] theorem fErase_pending (s a n) : (fErase s a n).pending = s.pending := rfl
@[simp] theorem setBusy_pending (s b) : (setBusy s b).pending = s.pending := rfl
@[simp] theorem nvCode_pending (s c) : (nvCode s c).pending = s.pending := by simp [nvCode]
@[simp] theorem idleBusy_pending (s) : (idleBusy s).pending = s.pending := by simp [idleBusy]
@[simp] theorem nvStart_pending (s kind toLc g) : (nvStart s kind toLc g).pending = s.pending := rfl
@[simp] theorem nvProgram_pending (s j upto) : (nvProgram s j upto).pending = s.pending := by simp [nvProgram]

@[simp] theorem showStore_pending (s) : (showStore s).pending = s.pending := by
  simp only [showStore]
  (repeat' split) <;> simp

@[simp] theorem showRecords_pending (s) : (showRecords s).pending = s.pending := by simp [showRecords]

@[simp] theorem execNvFaultAppend_pending (s) : (after (execNvFaultAppend s) s).pending = s.pending := by
  simp only [execNvFaultAppend, after_next]
  split <;> simp

@[simp] theorem decommission_pending (s) : (decommission s).pending = s.pending := by simp [decommission]

@[simp] theorem execNvGenerationDone_pending (ok s) : (after (execNvGenerationDone ok s) s).pending = s.pending := by
  simp only [execNvGenerationDone, after_next]
  split
  · rfl
  · next j _ =>
    split
    · generalize hu : nvProgram { s with nv := { s.nv with job := none } } j 3 = u
      have kept : u.pending = s.pending := by rw [← hu, nvProgram_pending]
      rw [pending_ite, decommission_pending, ite_self, idleBusy_pending, pending_ite, mgmtEvent_pending, fset_pending, ite_self,
        showRecords_pending, nvCode_pending, showStore_pending]
      exact kept
    · exact (idleBusy_pending _).trans ((nvCode_pending ..).trans (fErase_pending ..))

@[simp] theorem execNvEraseDone_pending (s) : (after (execNvEraseDone s) s).pending = s.pending := by
  simp only [execNvEraseDone, after_next]
  (repeat' split) <;> simp

@[simp] theorem nvGuard_pending (r s) (f : State → State) (hf : ∀ s, SamePending s (f s)) :
    (nvGuard r s f).pending = s.pending := by
  simp only [samePending_iff] at hf
  simp [nvGuard, hf]

@[simp] theorem nvKeep_pending (s kind g) : (nvKeep s kind g).pending = s.pending := by simp [nvKeep]

@[simp] theorem execNvCtrlCommit_pending (r s) : (after (execNvCtrlCommit r s) s).pending = s.pending := by
  simp [execNvCtrlCommit]

@[simp] theorem execNvCtrlLcreq_pending (r s) : (after (execNvCtrlLcreq r s) s).pending = s.pending := by
  refine hostGate_pending _ _ _ fun s => samePending_iff.2 (nvGuard_pending _ _ _ fun s => samePending_iff.2 ?_)
  dsimp only
  split <;> simp

@[simp] theorem execNvCtrlLccancel_pending (r s) : (after (execNvCtrlLccancel r s) s).pending = s.pending := by
  simp [execNvCtrlLccancel]

@[simp] theorem execNvCtrlFclear_pending (r s) : (after (execNvCtrlFclear r s) s).pending = s.pending := by
  simp [execNvCtrlFclear]

@[simp] theorem newChallenge_pending (s) : (newChallenge s).pending = s.pending := rfl

@[simp] theorem execNvCtrlAuthgo_pending (r s) : (after (execNvCtrlAuthgo r s) s).pending = s.pending := by
  simp [execNvCtrlAuthgo]

@[simp] theorem execPwrgdFall_pending (s) : (after (execPwrgdFall s) s).pending = s.pending := by simp [execPwrgdFall]

@[simp] theorem cutStore_pending (s cut) : (cutStore s cut).pending = s.pending := by
  simp only [cutStore]
  (repeat' split) <;> simp

@[simp] theorem execPwrgdHighStable_pending (s) : (after (execPwrgdHighStable s) s).pending = s.pending := by
  simp [execPwrgdHighStable]

@[simp] theorem execHubRstctrlWrite_pending (r v s) : (after (execHubRstctrlWrite r v s) s).pending = s.pending := by
  simp [execHubRstctrlWrite]

@[simp] theorem setResult_pending (s slot r) : (setResult s slot r).pending = s.pending := by simp [setResult]

@[simp] theorem trySlots_pending (minsvn failA failB l s) : (trySlots minsvn failA failB l s).1.pending = s.pending := by
  induction l generalizing s with
  | nil => rfl
  | cons n rest ih =>
    simp only [trySlots]
    (repeat' split) <;> simp [ih]

@[simp] theorem romPrepare_pending (s) : (romPrepare s).pending = s.pending := rfl
@[simp] theorem romLatch_pending (s sel tie) : (romLatch s sel tie).pending = s.pending := by simp [romLatch]
@[simp] theorem romStart_pending (s slot n) : (romStart s slot n).pending = s.pending := rfl

@[simp] theorem execRomBoot_pending (failA failB s) : (after (execRomBoot failA failB s) s).pending = s.pending := by
  simp only [execRomBoot, after_next]
  (repeat' split) <;> simp

@[simp] theorem applyRec_pending (s r) : (applyRec s r).pending = s.pending := by
  unfold applyRec
  split <;> simp

@[simp] theorem showMirrors_pending (s) : (showMirrors s).pending = s.pending := by simp [showMirrors]
@[simp] theorem latchMode_pending (s) : (latchMode s).pending = s.pending := by simp [latchMode]

@[simp] theorem execFieldReadyTimeout_pending (ch s) : (after (execFieldReadyTimeout ch s) s).pending = s.pending := by
  simp [execFieldReadyTimeout]

/-! ### Management, telemetry and debug -/

@[simp] theorem respond_pending (s code data) : (respond s code data).pending = s.pending := rfl

@[simp] theorem execSetEndpointId_pending (eid s) : (after (execSetEndpointId eid s) s).pending = s.pending := by
  simp [execSetEndpointId]

@[simp] theorem execGetEndpointId_pending (s) :
    (after (execGetEndpointId s) s).pending = s.pending := by
  simp [execGetEndpointId]

@[simp] theorem execGetEndpointUuid_pending (s) : (after (execGetEndpointUuid s) s).pending = s.pending := by
  simp [execGetEndpointUuid]

@[simp] theorem execGetMctpVersionSupport_pending (s) : (after (execGetMctpVersionSupport s) s).pending = s.pending := by
  simp [execGetMctpVersionSupport]

@[simp] theorem execGetMessageTypeSupport_pending (s) : (after (execGetMessageTypeSupport s) s).pending = s.pending := by
  simp [execGetMessageTypeSupport]

@[simp] theorem execGetVendorMessageSupport_pending (s) : (after (execGetVendorMessageSupport s) s).pending = s.pending := by
  simp [execGetVendorMessageSupport]

@[simp] theorem execSmbusArp_pending (addr s) : (after (execSmbusArp addr s) s).pending = s.pending := by simp [execSmbusArp]

@[simp] theorem execSmbusLineTimeout_pending (s) : (after (execSmbusLineTimeout s) s).pending = s.pending := by
  simp [execSmbusLineTimeout]

@[simp] theorem execDumpInfo_pending (s) : (after (execDumpInfo s) s).pending = s.pending := by simp [execDumpInfo]

@[simp] theorem execDumpRead_pending (off len s) : (after (execDumpRead off len s) s).pending = s.pending := by
  simp [execDumpRead]

@[simp] theorem execDumpClear_pending (s) : (after (execDumpClear s) s).pending = s.pending := by simp [execDumpClear]

@[simp] theorem execDumpEraseDone_pending (s) :
    (after (execDumpEraseDone s) s).pending = s.pending := by
  simp [execDumpEraseDone]

@[simp] theorem execDlyRead_pending (chn first count s) : (after (execDlyRead chn first count s) s).pending = s.pending := by
  simp only [execDlyRead, after_next]
  split <;> simp

@[simp] theorem execPldmBaseRequest_pending (cmd s) : (after (execPldmBaseRequest cmd s) s).pending = s.pending := by
  simp [execPldmBaseRequest]

@[simp] theorem sensorStep_pending (s p) : (sensorStep s p).pending = s.pending := by simp [sensorStep]

@[simp] theorem execSensorSample_pending (readings s) : (after (execSensorSample readings s) s).pending = s.pending := by
  simp [execSensorSample]

@[simp] theorem execPldmSensorRequest_pending (id s) : (after (execPldmSensorRequest id s) s).pending = s.pending := by
  simp [execPldmSensorRequest]

@[simp] theorem execRequestUpdate_pending (slot s) : (after (execRequestUpdate slot s) s).pending = s.pending := by
  simp [execRequestUpdate]

@[simp] theorem execFirmwareDataTransfer_pending (off data s) :
    (after (execFirmwareDataTransfer off data s) s).pending = s.pending := by
  simp only [execFirmwareDataTransfer, after_next]
  split <;> simp

@[simp] theorem withSram_pending (s u) : (withSram s u).pending = s.pending := by simp [withSram]

@[simp] theorem execVerifyComplete_pending (s) : (after (execVerifyComplete s) s).pending = s.pending := by
  simp only [execVerifyComplete, after_next]
  split <;> simp

@[simp] theorem execActivateFirmware_pending (s) : (after (execActivateFirmware s) s).pending = s.pending := by
  simp only [execActivateFirmware, after_next]
  split <;> simp

@[simp] theorem execAlertResponseRead_pending (s) : (after (execAlertResponseRead s) s).pending = s.pending := by
  simp only [execAlertResponseRead, after_next]
  (repeat' split) <;> simp

@[simp] theorem execAlertHoldoffEnd_pending (s) : (after (execAlertHoldoffEnd s) s).pending = s.pending := by
  simp [execAlertHoldoffEnd]

@[simp] theorem dlyGuard_pending (r ch s) (f : State → State) (hf : ∀ s, SamePending s (f s)) :
    (dlyGuard r ch s f).pending = s.pending := by
  simp only [samePending_iff] at hf
  simp [dlyGuard, hf]

@[simp] theorem execChDlyctrlTrigarm_pending (r ch s) : (after (execChDlyctrlTrigarm r ch s) s).pending = s.pending := by
  simp [execChDlyctrlTrigarm]

@[simp] theorem execChDlyctrlClear_pending (r ch s) : (after (execChDlyctrlClear r ch s) s).pending = s.pending := by
  simp [execChDlyctrlClear]

@[simp] theorem execChDlymarkWrite_pending (r ch v s) : (after (execChDlymarkWrite r ch v s) s).pending = s.pending := by
  simp [execChDlymarkWrite]

@[simp] theorem execHubDlyfreeze_pending (r s) : (after (execHubDlyfreeze r s) s).pending = s.pending := by
  simp only [execHubDlyfreeze, after_next]
  split <;> simp

@[simp] theorem pmOn_pending (r src s) (f : State → Nat → State) (hf : ∀ s a, SamePending s (f s a)) :
    (pmOn r src s f).pending = s.pending := by
  simp only [samePending_iff] at hf
  simp [pmOn, hf]

@[simp] theorem execPmctrlStart_pending (r src s) : (after (execPmctrlStart r src s) s).pending = s.pending := by
  simp [execPmctrlStart]

@[simp] theorem execPmctrlStop_pending (r src s) : (after (execPmctrlStop r src s) s).pending = s.pending := by
  simp [execPmctrlStop]

@[simp] theorem execPmctrlSnap_pending (r src s) : (after (execPmctrlSnap r src s) s).pending = s.pending := by
  refine rowGate_pending _ _ _ _ fun s => samePending_iff.2 (pmOn_pending _ _ _ _ fun s i => samePending_iff.2 ?_)
  exact pending_foldl (fun _ _ => setReg_pending ..) _ _

@[simp] theorem execKeeperDumpDone_pending (bad s) : (after (execKeeperDumpDone bad s) s).pending = s.pending := by
  rw [execKeeperDumpDone, after_next]
  split
  · rw [fset_pending, fset_pending, took_pending, fProg_pending]
  · rfl

@[simp] theorem jtag_pending (s level ir) (f : State → State) (hf : ∀ s, SamePending s (f s)) :
    (jtag s level ir f).pending = s.pending := by
  simp only [samePending_iff] at hf
  simp [jtag, hf]

@[simp] theorem execBypass_pending (s) : (after (execBypass s) s).pending = s.pending := by simp [execBypass]
@[simp] theorem execExtest_pending (v s) : (after (execExtest v s) s).pending = s.pending := by simp [execExtest]

@[simp] theorem execSamplePreload_pending (v s) : (after (execSamplePreload v s) s).pending = s.pending := by
  simp [execSamplePreload]

@[simp] theorem execIdcode_pending (s) : (after (execIdcode s) s).pending = s.pending := by simp [execIdcode]
@[simp] theorem execClamp_pending (s) : (after (execClamp s) s).pending = s.pending := by simp [execClamp]
@[simp] theorem execHighz_pending (s) : (after (execHighz s) s).pending = s.pending := by simp [execHighz]

@[simp] theorem execDlyRd_pending (chn first count s) : (after (execDlyRd chn first count s) s).pending = s.pending := by
  rw [execDlyRd, after_next, jtag_pending]
  intro s
  rw [samePending_iff]
  split <;> simp

@[simp] theorem execTrstNLow_pending (s) : (after (execTrstNLow s) s).pending = s.pending := by simp [execTrstNLow]

/-! ### Register access -/

@[simp] theorem clearRc_pending (s a g i lo) : (clearRc s a g i lo).pending = s.pending := by simp [clearRc]

@[simp] theorem regRead_pending (r a n s) : (regRead r a n s).1.pending = s.pending := by
  simp only [regRead]
  (repeat' split) <;> simp

@[simp] theorem onBit_pending {v k : Nat} {f : State → Host.Outcome State Fault Refusal} {s : State}
    (hf : SamePending s (after (f s) s)) : (onBit v k f s).pending = s.pending := by
  rw [samePending_iff] at hf
  simp [onBit, hf]

@[simp] theorem putRw_pending (s g l i v) : (putRw s g l i v).pending = s.pending := rfl
@[simp] theorem putW1c_pending (s g l i v) : (putW1c s g l i v).pending = s.pending := rfl
@[simp] theorem putReg_pending (s g l i v) : (putReg s g l i v).pending = s.pending := rfl

@[simp] theorem hubPut_pending (r g i v s) : (hubPut r g i v s).pending = s.pending := by
  simp only [hubPut]
  (repeat' split) <;> simp

@[simp] theorem dstPut_pending (r d g i v s) : (dstPut r d g i v s).pending = s.pending := by
  unfold dstPut
  split <;> simp

@[simp] theorem latchHeads_pending (s t i) : (latchHeads s t i).pending = s.pending := by
  refine pending_foldl (fun s p => ?_) _ _
  split <;> simp

@[simp] theorem tlPut_pending (r t g i v s) : (tlPut r t g i v s).pending = s.pending := by
  simp only [tlPut]
  (repeat' split) <;> simp

@[simp] theorem sealPut_pending (r c g i v s) : (sealPut r c g i v s).pending = s.pending := by
  unfold sealPut
  split <;> simp

@[simp] theorem fdlPut_pending (r k g i v s) : (fdlPut r k g i v s).pending = s.pending := by
  unfold fdlPut
  split <;> simp

@[simp] theorem fnPut_pending (r f g i v s) : (fnPut r f g i v s).pending = s.pending := by
  simp only [fnPut]
  (repeat' split) <;> simp

@[simp] theorem armReg_pending (a off g i v s) : (armReg a off g i v s).pending = s.pending := by
  simp only [armReg]
  (repeat' split) <;> simp

theorem msixWrite_pending {s t : State} {r : Requester} {f off n v : Nat} (h : msixWrite s r f off n v = some t) :
    t.pending = s.pending := by
  simp only [msixWrite] at h
  split at h
  · cases h
  · split at h <;> cases h
    · rfl
    · simp

@[simp] theorem nfTurned_pending (s a n) : (nfTurned s a n).pending = s.pending := by
  simp only [nfTurned]
  (repeat' split) <;> simp

@[simp] theorem barMiss_pending (s r p) : (barMiss s r p).pending = s.pending := by
  unfold barMiss
  split <;> simp

@[simp] theorem cfgPut_pending (s f v k) : (cfgPut s f v k).pending = s.pending := by
  unfold cfgPut
  split <;> simp

@[simp] theorem cfgRequest_pending (s f) (act : State → State) (hf : ∀ s, SamePending s (act s)) :
    (cfgRequest s f act).pending = s.pending := by
  simp only [samePending_iff] at hf
  simp [cfgRequest, hf]

@[simp] theorem execRegisterRead_pending (r a n s) : (after (execRegisterRead r a n s) s).pending = s.pending := by
  simp only [execRegisterRead, after_next]
  (repeat' split) <;> simp

@[simp] theorem vendorRead_pending (s r a width) : (vendorRead s r a width).1.pending = s.pending := by
  unfold vendorRead
  split <;> simp

@[simp] theorem execRegRead_pending (a width s) : (after (execRegRead a width s) s).pending = s.pending := by simp [execRegRead]

@[simp] theorem execDbgregRd_pending (a width s) : (after (execDbgregRd a width s) s).pending = s.pending := by
  simp [execDbgregRd]

@[simp] theorem execDbghalt_pending (t resume s) : (after (execDbghalt t resume s) s).pending = s.pending := by
  simp only [execDbghalt, after_next]
  (repeat' split) <;> simp

/-! ### Requests that a die link brings -/

@[simp] theorem linkRefused_pending (s ch f code a) : (linkRefused s ch f code a).pending = s.pending := by simp [linkRefused]

@[simp] theorem execFdlFrame_pending (l s) : (after (execFdlFrame l s) s).pending = s.pending := by
  simp only [execFdlFrame, after_next]
  split
  · rfl
  · next h => simp [takePkt_pending h]

/-! ### Craong-S instructions -/

@[simp] theorem Iss.done_pending (u s v) : (Iss.done u s v).pending = s.pending := by simp [Iss.done]
@[simp] theorem Iss.quiet_pending (u s) : (Iss.quiet u s).pending = s.pending := by simp [Iss.quiet]
@[simp] theorem Iss.stall_pending (u s why) : (Iss.stall u s why).pending = s.pending := rfl

@[simp] theorem Iss.held_pending (u s rd) (f : State → State) (hf : ∀ s, SamePending s (f s)) :
    (Iss.held u s rd f).pending = s.pending := by
  simp only [samePending_iff] at hf
  unfold Iss.held
  split <;> simp [hf]

/-! ### Craong-S integer and system instructions -/

@[simp] theorem branchOn_pending (u s p) : (branchOn u s p).pending = s.pending := by simp [branchOn]
@[simp] theorem csrAct_pending (u s op n) : (csrAct u s op n).pending = s.pending := by simp [csrAct]

/-! ### Craong-S loads, stores and messages -/

@[simp] theorem penRec_pending (u s k rd r) (f : State → State) (hf : ∀ s, SamePending s (f s)) :
    (penRec u s k rd r f).pending = s.pending := by
  simp only [samePending_iff] at hf
  simp [penRec, hf]

@[simp] theorem ctlBad_pending (s r a) : (ctlBad s r a).pending = s.pending := by simp [ctlBad]

@[simp] theorem ctlLoad_pending (s r ch a n) : (ctlLoad s r ch a n).1.pending = s.pending := by
  simp only [ctlLoad]
  (repeat' split) <;> simp

@[simp] theorem postReq_pending (s ch c w fn a op) : (postReq s ch c w fn a op).pending = s.pending := rfl
@[simp] theorem postFail_pending (s ch c w fn code a) : (postFail s ch c w fn code a).pending = s.pending := by simp [postFail]
@[simp] theorem postSend_pending (s ch c w dst body) : (postSend s ch c w dst body).pending = s.pending := by simp [postSend]

@[simp] theorem execPostedAckReturn_pending (w s) : (after (execPostedAckReturn w s) s).pending = s.pending := by
  simp only [execPostedAckReturn, after_next]
  (repeat' split) <;> simp

@[simp] theorem qrcvStall_pending (u s q) : (qrcvStall u s q).pending = s.pending := by simp [qrcvStall]

/-! ### Craong-S take and predictor instructions -/

@[simp] theorem leaveSlot_pending (s ch c w k) : (leaveSlot s ch c w k).pending = s.pending := rfl

/-! ### Craong-S dolly, sync and Seal instructions -/

@[simp] theorem slotNew_pending (s u a n) : (slotNew s u a n).pending = s.pending := rfl
@[simp] theorem sealSubmit_pending (s u n ctx collect) : (sealSubmit s u n ctx collect).pending = s.pending := rfl


end Sys2Proof.Machine


/-! The queue of commands under the functions that may store. -/

namespace Sys2Proof.Machine

/-! ### Memory under the write guard -/

@[simp] theorem classify_pending (s a bs) : (classify s a bs).pending = s.pending := by
  simp only [classify]
  split
  · exact pending_foldl (fun s n => classifyWin_pending ..) _ _
  · rfl

@[simp] theorem storeBytes_pending (s a bs) : (storeBytes s a bs).pending = s.pending := by simp [storeBytes]
@[simp] theorem storeOutside_pending (s a bs) : (storeOutside s a bs).pending = s.pending := by simp [storeOutside]

@[simp] theorem guardPut_pending (s a bs) : (guardPut s a bs).pending = s.pending := by
  simp only [guardPut]
  split <;> simp

@[simp] theorem guardStore_pending (s key a bs) : (guardStore s key a bs).1.pending = s.pending := by
  simp only [guardStore]
  (repeat' split) <;> simp

theorem pending_of_guardStore {s t : State} {key : Nat × Nat × Nat} {a : Nat} {bs : List DByte} {o : Option (Nat × Nat)}
    (e : guardStore s key a bs = (t, o)) : t.pending = s.pending := by
  simpa [e] using guardStore_pending s key a bs

@[simp] theorem applyUndo_pending (ch c s r) : (applyUndo ch c s r).pending = s.pending := by
  unfold applyUndo
  split <;> simp


/-! ### Sections -/

@[simp] theorem squashSlot_pending (s ch c k) : (squashSlot s ch c k).pending = s.pending := by
  rw [squashSlot, pmCount_pending, dlyRecord_pending, fadd_pending, setTake_pending, setClu_pending,
    pending_foldl fun _ _ => applyUndo_pending .., dropHeld_pending, cancelSlots_pending,
    pending_foldl fun _ _ => sbSquash_pending .., setClu_pending, mapTiles_pending]

@[simp] theorem closeWork_pending (ch s c) : (closeWork ch s c).pending = s.pending := by simp [closeWork]

@[simp] theorem closeSection_pending (s ch cs) : (closeSection s ch cs).pending = s.pending := by simp [closeSection]

@[simp] theorem endSection_pending (s ch cs) : (endSection s ch cs).pending = s.pending := by simp [endSection]

@[simp] theorem beginUnload_pending (s ch sec cmd) : (beginUnload s ch sec cmd).pending = s.pending := by
  simp only [beginUnload]
  split <;> simp

@[simp] theorem settleIdle_pending (n s ch) : (settleIdle n s ch).pending = s.pending := by
  induction n generalizing s with
  | zero => rfl
  | succ n ih =>
    simp only [settleIdle]
    (repeat' split) <;> simp [ih]

@[simp] theorem settle_pending (s ch) : (settle s ch).pending = s.pending := by simp [settle]

@[simp] theorem loadFailAt_pending (s ch code unit) : (loadFailAt s ch code unit).pending = s.pending := by
  simp [loadFailAt]

@[simp] theorem loadFail_pending (s ch code) : (loadFail s ch code).pending = s.pending := by simp [loadFail]

@[simp] theorem unitLeft_pending (s ch) : (unitLeft s ch).pending = s.pending := by simp [unitLeft]

@[simp] theorem abortRunning_pending (s ch c x code) : (abortRunning s ch c x code).pending = s.pending := by
  simp [abortRunning]

@[simp] theorem abortCluster_pending (s ch c code) : (abortCluster s ch c code).pending = s.pending := by
  simp only [abortCluster]
  split <;> simp

@[simp] theorem dropCluster_pending (s ch c) : (dropCluster s ch c).pending = s.pending := by simp [dropCluster]

/-! ### A steward as other units act on it -/

@[simp] theorem stwTrap_pending (s ch c w kind code detail) : (stwTrap s ch c w kind code detail).pending = s.pending := by
  simp [stwTrap]

@[simp] theorem stwExc_pending (s ch c w rd kind code detail) : (stwExc s ch c w rd kind code detail).pending = s.pending := by
  simp only [stwExc]
  split <;> simp

@[simp] theorem stwSyncEnd_pending (s ch w code v) : (stwSyncEnd s ch w code v).pending = s.pending := by
  simp only [stwSyncEnd]
  split <;> simp

/-! ### Ends of requests -/

@[simp] theorem finishWhole_pending (s ch r code data) : (finishWhole s ch r code data).pending = s.pending := by
  simp only [finishWhole]
  (repeat' split) <;> simp

@[simp] theorem finish_pending (s ch r code data) : (finish s ch r code data).pending = s.pending := by
  simp only [finish]
  (repeat' split) <;> simp

/-! ### Requests that leave by Caravan flows -/

@[simp] theorem ctIssue_pending (s ch r) : (ctIssue s ch r).pending = s.pending := by simp [ctIssue]

@[simp] theorem ctOpEnd_pending (s ch n opid code data) : (ctOpEnd s ch n opid code data).pending = s.pending := by
  simp only [ctOpEnd]
  (repeat' split) <;> simp

/-! ### Sync objects -/

@[simp] theorem answer_pending (s ch who o code v) : (answer s ch who o code v).pending = s.pending := by simp [answer]

@[simp] theorem wakeWhere_pending (s ch o code v) (p : Waiter → Bool) : (wakeWhere s ch o code v p).pending = s.pending := by
  simp [wakeWhere]

@[simp] theorem settleReq_pending (s ch no code) : (settleReq s ch no code).pending = s.pending := by
  simp only [settleReq]
  split <;> simp

@[simp] theorem settleOne_pending (ch code s k) : (settleOne ch code s k).pending = s.pending := by
  simp only [settleOne]
  split <;> simp

@[simp] theorem settleHeld_pending (s ch code) : (settleHeld s ch code).pending = s.pending := by simp [settleHeld]

@[simp] theorem latchVerdict_pending (s ch code) : (latchVerdict s ch code).pending = s.pending := by
  simp [latchVerdict]

@[simp] theorem release_pending (s ch o nf) : (release s ch o nf).pending = s.pending := by simp [release]

@[simp] theorem groupTry_pending (s ch n) : (groupTry s ch n).pending = s.pending := by simp [groupTry]

@[simp] theorem poisonObj_pending (s ch o) : (poisonObj s ch o).pending = s.pending := by
  simp only [poisonObj]
  (repeat' split) <;> simp

@[simp] theorem complete_pending (s ch o) : (complete s ch o).pending = s.pending := by
  simp only [complete]
  (repeat' split) <;> simp

@[simp] theorem barLoop_pending (k s ch o) : (barLoop k s ch o).pending = s.pending := by
  induction k generalizing s with
  | zero => rfl
  | succ k ih =>
    simp only [barLoop]
    split
    · simp [ih]
    · rfl

@[simp] theorem barRun_pending (s ch o) : (barRun s ch o).pending = s.pending := by simp [barRun]

@[simp] theorem arrive_pending (s ch o n) : (arrive s ch o n).pending = s.pending := by simp [arrive]

@[simp] theorem counterSet_pending (s ch o v) : (counterSet s ch o v).pending = s.pending := by simp [counterSet]

@[simp] theorem releaseArmed_pending (s ch o nf) : (releaseArmed s ch o nf).pending = s.pending := by
  simp [releaseArmed]

@[simp] theorem syncPost_pending (s ch o op n) : (syncPost s ch o op n).1.pending = s.pending := by
  simp only [syncPost]
  (repeat' split) <;> simp

@[simp] theorem bindObj_pending (s ch o v) : (bindObj s ch o v).pending = s.pending := by simp [bindObj]

/-! ### Lost units -/

@[simp] theorem flowOpsEnd_pending (s ch n code) : (flowOpsEnd s ch n code).pending = s.pending := by simp [flowOpsEnd]

@[simp] theorem flowLost_pending (s ch n code st) : (flowLost s ch n code st).pending = s.pending := by
  simp only [flowLost]
  split <;> simp

@[simp] theorem flowsReopen_pending (s ch func) : (flowsReopen s ch func).pending = s.pending := by simp [flowsReopen]

@[simp] theorem flowDown_pending (s ch n) : (flowDown s ch n).pending = s.pending := by simp [flowDown]

@[simp] theorem dieLost_pending (s ch site code) : (dieLost s ch site code).pending = s.pending := by simp [dieLost]

@[simp] theorem poisonQueue_pending (s ch c q) : (poisonQueue s ch c q).pending = s.pending := by simp [poisonQueue]

@[simp] theorem poisonPlace_pending (s k) : (poisonPlace s k).pending = s.pending := by
  simp only [poisonPlace]
  (repeat' split) <;> simp

/-! ### Fault controllers -/

@[simp] theorem retireChannel_pending (s ch code) : (retireChannel s ch code).pending = s.pending := by
  unfold retireChannel
  split
  · rfl
  · extract_lets +onlyGivenNames reported persisted aborted answered
    have ha : aborted.pending = s.pending := by simp [aborted, persisted, reported]
    have hr : answered.pending = aborted.pending := pending_foldl (fun s r => by split <;> simp) _ _
    clear_value answered
    simp [hr, ha]

@[simp] theorem fenceCluster_pending (s ch cl code) : (fenceCluster s ch cl code).pending = s.pending := by
  simp [fenceCluster]

@[simp] theorem retirePc_pending (s ch pc code) : (retirePc s ch pc code).pending = s.pending := by simp [retirePc]

@[simp] theorem retireDie_pending (s ch site code) : (retireDie s ch site code).pending = s.pending := by
  simp [retireDie]

@[simp] theorem removePort_pending (s ch port code) : (removePort s ch port code).pending = s.pending := by
  simp [removePort]

@[simp] theorem columnAction_pending (s ch cl col code) : (columnAction s ch cl col code).1.pending = s.pending := by
  simp only [columnAction]
  (repeat' split) <;> simp

@[simp] theorem fenceAction_pending (s ch cl code) : (fenceAction s ch cl code).1.pending = s.pending := by
  simp only [fenceAction]
  split <;> simp

@[simp] theorem channelAction_pending (s ch code) : (channelAction s ch code).1.pending = s.pending := by
  simp only [channelAction]
  split <;> simp

@[simp] theorem unitAction_pending (s ch code f) : (unitAction s ch code f).1.pending = s.pending := by
  simp only [unitAction]
  split <;> simp

@[simp] theorem takeAction_pending (s ch ty cl unit loc code unitWide) :
    (takeAction s ch ty cl unit loc code unitWide).1.pending = s.pending := by
  simp only [takeAction]
  (repeat' split) <;> simp

@[simp] theorem faultCore_pending (s e) : (faultCore s e).1.pending = s.pending := by
  unfold faultCore
  extract_lets +onlyGivenNames src ty cl code sec s₁ s₂
  have h₂ : s₂.pending = s.pending := by simp [s₂, s₁]
  clear_value s₂
  split
  next s₃ ovf lv e₁ =>
  have h₃ : s₃.pending = s.pending := by
    have := bucketAdd_pending s₂ src ty cl e.unit (evPoints e.kind)
    rwa [e₁, h₂] at this
  split
  next s₄ locPerm e₂ =>
  have h₄ : s₄.pending = s.pending := by
    have := locEvent_pending s₃ src ty e.loc.toNat e.time.toNat e.kind
    rwa [e₂, h₃] at this
  extract_lets +onlyGivenNames cls act
  split
  next s₅ a e₃ =>
  have h₅ : s₅.pending = s.pending := by
    have h := congrArg (fun x : State × Nat => x.1.pending) e₃
    rw [← h]
    simp [apply_ite Prod.fst, h₄]
  clear_value cls act
  simp [h₅]

@[simp] theorem faultTake_pending (s e) : (faultTake s e).pending = s.pending := by simp [faultTake]

@[simp] theorem execFaultEvent_pending (e s) : (after (execFaultEvent e s) s).pending = s.pending := by
  simp [execFaultEvent]

@[simp] theorem execHeartbeatTimeout_pending (ch s) : (after (execHeartbeatTimeout ch s) s).pending = s.pending := by
  simp [execHeartbeatTimeout]

@[simp] theorem execPllRelockTimeout_pending (d s) : (after (execPllRelockTimeout d s) s).pending = s.pending := by
  simp [execPllRelockTimeout]

/-! ### Die links -/

@[simp] theorem linkFailed_pending (s l code bringup) : (linkFailed s l code bringup).pending = s.pending := by
  simp [linkFailed]

@[simp] theorem negotiateFail_pending (s l) : (negotiateFail s l).pending = s.pending := by simp [negotiateFail]

@[simp] theorem execAgree_pending (l s) : (after (execAgree l s) s).pending = s.pending := by
  rw [execAgree, after_next, outKeeper_pending]
  intro s
  rw [samePending_iff]
  split
  · rfl
  · split
    · next e => simp [takeCtrl_pending e]
    · (repeat' split) <;> simp

@[simp] theorem execFdlStageTimeout_pending (l s) : (after (execFdlStageTimeout l s) s).pending = s.pending := by
  simp [execFdlStageTimeout]

@[simp] theorem acceptPkt_pending (s l p) : (acceptPkt s l p).pending = s.pending := by simp [acceptPkt]

@[simp] theorem takeSlots_pending (l xs s) : (takeSlots l xs s).pending = s.pending := by
  induction xs generalizing s with
  | nil => rfl
  | cons x xs ih =>
    simp only [takeSlots]
    (repeat' split) <;> simp [ih]

@[simp] theorem dataFlit_pending (s l f) : (dataFlit s l f).pending = s.pending := by simp [dataFlit]

@[simp] theorem execFlitReceive_pending (l flit s) : (after (execFlitReceive l flit s) s).pending = s.pending := by
  rw [execFlitReceive, after_next, outKeeper_pending]
  intro s
  rw [samePending_iff]
  dsimp only
  (repeat' split) <;> simp

@[simp] theorem execRetrainTimeout_pending (l s) : (after (execRetrainTimeout l s) s).pending = s.pending := by
  simp [execRetrainTimeout]

@[simp] theorem strayResp_pending (s l tag) : (strayResp s l tag).pending = s.pending := by simp [strayResp]

@[simp] theorem execFdlCmpl_pending (l s) : (after (execFdlCmpl l s) s).pending = s.pending := by
  rw [execFdlCmpl, after_next, outKeeper_pending]
  intro s
  rw [samePending_iff]
  split
  · rfl
  · next e => split <;> simp [takePkt_pending e]

@[simp] theorem execFdlRdata_pending (l s) : (after (execFdlRdata l s) s).pending = s.pending := by
  rw [execFdlRdata, after_next, outKeeper_pending]
  intro s
  rw [samePending_iff]
  split
  · rfl
  · next e => split <;> simp [takePkt_pending e]

/-! ### Tiles -/

@[simp] theorem execTileReservedEncoding_pending (t s) : (after (execTileReservedEncoding t s) s).pending = s.pending := by
  simp [execTileReservedEncoding]

/-! ### Sidings -/

@[simp] theorem sidingOut_pending (s ch c code) : (sidingOut s ch c code).pending = s.pending := by simp [sidingOut]

@[simp] theorem popUnit_pending (s ch c t port) : (popUnit s ch c t port).pending = s.pending := by
  simp only [popUnit]
  split <;> simp

@[simp] theorem dropUnit_pending (s ch c t port) : (dropUnit s ch c t port).pending = s.pending := by simp [dropUnit]

@[simp] theorem rqPop_pending (s ch c t port) : (rqPop s ch c t port).pending = s.pending := by simp [rqPop]

@[simp] theorem writeUnit_pending (s ch c u prev bs) : (writeUnit s ch c u prev bs).pending = s.pending := by
  simp only [writeUnit]
  split <;> simp

@[simp] theorem engineAppend_pending (s ch c t p) : (engineServe.engineAppend s ch c t p).pending = s.pending := by
  simp only [engineServe.engineAppend]
  split <;> simp

@[simp] theorem engineServe_pending (s ch c q) : (engineServe s ch c q).pending = s.pending := by
  simp only [engineServe]
  (repeat' split) <;> simp

@[simp] theorem engineCycle_pending (s ch c) : (engineCycle s ch c).pending = s.pending := by
  simp only [engineCycle]
  split <;> simp

/-! ### The fabric -/

@[simp] theorem launch_pending (s ch r) (at_ : Req → Nat) (inp) : (launch s ch r at_ inp).pending = s.pending := by
  have go (s : State) (r : Req) : (match meshDest s ch (at_ r) r with
      | none => finish s ch r (routeOf s ch r.fn r.tga).2 []
      | some d => moveReq (setReq s ch r.no fun x => { x with dest := d }) ch r.no (.mesh (at_ r) inp)).pending =
      s.pending := by
    split <;> simp
  unfold launch
  dsimp only
  split
  · exact go s r
  · exact (pending_foldl (fun s k => (go _ _).trans (pushReq_pending ..)) _ _).trans (by simp)

@[simp] theorem siteReq_pending (s ch site r) : (siteReq s ch site r).pending = s.pending := by
  simp only [siteReq]
  split <;> simp

@[simp] theorem leaveTable_pending (s ch r) : (leaveTable s ch r).pending = s.pending := by simp [leaveTable]

@[simp] theorem execTtEntryAssign_pending (ch s) : (after (execTtEntryAssign ch s) s).pending = s.pending := by
  simp only [execTtEntryAssign, after_next]
  split <;> simp

@[simp] theorem flitArrive_pending (s ch c r port f) : (flitArrive s ch c r port f).pending = s.pending := by
  simp [flitArrive]

@[simp] theorem meshArrive_pending (s ch c inp r) : (meshArrive s ch c inp r).pending = s.pending := by
  simp only [meshArrive]
  (repeat' split) <;> simp

@[simp] theorem execGatewayMeshHop_pending (c inp s) : (after (execGatewayMeshHop c inp s) s).pending = s.pending := by
  simp only [execGatewayMeshHop, after_next]
  (repeat' split) <;> simp

@[simp] theorem performPart_pending (s ch r lo n) : (performPart s ch r lo n).1.pending = s.pending := by
  simp only [performPart]
  (repeat' split) <;> simp

@[simp] theorem performEnd_pending (s ch no) (all : Nat → Bool) (blocks) :
    (performEnd s ch no all blocks).pending = s.pending := by
  simp only [performEnd]
  split <;> simp

@[simp] theorem bankGrant_pending (s ch c r b) : (bankGrant s ch c r b).pending = s.pending := by
  have part := performPart_pending
    (keepOwn s ch c r (inBlock 128 (tgaMem r.tga) r.len b).1 (inBlock 128 (tgaMem r.tga) r.len b).2) ch r
    (inBlock 128 (tgaMem r.tga) r.len b).1 (inBlock 128 (tgaMem r.tga) r.len b).2
  rw [keepOwn_pending] at part
  simp only [bankGrant]
  split
  · simp
  · split
    · next e => rwa [e] at part
    · next e =>
      rw [e] at part
      simpa using part

@[simp] theorem grantGranule_pending (s ch r g) : (grantGranule s ch r g).pending = s.pending := by
  have part := performPart_pending s ch r (hbmAt ch (inBlock 64 (tgaOff r.tga) r.len g).1) (inBlock 64 (tgaOff r.tga) r.len g).2
  simp only [grantGranule]
  split
  · simp
  · split
    · simp
    · split
      · next e => rwa [e] at part
      · next e =>
        rw [e] at part
        simpa using part

@[simp] theorem execStackSlotGrant_pending (ch site s) : (after (execStackSlotGrant ch site s) s).pending = s.pending := by
  simp only [execStackSlotGrant, after_next]
  (repeat' split) <;> simp

/-! ### Message queues -/

@[simp] theorem enqueue_pending (s ch c q) (hdr : Nat) (body) : (enqueue s ch c q hdr body).pending = s.pending := by
  simp [enqueue]

@[simp] theorem deliver_pending (s ch c inp r) (h : Nat) (b) : (deliver s ch c inp r h b).pending = s.pending := by
  simp [deliver]

@[simp] theorem execHandlerDispatch_pending (w s) : (after (execHandlerDispatch w s) s).pending = s.pending := by
  simp only [execHandlerDispatch, after_next]
  (repeat' split) <;> simp

@[simp] theorem execClQctrlPoison_pending (r c q s) : (after (execClQctrlPoison r c q s) s).pending = s.pending := by
  simp [execClQctrlPoison]

/-! ### The tile array and its edge -/

@[simp] theorem routeDone_pending (ch c t s) (h : Nat × Flit × List Nat × Nat × Bool) :
    (routeDone ch c t s h).pending = s.pending := by
  simp [routeDone]

@[simp] theorem execFlitRoute_pending (t s) : (after (execFlitRoute t s) s).pending = s.pending := by
  simp [execFlitRoute]

theorem egressOwn_pending {s u : State} {ch c : Nat} {r : Req} {h : Nat} {b : List DByte}
    (e : egressOwn s ch c r h b = some u) : u.pending = s.pending := by
  simp only [egressOwn] at e
  split at e
  · cases e; simp
  · split at e
    · cases e
    · cases e; simp

theorem egressHere_pending {s u : State} {ch c : Nat} {r : Req} (e : egressHere s ch c r = some u) :
    u.pending = s.pending := by
  simp only [egressHere] at e
  split at e
  · split at e <;> cases e
    simp
  · split at e
    · split at e <;> cases e
      simp
    · split at e
      · exact egressOwn_pending e
      · split at e
        · cases e; simp
        · split at e <;> cases e
          rfl
    · cases e; simp

theorem egressLeave_pending {s u : State} {ch c : Nat} {r : Req} {entry : Bool}
    (e : egressLeave s ch c r entry = some u) : u.pending = s.pending := by
  simp only [egressLeave] at e
  split at e
  · cases e
  · split at e
    · cases e; simp
    · split at e
      · obtain ⟨-, moved⟩ := Option.ite_none_left_eq_some.1 e
        rw [← Option.some.inj moved]
        simp
      · exact (egressHere_pending e).trans (by simp)

theorem egressMsg_pending {s u : State} {ch c p route e : Nat} {t : List Flit}
    (h : egressMsg s ch c p route e t = some u) : u.pending = s.pending := by
  simp only [egressMsg] at h
  split at h
  · cases h; simp
  · split at h
    · cases h
    · obtain ⟨t, ht, rfl⟩ := Option.map_eq_some_iff.1 h
      simp [egressLeave_pending ht]

theorem egressWrite_pending {s u : State} {ch c p route e : Nat} {t : List Flit}
    (h : egressWrite s ch c p route e t = some u) : u.pending = s.pending := by
  simp only [egressWrite] at h
  generalize (if 2 ^ 44 ≤ bits e 23 38 * 64 + 64 * cnt (s.clu ch c).tokens route + (tokenBytes t).length then cUnitAbsent
    else accessCode _ _ _ _ _ _) = code at h
  split at h
  · cases h; simp
  · split at h
    · cases h
    · obtain ⟨v, hv, rfl⟩ := Option.map_eq_some_iff.1 h
      simp [egressLeave_pending hv]

theorem egressBuffer_pending {s u : State} {ch c p route e : Nat} {f : Flit}
    (h : egressBuffer s ch c p route e f = some u) : u.pending = s.pending := by
  simp only [egressBuffer] at h
  split at h
  · cases h; simp
  · split at h
    · cases h
    · obtain ⟨t, ht, rfl⟩ := Option.map_eq_some_iff.1 h
      simp [egressLeave_pending ht]

theorem egressSync_pending {s u : State} {ch c p route e : Nat} {f : Flit}
    (h : egressSync s ch c p route e f = some u) : u.pending = s.pending := by
  simp only [egressSync] at h
  split at h
  · cases h; simp
  · generalize (if f.poison = true then [1] else []) = parts at h
    split at h
    · cases h; simp
    · split at h
      · cases h; simp
      · split at h
        · cases h
        · obtain ⟨t, ht, rfl⟩ := Option.map_eq_some_iff.1 h
          simp [egressLeave_pending ht]

theorem egressTry_pending {s u : State} {ch c p : Nat} (h : egressTry s ch c p = some u) : u.pending = s.pending := by
  simp only [egressTry] at h
  split at h
  · exact penFlit_pending h
  · split at h
    · cases h
    · split at h
      · cases h; simp
      · split at h
        · cases h
        · split at h
          · exact egressBuffer_pending h
          · split at h
            · exact egressSync_pending h
            · obtain ⟨t, -, ht⟩ := Option.bind_eq_some_iff.1 h
              split at ht
              · exact egressMsg_pending ht
              · exact egressWrite_pending ht

@[simp] theorem execEgressToken_pending (c port s) : (after (execEgressToken c port s) s).pending = s.pending := by
  simp only [execEgressToken, after_next]
  split
  · rfl
  · split
    · rfl
    · next h => simp [egressTry_pending h]

@[simp] theorem arrivalRow_pending (s ch c inp) (held : Bool) : (arrivalRow s ch c inp held).pending = s.pending := by
  simp only [arrivalRow]
  split <;> simp

@[simp] theorem execQueueArrival_pending (c inp s) : (after (execQueueArrival c inp s) s).pending = s.pending := by
  simp [execQueueArrival]

@[simp] theorem execMessageEnqueueAfterWait_pending (c inp s) :
    (after (execMessageEnqueueAfterWait c inp s) s).pending = s.pending := by
  simp [execMessageEnqueueAfterWait]

@[simp] theorem flitWrite_pending (s ch c port f b) : (flitWrite s ch c port f b).pending = s.pending := by
  unfold flitWrite
  split <;> next e => simp [pending_of_guardStore e]

/-! ### Depot banks -/

@[simp] theorem portBurst_pending (s ch c bank port) : (portBurst s ch c bank port).pending = s.pending := by
  simp only [portBurst]
  (repeat' split) <;> simp

@[simp] theorem execDepotBankGrant_pending (c bank s) : (after (execDepotBankGrant c bank s) s).pending = s.pending := by
  simp only [execDepotBankGrant, after_next]
  (repeat' split) <;> simp

@[simp] theorem execDepotInterfaceFlit_pending (c port s) :
    (after (execDepotInterfaceFlit c port s) s).pending = s.pending := by
  simp only [execDepotInterfaceFlit, after_next]
  split
  · rfl
  · split
    · generalize hp : penFlit _ _ _ _ _ = o
      cases o with
      | none => rfl
      | some t => simp [penFlit_pending hp]
    · rfl
    · (repeat' split) <;> simp

@[simp] theorem execSidingEngineCycle_pending (c s) : (after (execSidingEngineCycle c s) s).pending = s.pending := by
  simp only [execSidingEngineCycle, after_next]
  split <;> simp

/-! ### Dolly descriptors -/

@[simp] theorem appendPiece_pending (s ch c n d) : (appendPiece s ch c n d).1.pending = s.pending := by
  have marked : (match d.take with
      | some k => if d.put = 0 then sbMark s ch c d.buf k else s
      | none => s).pending = s.pending := by split <;> simp
  simp only [appendPiece]
  split
  · rfl
  · split
    · next e => exact (pending_of_guardStore e).trans marked
    · next e => simpa using (pending_of_guardStore e).trans marked

@[simp] theorem appendLane_pending (k s ch c n) : (appendLane k s ch c n).pending = s.pending := by
  induction k generalizing s with
  | zero => rfl
  | succ k ih =>
    unfold appendLane
    split
    · rfl
    · next d _ =>
      have piece := appendPiece_pending s ch c n d
      split
      · rfl
      · split
        · next e => rwa [e] at piece
        · next e => rw [e] at piece; exact (ih _).trans piece

@[simp] theorem takeData_pending (s ch c n d bs) : (takeData s ch c n d bs).pending = s.pending := by simp [takeData]

@[simp] theorem dollyRead_pending (s ch c n d) : (dollyRead s ch c n d).pending = s.pending := by simp [dollyRead]

@[simp] theorem dollyNext_pending (s ch c n d) : (dollyNext s ch c n d).pending = s.pending := by
  unfold dollyNext
  split
  · simp
  · split
    · next h => exact dollyWrite_pending h
    · simp

@[simp] theorem execDollyRequestIssue_pending (c slot s) : (after (execDollyRequestIssue c slot s) s).pending = s.pending := by
  simp only [execDollyRequestIssue, after_next]
  split <;> simp

@[simp] theorem execDollyDataReturn_pending (c slot s) : (after (execDollyDataReturn c slot s) s).pending = s.pending := by
  simp only [execDollyDataReturn, after_next]
  (repeat' split) <;> simp

@[simp] theorem execDescriptorComplete_pending (c slot s) :
    (after (execDescriptorComplete c slot s) s).pending = s.pending := by
  simp only [execDescriptorComplete, after_next]
  split <;> simp

/-! ### Commands of the sync unit -/

@[simp] theorem execSyncOperation_pending (ch bank s) : (after (execSyncOperation ch bank s) s).pending = s.pending := by
  rw [execSyncOperation, after_next, inChan_pending]
  intro s
  rw [samePending_iff]
  dsimp only
  (repeat' split) <;> simp

@[simp] theorem execWaitRegistration_pending (ch bank s) : (after (execWaitRegistration ch bank s) s).pending = s.pending := by
  rw [execWaitRegistration, after_next, inChan_pending]
  intro s
  rw [samePending_iff]
  dsimp only
  (repeat' split) <;> simp

@[simp] theorem execRemoteWaitRetry_pending (ch s) : (after (execRemoteWaitRetry ch s) s).pending = s.pending := by
  rw [execRemoteWaitRetry, after_next, inChan_pending]
  intro s
  rw [samePending_iff]
  (repeat' split) <;> simp

@[simp] theorem execChSyncctrlPoison_pending (r ch s) : (after (execChSyncctrlPoison r ch s) s).pending = s.pending := by
  simp [execChSyncctrlPoison]

@[simp] theorem execSyncInNotice_pending (ch s) : (after (execSyncInNotice ch s) s).pending = s.pending := by
  simp [execSyncInNotice]

/-! ### Reels and the load sequencer -/

@[simp] theorem execLoadFetchDone_pending (ch s) : (after (execLoadFetchDone ch s) s).pending = s.pending := by
  simp [execLoadFetchDone]

@[simp] theorem execLoadCheckDone_pending (ch s) : (after (execLoadCheckDone ch s) s).pending = s.pending := by
  simp only [execLoadCheckDone, after_next]
  (repeat' split) <;> simp

@[simp] theorem bindRec_pending (ch fn c s e) : (bindRec ch fn c s e).pending = s.pending := by
  simp only [bindRec]
  split <;> simp

@[simp] theorem applyRecord_pending (ch fn s r) : (applyRecord ch fn s r).pending = s.pending := by simp [applyRecord]

@[simp] theorem stewardPut_pending (ch s p) : (stewardPut ch s p).pending = s.pending := by
  unfold stewardPut
  split
  · rfl
  · split <;> next e => simp [pending_of_guardStore e]

@[simp] theorem applyReel_pending (s ch fn b rs) : (applyReel s ch fn b rs).pending = s.pending := by simp [applyReel]

@[simp] theorem execLoadWriteDone_pending (ch s) : (after (execLoadWriteDone ch s) s).pending = s.pending := by
  simp only [execLoadWriteDone, after_next]
  (repeat' split) <;> simp

@[simp] theorem execPreloadDone_pending (ch s) : (after (execPreloadDone ch s) s).pending = s.pending := by
  simp [execPreloadDone]

@[simp] theorem execChLdctrlStart_pending (r ch s) : (after (execChLdctrlStart r ch s) s).pending = s.pending := by
  simp [execChLdctrlStart]

@[simp] theorem clearLoad_pending (s ch) : (clearLoad s ch).pending = s.pending := by simp [clearLoad]

@[simp] theorem execChLdctrlClear_pending (r ch s) : (after (execChLdctrlClear r ch s) s).pending = s.pending := by
  simp [execChLdctrlClear]

@[simp] theorem abandonArmed_pending (s ch) : (abandonArmed s ch).pending = s.pending := by simp [abandonArmed]

@[simp] theorem execChLdctrlUnload_pending (r ch s) : (after (execChLdctrlUnload r ch s) s).pending = s.pending := by
  simp [execChLdctrlUnload]

@[simp] theorem execStartupStepIssue_pending (ch s) : (after (execStartupStepIssue ch s) s).pending = s.pending := by
  simp [execStartupStepIssue]

@[simp] theorem loadDone_pending (s ch) : (loadDone s ch).pending = s.pending := by simp [loadDone]

@[simp] theorem execStartupStepComplete_pending (ch s) : (after (execStartupStepComplete ch s) s).pending = s.pending := by
  simp [execStartupStepComplete]

@[simp] theorem execStartupStepTimeout_pending (d s) : (after (execStartupStepTimeout d s) s).pending = s.pending := by
  simp [execStartupStepTimeout]

@[simp] theorem execUnloadDone_pending (ch s) : (after (execUnloadDone ch s) s).pending = s.pending := by
  simp [execUnloadDone]

@[simp] theorem loadEnd_pending (s ch f) : (loadEnd s ch f).1.pending = s.pending := by
  simp only [loadEnd]
  split <;> simp

/-! ### The Seal unit -/

@[simp] theorem endingNow_pending (s ch) : (endingNow s ch).pending = s.pending := by simp [endingNow]

@[simp] theorem execSealConvoyComplete_pending (ch s) : (after (execSealConvoyComplete ch s) s).pending = s.pending := by
  simp only [execSealConvoyComplete, after_next]
  split <;> simp

/-! ### Virtual functions -/

@[simp] theorem removeReq_pending (s ch code r) : (removeReq s ch code r).pending = s.pending := by simp [removeReq]

@[simp] theorem abortReq_pending (s ch code r) : (abortReq s ch code r).pending = s.pending := by
  simp only [abortReq]
  split <;> simp

@[simp] theorem monitorDisable_pending (s ch f) : (monitorDisable s ch f).pending = s.pending := by
  simp [monitorDisable]

@[simp] theorem channelDisable_pending (s ch f) : (channelDisable s ch f).pending = s.pending := by
  simp [channelDisable]

@[simp] theorem execChannelDisable_pending (ch f s) : (after (execChannelDisable ch f s) s).pending = s.pending := by
  simp [execChannelDisable]

@[simp] theorem execFlrDrainTimeout_pending (ch f s) : (after (execFlrDrainTimeout ch f s) s).pending = s.pending := by
  simp [execFlrDrainTimeout]

@[simp] theorem scrubCluster_pending (ch s c) : (scrubCluster ch s c).pending = s.pending := by
  rw [scrubCluster, setClu_pending, pending_foldl fun _ _ => sbApply_pending .., pending_foldl fun _ _ => by simp,
    pending_foldl fun _ _ => by simp, mapTiles_pending, zeroMem_pending]

@[simp] theorem scrubObjs_pending (s ch base n) : (scrubObjs s ch base n).pending = s.pending := by simp [scrubObjs]

@[simp] theorem scrub_pending (s ch rec?) : (scrub s ch rec?).pending = s.pending := by simp [scrub]

@[simp] theorem execDisableScrubDone_pending (ch f s) : (after (execDisableScrubDone ch f s) s).pending = s.pending := by
  simp only [execDisableScrubDone, after_next]
  split <;> simp

@[simp] theorem execFenceTimeout_pending (ch s) : (after (execFenceTimeout ch s) s).pending = s.pending := by
  simp only [execFenceTimeout, after_next]
  split <;> simp

/-! ### The host port -/

@[simp] theorem toSequencer_pending (s ch w) : (toSequencer s ch w).pending = s.pending := by simp [toSequencer]

@[simp] theorem execCmdLoad_pending (f ring s) : (after (execCmdLoad f ring s) s).pending = s.pending := by
  simp [execCmdLoad]

@[simp] theorem execCmdStart_pending (f ring s) : (after (execCmdStart f ring s) s).pending = s.pending := by
  simp [execCmdStart]

@[simp] theorem execCmdUnload_pending (f ring s) : (after (execCmdUnload f ring s) s).pending = s.pending := by
  simp [execCmdUnload]

@[simp] theorem execCmdClear_pending (f ring s) : (after (execCmdClear f ring s) s).pending = s.pending := by
  simp [execCmdClear]

@[simp] theorem hostReq_pending (s ret f a op cls) : (hostReq s ret f a op cls).pending = s.pending := by simp [hostReq]

@[simp] theorem execHostReadCompletion_pending (f ring data s) :
    (after (execHostReadCompletion f ring data s) s).pending = s.pending := by
  simp only [execHostReadCompletion, after_next]
  split <;> simp

@[simp] theorem execCopyOut_pending (f ring s) : (after (execCopyOut f ring s) s).pending = s.pending := by
  simp [execCopyOut]

@[simp] theorem execSignal_pending (f ring s) : (after (execSignal f ring s) s).pending = s.pending := by
  simp [execSignal]

@[simp] theorem execSyncwait_pending (f ring s) : (after (execSyncwait f ring s) s).pending = s.pending := by
  simp [execSyncwait]

@[simp] theorem execApertureWrite_pending (f ap off data ep s) :
    (after (execApertureWrite f ap off data ep s) s).pending = s.pending := by
  simp [execApertureWrite]

@[simp] theorem execApertureRead_pending (f ap off len s) :
    (after (execApertureRead f ap off len s) s).pending = s.pending := by
  simp [execApertureRead]

/-! ### Caravan Transport -/

@[simp] theorem execCtRtoExpiry_pending (ch flow stream s) :
    (after (execCtRtoExpiry ch flow stream s) s).pending = s.pending := by
  simp only [execCtRtoExpiry, after_next]
  split <;> simp

@[simp] theorem flowUp_pending (s ch n inc home) : (flowUp s ch n inc home).pending = s.pending := by simp [flowUp]

@[simp] theorem execCtOpen_pending (ch flow s) : (after (execCtOpen ch flow s) s).pending = s.pending := by
  simp only [execCtOpen, after_next]
  split
  · rfl
  · next e => simp [takeCtl_pending e]

@[simp] theorem execCtNotice_pending (ch flow s) : (after (execCtNotice ch flow s) s).pending = s.pending := by
  simp only [execCtNotice, after_next]
  split
  · next e => simp [takeCtl_pending e]
  · rfl

@[simp] theorem arriveReq_pending (s ch n p op cls) (code : State → Nat → Nat) :
    (arriveReq s ch n p op cls code).pending = s.pending := by
  simp [arriveReq]

@[simp] theorem execCtWrite_pending (ch flow s) : (after (execCtWrite ch flow s) s).pending = s.pending := by
  simp only [execCtWrite, after_next]
  split <;> simp

@[simp] theorem execCtRead_pending (ch flow s) : (after (execCtRead ch flow s) s).pending = s.pending := by
  simp only [execCtRead, after_next]
  split <;> simp

@[simp] theorem execCtQmsg_pending (ch flow s) : (after (execCtQmsg ch flow s) s).pending = s.pending := by
  simp only [execCtQmsg, after_next]
  split <;> simp

@[simp] theorem execCtSync_pending (ch flow s) : (after (execCtSync ch flow s) s).pending = s.pending := by
  simp only [execCtSync, after_next]
  (repeat' split) <;> simp

@[simp] theorem execCtBar_pending (ch flow s) : (after (execCtBar ch flow s) s).pending = s.pending := by
  simp only [execCtBar, after_next]
  (repeat' split) <;> simp

@[simp] theorem execCtResp_pending (ch flow s) : (after (execCtResp ch flow s) s).pending = s.pending := by
  simp only [execCtResp, after_next]
  (repeat' split) <;> simp

@[simp] theorem execCtRdata_pending (ch flow s) : (after (execCtRdata ch flow s) s).pending = s.pending := by
  simp only [execCtRdata, after_next]
  (repeat' split) <;> simp

@[simp] theorem execCtFlowctrlClose_pending (r ch s) : (after (execCtFlowctrlClose r ch s) s).pending = s.pending := by
  simp [execCtFlowctrlClose]

/-! ### Collectives -/

@[simp] theorem execCollectiveSubmit_pending (ch s) : (after (execCollectiveSubmit ch s) s).pending = s.pending := by
  simp only [execCollectiveSubmit, after_next]
  split <;> simp

/-! ### The hub -/

@[simp] theorem noticeTaken_pending (s ch gone) : (noticeTaken s ch gone).pending = s.pending := by simp [noticeTaken]

@[simp] theorem execRetirementNotice_pending (ch gone s) : (after (execRetirementNotice ch gone s) s).pending = s.pending := by
  simp [execRetirementNotice]

/-! ### Resets, boot and the nonvolatile store -/

@[simp] theorem execPwrgdLowAccept_pending (cut s) : (after (execPwrgdLowAccept cut s) s).pending = s.pending := by
  simp [execPwrgdLowAccept]

@[simp] theorem execWarmReset_pending (s) : (after (execWarmReset s) s).pending = s.pending := by simp [execWarmReset]

@[simp] theorem execFirmwareBringup_pending (s) : (after (execFirmwareBringup s) s).pending = s.pending := by
  simp only [execFirmwareBringup, after_next]
  (repeat' split) <;> simp

@[simp] theorem execReturnedScrubDone_pending (s) : (after (execReturnedScrubDone s) s).pending = s.pending := by
  simp [execReturnedScrubDone]

/-! ### Register access -/

@[simp] theorem chPut_pending (r c g i v s) : (chPut r c g i v s).pending = s.pending := by
  simp only [chPut]
  split <;> simp

@[simp] theorem clPut_pending (r c g i v s) : (clPut r c g i v s).pending = s.pending := by
  simp only [clPut]
  (repeat' split) <;> simp

@[simp] theorem ctPut_pending (r c g i v s) : (ctPut r c g i v s).pending = s.pending := by
  simp only [ctPut]
  split <;> simp

@[simp] theorem regPut_pending (r a g i v s) : (regPut r a g i v s).pending = s.pending := by
  simp only [regPut]
  split <;> simp

@[simp] theorem regWrite_pending (r a n v s) : (regWrite r a n v s).pending = s.pending := by
  simp only [regWrite]
  split
  · simp
  · split
    · simp
    · split
      · simp
      · split
        · split
          · generalize hm : msixWrite _ _ _ _ _ _ = o
            cases o with
            | none => simp
            | some t => simp [msixWrite_pending hm]
          · simp
        · split <;> simp

@[simp] theorem execRegisterWrite_pending (r a n v s) : (after (execRegisterWrite r a n v s) s).pending = s.pending := by
  simp only [execRegisterWrite, after_next]
  (repeat' split) <;> simp

@[simp] theorem vendorWrite_pending (s r a width v) : (vendorWrite s r a width v).pending = s.pending := by
  simp only [vendorWrite]
  split <;> simp

@[simp] theorem execRegWrite_pending (a width v s) : (after (execRegWrite a width v s) s).pending = s.pending := by
  simp [execRegWrite]

@[simp] theorem execDbgregWr_pending (a width v s) : (after (execDbgregWr a width v s) s).pending = s.pending := by
  simp [execDbgregWr]

@[simp] theorem execDbgmem_pending (a write v s) : (after (execDbgmem a write v s) s).pending = s.pending := by
  simp [execDbgmem]

/-! ### Requests that a die link brings -/

@[simp] theorem linkReq_pending (s l p op) (code : Nat → Nat) : (linkReq s l p op code).pending = s.pending := by
  simp only [linkReq]
  (repeat' split) <;> simp

@[simp] theorem execMrd_pending (l s) : (after (execMrd l s) s).pending = s.pending := by
  simp only [execMrd, after_next]
  split
  · rfl
  · next e => simp [takePkt_pending e]

@[simp] theorem execMwr_pending (l s) : (after (execMwr l s) s).pending = s.pending := by
  simp only [execMwr, after_next]
  split
  · rfl
  · next e => simp [takePkt_pending e]

@[simp] theorem execFdlQmsg_pending (l s) : (after (execFdlQmsg l s) s).pending = s.pending := by
  simp only [execFdlQmsg, after_next]
  split
  · rfl
  · next e => simp [takePkt_pending e]

@[simp] theorem execFdlSync_pending (l s) : (after (execFdlSync l s) s).pending = s.pending := by
  simp only [execFdlSync, after_next]
  split
  · rfl
  · next e => split <;> simp [takePkt_pending e]

@[simp] theorem regAnswer_pending (s l p) : (regAnswer s l p).1.pending = s.pending := by
  simp only [regAnswer]
  (repeat' split) <;> simp

@[simp] theorem execFdlReg_pending (l s) : (after (execFdlReg l s) s).pending = s.pending := by
  simp only [execFdlReg, after_next]
  split
  · rfl
  · next e => simp [takePkt_pending e]

/-! ### Craong-S instructions -/

@[simp] theorem stwRow_pending (w s m) (f : Iss → State → State) (hf : ∀ u s, SamePending s (f u s)) :
    (stwRow w s m f).pending = s.pending := by
  simp only [samePending_iff] at hf
  simp only [stwRow]
  (repeat' split) <;> simp [hf]

@[simp] theorem Iss.exc_pending (u s rd kind code detail) : (Iss.exc u s rd kind code detail).pending = s.pending := by
  simp [Iss.exc]

/-! ### Craong-S integer and system instructions -/

@[simp] theorem stwIllegal_pending (u s) : (stwIllegal u s).pending = s.pending := by simp [stwIllegal]

@[simp] theorem execIllegalInstruction_pending (w s) : (after (execIllegalInstruction w s) s).pending = s.pending := by
  simp [execIllegalInstruction]

@[simp] theorem execSAlu_pending (w s) : (after (execSAlu w s) s).pending = s.pending := by simp [execSAlu]

@[simp] theorem execSAddi_pending (w s) : (after (execSAddi w s) s).pending = s.pending := by simp [execSAddi]

@[simp] theorem execSAndi_pending (w s) : (after (execSAndi w s) s).pending = s.pending := by simp [execSAndi]

@[simp] theorem execSOri_pending (w s) : (after (execSOri w s) s).pending = s.pending := by simp [execSOri]

@[simp] theorem execSXori_pending (w s) : (after (execSXori w s) s).pending = s.pending := by simp [execSXori]

@[simp] theorem execSShi_pending (w s) : (after (execSShi w s) s).pending = s.pending := by simp [execSShi]

@[simp] theorem execSSlti_pending (w s) : (after (execSSlti w s) s).pending = s.pending := by simp [execSSlti]

@[simp] theorem execSLi_pending (w s) : (after (execSLi w s) s).pending = s.pending := by simp [execSLi]

@[simp] theorem execSLih_pending (w s) : (after (execSLih w s) s).pending = s.pending := by simp [execSLih]

@[simp] theorem execSBeq_pending (w s) : (after (execSBeq w s) s).pending = s.pending := by simp [execSBeq]

@[simp] theorem execSBne_pending (w s) : (after (execSBne w s) s).pending = s.pending := by simp [execSBne]

@[simp] theorem execSBlt_pending (w s) : (after (execSBlt w s) s).pending = s.pending := by simp [execSBlt]

@[simp] theorem execSBge_pending (w s) : (after (execSBge w s) s).pending = s.pending := by simp [execSBge]

@[simp] theorem execSBltu_pending (w s) : (after (execSBltu w s) s).pending = s.pending := by simp [execSBltu]

@[simp] theorem execSBgeu_pending (w s) : (after (execSBgeu w s) s).pending = s.pending := by simp [execSBgeu]

@[simp] theorem execSJal_pending (w s) : (after (execSJal w s) s).pending = s.pending := by simp [execSJal]

@[simp] theorem execSJalr_pending (w s) : (after (execSJalr w s) s).pending = s.pending := by simp [execSJalr]

@[simp] theorem execSCsr_pending (w s) : (after (execSCsr w s) s).pending = s.pending := by simp [execSCsr]

@[simp] theorem execSSysc_pending (w s) : (after (execSSysc w s) s).pending = s.pending := by simp [execSSysc]

@[simp] theorem execSRett_pending (w s) : (after (execSRett w s) s).pending = s.pending := by simp [execSRett]

@[simp] theorem execSHret_pending (w s) : (after (execSHret w s) s).pending = s.pending := by
  rw [execSHret, after_next, stwRow_pending]
  intro u s
  rw [samePending_iff]
  dsimp only
  (repeat' split) <;> simp

@[simp] theorem execSHalt_pending (w s) : (after (execSHalt w s) s).pending = s.pending := by simp [execSHalt]

@[simp] theorem execSFenceL_pending (w s) : (after (execSFenceL w s) s).pending = s.pending := by simp [execSFenceL]

@[simp] theorem execSFenceG_pending (w s) : (after (execSFenceG w s) s).pending = s.pending := by simp [execSFenceG]

@[simp] theorem execSFenceI_pending (w s) : (after (execSFenceI w s) s).pending = s.pending := by simp [execSFenceI]

/-! ### Craong-S loads, stores and messages -/

@[simp] theorem localCheck_pending (u s rd a n align) (f : State → State) (hf : ∀ s, SamePending s (f s)) :
    (localCheck u s rd a n align f).pending = s.pending := by
  simp only [samePending_iff] at hf
  unfold localCheck
  (repeat' split) <;> simp [hf]

@[simp] theorem localStore_pending (s u a bs) (f : State → Nat → State) (hf : ∀ s n, SamePending s (f s n)) :
    (localStore s u a bs f).pending = s.pending := by
  simp only [samePending_iff] at hf
  have kept : (if u.storing s then s else keepCode s u.ch u.c u.w a bs.length).pending = s.pending := by simp
  unfold localStore
  split
  · simp
  · split <;> next e => simp [hf, (pending_of_guardStore e).trans kept]

@[simp] theorem execSLdl_pending (w s) : (after (execSLdl w s) s).pending = s.pending := by simp [execSLdl]

@[simp] theorem execSStl_pending (w s) : (after (execSStl w s) s).pending = s.pending := by
  rw [execSStl, after_next]
  refine stwRow_pending _ _ _ _ fun u s => samePending_iff.2 (localCheck_pending _ _ _ _ _ _ _ fun s => samePending_iff.2 ?_)
  dsimp only
  (repeat' split) <;> simp

@[simp] theorem ctlStore_pending (s r ch a bs) : (ctlStore s r ch a bs).pending = s.pending := by
  simp only [ctlStore]
  split <;> simp

@[simp] theorem globalLoad_pending (u s a n) : (globalLoad u s a n).pending = s.pending := by simp [globalLoad]

@[simp] theorem execSLdg_pending (w s) : (after (execSLdg w s) s).pending = s.pending := by simp [execSLdg]

@[simp] theorem execGlobalLoadReturn_pending (w s) : (after (execGlobalLoadReturn w s) s).pending = s.pending := by
  simp only [execGlobalLoadReturn, after_next]
  split <;> simp

@[simp] theorem postStore_pending (s ch c w a bs) : (postStore s ch c w a bs).pending = s.pending := by simp [postStore]

@[simp] theorem execSStg_pending (w s) : (after (execSStg w s) s).pending = s.pending := by
  rw [execSStg, after_next, stwRow_pending]
  intro u s
  rw [samePending_iff]
  dsimp only
  (repeat' split) <;> simp

@[simp] theorem execSQsnd_pending (w s) : (after (execSQsnd w s) s).pending = s.pending := by
  rw [execSQsnd, after_next, stwRow_pending]
  intro u s
  rw [samePending_iff]
  dsimp only
  (repeat' split) <;> simp

@[simp] theorem qrcv_pending (u s) : (qrcv u s).pending = s.pending := by
  simp only [qrcv]
  (repeat' split) <;> simp

@[simp] theorem execSQrcv_pending (w s) : (after (execSQrcv w s) s).pending = s.pending := by simp [execSQrcv]

/-! ### Craong-S take and predictor instructions -/

theorem releaseRec_pending {s u : State} {ch c k : Nat} {r : PenRec} (e : releaseRec s ch c k r = some u) :
    u.pending = s.pending := by
  unfold releaseRec at e
  (repeat' split at e) <;> cases e <;> simp

@[simp] theorem releaseRecs_pending (n s ch c) : (releaseRecs n s ch c).pending = s.pending := by
  induction n generalizing s with
  | zero => rfl
  | succ n ih =>
    unfold releaseRecs
    split
    · rfl
    · split
      · rfl
      · split
        · rfl
        · next e => simp [ih, releaseRec_pending e]

@[simp] theorem commitEnd_pending (s ch c a) : (commitEnd s ch c a).pending = s.pending := by
  simp only [commitEnd]
  split <;> simp

@[simp] theorem commitGo_pending (s ch c) : (commitGo s ch c).pending = s.pending := by
  simp only [commitGo]
  split <;> simp

@[simp] theorem commitBegin_pending (s ch c a) : (commitBegin s ch c a).pending = s.pending := by simp [commitBegin]

@[simp] theorem takeBegin_pending (s ch c a) : (takeBegin s ch c a).pending = s.pending := by simp [takeBegin]

@[simp] theorem takeNext_pending (n s ch c) : (takeNext n s ch c).pending = s.pending := by
  induction n generalizing s with
  | zero => rfl
  | succ n ih =>
    unfold takeNext
    split
    · simp [ih]
    · rfl

@[simp] theorem takeIssue_pending (u s commit) : (takeIssue u s commit).pending = s.pending := by simp [takeIssue]

@[simp] theorem execSTakeCommit_pending (w s) : (after (execSTakeCommit w s) s).pending = s.pending := by
  simp [execSTakeCommit]

@[simp] theorem execSTakeSquash_pending (w s) : (after (execSTakeSquash w s) s).pending = s.pending := by
  simp [execSTakeSquash]

@[simp] theorem execTakeActionResume_pending (c s) : (after (execTakeActionResume c s) s).pending = s.pending := by
  simp [execTakeActionResume]

@[simp] theorem execSTakeOpen_pending (w s) : (after (execSTakeOpen w s) s).pending = s.pending := by
  rw [execSTakeOpen, after_next]
  refine stwRow_pending _ _ _ _ fun u s => samePending_iff.2 (Iss.held_pending _ _ _ _ fun s => samePending_iff.2 ?_)
  split <;> simp

@[simp] theorem execSTakeEnter_pending (w s) : (after (execSTakeEnter w s) s).pending = s.pending := by
  simp [execSTakeEnter]

@[simp] theorem execSTakeLeave_pending (w s) : (after (execSTakeLeave w s) s).pending = s.pending := by
  simp [execSTakeLeave]

@[simp] theorem execSTakeStat_pending (w s) : (after (execSTakeStat w s) s).pending = s.pending := by
  simp [execSTakeStat]

@[simp] theorem execSPredQ_pending (w s) : (after (execSPredQ w s) s).pending = s.pending := by simp [execSPredQ]

@[simp] theorem execSPredU_pending (w s) : (after (execSPredU w s) s).pending = s.pending := by simp [execSPredU]

/-! ### Craong-S dolly, sync and Seal instructions -/

@[simp] theorem execSDlyIssue_pending (w s) : (after (execSDlyIssue w s) s).pending = s.pending := by
  rw [execSDlyIssue, after_next]
  refine stwRow_pending _ _ _ _ fun u s => samePending_iff.2 (localCheck_pending _ _ _ _ _ _ _ fun s => samePending_iff.2 ?_)
  (repeat' split) <;> simp

@[simp] theorem ticketGive_pending (u s) (f : State → State) (hf : ∀ s, SamePending s (f s)) :
    (ticketGive u s f).pending = s.pending := by
  simp only [samePending_iff] at hf
  unfold ticketGive
  (repeat' split) <;> simp [hf]

@[simp] theorem execSDlyWait_pending (w s) : (after (execSDlyWait w s) s).pending = s.pending := by simp [execSDlyWait]

@[simp] theorem execSDlyPoll_pending (w s) : (after (execSDlyPoll w s) s).pending = s.pending := by simp [execSDlyPoll]

@[simp] theorem syncCheck_pending (u s rd posted) (f : State → State) (hf : ∀ s, SamePending s (f s)) :
    (syncCheck u s rd posted f).pending = s.pending := by
  simp only [samePending_iff] at hf
  simp [syncCheck, hf]

@[simp] theorem syncPosted_pending (u s op n) : (syncPosted u s op n).pending = s.pending := by simp [syncPosted]

@[simp] theorem syncWait_pending (u s rd op n why q) : (syncWait u s rd op n why q).pending = s.pending := by
  simp [syncWait]

@[simp] theorem execSSyncRd_pending (w s) : (after (execSSyncRd w s) s).pending = s.pending := by simp [execSSyncRd]

@[simp] theorem execSSyncAdd_pending (w s) : (after (execSSyncAdd w s) s).pending = s.pending := by simp [execSSyncAdd]

@[simp] theorem execSSyncSet_pending (w s) : (after (execSSyncSet w s) s).pending = s.pending := by simp [execSSyncSet]

@[simp] theorem execSSyncWge_pending (w s) : (after (execSSyncWge w s) s).pending = s.pending := by simp [execSSyncWge]

@[simp] theorem execSBarArv_pending (w s) : (after (execSBarArv w s) s).pending = s.pending := by simp [execSBarArv]

@[simp] theorem execSBarWait_pending (w s) : (after (execSBarWait w s) s).pending = s.pending := by simp [execSBarWait]

@[simp] theorem execSBarArw_pending (w s) : (after (execSBarArw w s) s).pending = s.pending := by simp [execSBarArw]

@[simp] theorem sealRow_pending (w s m rd) (f : Iss → State → State) (hf : ∀ u s, SamePending s (f u s)) :
    (sealRow w s m rd f).pending = s.pending := by
  simp only [samePending_iff] at hf
  simp [sealRow, hf]

@[simp] theorem execSSealConvoy_pending (w s) : (after (execSSealConvoy w s) s).pending = s.pending := by
  rw [execSSealConvoy, after_next, sealRow_pending]
  intro u s
  rw [samePending_iff]
  (repeat' split) <;> simp

@[simp] theorem execSSealCtx_pending (w s) : (after (execSSealCtx w s) s).pending = s.pending := by
  rw [execSSealCtx, after_next, sealRow_pending]
  intro u s
  rw [samePending_iff]
  (repeat' split) <;> simp

@[simp] theorem sealGive_pending (u s) (f : State → State) (hf : ∀ s, SamePending s (f s)) :
    (sealGive u s f).pending = s.pending := by
  simp only [samePending_iff] at hf
  unfold sealGive
  (repeat' split) <;> simp [hf]

@[simp] theorem execSSealWait_pending (w s) : (after (execSSealWait w s) s).pending = s.pending := by
  simp [execSSealWait]

@[simp] theorem execSSealPoll_pending (w s) : (after (execSSealPoll w s) s).pending = s.pending := by
  simp [execSSealPoll]

@[simp] theorem execSSealHdr_pending (w s) : (after (execSSealHdr w s) s).pending = s.pending := by simp [execSSealHdr]


end Sys2Proof.Machine


/-! Every command, and the step that takes one. -/

namespace Sys2Proof.Machine

/-- A command leaves the queue: one lemma for each command. -/
theorem exec_pending (c : Instr) (s : State) : (after (exec c s) s).pending = s.pending := by
  cases c with
  | registerWrite => exact execRegisterWrite_pending ..
  | hubCapsMirrorUpdate => exact execHubCapsMirrorUpdate_pending ..
  | flitRoute => exact execFlitRoute_pending ..
  | creditReturn => exact execCreditReturn_pending ..
  | egressToken => exact execEgressToken_pending ..
  | gatewayMeshHop => exact execGatewayMeshHop_pending ..
  | tlCtrlHalt => exact execTlCtrlHalt_pending ..
  | tileHaltEffect => exact execTileHaltEffect_pending ..
  | tlCtrlResume => exact execTlCtrlResume_pending ..
  | tlCtrlStep => exact execTlCtrlStep_pending ..
  | tlRngseedWrite => exact execTlRngseedWrite_pending ..
  | tileReservedEncoding => exact execTileReservedEncoding_pending ..
  | tNop => exact execTNop_pending ..
  | tEnd => exact execTEnd_pending ..
  | tJmp => exact execTJmp_pending ..
  | tBr => exact execTBr_pending ..
  | tLoop => exact execTLoop_pending ..
  | tDrop => exact execTDrop_pending ..
  | tMac => exact execTMac_pending ..
  | tMacb => exact execTMacb_pending ..
  | tMul => exact execTMul_pending ..
  | tAdd => exact execTAdd_pending ..
  | tSub => exact execTSub_pending ..
  | tMax => exact execTMax_pending ..
  | tMin => exact execTMin_pending ..
  | tMmac => exact execTMmac_pending ..
  | tImac => exact execTImac_pending ..
  | tIadd => exact execTIadd_pending ..
  | tIsub => exact execTIsub_pending ..
  | tIand => exact execTIand_pending ..
  | tIor => exact execTIor_pending ..
  | tIxor => exact execTIxor_pending ..
  | tIshl => exact execTIshl_pending ..
  | tIshr => exact execTIshr_pending ..
  | tFma => exact execTFma_pending ..
  | tFadd => exact execTFadd_pending ..
  | tFsub => exact execTFsub_pending ..
  | tFmul => exact execTFmul_pending ..
  | tFmax => exact execTFmax_pending ..
  | tFmin => exact execTFmin_pending ..
  | tFn => exact execTFn_pending ..
  | tCvt => exact execTCvt_pending ..
  | tMov => exact execTMov_pending ..
  | tPerm => exact execTPerm_pending ..
  | tRot => exact execTRot_pending ..
  | tBcst => exact execTBcst_pending ..
  | tSel => exact execTSel_pending ..
  | tRsum => exact execTRsum_pending ..
  | tRmax => exact execTRmax_pending ..
  | tRmin => exact execTRmin_pending ..
  | tRamax => exact execTRamax_pending ..
  | tRbexp => exact execTRbexp_pending ..
  | tFwd => exact execTFwd_pending ..
  | tFwdh => exact execTFwdh_pending ..
  | tPcmp => exact execTPcmp_pending ..
  | tPlog => exact execTPlog_pending ..
  | tPset => exact execTPset_pending ..
  | tPcls => exact execTPcls_pending ..
  | tLd => exact execTLd_pending ..
  | tLdh => exact execTLdh_pending ..
  | tLde => exact execTLde_pending ..
  | tSt => exact execTSt_pending ..
  | tSth => exact execTSth_pending ..
  | tTkent => exact execTTkent_pending ..
  | tTklv => exact execTTklv_pending ..
  | tSig => exact execTSig_pending ..
  | illegalInstruction => exact execIllegalInstruction_pending ..
  | sAlu => exact execSAlu_pending ..
  | sAddi => exact execSAddi_pending ..
  | sAndi => exact execSAndi_pending ..
  | sOri => exact execSOri_pending ..
  | sXori => exact execSXori_pending ..
  | sShi => exact execSShi_pending ..
  | sSlti => exact execSSlti_pending ..
  | sBeq => exact execSBeq_pending ..
  | sBne => exact execSBne_pending ..
  | sBlt => exact execSBlt_pending ..
  | sBge => exact execSBge_pending ..
  | sBltu => exact execSBltu_pending ..
  | sBgeu => exact execSBgeu_pending ..
  | sJal => exact execSJal_pending ..
  | sJalr => exact execSJalr_pending ..
  | sCsr => exact execSCsr_pending ..
  | sSysc => exact execSSysc_pending ..
  | sRett => exact execSRett_pending ..
  | sHret => exact execSHret_pending ..
  | sHalt => exact execSHalt_pending ..
  | sFenceL => exact execSFenceL_pending ..
  | sFenceG => exact execSFenceG_pending ..
  | sFenceI => exact execSFenceI_pending ..
  | sLi => exact execSLi_pending ..
  | sLih => exact execSLih_pending ..
  | sLdl => exact execSLdl_pending ..
  | sStl => exact execSStl_pending ..
  | sLdg => exact execSLdg_pending ..
  | sStg => exact execSStg_pending ..
  | globalLoadReturn => exact execGlobalLoadReturn_pending ..
  | postedAckReturn => exact execPostedAckReturn_pending ..
  | sDlyIssue => exact execSDlyIssue_pending ..
  | sDlyWait => exact execSDlyWait_pending ..
  | sDlyPoll => exact execSDlyPoll_pending ..
  | dollyRequestIssue => exact execDollyRequestIssue_pending ..
  | dollyDataReturn => exact execDollyDataReturn_pending ..
  | descriptorComplete => exact execDescriptorComplete_pending ..
  | sQsnd => exact execSQsnd_pending ..
  | sQrcv => exact execSQrcv_pending ..
  | sSyncRd => exact execSSyncRd_pending ..
  | sSyncAdd => exact execSSyncAdd_pending ..
  | sSyncSet => exact execSSyncSet_pending ..
  | sSyncWge => exact execSSyncWge_pending ..
  | sBarArv => exact execSBarArv_pending ..
  | sBarWait => exact execSBarWait_pending ..
  | sBarArw => exact execSBarArw_pending ..
  | sTakeOpen => exact execSTakeOpen_pending ..
  | sTakeCommit => exact execSTakeCommit_pending ..
  | sTakeSquash => exact execSTakeSquash_pending ..
  | takeActionResume => exact execTakeActionResume_pending ..
  | sTakeEnter => exact execSTakeEnter_pending ..
  | sTakeLeave => exact execSTakeLeave_pending ..
  | sTakeStat => exact execSTakeStat_pending ..
  | sPredQ => exact execSPredQ_pending ..
  | sPredU => exact execSPredU_pending ..
  | sSealConvoy => exact execSSealConvoy_pending ..
  | sSealWait => exact execSSealWait_pending ..
  | sSealPoll => exact execSSealPoll_pending ..
  | sSealCtx => exact execSSealCtx_pending ..
  | sSealHdr => exact execSSealHdr_pending ..
  | clStwCtrlHalt => exact execClStwCtrlHalt_pending ..
  | stewardHaltEffect => exact execStewardHaltEffect_pending ..
  | clStwCtrlResume => exact execClStwCtrlResume_pending ..
  | clStwCtrlStep => exact execClStwCtrlStep_pending ..
  | chLdctrlGo => exact execChLdctrlGo_pending ..
  | loadFetchDone => exact execLoadFetchDone_pending ..
  | loadCheckDone => exact execLoadCheckDone_pending ..
  | loadWriteDone => exact execLoadWriteDone_pending ..
  | preloadDone => exact execPreloadDone_pending ..
  | chLdctrlStart => exact execChLdctrlStart_pending ..
  | chLdctrlClear => exact execChLdctrlClear_pending ..
  | chLdctrlUnload => exact execChLdctrlUnload_pending ..
  | chLdctrlCommit => exact execChLdctrlCommit_pending ..
  | startupStepIssue => exact execStartupStepIssue_pending ..
  | startupStepComplete => exact execStartupStepComplete_pending ..
  | startupStepTimeout => exact execStartupStepTimeout_pending ..
  | unloadDone => exact execUnloadDone_pending ..
  | depotBankGrant => exact execDepotBankGrant_pending ..
  | stackSlotGrant => exact execStackSlotGrant_pending ..
  | ttEntryAssign => exact execTtEntryAssign_pending ..
  | chBwsplitCommit => exact execChBwsplitCommit_pending ..
  | bwsplitFrameBoundary => exact execBwsplitFrameBoundary_pending ..
  | clSbCtrlCommit => exact execClSbCtrlCommit_pending ..
  | sbConfigApply => exact execSbConfigApply_pending ..
  | clSbCtrlSwap => exact execClSbCtrlSwap_pending ..
  | sbSwap => exact execSbSwap_pending ..
  | clSbCtrlPub => exact execClSbCtrlPub_pending ..
  | clSbCtrlRel => exact execClSbCtrlRel_pending ..
  | clSbCtrlFlush => exact execClSbCtrlFlush_pending ..
  | depotInterfaceFlit => exact execDepotInterfaceFlit_pending ..
  | depotPortEmit => exact execDepotPortEmit_pending ..
  | queueArrival => exact execQueueArrival_pending ..
  | messageEnqueueAfterWait => exact execMessageEnqueueAfterWait_pending ..
  | handlerDispatch => exact execHandlerDispatch_pending ..
  | clQctrlPoison => exact execClQctrlPoison_pending ..
  | clQctrlUnpoison => exact execClQctrlUnpoison_pending ..
  | clQcfgWrite => exact execClQcfgWrite_pending ..
  | clHtWrite => exact execClHtWrite_pending ..
  | syncOperation => exact execSyncOperation_pending ..
  | waitRegistration => exact execWaitRegistration_pending ..
  | remoteWaitRetry => exact execRemoteWaitRetry_pending ..
  | stewardPark => exact execStewardPark_pending ..
  | syncOutPulse => exact execSyncOutPulse_pending ..
  | syncOutEnd => exact execSyncOutEnd_pending ..
  | chSyncselWrite => exact execChSyncselWrite_pending ..
  | chSyncctrlPoison => exact execChSyncctrlPoison_pending ..
  | chSyncctrlUnpoison => exact execChSyncctrlUnpoison_pending ..
  | stallWindowExpiry => exact execStallWindowExpiry_pending ..
  | dstStallcfgWrite => exact execDstStallcfgWrite_pending ..
  | sidingEngineCycle => exact execSidingEngineCycle_pending ..
  | chPredctrlClear => exact execChPredctrlClear_pending ..
  | chNfctrlArm => exact execChNfctrlArm_pending ..
  | chNfctrlAbort => exact execChNfctrlAbort_pending ..
  | chNfcfgCommit => exact execChNfcfgCommit_pending ..
  | nfConfigApply => exact execNfConfigApply_pending ..
  | sealEntryBegin => exact execSealEntryBegin_pending ..
  | sealContextLoadDone => exact execSealContextLoadDone_pending ..
  | sealCheckDone => exact execSealCheckDone_pending ..
  | sealRefreshDone => exact execSealRefreshDone_pending ..
  | sealPbsPassDone => exact execSealPbsPassDone_pending ..
  | sealKswPassDone => exact execSealKswPassDone_pending ..
  | sealLinearDone => exact execSealLinearDone_pending ..
  | keyStreamRead => exact execKeyStreamRead_pending ..
  | sealWriteBegin => exact execSealWriteBegin_pending ..
  | sealConvoyComplete => exact execSealConvoyComplete_pending ..
  | sealCtrlDisable => exact execSealCtrlDisable_pending ..
  | sealCtrlEnable => exact execSealCtrlEnable_pending ..
  | perstNEdge => exact execPerstNEdge_pending ..
  | perstNFilterExpiry => exact execPerstNFilterExpiry_pending ..
  | perstNDeassert => exact execPerstNDeassert_pending ..
  | pcieLinkReady => exact execPcieLinkReady_pending ..
  | pcieLinkDown => exact execPcieLinkDown_pending ..
  | powerStateWrite => exact execPowerStateWrite_pending ..
  | submissionDoorbell => exact execSubmissionDoorbell_pending ..
  | completionDoorbell => exact execCompletionDoorbell_pending ..
  | eventQueueDoorbell => exact execEventQueueDoorbell_pending ..
  | vfRingCtrlCommit => exact execVfRingCtrlCommit_pending ..
  | ringConfigApply => exact execRingConfigApply_pending ..
  | vfRingCtrlEnable => exact execVfRingCtrlEnable_pending ..
  | vfRingCtrlDisable => exact execVfRingCtrlDisable_pending ..
  | vfEvqCtrlCommit => exact execVfEvqCtrlCommit_pending ..
  | vfEvqCtrlEnable => exact execVfEvqCtrlEnable_pending ..
  | vfEvqCtrlDisable => exact execVfEvqCtrlDisable_pending ..
  | ringFetch => exact execRingFetch_pending s
  | ringEntryArrive => exact execRingEntryArrive_pending ..
  | fencedCommandStart => exact execFencedCommandStart_pending ..
  | cmdNop => exact execCmdNop_pending ..
  | cmdLoad => exact execCmdLoad_pending ..
  | cmdStart => exact execCmdStart_pending ..
  | cmdUnload => exact execCmdUnload_pending ..
  | cmdClear => exact execCmdClear_pending ..
  | copyIn => exact execCopyIn_pending ..
  | copyOut => exact execCopyOut_pending ..
  | signal => exact execSignal_pending ..
  | syncwait => exact execSyncwait_pending ..
  | fwcall => exact execFwcall_pending ..
  | completionWrite => exact execCompletionWrite_pending ..
  | eventWrite => exact execEventWrite_pending ..
  | msixSend => exact execMsixSend_pending ..
  | apertureWrite => exact execApertureWrite_pending ..
  | apertureRead => exact execApertureRead_pending ..
  | vfApBaseWrite => exact execVfApBaseWrite_pending ..
  | hostReadFailure => exact execHostReadFailure_pending ..
  | vfEnable => exact execVfEnable_pending ..
  | vfEnableClear => exact execVfEnableClear_pending ..
  | vfFlr => exact execVfFlr_pending ..
  | pf0Flr => exact execPf0Flr_pending ..
  | channelDisable => exact execChannelDisable_pending ..
  | flrDrainTimeout => exact execFlrDrainTimeout_pending ..
  | disableScrubDone => exact execDisableScrubDone_pending ..
  | chRptctrlCommit => exact execChRptctrlCommit_pending ..
  | chRptctrlFence => exact execChRptctrlFence_pending ..
  | hubRptfenceStart => exact execHubRptfenceStart_pending ..
  | fenceTimeout => exact execFenceTimeout_pending ..
  | hubRptCopyUpdate => exact execHubRptCopyUpdate_pending ..
  | vfGrantselWrite => exact execVfGrantselWrite_pending ..
  | vfWinselWrite => exact execVfWinselWrite_pending ..
  | drstNDeassert => exact execDrstNDeassert_pending ..
  | ucieTrained => exact execUcieTrained_pending ..
  | capx => exact execCapx_pending ..
  | capxRepeat => exact execCapxRepeat_pending ..
  | agree => exact execAgree_pending ..
  | uprateDone => exact execUprateDone_pending ..
  | fdlStageTimeout => exact execFdlStageTimeout_pending ..
  | flitTransmit => exact execFlitTransmit_pending ..
  | flitReceive => exact execFlitReceive_pending ..
  | fdlRetry => exact execFdlRetry_pending ..
  | ackTimeout => exact execAckTimeout_pending ..
  | retrainDone => exact execRetrainDone_pending ..
  | retrainTimeout => exact execRetrainTimeout_pending ..
  | l1IdleExpiry => exact execL1IdleExpiry_pending ..
  | pmreq => exact execPmreq_pending ..
  | pmack => exact execPmack_pending ..
  | pmnak => exact execPmnak_pending ..
  | l1Exit => exact execL1Exit_pending ..
  | testreq => exact execTestreq_pending ..
  | fdlAbort => exact execFdlAbort_pending ..
  | mrd => exact execMrd_pending ..
  | mwr => exact execMwr_pending ..
  | fdlRdata => exact execFdlRdata_pending ..
  | fdlCmpl => exact execFdlCmpl_pending ..
  | fdlQmsg => exact execFdlQmsg_pending ..
  | fdlFrame => exact execFdlFrame_pending ..
  | fdlSync => exact execFdlSync_pending ..
  | fdlReg => exact execFdlReg_pending ..
  | fdlNote => exact execFdlNote_pending ..
  | boot => exact execBoot_pending ..
  | fdlRequestTimeout => exact execFdlRequestTimeout_pending ..
  | fdlLinkCtrlReneg => exact execFdlLinkCtrlReneg_pending ..
  | fdlLinkCtrlRetrain => exact execFdlLinkCtrlRetrain_pending ..
  | fdlLinkCtrlTest => exact execFdlLinkCtrlTest_pending ..
  | fdlLinkCfgCommit => exact execFdlLinkCfgCommit_pending ..
  | fdlRegWindowAccess => exact execFdlRegWindowAccess_pending ..
  | ctFrameReceive => exact execCtFrameReceive_pending ..
  | ctWrite => exact execCtWrite_pending ..
  | ctRead => exact execCtRead_pending ..
  | ctQmsg => exact execCtQmsg_pending ..
  | ctSync => exact execCtSync_pending ..
  | ctBar => exact execCtBar_pending ..
  | ctColl => exact execCtColl_pending ..
  | ctResp => exact execCtResp_pending ..
  | ctRdata => exact execCtRdata_pending ..
  | ctAck => exact execCtAck_pending ..
  | ctOpen => exact execCtOpen_pending ..
  | ctNotice => exact execCtNotice_pending ..
  | ctPacketTransmit => exact execCtPacketTransmit_pending ..
  | ctRtoExpiry => exact execCtRtoExpiry_pending ..
  | ctAckTimer => exact execCtAckTimer_pending ..
  | ctOpenRetry => exact execCtOpenRetry_pending ..
  | ctNoticeResend => exact execCtNoticeResend_pending ..
  | ctFlowctrlCommit => exact execCtFlowctrlCommit_pending ..
  | ctFlowctrlOpen => exact execCtFlowctrlOpen_pending ..
  | ctFlowctrlClose => exact execCtFlowctrlClose_pending ..
  | ctFlowselWrite => exact execCtFlowselWrite_pending ..
  | ctGrpctrlCommit => exact execCtGrpctrlCommit_pending ..
  | ctGrpselWrite => exact execCtGrpselWrite_pending ..
  | ctLccfgCommit => exact execCtLccfgCommit_pending ..
  | ctPortCfgCommit => exact execCtPortCfgCommit_pending ..
  | portLinkDown => exact execPortLinkDown_pending ..
  | portLinkUp => exact execPortLinkUp_pending ..
  | collectiveSubmit => exact execCollectiveSubmit_pending ..
  | collectiveBegin => exact execCollectiveBegin_pending ..
  | collectiveTimeout => exact execCollectiveTimeout_pending ..
  | powerEpoch => exact execPowerEpoch_pending ..
  | grantBoundary => exact execGrantBoundary_pending ..
  | avfsEvaluation => exact execAvfsEvaluation_pending ..
  | droop => exact execDroop_pending ..
  | dstVftgtCommit => exact execDstVftgtCommit_pending ..
  | hubPwrbudgetCommit => exact execHubPwrbudgetCommit_pending ..
  | chPwrcfgWrite => exact execChPwrcfgWrite_pending ..
  | thermalSample => exact execThermalSample_pending ..
  | throttleNEdge => exact execThrottleNEdge_pending ..
  | throttleFilterExpiry => exact execThrottleFilterExpiry_pending ..
  | syncInPulse => exact execSyncInPulse_pending ..
  | syncInNotice => exact execSyncInNotice_pending ..
  | hubSyncctrlArmload => exact execHubSyncctrlArmload_pending ..
  | sysclkLoss => exact execSysclkLoss_pending ..
  | pllLockLoss => exact execPllLockLoss_pending ..
  | pllRelockTimeout => exact execPllRelockTimeout_pending ..
  | faultEvent => exact execFaultEvent_pending ..
  | bucketLeak => exact execBucketLeak_pending ..
  | stormWindow => exact execStormWindow_pending ..
  | repairCopyDone => exact execRepairCopyDone_pending ..
  | heartbeat ch => exact execHeartbeat_pending ch s
  | heartbeatTimeout => exact execHeartbeatTimeout_pending ..
  | retirementNotice => exact execRetirementNotice_pending ..
  | hubCriticalFault => exact execHubCriticalFault_pending ..
  | hubWatchdogExpiry => exact execHubWatchdogExpiry_pending ..
  | faultNHoldEnd => exact execFaultNHoldEnd_pending ..
  | chFinjArm => exact execChFinjArm_pending ..
  | pwrgdFall => exact execPwrgdFall_pending ..
  | pwrgdLowAccept => exact execPwrgdLowAccept_pending ..
  | pwrgdHighStable => exact execPwrgdHighStable_pending ..
  | hubRstctrlWrite => exact execHubRstctrlWrite_pending ..
  | warmReset => exact execWarmReset_pending ..
  | romBoot => exact execRomBoot_pending ..
  | firmwareBringup => exact execFirmwareBringup_pending ..
  | fieldReadyTimeout => exact execFieldReadyTimeout_pending ..
  | returnedScrubDone => exact execReturnedScrubDone_pending ..
  | nvCtrlCommit => exact execNvCtrlCommit_pending ..
  | nvCtrlLcreq => exact execNvCtrlLcreq_pending ..
  | nvCtrlLccancel => exact execNvCtrlLccancel_pending ..
  | nvCtrlFclear => exact execNvCtrlFclear_pending ..
  | nvCtrlAuthgo => exact execNvCtrlAuthgo_pending ..
  | nvGenerationDone => exact execNvGenerationDone_pending ..
  | nvEraseDone => exact execNvEraseDone_pending ..
  | nvFaultAppend => exact execNvFaultAppend_pending ..
  | setEndpointId => exact execSetEndpointId_pending ..
  | getEndpointId => exact execGetEndpointId_pending ..
  | getEndpointUuid => exact execGetEndpointUuid_pending ..
  | getMctpVersionSupport => exact execGetMctpVersionSupport_pending ..
  | getMessageTypeSupport => exact execGetMessageTypeSupport_pending ..
  | getVendorMessageSupport => exact execGetVendorMessageSupport_pending ..
  | smbusArp => exact execSmbusArp_pending ..
  | smbusLineTimeout => exact execSmbusLineTimeout_pending ..
  | regRead => exact execRegRead_pending ..
  | regWrite => exact execRegWrite_pending ..
  | dumpInfo => exact execDumpInfo_pending ..
  | dumpRead => exact execDumpRead_pending ..
  | dumpClear => exact execDumpClear_pending ..
  | dumpEraseDone => exact execDumpEraseDone_pending ..
  | dlyRead => exact execDlyRead_pending ..
  | pldmBaseRequest => exact execPldmBaseRequest_pending ..
  | pldmSensorRequest => exact execPldmSensorRequest_pending ..
  | requestUpdate => exact execRequestUpdate_pending ..
  | firmwareDataTransfer => exact execFirmwareDataTransfer_pending ..
  | verifyComplete => exact execVerifyComplete_pending ..
  | activateFirmware => exact execActivateFirmware_pending ..
  | sensorSample => exact execSensorSample_pending ..
  | alertResponseRead => exact execAlertResponseRead_pending ..
  | alertHoldoffEnd => exact execAlertHoldoffEnd_pending ..
  | chDlyctrlTrigarm => exact execChDlyctrlTrigarm_pending ..
  | chDlyctrlClear => exact execChDlyctrlClear_pending ..
  | chDlymarkWrite => exact execChDlymarkWrite_pending ..
  | hubDlyfreeze => exact execHubDlyfreeze_pending ..
  | pmctrlStart => exact execPmctrlStart_pending ..
  | pmctrlStop => exact execPmctrlStop_pending ..
  | pmctrlSnap => exact execPmctrlSnap_pending ..
  | keeperDumpDone => exact execKeeperDumpDone_pending ..
  | bypass => exact execBypass_pending ..
  | extest => exact execExtest_pending ..
  | samplePreload => exact execSamplePreload_pending ..
  | idcode => exact execIdcode_pending ..
  | clamp => exact execClamp_pending ..
  | highz => exact execHighz_pending ..
  | dbgregRd => exact execDbgregRd_pending ..
  | dlyRd => exact execDlyRd_pending ..
  | dbgregWr => exact execDbgregWr_pending ..
  | dbgmem => exact execDbgmem_pending ..
  | dbghalt => exact execDbghalt_pending ..
  | trstNLow => exact execTrstNLow_pending ..
  | thermalTrip => exact execThermalTrip_pending ..
  | supplySample => exact execSupplySample_pending ..
  | xtalLoss => exact execXtalLoss_pending ..
  | pcieRefclkLoss => exact execPcieRefclkLoss_pending ..
  | registerRead => exact execRegisterRead_pending ..
  | pllRelock => exact execPllRelock_pending ..
  | hostReadCompletion => exact execHostReadCompletion_pending ..

/-- Settles O56: the command taken leaves the queue of the others (`exec_pending`), which is the model's own (log entry 3). -/
theorem stepTakesOneCommand : Obligations.StepTakesOneCommand := by
  unfold Obligations.StepTakesOneCommand
  intro s t c q hq ht
  rw [step, hq] at ht
  rw [← after_of_next ht, exec_pending]

end Sys2Proof.Machine


/-! Stewards (chapter 6): what an update of a steward leaves alone, how an instruction comes to act (R123), and what its completion, a
trap and a deferral make of the steward (R123, R128, R134). -/

namespace Sys2Proof.Machine

/-! ### Clusters and stewards under updates -/

theorem clLoc_inj {c d : Cl} (h : clLoc c.ch c.cl = clLoc d.ch d.cl) : c = d := by
  obtain ⟨a, b⟩ := c
  obtain ⟨a', b'⟩ := d
  simp only [clLoc] at h
  have := b.isLt
  have := b'.isLt
  obtain rfl : a = a' := Fin.ext (by omega)
  obtain rfl : b = b' := Fin.ext (by omega)
  rfl

theorem setClu_setClu (s : State) (ch c : Nat) (f g : Cluster → Cluster) :
    (s.setClu ch c f).setClu ch c g = s.setClu ch c (fun k => g (f k)) := by
  simp only [State.setClu, State.clu, SMap.get_put_same, SMap.put_put_same]

theorem setStw_setStw (s : State) (ch c n : Nat) (f g : Stw → Stw) :
    setStw (setStw s ch c n f) ch c n g = setStw s ch c n (fun x => g (f x)) := by
  simp only [setStw, setClu_setClu, Cluster.stw, SMap.get_put_same, SMap.put_put_same]

/-- The cluster of a steward that changes: all but its stewards stays. -/
theorem clu_setStw_same (s : State) (ch c w : Nat) (f : Stw → Stw) : (setStw s ch c w f).clu ch c =
    { s.clu ch c with stws := SMap.put (s.clu ch c).stws w (f (s.stw ch c w)) } := by
  simp only [setStw, clu_setClu_same]
  rfl

section Frame

variable {s t u : State} {w : StwId}

/-! ### What an instruction on registers leaves alone -/

theorem regsOnly_refl (s : State) (w : StwId) : Slice0.RegsOnly s s w :=
  ⟨fun _ => rfl, rfl, rfl, rfl, rfl, fun _ _ => rfl, fun _ => rfl⟩

theorem regsOnly_trans (h : Slice0.RegsOnly s t w) (k : Slice0.RegsOnly t u w) : Slice0.RegsOnly s u w := by
  obtain ⟨hmem, hpsn, htiles, hchans, hseals, hstw, hclu⟩ := h
  obtain ⟨kmem, kpsn, ktiles, kchans, kseals, kstw, kclu⟩ := k
  exact ⟨fun a => (kmem a).trans (hmem a), kpsn.trans hpsn, ktiles.trans htiles, kchans.trans hchans, kseals.trans hseals,
    fun v hv => (kstw v hv).trans (hstw v hv), fun c => (kclu c).trans (hclu c)⟩

/-- Registers and districts aside, nothing changes. -/
theorem regsOnly_of_wakes (w : StwId) (h : Wakes s t) : Slice0.RegsOnly s t w := by
  obtain ⟨r, d, rfl⟩ := h
  exact regsOnly_refl s w

theorem regsOnly_fset (s : State) (w : StwId) (f : Fld) (l i v : Nat) : Slice0.RegsOnly s (s.fset f l i v) w :=
  regsOnly_refl s w

theorem stwOf_setStw_other {v : StwId} (s : State) (f : Stw → Stw) (h : v ≠ w) :
    Slice0.stwOf (setStw s w.c.ch w.c.cl w.w f) v = Slice0.stwOf s v := by
  by_cases hc : v.c = w.c
  · have hw : v.w.val ≠ w.w.val := fun e => h (by obtain ⟨vc, vw⟩ := v; obtain ⟨wc, ww⟩ := w; simp_all [Fin.ext_iff])
    simp only [Slice0.stwOf, hc]
    exact stw_setStw_other _ _ _ _ _ _ hw
  · simp only [Slice0.stwOf, State.stw, setStw]
    rw [clu_setClu_other _ _ _ _ _ _ fun e => hc (clLoc_inj e)]

theorem regsOnly_setStw (s : State) (w : StwId) (f : Stw → Stw) :
    Slice0.RegsOnly s (setStw s w.c.ch w.c.cl w.w f) w := by
  refine ⟨fun _ => rfl, rfl, rfl, rfl, rfl, fun v hv => stwOf_setStw_other s f hv, fun c => ?_⟩
  by_cases hc : c = w.c
  · subst hc
    rw [clu_setStw_same]
  · rw [setStw, clu_setClu_other _ _ _ _ _ _ fun e => hc (clLoc_inj e)]


/-! ### The steward's own registers -/

@[simp] theorem stwOf_setStw (s : State) (w : StwId) (f : Stw → Stw) :
    Slice0.stwOf (setStw s w.c.ch w.c.cl w.w f) w = f (Slice0.stwOf s w) :=
  stw_setStw_same ..

theorem stwOf_of_wakes (w : StwId) (h : Wakes s t) : Slice0.stwOf t w = Slice0.stwOf s w := by
  obtain ⟨r, d, rfl⟩ := h
  rfl

@[simp] theorem stwOf_stwWake (s : State) (v w : StwId) : Slice0.stwOf (stwWake s v.c.ch v.c.cl v.w) w = Slice0.stwOf s w :=
  stwWake_stw ..

theorem stwOf_stwFinish (s : State) (w : StwId) (rd v : Nat) :
    Slice0.stwOf (stwFinish s w.c.ch w.c.cl w.w rd v) w =
      { ((Slice0.stwOf s w).put rd v).go with
        pc := pcAdd (Slice0.stwOf s w).pc (Slice0.stwOf s w).ilen, instret := (Slice0.stwOf s w).instret + 1 } := by
  simp only [stwFinish, stwOf_setStw, stwOf_stwWake]

/-- A completion without a result leaves the scalar registers. -/
theorem stwOf_stwFinish_zero (s : State) (w : StwId) (v : Nat) :
    Slice0.stwOf (stwFinish s w.c.ch w.c.cl w.w 0 v) w =
      { (Slice0.stwOf s w).go with
        pc := pcAdd (Slice0.stwOf s w).pc (Slice0.stwOf s w).ilen, instret := (Slice0.stwOf s w).instret + 1 } :=
  stwOf_stwFinish s w 0 v

theorem stwOf_stwJump (s : State) (w : StwId) (rd v target : Nat) :
    Slice0.stwOf (stwJump s w.c.ch w.c.cl w.w rd v target) w =
      { ((Slice0.stwOf s w).put rd v).go with pc := target % 2 ^ 22, instret := (Slice0.stwOf s w).instret + 1 } :=
  stwOf_setStw ..

/-- A jump without a result leaves them too. -/
theorem stwOf_stwJump_zero (s : State) (w : StwId) (v target : Nat) :
    Slice0.stwOf (stwJump s w.c.ch w.c.cl w.w 0 v target) w =
      { (Slice0.stwOf s w).go with pc := target % 2 ^ 22, instret := (Slice0.stwOf s w).instret + 1 } :=
  stwOf_stwJump s w 0 v target

theorem regsOnly_stwFinish (s : State) (w : StwId) (rd v : Nat) :
    Slice0.RegsOnly s (stwFinish s w.c.ch w.c.cl w.w rd v) w :=
  regsOnly_trans (regsOnly_of_wakes w (wakes_stwWake ..)) (regsOnly_setStw ..)

theorem regsOnly_stwJump (s : State) (w : StwId) (rd v target : Nat) :
    Slice0.RegsOnly s (stwJump s w.c.ch w.c.cl w.w rd v target) w :=
  regsOnly_setStw ..

/-- Two values of a steward that agree in all that an instruction in progress leaves for its end: scalar and special registers, the
pc, the count of instructions, the mark of a step. -/
structure SameStw (x y : Stw) : Prop where
  scalars : y.x = x.x
  pc : y.pc = x.pc
  instret : y.instret = x.instret
  stepping : y.stepping = x.stepping
  cause : (y.take, y.fcause, y.fdetail, y.epc, y.tvec) = (x.take, x.fcause, x.fdetail, x.epc, x.tvec)
  level : (y.prv, y.pprv, y.intrap, y.arvDone, y.serr) = (x.prv, x.pprv, x.intrap, x.arvDone, x.serr)
  ends : (y.dlyerr, y.hepc, y.sscratch, y.posted) = (x.dlyerr, x.hepc, x.sscratch, x.posted)

theorem SameStw.trans {x y z : Stw} (h : SameStw x y) (k : SameStw y z) : SameStw x z :=
  ⟨k.1.trans h.1, k.2.trans h.2, k.3.trans h.3, k.4.trans h.4, k.5.trans h.5, k.6.trans h.6, k.7.trans h.7⟩

theorem stw_get_congr {x y : Stw} (h : y.x = x.x) (r : Nat) : y.get r = x.get r := by simp only [Stw.get, h]

theorem stw_get_lt (x : Stw) (r : Nat) : x.get r < 2 ^ 64 := by
  simp only [Stw.get]
  split
  · decide
  · exact BitVec.isLt _

/-- A scalar register after a write of one of them, which a destination of `s0` discards (R122). -/
theorem ofNat_get_put (x : Stw) (rd v r : Nat) : BitVec.ofNat 64 ((x.put rd v).get r) =
    if r = rd ∧ r ≠ 0 then BitVec.ofNat 64 v else BitVec.ofNat 64 (x.get r) := by
  by_cases hr : r = rd
  · subst hr
    by_cases h0 : r = 0
    · simp [h0]
    · rw [stw_get_put_same _ _ _ h0, if_pos ⟨rfl, h0⟩]
      exact BitVec.eq_of_toNat_eq (by simp)
  · rw [stw_get_put_other _ _ _ _ hr, if_neg fun e => hr e.1]

/-- A write of a scalar register changes the scalar registers only. -/
theorem stw_put_scalars (x : Stw) (rd v : Nat) : ∃ m, x.put rd v = { x with x := m } := by
  unfold Stw.put
  split
  · exact ⟨x.x, rfl⟩
  · exact ⟨_, rfl⟩

/-- What a steward that writes one register and goes on is. -/
theorem retired_of_stw {rd v pc : Nat} {y : Stw} (h : SameStw (Slice0.stwOf s w) y)
    (hu : Slice0.stwOf u w = { (y.put rd v).go with pc := pc, instret := y.instret + 1 }) :
    Slice0.Retired s u w rd (BitVec.ofNat 64 v) pc := by
  obtain ⟨hx, hpc, hret, hstep, hcause, hlevel, hends⟩ := h
  have hget (r : Nat) : Slice0.xreg u w r = if r = rd ∧ r ≠ 0 then BitVec.ofNat 64 v else Slice0.xreg s w r := by
    rw [Slice0.xreg, hu, Slice0.xreg, ← stw_get_congr hx]
    exact ofNat_get_put y rd v r
  obtain ⟨m, hm⟩ := stw_put_scalars y rd v
  simp only [Slice0.Retired, hu, hm, Stw.go]
  exact ⟨hget, trivial, by rw [hret], by rw [hstep], hcause, hlevel, hends⟩

/-- Completion (R123). -/
theorem retired_stwFinish {i : SIns} (h : SameStw (Slice0.stwOf s w) (Slice0.stwOf t w)) (hlen : (Slice0.stwOf t w).ilen = i.len)
    (rd v : Nat) :
    Slice0.Retired s (stwFinish t w.c.ch w.c.cl w.w rd v) w rd (BitVec.ofNat 64 v) (Slice0.after s w i) := by
  refine retired_of_stw h ?_
  rw [stwOf_stwFinish, hlen, h.pc]
  rfl

theorem retired_stwJump (h : SameStw (Slice0.stwOf s w) (Slice0.stwOf t w)) (rd v target : Nat) :
    Slice0.Retired s (stwJump t w.c.ch w.c.cl w.w rd v target) w rd (BitVec.ofNat 64 v) (target % 2 ^ 22) :=
  retired_of_stw h (stwOf_stwJump ..)

/-- A steward that a trap takes (R128). -/
def trappedStw (kind code detail : Nat) (x : Stw) : Stw :=
  { x.go with
    epc := if kind = kSyscall ∨ kind = kDeferred then pcAdd x.pc x.ilen else x.pc
    fcause := kind * 2 ^ 8 + code
    fdetail := detail
    pprv := x.prv
    prv := true
    intrap := true
    pc := x.tvec }

theorem stwTrap_of_outside {ch c w kind code detail : Nat} (h : (s.stw ch c w).intrap = false) :
    stwTrap s ch c w kind code detail = setStw (stwWake s ch c w) ch c w (trappedStw kind code detail) := by
  simp only [stwTrap, stwWake_stw, h, Bool.false_eq_true, if_false]
  rfl

/-- A trap outside a trap (R128). -/
theorem trapped_stwTrap (hsame : SameStw (Slice0.stwOf s w) (Slice0.stwOf t w)) (honly : Slice0.RegsOnly s t w)
    (hin : (Slice0.stwOf s w).intrap = false) (kind code detail : Nat) :
    Slice0.Trapped s (stwTrap t w.c.ch w.c.cl w.w kind code detail) w
      (if kind = kSyscall ∨ kind = kDeferred then pcAdd (Slice0.stwOf s w).pc (Slice0.stwOf t w).ilen else (Slice0.stwOf s w).pc)
      kind code detail := by
  obtain ⟨hx, hpc, hret, hstep, hcause, hlevel, hends⟩ := hsame
  simp only [Prod.mk.injEq] at hcause hlevel hends
  obtain ⟨htake, -, -, -, htvec⟩ := hcause
  obtain ⟨hprv, -, hintrap, -, hserr⟩ := hlevel
  obtain ⟨hdly, hhepc, hscr, -⟩ := hends
  rw [stwTrap_of_outside (hintrap.trans hin)]
  have hu := stwOf_setStw (stwWake t w.c.ch w.c.cl w.w) w (trappedStw kind code detail)
  rw [stwOf_stwWake] at hu
  simp only [Slice0.Trapped, Slice0.xreg, hu, ← hpc, ← hprv, ← htvec, ← hstep, ← htake, ← hserr, ← hdly, ← hhepc, ← hscr,
    ← stw_get_congr hx]
  exact ⟨rfl, rfl, rfl, rfl, rfl, rfl, rfl, rfl, fun _ => rfl, rfl,
    regsOnly_trans honly (regsOnly_trans (regsOnly_of_wakes w (wakes_stwWake ..)) (regsOnly_setStw ..))⟩

end Frame

/-! ### An instruction comes to act -/

section Issue

variable {s : State} {w : StwId} {i : SIns}

theorem wakes_running (s : State) (w : StwId) :
    Wakes s (if (Slice0.stwOf s w).st = wRun then wakeDistrict s w.c.ch (clDistrict w.c.cl) else s) :=
  .ite (wakes_wakeDistrict ..) (.refl s)

theorem regsOnly_issued (s : State) (w : StwId) (i : SIns) : Slice0.RegsOnly s (Slice0.issued s w i) w :=
  regsOnly_trans (regsOnly_of_wakes w (wakes_running s w)) (regsOnly_setStw ..)

@[simp] theorem stwOf_issued (s : State) (w : StwId) (i : SIns) :
    Slice0.stwOf (Slice0.issued s w i) w = { Slice0.stwOf s w with ilen := i.len } := by
  rw [Slice0.issued, stwOf_setStw, stwOf_of_wakes w (wakes_running s w)]

theorem same_issued (s : State) (w : StwId) (i : SIns) :
    SameStw (Slice0.stwOf s w) (Slice0.stwOf (Slice0.issued s w i) w) := by
  rw [stwOf_issued]
  exact ⟨rfl, rfl, rfl, rfl, rfl, rfl, rfl⟩

theorem ilen_issued (s : State) (w : StwId) (i : SIns) : (Slice0.stwOf (Slice0.issued s w i) w).ilen = i.len := by
  rw [stwOf_issued]

/-- Issue, and a change of what an instruction in progress does not leave for its end. -/
theorem same_setStw_issued (s : State) (w : StwId) (i : SIns) {f : Stw → Stw} (h : ∀ x, SameStw x (f x)) :
    SameStw (Slice0.stwOf s w) (Slice0.stwOf (setStw (Slice0.issued s w i) w.c.ch w.c.cl w.w f) w) := by
  rw [stwOf_setStw]
  exact (same_issued s w i).trans (h _)

theorem ilen_setStw_issued (s : State) (w : StwId) (i : SIns) {f : Stw → Stw} (h : ∀ x, (f x).ilen = x.ilen) :
    (Slice0.stwOf (setStw (Slice0.issued s w i) w.c.ch w.c.cl w.w f) w).ilen = i.len := by
  rw [stwOf_setStw, h, ilen_issued]

theorem stwRow_of_issues (h : Slice0.Issues s w i) {m : SMn} (hm : i.mn = m) (f : Iss → State → State) :
    stwRow w s m f = f (Slice0.iss s w i) (Slice0.issued s w i) := by
  obtain ⟨hmay, hfetch⟩ := h
  simp only [Slice0.stwOf] at hfetch
  simp only [stwRow, hmay, hfetch, hm, Bool.not_true, Bool.false_eq_true, if_false, if_true]
  rfl

/-- The command of an instruction that issues performs it. -/
theorem exec_of_issues (h : Slice0.Issues s w i) {m : SMn} (hm : i.mn = m) {c : Instr} {f : Iss → State → State}
    (hc : exec c s = .next (stwRow w s m f)) : exec c s = .next (f (Slice0.iss s w i) (Slice0.issued s w i)) := by
  rw [hc, stwRow_of_issues h hm]

/-- The same for a command that the mnemonic names. -/
theorem exec_command_of_issues (h : Slice0.Issues s w i) {m : SMn} (hm : i.mn = m) {f : Iss → State → State}
    (hc : exec (Slice0.stwCommand m w) s = .next (stwRow w s m f)) :
    exec (Slice0.stwCommand i.mn w) s = .next (f (Slice0.iss s w i) (Slice0.issued s w i)) := by
  rw [hm, exec_of_issues h hm hc]

/-- Completion of an instruction that issued, and its frame. -/
theorem retired_done (s : State) (w : StwId) (i : SIns) (rd v : Nat) :
    Slice0.Retired s (stwFinish (Slice0.issued s w i) w.c.ch w.c.cl w.w rd v) w rd (BitVec.ofNat 64 v) (Slice0.after s w i) :=
  retired_stwFinish (same_issued s w i) (ilen_issued s w i) rd v

theorem retired_set_done (s : State) (w : StwId) (i : SIns) {f : Stw → Stw} (h : ∀ x, SameStw x (f x))
    (hlen : ∀ x, (f x).ilen = x.ilen) (rd v : Nat) :
    Slice0.Retired s (stwFinish (setStw (Slice0.issued s w i) w.c.ch w.c.cl w.w f) w.c.ch w.c.cl w.w rd v) w rd
      (BitVec.ofNat 64 v) (Slice0.after s w i) :=
  retired_stwFinish (same_setStw_issued s w i h) (ilen_setStw_issued s w i hlen) rd v

theorem regsOnly_done (s : State) (w : StwId) (i : SIns) (rd v : Nat) :
    Slice0.RegsOnly s (stwFinish (Slice0.issued s w i) w.c.ch w.c.cl w.w rd v) w :=
  regsOnly_trans (regsOnly_issued s w i) (regsOnly_stwFinish ..)

end Issue

end Sys2Proof.Machine


/-! The steward's integer instructions, branches and jumps (R122, R123; Tables 6-2 to 6-4): the model's numbers against values of 64
bits, then their obligations. -/

namespace Sys2Proof.Machine

/-! ### Numbers and 64-bit values -/

theorem toNat_xreg (s : State) (w : StwId) (r : Nat) : (Slice0.xreg s w r).toNat = (Slice0.stwOf s w).get r := by
  rw [Slice0.xreg, BitVec.toNat_ofNat, Nat.mod_eq_of_lt (stw_get_lt _ _)]

theorem uint_eq_toNat_ofInt (n : Nat) (x : Int) : uint n x = (BitVec.ofInt n x).toNat := by
  rw [uint, BitVec.toNat_ofInt]

theorem ofNat_uint (n : Nat) (x : Int) : BitVec.ofNat n (uint n x) = BitVec.ofInt n x := by
  rw [uint_eq_toNat_ofInt, BitVec.ofNat_toNat, BitVec.setWidth_eq]

theorem sint_toNat {n : Nat} (a : BitVec n) : sint n a.toNat = a.toInt := by
  rw [sint, Nat.mod_eq_of_lt a.isLt, BitVec.toInt_eq_toNat_cond]

theorem ofBit_eq (b : Bool) : BitVec.ofNat 64 (ofBit b) = if b then 1 else 0 := by cases b <;> rfl

theorem ofNat_sra64 (a : Word) (n : Nat) : BitVec.ofNat 64 (sra64 a.toNat n) = a.sshiftRight n := by
  rw [sra64, ofNat_uint, sint_toNat, BitVec.sshiftRight, Int.shiftRight_eq_div_pow]

theorem lt64_eq (a b : Word) : lt64 a.toNat b.toNat = a.slt b := by
  rw [lt64, sint_toNat, sint_toNat, BitVec.slt]

theorem ofNat_toNat_word (a : Word) : BitVec.ofNat 64 a.toNat = a := by rw [BitVec.ofNat_toNat, BitVec.setWidth_eq]

theorem ofNat_shiftRight (a : Word) (n : Nat) : BitVec.ofNat 64 (a.toNat >>> n) = a >>> n := by
  rw [← BitVec.toNat_ushiftRight, ofNat_toNat_word]

theorem ofNat_min (a b : Word) : BitVec.ofNat 64 (min a.toNat b.toNat) = if a.ult b then a else b := by
  rcases Nat.lt_or_ge a.toNat b.toNat with h | h
  · rw [Nat.min_eq_left (Nat.le_of_lt h), if_pos (by simpa [BitVec.ult] using h), ofNat_toNat_word]
  · rw [Nat.min_eq_right h, if_neg (by simpa [BitVec.ult] using h), ofNat_toNat_word]

theorem ofNat_max (a b : Word) : BitVec.ofNat 64 (max a.toNat b.toNat) = if a.ult b then b else a := by
  rcases Nat.lt_or_ge a.toNat b.toNat with h | h
  · rw [Nat.max_eq_right (Nat.le_of_lt h), if_pos (by simpa [BitVec.ult] using h), ofNat_toNat_word]
  · rw [Nat.max_eq_left h, if_neg (by simpa [BitVec.ult] using h), ofNat_toNat_word]

/-- `ALU` on 64 bits, by the function that the instruction names. -/
theorem ofNat_aluOp (i : SIns) (hm : i.mn = .alu) (a b d : Word) :
    BitVec.ofNat 64 (aluOp i.fn a.toNat b.toNat) = Slice0.intValue i a b d := by
  simp only [Slice0.intValue, hm]
  generalize i.fn = n
  match n with
  | 0 =>
    show BitVec.ofNat 64 (a.toNat + b.toNat) = a + b
    rw [BitVec.ofNat_add, ofNat_toNat_word, ofNat_toNat_word]
  | 1 =>
    show BitVec.ofNat 64 (a.toNat + 2 ^ 64 - b.toNat) = a - b
    refine BitVec.eq_of_toNat_eq ?_
    rw [BitVec.toNat_ofNat, BitVec.toNat_sub]
    omega
  | 2 =>
    show BitVec.ofNat 64 (a.toNat &&& b.toNat) = a &&& b
    rw [BitVec.ofNat_and, ofNat_toNat_word, ofNat_toNat_word]
  | 3 =>
    show BitVec.ofNat 64 (a.toNat ||| b.toNat) = a ||| b
    rw [BitVec.ofNat_or, ofNat_toNat_word, ofNat_toNat_word]
  | 4 =>
    show BitVec.ofNat 64 (a.toNat ^^^ b.toNat) = a ^^^ b
    rw [BitVec.ofNat_xor, ofNat_toNat_word, ofNat_toNat_word]
  | 5 =>
    show BitVec.ofNat 64 (a.toNat <<< (b.toNat % 64)) = a <<< (b.toNat % 64)
    exact BitVec.eq_of_toNat_eq (by rw [BitVec.toNat_ofNat, BitVec.toNat_shiftLeft])
  | 6 => exact ofNat_shiftRight ..
  | 7 => exact ofNat_sra64 ..
  | 8 =>
    show BitVec.ofNat 64 (ofBit (lt64 a.toNat b.toNat)) = if a.slt b then 1#64 else 0#64
    rw [ofBit_eq, lt64_eq]
    rfl
  | 9 => exact ofBit_eq (a.ult b)
  | 10 =>
    show BitVec.ofNat 64 (a.toNat * b.toNat) = a * b
    rw [BitVec.ofNat_mul, ofNat_toNat_word, ofNat_toNat_word]
  | 11 => rfl
  | 12 =>
    show BitVec.ofNat 64 (if lt64 a.toNat b.toNat then a.toNat else b.toNat) = if a.slt b then a else b
    rw [lt64_eq, apply_ite (BitVec.ofNat 64), ofNat_toNat_word, ofNat_toNat_word]
  | 13 =>
    show BitVec.ofNat 64 (if lt64 a.toNat b.toNat then b.toNat else a.toNat) = if a.slt b then b else a
    rw [lt64_eq, apply_ite (BitVec.ofNat 64), ofNat_toNat_word, ofNat_toNat_word]
  | 14 => exact ofNat_min a b
  | _ + 15 => exact ofNat_max a b

/-- `SHI` on 64 bits. -/
theorem ofNat_shiOp (raw : Nat) (a : Word) : BitVec.ofNat 64 (shiOp raw a.toNat) =
    if bits raw 23 2 = 0 then a <<< bits raw 17 6
    else if bits raw 23 2 = 1 then a >>> bits raw 17 6
    else a.sshiftRight (bits raw 17 6) := by
  unfold shiOp
  dsimp only
  split
  · next hk => rw [if_pos hk]; exact BitVec.eq_of_toNat_eq (by simp)
  · next hk => rw [if_neg (by omega), if_pos hk]; exact ofNat_shiftRight ..
  · next h0 h1 => rw [if_neg h0, if_neg h1]; exact ofNat_sra64 ..

/-- `LIH`: the low half stays, the high half is the immediate. -/
theorem ofNat_lih (d : Word) (m : Int) : BitVec.ofNat 64 (d.toNat % 2 ^ 32 + uint 32 m * 2 ^ 32) =
    (d &&& 0xFFFFFFFF#64) ||| (BitVec.ofInt 64 m <<< 32) := by
  have hm : uint 32 m < 2 ^ 32 := by rw [uint_eq_toNat_ofInt]; exact BitVec.isLt _
  have hmod : (BitVec.ofInt 64 m).toNat % 2 ^ 32 = uint 32 m := by
    rw [BitVec.toNat_ofInt, uint]; omega
  refine BitVec.eq_of_toNat_eq ?_
  have hlow : d.toNat &&& 0xFFFFFFFF = d.toNat % 2 ^ 32 := Nat.and_two_pow_sub_one_eq_mod d.toNat 32
  have hhigh : (BitVec.ofInt 64 m).toNat <<< 32 % 2 ^ 64 = uint 32 m * 2 ^ 32 := by
    rw [← hmod, Nat.shiftLeft_eq]; omega
  rw [BitVec.toNat_or, BitVec.toNat_and, BitVec.toNat_shiftLeft, BitVec.toNat_ofNat, BitVec.toNat_ofNat, hhigh]
  rw [show 0xFFFFFFFF % 2 ^ 64 = 0xFFFFFFFF from rfl, hlow, Nat.mod_eq_of_lt (by omega), Nat.or_comm, ← Nat.shiftLeft_eq,
    ← Nat.shiftLeft_add_eq_or_of_lt (Nat.mod_lt _ (by decide)), Nat.add_comm]

/-! ### The integer instructions -/

/-- What an integer instruction gives, as the model computes it: `a` and `b` from `RA` and `RB`, `d` the old `RD`. -/
def intNumber (i : SIns) (a b d : Nat) : Nat :=
  match i.mn with
  | .addi => a + uint 64 i.imm
  | .andi => a &&& uint 64 i.imm
  | .ori => a ||| uint 64 i.imm
  | .xori => a ^^^ uint 64 i.imm
  | .shi => shiOp i.raw a
  | .slti => ofBit (decide (sint 64 a < i.imm))
  | .li => uint 64 i.imm
  | .lih => d % 2 ^ 32 + uint 32 i.imm * 2 ^ 32
  | _ => aluOp i.fn a b

section Integer

variable {s : State} {w : StwId} {i : SIns}

theorem ofNat_intNumber (hm : i.mn ∈ [SMn.alu, .addi, .andi, .ori, .xori, .shi, .slti, .li, .lih]) (a b d : Word) :
    BitVec.ofNat 64 (intNumber i a.toNat b.toNat d.toNat) = Slice0.intValue i a b d := by
  simp only [List.mem_cons, List.not_mem_nil, or_false] at hm
  have himm : BitVec.ofInt 64 i.imm = BitVec.ofNat 64 (uint 64 i.imm) := (ofNat_uint ..).symm
  rcases hm with hm | hm | hm | hm | hm | hm | hm | hm | hm <;> simp only [intNumber, hm]
  case inl => exact ofNat_aluOp i hm a b d
  all_goals simp only [Slice0.intValue, hm]
  · rw [himm, BitVec.ofNat_add, ofNat_toNat_word]
  · rw [himm, BitVec.ofNat_and, ofNat_toNat_word]
  · rw [himm, BitVec.ofNat_or, ofNat_toNat_word]
  · rw [himm, BitVec.ofNat_xor, ofNat_toNat_word]
  · exact ofNat_shiOp ..
  · rw [ofBit_eq, sint_toNat]
  · exact ofNat_uint ..
  · exact ofNat_lih ..

theorem exec_integer (h : Slice0.Issues s w i) (hm : i.mn ∈ [SMn.alu, .addi, .andi, .ori, .xori, .shi, .slti, .li, .lih]) :
    exec (Slice0.stwCommand i.mn w) s = .next (stwFinish (Slice0.issued s w i) w.c.ch w.c.cl w.w i.rd
      (intNumber i ((Slice0.stwOf s w).get i.ra) ((Slice0.stwOf s w).get i.rb) ((Slice0.stwOf s w).get i.rd))) := by
  simp only [List.mem_cons, List.not_mem_nil, or_false] at hm
  rcases hm with hm | hm | hm | hm | hm | hm | hm | hm | hm <;>
    rw [exec_command_of_issues h hm rfl] <;> simp only [intNumber, hm] <;> rfl

end Integer

/-- Settles O37: the instruction completes with its number in `RD`, and a completion changes its steward alone. -/
theorem stewardIntegerResults : Obligations.StewardIntegerResults := by
  intro s w i h hm
  refine ⟨_, exec_integer h hm, ?_, regsOnly_done s w i ..⟩
  rw [← ofNat_intNumber hm, toNat_xreg, toNat_xreg, toNat_xreg]
  exact retired_done ..

/-! ### Branches and jumps -/

section Branches

variable {s : State} {w : StwId} {i : SIns}

/-- Whether a branch is taken, as the model compares. -/
def branchNumbers (m : SMn) (a b : Nat) : Bool :=
  match m with
  | .beq => decide (a = b)
  | .bne => decide (a ≠ b)
  | .blt => lt64 a b
  | .bge => !lt64 a b
  | .bltu => decide (a < b)
  | _ => decide (b ≤ a)

theorem branchNumbers_toNat {m : SMn} (hm : m ∈ [SMn.beq, .bne, .blt, .bge, .bltu, .bgeu]) (a b : Word) :
    branchNumbers m a.toNat b.toNat = Slice0.branches m a b := by
  simp only [List.mem_cons, List.not_mem_nil, or_false] at hm
  rcases hm with rfl | rfl | rfl | rfl | rfl | rfl <;> simp only [branchNumbers, Slice0.branches]
  · simp only [BitVec.toNat_inj]
  · simp only [ne_eq, BitVec.toNat_inj]
  · exact lt64_eq a b
  · rw [lt64_eq]
  · rfl
  · simp only [BitVec.ult, ← Nat.not_lt, decide_not]

theorem exec_branch (h : Slice0.Issues s w i) (hm : i.mn ∈ [SMn.beq, .bne, .blt, .bge, .bltu, .bgeu]) :
    exec (Slice0.stwCommand i.mn w) s = .next (branchOn (Slice0.iss s w i) (Slice0.issued s w i)
      (branchNumbers i.mn ((Slice0.stwOf s w).get i.ra) ((Slice0.stwOf s w).get i.rb))) := by
  simp only [List.mem_cons, List.not_mem_nil, or_false] at hm
  rcases hm with hm | hm | hm | hm | hm | hm <;>
    rw [exec_command_of_issues h hm rfl] <;> simp only [branchNumbers, hm] <;> rfl

theorem target_eq (s : State) (w : StwId) (i : SIns) : (Slice0.iss s w i).target % 2 ^ 22 =
    (BitVec.ofInt 22 (((Slice0.stwOf s w).pc : Int) + 2 * i.imm)).toNat := by
  rw [Iss.target, uint_eq_toNat_ofInt, Nat.mod_eq_of_lt (BitVec.isLt _)]
  rfl

/-- Clearing bit 0 of a sum, in the bits of an address. -/
theorem jalr_target (a : Word) (m : Int) : (a.toNat + uint 64 m) / 2 * 2 % 2 ^ 22 =
    ((a + BitVec.ofInt 64 m) &&& ~~~(1#64)).toNat % 2 ^ 22 := by
  have hclear : ∀ x : Word, (x &&& ~~~(1#64)).toNat = x.toNat / 2 * 2 := by
    intro x
    have hx : x &&& ~~~(1#64) = (x >>> 1) <<< 1 := by
      ext j hj
      rcases j with _ | j
      · simp
      · simp [-BitVec.reduceNot, BitVec.getElem_one, Nat.add_comm 1, BitVec.getLsbD_eq_getElem hj]
    rw [hx, BitVec.toNat_shiftLeft, BitVec.toNat_ushiftRight, Nat.shiftLeft_eq, Nat.shiftRight_eq_div_pow]
    have := x.isLt
    omega
  rw [hclear, BitVec.toNat_add, ← uint_eq_toNat_ofInt]
  omega

end Branches

/-- Settles O38: a branch that is not taken completes, one that is and a jump go to their target. -/
theorem stewardBranches : Obligations.StewardBranches := by
  intro s w i h
  refine ⟨fun hm => ⟨_, exec_branch h hm, ?_⟩, fun hm => ⟨_, exec_of_issues h hm rfl, ?_, ?_⟩,
    fun hm => ⟨_, exec_of_issues h hm rfl, ?_, ?_⟩⟩
  · rw [← branchNumbers_toNat hm, toNat_xreg, toNat_xreg, branchOn]
    split
    · rw [← target_eq]
      exact ⟨retired_stwJump (same_issued s w i) 0 0 _, regsOnly_trans (regsOnly_issued s w i) (regsOnly_stwJump ..)⟩
    · exact ⟨retired_done s w i 0 0, regsOnly_done s w i 0 0⟩
  · rw [← target_eq]
    exact retired_stwJump (same_issued s w i) ..
  · exact regsOnly_trans (regsOnly_issued s w i) (regsOnly_stwJump ..)
  · rw [← jalr_target, toNat_xreg]
    exact retired_stwJump (same_issued s w i) ..
  · exact regsOnly_trans (regsOnly_issued s w i) (regsOnly_stwJump ..)

end Sys2Proof.Machine


/-! Traps and special registers of a steward (R121, R124, R127, R128, R140; Tables 6-5 and 6-12). -/

namespace Sys2Proof.Machine

/-! ### Exceptions of an instruction that issues -/

section Exceptions

variable {s t : State} {w : StwId} {i : SIns}

theorem stwExc_of_none {ch c n : Nat} (h : (t.stw ch c n).take = none) (rd kind code detail : Nat) :
    stwExc t ch c n rd kind code detail = stwTrap t ch c n kind code detail := by
  simp only [stwExc, h]

theorem take_issued (s : State) (w : StwId) (i : SIns) :
    ((Slice0.issued s w i).stw w.c.ch w.c.cl w.w).take = (Slice0.stwOf s w).take := by
  have h := congrArg Stw.take (stwOf_issued s w i)
  exact h

/-- An exception under no take and in no trap, of a kind that saves the pc of its own instruction. -/
theorem trapped_exc_here (htake : (Slice0.stwOf s w).take = none) (hin : (Slice0.stwOf s w).intrap = false) (rd : Nat) {kind : Nat}
    (code detail : Nat) (hsys : kind ≠ kSyscall) (hdef : kind ≠ kDeferred) :
    Slice0.Trapped s (stwExc (Slice0.issued s w i) w.c.ch w.c.cl w.w rd kind code detail) w (Slice0.stwOf s w).pc kind code detail := by
  rw [stwExc_of_none ((take_issued ..).trans htake)]
  have h := trapped_stwTrap (same_issued s w i) (regsOnly_issued s w i) hin kind code detail
  rwa [if_neg (not_or.2 ⟨hsys, hdef⟩)] at h

/-- A system call saves the pc of the instruction after it. -/
theorem trapped_exc_syscall (htake : (Slice0.stwOf s w).take = none) (hin : (Slice0.stwOf s w).intrap = false) (rd code detail : Nat) :
    Slice0.Trapped s (stwExc (Slice0.issued s w i) w.c.ch w.c.cl w.w rd kSyscall code detail) w (Slice0.after s w i)
      kSyscall code detail := by
  rw [stwExc_of_none ((take_issued ..).trans htake)]
  have h := trapped_stwTrap (same_issued s w i) (regsOnly_issued s w i) hin kSyscall code detail
  rwa [if_pos (.inl rfl), ilen_issued] at h

/-- A trap inside a trap of a steward that does not stall (R128). -/
theorem stwTrap_of_inside {ch c n : Nat} (hin : (t.stw ch c n).intrap = true) (hst : (t.stw ch c n).st ≠ wStalled)
    (kind code detail : Nat) : stwTrap t ch c n kind code detail =
      abortCluster (setStw t ch c n fun x => { x.go with st := wFaulted }) ch c code := by
  have hwake : stwWake t ch c n = t := if_neg hst
  simp only [stwTrap, hwake, hin, if_true]

theorem stwTrap_issued_inside (hin : (Slice0.stwOf s w).intrap = true) (hst : (Slice0.stwOf s w).st = wRun)
    (kind code detail : Nat) : stwTrap (Slice0.issued s w i) w.c.ch w.c.cl w.w kind code detail =
      abortCluster (setStw (Slice0.issued s w i) w.c.ch w.c.cl w.w fun x => { x.go with st := wFaulted }) w.c.ch w.c.cl code := by
  have hstw : (Slice0.issued s w i).stw w.c.ch w.c.cl w.w = { Slice0.stwOf s w with ilen := i.len } := stwOf_issued s w i
  refine stwTrap_of_inside ?_ ?_ _ _ _
  · rw [hstw]; exact hin
  · rw [hstw]
    show (Slice0.stwOf s w).st ≠ wStalled
    rw [hst]
    decide

/-- A steward whose fetch traps: the trap is taken for an instruction of 4 bytes. -/
theorem stwRow_of_fetch_fault {kind code detail : Nat} (hmay : stwMay s w.c.ch w.c.cl w.w = true)
    (hfetch : stwFetch s w.c.ch w.c.cl (Slice0.stwOf s w) = .inl (kind, code, detail)) (m : SMn) (f : Iss → State → State) :
    stwRow w s m f = stwExc (Slice0.issued s w (sDecode 0)) w.c.ch w.c.cl w.w 0 kind code detail := by
  simp only [Slice0.stwOf] at hfetch
  simp only [stwRow, hmay, hfetch, Bool.not_true, Bool.false_eq_true, if_false]
  rfl

/-- Every command of a steward is a row of its instructions. -/
theorem exec_stwCommand (m : SMn) (w : StwId) (s : State) : ∃ f, exec (Slice0.stwCommand m w) s = .next (stwRow w s m f) := by
  cases m <;> exact ⟨_, rfl⟩

end Exceptions

/-! ### The address of a local access (R124) -/

section Local

variable {s : State} {w : StwId} {i : SIns}

/-- Sum of a register and the immediate, on 22 bits. -/
def localAddr (s : State) (w : StwId) (i : SIns) : Nat := ((Slice0.xreg s w i.ra).setWidth 22 + BitVec.ofInt 22 i.imm).toNat

theorem local_eq (s : State) (w : StwId) (i : SIns) : (Slice0.iss s w i).local_ (Slice0.iss s w i).a = localAddr s w i := by
  have hra : (Slice0.iss s w i).a = (Slice0.xreg s w i.ra).toNat := (toNat_xreg ..).symm
  rw [Iss.local_, uint_eq_toNat_ofInt, localAddr, hra, BitVec.ofInt_add, ← BitVec.ofNat_toNat]
  rfl

variable {u : Iss} {rd a n align : Nat} (f : State → State)

theorem localCheck_of_misaligned (h : a % align ≠ 0) : localCheck u s rd a n align f = u.exc s rd kMisaligned cNone a := if_pos h

theorem localCheck_of_outside (h : a % align = 0) (hend : 3670016 < a + n) :
    localCheck u s rd a n align f = u.exc s rd kRange cNone a :=
  (if_neg (not_not_intro h)).trans (if_pos hend)

theorem localCheck_of_inside (h : a % align = 0) (hend : a + n ≤ 3670016) : localCheck u s rd a n align f = f s :=
  (if_neg (not_not_intro h)).trans (if_neg (Nat.not_lt.2 hend))

/-- LDL and STL check their address first. -/
theorem exec_local_checked (h : Slice0.Issues s w i) (hm : i.mn = .ldl ∨ i.mn = .stl) : ∃ rd f,
    exec (Slice0.stwCommand i.mn w) s =
      .next (localCheck (Slice0.iss s w i) (Slice0.issued s w i) rd (localAddr s w i) i.width i.width f) := by
  rw [← local_eq]
  rcases hm with hm | hm
  · exact ⟨i.rd, _, exec_command_of_issues h hm rfl⟩
  · exact ⟨0, _, exec_command_of_issues h hm rfl⟩

theorem exec_local_misaligned (h : Slice0.Issues s w i) (hm : i.mn = .ldl ∨ i.mn = .stl) (hal : localAddr s w i % i.width ≠ 0) :
    ∃ rd, exec (Slice0.stwCommand i.mn w) s = .next (stwExc (Slice0.issued s w i) w.c.ch w.c.cl w.w rd kMisaligned cNone
      (localAddr s w i)) := by
  obtain ⟨rd, f, hexec⟩ := exec_local_checked h hm
  exact ⟨rd, hexec.trans (congrArg Host.Outcome.next (localCheck_of_misaligned f hal))⟩

theorem exec_local_outside (h : Slice0.Issues s w i) (hm : i.mn = .ldl ∨ i.mn = .stl) (hal : localAddr s w i % i.width = 0)
    (hend : 3670016 < localAddr s w i + i.width) :
    ∃ rd, exec (Slice0.stwCommand i.mn w) s = .next (stwExc (Slice0.issued s w i) w.c.ch w.c.cl w.w rd kRange cNone
      (localAddr s w i)) := by
  obtain ⟨rd, f, hexec⟩ := exec_local_checked h hm
  exact ⟨rd, hexec.trans (congrArg Host.Outcome.next (localCheck_of_outside f hal hend))⟩

end Local

/-! ### The obligation on traps -/

section Traps

variable {s : State} {w : StwId} {i : SIns}

theorem exec_sRett_of_user (h : Slice0.Issues s w i) (hm : i.mn = .rett) (hprv : (Slice0.stwOf s w).prv = false) :
    exec (.sRett w) s =
      .next (stwExc (Slice0.issued s w i) w.c.ch w.c.cl w.w 0 kPrivilege cNone i.raw) :=
  (exec_of_issues (c := .sRett w) h hm rfl).trans (congrArg Host.Outcome.next (if_neg (ne_true_of_eq_false hprv)))

/-- A pc outside the depot traps whatever the command (R123). -/
theorem exec_fetch_outside (hmay : stwMay s w.c.ch w.c.cl w.w = true) (hpc : 3670016 ≤ (Slice0.stwOf s w).pc) (m : SMn) :
    exec (Slice0.stwCommand m w) s =
      .next (stwExc (Slice0.issued s w (sDecode 0)) w.c.ch w.c.cl w.w 0 kRange cNone (Slice0.stwOf s w).pc) := by
  obtain ⟨f, hexec⟩ := exec_stwCommand m w s
  rw [hexec, stwRow_of_fetch_fault hmay (if_pos hpc)]

end Traps

/-- Settles O39: a trap outside a trap saves and goes where R128 says; inside one it faults the steward and ends its section. -/
theorem stewardTraps : Obligations.StewardTraps := by
  refine ⟨fun s w hin htake => ?outside, fun s w i h hin hst => ?inside⟩
  case outside =>
    refine ⟨fun i h hm => ?sysc, fun i h hm => ?illegal, fun i h hm => ⟨fun hal => ?misaligned, fun hal hend => ?range⟩,
      fun i h hm hprv => ?rett, fun hmay hpc m => ?fetch⟩
    case sysc => exact ⟨_, exec_of_issues h hm rfl, trapped_exc_syscall htake hin 0 _ _⟩
    case illegal =>
      refine ⟨_, exec_of_issues h hm rfl, ?_⟩
      have htrap := trapped_exc_here (i := i) htake hin 0 cUnitAbsent i.raw (kind := kIllegal) (by decide) (by decide)
      rwa [stwExc_of_none ((take_issued ..).trans htake)] at htrap
    case misaligned =>
      obtain ⟨rd, hexec⟩ := exec_local_misaligned h hm hal
      exact ⟨_, hexec, trapped_exc_here htake hin rd _ _ (by decide) (by decide)⟩
    case range =>
      obtain ⟨rd, hexec⟩ := exec_local_outside h hm hal hend
      exact ⟨_, hexec, trapped_exc_here htake hin rd _ _ (by decide) (by decide)⟩
    case rett => exact ⟨_, exec_sRett_of_user h hm hprv, trapped_exc_here htake hin 0 _ _ (by decide) (by decide)⟩
    case fetch => exact ⟨_, exec_fetch_outside hmay hpc m, trapped_exc_here htake hin 0 _ _ (by decide) (by decide)⟩
  case inside =>
    refine ⟨fun hm htake => ?_, fun hm => ?_, ?_, fun a => (regsOnly_issued s w i).1 a⟩
    · have hexec := exec_of_issues (c := .sSysc w) h hm rfl
      rw [hexec]
      exact congrArg Host.Outcome.next
        ((stwExc_of_none ((take_issued ..).trans htake) _ _ _ _).trans (stwTrap_issued_inside hin hst _ _ _))
    · have hexec := exec_of_issues (c := .illegalInstruction w) h hm rfl
      rw [hexec]
      exact congrArg Host.Outcome.next (stwTrap_issued_inside hin hst _ _ _)
    · rw [stwOf_setStw]

/-! ### Special registers (R127, R140) -/

/-- A steward `y` after special register `n` of `x` took `v`: the register has the value in its width (Table 6-12), the others
stay. -/
def CsrWritten (x : Stw) (n : Nat) (v : Word) (y : Stw) : Prop :=
  y.take = x.take ∧
  y.fcause = (if n = 0x02 then v.toNat % 2 ^ 16 else x.fcause) ∧
  y.fdetail = (if n = 0x03 then v.toNat else x.fdetail) ∧
  y.epc = (if n = 0x04 then v.toNat % 2 ^ 22 else x.epc) ∧
  y.tvec = (if n = 0x05 then v.toNat % 2 ^ 22 / 2 * 2 else x.tvec) ∧
  (y.prv, y.pprv, y.intrap, y.arvDone) =
    (if n = 0x06 then (v.getLsbD 0, v.getLsbD 1, v.getLsbD 2, v.getLsbD 3) else (x.prv, x.pprv, x.intrap, x.arvDone)) ∧
  y.serr = (if n = 0x07 then (0, 0) else x.serr) ∧
  y.hepc = (if n = 0x0A then v.toNat % 2 ^ 22 else x.hepc) ∧
  y.dlyerr = (if n = 0x0C then (0, 0) else x.dlyerr) ∧
  y.sscratch = (if n = 0x0D then v else x.sscratch)

/-- A number in a width of at most 64 bits keeps what its 64-bit value has there. -/
theorem toNat_ofNat_mod (v : Nat) {k : Nat} (hk : k ≤ 64) : (BitVec.ofNat 64 v).toNat % 2 ^ k = v % 2 ^ k := by
  rw [BitVec.toNat_ofNat, Nat.mod_mod_of_dvd _ (Nat.pow_dvd_pow 2 hk)]

theorem csrWritten_csrPut (x : Stw) (n v : Nat) : CsrWritten x n (BitVec.ofNat 64 v) (csrPut x n v) := by
  have hbit (j : Nat) (hj : j < 64) : (BitVec.ofNat 64 v).getLsbD j = bit v j := by
    rw [BitVec.getLsbD_ofNat, decide_eq_true hj, Bool.true_and, bit]
  rw [CsrWritten, toNat_ofNat_mod v (k := 16) (by decide), toNat_ofNat_mod v (k := 22) (by decide), BitVec.toNat_ofNat,
    hbit 0 (by decide), hbit 1 (by decide), hbit 2 (by decide), hbit 3 (by decide)]
  by_cases hn : n ∈ [0x02, 0x03, 0x04, 0x05, 0x06, 0x07, 0x0A, 0x0C, 0x0D]
  · simp only [List.mem_cons, List.not_mem_nil, or_false] at hn
    rcases hn with rfl | rfl | rfl | rfl | rfl | rfl | rfl | rfl | rfl <;>
      exact ⟨rfl, rfl, rfl, rfl, rfl, rfl, rfl, rfl, rfl, rfl⟩
  · simp only [List.mem_cons, List.not_mem_nil, or_false, not_or] at hn
    obtain ⟨h2, h3, h4, h5, h6, h7, h10, h12, h13⟩ := hn
    have hput : csrPut x n v = x := by
      simp only [csrPut, csrFcause, csrFdetail, csrEpc, csrTvec, csrPriv, csrSerr, csrHepc, csrDlyerr, csrSscratch, h2, h3, h4, h5,
        h6, h7, h10, h12, h13, if_false]
    simp only [hput, h2, h3, h4, h5, h6, h7, h10, h12, h13, if_false, and_self]

/-- Scalar registers, pc and the length of the instruction are no special registers. -/
theorem csrPut_same (x : Stw) (n v : Nat) :
    (csrPut x n v).x = x.x ∧ (csrPut x n v).pc = x.pc ∧ (csrPut x n v).ilen = x.ilen := by
  unfold csrPut
  (repeat' split) <;> exact ⟨rfl, rfl, rfl⟩

/-- The completion of the instruction leaves them as written. -/
theorem csrWritten_finish {x y : Stw} {n : Nat} {v : Word} (h : CsrWritten x n v y) (rd old pc k : Nat) :
    CsrWritten x n v { (y.put rd old).go with pc := pc, instret := k } := by
  obtain ⟨m, hm⟩ := stw_put_scalars y rd old
  rw [hm]
  exact h

/-- The value written, on 64 bits. -/
theorem ofNat_csrNew {op : Nat} (old : Nat) (a : Word) :
    BitVec.ofNat 64 (csrNew op old a.toNat) = Slice0.csrValue op (BitVec.ofNat 64 old) a := by
  simp only [csrNew, Slice0.csrValue]
  split
  · exact ofNat_toNat_word a
  · split
    · rw [BitVec.ofNat_or, ofNat_toNat_word]
    · rw [BitVec.ofNat_and, ← BitVec.toNat_not, ofNat_toNat_word]

section Special

variable {s : State} {w : StwId} {i : SIns}

/-- The state in which a `CSR` reads: `cycle` takes a free value (log entry 11). -/
def csrSeen (s : State) (n : Nat) : State := if n = csrCycle then s.took else s

theorem regsOnly_csrSeen (s : State) (w : StwId) (n : Nat) : Slice0.RegsOnly s (csrSeen s n) w := by
  unfold csrSeen
  split
  · exact regsOnly_refl s w
  · exact regsOnly_refl s w

theorem stwOf_csrSeen (s : State) (w : StwId) (n : Nat) : Slice0.stwOf (csrSeen s n) w = Slice0.stwOf s w := by
  unfold csrSeen
  split <;> rfl

/-- A `CSR` that reads only. -/
theorem exec_sCsr_read (h : Slice0.Issues s w i) (hm : i.mn = .csr) (hn : i.fn / 4 ≤ 0x0D) (hop : i.fn % 4 = 0)
    (hmay : (Slice0.stwOf s w).prv = true ∨ csrReadS (i.fn / 4) = false) :
    exec (.sCsr w) s = .next (stwFinish (csrSeen (Slice0.issued s w i) (i.fn / 4)) w.c.ch w.c.cl w.w i.rd
      (csrGet (Slice0.iss s w i) (Slice0.issued s w i) (i.fn / 4))) := by
  rw [exec_of_issues (c := .sCsr w) h hm rfl]
  have hlisted : ¬ csrSscratch < i.fn / 4 := Nat.not_lt.2 hn
  have hread : ¬ ((!(Slice0.iss s w i).x.prv) = true ∧ csrReadS (i.fn / 4) = true) := by
    rintro ⟨hu, hr⟩
    rcases hmay with hp | hp
    · exact absurd hu (by rw [show (Slice0.iss s w i).x.prv = true from hp]; decide)
    · exact absurd hr (by rw [hp]; decide)
  have hiss : (Slice0.iss s w i).i = i := rfl
  simp only [hiss, hlisted, hop, hread, false_and, and_false, false_or, ne_eq, not_true_eq_false, if_false, if_true]
  rfl

/-- A `CSR` that writes. -/
theorem exec_sCsr_write (h : Slice0.Issues s w i) (hm : i.mn = .csr) (hn : i.fn / 4 ≤ 0x0D) (hop : i.fn % 4 ≠ 0)
    (htake : (Slice0.stwOf s w).take = none) (hfix : csrFixed (i.fn / 4) = false)
    (hmay : (Slice0.stwOf s w).prv = true ∨ csrWriteS (i.fn / 4) = false) :
    exec (.sCsr w) s = .next (stwFinish (setStw (csrSeen (Slice0.issued s w i) (i.fn / 4)) w.c.ch w.c.cl w.w fun x =>
        csrPut x (i.fn / 4) (csrNew (i.fn % 4) (csrGet (Slice0.iss s w i) (Slice0.issued s w i) (i.fn / 4))
          ((Slice0.stwOf s w).get i.ra))) w.c.ch w.c.cl w.w i.rd
      (csrGet (Slice0.iss s w i) (Slice0.issued s w i) (i.fn / 4))) := by
  rw [exec_of_issues (c := .sCsr w) h hm rfl]
  have hlisted : ¬ csrSscratch < i.fn / 4 := Nat.not_lt.2 hn
  have hwrite : ¬ ((!(Slice0.iss s w i).x.prv) = true ∧ csrWriteS (i.fn / 4) = true) := by
    rintro ⟨hu, hr⟩
    rcases hmay with hp | hp
    · exact absurd hu (by rw [show (Slice0.iss s w i).x.prv = true from hp]; decide)
    · exact absurd hr (by rw [hp]; decide)
  have hiss : (Slice0.iss s w i).i = i := rfl
  have hx : (Slice0.iss s w i).x.take = none := htake
  simp only [hiss, hlisted, hop, hwrite, hfix, hx, Iss.held, csrAct, and_false, or_false, ne_eq, not_false_eq_true,
    Bool.false_eq_true, if_false]
  rfl

/-- A `CSR` that the privilege rules refuse. -/
theorem exec_sCsr_refused (h : Slice0.Issues s w i) (hm : i.mn = .csr) (hn : i.fn / 4 ≤ 0x0D)
    (huser : (Slice0.stwOf s w).prv = false)
    (hno : i.fn % 4 = 0 ∧ csrReadS (i.fn / 4) = true ∨ i.fn % 4 ≠ 0 ∧ csrWriteS (i.fn / 4) = true) :
    exec (.sCsr w) s = .next (stwExc (Slice0.issued s w i) w.c.ch w.c.cl w.w i.rd kPrivilege cNone i.raw) := by
  rw [exec_of_issues (c := .sCsr w) h hm rfl]
  have hlisted : ¬ csrSscratch < i.fn / 4 := Nat.not_lt.2 hn
  have hu : (!(Slice0.iss s w i).x.prv) = true := by rw [show (Slice0.iss s w i).x.prv = false from huser]; rfl
  have hiss : (Slice0.iss s w i).i = i := rfl
  have hrule : csrSscratch < i.fn / 4 ∨ (i.fn % 4 = 0 ∧ (!(Slice0.iss s w i).x.prv) = true ∧ csrReadS (i.fn / 4) = true) ∨
      (i.fn % 4 ≠ 0 ∧ (csrFixed (i.fn / 4) = true ∨ ((!(Slice0.iss s w i).x.prv) = true ∧ csrWriteS (i.fn / 4) = true))) :=
    .inr (hno.imp (fun e => ⟨e.1, hu, e.2⟩) fun e => ⟨e.1, .inr ⟨hu, e.2⟩⟩)
  refine congrArg Host.Outcome.next ((if_neg fun e => hlisted e.1).trans (if_pos hrule))

end Special

/-- Settles O40: a `CSR` gives the old value to `RD` by its completion, and its write is of one special register. -/
theorem stewardSpecialRegisters : Obligations.StewardSpecialRegisters := by
  intro s w i h hm op n x t old v hn
  refine ⟨fun hop hmay => ⟨_, exec_sCsr_read h hm hn hop hmay, ?_, ?_⟩,
    fun hop htake hfix hmay => ⟨_, exec_sCsr_write h hm hn hop htake hfix hmay, ?_, ?_⟩,
    fun hin htake huser hno => ⟨_, exec_sCsr_refused h hm hn huser hno,
      trapped_exc_here htake hin _ _ _ (by decide) (by decide)⟩⟩
  · exact retired_stwFinish (by rw [stwOf_csrSeen]; exact same_issued s w i) (by rw [stwOf_csrSeen]; exact ilen_issued s w i) _ _
  · exact regsOnly_trans (regsOnly_issued s w i) (regsOnly_trans (regsOnly_csrSeen ..) (regsOnly_stwFinish ..))
  · exact regsOnly_trans (regsOnly_issued s w i) (regsOnly_trans (regsOnly_csrSeen ..)
      (regsOnly_trans (regsOnly_setStw ..) (regsOnly_stwFinish ..)))
  · have hv : BitVec.ofNat 64 (csrNew op (csrGet (Slice0.iss s w i) t n) (x.get i.ra)) = v := by
      rw [← toNat_xreg s w i.ra]
      exact ofNat_csrNew ..
    have hstw := stwOf_stwFinish (setStw (csrSeen t n) w.c.ch w.c.cl w.w fun x =>
      csrPut x n (csrNew op (csrGet (Slice0.iss s w i) t n) ((Slice0.stwOf s w).get i.ra))) w i.rd (csrGet (Slice0.iss s w i) t n)
    rw [stwOf_setStw, stwOf_csrSeen, stwOf_issued] at hstw
    obtain ⟨hx, hpc, hlen⟩ := csrPut_same { x with ilen := i.len } n (csrNew op (csrGet (Slice0.iss s w i) t n) (x.get i.ra))
    have hwritten := csrWritten_finish (csrWritten_csrPut { x with ilen := i.len } n
      (csrNew op (csrGet (Slice0.iss s w i) t n) (x.get i.ra))) i.rd (csrGet (Slice0.iss s w i) t n)
    rw [hv] at hwritten
    refine ⟨fun r => ?_, ?_, ?_⟩
    · rw [Slice0.xreg, hstw, Slice0.xreg]
      refine (ofNat_get_put _ _ _ _).trans ?_
      rw [stw_get_congr hx]
      rfl
    · rw [hstw, hpc, hlen]
      rfl
    · rw [hstw]
      exact hwritten _ _

end Sys2Proof.Machine


/-! System instructions of a steward (R123, R128, R136, R138, R234, R240) and its control by a writer of its cluster (R142). -/

namespace Sys2Proof.Machine

/-! ### Registers under a waking district -/

section Waking

variable {q : Reg} {m j ch : Nat}

/-- The place is of none of the registers that a waking district writes. -/
def AwakePlace (q : Reg) (m j ch : Nat) : Prop :=
  (∀ d < 6, q.place m j ≠ Reg.DST_VFLIVE.place (dstLoc ch d) 0) ∧ q.place m j ≠ Reg.CH_PWRSTAT.place ch 0

theorem reg_foldl_districts {f : State → Nat → State} (h : ∀ t, ∀ d < 6, (f t d).reg q m j = t.reg q m j) (s : State) :
    ((List.range 6).foldl f s).reg q m j = s.reg q m j :=
  List.foldlRecOn (motive := fun t => t.reg q m j = s.reg q m j) _ _ rfl
    fun t ht d hd => (h t d (List.mem_range.1 hd)).trans ht

theorem reg_fset_other (s : State) (f : Fld) {r : Reg} (l i v : Nat) (hf : f.reg = r) (h : q.place m j ≠ r.place l i) :
    (s.fset f l i v).reg q m j = s.reg q m j :=
  reg_setReg_other _ _ _ _ _ _ _ _ (by rwa [hf])

theorem reg_applyCaps (s : State) {d : Nat} (h : AwakePlace q m j ch) (hd : d < 6) : (applyCaps s ch d).reg q m j = s.reg q m j := by
  have hset (t : State) (f : Fld) (v : Nat) (hf : f.reg = .DST_VFLIVE) : (t.fset f (dstLoc ch d) 0 v).reg q m j = t.reg q m j :=
    reg_fset_other t f _ _ v hf (h.1 d hd)
  unfold applyCaps
  dsimp only
  split
  · rw [hset _ _ _ (by rfl), hset _ _ _ (by rfl)]
  · rw [hset _ _ _ (by rfl), hset _ _ _ (by rfl), hset _ _ _ (by rfl), hset _ _ _ (by rfl)]

/-- A district that stops lending writes its `DST_VFLIVE`, those of the districts it lent to, and `CH_PWRSTAT` (R463). -/
theorem reg_stopLending (s : State) {d : Nat} (h : AwakePlace q m j ch) (hd : d < 6) :
    (stopLending s ch d).reg q m j = s.reg q m j := by
  unfold stopLending
  split
  · rw [showLenders, reg_fset_other _ _ _ _ _ (by rfl) h.2, applyChannel, reg_foldl_districts fun t e he => reg_applyCaps t h he,
      reg_foldl_districts fun t e _ => ?back, setDist_reg_view, reg_fset_other _ _ _ _ _ (by rfl) (h.1 d hd)]
    case back => split <;> rfl
  · rfl

theorem reg_wakeDistrict (s : State) {d : Nat} (h : AwakePlace q m j ch) (hd : d < 6) :
    (wakeDistrict s ch d).reg q m j = s.reg q m j := by
  rw [wakeDistrict, reg_stopLending _ h hd]
  split <;> rfl

/-- Registers of a cluster's block are listed after those that a waking district writes. -/
theorem awakePlace_of_late (q : Reg) (m j : Nat) (ch : Ch) (h : Reg.DST_VFLIVE.ctorIdx < q.ctorIdx) : AwakePlace q m j ch := by
  have hch := ch.isLt
  have hp : Reg.CH_PWRSTAT.ctorIdx < Reg.DST_VFLIVE.ctorIdx := by decide
  refine ⟨fun d hd => ?_, ?_⟩
  · simp only [Reg.place, dstLoc]
    omega
  · simp only [Reg.place]
    omega

theorem clDistrict_lt (c : Cl) : clDistrict c.cl < 6 := by
  have := c.cl.isLt
  simp only [clDistrict]
  omega

end Waking

section System

variable {s t u : State} {w : StwId} {i : SIns}

theorem qPsn_issued (s : State) (w : StwId) (i : SIns) (q : Nat) :
    qPsn (Slice0.issued s w i) w.c.ch w.c.cl q = qPsn s w.c.ch w.c.cl q := by
  have hreg : (Slice0.issued s w i).reg .CL_QSTATn (clLoc w.c.ch w.c.cl) q = s.reg .CL_QSTATn (clLoc w.c.ch w.c.cl) q := by
    rw [Slice0.issued, setStw_reg_view]
    split
    · exact reg_wakeDistrict s (awakePlace_of_late _ _ _ _ (by decide)) (clDistrict_lt w.c)
    · rfl
  simp only [qPsn, State.fbit, State.fget, State.regN]
  exact congrArg (fun v : Word => decide (bits v.toNat 8 1 ≠ 0)) hreg

/-! ### Queues, memory and scalar registers -/

@[simp] theorem queue_setStw (s : State) (ch c n : Nat) (f : Stw → Stw) (q : Nat) :
    queue (setStw s ch c n f) ch c q = queue s ch c q := by
  rw [queue, clu_setStw_same]
  rfl

theorem queue_of_wakes (h : Wakes s t) (ch c q : Nat) : queue t ch c q = queue s ch c q := by
  obtain ⟨r, d, rfl⟩ := h
  rfl

@[simp] theorem queue_issued (s : State) (w : StwId) (i : SIns) (q : Nat) :
    queue (Slice0.issued s w i) w.c.ch w.c.cl q = queue s w.c.ch w.c.cl q := by
  rw [Slice0.issued, queue_setStw, queue_of_wakes (wakes_running s w)]

theorem queue_dequeue (s : State) (ch c q : Nat) : queue (dequeue s ch c q) ch c q = (queue s ch c q).tail :=
  queue_setQueue_same s ch c q (queue s ch c q).tail

theorem stwOf_dequeue (s : State) (w : StwId) (q : Nat) : Slice0.stwOf (dequeue s w.c.ch w.c.cl q) w = Slice0.stwOf s w := by
  have hclu : (dequeue s w.c.ch w.c.cl q).clu w.c.ch w.c.cl =
      { s.clu w.c.ch w.c.cl with queues := setLst (s.clu w.c.ch w.c.cl).queues q (queue s w.c.ch w.c.cl q).tail } :=
    clu_setClu_same s _ _ fun k => { k with queues := setLst k.queues q (queue s w.c.ch w.c.cl q).tail }
  rw [Slice0.stwOf, State.stw, hclu]
  rfl

theorem xreg_of_scalars (h : (Slice0.stwOf u w).x = (Slice0.stwOf s w).x) (r : Nat) : Slice0.xreg u w r = Slice0.xreg s w r := by
  rw [Slice0.xreg, Slice0.xreg, stw_get_congr h]

/-- Under no take an instruction that may not run ahead acts. -/
theorem held_of_none (htake : (Slice0.stwOf s w).take = none) (rd : Nat) (f : State → State) (t : State) :
    (Slice0.iss s w i).held t rd f = f t := by
  have hx : (Slice0.iss s w i).x.take = none := htake
  simp only [Iss.held, hx]

/-! ### The system instructions -/

/-- RETT of supervisor code. -/
theorem exec_sRett_of_sup (h : Slice0.Issues s w i) (hm : i.mn = .rett) (htake : (Slice0.stwOf s w).take = none)
    (hprv : (Slice0.stwOf s w).prv = true) :
    exec (.sRett w) s = .next (stwJump (setStw (Slice0.issued s w i) w.c.ch w.c.cl w.w fun x =>
      { x with prv := x.pprv, intrap := false }) w.c.ch w.c.cl w.w 0 0 (Slice0.stwOf s w).epc) :=
  (exec_of_issues (c := .sRett w) h hm rfl).trans
    (congrArg Host.Outcome.next ((if_pos hprv).trans (held_of_none htake ..)))

/-- The state in which a handler has let its message go (R234, R240). -/
def handlerDone (s t : State) (w : StwId) (q : Nat) : State :=
  if (Slice0.stwOf s w).inMsg && !qPsn t w.c.ch w.c.cl q then dequeue t w.c.ch w.c.cl q else t

/-- HRET of a handler. -/
theorem exec_sHret_of_handler {q n : Nat} (h : Slice0.Issues s w i) (hm : i.mn = .hret) (htake : (Slice0.stwOf s w).take = none)
    (hin : (Slice0.stwOf s w).inh = some (q, n)) :
    exec (.sHret w) s = .next (stwJump (setStw (handlerDone s (Slice0.issued s w i) w q) w.c.ch w.c.cl w.w fun x =>
      { x with inh := none, inMsg := false }) w.c.ch w.c.cl w.w 0 0 (Slice0.stwOf s w).hepc) := by
  have hx : (Slice0.iss s w i).x.inh = some (q, n) := hin
  rw [exec_of_issues (c := .sHret w) h hm rfl]
  dsimp only
  rw [hx]
  exact congrArg Host.Outcome.next (held_of_none htake ..)

theorem stwOf_handlerDone (s : State) (w : StwId) (q : Nat) : Slice0.stwOf (handlerDone s t w q) w = Slice0.stwOf t w := by
  unfold handlerDone
  split
  · exact stwOf_dequeue ..
  · rfl

theorem mem_handlerDone (s : State) (w : StwId) (q : Nat) : (handlerDone s t w q).mem = t.mem := by
  unfold handlerDone
  split <;> rfl

theorem queue_handlerDone (s : State) (w : StwId) (q : Nat) :
    queue (handlerDone s (Slice0.issued s w i) w q) w.c.ch w.c.cl q =
      (if (Slice0.stwOf s w).inMsg = true ∧ qPsn s w.c.ch w.c.cl q = false then (queue s w.c.ch w.c.cl q).tail
       else queue s w.c.ch w.c.cl q) := by
  have hcond : ((Slice0.stwOf s w).inMsg && !qPsn (Slice0.issued s w i) w.c.ch w.c.cl q) = true ↔
      (Slice0.stwOf s w).inMsg = true ∧ qPsn s w.c.ch w.c.cl q = false := by
    rw [qPsn_issued, Bool.and_eq_true, Bool.not_eq_true']
  unfold handlerDone
  by_cases hgo : (Slice0.stwOf s w).inMsg = true ∧ qPsn s w.c.ch w.c.cl q = false
  · rw [if_pos (hcond.2 hgo), if_pos hgo, queue_dequeue, queue_issued]
  · rw [if_neg (mt hcond.1 hgo), if_neg hgo, queue_issued]

/-- HALT completes, answers a halt that was asked for, and stops. -/
theorem exec_sHalt_of_issues (h : Slice0.Issues s w i) (hm : i.mn = .halt) (htake : (Slice0.stwOf s w).take = none) :
    exec (.sHalt w) s = .next (setStw ((stwFinish (Slice0.issued s w i) w.c.ch w.c.cl w.w 0 0).fset Fld.CL_STWn_CTRL_HALT
      (clLoc w.c.ch w.c.cl) w.w 0) w.c.ch w.c.cl w.w fun x => { x with st := wHalted }) :=
  (exec_of_issues (c := .sHalt w) h hm rfl).trans (congrArg Host.Outcome.next (held_of_none htake ..))

/-- The HALT bit of a steward after it was answered. -/
theorem fbit_halt_setStw (s : State) (ch c w : Nat) (f : Stw → Stw) :
    (setStw (s.fset Fld.CL_STWn_CTRL_HALT (clLoc ch c) w 0) ch c w f).fbit Fld.CL_STWn_CTRL_HALT (clLoc ch c) w = false := by
  rw [State.fbit, setStw_fget_view, fget_fset_same _ _ _ _ _ (fits_of_le (by decide))]
  rfl

/-- FENCE.G with nothing outstanding and nothing failed. -/
theorem exec_sFenceG_of_clear (h : Slice0.Issues s w i) (hm : i.mn = .fenceG) (hp : (Slice0.stwOf s w).posted = 0)
    (he : (Slice0.stwOf s w).serr.2 = 0) :
    exec (.sFenceG w) s = .next (stwFinish (Slice0.issued s w i) w.c.ch w.c.cl w.w 0 0) :=
  (exec_of_issues (c := .sFenceG w) h hm rfl).trans
    (congrArg Host.Outcome.next ((if_neg (not_not_intro hp)).trans (if_neg (not_not_intro he))))

theorem exec_sFenceG_of_failed (h : Slice0.Issues s w i) (hm : i.mn = .fenceG) (hp : (Slice0.stwOf s w).posted = 0)
    (he : (Slice0.stwOf s w).serr.2 ≠ 0) :
    exec (.sFenceG w) s = .next (stwExc (Slice0.issued s w i) w.c.ch w.c.cl w.w 0 kPosted (Slice0.stwOf s w).serr.1
      (Slice0.stwOf s w).serr.2) :=
  (exec_of_issues (c := .sFenceG w) h hm rfl).trans
    (congrArg Host.Outcome.next ((if_neg (not_not_intro hp)).trans (if_pos he)))

theorem exec_sFenceG_of_posted (h : Slice0.Issues s w i) (hm : i.mn = .fenceG) (hp : (Slice0.stwOf s w).posted ≠ 0) :
    exec (.sFenceG w) s = .next (stwStall (Slice0.issued s w i) w.c.ch w.c.cl w.w .none) :=
  (exec_of_issues (c := .sFenceG w) h hm rfl).trans (congrArg Host.Outcome.next (if_pos hp))

theorem exec_sFenceI_of_issues (h : Slice0.Issues s w i) (hm : i.mn = .fenceI) :
    exec (.sFenceI w) s = .next (stwFinish (setStw (Slice0.issued s w i) w.c.ch w.c.cl w.w fun x => { x with oldCode := [] })
      w.c.ch w.c.cl w.w 0 0) :=
  exec_of_issues (c := .sFenceI w) h hm rfl

end System

/-- Settles O41: RETT and HRET jump to what was saved, HALT and the fences complete, FENCE.G traps or waits first. -/
theorem stewardSystemInstructions : Obligations.StewardSystemInstructions := by
  intro s w i h htake ch c x t
  refine ⟨fun hm hprv => ⟨_, exec_sRett_of_sup h hm htake hprv, ?rett⟩,
    fun q n hm hin => ⟨_, exec_sHret_of_handler h hm htake hin, ?hret⟩,
    fun hm => ⟨_, exec_sHalt_of_issues h hm htake, ?halt⟩,
    fun hm => ⟨_, exec_of_issues h hm rfl, retired_done s w i 0 0, regsOnly_done s w i 0 0⟩,
    fun hm => ⟨fun hp he => ⟨_, exec_sFenceG_of_clear h hm hp he, retired_done s w i 0 0, regsOnly_done s w i 0 0⟩,
      fun hp he hin => ⟨_, exec_sFenceG_of_failed h hm hp he, trapped_exc_here htake hin 0 _ _ (by decide) (by decide)⟩,
      fun hp => exec_sFenceG_of_posted h hm hp⟩,
    fun hm => ⟨_, exec_sFenceI_of_issues h hm, ?fenceI⟩⟩
  case rett =>
    have hu := stwOf_stwJump_zero (setStw t w.c.ch w.c.cl w.w fun x => { x with prv := x.pprv, intrap := false }) w 0 x.epc
    rw [stwOf_setStw, stwOf_issued] at hu
    refine ⟨(congrArg Stw.pc hu :), (congrArg Stw.prv hu :), (congrArg Stw.intrap hu :), xreg_of_scalars ((congrArg Stw.x hu :)), ?_⟩
    exact regsOnly_trans (regsOnly_issued s w i) (regsOnly_trans (regsOnly_setStw ..) (regsOnly_stwJump ..))
  case hret =>
    have hu := stwOf_stwJump_zero (setStw (handlerDone s t w q) w.c.ch w.c.cl w.w fun x =>
      { x with inh := none, inMsg := false }) w 0 x.hepc
    rw [stwOf_setStw, stwOf_handlerDone, stwOf_issued] at hu
    refine ⟨(congrArg Stw.pc hu :), (congrArg Stw.inh hu :), ?_, xreg_of_scalars ((congrArg Stw.x hu :)), fun a => ?_⟩
    · rw [stwJump, queue_setStw, queue_setStw]
      exact queue_handlerDone s w q
    · exact (congrArg (SMap.get memDefault · a) (mem_handlerDone s w q)).trans ((regsOnly_issued s w i).1 a)
  case halt =>
    have hu := stwOf_setStw ((stwFinish t w.c.ch w.c.cl w.w 0 0).fset Fld.CL_STWn_CTRL_HALT (clLoc w.c.ch w.c.cl) w.w 0) w
      fun x => { x with st := wHalted }
    have hfin : Slice0.stwOf ((stwFinish t w.c.ch w.c.cl w.w 0 0).fset Fld.CL_STWn_CTRL_HALT (clLoc w.c.ch w.c.cl) w.w 0) w =
        Slice0.stwOf (stwFinish t w.c.ch w.c.cl w.w 0 0) w := rfl
    rw [hfin, stwOf_stwFinish_zero, stwOf_issued] at hu
    refine ⟨(congrArg Stw.st hu :), (congrArg Stw.pc hu :), fbit_halt_setStw .., xreg_of_scalars ((congrArg Stw.x hu :)), ?_⟩
    exact regsOnly_trans (regsOnly_done s w i 0 0) (regsOnly_trans (regsOnly_fset ..) (regsOnly_setStw ..))
  case fenceI =>
    have hu := stwOf_stwFinish_zero (setStw t w.c.ch w.c.cl w.w fun x => { x with oldCode := [] }) w 0
    rw [stwOf_setStw] at hu
    refine ⟨(congrArg Stw.oldCode hu :), ?_,
      regsOnly_trans (regsOnly_issued s w i) (regsOnly_trans (regsOnly_setStw ..) (regsOnly_stwFinish ..))⟩
    refine retired_set_done s w i ?_ ?_ 0 0
    · exact fun _ => ⟨rfl, rfl, rfl, rfl, rfl, rfl, rfl⟩
    · exact fun _ => rfl

/-! ### Control of a steward (R142) -/

section Control

variable {s : State} {r : Requester} {w : StwId}

theorem exec_clStwCtrlHalt : exec (.clStwCtrlHalt r w) s = execClStwCtrlHalt r w s := rfl
theorem exec_stewardHaltEffect : exec (.stewardHaltEffect w) s = execStewardHaltEffect w s := rfl
theorem exec_clStwCtrlResume : exec (.clStwCtrlResume r w) s = execClStwCtrlResume r w s := rfl
theorem exec_clStwCtrlStep : exec (.clStwCtrlStep r w) s = execClStwCtrlStep r w s := rfl

theorem execClStwCtrlStep_of_open (ho : Slice0.Open s r (.cl w.c)) (hm : mayCl (dropHalf s r) r w.c.ch w.c.cl = true)
    (hst : ((dropHalf s r).stw w.c.ch w.c.cl w.w).st = wHalted) :
    execClStwCtrlStep r w s = .next (setStw (dropHalf s r) w.c.ch w.c.cl w.w fun x => { x with st := wRun, stepping := true }) := by
  rw [← setStw_congr (f := fun x => if x.st = wHalted then { x with st := wRun, stepping := true } else x) (if_pos hst)]
  simp [execClStwCtrlStep, rowGate_of_open _ ho, stwWrite, hm]

/-- A halt that was asked for takes effect on a running steward at once. -/
theorem execStewardHaltEffect_of_running (hask : s.fbit Fld.CL_STWn_CTRL_HALT (clLoc w.c.ch w.c.cl) w.w = true)
    (hclock : clocked s w.c.ch w.c.cl = true) (hst : (s.stw w.c.ch w.c.cl w.w).st = wRun) :
    execStewardHaltEffect w s = .next (setStw (s.fset Fld.CL_STWn_CTRL_HALT (clLoc w.c.ch w.c.cl) w.w 0) w.c.ch w.c.cl w.w
      fun x => { x with st := wHalted, stepping := false }) := by
  simp [execStewardHaltEffect, hask, hclock, hst, show wRun ≠ wStalled by decide]

/-- A wait that a halt may abandon ends first. -/
theorem execStewardHaltEffect_of_waiting (hask : s.fbit Fld.CL_STWn_CTRL_HALT (clLoc w.c.ch w.c.cl) w.w = true)
    (hclock : clocked s w.c.ch w.c.cl = true) (hst : (s.stw w.c.ch w.c.cl w.w).st = wStalled)
    (hwait : (s.stw w.c.ch w.c.cl w.w).wait.haltable = true) :
    execStewardHaltEffect w s = .next (setStw ((stwAbandon s w.c.ch w.c.cl w.w).fset Fld.CL_STWn_CTRL_HALT
      (clLoc w.c.ch w.c.cl) w.w 0) w.c.ch w.c.cl w.w fun x => { x with st := wHalted, stepping := false }) := by
  simp [execStewardHaltEffect, hask, hclock, hst, hwait]

end Control

/-- Settles O8. A HALT of a steward that is already HALTED stays pending (log entry 41): the first clause has no condition on its
state. -/
theorem stewardControlCompletes : Obligations.StewardControlCompletes := by
  intro s w ch c
  refine ⟨fun r ho hm => ?_, fun hask hclock hst => ⟨_, execStewardHaltEffect_of_running hask hclock hst, ?_⟩,
    fun hask hclock hst hwait => ?_, fun r ho hm hst => ⟨?_, ?_⟩⟩
  · rw [exec_clStwCtrlHalt, execClStwCtrlHalt_of_open ho hm]
  · have hu := stwOf_setStw (s.fset Fld.CL_STWn_CTRL_HALT (clLoc w.c.ch w.c.cl) w.w 0) w
      fun x => { x with st := wHalted, stepping := false }
    exact ⟨(congrArg Stw.st hu :), fbit_halt_setStw .., (congrArg Stw.pc hu :), (congrArg Stw.x hu :), rfl⟩
  · rw [exec_stewardHaltEffect, execStewardHaltEffect_of_waiting hask hclock hst hwait]
  · rw [exec_clStwCtrlResume, execClStwCtrlResume_of_open ho hm hst]
  · rw [exec_clStwCtrlStep, execClStwCtrlStep_of_open ho hm hst]

end Sys2Proof.Machine


/-! Loads and stores of a steward in its own depot (R124, R134, R299): what a store changes, and the obligation. -/

namespace Sys2Proof.Machine

/-! ### Bytes and numbers -/

theorem length_leBytes (n v : Nat) : (leBytes n v).length = n := by
  induction n generalizing v with
  | zero => rfl
  | succ n ih => simp [leBytes, ih]

@[simp] theorem length_dBytes (n v : Nat) : (dBytes n v).length = n := by
  simp [dBytes, cleanBytes, length_leBytes]

theorem getElem_leBytes {n j : Nat} (v : Nat) (h : j < (leBytes n v).length) :
    (leBytes n v)[j] = BitVec.ofNat 8 (v / 2 ^ (8 * j)) := by
  induction n generalizing v j with
  | zero => simp [leBytes] at h
  | succ n ih =>
    cases j with
    | zero => simp [leBytes]
    | succ j =>
      have hpow : 256 * 2 ^ (8 * j) = 2 ^ (8 * (j + 1)) := by
        rw [show 256 = 2 ^ 8 from rfl, ← Nat.pow_add]
        congr 1
        omega
      simp only [leBytes, List.getElem_cons_succ, ih, Nat.div_div_eq_div_mul, hpow]

/-- A byte of a stored value. -/
theorem getElem_dBytes {n j : Nat} (v : Word) (h : j < (dBytes n v.toNat).length) :
    ((dBytes n v.toNat)[j]).1 = (v >>> (8 * j)).setWidth 8 := by
  have hlt : j < (leBytes n v.toNat).length := by simpa [dBytes, cleanBytes] using h
  have hbyte : ((dBytes n v.toNat)[j]).1 = (leBytes n v.toNat)[j] := by simp [dBytes, cleanBytes]
  rw [hbyte, getElem_leBytes _ hlt]
  exact BitVec.eq_of_toNat_eq (by simp [Nat.shiftRight_eq_div_pow])

theorem foldr_byte_succ (g : Nat → Nat) (l : List Nat) :
    l.foldr (fun j v => g j * 2 ^ (8 * (j + 1)) + v) 0 = 256 * l.foldr (fun j v => g j * 2 ^ (8 * j) + v) 0 := by
  induction l with
  | nil => rfl
  | cons a l ih =>
    rw [List.foldr_cons, List.foldr_cons, ih, show 8 * (a + 1) = 8 * a + 8 from rfl, Nat.pow_add]
    ring

/-- A little-endian number as the sum of its bytes. -/
theorem leNat_map_range (f : Nat → Byte) (n : Nat) :
    leNat ((List.range n).map f) = (List.range n).foldr (fun j v => (f j).toNat * 2 ^ (8 * j) + v) 0 := by
  induction n generalizing f with
  | zero => rfl
  | succ n ih =>
    rw [List.range_succ_eq_map, List.map_cons, List.map_map, List.foldr_cons, List.foldr_map, leNat, ih]
    exact congrArg₂ (· + ·) (by simp) (foldr_byte_succ (fun j => (f (j + 1)).toNat) _).symm

theorem dNat_readMem (s : State) (a n : Nat) :
    dNat (s.readMem a n) = (List.range n).foldr (fun j v => (s.byteAt (a + j)).toNat * 2 ^ (8 * j) + v) 0 := by
  rw [dNat, State.readMem, List.map_map]
  exact leNat_map_range (fun j => s.byteAt (a + j)) n

theorem readMem_congr {s t : State} (hmem : t.mem = s.mem) (hpsn : t.psn = s.psn) (a n : Nat) : t.readMem a n = s.readMem a n := by
  simp only [State.readMem, State.dbyteAt, State.byteAt, State.poisoned, hmem, hpsn]

/-- The channel of a depot address. -/
theorem channel_depotAt (c : Cl) {a : Nat} (h : a < 2 ^ 22) : bits (depotAt c.ch c.cl a) 46 2 = c.ch := by
  have hch := c.ch.isLt
  have hcl := c.cl.isLt
  rw [bits, depotAt, Nat.shiftRight_eq_div_pow]
  omega

/-! ### A store performed (R294, R475) -/

section Stores

variable {s t : State}

theorem wakes_nfHit (s : State) (ch win a : Nat) (psn : Bool) : Wakes s (nfHit s ch win a psn) := by
  unfold nfHit
  exact (Wakes.ite ((((Wakes.ite (.refl s) ((Wakes.refl s).fset _ _ _ _)).fset _ _ _ _).fset _ _ _ _).fset _ _ _ _)
    (((Wakes.ite (.refl s) ((Wakes.refl s).fset _ _ _ _)).fset _ _ _ _).fset _ _ _ _)).fset _ _ _ _

theorem wakes_classifyWin (s : State) (ch win a : Nat) (bs : List DByte) : Wakes s (classifyWin s ch win a bs) := by
  unfold classifyWin
  refine .ite (.refl s) (Wakes.foldl (fun s i => ?_) _ (.refl s))
  exact .ite (.ite (wakes_nfHit ..) (.refl s)) ((Wakes.refl s).fset _ _ _ _)

/-- Classification changes registers only. -/
theorem wakes_classify (s : State) (a : Nat) (bs : List DByte) : Wakes s (classify s a bs) := by
  unfold classify
  exact .ite (Wakes.foldl (fun s n => wakes_classifyWin ..) _ (.refl s)) (.refl s)

theorem armWritten_cls (s : State) (a : Nat) (bs : List DByte) : (armWritten s a bs).cls = s.cls := by
  unfold armWritten
  dsimp only
  split
  · rfl
  · split <;> rfl

@[simp] theorem storeBytes_cls (s : State) (a : Nat) (bs : List DByte) : (storeBytes s a bs).cls = s.cls := by
  obtain ⟨r, d, h⟩ := wakes_classify s a bs
  rw [storeBytes, State.writeMem, armWritten_cls, h]

theorem stwOf_of_cls (w : StwId) (h : t.cls = s.cls) : Slice0.stwOf t w = Slice0.stwOf s w := by
  simp only [Slice0.stwOf, State.stw, State.clu, h]

theorem byteAt_storeBytes_same (s : State) (a j : Nat) (bs : List DByte) (h : j < bs.length) :
    (storeBytes s a bs).byteAt (a + j) = (bs[j]).1 :=
  byteAt_writeMem_same _ _ _ _ h

theorem byteAt_storeBytes_other (s : State) (a b : Nat) (bs : List DByte) (h : b < a ∨ a + bs.length ≤ b) :
    (storeBytes s a bs).byteAt b = s.byteAt b := by
  rw [storeBytes, byteAt_writeMem_other _ _ _ _ h, State.byteAt, classify_mem]
  rfl

/-- The write guard performs a write that it neither holds nor has held (R299). -/
theorem guardStore_of_free {key : Nat × Nat × Nat} {a : Nat} {bs : List DByte}
    (hask : askedStore s (bits a 46 2) key = false) (hguard : guardAct s a bs.length = 0) :
    guardStore s key a bs = (storeBytes s a bs, some (0, bs.length)) := by
  obtain ⟨hready, hheld⟩ := Bool.or_eq_false_iff.1 hask
  have hfind : (s.mon (bits a 46 2)).ready.find? (fun p => decide (p.1 = key)) = none := by
    rw [List.find?_eq_none]
    intro p hp hk
    exact absurd (List.any_eq_true.2 ⟨p, hp, hk⟩) (ne_true_of_eq_false hready)
  simp only [guardStore, hfind, hguard]
  exact if_neg (ne_true_of_eq_false hheld)

end Stores

/-! ### A steward's store into its own depot -/

section LocalStore

variable {s t : State} {w : StwId} {i : SIns}

theorem mem_issued (s : State) (w : StwId) (i : SIns) : (Slice0.issued s w i).mem = s.mem := by
  rw [Slice0.issued, setStw_mem]
  split
  · exact wakeDistrict_mem ..
  · rfl

theorem readMem_issued (s : State) (w : StwId) (i : SIns) (a n : Nat) : (Slice0.issued s w i).readMem a n = s.readMem a n :=
  readMem_congr (mem_issued ..) (regsOnly_issued s w i).2.1 ..

/-- The state in which a local store is performed: the code it overwrites is kept for the fetches (R136). -/
def stored (t : State) (w : StwId) (a : Nat) (bs : List DByte) : State :=
  storeBytes (keepCode t w.c.ch w.c.cl w.w a bs.length) (depotAt w.c.ch w.c.cl a) bs

theorem localStore_of_free {a : Nat} {bs : List DByte} (go : State → Nat → State) (ha : a < 2 ^ 22)
    (hcopy : depotCopies t w.c.ch w.c.cl a bs.length = false) (hask : (Slice0.iss s w i).storing t = false)
    (hguard : guardAct t (depotAt w.c.ch w.c.cl a) bs.length = 0) :
    localStore t (Slice0.iss s w i) a bs go = go (stored t w a bs) bs.length := by
  have hask' : askedStore (keepCode t w.c.ch w.c.cl w.w a bs.length) (bits (depotAt w.c.ch w.c.cl a) 46 2)
      (Slice0.iss s w i).key = false := by
    rw [channel_depotAt w.c ha]
    exact hask
  have hstore := guardStore_of_free hask' (bs := bs) hguard
  rw [localStore]
  refine (if_neg (ne_true_of_eq_false hcopy)).trans ?_
  rw [hask]
  simp only [Bool.false_eq_true, if_false]
  rw [show (Slice0.iss s w i).ch = w.c.ch from rfl, show (Slice0.iss s w i).c = w.c.cl from rfl,
    show (Slice0.iss s w i).w = w.w from rfl, hstore]
  rfl

theorem guardAct_congr {u : State} (hmons : u.mons = t.mons)
    (hreg : ∀ ch, ch < 4 → u.reg .CH_NFSTAT ch 0 = t.reg .CH_NFSTAT ch 0) (a n : Nat) : guardAct u a n = guardAct t a n := by
  have hguard : guardOf u (bits a 46 2) = guardOf t (bits a 46 2) :=
    congrArg (fun v : Word => bits v.toNat 3 2) (hreg _ (Nat.mod_lt _ (by decide)))
  have hwin : inStateWin u a n = inStateWin t a n := by
    have hmon (ch : Nat) : u.mon ch = t.mon ch := by rw [State.mon, hmons, State.mon]
    rw [inStateWin, hmon, inStateWin]
  unfold guardAct
  dsimp only
  rw [hguard, hwin]

/-- A store that an instruction performs after it changed no monitor and no repair. -/
theorem localStore_of_kept {u : State} {a : Nat} {bs : List DByte} (go : State → Nat → State) (ha : a < 2 ^ 22)
    (hcopy : depotCopies t w.c.ch w.c.cl a bs.length = false) (hask : (Slice0.iss s w i).storing t = false)
    (hguard : guardAct t (depotAt w.c.ch w.c.cl a) bs.length = 0) (hmons : u.mons = t.mons) (hfcs : u.fcs = t.fcs)
    (hreg : ∀ ch, ch < 4 → u.reg .CH_NFSTAT ch 0 = t.reg .CH_NFSTAT ch 0) :
    localStore u (Slice0.iss s w i) a bs go = go (stored u w a bs) bs.length := by
  refine localStore_of_free go ha ?_ ?_ ((guardAct_congr hmons hreg ..).trans hguard)
  · simpa only [depotCopies, depotCopying, hfcs] using hcopy
  · simpa only [Iss.storing, askedStore, State.mon, hmons] using hask

theorem stwOf_stored (t : State) (w : StwId) (a : Nat) (bs : List DByte) : ∃ m,
    Slice0.stwOf (stored t w a bs) w = { Slice0.stwOf t w with oldCode := m } := by
  rw [stored, stwOf_of_cls w (storeBytes_cls ..), keepCode, stwOf_setStw]
  exact ⟨_, rfl⟩

theorem byteAt_stored_same (t : State) (w : StwId) (a j : Nat) (bs : List DByte) (h : j < bs.length) :
    (stored t w a bs).byteAt (depotAt w.c.ch w.c.cl a + j) = (bs[j]).1 :=
  byteAt_storeBytes_same _ _ _ _ h

theorem byteAt_stored_other (t : State) (w : StwId) (a b : Nat) (bs : List DByte)
    (h : b < depotAt w.c.ch w.c.cl a ∨ depotAt w.c.ch w.c.cl a + bs.length ≤ b) : (stored t w a bs).byteAt b = t.byteAt b :=
  byteAt_storeBytes_other _ _ _ _ h

theorem pen_setStw (s : State) (ch c n : Nat) (f : Stw → Stw) : ((setStw s ch c n f).clu ch c).pen = (s.clu ch c).pen := by
  rw [clu_setStw_same]

theorem clu_of_cls (h : t.cls = s.cls) (ch c : Nat) : t.clu ch c = s.clu ch c := by
  simp only [State.clu, h]

theorem cls_of_wakes (h : Wakes s t) : t.cls = s.cls := by
  obtain ⟨r, d, rfl⟩ := h
  rfl

theorem pen_stored (t : State) (w : StwId) (a : Nat) (bs : List DByte) :
    ((stored t w a bs).clu w.c.ch w.c.cl).pen = (t.clu w.c.ch w.c.cl).pen := by
  rw [stored, clu_of_cls (storeBytes_cls ..), keepCode, pen_setStw]

theorem pen_stwFinish (s : State) (ch c n rd v : Nat) : ((stwFinish s ch c n rd v).clu ch c).pen = (s.clu ch c).pen := by
  rw [stwFinish, pen_setStw, clu_of_cls (cls_of_wakes (wakes_stwWake ..))]

/-- A local store that is performed completes its instruction. -/
theorem retired_stored (h : SameStw (Slice0.stwOf s w) (Slice0.stwOf t w)) (hlen : (Slice0.stwOf t w).ilen = i.len) (a : Nat)
    (bs : List DByte) (rd v : Nat) :
    Slice0.Retired s (stwFinish (stored t w a bs) w.c.ch w.c.cl w.w rd v) w rd (BitVec.ofNat 64 v) (Slice0.after s w i) := by
  obtain ⟨m, hm⟩ := stwOf_stored t w a bs
  refine retired_stwFinish (h.trans ?_) ?_ rd v
  · rw [hm]
    exact ⟨rfl, rfl, rfl, rfl, rfl, rfl, rfl⟩
  · rw [hm, hlen]

end LocalStore

/-! ### A record placed in the pen (R278) -/

section Pen

variable {s t : State} {w : StwId} {i : SIns}

/-- A cluster with a record more in its pen. -/
def penned (s : State) (ch c : Nat) (k : Fin 4) (r : PenRec) : State :=
  s.setClu ch c fun cl => { cl with pen := cl.pen ++ [(k, r)] }

theorem wakes_penPut (s : State) (ch c : Nat) (k : Fin 4) (r : PenRec) : Wakes (penned s ch c k r) (penPut s ch c k r) := by
  have hcount : Wakes (penned s ch c k r)
      (pmCount (penned s ch c k r) ch 0x09 c 1) := (Wakes.refl _).pmCount ..
  exact .ite (hcount.fset _ _ _ _) hcount

theorem clu_penPut (s : State) (ch c : Nat) (k : Fin 4) (r : PenRec) :
    (penPut s ch c k r).clu ch c = { s.clu ch c with pen := (s.clu ch c).pen ++ [(k, r)] } := by
  rw [clu_of_cls (cls_of_wakes (wakes_penPut ..)), penned, clu_setClu_same]

theorem pen_penPut (s : State) (ch c : Nat) (k : Fin 4) (r : PenRec) :
    ((penPut s ch c k r).clu ch c).pen = (s.clu ch c).pen ++ [(k, r)] := by
  rw [clu_penPut]

theorem stwOf_penPut (s : State) (w : StwId) (k : Fin 4) (r : PenRec) :
    Slice0.stwOf (penPut s w.c.ch w.c.cl k r) w = Slice0.stwOf s w := by
  rw [Slice0.stwOf, State.stw, clu_penPut]
  rfl

/-- Memory, monitors and repairs are not the pen's. -/
theorem penPut_keeps (s : State) (ch c : Nat) (k : Fin 4) (r : PenRec) :
    (penPut s ch c k r).mem = s.mem ∧ (penPut s ch c k r).mons = s.mons ∧ (penPut s ch c k r).fcs = s.fcs := by
  obtain ⟨g, d, h⟩ := wakes_penPut s ch c k r
  rw [h]
  exact ⟨rfl, rfl, rfl⟩

/-- A record in the pen counts and shows in registers of its own, none of a monitor. -/
theorem reg_penPut (s : State) (c : Cl) (k : Fin 4) (r : PenRec) {ch : Nat} (hch : ch < 4) :
    (penPut s c.ch c.cl k r).reg .CH_NFSTAT ch 0 = s.reg .CH_NFSTAT ch 0 := by
  have hc := c.ch.isLt
  have hcount : (pmCount (penned s c.ch c.cl k r) c.ch 0x09 c.cl 1).reg .CH_NFSTAT ch 0 = s.reg .CH_NFSTAT ch 0 :=
    pmCount_reg _ _ _ _ _ _ _ _ fun j hj =>
      place_ne _ _ _ _ _ _ (by omega) (by omega) (by decide) (by omega) fun e => absurd e.1 (by decide)
  have hshow (t : State) (n : Nat) : (t.fset Fld.CL_PENSTAT_HIGH (clLoc c.ch c.cl) 0 n).reg .CH_NFSTAT ch 0 = t.reg .CH_NFSTAT ch 0 :=
    reg_fset_other _ _ _ _ _ (by rfl)
      (place_ne _ _ _ _ _ _ (by omega) (clLoc_lt c) (by decide) (by decide) fun e => absurd e.1 (by decide))
  unfold penPut
  dsimp only
  split
  · exact (hshow _ _).trans hcount
  · exact hcount

/-- A record that finds its slot open and room in the pen. -/
theorem penRec_of_open {k : Fin 4} (rd : Nat) (r : PenRec) (f : State → State) (hopen : takeOpen t w.c.ch w.c.cl k = true)
    (hroom : penFull t w.c.ch w.c.cl = false) :
    penRec (Slice0.iss s w i) t k rd r f = f (penPut t w.c.ch w.c.cl k r) := by
  have hopen' : takeOpen t (Slice0.iss s w i).ch (Slice0.iss s w i).c k = true := hopen
  have hroom' : penFull t (Slice0.iss s w i).ch (Slice0.iss s w i).c = false := hroom
  rw [penRec, hopen', hroom']
  rfl

/-- Issue changes of its cluster the stewards only. -/
theorem clu_issued (s : State) (w : StwId) (i : SIns) :
    ∃ m, (Slice0.issued s w i).clu w.c.ch w.c.cl = { s.clu w.c.ch w.c.cl with stws := m } := by
  rw [Slice0.issued, clu_setStw_same, clu_of_cls (cls_of_wakes (wakes_running s w))]
  exact ⟨_, rfl⟩

@[simp] theorem takeSlot_issued (s : State) (w : StwId) (i : SIns) (k : Nat) :
    takeSlot (Slice0.issued s w i) w.c.ch w.c.cl k = takeSlot s w.c.ch w.c.cl k := by
  obtain ⟨m, h⟩ := clu_issued s w i
  rw [takeSlot, h]
  rfl

@[simp] theorem takeOpen_issued (s : State) (w : StwId) (i : SIns) (k : Nat) :
    takeOpen (Slice0.issued s w i) w.c.ch w.c.cl k = takeOpen s w.c.ch w.c.cl k := by
  rw [takeOpen, takeSlot_issued, takeOpen]

@[simp] theorem pen_issued (s : State) (w : StwId) (i : SIns) :
    ((Slice0.issued s w i).clu w.c.ch w.c.cl).pen = (s.clu w.c.ch w.c.cl).pen := by
  obtain ⟨m, h⟩ := clu_issued s w i
  rw [h]

@[simp] theorem penFull_issued (s : State) (w : StwId) (i : SIns) :
    penFull (Slice0.issued s w i) w.c.ch w.c.cl = penFull s w.c.ch w.c.cl := by
  rw [penFull, pen_issued, penFull]

/-- The same of an instruction that issued under the slot. -/
theorem penRec_issued {k : Fin 4} (rd : Nat) (r : PenRec) (f : State → State) (hopen : takeOpen s w.c.ch w.c.cl k = true)
    (hroom : penFull s w.c.ch w.c.cl = false) :
    penRec (Slice0.iss s w i) (Slice0.issued s w i) k rd r f = f (penPut (Slice0.issued s w i) w.c.ch w.c.cl k r) :=
  penRec_of_open rd r f ((takeOpen_issued ..).trans hopen) ((penFull_issued ..).trans hroom)

end Pen

/-! ### LDL and STL -/

section Access

variable {s : State} {w : StwId} {i : SIns}

theorem exec_sLdl_inside (h : Slice0.Issues s w i) (hm : i.mn = .ldl) (hal : localAddr s w i % i.width = 0)
    (hend : localAddr s w i + i.width ≤ 3670016)
    (hdue : ownStoreDue (Slice0.issued s w i) (Slice0.iss s w i) (localAddr s w i) i.width = false)
    (hcopy : depotCopies (Slice0.issued s w i) w.c.ch w.c.cl (localAddr s w i) i.width = false)
    (hclean : anyPsn (s.readMem (depotAt w.c.ch w.c.cl (localAddr s w i)) i.width) = false) :
    exec (.sLdl w) s = .next (stwFinish (Slice0.issued s w i) w.c.ch w.c.cl w.w i.rd
      (dNat (s.readMem (depotAt w.c.ch w.c.cl (localAddr s w i)) i.width))) := by
  rw [exec_of_issues (c := .sLdl w) h hm rfl]
  dsimp only
  rw [local_eq]
  refine congrArg Host.Outcome.next ((localCheck_of_inside _ hal hend).trans ?_)
  have hgo : (ownStoreDue (Slice0.issued s w i) (Slice0.iss s w i) (localAddr s w i) i.width ||
      depotCopies (Slice0.issued s w i) w.c.ch w.c.cl (localAddr s w i) i.width) ≠ true := by
    rw [hdue, hcopy]
    decide
  refine (if_neg hgo).trans ?_
  rw [show (Slice0.issued s w i).readMem _ _ = _ from readMem_issued ..]
  exact if_neg (ne_true_of_eq_false hclean)

/-- STL of an aligned address inside the depot that has nothing to wait for: the store, logged first under a take. -/
theorem exec_sStl_inside (h : Slice0.Issues s w i) (hm : i.mn = .stl) (hal : localAddr s w i % i.width = 0)
    (hend : localAddr s w i + i.width ≤ 3670016)
    (hdue : ownStoreDue (Slice0.issued s w i) (Slice0.iss s w i) (localAddr s w i) i.width = false)
    (hask : (Slice0.iss s w i).storing (Slice0.issued s w i) = false)
    (hgate : gateWr (Slice0.issued s w i) w.c.ch w.c.cl = true) :
    exec (.sStl w) s = .next (match (Slice0.stwOf s w).take with
      | none => localStore (Slice0.issued s w i) (Slice0.iss s w i) (localAddr s w i)
          (dBytes i.width ((Slice0.stwOf s w).get i.rb)) fun s _ => (Slice0.iss s w i).quiet s
      | some k => penRec (Slice0.iss s w i) (Slice0.issued s w i) k 0
          (.undo (localAddr s w i) (s.readMem (depotAt w.c.ch w.c.cl (localAddr s w i)) i.width)) fun t =>
          localStore t (Slice0.iss s w i) (localAddr s w i)
            (dBytes i.width ((Slice0.stwOf s w).get i.rb)) fun s _ => (Slice0.iss s w i).quiet s) := by
  rw [exec_of_issues (c := .sStl w) h hm rfl]
  dsimp only
  rw [local_eq]
  refine congrArg Host.Outcome.next ((localCheck_of_inside _ hal hend).trans ?_)
  have hgo : localWaits (Slice0.issued s w i) (Slice0.iss s w i) (localAddr s w i) i.width ≠ true := by
    have hgate' : gateWr (Slice0.issued s w i) (Slice0.iss s w i).ch (Slice0.iss s w i).c = true := hgate
    rw [localWaits, hgate', hdue]
    decide
  refine (if_neg (ne_true_of_eq_false hask)).trans ((if_neg hgo).trans ?_)
  rw [show (Slice0.issued s w i).readMem _ _ = _ from readMem_issued ..]
  rfl

/-- What a local store that is performed leaves in memory. -/
theorem byteAt_stored_finish (t : State) (w : StwId) (a rd v : Nat) (bs : List DByte) (hmem : t.mem = s.mem) :
    (∀ j, (h : j < bs.length) →
      (stwFinish (stored t w a bs) w.c.ch w.c.cl w.w rd v).byteAt (depotAt w.c.ch w.c.cl a + j) = (bs[j]).1) ∧
    ∀ b, (b < depotAt w.c.ch w.c.cl a ∨ depotAt w.c.ch w.c.cl a + bs.length ≤ b) →
      (stwFinish (stored t w a bs) w.c.ch w.c.cl w.w rd v).byteAt b = s.byteAt b := by
  have hfin (b : Nat) : (stwFinish (stored t w a bs) w.c.ch w.c.cl w.w rd v).byteAt b = (stored t w a bs).byteAt b :=
    (regsOnly_stwFinish ..).1 b
  refine ⟨fun j hj => ?_, fun b hb => ?_⟩
  · rw [hfin, byteAt_stored_same t w a j _ hj]
  · rw [hfin, byteAt_stored_other t w a b _ hb, State.byteAt, hmem, State.byteAt]

/-- The same of a store of the low bytes of a register. -/
theorem byteAt_stored_word (t : State) (w : StwId) (a n rd v : Nat) (x : Word) (hmem : t.mem = s.mem) :
    (∀ j, j < n → (stwFinish (stored t w a (dBytes n x.toNat)) w.c.ch w.c.cl w.w rd v).byteAt (depotAt w.c.ch w.c.cl a + j) =
      (x >>> (8 * j)).setWidth 8) ∧
    ∀ b, (b < depotAt w.c.ch w.c.cl a ∨ depotAt w.c.ch w.c.cl a + n ≤ b) →
      (stwFinish (stored t w a (dBytes n x.toNat)) w.c.ch w.c.cl w.w rd v).byteAt b = s.byteAt b := by
  obtain ⟨hin, hout⟩ := byteAt_stored_finish t w a rd v (dBytes n x.toNat) hmem
  refine ⟨fun j hj => ?_, fun b hb => hout b (by rwa [length_dBytes])⟩
  have hlt : j < (dBytes n x.toNat).length := by rwa [length_dBytes]
  rw [hin j hlt, getElem_dBytes x hlt]

end Access

/-- Settles O42: a load reads, and a store writes, the bytes of its width; a store under a take is logged first. -/
theorem stewardLocalMemory : Obligations.StewardLocalMemory := by
  intro s w i h ch c x t a p stored' hal hend hdue hcopy
  have hrb : x.get i.rb = (Slice0.xreg s w i.rb).toNat := (toNat_xreg ..).symm
  have hcopy' : depotCopies t ch c a (dBytes i.width (x.get i.rb)).length = false := by rwa [length_dBytes]
  refine ⟨fun hm hclean => ?load, fun hm htake hask hgate hguard => ?store, fun k hm htake hask hopen hroom hgate hguard => ?logged⟩
  case load =>
    refine ⟨_, exec_sLdl_inside h hm hal hend hdue hcopy hclean, ?_, regsOnly_done ..⟩
    rw [← dNat_readMem]
    exact retired_done ..
  case store =>
    have hstore := localStore_of_free (s := s) (i := i) (fun u _ => (Slice0.iss s w i).quiet u)
      (BitVec.isLt _) hcopy' hask (by rwa [length_dBytes])
    refine ⟨stwFinish (stored t w a (dBytes i.width (x.get i.rb))) ch c w.w 0 0, ?_,
      retired_stored (same_issued s w i) (ilen_issued s w i) _ _ 0 0, ?_⟩
    · rw [exec_sStl_inside h hm hal hend hdue hask hgate, htake]
      exact congrArg Host.Outcome.next hstore
    · rw [hrb]
      exact byteAt_stored_word t w a i.width 0 0 _ (mem_issued ..)
  case logged =>
    obtain ⟨hmem, hmons, hfcs⟩ := penPut_keeps t ch c k (.undo a (s.readMem p i.width))
    have hstore := localStore_of_kept (u := penPut t ch c k (.undo a (s.readMem p i.width))) (fun u _ => (Slice0.iss s w i).quiet u)
      (BitVec.isLt _) hcopy' hask (by rwa [length_dBytes]) hmons hfcs fun _ => reg_penPut t w.c k _
    refine ⟨stwFinish (stored (penPut t ch c k (.undo a (s.readMem p i.width))) w a (dBytes i.width (x.get i.rb))) ch c w.w 0 0,
      ?_, retired_stored ?_ ?_ _ _ 0 0, ?_, ?_⟩
    · rw [exec_sStl_inside h hm hal hend hdue hask hgate, htake]
      exact congrArg Host.Outcome.next ((penRec_issued 0 _ _ hopen hroom).trans hstore)
    · rw [stwOf_penPut]
      exact same_issued s w i
    · rw [stwOf_penPut]
      exact ilen_issued s w i
    · rw [hrb]
      exact byteAt_stored_word _ w a i.width 0 0 _ (hmem.trans (mem_issued ..))
    · rw [pen_stwFinish, pen_stored, pen_penPut, pen_issued]

end Sys2Proof.Machine


/-! Global loads, stores and messages of a steward (R125, R126, R131, R134, R226, R231): what becomes a request, what goes to the
pen, and what a request gives back. -/

namespace Sys2Proof.Machine

/-! ### Global accesses (R125, R126) -/

section Global

variable {s t : State} {w : StwId} {i : SIns}

/-- Sum of a register and the immediate, on 64 bits. -/
def globalAddr (s : State) (w : StwId) (i : SIns) : Nat := (Slice0.xreg s w i.ra + BitVec.ofInt 64 i.imm).toNat

theorem tga_eq (s : State) (w : StwId) (i : SIns) : (Slice0.iss s w i).tga = globalAddr s w i := by
  have hra : (Slice0.iss s w i).a = (Slice0.xreg s w i.ra).toNat := (toNat_xreg ..).symm
  rw [Iss.tga, uint_eq_toNat_ofInt, globalAddr, hra, BitVec.ofInt_add, BitVec.ofInt_natCast, ofNat_toNat_word]
  rfl

theorem id_iss (s : State) (w : StwId) (i : SIns) : (Slice0.iss s w i).id = w := by
  obtain ⟨⟨ch, c⟩, k⟩ := w
  simp [Iss.id, Slice0.iss]

/-- The request of a global load. -/
def loadReq (t : State) (w : StwId) (rd a n : Nat) : Req :=
  { ret := .load (stwNo w.c.cl w.w) rd, fn := stwFn t w.c.ch w.c.cl w.w, epoch := epochOf t w.c.ch, cl := w.c.cl, tga := a,
    op := .read n, cls := if isOwn t w.c.ch a then 0 else 2, place := .table }

/-- A global load that its checks allow, under no take. -/
theorem globalLoad_of_allowed {a n : Nat} (htake : (Slice0.stwOf s w).take = none) (hal : a % n = 0)
    (hcode : accessCode t w.c.ch (stwFn t w.c.ch w.c.cl w.w) false a n = 0) :
    globalLoad (Slice0.iss s w i) t a n =
      if ownCtl t w.c.ch a then stwFinish (ctlLoad t w w.c.ch a n).1 w.c.ch w.c.cl w.w i.rd (ctlLoad t w w.c.ch a n).2
      else stwStall (issueReq t w.c.ch (loadReq t w i.rd a n)) w.c.ch w.c.cl w.w .load := by
  have hpen : ¬ (Slice0.iss s w i).x.take.any (fun k => penOverlap t (Slice0.iss s w i) k a n) = true := by
    rw [show (Slice0.iss s w i).x.take = none from htake]
    exact Bool.false_ne_true
  refine (if_neg (not_not_intro hal)).trans ((if_neg hpen).trans ((if_neg (not_not_intro hcode)).trans ?_))
  rw [id_iss]
  rfl

theorem exec_sLdg_of_issues (h : Slice0.Issues s w i) (hm : i.mn = .ldg) : exec (.sLdg w) s =
    .next (globalLoad (Slice0.iss s w i) (Slice0.issued s w i) (globalAddr s w i) i.width) := by
  rw [exec_of_issues (c := .sLdg w) h hm rfl, tga_eq]
  rfl

/-- An aligned STG: posted, or placed in the pen under a take. -/
theorem exec_sStg_of_aligned (h : Slice0.Issues s w i) (hm : i.mn = .stg) (hal : globalAddr s w i % i.width = 0) :
    exec (.sStg w) s = .next (match (Slice0.stwOf s w).take with
      | some k => penRec (Slice0.iss s w i) (Slice0.issued s w i) k 0
          (.store w.w (globalAddr s w i) (dBytes i.width ((Slice0.stwOf s w).get i.rb))) fun t => (Slice0.iss s w i).quiet t
      | none =>
        if storeWaits (Slice0.issued s w i) w.c.ch w.c.cl w.w (globalAddr s w i) then
          stwStall (Slice0.issued s w i) w.c.ch w.c.cl w.w .none
        else postStore (stwFinish (Slice0.issued s w i) w.c.ch w.c.cl w.w 0 0) w.c.ch w.c.cl w.w (globalAddr s w i)
          (dBytes i.width ((Slice0.stwOf s w).get i.rb))) := by
  rw [exec_of_issues (c := .sStg w) h hm rfl]
  dsimp only
  rw [tga_eq]
  refine congrArg Host.Outcome.next ((if_neg (not_not_intro hal)).trans ?_)
  rfl

/-- What an instruction that placed its record in the pen leaves. -/
theorem penned_finish (s : State) (w : StwId) (i : SIns) (k : Fin 4) (r : PenRec) (rd v : Nat) :
    Slice0.Retired s (stwFinish (penPut (Slice0.issued s w i) w.c.ch w.c.cl k r) w.c.ch w.c.cl w.w rd v) w rd (BitVec.ofNat 64 v)
      (Slice0.after s w i) ∧
    ((stwFinish (penPut (Slice0.issued s w i) w.c.ch w.c.cl k r) w.c.ch w.c.cl w.w rd v).clu w.c.ch w.c.cl).pen =
      (s.clu w.c.ch w.c.cl).pen ++ [(k, r)] ∧
    ∀ b, (stwFinish (penPut (Slice0.issued s w i) w.c.ch w.c.cl k r) w.c.ch w.c.cl w.w rd v).byteAt b = s.byteAt b := by
  have hstw := stwOf_penPut (Slice0.issued s w i) w k r
  refine ⟨retired_stwFinish ?_ ?_ rd v, ?_, fun b => ?_⟩
  · rw [hstw]
    exact same_issued s w i
  · rw [hstw]
    exact ilen_issued s w i
  · rw [pen_stwFinish, pen_penPut, pen_issued]
  · rw [State.byteAt, stwFinish_mem, (penPut_keeps ..).1, mem_issued, State.byteAt]

/-! ### What comes back (R125, R126) -/

/-- The outcome of a global load of steward `n` of a channel. -/
def isLoadOf (n : Nat) : RetTo → Bool
  | .load m _ => decide (m = n)
  | _ => false

theorem exec_globalLoadReturn_of_back {r : Req} {rd : Nat}
    (hback : stwBack s w.c.ch (isLoadOf (stwNo w.c.cl w.w)) = some r)
    (hret : r.ret = .load (stwNo w.c.cl w.w) rd) (hclock : clocked s w.c.ch w.c.cl = true) (hok : codeOk r.code = true)
    (hclean : anyPsn r.data = false) :
    exec (.globalLoadReturn w) s = .next (stwFinish (dropReq s w.c.ch r.no) w.c.ch w.c.cl w.w rd (dNat r.data)) := by
  refine (show exec (.globalLoadReturn w) s = execGlobalLoadReturn w s from rfl).trans (congrArg Host.Outcome.next ?_)
  dsimp only
  split
  case h_1 hnone => exact absurd (hback.symm.trans hnone) (by simp)
  case h_2 r' hr =>
    obtain rfl : r' = r := Option.some.inj (hr.symm.trans hback)
    simp only [hret, hclock, hok, hclean, Bool.not_true, Bool.false_eq_true, if_false]

/-- The steward after an acknowledgement. -/
def ackedStw (x : Stw) : Stw := { x with posted := x.posted - 1 }

theorem sbDueRun_of_none {ch c n : Nat} (h : (s.clu ch c).sbDue = []) : sbDueRun s ch c n = s := by
  simp [sbDueRun, h]

theorem exec_postedAckReturn_of_write {r : Req} {bs : List DByte}
    (hback : stwBack s w.c.ch (fun t => decide (t = .posted (stwNo w.c.cl w.w))) = some r)
    (hclock : clocked s w.c.ch w.c.cl = true) (hop : r.op = .write bs) (hdue : (s.clu w.c.ch w.c.cl).sbDue = []) :
    exec (.postedAckReturn w) s = .next (
      if codeOk r.code then setStw (dropReq s w.c.ch r.no) w.c.ch w.c.cl w.w ackedStw
      else stwPostErr (setStw (dropReq s w.c.ch r.no) w.c.ch w.c.cl w.w ackedStw) w.c.ch w.c.cl w.w r.code) := by
  have hnone : sbDueRun (dropReq s w.c.ch r.no) w.c.ch w.c.cl w.w = dropReq s w.c.ch r.no := sbDueRun_of_none hdue
  refine (show exec (.postedAckReturn w) s = execPostedAckReturn w s from rfl).trans ?_
  simp only [execPostedAckReturn]
  rw [hback]
  simp only [hclock, hop, hnone, Bool.not_true, Bool.false_eq_true, if_false]
  rfl

end Global

/-- Settles O43: a load becomes a request and is answered, a store is posted or penned, and its acknowledgement counted. -/
theorem stewardGlobalMemory : Obligations.StewardGlobalMemory := by
  intro s w ch c x
  refine ⟨fun i h => ?instructions,
    fun r rd hback hret hclock hok hclean => exec_globalLoadReturn_of_back hback hret hclock hok hclean,
    fun r bs hback hclock hop hdue => ⟨_, exec_postedAckReturn_of_write hback hclock hop hdue, ?acked⟩⟩
  case instructions =>
    intro t a hal
    refine ⟨fun hm htake hcode hctl => ?load, fun hm htake hcode hctl => ?register, fun hm htake hwait => ?store,
      fun k hm htake hopen hroom => ?penned⟩
    case load =>
      rw [exec_sLdg_of_issues h hm]
      exact congrArg Host.Outcome.next ((globalLoad_of_allowed htake hal hcode).trans (if_neg (ne_true_of_eq_false hctl)))
    case register =>
      rw [exec_sLdg_of_issues h hm]
      exact congrArg Host.Outcome.next ((globalLoad_of_allowed htake hal hcode).trans (if_pos hctl))
    case store =>
      rw [exec_sStg_of_aligned h hm hal, htake]
      exact congrArg Host.Outcome.next (if_neg (ne_true_of_eq_false hwait))
    case penned =>
      refine ⟨_, ?_, penned_finish s w i k _ 0 0⟩
      rw [exec_sStg_of_aligned h hm hal, htake]
      exact congrArg Host.Outcome.next (penRec_issued 0 _ _ hopen hroom)
  case acked =>
    have hu := stwOf_setStw (dropReq s w.c.ch r.no) w ackedStw
    have hreqs (v : State) (hv : v.chans = (dropReq s w.c.ch r.no).chans) :
        (v.chan ch).reqs = (s.chan ch).reqs.filter fun q => !decide (q.no = r.no) := by
      rw [State.chan, hv]
      exact congrArg Chan.reqs (SMap.get_put_same ..)
    split
    · exact ⟨(congrArg Stw.posted hu :), (congrArg Stw.serr hu :), hreqs _ rfl, rfl⟩
    · have hv := stwOf_setStw (setStw (dropReq s w.c.ch r.no) w.c.ch w.c.cl w.w ackedStw) w
        fun x => { x with serr := recErr x.serr r.code }
      rw [hu] at hv
      exact ⟨(congrArg Stw.posted hv :), (congrArg Stw.serr hv :), hreqs _ rfl, rfl⟩

end Sys2Proof.Machine


/-! Messages of a steward (R131, R226, R231). -/

namespace Sys2Proof.Machine

/-! ### Sends -/

section Send

variable {s : State} {w : StwId} {i : SIns}

/-- QSND of an aligned body inside the depot that no store of the steward has to reach first. -/
theorem exec_sQsnd_inside (h : Slice0.Issues s w i) (hm : i.mn = .qsnd) (hal : (Slice0.stwOf s w).get i.rb % 2 ^ 22 % 8 = 0)
    (hend : (Slice0.stwOf s w).get i.rb % 2 ^ 22 + 8 * (i.fn % 16 + 1) ≤ 3670016)
    (hdue : ownStoreDue (Slice0.issued s w i) (Slice0.iss s w i) ((Slice0.stwOf s w).get i.rb % 2 ^ 22) (8 * (i.fn % 16 + 1)) = false)
    {body : List DByte}
    (hbody : s.readMem (depotAt w.c.ch w.c.cl ((Slice0.stwOf s w).get i.rb % 2 ^ 22)) (8 * (i.fn % 16 + 1)) = body) :
    exec (.sQsnd w) s = .next (match (Slice0.stwOf s w).take with
      | some k => penRec (Slice0.iss s w i) (Slice0.issued s w i) k i.rd
          (.send w.w ((Slice0.stwOf s w).get i.ra) (8 * (i.fn % 16 + 1) / 8) body) fun t => (Slice0.iss s w i).done t 0
      | none =>
        if sendWaits (Slice0.issued s w i) w.c.ch w.c.cl w.w then
          (if bit i.fn 4 then stwFinish (Slice0.issued s w i) w.c.ch w.c.cl w.w i.rd 1
           else stwStall (Slice0.issued s w i) w.c.ch w.c.cl w.w .qsnd)
        else postSend (stwFinish (Slice0.issued s w i) w.c.ch w.c.cl w.w i.rd 0) w.c.ch w.c.cl w.w
          ((Slice0.stwOf s w).get i.ra) body) := by
  rw [exec_of_issues (c := .sQsnd w) h hm rfl]
  refine congrArg Host.Outcome.next ((localCheck_of_inside _ hal hend).trans ((if_neg (ne_true_of_eq_false hdue)).trans ?_))
  subst hbody
  rw [← readMem_issued s w i]
  rfl

end Send

/-! ### Receives -/

section Receive

variable {s t : State} {w : StwId} {i : SIns} {q : Nat}

/-- The state in which the body of the head message is stored: the message has left its queue, and a handler of the queue has it no
more. -/
def received (t : State) (w : StwId) (q : Nat) (mine : Bool) : State :=
  setStw (dequeue t w.c.ch w.c.cl q) w.c.ch w.c.cl w.w fun x => if mine then { x with inMsg := false } else x

theorem stwOf_received (t : State) (w : StwId) (q : Nat) (mine : Bool) : ∃ b,
    Slice0.stwOf (received t w q mine) w = { Slice0.stwOf t w with inMsg := b } := by
  rw [received, stwOf_setStw, stwOf_dequeue]
  split
  · exact ⟨_, rfl⟩
  · exact ⟨_, rfl⟩

theorem reg_received (t : State) (w : StwId) {q : Nat} (hq : q < 16) (mine : Bool) (ch : Nat) (hch : ch < 4) :
    (received t w q mine).reg .CH_NFSTAT ch 0 = t.reg .CH_NFSTAT ch 0 :=
  reg_fset_other _ _ _ _ _ (by rfl)
    (place_ne _ _ _ _ _ _ (by omega) (clLoc_lt w.c) (by decide) (by omega) fun e => absurd e.1 (by decide))

theorem queue_of_clu {c : Cl} (h : t.clu c.ch c.cl = s.clu c.ch c.cl) (q : Nat) : queue t c.ch c.cl q = queue s c.ch c.cl q := by
  rw [queue, h, queue]

theorem queue_stored (t : State) (w : StwId) (a : Nat) (bs : List DByte) (q : Nat) :
    queue (stored t w a bs) w.c.ch w.c.cl q = queue t w.c.ch w.c.cl q := by
  rw [stored, queue_of_clu (clu_of_cls (storeBytes_cls ..) _ _), keepCode, queue_setStw]

theorem queue_stwFinish (s : State) (w : StwId) (rd v q : Nat) :
    queue (stwFinish s w.c.ch w.c.cl w.w rd v) w.c.ch w.c.cl q = queue s w.c.ch w.c.cl q := by
  rw [stwFinish, queue_setStw, queue_of_wakes (wakes_stwWake ..)]

theorem exec_sQrcv_of_issues (h : Slice0.Issues s w i) (hm : i.mn = .qrcv) (htake : (Slice0.stwOf s w).take = none) :
    exec (.sQrcv w) s = .next (qrcv (Slice0.iss s w i) (Slice0.issued s w i)) :=
  (exec_of_issues (c := .sQrcv w) h hm rfl).trans (congrArg Host.Outcome.next (held_of_none htake ..))

/-- QRCV of a queue that its steward may receive from: what it does depends on the messages queued. -/
theorem qrcv_of_allowed (hal : (Slice0.stwOf s w).get i.rb % 2 ^ 22 % 8 = 0)
    (hoff : qMode t w.c.ch w.c.cl (i.fn % 16) ≠ qOff)
    (hmine : qMode t w.c.ch w.c.cl (i.fn % 16) = qDispatch → (Slice0.stwOf s w).inh.map Prod.fst = some (i.fn % 16))
    (hpsn : qPsn t w.c.ch w.c.cl (i.fn % 16) = false) (hask : (Slice0.iss s w i).storing t = false) :
    qrcv (Slice0.iss s w i) t = match queue t w.c.ch w.c.cl (i.fn % 16) with
      | [] => if bit i.fn 4 then stwFinish t w.c.ch w.c.cl w.w i.rd 0 else qrcvStall (Slice0.iss s w i) t (i.fn % 16)
      | e :: _ =>
        if depotSize < (Slice0.stwOf s w).get i.rb % 2 ^ 22 + e.body.length then
          (Slice0.iss s w i).exc t i.rd kRange cNone ((Slice0.stwOf s w).get i.rb % 2 ^ 22)
        else if qrcvBehind t (Slice0.iss s w i) (i.fn % 16) then
          (if bit i.fn 4 then stwFinish t w.c.ch w.c.cl w.w i.rd 0 else qrcvStall (Slice0.iss s w i) t (i.fn % 16))
        else if localWaits t (Slice0.iss s w i) ((Slice0.stwOf s w).get i.rb % 2 ^ 22) e.body.length then
          qrcvStall (Slice0.iss s w i) t (i.fn % 16)
        else localStore (received t w (i.fn % 16) (decide ((Slice0.stwOf s w).inh.map Prod.fst = some (i.fn % 16))))
          (Slice0.iss s w i) ((Slice0.stwOf s w).get i.rb % 2 ^ 22) e.body (Slice0.iss s w i).done := by
  have hmode : ¬ (qMode t w.c.ch w.c.cl (i.fn % 16) = qOff ∨ (qMode t w.c.ch w.c.cl (i.fn % 16) = qDispatch ∧
      ¬ decide ((Slice0.stwOf s w).inh.map Prod.fst = some (i.fn % 16)) = true)) := by
    rintro (h | ⟨h, hn⟩)
    · exact hoff h
    · exact hn (decide_eq_true (hmine h))
  unfold qrcv
  refine (if_neg (ne_true_of_eq_false hask)).trans ((if_neg (not_not_intro hal)).trans ((if_neg hmode).trans
    ((if_neg (ne_true_of_eq_false hpsn)).trans ?_)))
  rfl

end Receive

/-- Settles O44: a send is posted, held in the pen, or answers that it would stall; a receive stores the head message and removes
it. -/
theorem stewardMessages : Obligations.StewardMessages := by
  intro s w i h ch c x t la n q hal
  refine ⟨fun hm hend hdue => ?send, fun hm htake hoff hmine hpsn hask => ?receive⟩
  case send =>
    have hexec := exec_sQsnd_inside h hm hal hend hdue rfl
    refine ⟨fun htake hgo => ?_, fun htake hwait hnb => ?_, fun htake hwait hnb => ?_, fun k htake hopen hroom => ?_⟩
    · rw [hexec, htake]
      exact congrArg Host.Outcome.next (if_neg (ne_true_of_eq_false hgo))
    · rw [hexec, htake]
      exact congrArg Host.Outcome.next ((if_pos hwait).trans (if_pos hnb))
    · rw [hexec, htake]
      exact congrArg Host.Outcome.next ((if_pos hwait).trans (if_neg (ne_true_of_eq_false hnb)))
    · obtain ⟨hret, hpen, -⟩ := penned_finish s w i k (.send w.w (x.get i.ra) (n / 8) (s.readMem (depotAt ch c la) n)) i.rd 0
      refine ⟨_, ?_, hret, hpen⟩
      rw [hexec, htake]
      exact congrArg Host.Outcome.next (penRec_issued i.rd _ _ hopen hroom)
  case receive =>
    have hexec := (exec_sQrcv_of_issues h hm htake).trans (congrArg Host.Outcome.next (qrcv_of_allowed hal hoff hmine hpsn hask))
    rw [queue_issued] at hexec
    refine ⟨fun e l hq hend hfirst hcopy hgate hdue hguard => ?message, fun hq hnb => ?_, fun hq hnb => ?_⟩
    case message =>
      have hgo : localWaits t (Slice0.iss s w i) la e.body.length ≠ true := by
        have hgate' : gateWr t (Slice0.iss s w i).ch (Slice0.iss s w i).c = true := hgate
        rw [localWaits, hgate', hdue]
        decide
      have hqlt : q < 16 := Nat.mod_lt _ (by decide)
      obtain ⟨mine, hmineq⟩ : ∃ b, decide (x.inh.map Prod.fst = some q) = b := ⟨_, rfl⟩
      have hstore := localStore_of_kept (u := received t w q mine) (Slice0.iss s w i).done (Nat.mod_lt _ (by decide)) hcopy
        hask hguard rfl rfl (reg_received t w hqlt mine)
      obtain ⟨b, hb⟩ := stwOf_received t w q mine
      refine ⟨stwFinish (stored (received t w q mine) w la e.body) ch c w.w i.rd e.body.length, ?_, retired_stored ?_ ?_ .., ?_,
        byteAt_stored_finish (received t w q mine) w la i.rd e.body.length e.body (mem_issued s w i)⟩
      · rw [hexec, hq]
        refine congrArg Host.Outcome.next ((if_neg (Nat.not_lt.2 hend)).trans ((if_neg (ne_true_of_eq_false hfirst)).trans
          ((if_neg hgo).trans ?_)))
        rw [hmineq]
        exact hstore
      · rw [hb]
        exact (same_issued s w i).trans ⟨rfl, rfl, rfl, rfl, rfl, rfl, rfl⟩
      · rw [hb]
        exact ilen_issued s w i
      · rw [queue_stwFinish, queue_stored, received, queue_setStw, queue_dequeue, queue_issued, hq]
        rfl
    · rw [hexec, hq]
      exact congrArg Host.Outcome.next (if_pos hnb)
    · rw [hexec, hq]
      exact congrArg Host.Outcome.next (if_neg (ne_true_of_eq_false hnb))

end Sys2Proof.Machine


/-! Dolly and sync instructions of a steward (R129, R130, R132, R246, R250). -/

namespace Sys2Proof.Machine

/-! ### Tickets and slots -/

section Dolly

variable {s : State} {w : StwId} {i : SIns}

@[simp] theorem slots_issued (s : State) (w : StwId) (i : SIns) :
    ((Slice0.issued s w i).clu w.c.ch w.c.cl).slots = (s.clu w.c.ch w.c.cl).slots := by
  obtain ⟨m, h⟩ := clu_issued s w i
  rw [h]

theorem issues_issued (s : State) (w : StwId) (i : SIns) :
    ((Slice0.issued s w i).clu w.c.ch w.c.cl).issues = (s.clu w.c.ch w.c.cl).issues := by
  obtain ⟨m, h⟩ := clu_issued s w i
  rw [h]

theorem dollyFree_issued (s : State) (w : StwId) (i : SIns) :
    dollyFree (Slice0.issued s w i) w.c.ch w.c.cl = dollyFree s w.c.ch w.c.cl := by
  rw [dollyFree, slots_issued, dollyFree]

theorem ticketSlot_issued (s : State) (w : StwId) (i : SIns) (a : Nat) :
    ticketSlot (Slice0.issued s w i) w.c.ch w.c.cl a = ticketSlot s w.c.ch w.c.cl a := by
  rw [ticketSlot, slots_issued, ticketSlot]

/-- DLY.ISSUE of an aligned descriptor inside the depot. -/
theorem exec_sDlyIssue_inside (h : Slice0.Issues s w i) (hm : i.mn = .dlyIssue)
    (hal : (Slice0.stwOf s w).get i.ra % 2 ^ 22 % 32 = 0) (hend : (Slice0.stwOf s w).get i.ra % 2 ^ 22 + 32 ≤ 3670016) :
    exec (.sDlyIssue w) s = .next (
      if tieLost (Slice0.issued s w i) (Slice0.iss s w i) then stwStall (Slice0.issued s w i) w.c.ch w.c.cl w.w .dolly
      else match dollyFree s w.c.ch w.c.cl with
        | [] => stwStall (Slice0.issued s w i) w.c.ch w.c.cl w.w .dolly
        | n :: _ => stwFinish (slotNew (Slice0.issued s w i) (Slice0.iss s w i) ((Slice0.stwOf s w).get i.ra % 2 ^ 22) n)
            w.c.ch w.c.cl w.w i.rd (n + (s.clu w.c.ch w.c.cl).issues % 2 ^ 16 * 2 ^ 16)) := by
  rw [exec_of_issues (c := .sDlyIssue w) h hm rfl, ← dollyFree_issued s w i, ← issues_issued s w i]
  exact congrArg Host.Outcome.next (localCheck_of_inside _ hal hend)

/-- DLY.WAIT and DLY.POLL present a ticket. -/
theorem exec_ticket (h : Slice0.Issues s w i) (hm : i.mn = .dlyWait ∨ i.mn = .dlyPoll) : ∃ late,
    exec (Slice0.stwCommand i.mn w) s = .next (ticketGive (Slice0.iss s w i) (Slice0.issued s w i) late) := by
  rcases hm with hm | hm
  · exact ⟨_, exec_command_of_issues h hm rfl⟩
  · exact ⟨_, exec_command_of_issues h hm rfl⟩

theorem ticketGive_of_slot {d : DSlot} (late : State → State)
    (hslot : ticketSlot s w.c.ch w.c.cl ((Slice0.stwOf s w).get i.ra) = some d) :
    ticketGive (Slice0.iss s w i) (Slice0.issued s w i) late =
      if d.complete then stwFinish ((Slice0.issued s w i).setClu w.c.ch w.c.cl fun k =>
        { k with slots := SMap.erase k.slots ((Slice0.stwOf s w).get i.ra % 64) }) w.c.ch w.c.cl w.w i.rd (d.code.getD cNone)
      else late (Slice0.issued s w i) := by
  have hslot' : ticketSlot (Slice0.issued s w i) (Slice0.iss s w i).ch (Slice0.iss s w i).c (Slice0.iss s w i).a = some d :=
    (ticketSlot_issued ..).trans hslot
  rw [ticketGive, hslot']
  rfl

theorem ticketGive_of_none (late : State → State) (hslot : ticketSlot s w.c.ch w.c.cl ((Slice0.stwOf s w).get i.ra) = none) :
    ticketGive (Slice0.iss s w i) (Slice0.issued s w i) late =
      stwExc (Slice0.issued s w i) w.c.ch w.c.cl w.w i.rd kTicket cNone ((Slice0.stwOf s w).get i.ra) := by
  have hslot' : ticketSlot (Slice0.issued s w i) (Slice0.iss s w i).ch (Slice0.iss s w i).c (Slice0.iss s w i).a = none :=
    (ticketSlot_issued ..).trans hslot
  rw [ticketGive, hslot']
  rfl

end Dolly

/-- Settles O45: a descriptor takes the lowest free slot, and its ticket collects it, waits for it, or traps. -/
theorem stewardDollyInstructions : Obligations.StewardDollyInstructions := by
  intro s w i h ch c x t u free a
  refine ⟨fun n l hm hal hend hfree htie => ?issued, fun hm hal hend hfree => ?full, fun d hm hslot hdone => ?collected,
    fun d hslot hdone => ⟨fun hm => ?waits, fun hm => ?polls⟩, fun hm hslot htake hin => ?trap⟩
  case issued =>
    have hfree' : dollyFree s w.c.ch w.c.cl = n :: l := hfree
    rw [exec_sDlyIssue_inside h hm hal hend, hfree']
    exact congrArg Host.Outcome.next (if_neg (ne_true_of_eq_false htie))
  case full =>
    have hfree' : dollyFree s w.c.ch w.c.cl = [] := hfree
    rw [exec_sDlyIssue_inside h hm hal hend, hfree']
    exact congrArg Host.Outcome.next (ite_self _)
  case collected =>
    obtain ⟨late, hexec⟩ := exec_ticket h hm
    rw [hexec, ticketGive_of_slot late hslot]
    exact congrArg Host.Outcome.next (if_pos hdone)
  case waits =>
    rw [exec_of_issues (c := .sDlyWait w) h hm rfl, ticketGive_of_slot _ hslot]
    exact congrArg Host.Outcome.next (if_neg (ne_true_of_eq_false hdone))
  case polls =>
    rw [exec_of_issues (c := .sDlyPoll w) h hm rfl, ticketGive_of_slot _ hslot]
    exact congrArg Host.Outcome.next (if_neg (ne_true_of_eq_false hdone))
  case trap =>
    obtain ⟨late, hexec⟩ := exec_ticket h hm
    rw [hexec, ticketGive_of_none late hslot]
    exact ⟨_, rfl, trapped_exc_here htake hin _ _ _ (by decide) (by decide)⟩

/-! ### Sync objects -/

section Sync

variable {s t : State} {w : StwId} {i : SIns}

/-- Destination of a sync instruction. -/
def syncDest (i : SIns) : Nat := if i.mn = .syncRd ∨ i.mn = .syncWge then i.rd else 0

/-- What a sync instruction asks of its object: BAR.ARW whose arrival is counted only registers (R142, R250). -/
def syncAsked (x : Stw) (i : SIns) : SOp × Nat × Bool :=
  if i.mn = .barArw ∧ x.arvDone = true then (.wait, 0, false) else Slice0.syncOp i.mn (x.get i.rb)

/-- What it then waits for. -/
def syncWhy : SMn → Wait
  | .syncRd => .reply
  | .syncWge => .syncWge
  | _ => .barrier

def syncFresh (x : Stw) : SMn → SyncWait
  | .syncRd | .syncWge => freshWait false false false
  | .barArw => freshWait true true x.arvDone
  | _ => freshWait true false false

/-- A sync instruction as what it asks, and whether it goes on. -/
def syncAct (x : Stw) (u : Iss) (t : State) : State :=
  if (syncAsked x u.i).2.2 then syncPosted u t (syncAsked x u.i).1 (syncAsked x u.i).2.1
  else syncWait u t (syncDest u.i) (syncAsked x u.i).1 (syncAsked x u.i).2.1 (syncWhy u.i.mn) (syncFresh x u.i.mn)

theorem exec_sync (h : Slice0.Issues s w i)
    (hm : i.mn ∈ [SMn.syncRd, .syncAdd, .syncSet, .syncWge, .barArv, .barWait, .barArw]) :
    exec (Slice0.stwCommand i.mn w) s = .next (syncAct (Slice0.stwOf s w) (Slice0.iss s w i) (Slice0.issued s w i)) := by
  have hi : (Slice0.iss s w i).i = i := rfl
  have hb : (Slice0.iss s w i).b = (Slice0.stwOf s w).get i.rb := rfl
  have hx : (Slice0.iss s w i).x = Slice0.stwOf s w := rfl
  simp only [List.mem_cons, List.not_mem_nil, or_false] at hm
  rcases hm with hm | hm | hm | hm | hm | hm | hm
  case inr.inr.inr.inr.inr.inr =>
    rw [exec_command_of_issues h hm rfl]
    cases hdone : (Slice0.stwOf s w).arvDone <;>
      simp [syncAct, syncAsked, Slice0.syncOp, syncDest, syncWhy, syncFresh, hi, hx, hm, hdone]
  all_goals
    rw [exec_command_of_issues h hm rfl]
    simp [syncAct, syncAsked, Slice0.syncOp, syncDest, syncWhy, syncFresh, hi, hb, hm]

/-- An object that the steward may name. -/
theorem syncCheck_of_named (htake : (Slice0.stwOf s w).take = none) (hspace : tgaSpace ((Slice0.stwOf s w).get i.ra) = 2)
    (hcode : syncCode t w.c.ch (stwFn t w.c.ch w.c.cl w.w) ((Slice0.stwOf s w).get i.ra) = 0) (rd : Nat) (posted : Bool)
    (f : State → State) : syncCheck (Slice0.iss s w i) t rd posted f = f t :=
  (held_of_none htake ..).trans ((if_neg (not_not_intro hspace)).trans (if_pos hcode))

/-- A TGA of another space. -/
theorem syncCheck_of_elsewhere (htake : (Slice0.stwOf s w).take = none) (hspace : tgaSpace ((Slice0.stwOf s w).get i.ra) ≠ 2)
    (rd : Nat) (posted : Bool) (f : State → State) : syncCheck (Slice0.iss s w i) t rd posted f =
      stwExc t w.c.ch w.c.cl w.w rd kRange cNone ((Slice0.stwOf s w).get i.ra) :=
  (held_of_none htake ..).trans (if_pos hspace)

/-- Every sync instruction checks its object first. -/
theorem syncAct_checked (x : Stw) (u : Iss) (t : State) : ∃ posted f,
    syncAct x u t = syncCheck u t (if (syncAsked x u.i).2.2 then 0 else syncDest u.i) posted f := by
  unfold syncAct
  split
  · exact ⟨_, _, rfl⟩
  · exact ⟨_, _, rfl⟩

theorem stwOf_issueReq (t : State) (ch : Nat) (r : Req) (w : StwId) : Slice0.stwOf (issueReq t ch r) w = Slice0.stwOf t w :=
  rfl

/-- What a steward that waits for its object is. -/
def syncStalled (why : Wait) (q : SyncWait) (x : Stw) : Stw :=
  { x with st := wStalled, wait := why, swait := some q, arvDone := x.arvDone && !q.reg }

/-- A wait of which the object and the destination are filled in. -/
theorem syncWait_of_named (htake : (Slice0.stwOf s w).take = none) (hspace : tgaSpace ((Slice0.stwOf s w).get i.ra) = 2)
    (hcode : syncCode t w.c.ch (stwFn t w.c.ch w.c.cl w.w) ((Slice0.stwOf s w).get i.ra) = 0) (rd : Nat) (op : SOp) (n : Nat)
    (why : Wait) (q : SyncWait) : ∃ p, p.reg = q.reg ∧ syncWait (Slice0.iss s w i) t rd op n why q =
      setStw (issueReq t w.c.ch (syncReq t (Slice0.iss s w i) (.sync (stwNo w.c.cl w.w)) op n)) w.c.ch w.c.cl w.w
        (syncStalled why p) := by
  refine ⟨{ q with
    obj := bits ((Slice0.stwOf s w).get i.ra) 3 16, ch := tgaCh ((Slice0.stwOf s w).get i.ra),
    remote := !isOwn t w.c.ch ((Slice0.stwOf s w).get i.ra), rd := rd, tga := (Slice0.stwOf s w).get i.ra }, rfl, ?_⟩
  refine (syncCheck_of_named htake hspace hcode rd false _).trans ?_
  exact setStw_setStw _ _ _ _ (fun x => { x with st := wStalled, wait := why }) _

end Sync

/-- Settles O46: the operation goes to the object's bank and the steward goes on or waits; another space traps. -/
theorem stewardSyncInstructions : Obligations.StewardSyncInstructions := by
  intro s w i h htake hm ch c x t u o
  refine ⟨fun hspace hcode => ⟨fun hgo => ?posted, fun hstay hfresh => ?waits, fun harw hdone => ?registers⟩, fun hspace hin => ?trap⟩
  case posted =>
    have hasked : syncAsked x i = o := if_neg fun e => by simp [o, Slice0.syncOp, e.1] at hgo
    rw [exec_sync h hm]
    refine congrArg Host.Outcome.next ?_
    rw [syncAct, show syncAsked x (Slice0.iss s w i).i = o from hasked, if_pos hgo]
    exact syncCheck_of_named htake hspace hcode ..
  case waits =>
    have hasked : syncAsked x i = o := if_neg fun e => by simp [hfresh e.1] at e
    obtain ⟨p, -, hwait⟩ := syncWait_of_named (t := t) htake hspace hcode (syncDest i) o.1 o.2.1 (syncWhy i.mn) (syncFresh x i.mn)
    have hact : syncAct x u t = setStw (issueReq t ch (syncReq t u (.sync (stwNo c w.w)) o.1 o.2.1)) ch c w.w
        (syncStalled (syncWhy i.mn) p) := by
      rw [syncAct, show syncAsked x u.i = o from hasked, if_neg (ne_true_of_eq_false hstay)]
      exact hwait
    have hv := stwOf_setStw (issueReq t ch (syncReq t u (.sync (stwNo c w.w)) o.1 o.2.1)) w (syncStalled (syncWhy i.mn) p)
    rw [stwOf_issueReq, stwOf_issued] at hv
    refine ⟨_, (exec_sync h hm).trans (congrArg Host.Outcome.next hact), rfl, (congrArg Stw.st hv :), (congrArg Stw.pc hv :),
      xreg_of_scalars ((congrArg Stw.x hv :)), mem_issued s w i⟩
  case registers =>
    have hasked : syncAsked x i = (.wait, 0, false) := if_pos ⟨harw, hdone⟩
    have hfresh : syncFresh x i.mn = freshWait true true true := by
      rw [harw, syncFresh, hdone]
    obtain ⟨p, hreg, hwait⟩ := syncWait_of_named (t := t) htake hspace hcode (syncDest i) .wait 0 (syncWhy i.mn)
      (syncFresh x i.mn)
    have hact : syncAct x u t = setStw (issueReq t ch (syncReq t u (.sync (stwNo c w.w)) .wait 0)) ch c w.w
        (syncStalled (syncWhy i.mn) p) := by
      rw [syncAct, show syncAsked x u.i = (.wait, 0, false) from hasked]
      exact hwait
    have hv := stwOf_setStw (issueReq t ch (syncReq t u (.sync (stwNo c w.w)) .wait 0)) w (syncStalled (syncWhy i.mn) p)
    rw [stwOf_issueReq, stwOf_issued] at hv
    refine ⟨setStw (issueReq t ch (syncReq t u (.sync (stwNo c w.w)) .wait 0)) ch c w.w (syncStalled (syncWhy i.mn) p), ?_, rfl,
      (congrArg Stw.st hv :), ?_, mem_issued s w i⟩
    · have hexec := exec_sync h hm
      rw [harw] at hexec
      exact hexec.trans (congrArg Host.Outcome.next hact)
    · have hagain : p.reg = true := by
        rw [hreg, hfresh]
        rfl
      exact (congrArg Stw.arvDone hv).trans ((congrArg (fun b => x.arvDone && !b) hagain).trans (Bool.and_false _))
  case trap =>
    obtain ⟨posted, f, hact⟩ := syncAct_checked x u t
    refine ⟨_, (exec_sync h hm).trans (congrArg Host.Outcome.next (hact.trans (syncCheck_of_elsewhere htake hspace ..))), ?_⟩
    exact trapped_exc_here htake hin _ _ _ (by decide) (by decide)

end Sys2Proof.Machine


/-! Seal instructions of a steward (R135, R314, R317, R328). -/

namespace Sys2Proof.Machine

section SealUnit

variable {s : State} {w : StwId} {i : SIns}

theorem chans_issued (s : State) (w : StwId) (i : SIns) : (Slice0.issued s w i).chans = s.chans := by
  obtain ⟨-, -, -, hchans, -⟩ := regsOnly_issued s w i
  exact hchans

theorem seal_issued (s : State) (w : StwId) (i : SIns) (ch : Nat) : (Slice0.issued s w i).seal ch = s.seal ch := by
  obtain ⟨-, -, -, -, hseals, -⟩ := regsOnly_issued s w i
  rw [State.seal, hseals, State.seal]

theorem sealFree_issued (s : State) (w : StwId) (i : SIns) (ch : Nat) : sealFree (Slice0.issued s w i) ch = sealFree s ch := by
  rw [sealFree, seal_issued, sealFree]

theorem accessLeft_issued (s : State) (w : StwId) (i : SIns) (ch n : Nat) :
    accessLeft (Slice0.issued s w i) ch n = accessLeft s ch n := by
  rw [accessLeft, State.chan, chans_issued, accessLeft, State.chan]

/-- A Seal instruction under no take acts where a Seal unit is in service. -/
theorem sealRow_of_issues (h : Slice0.Issues s w i) {m : SMn} (hm : i.mn = m) (htake : (Slice0.stwOf s w).take = none)
    (hlive : (Slice0.issued s w i).fbit Fld.CH_CAPS_SEAL_LIVE w.c.ch = true) (rd : Bool) (f : Iss → State → State) :
    sealRow w s m rd f = f (Slice0.iss s w i) (Slice0.issued s w i) := by
  have hdead : ¬ (!(Slice0.issued s w i).fbit Fld.CH_CAPS_SEAL_LIVE (Slice0.iss s w i).ch) = true := by
    rw [show (Slice0.issued s w i).fbit Fld.CH_CAPS_SEAL_LIVE (Slice0.iss s w i).ch = true from hlive]
    decide
  rw [sealRow, stwRow_of_issues h hm]
  exact (if_neg hdead).trans (held_of_none htake ..)

/-- The state after a Seal instruction, once its command is known to be its row. -/
theorem exec_seal_of_issues (h : Slice0.Issues s w i) {m : SMn} (hm : i.mn = m) (htake : (Slice0.stwOf s w).take = none)
    (hlive : (Slice0.issued s w i).fbit Fld.CH_CAPS_SEAL_LIVE w.c.ch = true) {c : Instr} {rd : Bool} {f : Iss → State → State}
    (hc : exec c s = .next (sealRow w s m rd f)) : exec c s = .next (f (Slice0.iss s w i) (Slice0.issued s w i)) := by
  rw [hc, sealRow_of_issues h hm htake hlive]

/-- SEAL.WAIT and SEAL.POLL present a ticket. -/
theorem exec_seal_ticket (h : Slice0.Issues s w i) (hm : i.mn = .sealWait ∨ i.mn = .sealPoll)
    (htake : (Slice0.stwOf s w).take = none) (hlive : (Slice0.issued s w i).fbit Fld.CH_CAPS_SEAL_LIVE w.c.ch = true) : ∃ late,
    exec (Slice0.stwCommand i.mn w) s = .next (sealGive (Slice0.iss s w i) (Slice0.issued s w i) late) := by
  rcases hm with hm | hm
  · rw [hm]
    exact ⟨_, exec_seal_of_issues (c := .sSealWait w) h hm htake hlive rfl⟩
  · rw [hm]
    exact ⟨_, exec_seal_of_issues (c := .sSealPoll w) h hm htake hlive rfl⟩

theorem sealGive_of_held {e : SealEnt} (late : State → State)
    (hheld : sealHeld (Slice0.issued s w i) (Slice0.iss s w i) = some e) :
    sealGive (Slice0.iss s w i) (Slice0.issued s w i) late =
      if e.done then stwFinish ((Slice0.issued s w i).setSeal w.c.ch fun y =>
        { y with ents := SMap.erase y.ents ((Slice0.stwOf s w).get i.ra % 16) }) w.c.ch w.c.cl w.w i.rd e.code
      else late (Slice0.issued s w i) := by
  rw [sealGive, hheld]
  rfl

end SealUnit

/-- Settles O47: a submission takes the lowest free entry, a ticket collects its convoy or waits, SEAL.HDR loads. -/
theorem stewardSealInstructions : Obligations.StewardSealInstructions := by
  intro s w i h htake ch c x t u a hlive
  refine ⟨fun n hfree hm hleft => ?convoy, fun n hfree hm => ?context, fun e hheld hdone hm => ?collected,
    fun e hheld hdone => ⟨fun hm => ?waits, fun hm => ?polls⟩, fun hm hal hcode hctl => ?header⟩
  case convoy =>
    have hfree' : sealFree t ch = some n := (sealFree_issued ..).trans hfree
    have hleft' : accessLeft t ch (stwNo c w.w) = false := (accessLeft_issued ..).trans hleft
    rw [exec_seal_of_issues (c := .sSealConvoy w) h hm htake hlive rfl]
    refine congrArg Host.Outcome.next ((if_neg (ne_true_of_eq_false hleft')).trans ?_)
    rw [show sealFree (Slice0.issued s w i) (Slice0.iss s w i).ch = some n from hfree', ← seal_issued s w i]
    rfl
  case context =>
    have hfree' : sealFree t ch = some n := (sealFree_issued ..).trans hfree
    rw [exec_seal_of_issues (c := .sSealCtx w) h hm htake hlive rfl]
    refine congrArg Host.Outcome.next ?_
    rw [show sealFree (Slice0.issued s w i) (Slice0.iss s w i).ch = some n from hfree']
    rfl
  case collected =>
    obtain ⟨late, hexec⟩ := exec_seal_ticket h hm htake hlive
    rw [hexec, sealGive_of_held late hheld]
    exact congrArg Host.Outcome.next (if_pos hdone)
  case waits =>
    rw [exec_seal_of_issues (c := .sSealWait w) h hm htake hlive rfl, sealGive_of_held _ hheld]
    exact congrArg Host.Outcome.next (if_neg (ne_true_of_eq_false hdone))
  case polls =>
    rw [exec_seal_of_issues (c := .sSealPoll w) h hm htake hlive rfl, sealGive_of_held _ hheld]
    exact congrArg Host.Outcome.next (if_neg (ne_true_of_eq_false hdone))
  case header =>
    rw [exec_seal_of_issues (c := .sSealHdr w) h hm htake hlive rfl]
    exact congrArg Host.Outcome.next ((globalLoad_of_allowed htake hal hcode).trans (if_neg (ne_true_of_eq_false hctl)))

end Sys2Proof.Machine


/-! Instructions and exceptions deferred under a take (R134, Table 6-11), and writes to `s0` (R122). -/

namespace Sys2Proof.Machine

/-! ### A deferral against a slot -/

section Defer

variable {s t : State} {w : StwId} {i : SIns} {k : Fin 4}

/-- A deferral changes the slot's record only. -/
theorem deferRec_keeps (t : State) (ch c k : Nat) (r : DefRec) : ∃ m,
    (deferRec t ch c k r).clu ch c = { t.clu ch c with take := m } ∧
    (deferRec t ch c k r).chans = t.chans ∧ (deferRec t ch c k r).tiles = t.tiles := by
  unfold deferRec
  split
  · exact ⟨_, clu_setClu_same .., rfl, rfl⟩
  · exact ⟨_, rfl, rfl, rfl⟩

theorem stwOf_deferRec (t : State) (w : StwId) (k : Nat) (r : DefRec) :
    Slice0.stwOf (deferRec t w.c.ch w.c.cl k r) w = Slice0.stwOf t w := by
  obtain ⟨m, hclu, -, -⟩ := deferRec_keeps t w.c.ch w.c.cl k r
  rw [Slice0.stwOf, State.stw, hclu]
  rfl

/-- The first deferred exception of an open slot is recorded (R285). -/
theorem rec_deferRec (t : State) (ch c k : Nat) (r : DefRec) : (takeSlot (deferRec t ch c k r) ch c k).rec? =
    if takeOpen t ch c k = true ∧ (takeSlot t ch c k).rec? = none then some r else (takeSlot t ch c k).rec? := by
  have hcond : (takeOpen t ch c k && (takeSlot t ch c k).rec?.isNone) = true ↔
      takeOpen t ch c k = true ∧ (takeSlot t ch c k).rec? = none := by
    rw [Bool.and_eq_true, Option.isNone_iff_eq_none]
  unfold deferRec
  by_cases hgo : takeOpen t ch c k = true ∧ (takeSlot t ch c k).rec? = none
  · rw [if_pos (hcond.2 hgo), if_pos hgo, takeSlot, setTake, clu_setClu_same, SMap.get_put_same]
  · rw [if_neg (mt hcond.1 hgo), if_neg hgo]

theorem clu_stwFinish (s : State) (ch c n rd v : Nat) : ∃ m, (stwFinish s ch c n rd v).clu ch c = { s.clu ch c with stws := m } := by
  rw [stwFinish, clu_setStw_same, clu_of_cls (cls_of_wakes (wakes_stwWake ..))]
  exact ⟨_, rfl⟩

@[simp] theorem takeSlot_stwFinish (s : State) (ch c n rd v m : Nat) :
    takeSlot (stwFinish s ch c n rd v) ch c m = takeSlot s ch c m := by
  obtain ⟨x, h⟩ := clu_stwFinish s ch c n rd v
  rw [takeSlot, h]
  rfl

/-- An instruction that issued under a slot and is deferred against it. -/
theorem deferred_stwDefer (s : State) (w : StwId) (i : SIns) (k : Fin 4) (rd kind code : Nat) :
    Slice0.Deferred s (stwDefer (Slice0.issued s w i) w.c.ch w.c.cl w.w k rd kind code) w i k rd kind code := by
  have hpc : ((Slice0.issued s w i).stw w.c.ch w.c.cl w.w).pc = (Slice0.stwOf s w).pc :=
    (congrArg Stw.pc (stwOf_issued s w i) :)
  obtain ⟨-, -, htiles, hchans, -⟩ := regsOnly_issued s w i
  rw [stwDefer, hpc]
  generalize hr : ({ code := code, kind := kind, pc := (Slice0.stwOf s w).pc } : DefRec) = r
  obtain ⟨m, -, hchans', htiles'⟩ := deferRec_keeps (Slice0.issued s w i) w.c.ch w.c.cl k r
  obtain ⟨-, -, htiles'', hchans'', -⟩ := regsOnly_stwFinish (deferRec (Slice0.issued s w i) w.c.ch w.c.cl k r) w rd 0
  have hstw := stwOf_deferRec (Slice0.issued s w i) w k r
  refine ⟨retired_stwFinish ?_ ?_ rd 0, ?_, hchans''.trans (hchans'.trans hchans), htiles''.trans (htiles'.trans htiles), ?_⟩
  · rw [hstw]
    exact same_issued s w i
  · rw [hstw]
    exact ilen_issued s w i
  · rw [stwFinish_mem, deferRec_mem, mem_issued]
  · rw [takeSlot_stwFinish, rec_deferRec, takeOpen_issued, takeSlot_issued, hr]

/-- Under a take an instruction that may not run ahead is deferred. -/
theorem held_of_some (htake : (Slice0.stwOf s w).take = some k) (rd : Nat) (f : State → State) (t : State) :
    (Slice0.iss s w i).held t rd f = stwDefer t w.c.ch w.c.cl w.w k rd kAccess cTakeDeferred := by
  have hx : (Slice0.iss s w i).x.take = some k := htake
  simp only [Iss.held, hx]
  rfl

/-- So is an exception of a kind that Table 6-11 names. -/
theorem stwExc_of_some (htake : (Slice0.stwOf s w).take = some k) {kind : Nat} (hkind : (2 ≤ kind ∧ kind ≤ 6) ∨ kind = kTicket)
    (rd code detail : Nat) : stwExc (Slice0.issued s w i) w.c.ch w.c.cl w.w rd kind code detail =
      stwDefer (Slice0.issued s w i) w.c.ch w.c.cl w.w k rd kind code := by
  have htake' : ((Slice0.issued s w i).stw w.c.ch w.c.cl w.w).take = some k := (take_issued ..).trans htake
  simp only [stwExc, htake', hkind, if_true]

/-- What a sync instruction writes where it is deferred. -/
theorem syncAct_of_some (htake : (Slice0.stwOf s w).take = some k)
    (hm : i.mn ∈ [SMn.syncRd, .syncAdd, .syncSet, .syncWge, .barArv, .barWait, .barArw]) (t : State) :
    syncAct (Slice0.stwOf s w) (Slice0.iss s w i) t =
      stwDefer t w.c.ch w.c.cl w.w k (syncDest i) kAccess cTakeDeferred := by
  obtain ⟨posted, f, hact⟩ := syncAct_checked (Slice0.stwOf s w) (Slice0.iss s w i) t
  have hdest : (if (syncAsked (Slice0.stwOf s w) i).2.2 then 0 else syncDest i) = syncDest i := by
    simp only [List.mem_cons, List.not_mem_nil, or_false] at hm
    rcases hm with hm | hm | hm | hm | hm | hm | hm <;> simp [syncAsked, syncDest, Slice0.syncOp, hm]
  rw [hact, syncCheck, held_of_some htake, show (Slice0.iss s w i).i = i from rfl, hdest]

theorem exec_sLdl_misaligned (h : Slice0.Issues s w i) (hm : i.mn = .ldl) (hal : localAddr s w i % i.width ≠ 0) :
    exec (.sLdl w) s = .next (stwExc (Slice0.issued s w i) w.c.ch w.c.cl w.w i.rd kMisaligned cNone (localAddr s w i)) := by
  rw [exec_of_issues (c := .sLdl w) h hm rfl]
  dsimp only
  rw [local_eq]
  exact congrArg Host.Outcome.next (localCheck_of_misaligned _ hal)

/-- A sync instruction that is deferred. -/
theorem exec_sync_of_some (h : Slice0.Issues s w i) (htake : (Slice0.stwOf s w).take = some k)
    (hm : i.mn ∈ [SMn.syncRd, .syncAdd, .syncSet, .syncWge, .barArv, .barWait, .barArw]) {rd : Nat} (hrd : syncDest i = rd) :
    exec (Slice0.stwCommand i.mn w) s =
      .next (stwDefer (Slice0.issued s w i) w.c.ch w.c.cl w.w k rd kAccess cTakeDeferred) := by
  rw [exec_sync h hm, syncAct_of_some htake hm, hrd]

/-- An instruction of another unit that is deferred, once its command is known to hold it. -/
theorem exec_held_of_some (h : Slice0.Issues s w i) (htake : (Slice0.stwOf s w).take = some k) {m : SMn} (hm : i.mn = m) {rd : Nat}
    {f : Iss → State → State} {g : State → State}
    (hf : f (Slice0.iss s w i) (Slice0.issued s w i) = (Slice0.iss s w i).held (Slice0.issued s w i) rd g)
    (hc : exec (Slice0.stwCommand m w) s = .next (stwRow w s m f)) :
    exec (Slice0.stwCommand i.mn w) s =
      .next (stwDefer (Slice0.issued s w i) w.c.ch w.c.cl w.w k rd kAccess cTakeDeferred) := by
  rw [exec_command_of_issues h hm hc, hf, held_of_some htake]

/-- RETT of supervisor code is held under a take. -/
theorem exec_sRett_of_some (h : Slice0.Issues s w i) (htake : (Slice0.stwOf s w).take = some k) (hm : i.mn = .rett)
    (hprv : (Slice0.stwOf s w).prv = true) : exec (Slice0.stwCommand i.mn w) s =
      .next (stwDefer (Slice0.issued s w i) w.c.ch w.c.cl w.w k 0 kAccess cTakeDeferred) :=
  exec_held_of_some h htake hm (if_pos hprv) rfl

end Defer

/-- Settles O51: what may not run ahead, and an exception, leave 0 in `RD` and a record of the slot. -/
theorem exceptionsAreDeferred : Obligations.ExceptionsAreDeferred := by
  intro s w i k h htake x a
  refine ⟨fun hm => ?silent, fun hm => ?answering, fun hm => ?sysc, fun hm hal => ?misaligned, fun hm hslot => ?ticket⟩
  case silent =>
    refine ⟨_, ?_, deferred_stwDefer s w i k 0 kAccess cTakeDeferred⟩
    rcases hm with hm | ⟨hm, hprv⟩
    · simp only [List.mem_cons, List.not_mem_nil, or_false] at hm
      rcases hm with hm | hsync | hsync | hsync | hsync | hsync | hm | hm
      · exact exec_held_of_some h htake hm rfl rfl
      rotate_right 2
      · exact exec_held_of_some h htake hm rfl rfl
      · exact exec_held_of_some h htake hm rfl rfl
      all_goals exact exec_sync_of_some h htake (by simp [hsync]) (by simp [syncDest, hsync])
    · exact exec_sRett_of_some h htake hm hprv
  case answering =>
    refine ⟨_, ?_, deferred_stwDefer s w i k i.rd kAccess cTakeDeferred⟩
    simp only [List.mem_cons, List.not_mem_nil, or_false] at hm
    rcases hm with hm | hm | hm | hm
    · exact exec_held_of_some h htake hm rfl rfl
    · exact exec_sync_of_some h htake (by simp [hm]) (by simp [syncDest, hm])
    · exact exec_sync_of_some h htake (by simp [hm]) (by simp [syncDest, hm])
    · exact exec_held_of_some h htake hm rfl rfl
  case sysc =>
    refine ⟨_, exec_of_issues h hm rfl, ?_⟩
    have hd := deferred_stwDefer s w i k 0 kSyscall cNone
    rwa [← stwExc_of_some htake (.inl (by decide))] at hd
  case misaligned =>
    refine ⟨_, exec_sLdl_misaligned h hm hal, ?_⟩
    rw [stwExc_of_some htake (.inl (by decide))]
    exact deferred_stwDefer ..
  case ticket =>
    obtain ⟨late, hexec⟩ := exec_ticket h hm
    rw [hexec, ticketGive_of_none late hslot, stwExc_of_some htake (.inr rfl)]
    exact ⟨_, rfl, deferred_stwDefer ..⟩

/-! ### Destination `s0` -/

section Zero

variable {s u t : State} {w : StwId} {v : Word} {pc : Nat}

/-- An instruction that completes with destination `s0` leaves the scalar registers and goes on. -/
theorem registers_of_retired_zero (h : Slice0.Retired s u w 0 v pc) :
    (∀ r, Slice0.xreg u w r = Slice0.xreg s w r) ∧ (Slice0.stwOf u w).pc = pc := by
  obtain ⟨hreg, hpc, -⟩ := h
  exact ⟨fun r => (hreg r).trans (if_neg fun e => e.2 e.1), hpc⟩

/-- A request issued is one more outstanding. -/
theorem length_reqs_issueReq (t : State) (ch : Nat) (r : Req) :
    ((issueReq t ch r).chan ch).reqs.length = (t.chan ch).reqs.length + 1 := by
  rw [issueReq, pushReq, State.chan, State.setChan, SMap.get_put_same, List.length_append]
  rfl

end Zero

/-- Settles O50: the write is discarded; results, requests, messages and traps are those of the obligations on each instruction. -/
theorem stewardZeroRegister : Obligations.StewardZeroRegister := by
  intro s w i h hrd htake ch c x t a g la q
  refine ⟨fun hm => ?integer, fun hm hal hend hdue hcopy hclean => ?load, fun hm hal hin => ?misaligned,
    fun hm hal hcode hctl => ?request, fun e l hm hal hmode hpsn hq hask hcopy hend hfirst hgate hdue hguard => ?message⟩
  case integer =>
    obtain ⟨u, hexec, hret, -⟩ := stewardIntegerResults s w i h hm
    rw [hrd] at hret
    exact ⟨u, hexec, registers_of_retired_zero hret⟩
  case load =>
    obtain ⟨hload, -⟩ := stewardLocalMemory s w i h hal hend hdue hcopy
    obtain ⟨u, hexec, hret, -⟩ := hload hm hclean
    rw [hrd] at hret
    exact ⟨u, hexec, registers_of_retired_zero hret⟩
  case misaligned => exact ⟨_, exec_sLdl_misaligned h hm hal, trapped_exc_here htake hin _ _ _ (by decide) (by decide)⟩
  case request =>
    obtain ⟨hinstr, -⟩ := stewardGlobalMemory s w
    obtain ⟨hload, -⟩ := hinstr i h hal
    refine ⟨_, hload hm htake hcode hctl, ?_⟩
    rw [stwStall, setStw_chan_view, length_reqs_issueReq, State.chan, chans_issued, State.chan]
  case message =>
    obtain ⟨-, hrecv⟩ := stewardMessages s w i h hal
    have hoff : qMode t ch c q ≠ qOff := by
      rw [hmode]
      decide
    have hdispatch : qMode t ch c q ≠ qDispatch := by
      rw [hmode]
      decide
    obtain ⟨hmessage, -⟩ := hrecv hm htake hoff (fun e => absurd e hdispatch) hpsn hask
    obtain ⟨u, hexec, hret, hqueue, -⟩ := hmessage e l hq hend hfirst hcopy hgate hdue hguard
    rw [hrd] at hret
    exact ⟨u, hexec, hqueue, (registers_of_retired_zero hret).1⟩

end Sys2Proof.Machine


/-! Take and predictor instructions of a steward (R133, R275, R277, R289). -/

namespace Sys2Proof.Machine

/-! ### What leaves the clusters alone -/

theorem dlyRecord_cls (s : State) (ch src code cl a b : Nat) : (dlyRecord s ch src code cl a b).cls = s.cls := by
  simp [dlyRecord, apply_ite State.cls]

theorem refusedBy_cls (s : State) (ch : Nat) (fn : Option Nat) (code a : Nat) : (refusedBy s ch fn code a).cls = s.cls := by
  cases fn with
  | none => rfl
  | some f => simp [refusedBy, rptErr, fnErr, dlyRecord_cls, apply_ite State.cls]

theorem signalFor_cls (s : State) (ch kind c n : Nat) (fn : Option Nat) (i : Nat) : (signalFor s ch kind c n fn i).cls = s.cls := by
  simp [signalFor, signalErr, syncErr, sbErr, refusedBy_cls, apply_ite State.cls]

/-! ### Actions that wait in a cluster -/

section Queue

variable {s t u : State} {ch c : Nat}

/-- The actions that wait in a cluster stay. -/
def ActqKept (ch c : Nat) (s t : State) : Prop := (t.clu ch c).actq = (s.clu ch c).actq

theorem ActqKept.trans (h : ActqKept ch c s t) (k : ActqKept ch c t u) : ActqKept ch c s u := Eq.trans k h

theorem actqKept_of_cls (h : t.cls = s.cls) : ActqKept ch c s t := by
  rw [ActqKept, clu_of_cls h]

theorem actqKept_setClu {f : Cluster → Cluster} (h : ∀ k, (f k).actq = k.actq) : ActqKept ch c s (s.setClu ch c f) := by
  rw [ActqKept, clu_setClu_same, h]

theorem actqKept_foldl {α : Type} {f : State → α → State} (h : ∀ s a, ActqKept ch c s (f s a)) (l : List α) (s : State) :
    ActqKept ch c s (l.foldl f s) := by
  induction l generalizing s with
  | nil => rfl
  | cons a l ih => exact (h s a).trans (ih (f s a))

theorem ActqKept.ite {p : Prop} [Decidable p] (h : ActqKept ch c s t) (k : ActqKept ch c s u) :
    ActqKept ch c s (if p then t else u) := by
  split
  · exact h
  · exact k

theorem actqKept_setSbuf (s : State) (ch c n : Nat) (f : SBuf → SBuf) : ActqKept ch c s (setSbuf s ch c n f) :=
  actqKept_setClu fun _ => rfl

theorem actqKept_setTake (s : State) (ch c n : Nat) (f : TakeSlot → TakeSlot) : ActqKept ch c s (setTake s ch c n f) :=
  actqKept_setClu fun _ => rfl

theorem actqKept_sbSignal (s : State) (ch c n : Nat) (pub marked : Bool) : ActqKept ch c s (sbSignal s ch c n pub marked) :=
  .ite (.ite (actqKept_setSbuf ..) (actqKept_of_cls (signalFor_cls ..))) rfl

theorem actqKept_sbCommit (ch c : Nat) (k : Fin 4) (s : State) (n : Nat) : ActqKept ch c s (sbCommit ch c k s n) := by
  have hmark : ActqKept ch c s ((s.fset Fld.CL_SBn_STAT_MARKV (clLoc ch c) n 0).fset Fld.CL_SBn_STAT_MARK (clLoc ch c) n 0) := rfl
  exact .ite ((hmark.trans (actqKept_setSbuf ..)).trans
    (actqKept_foldl (fun t p => actqKept_sbSignal t ch c n p false) _ _)) rfl

theorem actqKept_stwFinish (s : State) (ch c n rd v : Nat) : ActqKept ch c s (stwFinish s ch c n rd v) := by
  obtain ⟨m, h⟩ := clu_stwFinish s ch c n rd v
  rw [ActqKept, h]

/-- The state in which a commit that ends has freed what its slot held in the cluster (R281). -/
def commitFreed (s : State) (ch c : Nat) (k : Fin 4) : State :=
  s.setClu ch c fun y =>
    { y with slots := y.slots.map fun p => (p.1, if p.2.take = some k then { p.2 with take := none } else p.2),
             act := none, shut := false }

/-- The state before it answers its steward. -/
def committed (s : State) (ch c : Nat) (k : Fin 4) (n : Nat) : State :=
  dlyRecord ((setTake ((List.range 32).foldl (sbCommit ch c k) (commitFreed s ch c k)) ch c k fun _ => {}).fadd
    Fld.CL_TAKESTAT_COMMITS (clLoc ch c) 0 1) ch 4 0 c k.val n

theorem commitEnd_of_clean (s : State) (ch c : Nat) (a : TakeAct)
    (hrec : (takeSlot s ch c (Fin.ofNat 4 a.slot : Fin 4)).rec? = none) :
    commitEnd s ch c a = stwFinish (committed s ch c (Fin.ofNat 4 a.slot) a.n) ch c a.w a.rd 0 := by
  unfold commitEnd
  dsimp only
  rw [hrec]
  rfl

theorem actqKept_committed (s : State) (ch c : Nat) (k : Fin 4) (n : Nat) : ActqKept ch c s (committed s ch c k n) := by
  have hfreed : ActqKept ch c s (commitFreed s ch c k) := actqKept_setClu fun _ => rfl
  have hbufs : ActqKept ch c (commitFreed s ch c k) ((List.range 32).foldl (sbCommit ch c k) (commitFreed s ch c k)) :=
    actqKept_foldl (actqKept_sbCommit ch c k) _ _
  refine ActqKept.trans ?_ (actqKept_of_cls (dlyRecord_cls ..))
  exact (hfreed.trans hbufs).trans (actqKept_setTake _ ch c k fun _ => {})

/-- With no action waiting none begins. -/
theorem takeNext_of_empty (h : (s.clu ch c).actq = []) (n : Nat) : takeNext n s ch c = s := by
  cases n with
  | zero => rfl
  | succ n =>
    rw [takeNext, h]
    split
    · simp_all
    · rfl

theorem takeNext_of_idle {a : TakeAct} {l : List TakeAct} (hact : (s.clu ch c).act = none) (hq : (s.clu ch c).actq = a :: l) (n : Nat) :
    takeNext (n + 1) s ch c = takeNext n (takeBegin (s.setClu ch c fun k => { k with actq := l }) ch c a) ch c := by
  rw [takeNext, hact, hq]

/-- A commit with no record left in the pen ends. -/
theorem commitGo_of_clear {a : TakeAct} (hact : (s.clu ch c).act = some a)
    (hpen : (s.clu ch c).pen.all (fun p => decide (p.1.val ≠ a.slot)) = true) : commitGo s ch c = commitEnd s ch c a := by
  have hfar : ∀ p ∈ (s.clu ch c).pen, ¬ decide (p.1.val = a.slot) = true := fun p hp hslot =>
    absurd (of_decide_eq_true hslot) (of_decide_eq_true (List.all_eq_true.1 hpen p hp))
  simp only [commitGo, releaseRecs, hact, List.find?_eq_none.2 hfar, List.any_eq_false.2 hfar, Bool.false_eq_true, if_false]

end Queue

end Sys2Proof.Machine


/-! Slots, the take register and the predictor, as the instructions of a steward use them (R133, R275, R277, R289). -/

namespace Sys2Proof.Machine

section Slots

variable {s : State} {w : StwId} {i : SIns} {ch c k : Nat}

/-! ### Slots -/

theorem takeOf_issued (s : State) (w : StwId) (i : SIns) (n : Nat) :
    ((Slice0.issued s w i).stw w.c.ch w.c.cl n).take = (s.stw w.c.ch w.c.cl n).take := by
  by_cases h : n = w.w.val
  · rw [h]
    exact take_issued s w i
  · rw [Slice0.issued, stw_setStw_other _ _ _ _ _ _ h, State.stw, clu_of_cls (cls_of_wakes (wakes_running s w)), State.stw]

theorem slotNamed_issued (s : State) (w : StwId) (i : SIns) (k : Nat) :
    slotNamed (Slice0.issued s w i) w.c.ch w.c.cl k = slotNamed s w.c.ch w.c.cl k := by
  simp only [slotNamed, takeOf_issued]

/-- A slot that TAKE.OPEN may open. -/
def slotFree (s : State) (ch c k : Nat) : Bool := !takeOpen s ch c k && !slotNamed s ch c k

theorem slotFree_eq_false (h : takeOpen s ch c k = true ∨ slotNamed s ch c k = true) : slotFree s ch c k = false := by
  rcases h with h | h <;> simp [slotFree, h]

theorem exec_sTakeOpen_of_issues (h : Slice0.Issues s w i) (hm : i.mn = .takeOpen) (htake : (Slice0.stwOf s w).take = none) :
    exec (.sTakeOpen w) s = .next (match (List.range 4).find? (slotFree s w.c.ch w.c.cl) with
      | none => stwFinish (Slice0.issued s w i) w.c.ch w.c.cl w.w i.rd 4
      | some k => stwFinish (setTake (Slice0.issued s w i) w.c.ch w.c.cl k fun _ => { isOpen := true }) w.c.ch w.c.cl w.w i.rd k) := by
  have hfree : slotFree s w.c.ch w.c.cl = slotFree (Slice0.issued s w i) w.c.ch w.c.cl := by
    funext k
    rw [slotFree, slotFree, takeOpen_issued, slotNamed_issued]
  rw [hfree, exec_of_issues (c := .sTakeOpen w) h hm rfl]
  exact congrArg Host.Outcome.next (held_of_none htake ..)

theorem clu_setTake (s : State) (ch c k : Nat) (f : TakeSlot → TakeSlot) : (setTake s ch c k f).clu ch c =
    { s.clu ch c with take := SMap.put (s.clu ch c).take k (f (takeSlot s ch c k)) } := by
  rw [setTake, clu_setClu_same]
  rfl

theorem stwOf_setTake (s : State) (w : StwId) (k : Nat) (f : TakeSlot → TakeSlot) :
    Slice0.stwOf (setTake s w.c.ch w.c.cl k f) w = Slice0.stwOf s w := by
  rw [Slice0.stwOf, State.stw, clu_setTake]
  rfl

theorem takeSlot_setTake_same (s : State) (ch c k : Nat) (f : TakeSlot → TakeSlot) :
    takeSlot (setTake s ch c k f) ch c k = f (takeSlot s ch c k) := by
  rw [takeSlot, clu_setTake, SMap.get_put_same]

theorem takeSlot_setTake_other (s : State) (ch c : Nat) {k m : Nat} (f : TakeSlot → TakeSlot) (h : m ≠ k) :
    takeSlot (setTake s ch c k f) ch c m = takeSlot s ch c m := by
  rw [takeSlot, clu_setTake, SMap.get_put_other _ _ _ _ _ h, takeSlot]

/-! ### Masks of slots -/

theorem testBit_slotMask (p : Nat → Bool) {m : Nat} (hm : m < 4) : (slotMask p).testBit m = p m := by
  have hbits : ∀ b₀ b₁ b₂ b₃ : Bool, ∀ n < 4,
      [ofBit b₀ * 2 ^ 0, ofBit b₁ * 2 ^ 1, ofBit b₂ * 2 ^ 2, ofBit b₃ * 2 ^ 3].sum.testBit n = [b₀, b₁, b₂, b₃].getD n false := by
    decide
  have hsum : slotMask p = [ofBit (p 0) * 2 ^ 0, ofBit (p 1) * 2 ^ 1, ofBit (p 2) * 2 ^ 2, ofBit (p 3) * 2 ^ 3].sum := rfl
  rw [hsum, hbits _ _ _ _ m hm]
  interval_cases m <;> rfl

theorem slotMask_lt (p : Nat → Bool) : slotMask p < 2 ^ 4 := by
  have hsums : ∀ b₀ b₁ b₂ b₃ : Bool, [ofBit b₀ * 2 ^ 0, ofBit b₁ * 2 ^ 1, ofBit b₂ * 2 ^ 2, ofBit b₃ * 2 ^ 3].sum < 2 ^ 4 := by
    decide
  exact hsums (p 0) (p 1) (p 2) (p 3)

/-- Two masks of four slots in one word. -/
theorem getLsbD_masks (p q : Nat → Bool) {m : Nat} (hm : m < 4) :
    (BitVec.ofNat 64 (slotMask p + slotMask q * 2 ^ 4)).getLsbD m = p m ∧
    (BitVec.ofNat 64 (slotMask p + slotMask q * 2 ^ 4)).getLsbD (m + 4) = q m := by
  have hsum : slotMask p + slotMask q * 2 ^ 4 = 2 ^ 4 * slotMask q + slotMask p := by ring
  have hlow : m < 64 := by omega
  have hhigh : m + 4 < 64 := by omega
  rw [hsum, BitVec.getLsbD_ofNat, BitVec.getLsbD_ofNat, decide_eq_true hlow, decide_eq_true hhigh,
    Nat.testBit_two_pow_mul_add _ (slotMask_lt p), Nat.testBit_two_pow_mul_add _ (slotMask_lt p), if_pos hm, if_neg (by omega),
    Nat.add_sub_cancel, testBit_slotMask p hm, testBit_slotMask q hm]
  exact ⟨rfl, rfl⟩

theorem exec_sTakeStat_of_issues (h : Slice0.Issues s w i) (hm : i.mn = .takeStat) : exec (.sTakeStat w) s =
    .next (stwFinish (Slice0.issued s w i) w.c.ch w.c.cl w.w i.rd (slotMask (takeOpen s w.c.ch w.c.cl) +
      slotMask (fun k => (takeSlot s w.c.ch w.c.cl k).rec?.isSome) * 2 ^ 4)) := by
  have hopen : takeOpen s w.c.ch w.c.cl = takeOpen (Slice0.issued s w i) w.c.ch w.c.cl := by
    funext k
    rw [takeOpen_issued]
  have hrec : (fun k => (takeSlot s w.c.ch w.c.cl k).rec?.isSome) =
      fun k => (takeSlot (Slice0.issued s w i) w.c.ch w.c.cl k).rec?.isSome := by
    funext k
    rw [takeSlot_issued]
  rw [hopen, hrec]
  exact exec_of_issues (c := .sTakeStat w) h hm rfl

/-! ### The take register -/

theorem exec_sTakeEnter_of_issues (h : Slice0.Issues s w i) (hm : i.mn = .takeEnter) (htake : (Slice0.stwOf s w).take = none) :
    exec (.sTakeEnter w) s = .next (stwFinish (setStw (Slice0.issued s w i) w.c.ch w.c.cl w.w fun x =>
      { x with take := some (Fin.ofNat 4 ((Slice0.stwOf s w).get i.ra)) }) w.c.ch w.c.cl w.w 0 0) :=
  (exec_of_issues (c := .sTakeEnter w) h hm rfl).trans (congrArg Host.Outcome.next (held_of_none htake ..))

theorem exec_sTakeLeave_of_issues (h : Slice0.Issues s w i) (hm : i.mn = .takeLeave) :
    exec (.sTakeLeave w) s = .next (stwFinish (setStw (Slice0.issued s w i) w.c.ch w.c.cl w.w fun x =>
      { x with take := none }) w.c.ch w.c.cl w.w 0 0) :=
  exec_of_issues (c := .sTakeLeave w) h hm rfl

/-- An instruction that writes its take register and completes. -/
theorem take_written (s : State) (w : StwId) (i : SIns) (k : Option (Fin 4)) :
    let u := stwFinish (setStw (Slice0.issued s w i) w.c.ch w.c.cl w.w fun x => { x with take := k }) w.c.ch w.c.cl w.w 0 0
    (Slice0.stwOf u w).take = k ∧ (Slice0.stwOf u w).pc = Slice0.after s w i ∧
    (∀ r, Slice0.xreg u w r = Slice0.xreg s w r) ∧ Slice0.RegsOnly s u w := by
  intro u
  have hu := stwOf_stwFinish_zero (setStw (Slice0.issued s w i) w.c.ch w.c.cl w.w fun x => { x with take := k }) w 0
  rw [stwOf_setStw, stwOf_issued] at hu
  exact ⟨(congrArg Stw.take hu :), (congrArg Stw.pc hu :), xreg_of_scalars ((congrArg Stw.x hu :)),
    regsOnly_trans (regsOnly_issued s w i) (regsOnly_trans (regsOnly_setStw ..) (regsOnly_stwFinish ..))⟩

/-! ### Commit and squash as they are issued -/

/-- The state in which a steward has issued an action and no other waits. -/
def actionIssued (s : State) (w : StwId) (i : SIns) : State :=
  (stwStall (Slice0.issued s w i) w.c.ch w.c.cl w.w .take).setClu w.c.ch w.c.cl fun y => { y with actq := [] }

theorem clu_issuing (s : State) (w : StwId) (i : SIns) : ∃ m,
    (stwStall (Slice0.issued s w i) w.c.ch w.c.cl w.w .take).clu w.c.ch w.c.cl = { s.clu w.c.ch w.c.cl with stws := m } := by
  obtain ⟨m, hclu⟩ := clu_issued s w i
  rw [stwStall, clu_setStw_same, hclu]
  exact ⟨_, rfl⟩

/-- With no action in progress and none that waits, an action begins at once (R277). -/
theorem takeIssue_of_idle (hact : (s.clu w.c.ch w.c.cl).act = none) (hq : (s.clu w.c.ch w.c.cl).actq = []) (commit : Bool) :
    takeIssue (Slice0.iss s w i) (Slice0.issued s w i) commit = takeBegin (actionIssued s w i) w.c.ch w.c.cl
      { w := w.w, slot := (Slice0.stwOf s w).get i.ra % 4, commit := commit, rd := i.rd } := by
  obtain ⟨m, hclu⟩ := clu_issuing s w i
  have hlen : ((stwStall (Slice0.issued s w i) w.c.ch w.c.cl w.w .take).clu w.c.ch w.c.cl).actq.length + 1 = 0 + 1 := by
    rw [hclu, hq]
    rfl
  unfold takeIssue
  dsimp only
  refine (congrArg (takeNext · _ _ _) hlen).trans ((takeNext_of_idle (l := [])
    (a := { w := w.w, slot := (Slice0.stwOf s w).get i.ra % 4, commit := commit, rd := i.rd }) ?_ ?_ 0).trans ?_)
  · rw [clu_setClu_same]
    exact (congrArg Cluster.act hclu).trans hact
  · rw [clu_setClu_same]
    exact congrArg (· ++ [_]) ((congrArg Cluster.actq hclu).trans hq)
  · rw [setClu_setClu]
    rfl

theorem clu_actionIssued (s : State) (w : StwId) (i : SIns) : ∃ m,
    (actionIssued s w i).clu w.c.ch w.c.cl = { s.clu w.c.ch w.c.cl with stws := m, actq := [] } := by
  obtain ⟨m, hclu⟩ := clu_issuing s w i
  rw [actionIssued, clu_setClu_same, hclu]
  exact ⟨m, rfl⟩

theorem takeOpen_actionIssued (s : State) (w : StwId) (i : SIns) (k : Nat) :
    takeOpen (actionIssued s w i) w.c.ch w.c.cl k = takeOpen s w.c.ch w.c.cl k := by
  obtain ⟨m, hclu⟩ := clu_actionIssued s w i
  rw [takeOpen, takeSlot, hclu]
  rfl

/-- What a steward that stalls is. -/
theorem stwOf_actionIssued (s : State) (w : StwId) (i : SIns) : Slice0.stwOf (actionIssued s w i) w =
    { Slice0.stwOf s w with ilen := i.len, st := wStalled, wait := .take } := by
  have hstall : Slice0.stwOf (actionIssued s w i) w =
      Slice0.stwOf (stwStall (Slice0.issued s w i) w.c.ch w.c.cl w.w .take) w := by
    rw [Slice0.stwOf, State.stw, actionIssued, clu_setClu_same]
    rfl
  rw [hstall, stwStall, stwOf_setStw, stwOf_issued]

/-- A list that is emptied already stays empty. -/
theorem regsOnly_emptied {t : State} (w : StwId) (h : (t.clu w.c.ch w.c.cl).actq = []) :
    Slice0.RegsOnly t (t.setClu w.c.ch w.c.cl fun y => { y with actq := [] }) w := by
  have hsame : ({ t.clu w.c.ch w.c.cl with actq := [] } : Cluster) = t.clu w.c.ch w.c.cl := by rw [← h]
  have hclu (c : Cl) : (t.setClu w.c.ch w.c.cl fun y => { y with actq := [] }).clu c.ch c.cl = t.clu c.ch c.cl := by
    by_cases hc : c = w.c
    · rw [hc, clu_setClu_same, hsame]
    · rw [clu_setClu_other _ _ _ _ _ _ fun e => hc (clLoc_inj e)]
  refine ⟨fun _ => rfl, rfl, rfl, rfl, rfl, fun v _ => ?_, fun c => by rw [hclu]⟩
  rw [Slice0.stwOf, State.stw, hclu, Slice0.stwOf, State.stw]

theorem regsOnly_actionIssued (hq : (s.clu w.c.ch w.c.cl).actq = []) : Slice0.RegsOnly s (actionIssued s w i) w := by
  obtain ⟨m, hclu⟩ := clu_issuing s w i
  refine regsOnly_trans (regsOnly_issued s w i) (regsOnly_trans (regsOnly_setStw ..) (regsOnly_emptied w ?_))
  exact (congrArg Cluster.actq hclu).trans hq

/-- TAKE.COMMIT and TAKE.SQUASH issue their action. -/
theorem exec_action (h : Slice0.Issues s w i) (hm : i.mn = .takeCommit ∨ i.mn = .takeSquash)
    (hact : (s.clu w.c.ch w.c.cl).act = none) (hq : (s.clu w.c.ch w.c.cl).actq = []) :
    exec (Slice0.stwCommand i.mn w) s = .next (takeBegin (actionIssued s w i) w.c.ch w.c.cl
      { w := w.w, slot := (Slice0.stwOf s w).get i.ra % 4, commit := decide (i.mn = .takeCommit), rd := i.rd }) := by
  rcases hm with hm | hm
  · rw [exec_command_of_issues h hm rfl, takeIssue_of_idle hact hq, hm]
    rfl
  · rw [exec_command_of_issues h hm rfl, takeIssue_of_idle hact hq, hm]
    rfl

theorem takeBegin_of_closed {t : State} {ch c : Nat} {a : TakeAct} (h : takeOpen t ch c a.slot = false) :
    takeBegin t ch c a = stwFinish t ch c a.w a.rd 1 := by
  rw [takeBegin, h]
  rfl

theorem takeBegin_of_open {t : State} {ch c : Nat} {a : TakeAct} (h : takeOpen t ch c a.slot = true) : takeBegin t ch c a =
    if a.commit then commitBegin (leaveSlot t ch c a.w a.slot) ch c a
    else stwFinish (squashSlot (leaveSlot t ch c a.w a.slot) ch c (Fin.ofNat 4 a.slot)) ch c a.w a.rd 0 := by
  rw [takeBegin, h]
  rfl

/-! ### Actions in progress -/

theorem exec_takeActionResume {c : Cl} (hclock : clocked s c.ch c.cl = true) : exec (.takeActionResume c) s = .next (
    let t := if (s.clu c.ch c.cl).act.isSome then commitGo s c.ch c.cl else s
    takeNext ((t.clu c.ch c.cl).actq.length + 1) t c.ch c.cl) := by
  refine (show exec (.takeActionResume c) s = execTakeActionResume c s from rfl).trans ?_
  simp only [execTakeActionResume, hclock, Bool.not_true, Bool.false_eq_true, if_false]

/-- A commit whose records have all left the pen ends, and no action follows. -/
theorem exec_takeActionResume_of_clear {c : Cl} {a : TakeAct} (hclock : clocked s c.ch c.cl = true)
    (hact : (s.clu c.ch c.cl).act = some a) (hpen : (s.clu c.ch c.cl).pen.all (fun p => decide (p.1.val ≠ a.slot)) = true)
    (hq : (s.clu c.ch c.cl).actq = []) (hrec : (takeSlot s c.ch c.cl (Fin.ofNat 4 a.slot : Fin 4)).rec? = none) :
    exec (.takeActionResume c) s = .next (commitEnd s c.ch c.cl a) := by
  have hgo : (if (s.clu c.ch c.cl).act.isSome then commitGo s c.ch c.cl else s) = commitEnd s c.ch c.cl a := by
    rw [hact, commitGo_of_clear hact hpen]
    rfl
  have hempty : ((commitEnd s c.ch c.cl a).clu c.ch c.cl).actq = [] := by
    rw [commitEnd_of_clean s _ _ a hrec]
    exact Eq.trans ((actqKept_committed ..).trans (actqKept_stwFinish ..)) hq
  rw [exec_takeActionResume hclock, hgo]
  exact congrArg Host.Outcome.next (takeNext_of_empty hempty _)

/-- An action that waited begins. -/
theorem exec_takeActionResume_of_waiting {c : Cl} {a : TakeAct} (hclock : clocked s c.ch c.cl = true)
    (hact : (s.clu c.ch c.cl).act = none) (hq : (s.clu c.ch c.cl).actq = [a]) :
    exec (.takeActionResume c) s = .next (takeNext 1
      (takeBegin (s.setClu c.ch c.cl fun k => { k with actq := [] }) c.ch c.cl a) c.ch c.cl) := by
  have hidle : (if (s.clu c.ch c.cl).act.isSome then commitGo s c.ch c.cl else s) = s := by
    rw [hact]
    rfl
  rw [exec_takeActionResume hclock, hidle]
  dsimp only
  rw [hq]
  exact congrArg Host.Outcome.next (takeNext_of_idle hact hq 1)

end Slots

/-! ### The predictor -/

section Predictor

variable {s t : State} {w : StwId} {i : SIns}

theorem predQuery_of_hit {ch f a : Nat} {e : PredEnt} (hen : t.fbit Fld.CH_PREDCTRL_EN ch = true) (hhit : predHit t ch f a = some e) :
    predQuery t ch f a = (t.fadd Fld.CH_PREDSTAT_HITS ch 0 1, packExperts (predExperts e)) := by
  simp only [predQuery, hen, hhit, Bool.not_true, Bool.false_eq_true, if_false]

/-- With the predictor off, or no entry that matches, the answer names no expert; a count changes at most. -/
theorem predQuery_of_miss {ch f a : Nat} (h : t.fbit Fld.CH_PREDCTRL_EN ch = false ∨ predHit t ch f a = none) :
    ∃ u, Wakes t u ∧ predQuery t ch f a = (u, packExperts []) := by
  cases hen : t.fbit Fld.CH_PREDCTRL_EN ch with
  | false => exact ⟨t, .refl t, by simp [predQuery, hen]⟩
  | true =>
    have hmiss : predHit t ch f a = none := h.resolve_left (by simp [hen])
    exact ⟨_, (Wakes.refl t).fset _ _ _ _, by simp only [predQuery, hen, hmiss, Bool.not_true, Bool.false_eq_true, if_false]; rfl⟩

/-- What PRED.Q makes of its query. -/
theorem exec_sPredQ_of_query (h : Slice0.Issues s w i) (hm : i.mn = .predQ) {u : State} {v : Nat}
    (hquery : predQuery (Slice0.issued s w i) w.c.ch ((clFn (Slice0.issued s w i) w.c.ch w.c.cl).getD 0) ((Slice0.stwOf s w).get i.ra) =
      (u, v)) : exec (.sPredQ w) s = .next (stwFinish u w.c.ch w.c.cl w.w i.rd v) := by
  rw [exec_of_issues (c := .sPredQ w) h hm rfl]
  exact congrArg (fun p : State × Nat => Host.Outcome.next (stwFinish p.1 w.c.ch w.c.cl w.w i.rd p.2)) hquery

/-- An instruction that counts in registers aside from its steward, and completes. -/
theorem retired_counted {u : State} (h : Wakes (Slice0.issued s w i) u) (rd v : Nat) :
    Slice0.Retired s (stwFinish u w.c.ch w.c.cl w.w rd v) w rd (BitVec.ofNat 64 v) (Slice0.after s w i) ∧
    Slice0.RegsOnly s (stwFinish u w.c.ch w.c.cl w.w rd v) w := by
  have hstw := stwOf_of_wakes w h
  refine ⟨retired_stwFinish ?_ ?_ rd v,
    regsOnly_trans (regsOnly_issued s w i) (regsOnly_trans (regsOnly_of_wakes w h) (regsOnly_stwFinish ..))⟩
  · rw [hstw]
    exact same_issued s w i
  · rw [hstw]
    exact ilen_issued s w i

end Predictor

/-- Settles O48: slots, the take register and their actions, an action that resumes, and the predictor. -/
theorem stewardTakeInstructions : Obligations.StewardTakeInstructions := by
  intro s w ch c x
  refine ⟨fun i h => ?instructions, fun a hclock hact hpen hq hrec => exec_takeActionResume_of_clear hclock hact hpen hq hrec,
    fun a hclock hact hq hopen hsquash => ?resumed, fun i h => ?predictor⟩
  case instructions =>
    intro t k left
    refine ⟨fun n hm htake hn hclosed hunnamed hbelow => ?opens, fun hm htake hnone => ?full, fun hm htake => ?enters, fun hm => ?leaves,
      fun hm => ?status, fun hm hclosed hact hq => ?closed, fun hm hopen hact hq => ?squashes, fun hm hopen hact hq => ?commits⟩
    case opens =>
      have hfind : (List.range 4).find? (slotFree s ch c) = some n := by
        refine List.find?_range_eq_some.2 ⟨by simp [slotFree, hclosed, hunnamed], List.mem_range.2 hn, fun m hlt => ?_⟩
        rw [slotFree_eq_false (hbelow m hlt)]
        rfl
      have hexec := exec_sTakeOpen_of_issues h hm htake
      rw [hfind] at hexec
      have hstw := stwOf_setTake t w n fun _ => { isOpen := true }
      refine ⟨_, hexec, retired_stwFinish ?_ ?_ .., ?_, fun m hne => ?_, ?_⟩
      · rw [hstw]
        exact same_issued s w i
      · rw [hstw]
        exact ilen_issued s w i
      · rw [takeOpen, takeSlot_stwFinish, takeSlot_setTake_same]
      · rw [takeSlot_stwFinish, takeSlot_setTake_other _ _ _ _ hne, takeSlot_issued]
      · rw [stwFinish_mem, setTake_mem, mem_issued]
    case full =>
      have hfind : (List.range 4).find? (slotFree s ch c) = none := by
        refine List.find?_range_eq_none.2 fun m hlt => ?_
        rw [slotFree_eq_false (hnone m hlt)]
        rfl
      have hexec := exec_sTakeOpen_of_issues h hm htake
      rw [hfind] at hexec
      exact ⟨_, hexec, retired_done .., regsOnly_done ..⟩
    case enters =>
      obtain ⟨htaken, hrest⟩ := take_written s w i (some (Fin.ofNat 4 (x.get i.ra)))
      refine ⟨_, exec_sTakeEnter_of_issues h hm htake, ?_, hrest⟩
      rw [htaken]
      rfl
    case leaves => exact ⟨_, exec_sTakeLeave_of_issues h hm, take_written s w i none⟩
    case status =>
      have hret := retired_done s w i i.rd (slotMask (takeOpen s ch c) + slotMask (fun k => (takeSlot s ch c k).rec?.isSome) * 2 ^ 4)
      obtain ⟨hreg, hpc, -⟩ := hret
      refine ⟨_, exec_sTakeStat_of_issues h hm, regsOnly_done .., fun hrd m hlt => ?_, fun r hr => ?_, hpc⟩
      · rw [hreg, if_pos ⟨rfl, hrd⟩]
        exact getLsbD_masks _ _ hlt
      · rw [hreg, if_neg fun e => hr e.1]
    case closed =>
      have hstw := stwOf_actionIssued s w i
      refine ⟨_, (exec_action h hm hact hq).trans (congrArg Host.Outcome.next
        (takeBegin_of_closed ((takeOpen_actionIssued ..).trans hclosed))), retired_stwFinish ?_ ?_ ..,
        regsOnly_trans (regsOnly_actionIssued hq) (regsOnly_stwFinish ..)⟩
      · rw [hstw]
        exact ⟨rfl, rfl, rfl, rfl, rfl, rfl, rfl⟩
      · rw [hstw]
    case squashes =>
      have hexec := exec_action h (.inr hm) hact hq
      rw [takeBegin_of_open ((takeOpen_actionIssued ..).trans hopen), hm] at hexec
      exact hexec
    case commits =>
      have hexec := exec_action h (.inl hm) hact hq
      rw [takeBegin_of_open ((takeOpen_actionIssued ..).trans hopen), hm] at hexec
      exact hexec
  case resumed =>
    have hopen' : takeOpen (s.setClu ch c fun k => { k with actq := [] }) ch c a.slot = true := by
      rw [takeOpen, takeSlot, clu_setClu_same]
      exact hopen
    rw [exec_takeActionResume_of_waiting hclock hact hq, takeBegin_of_open hopen', hsquash]
    rfl
  case predictor =>
    intro t f a
    refine ⟨fun e hm hen hhit => ?hit, fun hm hmiss => ?miss, fun hm htake => ?trains⟩
    case hit =>
      refine ⟨_, exec_sPredQ_of_query h hm (predQuery_of_hit hen hhit), retired_counted ?_ ..⟩
      exact (Wakes.refl t).fset _ _ _ _
    case miss =>
      obtain ⟨u, hwakes, hquery⟩ := predQuery_of_miss hmiss
      exact ⟨_, exec_sPredQ_of_query h hm hquery, retired_counted hwakes ..⟩
    case trains =>
      exact (exec_of_issues (c := .sPredU w) h hm rfl).trans (congrArg Host.Outcome.next (held_of_none htake ..))

end Sys2Proof.Machine
